-- ==== Sys2Proof/Word.lean ====
section
/-! DEFINITION. The bit-vector widths the manual works in (00_scope.md R7, 12_memory_fabric.md R218) and the
names of the numbered parts of the device (the name table of 00_scope.md). -/

namespace Sys2Proof

abbrev Byte := BitVec 8
abbrev Half := BitVec 16
abbrev Word := BitVec 32
/-- An 18-bit sample, two's complement unless a field says otherwise (R7). -/
abbrev Sample := BitVec 18
/-- A 64-byte mailbox slot, byte 0 in bits 7:0 (R45). -/
abbrev SlotWord := BitVec 512
/-- A 32-byte record: an intake record, a contact-sheet entry (03_host_interface.md). -/
abbrev Rec32 := BitVec 256
/-- A 72-bit memory word or publication payload (R116, R218). -/
abbrev Word72 := BitVec 72

abbrev QuadId := Fin 12
abbrev SlotId := Fin 4
abbrev PairId := Fin 12
abbrev FbId := Fin 48
abbrev EngineId := Fin 17
abbrev BankId := Fin 32
abbrev StrandId := Fin 256
abbrev MbId := Fin 8
abbrev CmpId := Fin 24
abbrev ProbeId := Fin 16
abbrev StgId := Fin 16
abbrev CanId := Fin 4
abbrev ExpId := Fin 8

/-- The four Ohmond ports (R235): S and Z are ring ports, T0 and T1 tree ports. -/
inductive Port | s | z | t0 | t1
deriving DecidableEq, Repr

/-- The two safety islands (R291). -/
inductive Island | a | b
deriving DecidableEq, Repr

/-- The two converters (R335). -/
inductive Conv | x | y
deriving DecidableEq, Repr

/-- The two time domains (R262). -/
inductive Dom | td1 | td2
deriving DecidableEq, Repr

/-- The two dies (R383). -/
inductive Die | c | f
deriving DecidableEq, Repr

end Sys2Proof
end

