-- ==== Sys2Proof/Machine/Cfg.lean ====
section
/-! DEFINITION. The configuration records of the device's blocks: what the commands set and what a negative carries
(15_fault_recovery_service.md R282 lists the items). Plain data; the running state that goes with each record is in
Machine/State.lean. -/

namespace Sys2Proof

/-- What a strand drives (R76). `unbound` is the state before the first STRAND_BIND. -/
inductive Binding
  | unbound
  | virt
  | servo (q : QuadId) (s : SlotId)
  | stepper (q : QuadId) (p : Fin 6)
  | stepgen (g : StgId)
  | can (c : CanId) (node : Nat)
deriving DecidableEq, Repr

/-- The profile limits of PROFILE_SET (R95, R96). For an S-curve `d1` is unused and `jerk` holds the last field. -/
structure Profile where
  scurve : Bool
  vStart : Nat
  vCorner : Nat
  vMax : Nat
  vStop : Nat
  a1 : Nat
  a2 : Nat
  d2 : Nat
  d1 : Nat
  jerk : Nat
deriving DecidableEq, Repr

/-- One validated coefficient block (R83, R84). Rows are in the order of R83: output rows, then state rows. -/
structure PlyBlock where
  n : Nat
  m : Nat
  p : Nat
  decouple : Bool
  clamp : List Nat
  sState : Nat
  sOut : List Nat
  integ : Option Nat
  outRows : List (List Int)
  stateRows : List (List Int)
  limits : List (Int × Int)
  cLq : Int
  cLd : Int
  cPsi : Int
  sDec : Nat
  mMax : Int
  velFs : Nat
  fwStart : Int
  kFw : Int
  idMin : Int
  sFw : Nat
  peShift : Nat
  ferrLimit : Nat
  ferrTime : Nat
deriving DecidableEq, Repr

/-- The stepper block of a stepper or step-generator strand (R154). -/
structure StepperBlock where
  msNum : Nat
  cntDen : Nat
  window : Nat
  stallTime : Nat
  holdFrac : Nat
  holdDelay : Nat
  velFs : Nat
deriving DecidableEq, Repr

/-- The auxiliary sensorless curve (R146). -/
structure AuxCurve where
  dutyInput : Bool
  channel : Nat
  dirInput : Option (Fin 32)
  revThreshold : Nat
  handover : Nat
  startCurrent : Int
  ramp : Nat
  resLimit : Int
  losTime : Nat
  alignTime : Nat
  pllBw : Nat
  rS : Nat
  hysteresis : Nat
  points : List (Int × Nat)
deriving DecidableEq, Repr

/-- The reference source chosen by SET_SOURCE (R89). -/
inductive ExtSource
  | intake
  | converter (index : Fin 16) (ratio offset : Int)
  | pulse (unit : FbId) (ratio offset : Int)
deriving DecidableEq, Repr

/-- The enlarger setting of a stepper strand (R160). -/
structure Enlarger where
  unit : FbId
  num : Nat
  den : Nat
deriving DecidableEq, Repr

/-- Everything commands configure on one strand. -/
structure StrandCfg where
  binding : Binding
  fb : Option FbId
  configured : Bool
  dS : Nat
  phase : Nat
  kP : Nat
  dP : Nat
  reaction : Nat
  overrunLimit : Nat
  cur : Option PlyBlock
  vel : Option PlyBlock
  pos : Option PlyBlock
  step : Option StepperBlock
  profile : Option Profile
  dq : Nat
  /-- d_q comes from a STOP: only another such STOP or STRAND_BIND changes it (R97) -/
  dqStop : Bool
  holdCycles : Nat
  source : ExtSource
  aux : Option AuxCurve
  enlarger : Option Enlarger
deriving DecidableEq, Repr

/-- The registers of a quad that configuration commands write, with their active values (R151, R152). -/
structure QuadCfg where
  mix : BitVec 2
  saw : Bool
  dbl : Bool
  run : Bool
  period : BitVec 24
  phase : BitVec 24
  dead : Vector (BitVec 16) 12
  gfEnable : BitVec 4
  gfLevel : BitVec 4
  div : BitVec 7
  osr3 : BitVec 3
  osr2 : BitVec 2
  clkEn : Bool
  capDly : BitVec 5
  limit : Vector Sample 12
  /-- the 256 magnitudes of the microstep table; `none` is the reset sine table (R155) -/
  microstep : Option (List Nat)
deriving DecidableEq, Repr

/-- STEPPER_CONFIG of one position: off time in ns, split in sixteenths, current (R153, R158). -/
structure ChopperCfg where
  offTime : Nat
  split : Nat
  current : Nat
deriving DecidableEq, Repr

/-- STG_CFG (R162). -/
structure StgCfg where
  width : BitVec 15
  dirPol : Bool
  dirSetup : BitVec 15
  enable : Bool
deriving DecidableEq, Repr

/-- FB_CFG and FB_OBS of one feedback unit (R167, R185). -/
structure FbCfg where
  mode : BitVec 3
  invert : Bool
  filter : BitVec 9
  bits : BitVec 6
  gray : Bool
  clkDiv : Byte
  bandwidth : Half
  period : Byte
deriving DecidableEq, Repr

/-- PROBE_ARM (R180). -/
structure ProbeCfg where
  edge : BitVec 2
  continuous : Bool
  mask : Rec32
deriving DecidableEq, Repr

/-- One entry of a compare list: a Q47.8 position and its direction code (R182). -/
structure CmpEntry where
  pos : Int
  dir : BitVec 2
deriving DecidableEq, Repr

/-- COMPARE_LOAD (R182). -/
structure CompareCfg where
  source : FbId
  width : Nat
  repeatMode : Bool
  repeatOff : Int
  entries : List CmpEntry
deriving DecidableEq, Repr

/-- SKEIN_DEFINE (R120). `coupling`: 0 gear, 1 cam, 2 phase. -/
structure SkeinCfg where
  master : BitVec 24
  coupling : Nat
  num : Int
  den : Nat
  camTable : Fin 64
  maxAge : Nat
  accelEst : Bool
  phase : Int
  camOrigin : Int
  regTarget : Int
  regRepeat : Nat
  regWindow : Nat
  regStrand : StrandId
deriving DecidableEq, Repr

/-- A user publication of PUBLISH_DEFINE (R116, R355). -/
structure UserPub where
  index : Nat
  source : Word
  kind : Byte
deriving DecidableEq, Repr

/-- One buffer of a cam table (R111). -/
structure CamBuf where
  bounded : Bool
  span : Nat
  rise : Int
  points : List (BitVec 64)
deriving DecidableEq, Repr

/-- The header of a cam buffer whose points lie in the banks (R113). -/
structure CamHead where
  bounded : Bool
  span : Nat
  rise : Int
  count : Nat
deriving DecidableEq, Repr

def CamBuf.head (c : CamBuf) : CamHead := ⟨c.bounded, c.span, c.rise, c.points.length⟩

/-- One function of the safety configuration (R307). -/
structure SafetyFn where
  type : Nat
  ss1 : Bool
  auto : Bool
  inputs : List Nat
  supply : List Nat
  tF : Nat
  tDisc : Nat
  zone : BitVec 12
  ss1Time : Nat
deriving DecidableEq, Repr

/-- The safety configuration of R307, decoded; `bytes` keeps the 288 stored bytes. -/
structure SafetyCfg where
  bytes : List Byte
  crc : Word
  user : BitVec 64
  tpPeriod : Nat
  safelight : Nat
  slSs1 : Nat
  quadMask : BitVec 12
  flyerPolicy : Nat
  fns : Vector SafetyFn 4
  keys : List (BitVec 256)
deriving DecidableEq, Repr

/-- The stored password: a salt and SHA-256(salt ‖ password) (R310). -/
structure Password where
  salt : BitVec 128
  hash : BitVec 256
deriving DecidableEq, Repr

/-- A stored user flyer program (R212). -/
structure FlyerImage where
  signed : Bool
  key : BitVec 2
  entries : List Nat
  counts : List Nat
  code : List (BitVec 36)
  data : List Sample
deriving DecidableEq, Repr

/-- CAN_CONFIG of one controller (R344). -/
structure CanCfg where
  nbrp : Nat
  ntseg1 : Nat
  ntseg2 : Nat
  nsjw : Nat
  dbrp : Nat
  dtseg1 : Nat
  dtseg2 : Nat
  dsjw : Nat
  tdcOff : Nat
  fd : Bool
  brs : Bool
  oneShot : Bool
  autoRecover : Bool
  missClassic : BitVec 2
  missFd : BitVec 2
  f0Size : Nat
  f1Size : Nat
  over0 : Bool
  over1 : Bool
  base : Nat
  rxMask : BitVec 64
  driveBase : Nat
  statusBase : Nat
deriving DecidableEq, Repr

/-- A negative (R282): the items of the list that configuration can restore, in its order. -/
structure Negative where
  device : Option (BitVec 14)
  masterPrio : BitVec 4
  prio1 : BitVec 4
  prio2 : BitVec 4
  safety : SafetyCfg
  password : Option Password
  strands : List StrandCfg
  quads : List QuadCfg
  choppers : List (Option ChopperCfg)
  stgs : List StgCfg
  fbs : List FbCfg
  probes : List ProbeCfg
  compares : List (Option CompareCfg)
  skeins : List (Option SkeinCfg)
  pubmap : List (BitVec 24 × Sample)
  subscriptions : List (BitVec 24)
  watchdogMs : Nat
  cans : List CanCfg
  programs : List (Option FlyerImage)
  cams : List (Option CamBuf)
deriving DecidableEq, Repr

end Sys2Proof
end

