-- ==== Sys2Proof/Syntax.lean ====
section
/-! DEFINITION. The commands the device takes: one constructor of `Instr` for each row of spec/opcode_table.json,
with the row's operands. A distaff command carries its origin (mailbox, tag) and its arguments in the order of R72;
a flyer instruction carries its engine and the fields of R201 to R205; an event carries what the outside supplies
with it (a pin's new level, a received frame, a converter's result). -/

namespace Sys2Proof

/-- The key of a remote request (R276). -/
structure RemoteKey where
  mailbox : Byte
  tag : Byte
  rseq : Word
deriving DecidableEq, Repr

/-- Where a distaff command comes from: its mailbox and tag, the irq flag of its slot, and for MB6 the source
device and key of the remote request (R48, R276). -/
structure Origin where
  mb : MbId
  tag : Fin 32
  irq : Bool
  remote : Option (BitVec 14 × RemoteKey)
deriving DecidableEq, Repr

/-- A descriptor (R64). `data` is what the bus gives when the device moves the data: for dir 0 the bytes its read
returns, for dir 1 any list; `none` is a PCIe completion error or disabled bus mastering (R65). -/
structure Desc where
  addr : BitVec 64
  len : Word
  kind : Byte
  dir : Byte
  rsv : Half
  data : Option (List Byte)
deriving DecidableEq, Repr

/-- A bit error a bank read meets: the global word and whether two bits are wrong (R227). -/
structure EccErr where
  word : Nat
  double : Bool
deriving DecidableEq, Repr

/-- The limit fields of PROFILE_SET in argument order; `d1` is the last field, d1 or jerk (R72, R96). -/
structure ProfileArgs where
  shape : Byte
  vStart : Word
  vCorner : Word
  vMax : Word
  vStop : Word
  a1 : Word
  a2 : Word
  d2 : Word
  d1 : Word
deriving DecidableEq, Repr

/-- The arguments of PTP_CONFIG with the fields of R363. -/
structure PtpArgs where
  enable : Byte
  domain : Byte
  interval : Byte
  set : Byte
  ip : Word
  mask : Word
  gateway : Word
  key : BitVec 256
deriving DecidableEq, Repr

/-- The memory slot of a P- or A-format instruction (R201). `ecc` is an input: the local word read shows an error, true where
it is a double-bit one (R191). -/
structure MemSlot where
  op : BitVec 2
  reg : BitVec 4
  a : BitVec 3
  upd : BitVec 2
  ecc : Option Bool
deriving DecidableEq, Repr

/-- A MAC slot (R201). -/
structure MacSlot where
  op : BitVec 2
  acc : BitVec 2
  x : BitVec 4
  y : BitVec 3
deriving DecidableEq, Repr

/-- The check bits of a serial frame as received: CRC good, the nE and nW lines (active low), and for SSI the data
line's level at the frame start (R174). -/
structure SerialCheck where
  crc : BitVec 6
  nE : Bool
  nW : Bool
  startHigh : Bool
deriving DecidableEq, Repr

/-- The instant of the samples of a sample-ready event: its update boundary, and ns from the cycle start (R140, R179). -/
structure SampleInstant where
  peak : Bool
  ns : Nat
deriving DecidableEq, Repr

/-- Burst kinds (R243). -/
inductive BurstKind | home | exported | tree
deriving DecidableEq, Repr

/-- One publication of a burst (R243). -/
structure Pub where
  endpoint : BitVec 24
  payload : Word72
  age : BitVec 6
deriving DecidableEq, Repr

/-- A cycle burst (R243). -/
structure Burst where
  kind : BurstKind
  zward : Bool
  gen : BitVec 3
  source : BitVec 14
  cycle : Half
  pubs : List Pub
deriving DecidableEq, Repr

/-- How a copy of a burst comes in: the CRC-32 and the type of its end block, and how many block times after the cycle start
(R239, R242, R251). -/
structure Arrival where
  crc : Word
  stomped : Bool
  time : Nat
deriving DecidableEq, Repr

/-- A negative record (R283). -/
structure NegRecord where
  device : BitVec 14
  serial : BitVec 48
  variant : BitVec 2
  generation : Word
  crc : Word
  safety : BitVec 256
deriving DecidableEq, Repr

/-- A time announcement (R265): whether a master or a candidate sends it, its priority and serial, the full domain time, and
the hops it has made. -/
structure Announcement where
  dom : Dom
  master : Bool
  prio : BitVec 4
  serial : BitVec 48
  time : BitVec 64
  hops : Nat
deriving DecidableEq, Repr

/-- What a frame's data blocks say, where the device itself acts on it: the manual gives the contents and no layout (log
entry 56). -/
inductive FrameBody
  | blocks
  | announce (a : Announcement)
  | record (r : NegRecord)
  | negative (device : BitVec 14) (n : Negative)
deriving DecidableEq, Repr

/-- An asynchronous frame (R247). -/
structure Frame where
  dst : BitVec 14
  src : BitVec 14
  kind : BitVec 4
  hseq : Byte
  oseq : Byte
  data : List (BitVec 64)
  body : FrameBody
deriving DecidableEq, Repr

/-- When a frame may go: the block time after the cycle start, and whether the quota of R225 keeps urgent frames back (R250). -/
structure SendTurn where
  time : Nat
  masked : Bool
deriving DecidableEq, Repr

/-- A PTP message with the domainNumber and sequence of its header (R272): a Sync that arrived at a device time, with its time
where the master is a one-step one, a Follow_Up, or the Delay_Resp to a Delay_Req. -/
inductive PtpMessage
  | sync (domain : Byte) (seq : Half) (arrived : BitVec 64) (time : Option (BitVec 64))
  | followUp (domain : Byte) (seq : Half) (time : BitVec 64)
  | delayResp (domain : Byte) (seq : Half) (time : BitVec 64)
deriving DecidableEq, Repr

/-- A candidate of an election: its priority, its module serial and whether it is this device (R252, R265). -/
structure Candidate where
  prio : BitVec 4
  serial : BitVec 48
  self : Bool
deriving DecidableEq, Repr

/-- A device the enumeration finds (R253): its serial, the number in its negative, the number of a missing device
whose negative both its ring neighbours hold, and whether it is this device. -/
structure FoundDevice where
  serial : BitVec 48
  held : Option (BitVec 14)
  missing : Option (BitVec 14)
  quadsNeeded : BitVec 12
  quadsEnabled : BitVec 12
  /-- the roles of its T ports: 2 uplink, 3 downlink (R237) -/
  role0 : BitVec 2
  role1 : BitVec 2
  self : Bool
deriving DecidableEq, Repr

/-- A link the enumeration finds from the hellos (R236, R253): two devices by their places in the list, their ports, and the
length in m (R258). -/
structure FoundLink where
  a : Nat
  pa : Port
  b : Nat
  pb : Port
  metres : Nat
deriving DecidableEq, Repr

/-- How an input answered its own test pulse: low within 20 µs, high again within 50 µs of the end (R294). -/
structure PulseResponse where
  wentLow : Bool
  returned : Bool
deriving DecidableEq, Repr

/-- The function whose ready bit sets (R28). -/
inductive ReadyFn
  | bit (i : Fin 24)
  | bank (b : BankId)
  | engine (e : EngineId)
deriving DecidableEq, Repr

/-- What the outside supplies while the distaff runs a command copied from a ring: the bytes of its descriptor's
read, the random salt of a new password, and the outcome of an ECDSA check (R65, R310, R214). -/
structure DmaInput where
  data : Option (List Byte)
  salt : BitVec 128
  sigOk : Bool
deriving DecidableEq, Repr

/-- A member's refusal of a schedule (R256, R257). -/
structure SchedRefusal where
  device : BitVec 14
  strand : Option Byte
deriving DecidableEq, Repr

/-- What the outside supplies to one step of a long operation: whether this step reports progress, whether the bus
moved the data, the islands' comparison or the test's outcome, the members' refusals and the copies stored. -/
structure StepInput where
  report : Bool
  busOk : Bool
  pass : Bool
  refusals : List SchedRefusal
  stored : BitVec 3
  ecc : List EccErr
  /-- words port A is writing while the step writes (R222) -/
  portA : List Nat
deriving DecidableEq, Repr

/-- Who writes a register: the host through BAR0, or the distaff or a bench access on the internal bus (R42, R61). -/
inductive RegBus | bar0 | internal
deriving DecidableEq, Repr

/-- Requesters of the bobbin pool and their empty policies (R233). -/
inductive PoolUser | link | command | own
deriving DecidableEq, Repr

/-- A CAN frame on the bus (R346). -/
structure CanFrame where
  ide : Bool
  rtr : Bool
  fdf : Bool
  brs : Bool
  esi : Bool
  ident : BitVec 29
  dlc : BitVec 4
  data : List Byte
  stamp : Word
deriving DecidableEq, Repr

/-- What a USB bus reset interrupts (R360). -/
inductive UsbStage | idle | setupOrData | status | bulkOut
deriving DecidableEq, Repr

/-- The header and mac of an MB5 datagram (R364). -/
structure Datagram where
  ack : Half
  session : Word
  seq : Word
  mac : BitVec 256
deriving DecidableEq, Repr

/-- The commands, one constructor for each row of spec/opcode_table.json, in its order. -/
inductive Instr
  /-- IDENTIFY (R63). -/
  | identify (o : Origin)
  /-- SYSTEM_RESET (R26). -/
  | systemReset (o : Origin) (flags : Byte)
  /-- DISTAFF_RESTART (R53). -/
  | distaffRestart (o : Origin)
  /-- SET_CLOCK_SOURCES (R31). -/
  | setClockSources (o : Origin) (pri0 pri1 pri2 revert : Byte)
  /-- SET_WATERMARK (R57). -/
  | setWatermark (o : Origin) (source : Byte) (mark hyst : Word)
  /-- CANCEL (R52). -/
  | cancel (o : Origin) (mailbox tag : Byte)
  /-- GET_COUNTERS (R72). -/
  | getCounters (o : Origin) (clear : Byte)
  /-- PING (R72). -/
  | ping (o : Origin) (bytes : List Byte)
  /-- LOG_READ (R289). -/
  | logRead (o : Origin) (first count : Word) (desc : Desc)
  /-- MB_TAGS (R50). -/
  | mbTags (o : Origin) (mailbox : Byte)
  /-- SET_LATENCY_TOLERANCE (R34). -/
  | setLatencyTolerance (o : Origin) (function : Half) (ns : Word)
  /-- SET_DEVICE_STATE (R36). -/
  | setDeviceState (o : Origin) (state : Byte)
  /-- GET_POWER (R72). -/
  | getPower (o : Origin)
  /-- STRAND_BIND (R76). -/
  | strandBind (o : Origin) (strand : Half) (kind : Byte) (target : Half) (fb : Byte)
  /-- STRAND_CONFIG (R13). -/
  | strandConfig (o : Origin) (strand : Half) (dS phase kP dP reaction overrunLimit : Byte)
  /-- PLY_COEFF (R83). -/
  | plyCoeff (o : Origin) (strand : Half) (ply : Byte) (desc : Desc)
  /-- STRAND_ARM (R90). -/
  | strandArm (o : Origin) (strand : Half)
  /-- STRAND_ENABLE (R90). -/
  | strandEnable (o : Origin) (strand : Half)
  /-- STRAND_DISABLE (R90). -/
  | strandDisable (o : Origin) (strand : Half)
  /-- STOP (R103). -/
  | stop (o : Origin) (strand : Half) (kind : Byte) (decel : Word)
  /-- STOP_NOW (R90). -/
  | stopNow (o : Origin) (strand : Half)
  /-- FAULT_RESET (R93). -/
  | faultReset (o : Origin) (strand : Half)
  /-- SET_TRANSFER (R88). -/
  | setTransfer (o : Origin) (strand : Half) (mode : Byte) (output : Word)
  /-- SET_SOURCE (R89). -/
  | setSource (o : Origin) (strand : Half) (source index : Byte) (ratio offset : Word)
  /-- STRAND_HOLD (R90). -/
  | strandHold (o : Origin) (strand : Half) (release : Byte)
  /-- STRAND_READ (R129). -/
  | strandRead (o : Origin) (strand : Half)
  /-- PROFILE_SET (R96). -/
  | profileSet (o : Origin) (strand : Half) (prof : ProfileArgs)
  /-- MOVE_ABS (R98). -/
  | moveAbs (o : Origin) (strand : Half) (target : BitVec 64)
  /-- MOVE_REL (R98). -/
  | moveRel (o : Origin) (strand : Half) (distance : BitVec 64)
  /-- JOG (R102). -/
  | jog (o : Origin) (strand : Half) (velocity : Word)
  /-- GROUP_DEFINE (R104). -/
  | groupDefine (o : Origin) (group count : Byte) (members : List Half)
  /-- PATH_QUEUE (R105). -/
  | pathQueue (o : Origin) (group : Byte) (desc : Desc)
  /-- PATH_START (R109). -/
  | pathStart (o : Origin) (group : Byte)
  /-- PATH_STOP (R110). -/
  | pathStop (o : Origin) (group : Byte) (decel : Word)
  /-- CAM_LOAD (R111). -/
  | camLoad (o : Origin) (table : Half) (points : Word) (desc : Desc)
  /-- CAM_SWAP (R114). -/
  | camSwap (o : Origin) (table : Half)
  /-- CAM_EDIT (R115). -/
  | camEdit (o : Origin) (table : Half) (first : Word) (desc : Desc)
  /-- CAM_READ (R65). -/
  | camRead (o : Origin) (table : Half) (buffer : Byte) (desc : Desc)
  /-- SKEIN_DEFINE (R120). -/
  | skeinDefine (o : Origin) (skein : Byte) (master : Word) (coupling : Byte) (desc : Desc)
  /-- SKEIN_ENGAGE (R122). -/
  | skeinEngage (o : Origin) (skein : Byte) (strand : Half) (ramp : Word)
  /-- SKEIN_DISENGAGE (R122). -/
  | skeinDisengage (o : Origin) (skein : Byte) (strand : Half) (decel : Word)
  /-- REG_TRIM (R124). -/
  | regTrim (o : Origin) (skein probe : Byte) (gain limit ramp : Word)
  /-- PUBMAP_WRITE (R126). -/
  | pubmapWrite (o : Origin) (endpoint index : Word)
  /-- ROUTE_EPOCH (R127). -/
  | routeEpoch (o : Origin)
  /-- SET_HOLD_CYCLES (R125). -/
  | setHoldCycles (o : Origin) (strand : Half) (hold : Byte)
  /-- QUAD_CONFIG (R130). -/
  | quadConfig (o : Origin) (quad mix carrier : Byte) (period : Word) (double : Byte) (phase : Word)
  /-- DEADTIME_SET (R135). -/
  | deadtimeSet (o : Origin) (quad pair : Byte) (dead : Half)
  /-- SDF_CONFIG (R139). -/
  | sdfConfig (o : Origin) (quad : Byte) (fMod : Word) (osr3 : Half) (osr2 : Byte)
  /-- TRIP_CONFIG (R142). -/
  | tripConfig (o : Origin) (quad input : Byte) (limit : Word) (gateFault : Byte)
  /-- AUX_CURVE (R146). -/
  | auxCurve (o : Origin) (strand : Half) (hysteresis : Word) (desc : Desc)
  /-- AUX_COMMAND (R149). -/
  | auxCommand (o : Origin) (strand : Half) (speed : Word)
  /-- STEPPER_CONFIG (R158). -/
  | stepperConfig (o : Origin) (slot : Byte) (offTime : Half) (split : Byte) (current : Word)
  /-- MICROSTEP_TABLE (R156). -/
  | microstepTable (o : Origin) (quad : Byte) (desc : Desc)
  /-- ENLARGER_SET (R160). -/
  | enlargerSet (o : Origin) (strand : Half) (fb : Byte) (num den : Word)
  /-- STEPGEN_CONFIG (R161). -/
  | stepgenConfig (o : Origin) (stg : Byte) (width dirSetup : Word)
  /-- TABLE_STEP (R163). -/
  | tableStep (o : Origin) (strand address scale : Half)
  /-- FB_CONFIG (R168). -/
  | fbConfig (o : Origin) (unit mode : Byte) (filter : Half) (bits : Byte) (bandwidth : Word)
  /-- PROBE_ARM (R180). -/
  | probeArm (o : Origin) (probe edge mode zero : Byte) (mask : Rec32)
  /-- COMPARE_LOAD (R182). -/
  | compareLoad (o : Origin) (unit : Byte) (source : Half) (width : Word) (desc : Desc)
  /-- FB_READ (R72). -/
  | fbRead (o : Origin) (unit : Byte)
  /-- FLYER_LOAD (R212). -/
  | flyerLoad (o : Origin) (program : Byte) (desc : Desc) (sigOk : Bool)
  /-- FLYER_ASSIGN (R215). -/
  | flyerAssign (o : Origin) (engine program : Byte)
  /-- ENGINE_RETIRE (R216). -/
  | engineRetire (o : Origin) (engine : Byte)
  /-- FLYER_DEBUG (R217). -/
  | flyerDebug (o : Origin) (engine action : Byte)
  /-- BENCH_MODE (R59). -/
  | benchMode (o : Origin) (on : Byte) (password : Rec32)
  /-- REG_ACCESS (R61). -/
  | regAccess (o : Origin) (address : Word) (write : Byte) (value : Word)
  /-- MEM_READ (R65). -/
  | memRead (o : Origin) (address : Word) (desc : Desc)
  /-- MEM_WRITE (R72). -/
  | memWrite (o : Origin) (address : Word) (desc : Desc)
  /-- MEM_REPAIR (R230). -/
  | memRepair (o : Origin) (bank : Byte) (row : Half)
  /-- BANK_POWER (R226). -/
  | bankPower (o : Origin) (bank mode : Byte)
  /-- STAGE_OPEN (R66). -/
  | stageOpen (o : Origin) (length : Word)
  /-- STAGE_WRITE (R66). -/
  | stageWrite (o : Origin) (handle offset : Word) (count zero : Half) (data : List Byte)
  /-- STAGE_CLOSE (R66). -/
  | stageClose (o : Origin) (handle : Word)
  /-- STAGE_READ (R66). -/
  | stageRead (o : Origin) (handle offset : Word) (count : Half)
  /-- LINK_STATUS (R261). -/
  | linkStatus (o : Origin) (port : Byte)
  /-- DOMAIN_LEAVE (R254). -/
  | domainLeave (o : Origin)
  /-- SCHEDULE_WRITE (R256). -/
  | scheduleWrite (o : Origin) (first count : Word) (desc : Desc)
  /-- SET_CYCLE (R257). -/
  | setCycle (o : Origin) (t : Half)
  /-- NEGATIVE_SAVE (R282). -/
  | negativeSave (o : Origin)
  /-- PUBLISH_DEFINE (R116). -/
  | publishDefine (o : Origin) (index : Half) (source : Word) (kind : Byte)
  /-- HOST_SUBSCRIBE (R56). -/
  | hostSubscribe (o : Origin) (desc : Desc)
  /-- TIME_READ (R262). -/
  | timeRead (o : Origin)
  /-- TIME_SELECT (R268). -/
  | timeSelect (o : Origin) (domain : Byte)
  /-- TIME_PRIORITY (R265). -/
  | timePriority (o : Origin) (domain priority : Byte)
  /-- PTP_CONFIG (R272). -/
  | ptpConfig (o : Origin) (args : PtpArgs)
  /-- SAFETY_READ (R312). -/
  | safetyRead (o : Origin) (desc : Desc)
  /-- SAFETY_WRITE (R309). -/
  | safetyWrite (o : Origin) (password : Rec32) (desc : Desc)
  /-- SAFETY_CONFIRM (R285). -/
  | safetyConfirm (o : Origin) (password : Rec32) (user : BitVec 64)
  /-- SAFETY_PASSWORD (R310). -/
  | safetyPassword (o : Origin) (old new : BitVec 192) (user : BitVec 64) (salt : BitVec 128)
  /-- SAFETY_LOG_READ (R311). -/
  | safetyLogRead (o : Origin) (desc : Desc)
  /-- SAFETY_RESET (R303). -/
  | safetyReset (o : Origin)
  /-- EXP_CONFIG (R318). -/
  | expConfig (o : Origin) (unit : Byte) (desc : Desc)
  /-- EXP_ARM (R322). -/
  | expArm (o : Origin) (unit : Byte)
  /-- EXP_READ (R325). -/
  | expRead (o : Origin) (unit : Byte) (desc : Desc)
  /-- EXP_DISARM (R322). -/
  | expDisarm (o : Origin) (unit : Byte)
  /-- IO_CONFIG (R334). -/
  | ioConfig (o : Origin) (desc : Desc)
  /-- IO_DIAG (R332). -/
  | ioDiag (o : Origin)
  /-- WATCHDOG_SET (R333). -/
  | watchdogSet (o : Origin) (ms : Half)
  /-- CONV_TABLE (R336). -/
  | convTable (o : Origin) (converter : Byte) (desc : Desc)
  /-- CONV_READ (R72). -/
  | convRead (o : Origin) (converter : Byte)
  /-- CROSSCHECK_SET (R338). -/
  | crosscheckSet (o : Origin) (channel : Byte) (limit : Word) (safety : Byte)
  /-- CAN_CONFIG (R344). -/
  | canConfig (o : Origin) (ctl : Byte) (desc : Desc)
  /-- CAN_FILTER (R347). -/
  | canFilter (o : Origin) (ctl : Byte) (desc : Desc)
  /-- CAN_BUS (R353). -/
  | canBus (o : Origin) (ctl mode : Byte)
  /-- CAN_SEND (R350). -/
  | canSend (o : Origin) (ctl buffer : Byte) (desc : Desc)
  /-- FW_WRITE (R286). -/
  | fwWrite (o : Origin) (image : Byte) (offset : Word) (last : Byte) (desc : Desc) (sigOk : Bool)
  /-- FW_SWITCH (R73). -/
  | fwSwitch (o : Origin)
  /-- FW_STATUS (R72). -/
  | fwStatus (o : Origin)
  /-- CAL_READ (R39). -/
  | calRead (o : Origin) (desc : Desc)
  /-- CAL_WRITE (R39). -/
  | calWrite (o : Origin) (desc : Desc)
  /-- SELF_TEST (R72). -/
  | selfTest (o : Origin) (function : Half) (level : Byte)
  /-- PARALLEL (R201). -/
  | flParallel (e : EngineId) (m0 m1 : MacSlot) (m : MemSlot)
  /-- ADD (R202). -/
  | flAdd (e : EngineId) (dst s1 s2 : BitVec 4) (m : MemSlot)
  /-- SUB (R202). -/
  | flSub (e : EngineId) (dst s1 s2 : BitVec 4) (m : MemSlot)
  /-- NEG (R202). -/
  | flNeg (e : EngineId) (dst s1 : BitVec 4) (m : MemSlot)
  /-- ABS (R202). -/
  | flAbs (e : EngineId) (dst s1 : BitVec 4) (m : MemSlot)
  /-- AND (R202). -/
  | flAnd (e : EngineId) (dst s1 s2 : BitVec 4) (m : MemSlot)
  /-- OR (R202). -/
  | flOr (e : EngineId) (dst s1 s2 : BitVec 4) (m : MemSlot)
  /-- XOR (R202). -/
  | flXor (e : EngineId) (dst s1 s2 : BitVec 4) (m : MemSlot)
  /-- NOT (R202). -/
  | flNot (e : EngineId) (dst s1 : BitVec 4) (m : MemSlot)
  /-- SHL (R202). -/
  | flShl (e : EngineId) (dst s1 s2 : BitVec 4) (m : MemSlot)
  /-- SHR (R202). -/
  | flShr (e : EngineId) (dst s1 s2 : BitVec 4) (m : MemSlot)
  /-- ASR (R202). -/
  | flAsr (e : EngineId) (dst s1 s2 : BitVec 4) (m : MemSlot)
  /-- MOV (R202). -/
  | flMov (e : EngineId) (dst s1 : BitVec 4) (m : MemSlot)
  /-- CMP (R202). -/
  | flCmp (e : EngineId) (dst s1 s2 : BitVec 4) (m : MemSlot)
  /-- MIN (R202). -/
  | flMin (e : EngineId) (dst s1 s2 : BitVec 4) (m : MemSlot)
  /-- MAX (R202). -/
  | flMax (e : EngineId) (dst s1 s2 : BitVec 4) (m : MemSlot)
  /-- MAXI (R203). -/
  | flMaxi (e : EngineId) (dst s1 s2 : BitVec 4) (m : MemSlot)
  /-- MINI (R203). -/
  | flMini (e : EngineId) (dst s1 s2 : BitVec 4) (m : MemSlot)
  /-- WRAP (R202). -/
  | flWrap (e : EngineId) (dst s1 s2 : BitVec 4) (m : MemSlot)
  /-- SINCOS (R202). -/
  | flSincos (e : EngineId) (dst s1 : BitVec 4) (m : MemSlot)
  /-- CLARKE (R202). -/
  | flClarke (e : EngineId) (dst s1 : BitVec 4) (m : MemSlot)
  /-- PARK (R202). -/
  | flPark (e : EngineId) (dst s1 s2 : BitVec 4) (m : MemSlot)
  /-- IPARK (R202). -/
  | flIpark (e : EngineId) (dst s1 s2 : BitVec 4) (m : MemSlot)
  /-- DIVS (R202). -/
  | flDivs (e : EngineId) (dst s1 : BitVec 4) (m : MemSlot)
  /-- RDA (R202). -/
  | flRda (e : EngineId) (dst s1 : BitVec 4) (m : MemSlot)
  /-- RDAL (R202). -/
  | flRdal (e : EngineId) (dst s1 : BitVec 4) (m : MemSlot)
  /-- RDAM (R202). -/
  | flRdam (e : EngineId) (dst s1 : BitVec 4) (m : MemSlot)
  /-- RDAH (R202). -/
  | flRdah (e : EngineId) (dst s1 : BitVec 4) (m : MemSlot)
  /-- WRA (R202). -/
  | flWra (e : EngineId) (dst s1 : BitVec 4) (m : MemSlot)
  /-- CLRA (R202). -/
  | flClra (e : EngineId) (dst : BitVec 4) (m : MemSlot)
  /-- ADDA (R202). -/
  | flAdda (e : EngineId) (dst s1 : BitVec 4) (m : MemSlot)
  /-- SUBA (R202). -/
  | flSuba (e : EngineId) (dst s1 : BitVec 4) (m : MemSlot)
  /-- MOVA (R202). -/
  | flMova (e : EngineId) (dst s1 : BitVec 4) (m : MemSlot)
  /-- MOVD (R202). -/
  | flMovd (e : EngineId) (dst s1 : BitVec 4) (m : MemSlot)
  /-- AADD (R202). -/
  | flAadd (e : EngineId) (dst s1 : BitVec 4) (m : MemSlot)
  /-- MOVC (R202). -/
  | flMovc (e : EngineId) (dst s1 s2 : BitVec 4) (m : MemSlot)
  /-- MOVTC (R202). -/
  | flMovtc (e : EngineId) (dst s1 s2 : BitVec 4) (m : MemSlot)
  /-- BR (R204). -/
  | flBr (e : EngineId) (cond : BitVec 4) (target : BitVec 14)
  /-- CALL (R204). -/
  | flCall (e : EngineId) (cond : BitVec 4) (target : BitVec 14)
  /-- RET (R204). -/
  | flRet (e : EngineId) (cond : BitVec 4)
  /-- LOOPR (R199). -/
  | flLoopr (e : EngineId) (level : Bool) (reg : BitVec 4) (le : BitVec 14)
  /-- MODE (R204). -/
  | flMode (e : EngineId) (imm : Half)
  /-- GRP (R198). -/
  | flGrp (e : EngineId) (n : Half)
  /-- HALT (R204). -/
  | flHalt (e : EngineId)
  /-- RETI (R204). -/
  | flReti (e : EngineId)
  /-- RETX (R208). -/
  | flRetx (e : EngineId)
  /-- SIG (R204). -/
  | flSig (e : EngineId) (n : BitVec 3)
  /-- WAITF (R194). -/
  | flWaitf (e : EngineId) (n : BitVec 2)
  /-- BRK (R204). -/
  | flBrk (e : EngineId)
  /-- MOVI (R205). -/
  | flMovi (e : EngineId) (reg : BitVec 4) (imm : Sample)
  /-- MOVIA (R205). -/
  | flMovia (e : EngineId) (reg : BitVec 3) (imm : BitVec 20)
  /-- MOVX (R205). -/
  | flMovx (e : EngineId) (k : BitVec 2) (imm : Word)
  /-- LOOP (R199). -/
  | flLoop (e : EngineId) (level : Bool) (count : Sample) (le : BitVec 14)
  /-- FMV (R194). -/
  | flFmv (e : EngineId) (reg : BitVec 3) (k : BitVec 2) (toBanks : Bool) (lines : BitVec 7) (offset : BitVec 24) (ecc : List EccErr)
  /-- FATM (R224). -/
  | flFatm (e : EngineId) (reg : BitVec 4) (k : BitVec 2) (swap : Bool) (old : BitVec 15) (offset : BitVec 24) (ecc : List EccErr)
  /-- XAC (R193). -/
  | flXac (e : EngineId) (reg : BitVec 4) (k : BitVec 2) (read ac : Bool) (offset : Word)
  /-- FABRIC_OP_COMPLETE (R194). -/
  | fabricOpComplete (e : EngineId) (k : Fin 4)
  /-- FLYER_WATCHDOG_EXPIRY (R207). -/
  | flyerWatchdogExpiry (e : EngineId) (handler : Bool)
  /-- CYCLE_START (R10). -/
  | cycleStart (skipped : List StrandId)
  /-- PLY_UPDATE (R13). -/
  | plyUpdate (strand : StrandId) (j : Byte)
  /-- SHEET_PUBLISH (R18). -/
  | sheetPublish
  /-- PWM_BOUNDARY (R134). -/
  | pwmBoundary (quad : QuadId) (peak : Bool)
  /-- SAMPLE_READY (R140). -/
  | sampleReady (quad : QuadId) (at_ : SampleInstant) (data : List (List Bool))
  /-- OVERCURRENT_TRIP (R142). -/
  | overcurrentTrip (quad : QuadId) (input : PairId) (data : List Bool)
  /-- SDD_STUCK (R142). -/
  | sddStuck (quad : QuadId) (input : PairId) (stuck : Bool)
  /-- GATE_FAULT_INPUT (R143). -/
  | gateFaultInput (quad : QuadId) (g : SlotId) (level : Bool)
  /-- PWM_FORCE_WRITE (R136). -/
  | pwmForceWrite (quad : QuadId) (value : Word)
  /-- PWM_FORCE_PAIR_WRITE (R136). -/
  | pwmForcePairWrite (quad : QuadId) (value : Word)
  /-- PWM_TRIP_CLEAR (R144). -/
  | pwmTripClear (quad : QuadId) (value : Word)
  /-- CHOPPER_DRIVE_END (R158). -/
  | chopperDriveEnd (quad : QuadId) (pair : PairId)
  /-- CHOPPER_FAST_DECAY_END (R158). -/
  | chopperFastDecayEnd (quad : QuadId) (pair : PairId)
  /-- CHOPPER_OFF_TIME_END (R158). -/
  | chopperOffTimeEnd (quad : QuadId) (pair : PairId)
  /-- STEPPER_HOLD_CURRENT (R157). -/
  | stepperHoldCurrent (strand : StrandId)
  /-- STEP_EMIT (R161). -/
  | stepEmit (stg : StgId)
  /-- STG_PUSH_WRITE (R162). -/
  | stgPushWrite (stg : StgId) (value : Word)
  /-- ENLARGER_TIMEOUT (R160). -/
  | enlargerTimeout (strand : StrandId)
  /-- QUADRATURE_EDGE (R170). -/
  | quadratureEdge (unit : FbId) (a b : Bool) (samples : Nat)
  /-- HALL_CODE_CHANGE (R172). -/
  | hallCodeChange (unit : FbId) (code : BitVec 3) (samples : Nat)
  /-- PULSE_EDGE (R173). -/
  | pulseEdge (unit : FbId) (a b : Bool) (samples : Nat)
  /-- SERIAL_FRAME_START (R174). -/
  | serialFrameStart (unit : FbId) (samples : Nat)
  /-- SERIAL_FRAME_END (R174). -/
  | serialFrameEnd (unit : FbId) (word : BitVec 40) (check : SerialCheck) (samples : Nat)
  /-- COUNT_EXTENSION (R176). -/
  | countExtension (unit : FbId)
  /-- PROBE_EDGE (R181). -/
  | probeEdge (probe : ProbeId) (falling : Bool) (stamp : BitVec 64)
  /-- COMPARE_FIRE (R183). -/
  | compareFire (unit : CmpId) (samples : Nat)
  /-- COMPARE_PULSE_END (R183). -/
  | comparePulseEnd (unit : CmpId)
  /-- STANDSTILL (R91). -/
  | standstill (strand : StrandId)
  /-- STOP_TIMEOUT (R91). -/
  | stopTimeout (strand : StrandId)
  /-- FOLLOWING_ERROR (R92). -/
  | followingError (strand : StrandId)
  /-- CYCLE_OVERRUN (R17). -/
  | cycleOverrun (strand : StrandId)
  /-- PUB_MISSING (R125). -/
  | pubMissing (strand : StrandId)
  /-- STALL (R166). -/
  | stall (strand : StrandId)
  /-- CURRENT_SUM (R86). -/
  | currentSum (strand : StrandId)
  /-- AUX_SYNC_LOSS (R150). -/
  | auxSyncLoss (strand : StrandId)
  /-- AUX_ALIGNMENT_END (R148). -/
  | auxAlignmentEnd (strand : StrandId)
  /-- AUX_DUTY_TIMEOUT (R147). -/
  | auxDutyTimeout (strand : StrandId) (time : Nat)
  /-- DRIVE_STATUS_TIMEOUT (R354). -/
  | driveStatusTimeout (strand : StrandId)
  /-- BURST_TRANSMIT (R238). -/
  | burstTransmit (kind : BurstKind) (late : List Port) (ecc : List EccErr)
  /-- BURST_RECEIVE (R239). -/
  | burstReceive (port : Port) (burst : Burst) (arrival : Arrival)
  /-- HELLO_SEND (R236). -/
  | helloSend (port : Port)
  /-- HELLO_RECEIVE (R236). -/
  | helloReceive (port : Port) (device : BitVec 14) (valid : Bool) (serial : Half) (master : Bool)
  /-- HELLO_TIMEOUT (R241). -/
  | helloTimeout (port : Port)
  /-- BLOCK_LOCK_LOSS (R241). -/
  | blockLockLoss (port : Port)
  /-- PORT_DEGRADE (R236). -/
  | portDegrade (port : Port) (lane lost : Bool)
  /-- LANE_RESTORE (R236). -/
  | laneRestore (port : Port)
  /-- ASYNC_FRAME_TRANSMIT (R250). -/
  | asyncFrameTransmit (port : Port) (turn : SendTurn) (promoted : Bool)
  /-- ASYNC_FRAME_RECEIVE (R248). -/
  | asyncFrameReceive (port : Port) (frame : Frame) (crc : Word)
  /-- ACK_RECEIVE (R248). -/
  | ackReceive (port : Port) (hseq : Byte)
  /-- NAK_RECEIVE (R248). -/
  | nakReceive (port : Port) (hseq : Byte)
  /-- RELEASE_RECEIVE (R248). -/
  | releaseReceive (port : Port) (hseq : Byte)
  /-- RETRANSMIT_TIMEOUT (R248). -/
  | retransmitTimeout (port : Port) (hseq : Byte)
  /-- HELD_FRAME_TIMEOUT (R248). -/
  | heldFrameTimeout (port : Port) (hseq : Byte)
  /-- UNREACHABLE_REPORT (R248). -/
  | unreachableReport (rseq : Word)
  /-- DELIVERY_REPORT (R249). -/
  | deliveryReport (rseq : Word)
  /-- DELIVERY_ASSUMED (R249). -/
  | deliveryAssumed (rseq : Word)
  /-- REMOTE_REQUEST_RECEIVE (R277). -/
  | remoteRequestReceive (src : BitVec 14) (key : RemoteKey) (slot : SlotWord)
  /-- REMOTE_COMPLETION_RECEIVE (R276). -/
  | remoteCompletionReceive (src : BitVec 14) (key : RemoteKey) (slot : SlotWord)
  /-- REMOTE_TIMER_EXPIRY (R278). -/
  | remoteTimerExpiry (rseq : Word)
  /-- BEACON_SEND (R252). -/
  | beaconSend
  /-- BEACON_LOSS (R252). -/
  | beaconLoss (candidates : List Candidate)
  /-- ENUMERATION (R253). -/
  | enumeration (found : List FoundDevice) (links : List FoundLink) (degraded : List (Nat × Port))
  /-- PRINT_APPLY (R284). -/
  | printApply (neg : Negative)
  /-- DOMAIN_JOIN (R254). -/
  | domainJoin (time : BitVec 64) (cycle : BitVec 48)
  /-- SCHEDULE_CONFIRM_TIMEOUT (R256). -/
  | scheduleConfirmTimeout (refusal : SchedRefusal)
  /-- SCHEDULE_SWITCH (R256). -/
  | scheduleSwitch (entries : List Rec32)
  /-- SYNC_SEND (R263). -/
  | syncSend (port : Port) (dom : Dom)
  /-- DELAY_REQUEST_SEND (R263). -/
  | delayRequestSend (port : Port)
  /-- TIME_EVENT_RECEIVE (R263). -/
  | timeEventReceive (port : Port) (payload : BitVec 56) (stamp : BitVec 64)
  /-- DOMAIN_LOCK (R268). -/
  | domainLock (dom : Dom)
  /-- TIME_ANNOUNCE_SEND (R265). -/
  | timeAnnounceSend (dom : Dom)
  /-- TIME_ANNOUNCE_LOSS (R265). -/
  | timeAnnounceLoss (dom : Dom) (candidates : List Candidate)
  /-- UPSTREAM_PORT_LOSS (R267). -/
  | upstreamPortLoss (dom : Dom)
  /-- SLEW_END (R268). -/
  | slewEnd
  /-- TIME_HOLDOVER (R269). -/
  | timeHoldover
  /-- TIME_LOCK_CLEAR (R269). -/
  | timeLockClear
  /-- PTP_EVENT_MESSAGE (R272). -/
  | ptpEventMessage (msg : PtpMessage)
  /-- PLANT_VALID_TIMEOUT (R272). -/
  | plantValidTimeout
  /-- REFCLK_FAIL (R31). -/
  | refclkFail (source : BitVec 2)
  /-- REFCLK_REVERT (R31). -/
  | refclkRevert
  /-- REFCLK_MISMATCH (R31). -/
  | refclkMismatch
  /-- KEEPER_VOTE (R33). -/
  | keeperVote (countC countF : Nat)
  /-- SAFETY_INPUT_DEMAND (R295). -/
  | safetyInputDemand (island : Island) (fn ch : Fin 4)
  /-- SAFETY_INPUT_REST (R295). -/
  | safetyInputRest (island : Island) (fn ch : Fin 4)
  /-- TEST_PULSE_START (R293). -/
  | testPulseStart (k : Fin 4)
  /-- PULSE_CHECK (R294). -/
  | pulseCheck (input : Fin 8) (response : PulseResponse)
  /-- TP_READBACK_MISMATCH (R294). -/
  | tpReadbackMismatch (k : Fin 4)
  /-- SS1_TIMER_EXPIRY (R300). -/
  | ss1TimerExpiry (island : Island) (fn : Fin 5) (quad : QuadId)
  /-- DISCREPANCY_TIMEOUT (R297). -/
  | discrepancyTimeout (island : Island) (fn : Fin 4)
  /-- TWO_HAND_TIMEOUT (R296). -/
  | twoHandTimeout (island : Island) (fn : Fin 4)
  /-- SAFELIGHT_MINUTE (R305). -/
  | safelightMinute
  /-- SAFELIGHT_LIMIT_EXPIRY (R305). -/
  | safelightLimitExpiry
  /-- SWITCH_TEST (R306). -/
  | switchTest (island : Island) (quad : QuadId) (pass : Bool)
  /-- CROSS_LINK_SILENT (R304). -/
  | crossLinkSilent (failed : Island)
  /-- ISLAND_SELF_TEST (R316). -/
  | islandSelfTest (island : Island) (pass : Bool)
  /-- PASSWORD_LOCKOUT_END (R310). -/
  | passwordLockoutEnd
  /-- THERMAL_WARNING (R383). -/
  | thermalWarning (die : Die) (tj : BitVec 11)
  /-- THERMAL_TRIP (R383). -/
  | thermalTrip (die : Die) (tj : BitVec 11)
  /-- POWER_ON_RESET (R369). -/
  | powerOnReset (rail : Fin 8)
  /-- RESET_N_LOW (R26). -/
  | resetNLow
  /-- PERST_ASSERT (R27). -/
  | perstAssert
  /-- PCIE_LINK_UP (R27). -/
  | pcieLinkUp (busMaster msixEnable : Bool)
  /-- DISTAFF_WATCHDOG_EXPIRY (R26). -/
  | distaffWatchdogExpiry
  /-- FW_SWITCH_FALLBACK (R73). -/
  | fwSwitchFallback
  /-- DORMANT_WAKE (R37). -/
  | dormantWake
  /-- FUNCTION_READY (R28). -/
  | functionReady (fn : ReadyFn)
  /-- POWER_STATE_ENTRY (R34). -/
  | powerStateEntry (function : Half)
  /-- MAILBOX_REQUEST_COPY (R48). -/
  | mailboxRequestCopy (mb : MbId) (dma : DmaInput)
  /-- BUSY_SWITCH_ANSWER (R19). -/
  | busySwitchAnswer (mb : MbId)
  /-- C_SET_ARM (R67). -/
  | cSetArm
  /-- LONG_OPERATION_STEP (R51). -/
  | longOperationStep (mb : MbId) (tag : Fin 32) (input : StepInput)
  /-- COMPLETION_WRITE (R46). -/
  | completionWrite (mb : MbId)
  /-- REQ_PI_WRITE (R45). -/
  | reqPiWrite (mb : MbId) (value : Word)
  /-- RSP_CI_WRITE (R46). -/
  | rspCiWrite (mb : MbId) (value : Word)
  /-- SYS_INT_STATUS_CLEAR (R58). -/
  | sysIntStatusClear (value : Word)
  /-- SYS_INT_MASK_WRITE (R58). -/
  | sysIntMaskWrite (value : Word)
  /-- SYS_WM_NOTICE_CLEAR (R57). -/
  | sysWmNoticeClear (value : Word)
  /-- SYS_CYCLE_LO_READ (R42). -/
  | sysCycleLoRead
  /-- TIM_NOW_LO_READ (R273). -/
  | timNowLoRead
  /-- TIM_PLANT_LO_READ (R273). -/
  | timPlantLoRead
  /-- LNK_SEQ_CNT_CLEAR (R18). -/
  | lnkSeqCntClear
  /-- FB_QERR_CNT_CLEAR (R185). -/
  | fbQerrCntClear (unit : FbId)
  /-- STG_STAT_CLEAR (R162). -/
  | stgStatClear (stg : StgId) (value : Word)
  /-- BNK_ERR_CLEAR (R234). -/
  | bnkErrClear (bank : BankId) (value : Word)
  /-- BNK_COLL_CNT_CLEAR (R234). -/
  | bnkCollCntClear (bank : BankId)
  /-- BNK_POOL_ENABLE (R231). -/
  | bnkPoolEnable
  /-- BNK_POOL_CNT_CLEAR (R234). -/
  | bnkPoolCntClear
  /-- LNK_PCNT_CNT_CLEAR (R261). -/
  | lnkPcntCntClear (port : Port)
  /-- LNK_DOM_CNT_CLEAR (R261). -/
  | lnkDomCntClear
  /-- CAN_CNT_CLEAR (R356). -/
  | canCntClear (ctl : CanId)
  /-- CAN_TAKE_WRITE (R348). -/
  | canTakeWrite (ctl : CanId) (value : Word)
  /-- REGISTER_WRITE (R4). -/
  | registerWrite (bus : RegBus) (address : Word) (size : Nat) (value : BitVec 64)
  /-- BAR2_ACCESS (R60). -/
  | bar2Access (offset : BitVec 25) (size : Nat) (write : Option (List Byte)) (portA : List Nat) (ecc : List EccErr)
  /-- BOBBIN_ALLOCATE (R232). -/
  | bobbinAllocate (requester : PoolUser)
  /-- BOBBIN_RELEASE (R232). -/
  | bobbinRelease (index : Sample)
  /-- SCRUB_PASS (R229). -/
  | scrubPass (bank : BankId) (ecc : List EccErr)
  /-- BANK_CLEAR_DONE (R226). -/
  | bankClearDone (bank : BankId)
  /-- EXP_FRAME (R319). -/
  | expFrame (unit : ExpId) (samples : List (List Sample)) (stamp : Word) (room poison : Bool)
  /-- EXP_PRE_FILLED (R322). -/
  | expPreFilled (unit : ExpId)
  /-- EXP_TRIGGER (R321). -/
  | expTrigger (unit : ExpId) (samples : List (List Sample)) (stamp : Word)
  /-- EXP_HOLDOFF_END (R321). -/
  | expHoldoffEnd (unit : ExpId)
  /-- EXP_POST_COMPLETE (R322). -/
  | expPostComplete (unit : ExpId) (stamp : Word)
  /-- FIELD_INPUT_ACCEPT (R327). -/
  | fieldInputAccept (input : Fin 32) (level : Bool)
  /-- INPUT_OVERVOLTAGE (R328). -/
  | inputOvervoltage (input : Fin 32) (present : Bool)
  /-- OUTPUT_SHORT (R329). -/
  | outputShort (output : Fin 16) (present : Bool)
  /-- OUTPUT_OVERTEMP (R329). -/
  | outputOvertemp (output : Fin 16)
  /-- OUTPUT_OVERTEMP_RECOVER (R329). -/
  | outputOvertempRecover (output : Fin 16)
  /-- OUTPUT_OPEN_LOAD (R329). -/
  | outputOpenLoad (output : Fin 16) (present : Bool)
  /-- OUTPUT_SHORT_SUPPLY (R329). -/
  | outputShortSupply (output : Fin 16) (present : Bool)
  /-- VFIELD_REVERSE (R331). -/
  | vfieldReverse (reading : Half)
  /-- VFIELD_LOW (R331). -/
  | vfieldLow (reading : Half)
  /-- VFIELD_RECOVER (R331). -/
  | vfieldRecover (reading : Half)
  /-- VFIELD_HIGH (R331). -/
  | vfieldHigh (reading : Half) (present : Bool)
  /-- OUTPUT_WATCHDOG_EXPIRY (R333). -/
  | outputWatchdogExpiry
  /-- CONVERSION_END (R337). -/
  | conversionEnd (conv : Conv) (result : Sample) (overRange : Bool) (stamp : Word)
  /-- CAN_FRAME_RECEIVE (R347). -/
  | canFrameReceive (ctl : CanId) (frame : CanFrame)
  /-- CAN_FRAME_TRANSMIT (R350). -/
  | canFrameTransmit (ctl : CanId) (stamp : Word) (sent : Bool)
  /-- CAN_ERROR (R352). -/
  | canError (ctl : CanId) (transmit : Bool) (amount : Nat)
  /-- CAN_RECOVERY_COMPLETE (R352). -/
  | canRecoveryComplete (ctl : CanId)
  /-- CAN_MODE_APPLY (R353). -/
  | canModeApply (ctl : CanId)
  /-- USB_VBUS_DETECT (R357). -/
  | usbVbusDetect (present highSpeed : Bool)
  /-- USB_BULK_OUT (R358). -/
  | usbBulkOut (slots : List SlotWord) (length : Nat)
  /-- USB_STAGE_TRANSFER (R358). -/
  | usbStageTransfer (header : BitVec 128) (data : List Byte)
  /-- USB_IN_ACK (R358). -/
  | usbInAck
  /-- USB_CONTROL_REQUEST (R359). -/
  | usbControlRequest (slot : SlotWord)
  /-- USB_STATUS_STAGE_TIMEOUT (R359). -/
  | usbStatusStageTimeout
  /-- USB_BUS_RESET (R360). -/
  | usbBusReset (stage : UsbStage)
  /-- USB_COMPLETION_DISCARD (R360). -/
  | usbCompletionDiscard
  /-- DFU_MANIFESTATION (R361). -/
  | dfuManifestation (image : Bool) (sigOk : Bool)
  /-- ETH_HELLO (R365). -/
  | ethHello (hostNonce deviceNonce : BitVec 128) (session : Word)
  /-- ETH_OPEN (R365). -/
  | ethOpen (proof : Rec32)
  /-- ETH_REQUEST_DATAGRAM (R366). -/
  | ethRequestDatagram (dg : Datagram) (slots : List SlotWord)
  /-- ETH_STAGE_DATAGRAM (R366). -/
  | ethStageDatagram (dg : Datagram) (header : BitVec 128) (data : List Byte)
  /-- ETH_CLOSE (R364). -/
  | ethClose (dg : Datagram) (status : Half)
  /-- ETH_SESSION_IDLE_TIMEOUT (R365). -/
  | ethSessionIdleTimeout
  /-- ETH_COMPLETION_RESEND (R366). -/
  | ethCompletionResend
  /-- ETH_ARP_ICMP (R362). -/
  | ethArpIcmp (icmp : Bool) (request : List Byte)
  /-- RESET_RELEASE (R369). -/
  | resetRelease
  /-- REFCLK_RECOVER (R32). -/
  | refclkRecover (source : BitVec 2)
  /-- BLOCK_LOCK (R236). -/
  | blockLock (port : Port) (lane : Bool)
  /-- INDEX_EDGE (R185). -/
  | indexEdge (unit : FbId)
  /-- SERIAL_FRAME_TIMEOUT (R174). -/
  | serialFrameTimeout (unit : FbId) (samples : Nat)
  /-- REMOTE_KEY_EXPIRY (R277). -/
  | remoteKeyExpiry (src : BitVec 14) (key : RemoteKey)
  /-- ETH_LINK_CHANGE (R362). -/
  | ethLinkChange (up : Bool) (speed : BitVec 2)
  /-- USB_SET_CONFIGURATION (R357). -/
  | usbSetConfiguration
  /-- DFU_DOWNLOAD (R361). -/
  | dfuDownload (image : Bool) (block : Half) (data : List Byte)
  /-- PTP_DELAY_REQ_SEND (R272). -/
  | ptpDelayReqSend
  /-- CONVERSION_START (R337). -/
  | conversionStart (conv : Conv)
  /-- BAR0_MEMORY_WRITE (R41). -/
  | bar0MemoryWrite (offset : BitVec 24) (data : List Byte)
deriving DecidableEq, Repr

end Sys2Proof
end

