-- ==== Sys2Proof/Decode.lean ====
section
/-! DEFINITION. Table words: spec/opcode_table.json gives no row of this device any bits, so no word spells a
command. The request slots of the mailboxes, which do have an encoding, are decoded in Machine/Commands.lean. -/

namespace Sys2Proof

/-- The command a table word spells: none, since no row has bits. -/
def decodeTableWord (_nbits _w : Nat) : Option Instr := none

end Sys2Proof
end

