-- ==== Sys2Proof/Config.lean ====
section
/-! DEFINITION. What the manual leaves open: every constant here has no body, so nothing can be proved of its value.
The first argument `key` is the model's counter of free values (log entry 3). -/

namespace Sys2Proof

/-- Rounding of a value the manual states exactly but stores in a finite format, without saying how it rounds:
true takes the next integer above (log entry 5). -/
opaque Config.roundUp (key : Nat) (site : Nat) (q : Rat) : Bool

/-- The result layout of the commands whose result bytes the manual names but does not place: GET_POWER,
STRAND_READ bytes 0 to 39, TIME_READ, FB_READ of a feedback unit, CONV_READ, GET_COUNTERS, FW_STATUS, the word count of MEM_READ,
LOG_READ's bytes after the first four, and SELF_TEST's outcome (log entries 6 and 175). -/
opaque Config.layout (opcode : Nat) (fields : List Nat) : List Byte

/-- Errors of SINCOS, PARK and IPARK within the bound R202 gives (log entry 7). -/
opaque Config.sinErr (key : Nat) (angle : Nat) : Int

/-- What a shift by more than the width, and other unstated corners of the flyer instructions, give (log entry 8). -/
opaque Config.flyerOpen (key : Nat) (op : Nat) (x y : Nat) : BitVec 18

/-- A flag the manual does not define after an instruction (log entry 8). -/
opaque Config.flagOpen (key : Nat) (op : Nat) (x y : Nat) : Bool

/-- A word read from a bank that was OFF in mode 1 and has not been written since (R226, log entry 9). -/
opaque Config.lostByte (key : Nat) (addr : Nat) : Byte

/-- A word of an engine's local memory after it has been OFF (R34, log entry 9). -/
opaque Config.lostWord (key : Nat) (addr : Nat) : BitVec 18

/-- The value an error-passive receiver's count takes after a good frame: ISO 11898-1 gives 119 to 127 (log entry 51). -/
opaque Config.recBack (key : Nat) : Nat

/-- The class of a fixer log record the manual gives none (class 0 here), and the cause field of classes other than
strand, which the manual does not list; `what` is the model's own number of the cause (log entry 46). -/
opaque Config.logClass (what : Nat) : Nat
opaque Config.logCause (cls what : Nat) : Nat

/-- What a user flyer program computes where the model does not run it: per engine, entry and strand or slot
(log entry 10). -/
opaque Config.userLaw (key : Nat) (program : Nat) (entry : Nat) (index : Nat) : Int

/-- Where the bank ring of a probe lies (R181 gives its size and not its address; log entry 11). -/
opaque Config.probeBase (probe : Nat) : Nat

/-- Estimated die powers in mW and other readings of GET_POWER (log entry 6). -/
opaque Config.power (key : Nat) (die : Nat) : Nat

/-- The back-EMF observer of R150, which the manual describes and does not define: its angle, speed and residual
(log entry 12). -/
opaque Config.auxAngle (key : Nat) (strand : Nat) : Nat
opaque Config.auxSpeed (key : Nat) (strand : Nat) : Int
opaque Config.auxResidual (key : Nat) (strand : Nat) : Nat

/-- The level of a gate-enable output held by R305, and other pin levels nothing determines (log entry 13). -/
opaque Config.pinLevel (key : Nat) (pin : Nat) : Bool

/-- Where the MRAM holds the banks' row map: R281 gives it no place (log entry 196). -/
opaque Config.rowMapAt : Nat

/-- What the length of the calibration page is taken from (`calLen`), and a firmware image's header fields (log entry 14). -/
opaque Config.calSize : Nat
opaque Config.fwRelease (image : List Byte) : BitVec 16
opaque Config.calCrcOk (page : List Byte) : Bool

/-- The date of a calibration write, as BCD: the manual gives no source for it (R40, log entry 14). -/
opaque Config.calDate (key : Nat) : BitVec 32

/-- The phase the distaff chooses for a strand given 0xFF (R13, log entry 15). -/
opaque Config.phaseChoice (key : Nat) (strand : Nat) : Nat

/-- The new master's, session's and nonce values the device draws for itself (R365, log entry 16). -/
opaque Config.random (key : Nat) (what : Nat) : Nat

/-- The servo that turns a domain's measured error into a rate (R263 to R268 bound it; log entry 17). -/
opaque Config.servo (key : Nat) (error : Int) : Int

/-- The electrical angle of a strand at an interpolated position, and its electrical speed in angle units per second
at a velocity: the manual names the angle source (R179) and gives neither pole pairs nor offset (log entry 21). -/
opaque Config.elecAngle (strand : Nat) (pos : Int) : Nat
opaque Config.elecSpeed (strand : Nat) (vel : Int) : Int

/-- The duty value of a phase for a voltage vector: the manual gives no modulation rule (log entry 21). -/
opaque Config.duty (phase : Nat) (vAlpha vBeta : Int) (period : Nat) : BitVec 24

/-- The reference acceleration of a strand whose source gives position and velocity alone: a skein, an external
input, the intake (R80, R121, R89, R79; log entry 30). -/
opaque Config.refAccel (key : Nat) (strand : Nat) : Int

/-- What a read of an internal address no register has returns (log entry 40). -/
opaque Config.unlisted (key addr : Nat) : Word

/-- A byte of an MRAM region whose layout is not given (R281, log entry 201). -/
opaque Config.mramFree (key offset : Nat) : Byte

/-- Program addresses whose words come out of a load failing their parity (R209, log entry 109). -/
opaque Config.loadParity (key : Nat) : List Nat

/-- Local addresses of words that fail their ECC in the copy after an engine fault (R279, log entry 107). -/
opaque Config.copyErrors (key : Nat) : List Nat

/-- Has the power loss torn the record that was written last (R289, log entry 123)? -/
opaque Config.torn (key : Nat) : Bool

/-- The bytes one element of items 1 to 5 of a negative takes, and the CRC-32 of a negative: the manual lists its items and gives
no bytes (R282, log entry 54). -/
opaque Config.itemBytes (item : Nat) : Nat
opaque Config.negCrc (n : Negative) : BitVec 32

/-- Does the next block of a port with two lanes fall on lane 1, so that a time event needs a slack block before it (R263, log
entry 198)? -/
opaque Config.laneOne (key port : Nat) : Bool

/-- The plant offset the bridge filters from its last sixteen exchanges (R272, log entry 55). -/
opaque Config.plantFilter (offsets : List Int) : BitVec 63

/-- The data blocks of a peer, beacon, enumeration or bulk frame: the manual names what they carry and gives no layout
(log entry 56). -/
opaque Config.peerData (kind : Nat) (fields : List Nat) : List (BitVec 64)

/-- Where in its period a carrier stands when a debug halt stops it: the instant of the halt inside a cycle is not given
(R138, log entry 159). -/
opaque Config.carrierAt (key : Nat) (quad : Nat) : Nat

/-- The words of the header bobbin of a cam chain, and bits 71:64 of a point's word: the manual gives neither (R113, R115,
log entry 164). -/
opaque Config.camHeader (bounded : Bool) (span : Nat) (rise : Int) (word : Nat) : BitVec 72
opaque Config.camTag (point : BitVec 64) : BitVec 8

/-- Places inside the vendor runtime: where an entry returns to (0 dispatcher, 1 slot handler, 2 exception handler), where the
strand block of a strand lies, and the handler's save area: the manual names them and gives no addresses (R191, R211, log
entry 172). -/
opaque Config.runtimeReturn (point : Nat) : Nat
opaque Config.strandBlock (strand : Nat) : Nat
opaque Config.handlerSave : Nat

/-- The timeout of a BiSS-C encoder in samples of 5 ns, a property of the encoder (R174, log entry 168). -/
opaque Config.encoderTimeout (unit : Nat) : Nat

/-- How many points of a CAM_EDIT the distaff writes before the next cycle start (R115, log entry 165). -/
opaque Config.editPace (key : Nat) : Nat

/-- The payload of a user publication of a kind the manual does not define (log entry 22). -/
opaque Config.userPub (key : Nat) (kind : Nat) (source : Nat) : BitVec 72

end Sys2Proof
end

