-- ==== Sys2Proof/Machine/Num.lean ====
section
/-! DEFINITION. Arithmetic and byte-order helpers shared by every block: little-endian bytes (R62), saturating
counters, saturation to a width, floor shifts, integer square roots, and sparse lists in canonical form. -/

namespace Sys2Proof.Machine

/-- The bytes of `v`, `n` of them, least significant first (R62). -/
def leBytes : Nat → Nat → List Byte
  | 0, _ => []
  | n + 1, v => BitVec.ofNat 8 v :: leBytes n (v / 256)

/-- The number little-endian bytes stand for (R62). -/
def leNat : List Byte → Nat
  | [] => 0
  | b :: bs => b.toNat + 256 * leNat bs

/-- `n` bytes of a list from byte `off` on, zero beyond its end. -/
def slice (bs : List Byte) (off n : Nat) : List Byte :=
  let t := (bs.drop off).take n
  t ++ List.replicate (n - t.length) 0

/-- The unsigned field of `n` bytes at byte `off`. -/
def fieldU (bs : List Byte) (off n : Nat) : Nat := leNat (slice bs off n)

/-- The two's-complement reading of an `n`-bit number. -/
def toSigned (bits v : Nat) : Int :=
  if v % 2 ^ bits < 2 ^ (bits - 1) then (v % 2 ^ bits : Nat) else (v % 2 ^ bits : Nat) - (2 ^ bits : Nat)

/-- The signed field of `n` bytes at byte `off`. -/
def fieldS (bs : List Byte) (off n : Nat) : Int := toSigned (8 * n) (fieldU bs off n)

/-- The low `bits` bits of an integer, as a natural number. -/
def wrapNat (bits : Nat) (v : Int) : Nat := (v % (2 ^ bits : Nat)).toNat

/-- The bytes of a two's-complement integer. -/
def leInt (n : Nat) (v : Int) : List Byte := leBytes n (wrapNat (8 * n) v)

/-- Clamp to the range of a `bits`-bit two's-complement number. -/
def satInt (bits : Nat) (v : Int) : Int :=
  max (-(2 ^ (bits - 1) : Nat)) (min v ((2 ^ (bits - 1) : Nat) - 1))

/-- Clamp to a range; the lower bound wins where the two cross. -/
def clampInt (lo hi v : Int) : Int := max lo (min v hi)

/-- A counter that saturates at `cap`. -/
def satAdd (cap n k : Nat) : Nat := min cap (n + k)

/-- Floor division by a power of two: an arithmetic shift right. -/
def asr (v : Int) (k : Nat) : Int := v / (2 ^ k : Nat)

/-- Round half up: the integer nearest `v / 2^k`. -/
def roundShift (v : Int) (k : Nat) : Int :=
  if k = 0 then v else (v + (2 ^ (k - 1) : Nat)) / (2 ^ k : Nat)

/-- The floor of a rational. -/
def floorRat (q : Rat) : Int := q.num / (q.den : Int)

/-- The ceiling of a rational. -/
def ceilRat (q : Rat) : Int := -((-q.num) / (q.den : Int))

/-- Integer square root by bit trial, `fuel` bits. -/
def isqrtFrom : Nat → Nat → Nat → Nat
  | 0, _, r => r
  | k + 1, n, r => let t := r + 2 ^ k; isqrtFrom k n (if t * t ≤ n then t else r)

/-- The floor of the square root of a number below `2^256`. -/
def isqrt (n : Nat) : Nat := isqrtFrom 128 n 0

/-- A square root of a non-negative rational to 2^-32: the floor of the root scaled by 2^32. -/
def sqrtRat (q : Rat) : Rat :=
  if q ≤ 0 then 0 else (isqrt ((q.num.toNat * 2 ^ 64) / q.den) : Rat) / (2 ^ 32 : Nat)

/-- A square root to 2^-80, for a number below 2^96. -/
def sqrtFine (q : Rat) : Rat :=
  if q ≤ 0 then 0 else (isqrt ((q.num.toNat * 2 ^ 160) / q.den) : Rat) / (2 ^ 80 : Nat)

/-- The integer nearest a rational, halves to the even one. -/
def roundEven (q : Rat) : Int :=
  let f := floorRat q
  let r := q - f
  if r < 1 / 2 then f else if 1 / 2 < r then f + 1 else if f % 2 = 0 then f else f + 1

/-- A rational in 64-bit floating point: the nearest value with 53 significant bits (R98). -/
def float64 (q : Rat) : Rat :=
  if q = 0 then 0
  else
    let e : Int := (Nat.log2 q.num.natAbs : Int) - Nat.log2 q.den
    let scale := fun (k : Int) => if 0 ≤ k then q * ((2 ^ k.toNat : Nat) : Rat) else q / ((2 ^ (-k).toNat : Nat) : Rat)
    let k : Int := if ((2 ^ 53 : Nat) : Rat) ≤ |scale (53 - e)| then 52 - e else 53 - e
    let m := roundEven (scale k)
    if 0 ≤ k then (m : Rat) / ((2 ^ k.toNat : Nat) : Rat) else (m : Rat) * ((2 ^ (-k).toNat : Nat) : Rat)

/-- Least common multiple of a list, and the greatest common divisor with 0 neutral. -/
def gcdNat (a b : Nat) : Nat := Nat.gcd a b

/-- Write one bit of a bit vector. -/
def setBit {w : Nat} (v : BitVec w) (i : Nat) (b : Bool) : BitVec w :=
  if b then v ||| (1#w <<< i) else v &&& ~~~(1#w <<< i)

/-- Pack fields given as (value, width), least significant first. -/
def pack : List (Nat × Nat) → Nat
  | [] => 0
  | (v, w) :: r => v % 2 ^ w + 2 ^ w * pack r

/-- Field `hi:lo` of a number. -/
def bits (v hi lo : Nat) : Nat := v / 2 ^ lo % 2 ^ (hi + 1 - lo)

/-- One bit of a number. -/
def bit (v i : Nat) : Bool := v / 2 ^ i % 2 == 1

def b2n (b : Bool) : Nat := if b then 1 else 0

/-- The bytes of a bit vector, least significant first. -/
def bytesOf {w : Nat} (v : BitVec w) : List Byte := leBytes ((w + 7) / 8) v.toNat

/-! Sparse lists: strictly rising keys, no entry equal to the default. -/

/-- Read a sparse list. -/
def sget {α : Type} (d : α) : List (Nat × α) → Nat → α
  | [], _ => d
  | (k, v) :: r, a => if a = k then v else if a < k then d else sget d r a

/-- Write a sparse list, keeping it canonical: writing the default removes the entry. -/
def sset {α : Type} [DecidableEq α] (d : α) : List (Nat × α) → Nat → α → List (Nat × α)
  | [], a, x => if x = d then [] else [(a, x)]
  | (k, v) :: r, a, x =>
    if a < k then (if x = d then (k, v) :: r else (a, x) :: (k, v) :: r)
    else if a = k then (if x = d then r else (a, x) :: r)
    else (k, v) :: sset d r a x

/-- Strictly rising keys above `lo`, no entry equal to the default. -/
def swfFrom {α : Type} [DecidableEq α] (d : α) : Nat → List (Nat × α) → Bool
  | _, [] => true
  | lo, (k, v) :: r => decide (lo ≤ k) && decide (v ≠ d) && swfFrom d (k + 1) r

/-- The canonical form of a sparse list. -/
def swf {α : Type} [DecidableEq α] (d : α) (l : List (Nat × α)) : Bool := swfFrom d 0 l

/-- Drop every entry whose key lies in `[lo, hi)`. -/
def sclear {α : Type} (l : List (Nat × α)) (lo hi : Nat) : List (Nat × α) :=
  l.filter fun e => decide (e.1 < lo) || decide (hi ≤ e.1)

/-- Change one element of a vector. -/
def modAt {α : Type} {n : Nat} (v : Vector α n) (i : Fin n) (f : α → α) : Vector α n :=
  v.set i (f v[i])

/-- The indices of a vector whose element passes a test, rising. -/
def indicesOf {α : Type} {n : Nat} (v : Vector α n) (p : α → Bool) : List (Fin n) :=
  (List.finRange n).filter fun i => p v[i]

/-- Remove the first occurrence of an element. -/
def eraseFirst {α : Type} [DecidableEq α] (x : α) (l : List α) : List α := l.erase x

end Sys2Proof.Machine
end

