-- ==== Sys2Proof/Machine/StCore.lean ====
section
/-! DEFINITION. The state of identity, power, clocks, the host interface, the mailboxes, the distaff and the cycle
sequencer (01_control_cycle.md to 04_command_set.md), and what the device sends to the outside. -/

namespace Sys2Proof.Machine

/-- What leaves the device: the traffic the manual says it sends. The newest is last in `State.out`. -/
inductive Out
  /-- the MSI-X message of a vector (R58) -/
  | msix (vector : Nat)
  /-- bytes the device writes to host memory (R65) -/
  | dmaWrite (addr : BitVec 64) (data : List Byte)
  /-- the value a bus read returns; `poisoned` is the EP bit of R60 -/
  | busRead (data : List Byte) (poisoned : Bool)
  | burst (port : Port) (b : Burst) (blocks : Nat)
  /-- the stomped end block of R239 -/
  | stomp (port : Port)
  | hello (port : Port) (device : BitVec 14) (valid : Bool) (serial : Half) (master : Bool)
  | frame (port : Port) (f : Frame)
  | ack (port : Port) (hseq : Byte)
  | nak (port : Port) (hseq : Byte)
  | release (port : Port) (hseq : Byte)
  /-- a slack block before a time event (R263) -/
  | slack (port : Port)
  /-- a time-event block on lane 0 or lane 1 (R263) -/
  | timeBlock (port : Port) (lane : Bool) (payload : BitVec 56)
  | beacon (payload : List Byte)
  | announce (dom : Dom) (payload : List Byte)
  | printSend (device : BitVec 14)
  | schedule (generation : BitVec 3)
  | canFrame (ctl : CanId) (f : CanFrame)
  | canAck (ctl : CanId)
  | usbIn (data : List Byte)
  | usbControl (data : List Byte) (stall : Bool)
  | usbStatus (ok : Bool)
  | eth (data : List Byte)
  | ptpDelayReq
  | serialClock (unit : FbId)
  | comparePulse (unit : CmpId) (active : Bool)
  | stepPulse (stg : StgId) (dir : Bool)
  | reset
deriving DecidableEq, Repr

/-- The fused identity of the module (R38). -/
structure Identity where
  dieC : BitVec 128
  dieF : BitVec 128
  serial : BitVec 48
  variant : BitVec 2
  gradeE : Bool
  stepping : Byte
deriving DecidableEq, Repr

/-- The four power states of a function (R34). -/
inductive PwrState | run | gate | retain | off
deriving DecidableEq, Repr

/-- The latency tolerance of one function and its present power state (R34). -/
structure PwrFn where
  tol : Word
  st : PwrState
deriving DecidableEq, Repr

/-- The power state of the device (R36). -/
inductive DevState | run | standby | dormant
deriving DecidableEq, Repr

/-- The instructions of the JTAG port (R381). -/
inductive ScanInstr | bypass | idcode | sample | preload | extest | intest | clamp
deriving DecidableEq, Repr

/-- The JTAG port: TRST_N, and the instruction register (R381). -/
structure Scan where
  trstLow : Bool
  ir : ScanInstr
deriving DecidableEq, Repr

/-- The ready words (R28) and the power functions (R34). -/
structure Power where
  ready : BitVec 24
  readyBank : BitVec 32
  readyFly : BitVec 17
  dev : DevState
  engines : Vector PwrFn 17
  banks : Vector PwrFn 32
  quads : Vector PwrFn 12
  fbs : Vector PwrFn 48
  exps : Vector PwrFn 8
  cans : Vector PwrFn 4
  eth : PwrFn
  distaff : PwrFn
  /-- RESET_N is held low, or a supply monitor is below its threshold (R26, R369) -/
  held : Bool
  /-- RESET_N is low (R26, R381) -/
  resetLow : Bool
  railsBad : Byte
  /-- a cold SYSTEM_RESET has been answered and the complete reset is due (R72) -/
  coldDue : Bool
  /-- the OK completion of that command is not yet written -/
  coldAsked : Bool
  /-- functions a self-test has out of service -/
  testing : List Half
deriving DecidableEq, Repr

/-- SYS_CLK_CTL and the state behind it (R31 to R33). -/
structure Clock where
  pri0 : BitVec 2
  pri1 : BitVec 2
  pri2 : BitVec 2
  revert : Bool
  active : BitVec 2
  holdover : Bool
  mismatch : Bool
  keeperCFault : Bool
  keeperFFault : Bool
  goodA : Bool
  goodB : Bool
  goodLink : Bool
  /-- consecutive windows in which a source differed from both others -/
  badC : Nat
  badF : Nat
  badRef : Nat
deriving DecidableEq, Repr

/-- One entry of a contact sheet page (03_host_interface.md). -/
structure SheetEntry where
  pos : BitVec 64
  vel : Word
  iq : Word
  ferr : Word
  state : Half
  fault : Half
  updCycle : Word
deriving DecidableEq, Repr

/-- One contact sheet page. -/
structure SheetPage where
  seq : Word
  cycle : BitVec 48
  entries : Vector SheetEntry 256
  inputs : Word
  faults : BitVec 4
deriving DecidableEq, Repr

/-- One entry of a subscription page. -/
structure SubEntry where
  endpoint : BitVec 24
  age : BitVec 6
  missing : Bool
  payload : Word72
deriving DecidableEq, Repr

/-- One subscription page. -/
structure SubPage where
  seq : Word
  cycle : BitVec 48
  entries : List SubEntry
deriving DecidableEq, Repr

/-- The mark and hysteresis of one watermark source, with its notice machinery (R57). -/
structure Watermark where
  mark : Nat
  hyst : Nat
  armed : Bool
  /-- the level last seen -/
  level : Nat
deriving DecidableEq, Repr

/-- BAR0's registers and areas (03_host_interface.md). -/
structure HostIf where
  intStatus : Word
  intMask : Word
  notice : BitVec 25
  wm : Vector Watermark 25
  cycleHi : Half
  accErr : Bool
  bench : Bool
  bar2Denied : Nat
  pcieUp : Bool
  perst : Bool
  busMaster : Bool
  msixEnable : Bool
  /-- the MSI-X table, 512 bytes, and the pending bits -/
  msixTable : Vector Byte 512
  msixPending : Word
  intake : Vector Rec32 256
  latched : Vector Rec32 256
  outRec : Rec32
  outLatched : Rec32
  outSeqTaken : Option Word
  sheets : Vector SheetPage 2
  subs : Vector SubPage 2
  sheetPage : Bool
  subPage : Bool
  sheetCycle : Half
  subList : List (BitVec 24)
deriving DecidableEq, Repr

/-- One completion: a response slot before its phase bit is known (R45). -/
structure Cmpl where
  opcode : Half
  tag : Fin 32
  final : Bool
  reject : Bool
  irq : Bool
  status : Half
  progress : Half
  cycle : BitVec 48
  result : List Byte
  remote : Option (BitVec 14 × RemoteKey)
deriving DecidableEq, Repr

/-- One mailbox: indices, rings, phase and held tags (R44 to R50). -/
structure Mailbox where
  reqPi : BitVec 7
  reqCi : BitVec 7
  rspPi : BitVec 7
  rspCi : BitVec 7
  req : Vector SlotWord 64
  rsp : Vector SlotWord 64
  phase : Bool
  dbErr : Bool
  held : BitVec 32
  /-- requests taken whose final completion R49 keeps in ring order, oldest first: tag, and whether it was refused at once -/
  order : List (Fin 32 × Bool)
  /-- tags held after a USB bus reset until their completion is collected (R48, R360) -/
  lateHeld : BitVec 32
  /-- completions not yet written, oldest first (R46) -/
  pend : List Cmpl
deriving DecidableEq, Repr

/-- A long operation in progress (R51). -/
structure LongOp where
  cmd : Instr
  phase : Nat
  progress : Nat
  cancel : Bool
  /-- device time at which it last told its progress, or began -/
  told : BitVec 64
deriving DecidableEq, Repr

/-- A command whose final completion the distaff owes after a restart (R53). -/
structure Owed where
  mb : MbId
  cmd : Option Instr
  c : Cmpl
deriving DecidableEq, Repr

/-- Why the distaff is stopped (R19). -/
inductive DistState
  | running
  /-- restarting; `image` as before -/
  | restarting
  /-- switching to the other image (R73) -/
  | switching
  /-- both images failed: USB DFU only -/
  | recovery
deriving DecidableEq, Repr

/-- A CAM_EDIT in progress: its command, the chain it writes, the next point and the points not yet written (R115). -/
structure CamEditRun where
  cmd : Instr
  chain : List Nat
  next : Nat
  rest : List (BitVec 64)
deriving DecidableEq, Repr

/-- The distaff: what it has in hand. -/
structure Distaff where
  st : DistState
  /-- running image: false A, true B -/
  image : Bool
  fwRel : Half
  /-- accepted requests not yet executed, in copy order -/
  inHand : List Instr
  /-- checked C-class sets, not yet armed, oldest first (R67) -/
  staged : List Instr
  /-- armed sets in arming order (R20, R69) -/
  armed : List Instr
  /-- the long operations, the one whose turn it is first -/
  longs : List LongOp
  /-- a step has run since the last short command (R51) -/
  stepped : Bool
  /-- the mailboxes a request has been taken from in this turn (R49) -/
  turn : BitVec 8
  owed : List Owed
  /-- sets of owed commands that were armed before the stop; they still apply (R20, R53) -/
  orphan : List Instr
  /-- the distaff stops once this command's completion is written (R72, R73) -/
  stopAfter : Option (MbId × Fin 32 × DistState)
  /-- the CAM_EDIT that writes its points (R115) -/
  edit : Option CamEditRun
deriving DecidableEq, Repr

/-- LNK_SEQ_CFG and LNK_SEQ_CNT, and the cycle counter (R9, R18). -/
structure Seq where
  cycle : BitVec 48
  running : Bool
  sheetPoint : BitVec 14
  sheetPointSh : BitVec 14
  overrun : Byte
  overrunSh : Byte
  torn : Nat
  late : Nat
  overCnt : Nat
deriving DecidableEq, Repr

end Sys2Proof.Machine
end

