-- ==== Sys2Proof/Machine/StDrive.lean ====
section
/-! DEFINITION. The running state of quads, choppers, step generators, feedback units, probes and compare units
(08_power_stage.md to 10_feedback.md). A register with the access code RWS has its active value in `cfg` and its
shadow in `sh`. -/

namespace Sys2Proof.Machine

/-- The phase of one winding's chopper (R158). `idle`: the reference is 0 and both legs are low. -/
inductive ChopPhase | idle | drive | fast | slow
deriving DecidableEq, Repr

/-- One winding: its phase and its present reference (R155, R158). -/
structure Winding where
  phase : ChopPhase
  ref : Int
deriving DecidableEq, Repr

/-- One quad: PWM and sigma-delta (R151, R152). -/
structure Quad where
  cfg : QuadCfg
  sh : QuadCfg
  duty : Vector (BitVec 24) 12
  dutySh : Vector (BitVec 24) 12
  cnt : BitVec 24
  down : Bool
  force : BitVec 24
  /-- units from this cycle's start to the next valley or wrap, and to where a counter that holds at 0 goes on (R134) -/
  valley : Nat
  holdTo : Nat
  /-- the ideal signal of each pair as the last update boundary came: its level, and how many half units it had stood (R132, R135) -/
  was : Vector (Bool × Nat) 12
  /-- units the high and the low side of each pair still wait after a force write turned the other off (R136) -/
  wait : Vector (Nat × Nat) 12
  /-- the levels the two outputs of each pair had when the quad froze (R138) -/
  heldOut : Vector (Bool × Bool) 12
  trip : BitVec 12
  /-- the gate-fault inputs' pin levels -/
  gfPin : BitVec 4
  gfEvent : BitVec 4
  frozen : Bool
  /-- a debug freeze has ended and the carrier waits for its next valley, every pair off (R138) -/
  waitValley : Bool
  gateA : Bool
  gateB : Bool
  lockLost : Bool
  /-- a QUAD_CONFIG has set the carrier (R141) -/
  carrierSet : Bool
  data : Vector Sample 12
  fast : Vector Sample 12
  tripped : BitVec 12
  stuck : BitVec 12
  /-- ns until the restarted filters give a valid sinc3 result (R141) -/
  settling : Nat
  choppers : Vector (Option ChopperCfg) 6
  windings : Vector Winding 12
  /-- TABLE_STEP drives of the six positions: address and scale (R163) -/
  tableDrive : Vector (Option (Nat × Nat)) 6
deriving DecidableEq, Repr

/-- One entry of an interval queue (R161). -/
structure StgEntry where
  interval : BitVec 27
  last : Bool
  dir : Bool
deriving DecidableEq, Repr

/-- One step generator (R161, R162). -/
structure Stg where
  cfg : StgCfg
  sh : StgCfg
  queue : List StgEntry
  idle : Bool
  /-- the entry the timer is running on -/
  current : Option StgEntry
  dir : Bool
  underrun : Bool
  overflow : Bool
  stretch : Nat
  dirDelay : Nat
  count : BitVec 32
  ext : Int
deriving DecidableEq, Repr

/-- One feedback unit (R167 to R179). Observer states are scaled by 2^32. -/
structure Fb where
  cfg : FbCfg
  sh : FbCfg
  count : BitVec 32
  ext : Int
  raw : BitVec 40
  index : BitVec 32
  /-- the accepted levels of the A and B lines, the B level before its last change, and when that was (R173) -/
  a : Bool
  b : Bool
  bPrev : Bool
  bAt : Nat
  hall : BitVec 3
  sector : Option (Fin 6)
  pHat : Int
  vHat : Int
  aHat : Int
  /-- samples of the 200 MHz clock the unit has run, the sample of the latest change of each input line, and that of the
  latest counted edge (R169, R175, R178) -/
  clock : Nat
  lineAt : Vector (Option Nat) 3
  edgeAt : Option Nat
  /-- samples since the cycle start at the last event, p̂ at the latch instant of a serial frame, and whether a word
  has come since the configuration -/
  now : Nat
  latchP : Int
  hasWord : Bool
  frameOpen : Bool
  /-- the sample in which the frame started (R174) -/
  frameAt : Nat
  stat : BitVec 11
  qerr : Nat
  /-- sample times of the latest qerr increments, newest first, at most five (R175) -/
  qerrAt : List Nat
  /-- frames in a row, up to now, with nE low (R174, R175) -/
  nERun : Nat
  /-- samples for which MA still stays high after a BiSS-C frame (R174) -/
  maHigh : Nat
  timeoutLast : Bool
  /-- p_i (1/256 count) and v̂ latched at sample-ready (R179) -/
  latchPi : Int
  latchV : Int
deriving DecidableEq, Repr

/-- One event of a probe as strands take it at their updates (R124, R165): the latched positions, whether the probe was
armed for a single edge, the strands that have not yet taken it, and the skeins whose registration has taken it. -/
structure ProbeEvent where
  positions : List (StrandId × Int)
  single : Bool
  waits : Rec32
  trimmed : BitVec 64
deriving DecidableEq, Repr

/-- One probe (R180, R181). -/
structure Probe where
  cfg : ProbeCfg
  /-- edge and mode bits a register write left for the next cycle start (R186) -/
  cfgSh : Option (BitVec 3)
  armed : Bool
  seq : Byte
  wrOff : Nat
  written : Nat
  lost : Nat
  overrun : Nat
  /-- time of the last accepted edge, ns -/
  last : Option (BitVec 64)
  /-- offsets of the records the ring holds, oldest first -/
  held : List (Nat × Nat)
  /-- publication: stamp, sequence, position (R181) -/
  pub : Word72
  /-- events that REG_TRIM and the home mark have not yet taken on every strand, oldest first -/
  events : List ProbeEvent
deriving DecidableEq, Repr

/-- One compare unit (R182, R183). -/
structure Compare where
  cfg : Option CompareCfg
  /-- a control word a register write left for the next cycle start (R186) -/
  ctlSh : Option Word
  enable : Bool
  width : BitVec 18
  source : BitVec 6
  repeatOn : Bool
  pointer : Nat
  idle : Bool
  out : Bool
  missed : Nat
  overlap : Nat
  fired : Nat
  offset : Int
  /-- p_i at the last comparison, or at the activation where none has been made -/
  prev : Int
  fresh : Bool
deriving DecidableEq, Repr

end Sys2Proof.Machine
end

