-- ==== Sys2Proof/Machine/StField.lean ====
section
/-! DEFINITION. The state of the safety islands, exposure units, field I/O, converters, CAN, USB and Ethernet
(16_safety.md to 19_fieldbus_service_ports.md, and the temperature sensors of 20_electrical_package.md). -/

namespace Sys2Proof.Machine

/-- One function as one island sees it (R296, R297, R303). -/
structure FnState where
  /-- per channel: in demand after its filter (R295) -/
  chDemand : BitVec 4
  /-- channels faulted in this island's view (R304) -/
  chFault : BitVec 4
  demand : Bool
  waitReset : Bool
  discrepancy : Bool
  /-- progress of a discrepancy's clearing: both in demand together, then both at rest (R297) -/
  clearStep : Nat
  /-- type 4: both buttons fully released since the last actuation, and the simultaneity window still open (R296) -/
  released : Bool
  missed : Bool
deriving DecidableEq, Repr

/-- One safety island (R291 to R313). -/
structure IslandState where
  eval : Bool
  cfgOk : Bool
  writing : Bool
  safelight : Bool
  peerFailed : Bool
  /-- this island itself has an island fault (R304) -/
  failed : Bool
  common : Bool
  gen : BitVec 12
  /-- the static hold latch of a failed island, per quad (R305) -/
  holdLatch : BitVec 12
  /-- SS1 timers that run, per quad: those of functions 0 to 3, and that of the safelight limit (R300, R305) -/
  ss1 : Vector (BitVec 12) 5
  level : Byte
  pulseFault : Byte
  /-- the outputs this island drives high outside their pulses (R293) -/
  tpLevel : BitVec 4
  tpFault : BitVec 4
  /-- seconds left at the last full minute (R305) -/
  remaining : Nat
  /-- the limit has run out (R305) -/
  limitOver : Bool
  fns : Vector FnState 4
deriving DecidableEq, Repr

/-- One change log entry (R311). -/
structure ChangeRec where
  seq : Word
  stamp : Word
  cycle : BitVec 48
  kind : Byte
  mailbox : Byte
  user : BitVec 64
  crc : Word
  source : Half
deriving DecidableEq, Repr

/-- The safety part (R291 to R314). -/
structure Safety where
  cfg : SafetyCfg
  password : Option Password
  /-- consecutive failed checks, and the lockout (R310) -/
  failures : Nat
  lockout : Bool
  confirmed : Bool
  /-- the safety part of a print, with its password, until it is confirmed (R285) -/
  printed : Option (SafetyCfg × Option Password)
  /-- a new configuration waits for a full test-pulse period (R309) -/
  settling : Bool
  /-- that period follows a SAFETY_WRITE that changed nothing: the functions keep their states (R309) -/
  resume : Bool
  /-- pulses seen since, per output -/
  pulses : BitVec 4
  /-- ns of the low pulse left, per test-pulse output (R293) -/
  tpLow : Vector Nat 4
  /-- ns of the present minute of safelight (R305) -/
  slNs : Nat
  log : List ChangeRec
  logNext : Word
  isles : Vector IslandState 2
  /-- input pulse checks failed within the present test-pulse period, and the inputs whose fault has been absent
  for a full period (R294, R303) -/
  failedNow : Byte
  absent : Byte
  checked : Byte
  /-- the converter cross-check fault of R339 -/
  xchkFault : Bool
  /-- starts of SAF_TP0 without a break since the fault of R338 cleared, at most two (R303) -/
  xchkClear : Nat
  tjC : BitVec 11
  tjF : BitVec 11
  warnC : Bool
  tripC : Bool
  warnF : Bool
  tripF : Bool
deriving DecidableEq, Repr

/-- The states of an exposure unit (R322). -/
inductive ExpSt | idle | filling | armed | post | closed
deriving DecidableEq, Repr

/-- One trigger slot with its comparators (R320). Times are unit samples. -/
structure ExpSlot where
  /-- the slot's 24 bytes, byte 0 in bits 7:0 -/
  raw : BitVec 192
  a : Bool
  b : Bool
  /-- samples since A went high, B seen in this high period, timeout already fired -/
  high : Nat
  bSeen : Bool
  fired : Bool
deriving DecidableEq, Repr

/-- The running part of a record (R322 to R324). -/
structure ExpRun where
  stored : Nat
  postLeft : Nat
  inHoldoff : Bool
  holdLeft : Nat
  /-- samples of the present frame the comparators have taken (R321) -/
  seen : Nat
  /-- frames of the open data segment: their words, its stamp and its poison flag -/
  frames : List (List Word72)
  stamp : Word
  bad : Bool
  /-- frames missing since the last stored one, and the stamp of the first -/
  gap : Nat
  gapStamp : Word
  lostFlag : Bool
  /-- whole segments in the area: offset and length, oldest first -/
  segs : List (Nat × Nat)
deriving DecidableEq, Repr

/-- One exposure unit (R317 to R326). -/
structure Exp where
  configured : Bool
  div : Nat
  k : Nat
  stream : Bool
  chanEn : Byte
  base : Nat
  size : Nat
  pre : Nat
  post : Nat
  holdoff : Nat
  srcs : List Half
  addrs : List Word
  slots : List ExpSlot
  st : ExpSt
  poisoned : Bool
  trigLost : Bool
  triggers : Nat
  wr : Nat
  rd : Nat
  /-- words in the area not yet read -/
  unread : Nat
  dropped : Nat
  trigStamp : Word
  trigInfo : BitVec 7
  run : ExpRun
deriving DecidableEq, Repr

/-- One converter table entry (R336). -/
structure ConvEntry where
  channel : Nat
  range : Nat
  rep : Nat
  delay : Nat
deriving DecidableEq, Repr

/-- A converter table (R336). -/
structure ConvTable where
  tInt : Nat
  pwm : Bool
  quad : Nat
  startDelay : Nat
  entries : List ConvEntry
deriving DecidableEq, Repr

/-- The latest result of one channel (R335, R340). -/
structure ConvResult where
  value : Sample
  over_ : Bool
  uncal : Bool
  stamp : Word
  count : Half
  has : Bool
  /-- device time when the result was ready -/
  at_ : BitVec 64
deriving DecidableEq, Repr

/-- One converter (R335 to R341). -/
structure Converter where
  table : ConvTable
  next : Option ConvTable
  entry : Nat
  left : Nat
  waiting : Bool
  busy : Bool
  results : Vector ConvResult 17
deriving DecidableEq, Repr

/-- The shared-channel check (R338, R339). -/
structure CrossCheck where
  channel : Option (Fin 17)
  limit : BitVec 18
  safety : Bool
  fault : Bool
  bad : Nat
  good : Nat
deriving DecidableEq, Repr

/-- Field I/O and converters (R327 to R341). -/
structure FieldIo where
  inputs : Word
  /-- the levels accepted at the latest cycle start (R327) -/
  inputsAt : Word
  filt0 : Byte
  filt1 : Byte
  safe : Word
  openOff : Half
  /-- the commanded states, the levels held by a safe state of hold, and the pin levels -/
  outCmd : Half
  outHold : Half
  outActual : Half
  causeLatched : Vector (BitVec 4) 16
  causeNow : Vector (BitVec 4) 16
  overLatched : Word
  overNow : Word
  supplyLatched : BitVec 3
  supplyNow : BitVec 3
  vfield : Half
  /-- outputs the thermal shutdown holds off (R329) -/
  shut : Half
  wdgMs : Nat
  expired : Bool
  inSafe : Bool
  x : Converter
  y : Converter
  xchk : CrossCheck
deriving DecidableEq, Repr

/-- One acceptance rule (R347). -/
structure CanRule where
  a : BitVec 29
  b : BitVec 29
  test : Nat
  scope : BitVec 6
  dest : Nat
  buffer : Fin 64
deriving DecidableEq, Repr

/-- A stored or pending frame with its record fields (R346). -/
structure CanRec where
  frame : CanFrame
  stamp : Word
  count : Byte
  rule : Half
deriving DecidableEq, Repr

/-- One dedicated buffer (R348, R350). -/
structure CanBuf where
  nd : Bool
  ovr : Bool
  count : Byte
  pending : Bool
  record : CanRec
deriving DecidableEq, Repr

/-- The error states of a controller (R352). -/
inductive CanSt | off | active | passive | busOff
deriving DecidableEq, Repr

/-- What is waiting to be sent or being sent. -/
inductive CanTx
  | buffer (k : Fin 64)
  | drive (strand : StrandId)
deriving DecidableEq, Repr

/-- One CAN controller (R342 to R356). -/
structure Can where
  cfg : CanCfg
  rules : List CanRule
  st : CanSt
  mode : BitVec 2
  modeNext : Option (BitVec 2)
  warn : Bool
  recovering : Bool
  tec : Nat
  rec_ : Nat
  lost0 : Nat
  lost1 : Nat
  txFail : Nat
  driveLate : Nat
  fifo0 : List CanRec
  fifo1 : List CanRec
  stored0 : Byte
  stored1 : Byte
  /-- where the next element of each FIFO's ring goes -/
  pos0 : Nat
  pos1 : Nat
  bufs : Vector CanBuf 64
  /-- drive frames waiting: strand and frame (R354) -/
  drives : List (StrandId × CanFrame)
  /-- strand updates since the last status frame -/
  silent : List (StrandId × Nat)
deriving DecidableEq, Repr

/-- The USB port (R357 to R361). -/
structure Usb where
  speed : BitVec 2
  configured : Bool
  dfuOnly : Bool
  resetEvent : Bool
  badSetup : Nat
  badOut : Nat
  /-- tag of the command whose status stage is held (R359) -/
  status : Option (Fin 32)
  /-- DFU status errVERIFY (R361) -/
  dfuErr : Bool
  /-- completions a bus reset found uncollected (R360) -/
  discardable : Nat
deriving DecidableEq, Repr

/-- The Ethernet port and the MB5 session (R362 to R366). -/
structure Eth where
  link : Bool
  speed : BitVec 2
  /-- ETH_PHY_RST_N is high: the distaff has loaded the Ethernet configuration (R380) -/
  phyRun : Bool
  address : Option (BitVec 96)
  key : Option (BitVec 256)
  macFail : Nat
  seqDrop : Nat
  /-- the challenge sent: host nonce, device nonce, session -/
  challenge : Option (BitVec 128 × BitVec 128 × Word)
  session : Option Word
  sessionKey : BitVec 256
  rxSeq : Word
  txSeq : Word
  /-- datagrams sent and not covered by an ack: their seq and how many completions each carries -/
  unacked : List (Word × Nat)
deriving DecidableEq, Repr

end Sys2Proof.Machine
end

