-- ==== Sys2Proof/Machine/StFlyer.lean ====
section
/-! DEFINITION. The state of the flyer engines and of the memory banks, fabric and bobbin pool
(11_flyer_engines.md, 12_memory_fabric.md). -/

namespace Sys2Proof.Machine

/-- The registers an engine holds twice, one set per level (R188). -/
structure FlBank where
  d : Vector Sample 16
  ac : Vector (BitVec 48) 4
  xpc : BitVec 14
  xstat : BitVec 18
  xmode : Half
  xcause : BitVec 3
  xinfo : Word
deriving DecidableEq, Repr

/-- The register a delayed write lands in; the flag tells the bank, true for interrupt level. -/
inductive FlDest
  | d (irq : Bool) (r : Fin 16) (v : Sample)
  | ac (irq : Bool) (r : Fin 4) (v : BitVec 48)
  | mode (v : BitVec 18)
  | flags (z n v c : Bool)
deriving DecidableEq, Repr

/-- A write issued and not yet visible: `left` issue cycles until a reader sees it (R195). -/
structure FlWrite where
  left : Nat
  dest : FlDest
deriving DecidableEq, Repr

/-- A fabric operation outstanding (R194). -/
inductive FabOp
  | fmv (local_ : Nat) (sample : Nat) (toBanks : Bool) (lines : Nat) (ecc : List EccErr)
  | fatm (local_ : Nat) (sample : Nat) (swap : Bool) (operand : Sample) (ecc : List EccErr)
deriving DecidableEq, Repr

/-- What an engine is doing. -/
inductive FlRun
  | running
  /-- its clock is halted by HALT (R204, R16) -/
  | halted
  /-- waiting in WAITF or in a fifth fabric operation until at most `n` operations are outstanding; `step`: FLYER_DEBUG steps
  over that instruction (R217) -/
  | stalled (n : Nat) (step : Bool)
  /-- stopped by an event of R209 -/
  | faulted
  /-- halted by FLYER_DEBUG (R217) -/
  | debug
  /-- issuing one instruction, or one run that cannot be interrupted, for FLYER_DEBUG -/
  | stepping
deriving DecidableEq, Repr

/-- A current-ply slot an engine holds. -/
structure FlSlot where
  quad : QuadId
  slot : SlotId
  count : Sample
  /-- entry_cur is not called again until the strand's next STRAND_ENABLE (R210) -/
  off : Bool
deriving DecidableEq, Repr

/-- One flyer engine (R188 to R210). -/
structure Engine where
  bg : FlBank
  irq : FlBank
  a : Vector (BitVec 20) 8
  lg : Vector Half 8
  amode : Half
  lc : Vector Sample 2
  ls : Vector (BitVec 14) 2
  le : Vector (BitVec 14) 2
  lr : BitVec 14
  xb : Vector Word 4
  mode : BitVec 18
  /-- stored bits 5:0 and 12:5, 17:16; fcnt is counted from `fab` -/
  status : BitVec 18
  pc : BitVec 14
  epc : BitVec 14
  estat : BitVec 18
  stid : Byte
  ipend : BitVec 9
  pend : List FlWrite
  fab : List FabOp
  poison : Option Word
  local_ : List (Nat × Sample)
  program : List (Nat × BitVec 36)
  run : FlRun
  /-- the branch whose delay slot comes next: its address and where it goes if taken -/
  delay : Option (BitVec 14 × Option (BitVec 14))
  /-- the next instruction stands in a mode shadow -/
  shadow : Bool
  /-- the running DIVS sequence (R202): accumulator, steps done, dividend, divisor -/
  divs : Option (Fin 4 × Nat × Int × Int)
  /-- the flags a conditional branch reads now (R195) -/
  condZ : Bool
  condN : Bool
  condV : Bool
  condC : Bool
  /-- pending sources, earliest first (R206), and the source whose handler runs -/
  order : List Nat
  handling : Option Nat
  /-- the fabric operation of an instruction that waits for a place (R194, R198) -/
  held : Option FabOp
  /-- program addresses whose word fails its parity (R209) -/
  badParity : List Nat
  /-- the handler that runs has called entry_cur (R211) -/
  inCur : Bool
  /-- the runtime has called entry_exc: the link register that stood before (R210) -/
  excLink : Option (BitVec 14)
deriving DecidableEq, Repr

/-- An engine's place in the device: its program, its slots, its part in migration. -/
structure EngineRole where
  spare : Bool
  inService : Bool
  program : Option (Fin 16)
  /-- the image it has loaded: its entries and declared counts (R211, R212) -/
  image : Option FlyerImage
  slots : Vector (Option FlSlot) 4
  /-- calls of entry_strand and entry_ply that the runtime's dispatcher has yet to make: the entry's number and the strand
  (R211) -/
  calls : List (Nat × StrandId)
  /-- consecutive cycle starts that found the engine not halted (R207) -/
  busy : Nat
  eccCorrected : Nat
  attached : Bool
  /-- the engine its work goes to at the next cycle start (R216, R279) -/
  moveTo : Option EngineId
  /-- this move follows a fault (R279) -/
  byFault : Bool
  /-- FLYER_DEBUG's halt waits for a boundary (R217) -/
  haltDue : Bool
  /-- the engine number of R14 whose work it holds; none for a spare and for one out of service -/
  home : Option (Fin 17)
  /-- its slots go over to this engine one by one (R216) -/
  retiring : Option EngineId
  /-- a program loads in this cycle, so the strands skip it (R215) -/
  loading : Bool
  /-- it has taken over work in this cycle, whose skips do not count toward overrun_limit (R216) -/
  tookOver : Bool
  /-- cached publication map entries, latest use first, at most 64 (R127) -/
  mapCache : List (BitVec 24 × Sample)
deriving DecidableEq, Repr

/-- One bank controller (R234). -/
structure BankCtl where
  pmode : BitVec 2
  clearing : Bool
  repairing : Option Nat
  ce : Nat
  ue : Nat
  spares : Nat
  coll : Nat
  /-- rows switched to a spare (R230) -/
  rows : List Nat
  /-- words the previous scrub pass corrected (R230) -/
  lastFixed : List Nat
  /-- the key of the open contents of a bank that has been OFF in mode 1 (R226) -/
  lost : Option Nat
  /-- the free lists built over the bank's words, newest first: their first bank and their number of bobbins (R231) -/
  built : List (Nat × Nat)
deriving DecidableEq, Repr

/-- The banks and the bobbin pool. A byte of word g is the cell 8g + byte, its tag the cell 0x0200_0000 + g (R218). -/
structure Mem where
  cells : List Host.Cell
  /-- global word numbers that are poisoned, rising (R227) -/
  poison : List Nat
  banks : Vector BankCtl 32
  poolBase : BitVec 5
  poolCount : BitVec 14
  poolEn : Bool
  /-- the index at the head of the free list, which goes on through bits 17:0 of word 0 of each free bobbin; 0x3_FFFF is null
  (R231) -/
  head : Nat
  /-- bobbins on the list, and the indices given out and not released, rising (R232, R234) -/
  freeCount : Nat
  used : List Nat
  /-- bobbins given out to requesters of their own (R232) -/
  handed : List (PoolUser × Nat)
  linkDrop : Nat
  relErr : Nat
  /-- the distaff's own requests waiting for a release notice (R233) -/
  waiters : Nat
  notice : Bool
  /-- open staging buffers: handle, length, chain (R66) -/
  stages : List (Nat × Nat × List Nat)
  /-- the publication map: its number of entries, and the bobbins that hold them (R126) -/
  mapCount : Nat
  mapChain : List Nat
deriving DecidableEq, Repr

end Sys2Proof.Machine
end

