-- ==== Sys2Proof/Machine/StLink.lean ====
section
/-! DEFINITION. The state of the Ohmond link, domain time and fault recovery (13_ohmond_link.md to
15_fault_recovery_service.md). -/

namespace Sys2Proof.Machine

/-- A frame sent and waiting for its ack, or acked and waiting for its release (R248). -/
structure Sent where
  hseq : Byte
  bobbin : Nat
  frame : Frame
  retries : Nat
deriving DecidableEq, Repr

/-- One Ohmond port (R235, R236, R261). -/
structure LinkPort where
  role : BitVec 2
  roleSh : BitVec 2
  lanes : BitVec 2
  lock : BitVec 2
  ready : Bool
  degraded : Bool
  wrapped : Bool
  wrapEvent : Bool
  degradeEvent : Bool
  lockEvent : Bool
  nbrDevice : BitVec 14
  nbrValid : Bool
  nbrSerial : Half
  nbrMaster : Bool
  helloSeen : Bool
  single : Nat
  missing : Nat
  crcErr : Nat
  retry : Nat
  unreach : Nat
  ownLate : Nat
  nextHseq : Byte
  /-- frames waiting to be sent, each with its bobbin (R250) -/
  queue : List (Nat × Frame)
  sent : List Sent
  held : List Sent
  /-- the failed lane has held lock for 1 s (R236) -/
  laneBack : Bool
  /-- block times of 1.28 ns from the cycle start until which the port sends what it has been given (R250, R251) -/
  busy : Nat
  /-- when the port sends the bursts it forwards: their first and last block times (R251) -/
  fwd : List (Nat × Nat)
deriving DecidableEq, Repr

/-- The domain as the enumeration found it (R237, R253): the devices in the order found with their segments and the numbers
given, their links, the ring ports that ran degraded, and this device's place. -/
structure Topology where
  devices : List FoundDevice
  segments : List Nat
  numbers : List (Option (BitVec 14))
  links : List FoundLink
  degraded : List (Nat × Port)
  self : Nat
deriving DecidableEq, Repr

/-- A publication entry of the schedule (R255). -/
structure SchedPub where
  index : Nat
  endpoint : BitVec 24
  scope : Nat
  home : Nat
  dest : List Nat
deriving DecidableEq, Repr

/-- A slot entry of the schedule (R255). -/
structure SchedSlot where
  segment : Nat
  device : BitVec 14
  kind : BurstKind
  port : Option Port
  start : Nat
  count : Nat
deriving DecidableEq, Repr

/-- A schedule: header fields and decoded entries, with the entry number of each (R255). -/
structure Schedule where
  gen : BitVec 3
  t : Half
  switchCycle : BitVec 64
  origin : BitVec 64
  pubs : List (Nat × SchedPub)
  slots : List (Nat × SchedSlot)
deriving DecidableEq, Repr

/-- A burst copy seen in this cycle (R239). -/
structure SeenBurst where
  source : BitVec 14
  kind : BurstKind
  port : Port
  good : Bool
  /-- the first endpoint: two export bursts of a device differ in it -/
  head : BitVec 24
deriving DecidableEq, Repr

/-- The device's place in the domain, its schedule and its receive areas (R245, R252 to R261). -/
structure Link where
  ports : Vector LinkPort 4
  device : BitVec 14
  numbered : Bool
  clkPort : BitVec 2
  segment : BitVec 14
  member : Bool
  subBase : BitVec 5
  schedBase : BitVec 5
  subSize : BitVec 5
  master : Bool
  masterSeen : Bool
  masterPrio : BitVec 4
  schedErr : Nat
  idxOver : Nat
  sched : Schedule
  hasSched : Bool
  /-- entries staged by SCHEDULE_WRITE: entry number and its 32 bytes (R256) -/
  staged : List (Nat × Rec32)
  /-- what was staged before the write that is committing: it stays where that write is refused or aborted (R63, R75) -/
  stagedWas : List (Nat × Rec32)
  /-- a schedule agreed and waiting for its switch cycle -/
  next : Option Schedule
  /-- the receive area of the present cycle -/
  area : Bool
  /-- the sequencer's record of the last good payload: index, payload, age (R56) -/
  lastGood : List (Nat × (Word72 × BitVec 6))
  seen : List SeenBurst
  /-- late bursts, schedule mismatches and endpoints already counted in this cycle -/
  counted : List (BitVec 14 × Nat)
  /-- late bursts already counted: source, kind, cycle and first endpoint (R12, R245) -/
  lateSeen : List (BitVec 14 × Nat × Half × BitVec 24)
  /-- the indices stored in this cycle (R246) -/
  stored : List Nat
  /-- the segment is a ring, as the enumeration found it (R237) -/
  ring : Bool
  topo : Topology
  /-- a SET_CYCLE whose schedule waits for its switch (R257) -/
  setCycle : Option Instr
  /-- broadcasts seen within 1 ms: source, origin sequence and device time (R247) -/
  broadcasts : List (BitVec 14 × Byte × BitVec 64)
  oseq : Byte
  /-- joining: the first burst is due at the next cycle start (R254) -/
  joining : Bool
  /-- LNK_DOM_CFG and LNK_MEM_CFG as last written, until the next cycle start (R261) -/
  cfgSh : Option Word
  memSh : Option Word
deriving DecidableEq, Repr

/-- What a device knows of one time domain (R262 to R269). `ns` counts ns, `frac` 2^-24 ns. -/
structure TimeDom where
  ns : BitVec 64
  frac : BitVec 24
  lock : Bool
  hasMaster : Bool
  isMaster : Bool
  masterSerial : BitVec 48
  up : Port
  goodSyncs : Nat
  prio : BitVec 4
  /-- the last sync: port, sequence, local stamp -/
  sync : Option (Port × BitVec 5 × BitVec 64)
  /-- the latest servo error, 1/256 ns -/
  error : Int
  /-- arrival less departure of the last sync of each port, 1/256 ns (R264) -/
  forwards : Vector (Option Int) 4
  /-- the hops the last announcement of each port has made (R265, R267) -/
  hops : Vector (Option Nat) 4
deriving DecidableEq, Repr

/-- The time unit (R262 to R273). -/
structure Time where
  td1 : TimeDom
  td2 : TimeDom
  dev : BitVec 64
  devFrac : BitVec 24
  sel : Dom
  auto : Bool
  active : Dom
  slewing : Bool
  holdover : Bool
  masterEvent : Bool
  switchEvent : Bool
  lockEvent : Bool
  nowHi : Word
  plant : BitVec 63
  plantValid : Bool
  plantHi : Word
  /-- link delay of each port, 1/256 ns, and the delay request under way (R263, R264) -/
  delays : Vector Nat 4
  requests : Vector (Option (BitVec 5 × BitVec 64)) 4
  syncSeq : BitVec 5
  ptpOn : Bool
  ptpDomain : Nat
  ptpInterval : Int
  /-- a Sync that waits for its Follow_Up: its sequence and the device time of its arrival (R272) -/
  ptpSync : Option (Half × BitVec 64)
  /-- master's time less device time of the last Sync, ns -/
  ptpDown : Option Int
  /-- the Delay_Req that waits for its response: its sequence and when it left -/
  ptpReq : Option (Half × BitVec 64)
  ptpSeq : Half
  /-- when the last Delay_Req left, and when the bridge last updated -/
  ptpLast : Option (BitVec 64)
  ptpAt : BitVec 64
  /-- the latest offsets of plant time, at most sixteen (R272) -/
  ptpOffsets : List Int
deriving DecidableEq, Repr

/-- A remote command this device has in flight (R49, R276, R278). -/
structure RemoteCmd where
  rseq : Word
  mb : MbId
  tag : Fin 32
  opcode : Half
  irq : Bool
  target : BitVec 14
  timer : Bool
deriving DecidableEq, Repr

/-- A kept key with its final completion once there is one (R277). -/
structure KeptKey where
  src : BitVec 14
  key : RemoteKey
  done : Option SlotWord
deriving DecidableEq, Repr

/-- One fixer log record (R288). -/
structure LogRec where
  seq : Word
  stamp : Word
  cycle : BitVec 48
  cls : Byte
  flags : Byte
  cause : Half
  inst : Half
  detail : Word
  context : List Int
  /-- a power loss has torn it: its CRC fails (R289) -/
  torn : Bool
deriving DecidableEq, Repr

/-- One firmware image of the MRAM (R281, R286). -/
structure FwImage where
  rel : Half
  bytes : List (Nat × Byte)
  valid : Bool
  verified : Bool
deriving DecidableEq, Repr

/-- Remote commands, the fixer log and MRAM (R276 to R289). -/
structure Recovery where
  remotes : List RemoteCmd
  nextRseq : Word
  keys : List KeptKey
  /-- source and key of the requests in MB6's ring that are not yet copied, oldest first (R276) -/
  arrivals : List (BitVec 14 × RemoteKey)
  log : List LogRec
  logNext : Word
  logUnread : Nat
  /-- the last sequence number a LOG_READ has delivered, plus one -/
  logRead : Word
  negative : Option Negative
  negGen : Word
  nbrS : Option Negative
  nbrZ : Option Negative
  records : List NegRecord
  fw : Vector FwImage 2
  boot : Bool
  calPage : List (Nat × Byte)
  calUser : Bool
  calDate : Word
  calValid : Bool
  /-- the page has been checked since the complete reset (R40) -/
  calChecked : Bool
  /-- write counts of 4 KiB MRAM blocks, and the spare blocks left (R287) -/
  wear : List (Nat × Nat)
  spareBlocks : Nat
  /-- after a complete reset the distaff still has to take its negative (15_fault_recovery_service.md) -/
  restoreDue : Bool
  /-- a print is being received and the gate enables stay low (R284) -/
  printing : Bool
deriving DecidableEq, Repr

end Sys2Proof.Machine
end

