-- ==== Sys2Proof/Machine/StStrand.lean ====
section
/-! DEFINITION. The running state of strands, coordinated groups, cam tables and skeins (05_strands.md to
07_skeins.md). Positions are Q47.16 counts and velocities 1/16 count/s as integers; a plan is exact in rational
counts and seconds. -/

namespace Sys2Proof.Machine

/-- The states of a strand, in the order of the state word (R90, R94). -/
inductive StrandSt | off | ready | run | hold | stopping | fault | safe
deriving DecidableEq, Repr

/-- One piece of a plan: constant jerk over `dur` seconds (R98, R101). Units: counts, seconds. -/
structure Seg where
  dur : Rat
  v0 : Rat
  a0 : Rat
  j : Rat
deriving DecidableEq, Repr

/-- A plan of the profile generator. `t` is the domain time since its start in 250 ns units; `target` is the exact
end position of R99 (Q47.16), absent where the plan only changes velocity. -/
structure Plan where
  start : Int
  segs : List Seg
  target : Option Int
  endVel : Rat
  t : Nat
deriving DecidableEq, Repr

/-- A move a command asked for. -/
inductive Move
  | abs (target : Int)
  | rel (distance : Int)
  | jog (vel : Int)
deriving DecidableEq, Repr

/-- A move that waits, with the limits in force when it was accepted (R96). -/
structure Waiting where
  move : Move
  limits : Profile
deriving DecidableEq, Repr

/-- What follows a stop at standstill (R90, R300): an SS1 stop holds standstill in STOPPING. -/
inductive StopEnd | toReady | toRun | toFault | held
deriving DecidableEq, Repr

/-- A running stop or fault reaction (R91, R103). -/
structure StopRun where
  plan : Plan
  quick : Bool
  after : StopEnd
  /-- its planned time in 250 ns units -/
  planned : Nat
deriving DecidableEq, Repr

/-- A follower's engagement in a skein (R118 to R125). -/
structure Engage where
  skein : Fin 64
  ramp : Nat
  /-- the engaging update has happened -/
  begun : Bool
  /-- the cycle the blend's time counts from: the effective cycle, then that of the engaging update -/
  base : Nat
  s0 : Int
  v0 : Int
  sE : Int
  mE : Int
  phiE : Int
  /-- the last good value: extended position, velocity, producing cycle -/
  lastPos : Int
  lastVel : Int
  lastCycle : Nat
  aHat : Rat
  /-- an entry has been good since the engagement took effect -/
  fresh : Bool
  missing : Nat
  /-- the first cycle whose entry is not yet counted -/
  seenCycle : Nat
  age : Nat
  extrapolating : Bool
  /-- the map index last read (R128) -/
  index : Option Nat
  /-- cached cam segment: its number and its four points (R115) -/
  camSeg : Option (Int × List Int)
  /-- the swap count of the table when the segment was taken (R114) -/
  camEpoch : Nat
  camRange : Bool
  /-- the registration trim this follower runs (R124): from, to, the cycle its ramp began at, the ramp in ns, and the number of
  the skein's corrections it has taken -/
  trimFrom : Rat
  trimTo : Rat
  trimAt : Nat
  trimRamp : Nat
  trimSeen : Nat
deriving DecidableEq, Repr

/-- The phases of the auxiliary sensorless loop (R148). -/
inductive AuxPhase | off | align | openUp | closed | openDown
deriving DecidableEq, Repr

/-- The state of the auxiliary sensorless loop (R146 to R150). Speeds in 1/16 count/s, magnitudes along `fwd`. -/
structure AuxRun where
  phase : AuxPhase
  /-- AUX_COMMAND's speed; none follows the curve (R149) -/
  override : Option Int
  /-- the curve's input has turned the strand on (R147) -/
  on : Bool
  fwd : Bool
  /-- a reversal waits for the measured speed to fall (R149) -/
  pending : Bool
  /-- open-loop speed, or the speed reference in closed loop -/
  speed : Rat
  /-- the observer's estimate, signed -/
  est : Int
  angle : Rat
  /-- alignment time left, and the time each of the four loss conditions of R150 has held, in ns -/
  alignLeft : Nat
  los : List Nat
  /-- the last input value not over-range (R147) -/
  input : Int
  /-- the duty input: its value, its last rise and its last high time in samples (R147) -/
  duty : Nat
  rise : Nat
  high : Nat
  /-- the time of its last edge on the clock of the bound unit, in ns -/
  edgeAt : Nat
deriving DecidableEq, Repr

/-- The state vectors and outputs of a strand's plies (R82 to R88). -/
structure PlyRun where
  xCur : List Int
  xVel : List Int
  xPos : List Int
  vd : Int
  vq : Int
  iqRef : Int
  idRef : Int
  velRef : Int
  satCur : Bool
  satVel : Bool
  satPos : Bool
  manualOut : Int
  ferrCount : Nat
  sumCount : Nat
  stillCount : Nat
  stallTime : Nat
  /-- a switch of blocks has cleared the states of ply 0, 1 or 2; its next update shows out_limit (R85) -/
  cleared : BitVec 3
  /-- the velocity ply's output while manual or torque mode last held it (R88) -/
  lastHeld : Option Int
deriving DecidableEq, Repr

/-- The running state of one strand. -/
structure Strand where
  cfg : StrandCfg
  st : StrandSt
  fault : BitVec 16
  reacting : Bool
  manual : Bool
  source : BitVec 2
  standstill : Bool
  moveEnded : Bool
  atTarget : Bool
  outLimit : Bool
  fwActive : Bool
  uncertain : Bool
  srcRange : Bool
  rearm : Bool
  stopHeld : Bool
  refPos : Int
  refVel : Int
  refAcc : Int
  /-- reference position and velocity of the latest update, as published (R13, R116) -/
  pubPos : Int
  pubVel : Int
  actPos : Int
  actVel : Int
  iq : Int
  ferr : Int
  updCycle : BitVec 48
  /-- cycles since the latest update (R13) -/
  pubAge : Nat
  skipped : Nat
  ctl : Half
  holdCmd : Bool
  holdCtl : Bool
  plan : Option Plan
  stored : Option Waiting
  /-- a move waiting for the running S-curve's acceleration to reach zero, with its command (R101) -/
  deferred : Option (Waiting × Instr)
  /-- the limits the latest move was planned with (R96) -/
  moveLim : Profile
  stop : Option StopRun
  engage : Option Engage
  /-- host phase of R123 in counts and its speed; the extended master last taken (R118) -/
  phiH : Rat
  phiHV : Rat
  mLast : Int
  extBase : Int
  extCount : Int
  extVel : Int
  extOn : Bool
  /-- after manual: 1, the reference resumes from actual position at this update; 2, it goes from there to its source (R88) -/
  fromManual : BitVec 2
  /-- what is left of the step a change to a pulse source made: distance and speed (R89) -/
  extD : Rat
  extDV : Rat
  ply : PlyRun
  aux : AuxRun
  engine : EngineId
  /-- microstep address and hold-current flag of a stepper strand (R155, R157) -/
  msAddr : Nat
  msRef : Int
  /-- the sequencer's interpolation (R157): the previous target and the present one in 1/65,536 microstep, the ns it
  takes and the ns that have passed -/
  msFrom : Int
  msTo : Int
  msSpan : Nat
  msPast : Nat
  holdCur : Bool
  stillNs : Nat
  /-- enlarger target and input period (R160) -/
  enlTarget : Rat
  enlRate : Rat
  enlLast : BitVec 64
  /-- steps not yet pushed to the generator, a fraction (R154, R161) -/
  stepFrac : Rat
  /-- reverse steps that wait for the pending distance: target and rate -/
  enlNext : Option (Rat × Rat)
  /-- where the enlarger's motion stands, in microsteps (R160) -/
  enlPos : Rat
  /-- an SS1 stop has been asked for by the islands (R300) -/
  ss1 : Bool
  /-- STRAND_ENABLE's release of the pairs is due at the next update (R136) -/
  switchOn : Bool
  /-- the external drive reports a fault (R354) -/
  extFault : Bool
  /-- causes that have occurred and act at the next update, by their bits in the fault word (R90) -/
  raised : BitVec 16
  /-- a gate enable of the quad has gone low since the last update (R90) -/
  safeDue : Bool
  /-- the runtime has switched the strand off as STOP_NOW does, which acts on the strand at the next update (R210) -/
  stopDue : Bool
  /-- standstill has come and ends the stop at the next update (R90, R91) -/
  restDue : Bool
  /-- the latest update took its reference from actual position in manual (R88) -/
  manualRef : Bool
  /-- the cycle in which the runtime abandoned the strand's work (R210) -/
  abandoned : Option (BitVec 48)
deriving DecidableEq, Repr

/-- One path segment of PATH_QUEUE, decoded (R105). -/
structure PathRec where
  type : Nat
  exact : Bool
  mi : Fin 8
  mj : Fin 8
  feed : Nat
  dwell : Nat
  ends : List Int
  centre : Int × Int
deriving DecidableEq, Repr

/-- A coordinated group (R104 to R110). `s` is the path length into the first queued segment in counts, `v` and
`acc` the path velocity and acceleration; `from` holds the members' positions at the segment's start. -/
structure Group where
  members : List StrandId
  queue : List PathRec
  /-- records queued for a GROUP_DEFINE that is armed and has not acted (R68) -/
  next : List PathRec
  running : Bool
  stopping : Option Rat
  starts : List Int
  /-- the knot before the first queued segment, when it belongs to the same spline run (R107) -/
  before : Option (List Int)
  /-- no record was queued behind the first segment when the path entered it, so that a knot queued later starts a
  new run (R107); nothing before the path enters it -/
  runEnds : Option Bool
  s : Rat
  v : Rat
  acc : Rat
  dwellLeft : Nat
  /-- members that have left this run of the path (R110) -/
  left : List StrandId
  /-- the references written last, per member: position, velocity, acceleration; and their cycle (R109) -/
  refs : List (Int × Int × Int)
  refCycle : BitVec 48
  /-- records already planned when the distaff stopped; the engine runs out this horizon (R109) -/
  horizon : Nat
deriving DecidableEq, Repr

/-- A cam table: its two buffers, which is active, and whether the shadow is complete (R111 to R114). The points lie in the
banks, in the bobbins of each buffer's chain. -/
structure CamTable where
  active : Option CamHead
  shadow : Option CamHead
  complete : Bool
  chainActive : List Nat
  chainShadow : List Nat
  /-- the chain a CAM_LOAD in progress has taken (R113) -/
  chainNew : List Nat
  /-- incremented at each swap, so that followers drop their segment (R114) -/
  epoch : Nat
deriving DecidableEq, Repr

/-- A skein and its registration loop (R120 to R124). -/
structure Skein where
  cfg : Option SkeinCfg
  regProbe : Fin 16
  regGain : Int
  regLimit : Nat
  regRamp : Nat
  regOn : Bool
  /-- the target of φ_r in Q47.16 counts, the ramp of the last correction in ns, and the number of corrections (R124) -/
  phiTo : Rat
  phiRamp : Nat
  trims : Nat
  regLimitFlag : Bool
  regMiss : Bool
deriving DecidableEq, Repr

end Sys2Proof.Machine
end

