-- ==== Sys2Proof/Machine/State.lean ====
section
/-! DEFINITION. The whole state of one SK9600, the reasons a step can stop, and the state right after a complete
reset. Every piece of state the manual names has its field; INVENTORY.md lists them with their rules. -/

namespace Sys2Proof.Machine

/-- The one device of the model. -/
structure State where
  id : Identity
  pwr : Power
  clk : Clock
  host : HostIf
  mb : Vector Mailbox 8
  dist : Distaff
  seq : Seq
  strands : Vector Strand 256
  groups : Vector Group 32
  cams : Vector CamTable 64
  skeins : Vector Skein 64
  quads : Vector Quad 12
  stgs : Vector Stg 16
  fbs : Vector Fb 48
  probes : Vector Probe 16
  cmps : Vector Compare 24
  engines : Vector Engine 17
  roles : Vector EngineRole 17
  progs : Vector (Option FlyerImage) 16
  mem : Mem
  link : Link
  time : Time
  rec_ : Recovery
  saf : Safety
  exps : Vector Exp 8
  fio : FieldIo
  cans : Vector Can 4
  usb : Usb
  eth : Eth
  scan : Scan
  userPubs : List UserPub
  /-- the model's own counter of free values (log entry 3) -/
  free : Nat
  /-- what has left the device, newest last (log entry 4) -/
  out : List Out
  /-- the commands that are waiting, first in, first out -/
  pending : List Instr
deriving DecidableEq, Repr

/-- The model stops with no fault: the manual gives every command an effect. -/
inductive Fault
deriving DecidableEq, Repr

/-- Reasons for a refusal. -/
inductive Refusal
  /-- Raised by an arm of `exec` whose command has no meaning yet; safe, since the machine stops. -/
  | notModelled (mnemonic : String)
deriving DecidableEq, Repr

def PwrFn.reset : PwrFn := ⟨0, .run⟩

def Power.reset : Power where
  ready := 0
  readyBank := 0
  readyFly := 0
  dev := .run
  engines := (Vector.replicate 17 PwrFn.reset).set 16 ⟨0, .retain⟩
  banks := Vector.replicate 32 PwrFn.reset
  quads := Vector.replicate 12 PwrFn.reset
  fbs := Vector.replicate 48 PwrFn.reset
  exps := Vector.replicate 8 PwrFn.reset
  cans := Vector.replicate 4 PwrFn.reset
  eth := PwrFn.reset
  distaff := PwrFn.reset
  held := false
  resetLow := false
  railsBad := 0
  coldDue := false
  coldAsked := false
  testing := []

def Clock.reset : Clock where
  pri0 := 0
  pri1 := 1
  pri2 := 2
  revert := false
  active := 0
  holdover := false
  mismatch := false
  keeperCFault := false
  keeperFFault := false
  goodA := true
  goodB := true
  goodLink := false
  badC := 0
  badF := 0
  badRef := 0

def SheetEntry.reset : SheetEntry := ⟨0, 0, 0, 0, 0, 0, 0⟩

def SheetPage.reset : SheetPage := ⟨0, 0, Vector.replicate 256 SheetEntry.reset, 0, 0⟩

def SubPage.reset : SubPage := ⟨0, 0, []⟩

/-- Default marks: 48 for the response rings, 256 for the fixer log, 3/4 of the FIFO size for CAN; an exposure
unit has no allocation yet, so three quarters of it are 0 (03_host_interface.md). -/
def Watermark.defaultMark (i : Nat) : Nat := if i < 16 then 48 else if i < 24 then 0 else 256

def Watermark.reset (i : Nat) : Watermark := ⟨Watermark.defaultMark i, 0, true, 0⟩

def HostIf.reset : HostIf where
  intStatus := 0
  intMask := 0xFFFFFFFF
  notice := 0
  wm := Vector.ofFn fun i : Fin 25 => Watermark.reset i
  cycleHi := 0
  accErr := false
  bench := false
  bar2Denied := 0
  pcieUp := false
  perst := false
  busMaster := false
  msixEnable := false
  msixTable := Vector.ofFn fun i : Fin 512 => if i.val % 16 = 12 then 1 else 0
  msixPending := 0
  intake := Vector.replicate 256 0
  latched := Vector.replicate 256 0
  outRec := 0
  outLatched := 0
  outSeqTaken := none
  sheets := Vector.replicate 2 SheetPage.reset
  subs := Vector.replicate 2 SubPage.reset
  sheetPage := false
  subPage := false
  sheetCycle := 0
  subList := []

def Mailbox.reset : Mailbox where
  reqPi := 0
  reqCi := 0
  rspPi := 0
  rspCi := 0
  req := Vector.replicate 64 0
  rsp := Vector.replicate 64 0
  phase := true
  dbErr := false
  held := 0
  order := []
  lateHeld := 0
  pend := []

/-- The mailboxes serve nothing until their ready bit sets; the distaff is not stopped under R19 (R28, R30). -/
def Distaff.reset : Distaff where
  st := .running
  image := false
  fwRel := 0x0401
  inHand := []
  staged := []
  armed := []
  longs := []
  stepped := false
  turn := 0
  owed := []
  orphan := []
  stopAfter := none
  edit := none

def Seq.reset : Seq where
  cycle := 0
  running := false
  sheetPoint := 0
  sheetPointSh := 0
  overrun := 3
  overrunSh := 3
  torn := 0
  late := 0
  overCnt := 0

def StrandCfg.reset : StrandCfg where
  binding := .unbound
  fb := none
  configured := false
  dS := 1
  phase := 0
  kP := 2
  dP := 1
  reaction := 1
  overrunLimit := 0
  cur := none
  vel := none
  pos := none
  step := none
  profile := none
  dq := 0
  dqStop := false
  holdCycles := 3
  source := .intake
  aux := none
  enlarger := none

def AuxRun.reset : AuxRun := ⟨.off, none, false, true, false, 0, 0, 0, 0, [0, 0, 0, 0], 0, 0, 0, 0, 0⟩

/-- The loop comes to rest; what its duty input has shown stays (R147). -/
def AuxRun.rest (a : AuxRun) : AuxRun :=
  { AuxRun.reset with input := a.input, duty := a.duty, rise := a.rise, high := a.high, edgeAt := a.edgeAt }

def PlyRun.reset : PlyRun where
  xCur := []
  xVel := []
  xPos := []
  vd := 0
  vq := 0
  iqRef := 0
  idRef := 0
  velRef := 0
  satCur := false
  satVel := false
  satPos := false
  manualOut := 0
  ferrCount := 0
  sumCount := 0
  stillCount := 0
  stallTime := 0
  cleared := 0
  lastHeld := none

def Strand.reset : Strand where
  cfg := StrandCfg.reset
  st := .off
  fault := 0
  reacting := false
  manual := false
  source := 0
  standstill := false
  moveEnded := false
  atTarget := false
  outLimit := false
  fwActive := false
  uncertain := false
  srcRange := false
  rearm := false
  stopHeld := false
  refPos := 0
  refVel := 0
  refAcc := 0
  pubPos := 0
  pubVel := 0
  actPos := 0
  actVel := 0
  iq := 0
  ferr := 0
  updCycle := 0
  pubAge := 0
  skipped := 0
  ctl := 0
  holdCmd := false
  holdCtl := false
  plan := none
  stored := none
  deferred := none
  moveLim := ⟨false, 0, 2 ^ 24, 2 ^ 24, 0, 2 ^ 26, 2 ^ 26, 2 ^ 26, 2 ^ 26, 0⟩
  stop := none
  engage := none
  phiH := 0
  phiHV := 0
  mLast := 0
  extBase := 0
  extCount := 0
  extVel := 0
  extOn := false
  fromManual := 0
  extD := 0
  extDV := 0
  ply := PlyRun.reset
  aux := AuxRun.reset
  engine := 0
  msAddr := 0
  msRef := 0
  msFrom := 0
  msTo := 0
  msSpan := 0
  msPast := 0
  holdCur := false
  stillNs := 0
  enlTarget := 0
  enlRate := 0
  enlLast := 0
  stepFrac := 0
  enlNext := none
  enlPos := 0
  ss1 := false
  switchOn := false
  extFault := false
  raised := 0
  safeDue := false
  stopDue := false
  restDue := false
  manualRef := false
  abandoned := none

def Group.reset : Group where
  members := []
  queue := []
  next := []
  running := false
  stopping := none
  starts := []
  before := none
  runEnds := none
  s := 0
  v := 0
  acc := 0
  dwellLeft := 0
  left := []
  refs := []
  refCycle := 0
  horizon := 0

def CamTable.reset : CamTable := ⟨none, none, false, [], [], [], 0⟩

def Skein.reset : Skein := ⟨none, 0, 0, 0, 0, false, 0, 0, 0, false, false⟩

/-- Reset values of R151 and R152: div 8, OSR 32, OSR₂ 8, limits 0x1_E000. -/
def QuadCfg.reset : QuadCfg where
  mix := 0
  saw := false
  dbl := false
  run := false
  period := 0
  phase := 0
  dead := Vector.replicate 12 0
  gfEnable := 0
  gfLevel := 0
  div := 8
  osr3 := 1
  osr2 := 1
  clkEn := false
  capDly := 0
  limit := Vector.replicate 12 0x1E000
  microstep := none

def Quad.reset : Quad where
  cfg := QuadCfg.reset
  sh := QuadCfg.reset
  duty := Vector.replicate 12 0
  dutySh := Vector.replicate 12 0
  cnt := 0
  down := false
  valley := 0
  holdTo := 0
  was := Vector.replicate 12 (false, 0)
  wait := Vector.replicate 12 (0, 0)
  heldOut := Vector.replicate 12 (false, false)
  force := 0
  trip := 0
  gfPin := 0xF
  gfEvent := 0
  frozen := false
  waitValley := false
  gateA := false
  gateB := false
  lockLost := false
  carrierSet := false
  data := Vector.replicate 12 0
  fast := Vector.replicate 12 0
  tripped := 0
  stuck := 0
  settling := 0
  choppers := Vector.replicate 6 none
  windings := Vector.replicate 12 ⟨.idle, 0⟩
  tableDrive := Vector.replicate 6 none

def StgCfg.reset : StgCfg := ⟨200, false, 0, false⟩

def Stg.reset : Stg where
  cfg := StgCfg.reset
  sh := StgCfg.reset
  queue := []
  idle := true
  current := none
  dir := false
  underrun := false
  overflow := false
  stretch := 0
  dirDelay := 0
  count := 0
  ext := 0

def FbCfg.reset : FbCfg := ⟨0, false, 0, 0, false, 0, 1000, 0⟩

def Fb.reset : Fb where
  cfg := FbCfg.reset
  sh := FbCfg.reset
  count := 0
  ext := 0
  raw := 0
  index := 0
  a := false
  b := false
  bPrev := false
  bAt := 0
  hall := 0
  sector := none
  pHat := 0
  vHat := 0
  aHat := 0
  clock := 0
  lineAt := Vector.replicate 3 none
  edgeAt := none
  now := 0
  latchP := 0
  hasWord := false
  frameOpen := false
  frameAt := 0
  stat := 0
  qerr := 0
  qerrAt := []
  nERun := 0
  maHigh := 0
  timeoutLast := false
  latchPi := 0
  latchV := 0

def Probe.reset : Probe where
  cfg := ⟨0, false, 0⟩
  cfgSh := none
  armed := false
  seq := 0
  wrOff := 0
  written := 0
  lost := 0
  overrun := 0
  last := none
  held := []
  pub := 0
  events := []

def Compare.reset : Compare where
  cfg := none
  ctlSh := none
  enable := false
  width := 4
  source := 0
  repeatOn := false
  pointer := 0
  idle := true
  out := false
  missed := 0
  overlap := 0
  fired := 0
  offset := 0
  prev := 0
  fresh := false

def FlBank.reset : FlBank := ⟨Vector.replicate 16 0, Vector.replicate 4 0, 0, 0, 0, 0, 0⟩

/-- Every register 0 but mode, which resets to 0x0_0003 (R188, R189). -/
def Engine.reset : Engine where
  bg := FlBank.reset
  irq := FlBank.reset
  a := Vector.replicate 8 0
  lg := Vector.replicate 8 0
  amode := 0
  lc := Vector.replicate 2 0
  ls := Vector.replicate 2 0
  le := Vector.replicate 2 0
  lr := 0
  xb := Vector.replicate 4 0
  mode := 3
  status := 0
  pc := 0
  epc := 0
  estat := 0
  stid := 0
  ipend := 0
  pend := []
  fab := []
  poison := none
  local_ := []
  program := []
  run := .running
  delay := none
  shadow := false
  divs := none
  condZ := false
  condN := false
  condV := false
  condC := false
  order := []
  handling := none
  held := none
  badParity := []
  inCur := false
  excLink := none

def EngineRole.reset (i : Nat) : EngineRole where
  spare := i == 16
  inService := true
  home := if h : i < 16 then some ⟨i, by omega⟩ else none
  program := none
  image := none
  slots := Vector.replicate 4 none
  calls := []
  busy := 0
  eccCorrected := 0
  attached := false
  moveTo := none
  byFault := false
  haltDue := false
  retiring := none
  loading := false
  tookOver := false
  mapCache := []

def BankCtl.reset : BankCtl := ⟨0, false, none, 0, 0, 0, 0, [], [], none, []⟩

def Mem.reset : Mem where
  cells := []
  poison := []
  banks := Vector.replicate 32 BankCtl.reset
  poolBase := 30
  poolCount := 8192
  poolEn := false
  head := 0x3FFFF
  freeCount := 0
  used := []
  handed := []
  linkDrop := 0
  relErr := 0
  waiters := 0
  notice := false
  stages := []
  mapCount := 0
  mapChain := []

def LinkPort.reset (ring : Bool) : LinkPort where
  role := if ring then 1 else 0
  roleSh := if ring then 1 else 0
  lanes := 3
  lock := 0
  ready := false
  degraded := false
  wrapped := false
  wrapEvent := false
  degradeEvent := false
  lockEvent := false
  nbrDevice := 0
  nbrValid := false
  nbrSerial := 0
  nbrMaster := false
  helloSeen := false
  single := 0
  missing := 0
  crcErr := 0
  retry := 0
  unreach := 0
  ownLate := 0
  nextHseq := 0
  queue := []
  sent := []
  held := []
  laneBack := false
  busy := 0
  fwd := []

/-- No schedule yet; the cycle is the default 31.25 µs, 125 × 250 ns (R9). -/
def Schedule.reset : Schedule := ⟨0, 125, 0, 0, [], []⟩

def Link.reset : Link where
  ports := Vector.ofFn fun i : Fin 4 => LinkPort.reset (decide (i.val < 2))
  device := 0
  numbered := false
  clkPort := 0
  segment := 0
  member := false
  subBase := 24
  schedBase := 16
  subSize := 16
  master := false
  masterSeen := false
  masterPrio := 0
  schedErr := 0
  idxOver := 0
  sched := Schedule.reset
  hasSched := false
  staged := []
  stagedWas := []
  next := none
  area := false
  lastGood := []
  seen := []
  counted := []
  lateSeen := []
  stored := []
  ring := true
  topo := ⟨[], [], [], [], [], 0⟩
  setCycle := none
  broadcasts := []
  oseq := 0
  joining := false
  cfgSh := none
  memSh := none

def TimeDom.reset : TimeDom := ⟨0, 0, false, false, false, 0, .s, 0, 0, none, 0, Vector.replicate 4 none, Vector.replicate 4 none⟩

def Time.reset : Time where
  td1 := TimeDom.reset
  td2 := TimeDom.reset
  dev := 0
  devFrac := 0
  sel := .td1
  auto := true
  active := .td1
  slewing := false
  holdover := false
  masterEvent := false
  switchEvent := false
  lockEvent := false
  nowHi := 0
  plant := 0
  plantValid := false
  plantHi := 0
  delays := Vector.replicate 4 0
  requests := Vector.replicate 4 none
  syncSeq := 0
  ptpOn := false
  ptpDomain := 0
  ptpInterval := 0
  ptpSync := none
  ptpDown := none
  ptpReq := none
  ptpSeq := 0
  ptpLast := none
  ptpAt := 0
  ptpOffsets := []

def Recovery.reset : Recovery where
  remotes := []
  nextRseq := 0
  keys := []
  arrivals := []
  log := []
  logNext := 0
  logUnread := 0
  logRead := 0
  negative := none
  negGen := 0
  nbrS := none
  nbrZ := none
  records := []
  fw := Vector.replicate 2 ⟨0x0401, [], true, true⟩
  boot := false
  calPage := []
  calUser := false
  calDate := 0
  calValid := false
  calChecked := false
  wear := []
  spareBlocks := 495
  restoreDue := true
  printing := false

def SafetyFn.factory : SafetyFn := ⟨0, false, false, [0, 0, 0, 0], [0, 0, 0, 0], 0, 0, 0, 0⟩

/-- The factory configuration of R298; its bytes and CRC are computed when SAFETY_READ asks for them. -/
def SafetyCfg.factory : SafetyCfg :=
  ⟨[], 0, 0, 20, 0, 10, 0, 0, Vector.replicate 4 SafetyFn.factory, [0, 0, 0, 0]⟩

def FnState.reset : FnState := ⟨0, 0, false, false, false, 0, false, false⟩

def IslandState.reset : IslandState where
  eval := false
  cfgOk := false
  writing := false
  safelight := false
  peerFailed := false
  failed := false
  common := false
  gen := 0
  holdLatch := 0
  ss1 := Vector.replicate 5 0
  level := 0
  pulseFault := 0
  tpLevel := 0
  tpFault := 0
  remaining := 0
  limitOver := false
  fns := Vector.replicate 4 FnState.reset

def Safety.reset : Safety where
  cfg := SafetyCfg.factory
  password := none
  failures := 0
  lockout := false
  confirmed := true
  printed := none
  settling := true
  resume := false
  pulses := 0
  tpLow := Vector.replicate 4 0
  slNs := 0
  log := []
  logNext := 0
  isles := Vector.replicate 2 IslandState.reset
  failedNow := 0
  absent := 0
  checked := 0
  xchkFault := false
  xchkClear := 0
  tjC := 0
  tjF := 0
  warnC := false
  tripC := false
  warnF := false
  tripF := false

def ExpRun.reset : ExpRun := ⟨0, 0, false, 0, 0, [], 0, false, 0, 0, false, []⟩

def ExpSlot.reset : ExpSlot := ⟨0, false, false, 0, false, false⟩

def Exp.reset : Exp where
  configured := false
  div := 1
  k := 0
  stream := false
  chanEn := 0
  base := 0
  size := 0
  pre := 0
  post := 0
  holdoff := 0
  srcs := List.replicate 8 0
  addrs := List.replicate 8 0
  slots := List.replicate 4 ExpSlot.reset
  st := .idle
  poisoned := false
  trigLost := false
  triggers := 0
  wr := 0
  rd := 0
  unread := 0
  dropped := 0
  trigStamp := 0
  trigInfo := 0
  run := ExpRun.reset

/-- The reset table of R336: channel 16, range 4, repeat 1, delay 0. -/
def ConvTable.reset : ConvTable := ⟨0, false, 0, 0, [⟨16, 4, 1, 0⟩]⟩

def Converter.reset : Converter :=
  ⟨ConvTable.reset, none, 0, 0, false, false, Vector.replicate 17 ⟨0, false, false, 0, 0, false, 0⟩⟩

def FieldIo.reset : FieldIo where
  inputs := 0
  inputsAt := 0
  filt0 := 0
  filt1 := 0
  safe := 0
  openOff := 0
  outCmd := 0
  outHold := 0
  outActual := 0
  causeLatched := Vector.replicate 16 0
  causeNow := Vector.replicate 16 0
  overLatched := 0
  overNow := 0
  supplyLatched := 0
  supplyNow := 0
  vfield := 0
  shut := 0
  wdgMs := 100
  expired := false
  inSafe := true
  x := Converter.reset
  y := Converter.reset
  xchk := ⟨none, 0, false, false, 0, 0⟩

/-- The reset configuration of R344: 500 kbit/s, FD off, FIFOs of 64 blocking elements, every buffer transmits. -/
def CanCfg.reset (c : Nat) : CanCfg where
  nbrp := 1
  ntseg1 := 127
  ntseg2 := 32
  nsjw := 32
  dbrp := 1
  dtseg1 := 31
  dtseg2 := 8
  dsjw := 8
  tdcOff := 32
  fd := false
  brs := false
  oneShot := false
  autoRecover := false
  missClassic := 1
  missFd := 1
  f0Size := 64
  f1Size := 64
  over0 := false
  over1 := false
  base := 0x01D00000 + c * 0x6000
  rxMask := 0
  driveBase := 0
  statusBase := 0

def CanRec.reset : CanRec := ⟨⟨false, false, false, false, false, 0, 0, [], 0⟩, 0, 0, 0⟩

def Can.reset (c : Nat) : Can where
  cfg := CanCfg.reset c
  rules := []
  st := .off
  mode := 0
  modeNext := none
  warn := false
  recovering := false
  tec := 0
  rec_ := 0
  lost0 := 0
  lost1 := 0
  txFail := 0
  driveLate := 0
  fifo0 := []
  fifo1 := []
  stored0 := 0
  stored1 := 0
  pos0 := 0
  pos1 := 0
  bufs := Vector.replicate 64 ⟨false, false, 0, false, CanRec.reset⟩
  drives := []
  silent := []

def Usb.reset : Usb := ⟨0, false, false, false, 0, 0, none, false, 0⟩

def Eth.reset : Eth := ⟨false, 0, false, none, none, 0, 0, none, none, 0, 0, 0, []⟩

/-- TRST_N has a pull-down and is held low in operation, so the port rests on IDCODE (R374, R381). -/
def Scan.reset : Scan := ⟨true, .idcode⟩

/-- The device right after a complete reset has been released: nothing is ready, no command waits. -/
def State.reset : State where
  id := ⟨0, 0, 0, 0, false, 0xB1⟩
  pwr := Power.reset
  clk := Clock.reset
  host := HostIf.reset
  mb := Vector.replicate 8 Mailbox.reset
  dist := Distaff.reset
  seq := Seq.reset
  strands := Vector.replicate 256 Strand.reset
  groups := Vector.replicate 32 Group.reset
  cams := Vector.replicate 64 CamTable.reset
  skeins := Vector.replicate 64 Skein.reset
  quads := Vector.replicate 12 Quad.reset
  stgs := Vector.replicate 16 Stg.reset
  fbs := Vector.replicate 48 Fb.reset
  probes := Vector.replicate 16 Probe.reset
  cmps := Vector.replicate 24 Compare.reset
  engines := Vector.replicate 17 Engine.reset
  roles := Vector.ofFn fun i : Fin 17 => EngineRole.reset i
  progs := Vector.replicate 16 none
  mem := Mem.reset
  link := Link.reset
  time := Time.reset
  rec_ := Recovery.reset
  saf := Safety.reset
  exps := Vector.replicate 8 Exp.reset
  fio := FieldIo.reset
  cans := Vector.ofFn fun i : Fin 4 => Can.reset i
  usb := Usb.reset
  eth := Eth.reset
  scan := Scan.reset
  userPubs := []
  free := 0
  out := []
  pending := []

end Sys2Proof.Machine
end

