-- ==== Sys2Proof/Machine/Commands.lean ====
section
/-! DEFINITION. The distaff commands as the mailboxes see them: opcode, class and origin of each (R67, R72), and the
decoding of a request slot's arguments, packed in the order of R72 with no padding (R62). -/

namespace Sys2Proof.Machine

/-- The three classes of R67. -/
inductive CmdClass | s | c | l
deriving DecidableEq, Repr

/-- The opcode of a command row; `none` for events and flyer instructions (R72). -/
def opcodeOf : Instr → Option Half
  | .identify .. => some 0x0101
  | .systemReset .. => some 0x0102
  | .distaffRestart .. => some 0x0103
  | .setClockSources .. => some 0x0104
  | .setWatermark .. => some 0x0105
  | .cancel .. => some 0x0106
  | .getCounters .. => some 0x0107
  | .ping .. => some 0x0108
  | .logRead .. => some 0x0109
  | .mbTags .. => some 0x010A
  | .setLatencyTolerance .. => some 0x0201
  | .setDeviceState .. => some 0x0202
  | .getPower .. => some 0x0203
  | .strandBind .. => some 0x1001
  | .strandConfig .. => some 0x1002
  | .plyCoeff .. => some 0x1003
  | .strandArm .. => some 0x1004
  | .strandEnable .. => some 0x1005
  | .strandDisable .. => some 0x1006
  | .stop .. => some 0x1007
  | .stopNow .. => some 0x1008
  | .faultReset .. => some 0x1009
  | .setTransfer .. => some 0x100A
  | .setSource .. => some 0x100B
  | .strandHold .. => some 0x100C
  | .strandRead .. => some 0x100D
  | .profileSet .. => some 0x1101
  | .moveAbs .. => some 0x1102
  | .moveRel .. => some 0x1103
  | .jog .. => some 0x1104
  | .groupDefine .. => some 0x1110
  | .pathQueue .. => some 0x1111
  | .pathStart .. => some 0x1112
  | .pathStop .. => some 0x1113
  | .camLoad .. => some 0x1201
  | .camSwap .. => some 0x1202
  | .camEdit .. => some 0x1203
  | .camRead .. => some 0x1204
  | .skeinDefine .. => some 0x1301
  | .skeinEngage .. => some 0x1302
  | .skeinDisengage .. => some 0x1303
  | .regTrim .. => some 0x1304
  | .pubmapWrite .. => some 0x1305
  | .routeEpoch .. => some 0x1306
  | .setHoldCycles .. => some 0x1307
  | .quadConfig .. => some 0x2001
  | .deadtimeSet .. => some 0x2002
  | .sdfConfig .. => some 0x2003
  | .tripConfig .. => some 0x2004
  | .auxCurve .. => some 0x2005
  | .auxCommand .. => some 0x2006
  | .stepperConfig .. => some 0x2101
  | .microstepTable .. => some 0x2102
  | .enlargerSet .. => some 0x2103
  | .stepgenConfig .. => some 0x2104
  | .tableStep .. => some 0x2105
  | .fbConfig .. => some 0x2201
  | .probeArm .. => some 0x2202
  | .compareLoad .. => some 0x2203
  | .fbRead .. => some 0x2204
  | .flyerLoad .. => some 0x3001
  | .flyerAssign .. => some 0x3002
  | .engineRetire .. => some 0x3003
  | .flyerDebug .. => some 0x3004
  | .benchMode .. => some 0x4001
  | .regAccess .. => some 0x4002
  | .memRead .. => some 0x4003
  | .memWrite .. => some 0x4004
  | .memRepair .. => some 0x4005
  | .bankPower .. => some 0x4006
  | .stageOpen .. => some 0x4010
  | .stageWrite .. => some 0x4011
  | .stageClose .. => some 0x4012
  | .stageRead .. => some 0x4013
  | .linkStatus .. => some 0x5001
  | .domainLeave .. => some 0x5002
  | .scheduleWrite .. => some 0x5003
  | .setCycle .. => some 0x5004
  | .negativeSave .. => some 0x5005
  | .publishDefine .. => some 0x5006
  | .hostSubscribe .. => some 0x5020
  | .timeRead .. => some 0x5101
  | .timeSelect .. => some 0x5102
  | .timePriority .. => some 0x5103
  | .ptpConfig .. => some 0x5104
  | .safetyRead .. => some 0x6001
  | .safetyWrite .. => some 0x6002
  | .safetyConfirm .. => some 0x6003
  | .safetyPassword .. => some 0x6004
  | .safetyLogRead .. => some 0x6005
  | .safetyReset .. => some 0x6006
  | .expConfig .. => some 0x7001
  | .expArm .. => some 0x7002
  | .expRead .. => some 0x7003
  | .expDisarm .. => some 0x7004
  | .ioConfig .. => some 0x8001
  | .ioDiag .. => some 0x8002
  | .watchdogSet .. => some 0x8003
  | .convTable .. => some 0x8010
  | .convRead .. => some 0x8011
  | .crosscheckSet .. => some 0x8012
  | .canConfig .. => some 0x8101
  | .canFilter .. => some 0x8102
  | .canBus .. => some 0x8103
  | .canSend .. => some 0x8104
  | .fwWrite .. => some 0x9001
  | .fwSwitch .. => some 0x9002
  | .fwStatus .. => some 0x9003
  | .calRead .. => some 0x9010
  | .calWrite .. => some 0x9011
  | .selfTest .. => some 0x9020
  | _ => none

/-- The class of a command row (R67, R72). -/
def classOf : Instr → CmdClass
  | .logRead .. => .l
  | .strandBind .. => .c
  | .strandConfig .. => .c
  | .plyCoeff .. => .c
  | .strandArm .. => .c
  | .strandEnable .. => .c
  | .strandDisable .. => .c
  | .stop .. => .c
  | .stopNow .. => .c
  | .faultReset .. => .c
  | .setTransfer .. => .c
  | .setSource .. => .c
  | .strandHold .. => .c
  | .profileSet .. => .c
  | .moveAbs .. => .c
  | .moveRel .. => .c
  | .jog .. => .c
  | .groupDefine .. => .c
  | .pathStart .. => .c
  | .pathStop .. => .c
  | .camLoad .. => .l
  | .camSwap .. => .c
  | .camRead .. => .l
  | .skeinDefine .. => .c
  | .skeinEngage .. => .c
  | .skeinDisengage .. => .c
  | .regTrim .. => .c
  | .routeEpoch .. => .c
  | .setHoldCycles .. => .c
  | .quadConfig .. => .c
  | .deadtimeSet .. => .c
  | .sdfConfig .. => .c
  | .tripConfig .. => .c
  | .auxCurve .. => .c
  | .auxCommand .. => .c
  | .stepperConfig .. => .c
  | .microstepTable .. => .c
  | .enlargerSet .. => .c
  | .stepgenConfig .. => .c
  | .tableStep .. => .c
  | .fbConfig .. => .c
  | .probeArm .. => .c
  | .compareLoad .. => .c
  | .flyerLoad .. => .l
  | .flyerAssign .. => .c
  | .engineRetire .. => .c
  | .memRead .. => .l
  | .memWrite .. => .l
  | .memRepair .. => .l
  | .domainLeave .. => .c
  | .scheduleWrite .. => .l
  | .setCycle .. => .c
  | .negativeSave .. => .l
  | .publishDefine .. => .c
  | .hostSubscribe .. => .c
  | .safetyWrite .. => .l
  | .expRead .. => .l
  | .fwWrite .. => .l
  | .calWrite .. => .l
  | .selfTest .. => .l
  | _ => .s

/-- Where a command row comes from. -/
def originOf : Instr → Option Origin
  | .identify o .. => some o
  | .systemReset o .. => some o
  | .distaffRestart o .. => some o
  | .setClockSources o .. => some o
  | .setWatermark o .. => some o
  | .cancel o .. => some o
  | .getCounters o .. => some o
  | .ping o .. => some o
  | .logRead o .. => some o
  | .mbTags o .. => some o
  | .setLatencyTolerance o .. => some o
  | .setDeviceState o .. => some o
  | .getPower o .. => some o
  | .strandBind o .. => some o
  | .strandConfig o .. => some o
  | .plyCoeff o .. => some o
  | .strandArm o .. => some o
  | .strandEnable o .. => some o
  | .strandDisable o .. => some o
  | .stop o .. => some o
  | .stopNow o .. => some o
  | .faultReset o .. => some o
  | .setTransfer o .. => some o
  | .setSource o .. => some o
  | .strandHold o .. => some o
  | .strandRead o .. => some o
  | .profileSet o .. => some o
  | .moveAbs o .. => some o
  | .moveRel o .. => some o
  | .jog o .. => some o
  | .groupDefine o .. => some o
  | .pathQueue o .. => some o
  | .pathStart o .. => some o
  | .pathStop o .. => some o
  | .camLoad o .. => some o
  | .camSwap o .. => some o
  | .camEdit o .. => some o
  | .camRead o .. => some o
  | .skeinDefine o .. => some o
  | .skeinEngage o .. => some o
  | .skeinDisengage o .. => some o
  | .regTrim o .. => some o
  | .pubmapWrite o .. => some o
  | .routeEpoch o .. => some o
  | .setHoldCycles o .. => some o
  | .quadConfig o .. => some o
  | .deadtimeSet o .. => some o
  | .sdfConfig o .. => some o
  | .tripConfig o .. => some o
  | .auxCurve o .. => some o
  | .auxCommand o .. => some o
  | .stepperConfig o .. => some o
  | .microstepTable o .. => some o
  | .enlargerSet o .. => some o
  | .stepgenConfig o .. => some o
  | .tableStep o .. => some o
  | .fbConfig o .. => some o
  | .probeArm o .. => some o
  | .compareLoad o .. => some o
  | .fbRead o .. => some o
  | .flyerLoad o .. => some o
  | .flyerAssign o .. => some o
  | .engineRetire o .. => some o
  | .flyerDebug o .. => some o
  | .benchMode o .. => some o
  | .regAccess o .. => some o
  | .memRead o .. => some o
  | .memWrite o .. => some o
  | .memRepair o .. => some o
  | .bankPower o .. => some o
  | .stageOpen o .. => some o
  | .stageWrite o .. => some o
  | .stageClose o .. => some o
  | .stageRead o .. => some o
  | .linkStatus o .. => some o
  | .domainLeave o .. => some o
  | .scheduleWrite o .. => some o
  | .setCycle o .. => some o
  | .negativeSave o .. => some o
  | .publishDefine o .. => some o
  | .hostSubscribe o .. => some o
  | .timeRead o .. => some o
  | .timeSelect o .. => some o
  | .timePriority o .. => some o
  | .ptpConfig o .. => some o
  | .safetyRead o .. => some o
  | .safetyWrite o .. => some o
  | .safetyConfirm o .. => some o
  | .safetyPassword o .. => some o
  | .safetyLogRead o .. => some o
  | .safetyReset o .. => some o
  | .expConfig o .. => some o
  | .expArm o .. => some o
  | .expRead o .. => some o
  | .expDisarm o .. => some o
  | .ioConfig o .. => some o
  | .ioDiag o .. => some o
  | .watchdogSet o .. => some o
  | .convTable o .. => some o
  | .convRead o .. => some o
  | .crosscheckSet o .. => some o
  | .canConfig o .. => some o
  | .canFilter o .. => some o
  | .canBus o .. => some o
  | .canSend o .. => some o
  | .fwWrite o .. => some o
  | .fwSwitch o .. => some o
  | .fwStatus o .. => some o
  | .calRead o .. => some o
  | .calWrite o .. => some o
  | .selfTest o .. => some o
  | _ => none

/-- The descriptor a command carries. -/
def descOf : Instr → Option Desc
  | .logRead _ _ _ d => some d
  | .plyCoeff _ _ _ d => some d
  | .pathQueue _ _ d => some d
  | .camLoad _ _ _ d => some d
  | .camEdit _ _ _ d => some d
  | .camRead _ _ _ d => some d
  | .skeinDefine _ _ _ _ d => some d
  | .auxCurve _ _ _ d => some d
  | .microstepTable _ _ d => some d
  | .compareLoad _ _ _ _ d => some d
  | .flyerLoad _ _ d _ => some d
  | .memRead _ _ d => some d
  | .memWrite _ _ d => some d
  | .scheduleWrite _ _ _ d => some d
  | .hostSubscribe _ d => some d
  | .safetyRead _ d => some d
  | .safetyWrite _ _ d => some d
  | .safetyLogRead _ d => some d
  | .expConfig _ _ d => some d
  | .expRead _ _ d => some d
  | .ioConfig _ d => some d
  | .convTable _ _ d => some d
  | .canConfig _ _ d => some d
  | .canFilter _ _ d => some d
  | .canSend _ _ _ d => some d
  | .fwWrite _ _ _ _ d _ => some d
  | .calRead _ d => some d
  | .calWrite _ d => some d
  | _ => none

/-- The same command with another descriptor. -/
def withDesc (d : Desc) : Instr → Instr
  | .logRead o first count _ => .logRead o first count d
  | .plyCoeff o strand ply _ => .plyCoeff o strand ply d
  | .pathQueue o group _ => .pathQueue o group d
  | .camLoad o table points _ => .camLoad o table points d
  | .camEdit o table first _ => .camEdit o table first d
  | .camRead o table buffer _ => .camRead o table buffer d
  | .skeinDefine o skein master coupling _ => .skeinDefine o skein master coupling d
  | .auxCurve o strand hysteresis _ => .auxCurve o strand hysteresis d
  | .microstepTable o quad _ => .microstepTable o quad d
  | .compareLoad o unit source width _ => .compareLoad o unit source width d
  | .flyerLoad o program _ sigOk => .flyerLoad o program d sigOk
  | .memRead o address _ => .memRead o address d
  | .memWrite o address _ => .memWrite o address d
  | .scheduleWrite o first count _ => .scheduleWrite o first count d
  | .hostSubscribe o _ => .hostSubscribe o d
  | .safetyRead o _ => .safetyRead o d
  | .safetyWrite o password _ => .safetyWrite o password d
  | .safetyLogRead o _ => .safetyLogRead o d
  | .expConfig o unit _ => .expConfig o unit d
  | .expRead o unit _ => .expRead o unit d
  | .ioConfig o _ => .ioConfig o d
  | .convTable o converter _ => .convTable o converter d
  | .canConfig o ctl _ => .canConfig o ctl d
  | .canFilter o ctl _ => .canFilter o ctl d
  | .canSend o ctl buffer _ => .canSend o ctl buffer d
  | .fwWrite o image offset last _ sigOk => .fwWrite o image offset last d sigOk
  | .calRead o _ => .calRead o d
  | .calWrite o _ => .calWrite o d
  | i => i

/-- The direction of a command's descriptor: true where the device writes the data (R64). -/
def descOut : Instr → Bool
  | .logRead .. => true
  | .camRead .. => true
  | .memRead .. => true
  | .safetyRead .. => true
  | .safetyLogRead .. => true
  | .expRead .. => true
  | .calRead .. => true
  | _ => false

/-- The `n`-byte field at byte `off` of the arguments, as a bit vector. -/
def argAt (w : Nat) (bs : List Byte) (off : Nat) : BitVec w := BitVec.ofNat w (fieldU bs off ((w + 7) / 8))

/-- The descriptor at byte `off` (R64), with the data the bus gives. -/
def descAt (bs : List Byte) (off : Nat) (dma : DmaInput) : Desc :=
  ⟨argAt 64 bs off, argAt 32 bs (off + 8), argAt 8 bs (off + 12), argAt 8 bs (off + 13), argAt 16 bs (off + 14),
    dma.data⟩

/-- The command a request's opcode and 56 argument bytes spell, with the length of its argument layout. `len` is
arg_len. An opcode R72 does not list spells none. -/
def decodeArgs (op : Nat) (o : Origin) (bs : List Byte) (len : Nat) (dma : DmaInput) : Option (Instr × Nat) :=
  match op with
  | 0x0101 => some (.identify o, 0)
  | 0x0102 => some (.systemReset o (argAt 8 bs 0), 1)
  | 0x0103 => some (.distaffRestart o, 0)
  | 0x0104 => some (.setClockSources o (argAt 8 bs 0) (argAt 8 bs 1) (argAt 8 bs 2) (argAt 8 bs 3), 4)
  | 0x0105 => some (.setWatermark o (argAt 8 bs 0) (argAt 32 bs 1) (argAt 32 bs 5), 9)
  | 0x0106 => some (.cancel o (argAt 8 bs 0) (argAt 8 bs 1), 2)
  | 0x0107 => some (.getCounters o (argAt 8 bs 0), 1)
  | 0x0108 => some (.ping o (bs.take (min len 48)), 48)
  | 0x0109 => some (.logRead o (argAt 32 bs 0) (argAt 32 bs 4) (descAt bs 8 dma), 24)
  | 0x010A => some (.mbTags o (argAt 8 bs 0), 1)
  | 0x0201 => some (.setLatencyTolerance o (argAt 16 bs 0) (argAt 32 bs 2), 6)
  | 0x0202 => some (.setDeviceState o (argAt 8 bs 0), 1)
  | 0x0203 => some (.getPower o, 0)
  | 0x1001 => some (.strandBind o (argAt 16 bs 0) (argAt 8 bs 2) (argAt 16 bs 3) (argAt 8 bs 5), 6)
  | 0x1002 => some (.strandConfig o (argAt 16 bs 0) (argAt 8 bs 2) (argAt 8 bs 3) (argAt 8 bs 4) (argAt 8 bs 5) (argAt 8 bs 6) (argAt 8 bs 7), 8)
  | 0x1003 => some (.plyCoeff o (argAt 16 bs 0) (argAt 8 bs 2) (descAt bs 3 dma), 19)
  | 0x1004 => some (.strandArm o (argAt 16 bs 0), 2)
  | 0x1005 => some (.strandEnable o (argAt 16 bs 0), 2)
  | 0x1006 => some (.strandDisable o (argAt 16 bs 0), 2)
  | 0x1007 => some (.stop o (argAt 16 bs 0) (argAt 8 bs 2) (argAt 32 bs 3), 7)
  | 0x1008 => some (.stopNow o (argAt 16 bs 0), 2)
  | 0x1009 => some (.faultReset o (argAt 16 bs 0), 2)
  | 0x100A => some (.setTransfer o (argAt 16 bs 0) (argAt 8 bs 2) (argAt 32 bs 3), 7)
  | 0x100B => some (.setSource o (argAt 16 bs 0) (argAt 8 bs 2) (argAt 8 bs 3) (argAt 32 bs 4) (argAt 32 bs 8), 12)
  | 0x100C => some (.strandHold o (argAt 16 bs 0) (argAt 8 bs 2), 3)
  | 0x100D => some (.strandRead o (argAt 16 bs 0), 2)
  | 0x1101 => some (.profileSet o (argAt 16 bs 0) ⟨argAt 8 bs 2, argAt 32 bs 3, argAt 32 bs 7, argAt 32 bs 11, argAt 32 bs 15, argAt 32 bs 19, argAt 32 bs 23, argAt 32 bs 27, argAt 32 bs 31⟩, 35)
  | 0x1102 => some (.moveAbs o (argAt 16 bs 0) (argAt 64 bs 2), 10)
  | 0x1103 => some (.moveRel o (argAt 16 bs 0) (argAt 64 bs 2), 10)
  | 0x1104 => some (.jog o (argAt 16 bs 0) (argAt 32 bs 2), 6)
  | 0x1110 => some (.groupDefine o (argAt 8 bs 0) (argAt 8 bs 1) ((List.range (fieldU bs 1 1)).map fun i => argAt 16 bs (2 + 2 * i)), 2 + 2 * fieldU bs 1 1)
  | 0x1111 => some (.pathQueue o (argAt 8 bs 0) (descAt bs 1 dma), 17)
  | 0x1112 => some (.pathStart o (argAt 8 bs 0), 1)
  | 0x1113 => some (.pathStop o (argAt 8 bs 0) (argAt 32 bs 1), 5)
  | 0x1201 => some (.camLoad o (argAt 16 bs 0) (argAt 32 bs 2) (descAt bs 6 dma), 22)
  | 0x1202 => some (.camSwap o (argAt 16 bs 0), 2)
  | 0x1203 => some (.camEdit o (argAt 16 bs 0) (argAt 32 bs 2) (descAt bs 6 dma), 22)
  | 0x1204 => some (.camRead o (argAt 16 bs 0) (argAt 8 bs 2) (descAt bs 3 dma), 19)
  | 0x1301 => some (.skeinDefine o (argAt 8 bs 0) (argAt 32 bs 1) (argAt 8 bs 5) (descAt bs 6 dma), 22)
  | 0x1302 => some (.skeinEngage o (argAt 8 bs 0) (argAt 16 bs 1) (argAt 32 bs 3), 7)
  | 0x1303 => some (.skeinDisengage o (argAt 8 bs 0) (argAt 16 bs 1) (argAt 32 bs 3), 7)
  | 0x1304 => some (.regTrim o (argAt 8 bs 0) (argAt 8 bs 1) (argAt 32 bs 2) (argAt 32 bs 6) (argAt 32 bs 10), 14)
  | 0x1305 => some (.pubmapWrite o (argAt 32 bs 0) (argAt 32 bs 4), 8)
  | 0x1306 => some (.routeEpoch o, 0)
  | 0x1307 => some (.setHoldCycles o (argAt 16 bs 0) (argAt 8 bs 2), 3)
  | 0x2001 => some (.quadConfig o (argAt 8 bs 0) (argAt 8 bs 1) (argAt 8 bs 2) (argAt 32 bs 3) (argAt 8 bs 7) (argAt 32 bs 8), 12)
  | 0x2002 => some (.deadtimeSet o (argAt 8 bs 0) (argAt 8 bs 1) (argAt 16 bs 2), 4)
  | 0x2003 => some (.sdfConfig o (argAt 8 bs 0) (argAt 32 bs 1) (argAt 16 bs 5) (argAt 8 bs 7), 8)
  | 0x2004 => some (.tripConfig o (argAt 8 bs 0) (argAt 8 bs 1) (argAt 32 bs 2) (argAt 8 bs 6), 7)
  | 0x2005 => some (.auxCurve o (argAt 16 bs 0) (argAt 32 bs 2) (descAt bs 6 dma), 22)
  | 0x2006 => some (.auxCommand o (argAt 16 bs 0) (argAt 32 bs 2), 6)
  | 0x2101 => some (.stepperConfig o (argAt 8 bs 0) (argAt 16 bs 1) (argAt 8 bs 3) (argAt 32 bs 4), 8)
  | 0x2102 => some (.microstepTable o (argAt 8 bs 0) (descAt bs 1 dma), 17)
  | 0x2103 => some (.enlargerSet o (argAt 16 bs 0) (argAt 8 bs 2) (argAt 32 bs 3) (argAt 32 bs 7), 11)
  | 0x2104 => some (.stepgenConfig o (argAt 8 bs 0) (argAt 32 bs 1) (argAt 32 bs 5), 9)
  | 0x2105 => some (.tableStep o (argAt 16 bs 0) (argAt 16 bs 2) (argAt 16 bs 4), 6)
  | 0x2201 => some (.fbConfig o (argAt 8 bs 0) (argAt 8 bs 1) (argAt 16 bs 2) (argAt 8 bs 4) (argAt 32 bs 5), 9)
  | 0x2202 => some (.probeArm o (argAt 8 bs 0) (argAt 8 bs 1) (argAt 8 bs 2) (argAt 8 bs 3) (argAt 256 bs 4), 36)
  | 0x2203 => some (.compareLoad o (argAt 8 bs 0) (argAt 16 bs 1) (argAt 32 bs 3) (descAt bs 7 dma), 23)
  | 0x2204 => some (.fbRead o (argAt 8 bs 0), 1)
  | 0x3001 => some (.flyerLoad o (argAt 8 bs 0) (descAt bs 1 dma) dma.sigOk, 17)
  | 0x3002 => some (.flyerAssign o (argAt 8 bs 0) (argAt 8 bs 1), 2)
  | 0x3003 => some (.engineRetire o (argAt 8 bs 0), 1)
  | 0x3004 => some (.flyerDebug o (argAt 8 bs 0) (argAt 8 bs 1), 2)
  | 0x4001 => some (.benchMode o (argAt 8 bs 0) (argAt 256 bs 1), 33)
  | 0x4002 => some (.regAccess o (argAt 32 bs 0) (argAt 8 bs 4) (argAt 32 bs 5), 9)
  | 0x4003 => some (.memRead o (argAt 32 bs 0) (descAt bs 4 dma), 20)
  | 0x4004 => some (.memWrite o (argAt 32 bs 0) (descAt bs 4 dma), 20)
  | 0x4005 => some (.memRepair o (argAt 8 bs 0) (argAt 16 bs 1), 3)
  | 0x4006 => some (.bankPower o (argAt 8 bs 0) (argAt 8 bs 1), 2)
  | 0x4010 => some (.stageOpen o (argAt 32 bs 0), 4)
  | 0x4011 => some (.stageWrite o (argAt 32 bs 0) (argAt 32 bs 4) (argAt 16 bs 8) (argAt 16 bs 10) ((bs.drop 12).take (fieldU bs 8 2)), 56)
  | 0x4012 => some (.stageClose o (argAt 32 bs 0), 4)
  | 0x4013 => some (.stageRead o (argAt 32 bs 0) (argAt 32 bs 4) (argAt 16 bs 8), 10)
  | 0x5001 => some (.linkStatus o (argAt 8 bs 0), 1)
  | 0x5002 => some (.domainLeave o, 0)
  | 0x5003 => some (.scheduleWrite o (argAt 32 bs 0) (argAt 32 bs 4) (descAt bs 8 dma), 24)
  | 0x5004 => some (.setCycle o (argAt 16 bs 0), 2)
  | 0x5005 => some (.negativeSave o, 0)
  | 0x5006 => some (.publishDefine o (argAt 16 bs 0) (argAt 32 bs 2) (argAt 8 bs 6), 7)
  | 0x5020 => some (.hostSubscribe o (descAt bs 0 dma), 16)
  | 0x5101 => some (.timeRead o, 0)
  | 0x5102 => some (.timeSelect o (argAt 8 bs 0), 1)
  | 0x5103 => some (.timePriority o (argAt 8 bs 0) (argAt 8 bs 1), 2)
  | 0x5104 => some (.ptpConfig o ⟨argAt 8 bs 0, argAt 8 bs 1, argAt 8 bs 2, argAt 8 bs 3, argAt 32 bs 4, argAt 32 bs 8, argAt 32 bs 12, argAt 256 bs 16⟩, 48)
  | 0x6001 => some (.safetyRead o (descAt bs 0 dma), 16)
  | 0x6002 => some (.safetyWrite o (argAt 256 bs 0) (descAt bs 32 dma), 48)
  | 0x6003 => some (.safetyConfirm o (argAt 256 bs 0) (argAt 64 bs 32), 40)
  | 0x6004 => some (.safetyPassword o (argAt 192 bs 0) (argAt 192 bs 24) (argAt 64 bs 48) dma.salt, 56)
  | 0x6005 => some (.safetyLogRead o (descAt bs 0 dma), 16)
  | 0x6006 => some (.safetyReset o, 0)
  | 0x7001 => some (.expConfig o (argAt 8 bs 0) (descAt bs 1 dma), 17)
  | 0x7002 => some (.expArm o (argAt 8 bs 0), 1)
  | 0x7003 => some (.expRead o (argAt 8 bs 0) (descAt bs 1 dma), 17)
  | 0x7004 => some (.expDisarm o (argAt 8 bs 0), 1)
  | 0x8001 => some (.ioConfig o (descAt bs 0 dma), 16)
  | 0x8002 => some (.ioDiag o, 0)
  | 0x8003 => some (.watchdogSet o (argAt 16 bs 0), 2)
  | 0x8010 => some (.convTable o (argAt 8 bs 0) (descAt bs 1 dma), 17)
  | 0x8011 => some (.convRead o (argAt 8 bs 0), 1)
  | 0x8012 => some (.crosscheckSet o (argAt 8 bs 0) (argAt 32 bs 1) (argAt 8 bs 5), 6)
  | 0x8101 => some (.canConfig o (argAt 8 bs 0) (descAt bs 1 dma), 17)
  | 0x8102 => some (.canFilter o (argAt 8 bs 0) (descAt bs 1 dma), 17)
  | 0x8103 => some (.canBus o (argAt 8 bs 0) (argAt 8 bs 1), 2)
  | 0x8104 => some (.canSend o (argAt 8 bs 0) (argAt 8 bs 1) (descAt bs 2 dma), 18)
  | 0x9001 => some (.fwWrite o (argAt 8 bs 0) (argAt 32 bs 1) (argAt 8 bs 5) (descAt bs 6 dma) dma.sigOk, 22)
  | 0x9002 => some (.fwSwitch o, 0)
  | 0x9003 => some (.fwStatus o, 0)
  | 0x9010 => some (.calRead o (descAt bs 0 dma), 16)
  | 0x9011 => some (.calWrite o (descAt bs 0 dma), 16)
  | 0x9020 => some (.selfTest o (argAt 16 bs 0) (argAt 8 bs 2), 3)
  | _ => none

end Sys2Proof.Machine
end

