-- ==== Sys2Proof/Machine/Args.lean ====
section
/-! DEFINITION. Values wrong in themselves (R63): for each command the ranges of its arguments that hold whatever the
device's state, from R72 and the chapters of the blocks. A command that fails here completes with BAD_ARG. -/

namespace Sys2Proof.Machine

def okStrand (x : Half) : Bool := decide (x.toNat < 256)
def okQuad (x : Byte) : Bool := decide (x.toNat < 12)
def okBool (x : Byte) : Bool := decide (x.toNat < 2)

/-- A function code of SET_LATENCY_TOLERANCE and SELF_TEST: class × 256 + instance (R72). -/
def okFunction (f : Half) : Bool :=
  let c := f.toNat / 256
  let n := f.toNat % 256
  match c with
  | 1 => n < 17
  | 2 => n < 32
  | 3 => n < 12
  | 4 => n < 48
  | 5 => n < 8
  | 6 => n < 4
  | 7 => n == 0
  | 8 => n == 0
  | _ => false

/-- SET_CLOCK_SOURCES: each source code in range and no source named twice; code 3 is none (R31, R72). -/
def okClockSources (p0 p1 p2 rev : Byte) : Bool :=
  decide (p0.toNat < 4) && decide (p1.toNat < 4) && decide (p2.toNat < 4) && okBool rev &&
    !(p0 == p1 && p0 != 3) && !(p0 == p2 && p0 != 3) && !(p1 == p2 && p1 != 3)

/-- STRAND_BIND's target by kind (R76, R153). -/
def okBind (kind : Byte) (target : Half) (fb : Byte) : Bool :=
  let t := target.toNat
  (decide (fb.toNat < 48) || fb == 0xFF) &&
    match kind.toNat with
    | 0 => true
    | 1 => (decide (t < 48) && fb != 0xFF) || (decide (0x100 ≤ t) && decide ((t - 0x100) / 8 < 12) && decide (t % 8 < 6))
    | 2 => decide (t < 16)
    | 3 => decide (t / 256 < 4)
    | _ => false

def okStrandConfig (dS phase kP dP reaction : Byte) : Bool :=
  dS != 0 && kP != 0 && dP != 0 && decide (reaction.toNat < 3) && (phase == 0xFF || decide (phase.toNat < dS.toNat))

/-- The rules of R96 on a set of limits. -/
def okProfile (p : ProfileArgs) : Bool :=
  match p.shape.toNat with
  | 0 => decide (1 ≤ p.vMax.toNat) && decide (p.vStart.toNat ≤ p.vCorner.toNat) && decide (p.vCorner.toNat ≤ p.vMax.toNat) &&
      decide (p.vStop.toNat ≤ p.vCorner.toNat) && p.a2 != 0 && p.d2 != 0 &&
      (p.a1 != 0 || decide (p.vCorner.toNat ≤ p.vStart.toNat)) && (p.d1 != 0 || decide (p.vCorner.toNat ≤ p.vStop.toNat))
  | 1 => p.vStart == 0 && p.vCorner == 0 && p.vStop == 0 && p.a1 == 0 && p.vMax != 0 && p.a2 != 0 && p.d2 != 0 && p.d1 != 0
  | _ => false

/-- An endpoint address as an e24 (R62). -/
def okE24 (x : Word) : Bool := decide (x.toNat < 0x1000000)

/-- QUAD_CONFIG (R130, R133). -/
def okQuadConfig (quad mix carrier : Byte) (period : Word) (double : Byte) (phase : Word) : Bool :=
  okQuad quad && decide (mix.toNat < 4) && okBool carrier && okBool double &&
    decide (50000 ≤ period.toNat) && decide (period.toNat ≤ 16777215) &&
    !(carrier == 0 && period.toNat % 2 == 1) && !(carrier == 1 && double == 1) &&
    (phase == 0xFFFFFFFF || decide (phase.toNat < period.toNat))

/-- The divider a modulator frequency stands for, from 8 to 80 (R139). -/
def modDiv (f : Nat) : Option Nat :=
  if f = 0 then none
  else if 400000000 % f = 0 ∧ 8 ≤ 400000000 / f ∧ 400000000 / f ≤ 80 then some (400000000 / f) else none

/-- SDF_CONFIG (R139, R141, R142). -/
def okSdf (quad : Byte) (fMod : Word) (osr3 : Half) (osr2 : Byte) : Bool :=
  okQuad quad && !fMod.getLsbD 31 &&
    (match modDiv (fMod.toNat % 2 ^ 26) with
      | some div => decide (bits fMod.toNat 30 26 < 2 * div)
      | none => false) &&
    [16, 32, 64, 128, 256].contains osr3.toNat && [4, 8, 16, 32].contains osr2.toNat

/-- TRIP_CONFIG (R142, R143). -/
def okTrip (quad input : Byte) (limit : Word) (gf : Byte) : Bool :=
  okQuad quad &&
    ((decide (input.toNat < 12) && gf == 0 && decide (limit.toNat ≤ 0x1FFFF)) ||
     (decide (16 ≤ input.toNat) && decide (input.toNat < 20) && decide (gf.toNat < 4)))

/-- A stepper position number q × 8 + p (R153). -/
def okPosition (slot : Byte) : Bool := decide (slot.toNat / 8 < 12) && decide (slot.toNat % 8 < 6)

/-- The serial modes of a feedback unit (R167). -/
def serialMode (mode : Byte) : Bool := bits mode.toNat 2 0 == 3 || bits mode.toNat 2 0 == 4

/-- FB_CONFIG (R167, R174). -/
def okFbConfig (unit mode : Byte) (filter : Half) (bits_ : Byte) (bandwidth : Word) : Bool :=
  let m := bits mode.toNat 2 0
  let w := bits bits_.toNat 5 0
  let gray := bit bits_.toNat 6
  let fo := bits bandwidth.toNat 15 0
  let clk := bits bandwidth.toNat 23 16
  let per := bits bandwidth.toNat 31 24
  decide (unit.toNat < 48) && decide (m < 7) && decide (mode.toNat < 16) && decide (filter.toNat ≤ 256) &&
    decide (50 ≤ fo) && decide (fo ≤ 20000) && decide (bits_.toNat < 128) &&
    if serialMode mode then
      decide (8 ≤ w) && decide (w ≤ 40) && decide (10 ≤ clk) && decide (clk ≤ 200) && decide (1 ≤ per) &&
        (m == 4 || !gray) && decide ((w + 10) * clk + 200 ≤ per * 100)
    else w == 0 && !gray && clk == 0 && per == 0

/-- The password field of 32 bytes: bytes 31:24 zero (R310). -/
def okPassword32 (p : Rec32) : Bool := decide (p.toNat < 2 ^ 192)

/-- PTP_CONFIG (R272, R363). -/
def okPtp (a : PtpArgs) : Bool :=
  okBool a.enable && decide (a.domain.toNat < 128) && decide (a.set.toNat < 4) &&
    decide (-4 ≤ a.interval.toInt) && decide (a.interval.toInt ≤ 4)

/-- The descriptor's own form (R64): kind, direction, reserved bytes, length, and kind 0 from MB0–MB3 alone. -/
def okDesc (o : Origin) (out : Bool) (d : Desc) : Bool :=
  d.rsv == 0 && d.dir == (if out then 1 else 0) && d.len != 0 &&
    match d.kind.toNat with
    | 0 => decide (o.mb.val < 4) && decide (d.len.toNat ≤ 0x1000000)
    | 1 => decide (d.addr.toNat < 0x40000)
    | _ => false

/-- The length of the calibration page: the manual gives none, but its 64 KiB region holds it (15_fault_recovery_service.md,
log entry 14). -/
def calLen : Nat := Config.calSize % 0x10000 + 1

/-- The argument ranges of each command, with the descriptor lengths that R72 and the chapters fix. STAGE_OPEN with length 0
has no buffer to open (log entry 176). -/
def argsOk : Instr → Bool
  | .systemReset _ flags => flags == 1
  | .setClockSources _ p0 p1 p2 rev => okClockSources p0 p1 p2 rev
  | .setWatermark _ src mark hyst => decide (src.toNat < 25) && decide (hyst.toNat ≤ mark.toNat)
  | .cancel _ mb tag => decide (mb.toNat < 8) && decide (tag.toNat < 32)
  | .getCounters _ clear => okBool clear
  | .ping _ bytes => decide (bytes.length ≤ 48)
  | .mbTags _ mb => decide (mb.toNat < 8)
  | .setLatencyTolerance _ f _ => okFunction f
  | .setDeviceState _ st => decide (st.toNat < 3)
  | .strandBind _ strand kind target fb => okStrand strand && okBind kind target fb
  | .strandConfig _ strand dS phase kP dP reaction _ => okStrand strand && okStrandConfig dS phase kP dP reaction
  | .plyCoeff _ strand ply _ => okStrand strand && decide (ply.toNat < 3)
  | .strandArm _ strand => okStrand strand
  | .strandEnable _ strand => okStrand strand
  | .strandDisable _ strand => okStrand strand
  | .stop _ strand kind _ => okStrand strand && okBool kind
  | .stopNow _ strand => okStrand strand || strand == 0xFFFF
  | .faultReset _ strand => okStrand strand
  | .setTransfer _ strand mode _ => okStrand strand && okBool mode
  | .setSource _ strand source index _ _ => okStrand strand &&
      match source.toNat with
      | 0 => true
      | 1 => decide (index.toNat < 16)
      | 2 => decide (index.toNat < 48)
      | _ => false
  | .strandHold _ strand release => okStrand strand && okBool release
  | .strandRead _ strand => okStrand strand
  | .profileSet _ strand prof => okStrand strand && okProfile prof
  | .moveAbs _ strand _ => okStrand strand
  | .moveRel _ strand _ => okStrand strand
  | .jog _ strand _ => okStrand strand
  | .groupDefine _ group count members => decide (group.toNat < 32) && decide (1 ≤ count.toNat) && decide (count.toNat ≤ 8) &&
      decide (members.length = count.toNat) && members.all okStrand && decide members.Nodup
  | .pathQueue _ group d => decide (group.toNat < 32) && decide (d.len.toNat % 96 = 0) && decide (d.len.toNat ≤ 1024 * 96)
  | .pathStart _ group => decide (group.toNat < 32)
  | .pathStop _ group _ => decide (group.toNat < 32)
  | .camLoad _ table points d => decide (table.toNat < 64) && decide (4 ≤ points.toNat) && decide (points.toNat ≤ 65536) &&
      decide (d.len.toNat = 32 + 8 * points.toNat)
  | .camSwap _ table => decide (table.toNat < 64)
  | .camEdit _ table _ d => decide (table.toNat < 64) && decide (d.len.toNat % 8 = 0)
  | .camRead _ table buffer _ => decide (table.toNat < 64) && okBool buffer
  | .skeinDefine _ skein master coupling d => decide (skein.toNat < 64) && okE24 master && decide (coupling.toNat < 3) &&
      !(decide (256 ≤ master.toNat % 1024) && decide (master.toNat % 1024 < 512)) && d.len == 64
  | .skeinEngage _ skein strand _ => decide (skein.toNat < 64) && okStrand strand
  | .skeinDisengage _ skein strand _ => decide (skein.toNat < 64) && okStrand strand
  | .regTrim _ skein probe _ _ _ => decide (skein.toNat < 64) && decide (probe.toNat < 16)
  | .pubmapWrite _ endpoint index => okE24 endpoint && bits index.toNat 30 18 == 0
  | .setHoldCycles _ strand hold => okStrand strand && decide (1 ≤ hold.toNat) && decide (hold.toNat ≤ 16)
  | .quadConfig _ quad mix carrier period double phase => okQuadConfig quad mix carrier period double phase
  | .deadtimeSet _ quad pair _ => okQuad quad && decide (pair.toNat < 12)
  | .sdfConfig _ quad fMod osr3 osr2 => okSdf quad fMod osr3 osr2
  | .tripConfig _ quad input limit gf => okTrip quad input limit gf
  | .auxCurve _ strand _ _ => okStrand strand
  | .auxCommand _ strand _ => okStrand strand
  | .stepperConfig _ slot offTime split current => okPosition slot && decide (500 ≤ offTime.toNat) &&
      decide (split.toNat ≤ 16) && decide (current.toNat ≤ 0x1FFFF)
  | .microstepTable _ quad d => okQuad quad && d.len == 768
  | .enlargerSet _ strand fb num den => okStrand strand && decide (fb.toNat < 48) && den != 0 &&
      decide (num.toNat ≤ 65536 * den.toNat)
  | .stepgenConfig _ stg width dirSetup => decide (stg.toNat < 16) && decide (20 ≤ width.toNat) &&
      decide (width.toNat ≤ 100000) && decide (dirSetup.toNat ≤ 100000)
  | .tableStep _ strand address _ => okStrand strand && decide (address.toNat < 1024)
  | .fbConfig _ unit mode filter bits_ bandwidth => okFbConfig unit mode filter bits_ bandwidth
  | .probeArm _ probe edge mode zero _ => decide (probe.toNat < 16) && decide (edge.toNat < 3) && okBool mode && zero == 0
  | .compareLoad _ unit source width d => decide (unit.toNat < 24) && decide (source.toNat < 48) &&
      decide (20 ≤ width.toNat) && decide (width.toNat ≤ 1000000) &&
      decide (24 ≤ d.len.toNat) && decide (d.len.toNat ≤ 16 + 8 * 4096) && decide (d.len.toNat % 8 = 0)
  | .fbRead _ unit => decide (unit.toNat < 48) || (decide (0x40 ≤ unit.toNat) && decide (unit.toNat < 0x50)) ||
      (decide (0x60 ≤ unit.toNat) && decide (unit.toNat < 0x78))
  | .flyerLoad _ program _ _ => decide (program.toNat < 16)
  | .flyerAssign _ engine program => decide (engine.toNat < 17) && (decide (program.toNat < 16) || program == 0xFF)
  | .engineRetire _ engine => decide (engine.toNat < 17)
  | .flyerDebug _ engine action => decide (engine.toNat < 17) && decide (action.toNat < 3)
  | .benchMode _ on password => okBool on && (on == 0 || okPassword32 password)
  | .regAccess _ address write _ => okBool write && decide (address.toNat < 0x80000000 ∨ address.toNat % 4 = 0)
  | .memRead _ address _ => decide (address.toNat < 0x02000000)
  | .memWrite _ address d => decide (address.toNat + d.len.toNat ≤ 0x02000000)
  | .memRepair _ bank row => decide (bank.toNat < 32) && decide (row.toNat < 512)
  | .bankPower _ bank mode => decide (bank.toNat < 32) && decide (mode.toNat < 3)
  | .stageOpen _ length => length != 0
  | .stageWrite _ _ _ count zero data => decide (count.toNat ≤ 44) && zero == 0 && decide (data.length = count.toNat)
  | .stageRead _ _ _ count => decide (count.toNat ≤ 48)
  | .linkStatus _ port => decide (port.toNat < 4)
  | .scheduleWrite _ first count d => count != 0 && decide (d.len.toNat = 32 * count.toNat) &&
      decide (first.toNat + count.toNat ≤ 262144)
  | .setCycle _ t => decide (16 ≤ t.toNat) && decide (t.toNat ≤ 16384)
  | .publishDefine _ index source kind => decide (512 ≤ index.toNat) && decide (index.toNat < 1024) &&
      (kind != 1 || decide (source.toNat < 48)) && (kind != 2 || decide (source.toNat < 256))
  | .hostSubscribe _ d => decide (d.len.toNat % 4 = 0) && decide (d.len.toNat ≤ 4 * 8188)
  | .timeSelect _ domain => domain == 1 || domain == 2
  | .timePriority _ domain priority => (domain == 1 || domain == 2) && decide (priority.toNat < 16)
  | .ptpConfig _ args => okPtp args
  | .safetyRead _ d => decide (336 ≤ d.len.toNat)
  | .safetyWrite _ password _ => okPassword32 password
  | .safetyConfirm _ password _ => okPassword32 password
  | .safetyPassword _ _ new _ _ => new != 0
  | .expConfig _ unit d => decide (unit.toNat < 8) && d.len == 192
  | .expArm _ unit => decide (unit.toNat < 8)
  | .expRead _ unit _ => decide (unit.toNat < 8)
  | .expDisarm _ unit => decide (unit.toNat < 8)
  | .ioConfig _ d => d.len == 16
  | .watchdogSet _ ms => decide (1 ≤ ms.toNat) && decide (ms.toNat ≤ 1000)
  | .convTable _ converter d => okBool converter && decide (24 ≤ d.len.toNat) && decide (d.len.toNat ≤ 16 + 8 * 64) &&
      decide (d.len.toNat % 8 = 0)
  | .convRead _ converter => okBool converter
  | .crosscheckSet _ channel limit safety => (decide (channel.toNat < 17) || channel == 0xFF) &&
      decide (limit.toNat < 2 ^ 18) && okBool safety
  | .canConfig _ ctl d => decide (ctl.toNat < 4) && d.len == 48
  | .canFilter _ ctl d => decide (ctl.toNat < 4) && decide (d.len.toNat % 16 = 0) && decide (d.len.toNat ≤ 8192)
  | .canBus _ ctl mode => decide (ctl.toNat < 4) && decide (mode.toNat < 3)
  | .canSend _ ctl buffer d => decide (ctl.toNat < 4) && decide (buffer.toNat < 64) && decide (16 ≤ d.len.toNat) &&
      decide (d.len.toNat ≤ 80)
  | .fwWrite _ image offset last d _ => okBool image && okBool last && decide (offset.toNat + d.len.toNat ≤ 0x200000)
  | .calRead _ d => decide (calLen ≤ d.len.toNat)
  | .calWrite _ d => decide (d.len.toNat = calLen)
  | .selfTest _ f _ => okFunction f
  | _ => true

/-- The well-formedness of a command's arguments with its descriptor (R63, R64). -/
def wellFormed (i : Instr) : Bool :=
  argsOk i &&
    match originOf i, descOf i with
    | some o, some d => okDesc o (descOut i) d
    | _, _ => true

end Sys2Proof.Machine
end

