-- ==== Sys2Proof/Machine/Ops.lean ====
section
/-! DEFINITION. The operations every block shares: what leaves the device, interrupt vectors (R58), watermark
notices (R57), the ready word (R28), the fixer log (R288), the banks' words and bytes (R218 to R228), the bobbin
pool (R231 to R233), and completions (R46 to R49). -/

namespace Sys2Proof.Machine

/-! Access to the indexed parts. -/

def State.setStrand (s : State) (i : StrandId) (x : Strand) : State := { s with strands := s.strands.set i x }
def State.modStrand (s : State) (i : StrandId) (f : Strand → Strand) : State := s.setStrand i (f s.strands[i])
def State.setQuad (s : State) (i : QuadId) (x : Quad) : State := { s with quads := s.quads.set i x }
def State.modQuad (s : State) (i : QuadId) (f : Quad → Quad) : State := s.setQuad i (f s.quads[i])
def State.setFb (s : State) (i : FbId) (x : Fb) : State := { s with fbs := s.fbs.set i x }
def State.modFb (s : State) (i : FbId) (f : Fb → Fb) : State := s.setFb i (f s.fbs[i])
def State.setMb (s : State) (i : MbId) (x : Mailbox) : State := { s with mb := s.mb.set i x }
def State.modMb (s : State) (i : MbId) (f : Mailbox → Mailbox) : State := s.setMb i (f s.mb[i])
def State.setEngine (s : State) (i : EngineId) (x : Engine) : State := { s with engines := s.engines.set i x }
def State.modEngine (s : State) (i : EngineId) (f : Engine → Engine) : State := s.setEngine i (f s.engines[i])
def State.modRole (s : State) (i : EngineId) (f : EngineRole → EngineRole) : State :=
  { s with roles := s.roles.set i (f s.roles[i]) }
def State.modCan (s : State) (i : CanId) (f : Can → Can) : State := { s with cans := s.cans.set i (f s.cans[i]) }
def State.modStg (s : State) (i : StgId) (f : Stg → Stg) : State := { s with stgs := s.stgs.set i (f s.stgs[i]) }
def State.modProbe (s : State) (i : ProbeId) (f : Probe → Probe) : State :=
  { s with probes := s.probes.set i (f s.probes[i]) }
def State.modCmp (s : State) (i : CmpId) (f : Compare → Compare) : State :=
  { s with cmps := s.cmps.set i (f s.cmps[i]) }
def State.modGroup (s : State) (i : Fin 32) (f : Group → Group) : State :=
  { s with groups := s.groups.set i (f s.groups[i]) }
def State.modCam (s : State) (i : Fin 64) (f : CamTable → CamTable) : State :=
  { s with cams := s.cams.set i (f s.cams[i]) }
def State.modSkein (s : State) (i : Fin 64) (f : Skein → Skein) : State :=
  { s with skeins := s.skeins.set i (f s.skeins[i]) }
def State.modExp (s : State) (i : ExpId) (f : Exp → Exp) : State := { s with exps := s.exps.set i (f s.exps[i]) }
def State.modHost (s : State) (f : HostIf → HostIf) : State := { s with host := f s.host }
def State.modDist (s : State) (f : Distaff → Distaff) : State := { s with dist := f s.dist }
def State.modSeq (s : State) (f : Seq → Seq) : State := { s with seq := f s.seq }
def State.modPwr (s : State) (f : Power → Power) : State := { s with pwr := f s.pwr }
def State.modClk (s : State) (f : Clock → Clock) : State := { s with clk := f s.clk }
def State.modMem (s : State) (f : Mem → Mem) : State := { s with mem := f s.mem }
def State.modLink (s : State) (f : Link → Link) : State := { s with link := f s.link }
def State.modTime (s : State) (f : Time → Time) : State := { s with time := f s.time }
def State.modRec (s : State) (f : Recovery → Recovery) : State := { s with rec_ := f s.rec_ }
def State.modSaf (s : State) (f : Safety → Safety) : State := { s with saf := f s.saf }
def State.modFio (s : State) (f : FieldIo → FieldIo) : State := { s with fio := f s.fio }
def State.modUsb (s : State) (f : Usb → Usb) : State := { s with usb := f s.usb }
def State.modEth (s : State) (f : Eth → Eth) : State := { s with eth := f s.eth }

/-- The index of a port (R261). -/
def portIx : Port → Fin 4
  | .s => 0
  | .z => 1
  | .t0 => 2
  | .t1 => 3

def allPorts : List Port := [.s, .z, .t0, .t1]

def State.port (s : State) (p : Port) : LinkPort := s.link.ports[portIx p]
def State.modPort (s : State) (p : Port) (f : LinkPort → LinkPort) : State :=
  s.modLink fun l => { l with ports := l.ports.set (portIx p) (f l.ports[portIx p]) }

def isleIx : Island → Fin 2
  | .a => 0
  | .b => 1

def State.isle (s : State) (x : Island) : IslandState := s.saf.isles[isleIx x]
def State.modIsle (s : State) (x : Island) (f : IslandState → IslandState) : State :=
  s.modSaf fun q => { q with isles := q.isles.set (isleIx x) (f q.isles[isleIx x]) }

/-- A number taken as an index, where it is one. -/
def fin? (n v : Nat) : Option (Fin n) := if h : v < n then some ⟨v, h⟩ else none

/-- What leaves the device. -/
def State.emit (s : State) (o : Out) : State := { s with out := s.out ++ [o] }

/-- The counter of free values moves on. -/
def State.tick (s : State) : State := { s with free := s.free + 1 }

/-- An exact rational in an integer format whose rounding the manual does not state: the integer itself, or one of
its two neighbours (log entry 5). -/
def roundFree (key site : Nat) (q : Rat) : Int :=
  if q.den = 1 then q.num else if Config.roundUp key site q then floorRat q + 1 else floorRat q

/-! Interrupt vectors (R58). -/

/-- The mask bit of a vector's MSI-X table entry: bit 0 of its vector control word. -/
def entryMasked (h : HostIf) (v : Nat) : Bool :=
  match fin? 512 (16 * v + 12) with
  | some i => h.msixTable[i].getLsbD 0
  | none => true

/-- The message of a vector falls due: sent, or left pending while the table entry is masked. No message is sent or
left pending while the endpoint is down or MSI-X is disabled (R58). -/
def State.sendMsix (s : State) (v : Nat) : State :=
  if s.host.pcieUp && s.host.msixEnable then
    if entryMasked s.host v then s.modHost fun h => { h with msixPending := setBit h.msixPending v true }
    else s.emit (.msix v)
  else s

/-- A vector's cause occurs (R58): its bit sets, and its message is sent when the bit rises while unmasked. -/
def State.raise (s : State) (v : Nat) : State :=
  if s.host.intStatus.getLsbD v then s
  else
    let s' := s.modHost fun h => { h with intStatus := setBit h.intStatus v true }
    if s.host.intMask.getLsbD v then s' else s'.sendMsix v

/-! Watermarks (R57). -/

/-- A source's level is now `lvl`. -/
def State.setLevel (s : State) (src : Fin 25) (lvl : Nat) : State :=
  let w := s.host.wm[src]
  let crossed := w.level < w.mark && w.mark ≤ lvl
  if crossed && w.armed then
    (s.modHost fun h => { h with
      wm := h.wm.set src { w with level := lvl, armed := false }, notice := setBit h.notice src true }).raise 10
  else
    let rearm := !w.armed && !s.host.notice.getLsbD src && decide (lvl + w.hyst < w.mark)
    s.modHost fun h => { h with wm := h.wm.set src { w with level := lvl, armed := w.armed || rearm } }

/-- The live bits: level at or above the mark (R57). -/
def wmLive (h : HostIf) : BitVec 32 :=
  (List.finRange 25).foldl (fun v (i : Fin 25) => setBit v i.val (decide (h.wm[i].mark ≤ h.wm[i].level))) 0

/-! The ready word (R28). -/

def rdyKeeperC : Fin 24 := 0
def rdyKeeperF : Fin 24 := 1
def rdyBanks : Fin 24 := 2
def rdySafA : Fin 24 := 3
def rdyFdie : Fin 24 := 4
def rdySafB : Fin 24 := 5
def rdyDistaff : Fin 24 := 6
def rdyMailboxes : Fin 24 := 7
def rdyFlyers : Fin 24 := 8
def rdyPcie : Fin 24 := 9
def rdyUsb : Fin 24 := 10
def rdyEth : Fin 24 := 11
def rdyLink (p : Port) : Fin 24 := match p with | .s => 12 | .z => 13 | .t0 => 14 | .t1 => 15
def rdyDomain : Fin 24 := 16
def rdyTimeLock : Fin 24 := 17
def rdyConvX : Fin 24 := 18
def rdyConvY : Fin 24 := 19
def rdySafety : Fin 24 := 20
def rdyCan : Fin 24 := 21
def rdyCal : Fin 24 := 22
def rdyRecovery : Fin 24 := 23

def State.isReady (s : State) (b : Fin 24) : Bool := s.pwr.ready.getLsbD b

/-- Set or clear one ready bit; every change raises vector 0. -/
def State.setReady (s : State) (b : Fin 24) (v : Bool) : State :=
  if s.isReady b = v then s
  else (s.modPwr fun p => { p with ready := setBit p.ready b v }).raise 0

/-! Device time and the cycle. -/

/-- The cycle time in ns (R9). -/
def State.tNs (s : State) : Nat := s.link.sched.t.toNat * 250

/-- Bits 31:0 of device time (R271). -/
def State.stamp (s : State) : Word := s.time.dev.truncate 32

/-- The stamp of something that happens in the present cycle, as its row gives it: a row that gives another takes the time of the
cycle start (R271, log entry 205). -/
def State.eventStamp (s : State) (w : Word) : Word := if (w - s.stamp).toNat < s.tNs then w else s.stamp

/-- The stamp of something that began up to 2.147 s before the end of the present cycle (R271). -/
def State.pastStamp (s : State) (w : Word) : Word :=
  if (s.stamp + BitVec.ofNat 32 s.tNs - w).toNat < 2 ^ 31 then w else s.stamp

/-! The fixer log (R288, R289). -/

/-- One write of a 4 KiB MRAM block is counted; at 9 × 10^8 the block is retired to a spare, where one is left (R287). The
second part says that it reached the count. -/
def wearBlock (b : Nat) (r : Recovery) : Recovery × Bool :=
  let n := sget 0 r.wear b + 1
  if n < 900000000 then ({ r with wear := sset 0 r.wear b n }, false)
  else if r.spareBlocks = 0 then ({ r with wear := sset 0 r.wear b n }, decide (n = 900000000))
  else ({ r with wear := sset 0 r.wear b 0, spareBlocks := r.spareBlocks - 1 }, true)

/-- Write one record into the log: class, cause, instance, detail, context and flags. -/
def State.putRec (s : State) (cls cause inst detail : Nat) (context : List Int) (flags : Nat) : State :=
  let no := if cls = 1 then cause else Config.logCause cls cause
  let r : LogRec := ⟨s.rec_.logNext, s.stamp, s.seq.cycle, BitVec.ofNat 8 (if cls = 0 then Config.logClass cause else cls),
    BitVec.ofNat 8 flags, BitVec.ofNat 16 no, BitVec.ofNat 16 inst, BitVec.ofNat 32 detail, context, false⟩
  let log := s.rec_.log ++ [r]
  let log := log.drop (log.length - 16384)
  let unread := min 16384 (s.rec_.logUnread + 1)
  ((s.modRec fun c => { c with log := log, logNext := c.logNext + 1, logUnread := unread }).raise 18).setLevel 24 unread

/-- The record of a retired block, or of one that stays in use worn (R287): then the device has to be replaced (R290, log
entry 186). -/
def State.logWorn (s : State) (b : Nat) (spares : Nat) : State := s.putRec 3 51 b b [] (if spares = 0 then 3 else 0)

/-- The MRAM place of the next fixer log record. -/
def logPlace (s : State) : Nat := 0xC00000 + 64 * (s.rec_.logNext.toNat % 16384)

/-- A write of one MRAM block, and of the log's blocks where records of worn blocks follow: no more than `k` do. -/
def State.wearOne (s : State) (b : Nat) : Nat → State
  | 0 => s.modRec fun r => (wearBlock b r).1
  | k + 1 =>
    let spares := s.rec_.spareBlocks
    let (r, worn) := wearBlock b s.rec_
    let s := s.modRec fun _ => r
    if worn then (s.logWorn b spares).wearOne (logPlace s / 4096) k else s

/-- Writes to the MRAM blocks `[lo, lo + n)`. -/
def State.wearRange (s : State) (lo : Nat) : Nat → State
  | 0 => s
  | n + 1 => (s.wearOne (lo + n) 3).wearRange lo n

/-- A write of bytes `[off, off + n)` of the MRAM. -/
def State.mramWrite (s : State) (off n : Nat) : State := s.wearRange (off / 4096) ((off + n + 4095) / 4096 - off / 4096)

/-- Write one record; the log's own block wears with it. -/
def State.logRec (s : State) (cls cause inst detail : Nat) (context : List Int) (flags : Nat) : State :=
  (s.putRec cls cause inst detail context flags).mramWrite (logPlace s) 64

/-- A record with no context and no flags. -/
def State.logEvent (s : State) (cls cause inst detail : Nat) : State := s.logRec cls cause inst detail [] 0

/-! Bank words and bytes (R218 to R228). -/

/-- Number of words in the banks. -/
def wordCount : Nat := 4194304

/-- The cell of a byte of a word: byte 8 is the tag (R218). -/
def cellOf (g byte : Nat) : Nat := if byte < 8 then 8 * g + byte else 0x02000000 + g

/-- What a cell no write has reached reads as (log entry 2). -/
def emptyCell : Byte := 0

/-- The bank of a cell. -/
def bankOfCell (a : Nat) : BankId := if a < 0x02000000 then Fin.ofNat 32 (a / 0x100000) else Fin.ofNat 32 ((a - 0x02000000) / 131072)

/-- The null index (R231). -/
def nullBobbin : Nat := 0x3FFFF

/-- The link a built free list put into the bobbin word of a byte cell: the next bobbin, or null after the last (R231). -/
def BankCtl.link (c : BankCtl) (a : Nat) : Option Nat :=
  if a < 0x02000000 ∧ a % 256 < 3 then
    (c.built.find? fun p => decide (p.1 * 0x100000 ≤ a) && decide (a < p.1 * 0x100000 + 256 * p.2)).map fun p =>
      let i := (a - p.1 * 0x100000) / 256
      if i + 1 < p.2 then i + 1 else nullBobbin
  else none

/-- The bits of byte `k` of a word that hold a link's bits 17:0. -/
def linkBits (k : Nat) : Byte := if k = 2 then 3 else 0xFF

/-- What a cell shows that no write has reached since its bank lost its contents or the free list was built over it: open
values after OFF in mode 1 (R226, log entry 9), and the list's links (R231). Stored cells are held against it, so that they
stay canonical. -/
def Mem.mask (m : Mem) (a : Nat) : Byte :=
  let c := m.banks[bankOfCell a]
  let v : Byte := match c.lost with
    | some k => Config.lostByte k a
    | none => 0
  match c.link a with
  | some n => (v &&& ~~~linkBits (a % 256)) ||| BitVec.ofNat 8 (n / 256 ^ (a % 256))
  | none => v

def Mem.byte (m : Mem) (a : Nat) : Byte := sget emptyCell m.cells a ^^^ m.mask a
def Mem.setByte (m : Mem) (a : Nat) (b : Byte) : Mem := { m with cells := sset emptyCell m.cells a (b ^^^ m.mask a) }

/-- The canonical form of the banks' contents. -/
def Mem.wf (m : Mem) : Bool := swf emptyCell m.cells

/-- Word g: tag in bits 71:64. -/
def Mem.word (m : Mem) (g : Nat) : Word72 :=
  BitVec.ofNat 72 (leNat ((List.range 9).map fun k => m.byte (cellOf g k)))

/-- The first word of a bobbin (R231); an index that no pool holds wraps in the banks (log entry 195). -/
def Mem.bobbinWord (m : Mem) (i : Nat) : Nat := (m.poolBase.toNat * 131072 + 32 * i) % wordCount

/-- Write the bytes of word g that `mask` names, bit 8 the tag (R219, R221). -/
def Mem.setWordBytes (m : Mem) (g mask : Nat) (w : Word72) : Mem :=
  (List.range 9).foldl (fun m k => if bit mask k then m.setByte (cellOf g k) (BitVec.ofNat 8 (w.toNat / 256 ^ k)) else m) m

/-- Is word g poisoned? -/
def Mem.isPoisoned (m : Mem) (g : Nat) : Bool := m.poison.contains g

/-- Insert a word number into the rising list of poisoned words. -/
def insertNat (x : Nat) : List Nat → List Nat
  | [] => [x]
  | y :: r => if x < y then x :: y :: r else if x = y then y :: r else y :: insertNat x r

/-- A whole-word sample-class write: it clears poison (R221, R228). -/
def Mem.writeWord (m : Mem) (g : Nat) (w : Word72) : Mem :=
  { m.setWordBytes g 0x1FF w with poison := m.poison.erase g }

/-- Write a word as a merge, as every write of the byte class is: poison stays (R221, R228). -/
def Mem.mergeWord (m : Mem) (g : Nat) (w : Word72) : Mem := m.setWordBytes g 0x1FF w

/-- Write one byte-view byte, as a merge: poison stays (R219, R221, R228). -/
def Mem.mergeByte (m : Mem) (a : Nat) (b : Byte) : Mem := m.setByte a b

/-- Write bytes from a byte-view address on. -/
def Mem.mergeBytes (m : Mem) : Nat → List Byte → Mem
  | _, [] => m
  | a, b :: bs => (m.mergeByte a b).mergeBytes (a + 1) bs

/-- The byte at a byte-view or tag-window address, as it reads. -/
def Mem.readByte (m : Mem) (a : Nat) : Byte :=
  if a < 0x02000000 then BitVec.ofNat 8 ((m.word (a / 8)).toNat / 256 ^ (a % 8)) else m.byte a

/-- Bytes from a byte-view address on. -/
def Mem.readBytes (m : Mem) (a n : Nat) : List Byte := (List.range n).map fun i => m.readByte (a + i)

/-- One 18-bit sample, by sample-view index 4g + k (R218). -/
def Mem.sample (m : Mem) (i : Nat) : Sample := BitVec.ofNat 18 ((m.word (i / 4)).toNat / 2 ^ (18 * (i % 4)))

/-- Write one sample: a merge (R221). -/
def Mem.setSample (m : Mem) (i : Nat) (v : Sample) : Mem :=
  let w := m.word (i / 4)
  let k := 18 * (i % 4)
  let w' := (w &&& ~~~((0x3FFFF : Word72) <<< k)) ||| (v.setWidth 72 <<< k)
  m.setWordBytes (i / 4) 0x1FF w'

/-- The bank a word lies in. -/
def bankOf (g : Nat) : Option BankId := fin? 32 (g / 131072)

def Mem.modBank (m : Mem) (b : BankId) (f : BankCtl → BankCtl) : Mem := { m with banks := m.banks.set b (f m.banks[b]) }

/-- Requester numbers of fixer log records about memory: engines by number, then the host, the distaff and the others (R228). -/
def reqHost : Nat := 32
def reqScrub : Nat := 33
def reqLink : Nat := 34
def reqDistaff : Nat := 35
def reqRepair : Nat := 36
def reqExposure : Nat := 40

/-- A read meets a bit error (R227); a word that is poisoned already stays as it is. A single-bit error is corrected and counted, a double-bit error poisons the
word, counts it and writes a fixer log record with the bank, the word and the requester (R228). A bank in mode 1 is
excluded from error logging (R226). -/
def State.bankError (s : State) (e : EccErr) (requester : Nat) : State :=
  match bankOf e.word with
  | none => s
  | some b =>
    if s.mem.isPoisoned e.word then s
    else if e.double then
      let s' := s.modMem fun m => { m.modBank b fun c => { c with ue := satAdd 255 c.ue 1 } with
        poison := insertNat e.word m.poison }
      if s.mem.banks[b].pmode == 1 then s' else s'.logEvent 3 requester b e.word
    else s.modMem fun m => m.modBank b fun c => { c with ce := satAdd 65535 c.ce 1 }

/-- The bit errors a read of the words in `[lo, hi)` meets. -/
def State.meetErrors (s : State) (errs : List EccErr) (lo hi requester : Nat) : State :=
  errs.foldl (fun s e => if decide (lo ≤ e.word) && decide (e.word < hi) then s.bankError e requester else s) s

/-! The bobbin pool (R231 to R233). -/

/-- The link bits 17:0 of a bobbin's word 0 hold (R231). -/
def Mem.linkOf (m : Mem) (i : Nat) : Nat := (m.word (m.bobbinWord i)).toNat % 2 ^ 18

/-- One allocation: the requester receives the head, and the head takes that bobbin's link; null where the pool is empty. The
bobbin keeps its contents (R231, R232). -/
def Mem.alloc (m : Mem) : Mem × Option Nat :=
  if m.head = nullBobbin then (m, none)
  else ({ m with head := m.linkOf m.head, freeCount := m.freeCount - 1, used := insertNat m.head m.used }, some m.head)

/-- The largest count that fits from pool_base (R234). -/
def Mem.poolSize (m : Mem) : Nat := min (max 1 m.poolCount.toNat) (min 8192 ((32 - m.poolBase.toNat) * 4096))

/-- Push a bobbin onto the free list: its word 0 takes the head as its link. A bad index, or one that is free already, counts
in rel_err; a rise from 0 to 1 notifies the distaff (R232). -/
def Mem.release (m : Mem) (i : Nat) : Mem :=
  if m.poolSize ≤ i || !m.used.contains i then { m with relErr := satAdd 255 m.relErr 1 }
  else
    { m.setSample (4 * m.bobbinWord i) (BitVec.ofNat 18 m.head) with
      head := i, freeCount := m.freeCount + 1, used := m.used.erase i, handed := m.handed.filter fun e => e.2 != i
      notice := m.notice || m.freeCount == 0 }

/-- The cells of bytes `[lo, hi)` after a free list is built there: the links' bits are no longer what was stored (R231). -/
def buildCells (lo hi : Nat) : List Host.Cell → List Host.Cell
  | [] => []
  | (a, x) :: r =>
    if lo ≤ a ∧ a < hi ∧ a % 256 < 3 then
      if x &&& ~~~linkBits (a % 256) = emptyCell then buildCells lo hi r else (a, x &&& ~~~linkBits (a % 256)) :: buildCells lo hi r
    else (a, x) :: buildCells lo hi r

/-- The pool opens: its controller links every bobbin to the next (R231, R234). -/
def Mem.build (m : Mem) : Mem :=
  let n := m.poolSize
  let b := m.poolBase.toNat
  { m with
    poolEn := true, head := 0, freeCount := n, used := [], handed := []
    cells := buildCells (b * 0x100000) (b * 0x100000 + 256 * n) m.cells
    banks := Vector.ofFn fun i : BankId =>
      if b ≤ i.val ∧ i.val * 4096 < b * 4096 + n then { m.banks[i] with built := (b, n) :: m.banks[i].built } else m.banks[i] }

def Mem.releaseAll (m : Mem) (l : List Nat) : Mem := l.foldl Mem.release m

/-! Cam tables in the banks (R113, R115). -/

/-- The word of point k of a cam chain: 32 points to a bobbin, behind the header's bobbin. -/
def Mem.pointWord (m : Mem) (chain : List Nat) (k : Nat) : Nat := m.bobbinWord (chain.getD (k / 32 + 1) 0) + k % 32

/-- Point k of a cam chain. -/
def Mem.point (m : Mem) (chain : List Nat) (k : Nat) : BitVec 64 := (m.word (m.pointWord chain k)).truncate 64

/-- Write one point, as one word: a merge of the byte class (R115, R221). -/
def Mem.putPoint (m : Mem) (chain : List Nat) (k : Nat) (p : BitVec 64) : Mem :=
  m.mergeWord (m.pointWord chain k) (Config.camTag p ++ p)

/-- Write points from number `k` on. -/
def Mem.putPoints (m : Mem) (chain : List Nat) : Nat → List (BitVec 64) → Mem
  | _, [] => m
  | k, p :: ps => (m.putPoint chain k p).putPoints chain (k + 1) ps

/-- Write a buffer into its chain: the header's bobbin, then the points. -/
def Mem.putCam (m : Mem) (chain : List Nat) (c : CamBuf) : Mem :=
  ((List.range 32).foldl (fun m j => m.mergeWord (m.bobbinWord (chain.getD 0 0) + j) (Config.camHeader c.bounded c.span c.rise j)) m).putPoints
    chain 0 c.points

/-- The buffer a chain holds. -/
def Mem.camOf (m : Mem) (h : CamHead) (chain : List Nat) : CamBuf :=
  ⟨h.bounded, h.span, h.rise, (List.range h.count).map (m.point chain)⟩

/-- The two buffers of a table. -/
def State.camActive (s : State) (i : Fin 64) : Option CamBuf := (s.cams[i].active).map fun h => s.mem.camOf h s.cams[i].chainActive
def State.camShadow (s : State) (i : Fin 64) : Option CamBuf := (s.cams[i].shadow).map fun h => s.mem.camOf h s.cams[i].chainShadow

/-! The publication map in the banks (R126). -/

/-- The word of entry j of the map: 32 entries to a bobbin. -/
def Mem.mapWord (m : Mem) (j : Nat) : Nat := m.bobbinWord (m.mapChain.getD (j / 32) 0) + j % 32

/-- Entry j of the map: endpoint in bits 23:0, index in bits 41:24, valid in bit 42. -/
def Mem.mapEntry (m : Mem) (j : Nat) : Option (BitVec 24 × Sample) :=
  let w := m.word (m.mapWord j)
  if w.getLsbD 42 then some (w.truncate 24, w.extractLsb' 24 18) else none

/-- The entries of the map. -/
def Mem.pubmap (m : Mem) : List (BitVec 24 × Sample) := (List.range m.mapCount).filterMap m.mapEntry

/-- The entry that holds an endpoint. -/
def Mem.mapIndex (m : Mem) (e : BitVec 24) : Option Nat := (List.range m.mapCount).find? fun j => (m.mapEntry j).any fun x => x.1 == e

/-- Store one entry, as one word. -/
def Mem.putEntry (m : Mem) (j : Nat) (e : BitVec 24) (v : Sample) : Mem :=
  m.mergeWord (m.mapWord j) (BitVec.ofNat 72 (e.toNat + v.toNat * 2 ^ 24 + 2 ^ 42))

/-- Store entries from number `j` on. -/
def Mem.putEntries (m : Mem) : Nat → List (BitVec 24 × Sample) → Mem
  | _, [] => m
  | j, x :: r => (m.putEntry j x.1 x.2).putEntries (j + 1) r

/-! Completions (R45 to R49). -/

def stOk : Half := 0x0000
def stProgress : Half := 0x0001
def stBadArg : Half := 0x0010
def stNotReady : Half := 0x0011
def stRefused : Half := 0x0012
def stTagInUse : Half := 0x0013
def stLongLimit : Half := 0x0014
def stRemoteLimit : Half := 0x0015
def stBusySwitch : Half := 0x0016
def stAborted : Half := 0x0017
def stAuthFail : Half := 0x0020
def stSafetyLocked : Half := 0x0021
def stVerifyFail : Half := 0x0022
def stUnreachable : Half := 0x0030
def stRemoteTimeout : Half := 0x0031
def stPoisoned : Half := 0x0040
def stNoBobbin : Half := 0x0041
def stDmaFault : Half := 0x0042

/-- The value effective_cycle reads where a command has no cyclic effect (R45). -/
def noCycle : BitVec 48 := 0xFFFFFFFFFFFF

def State.pushCmpl (s : State) (mb : MbId) (c : Cmpl) : State :=
  s.modMb mb fun m => { m with pend := m.pend ++ [c] }

/-- A final completion of a command that holds its tag. -/
def finalCmpl (i : Instr) (o : Origin) (st : Half) (cycle : BitVec 48) (res : List Byte) : Cmpl where
  opcode := (opcodeOf i).getD 0
  tag := o.tag
  final := true
  reject := false
  irq := o.irq
  status := st
  progress := BitVec.ofNat 16 res.length
  cycle := cycle
  result := res
  remote := o.remote

/-- A command that a stop of the distaff ended answers ABORTED whatever became of it; a set that took effect gives it
its cycle (R53). -/
def State.settleOwed (s : State) (w : Owed) (cycle : BitVec 48) : State :=
  let w' := { w with cmd := none, c := { w.c with cycle := cycle } }
  if s.dist.st = .running then (s.modDist fun d => { d with owed := d.owed.erase w }).pushCmpl w.mb w'.c
  else s.modDist fun d => { d with owed := d.owed.map fun x => if x = w then w' else x }

/-- What the distaff owes for a command. -/
def State.owedFor (s : State) (i : Instr) : Option Owed := s.dist.owed.find? fun w => w.cmd == some i

/-- End a command: its final completion waits to be written. -/
def State.finish (s : State) (i : Instr) (o : Origin) (st : Half) (res : List Byte) : State :=
  match s.owedFor i with
  | some w => s.settleOwed w noCycle
  | none => s.pushCmpl o.mb (finalCmpl i o st noCycle res)

/-- End a command with the cycle its set took effect in. -/
def State.finishAt (s : State) (i : Instr) (o : Origin) (st : Half) (cycle : BitVec 48) : State :=
  match s.owedFor i with
  | some w => s.settleOwed w cycle
  | none => s.pushCmpl o.mb (finalCmpl i o st cycle [])

/-- Is the response ring full (R46)? -/
def Mailbox.full (m : Mailbox) : Bool := m.rspPi - m.rspCi == 64

/-- Has a mailbox a request the distaff could take (R46, R49)? -/
def requestWaits (s : State) (mb : MbId) : Bool := s.mb[mb].reqPi != s.mb[mb].reqCi && !s.mb[mb].full

/-- May a request of the mailbox be taken in this turn: it has given none yet, or no other mailbox that has given none has
one to give, and a new turn begins (R49); and no short command is still at work (R115)? -/
def turnOpen (s : State) (mb : MbId) : Bool :=
  s.dist.edit.isNone && (!s.dist.turn.getLsbD mb || (List.finRange 8).all fun m => s.dist.turn.getLsbD m || !requestWaits s m)

/-- The distaff takes a request of a mailbox: its turn, its place in the order of completions, and, where the command runs,
room for one step of a long operation after it (R49, R51). -/
def State.takeRequest (s : State) (mb : MbId) (tag : Fin 32) (reject : Bool) : State :=
  (s.modMb mb fun m => { m with order := m.order ++ [(tag, reject)] }).modDist fun d => { d with
    stepped := reject && d.stepped, turn := if d.turn.getLsbD mb then setBit 0 mb true else setBit d.turn mb true }

/-- A remote request uses its mailbox's turn; its completion has no place in the order of the short commands' (R49). -/
def State.takeTurn (s : State) (mb : MbId) : State :=
  s.modDist fun d => { d with turn := if d.turn.getLsbD mb then setBit 0 mb true else setBit d.turn mb true }

/-- In a full ring a command's newest IN_PROGRESS takes the place of its older ones (R46). -/
def State.dropReports (s : State) (mb : MbId) (tag : Fin 32) : State :=
  if s.mb[mb].full then s.modMb mb fun m => { m with pend := m.pend.filter fun x => x.final || x.tag != tag } else s

/-- A completion of a request refused at once: final and reject set, the tag not taken (R48). -/
def State.pushReject (s : State) (mb : MbId) (c : Cmpl) : State := (s.takeRequest mb c.tag true).pushCmpl mb c

/-- What a refusal at once answers. -/
def rejectCmpl (i : Instr) (o : Origin) (st : Half) : Cmpl := { finalCmpl i o st noCycle [] with reject := true }

/-- Refuse a request at once (R48). -/
def State.reject (s : State) (i : Instr) (o : Origin) (st : Half) : State := s.pushReject o.mb (rejectCmpl i o st)

end Sys2Proof.Machine
end

