-- ==== Sys2Proof/Machine/Accept.lean ====
section
/-! DEFINITION. From a mailbox to a running command: the acceptance checks of R48, the ready bits of R391, the
origins of R70, the data of a descriptor (R64, R65), and the wrappers that run a short command and start a long one. -/

namespace Sys2Proof.Machine

/-! Ready bits (R391). -/

/-- The ready bits a command depends on. -/
def needsReady (i : Instr) : List (Fin 24) :=
  match opcodeOf i with
  | none => []
  | some op =>
    let n := op.toNat
    let fly := (0x1001 ≤ n && n ≤ 0x100C) || (0x1101 ≤ n && n ≤ 0x1113) || n == 0x1202 || (0x1301 ≤ n && n ≤ 0x1304) ||
      n == 0x1306 || n == 0x1307 || (0x2001 ≤ n && n ≤ 0x2006) || (0x2101 ≤ n && n ≤ 0x2105) || (0x3002 ≤ n && n ≤ 0x3004)
    let bnk := n == 0x1201 || n == 0x1203 || n == 0x1204 || n == 0x1305 || n == 0x2202 || n == 0x3001 ||
      (0x4003 ≤ n && n ≤ 0x4006) || (0x4010 ≤ n && n ≤ 0x4013) || n == 0x5020 || (0x7001 ≤ n && n ≤ 0x7004)
    let can3 := match i with
      | .strandBind _ _ kind _ _ => kind == 3
      | _ => false
    (if fly then [rdyFlyers] else []) ++ (if bnk then [rdyBanks] else []) ++
    (if 0x5002 ≤ n && n ≤ 0x5004 then [rdyDomain] else []) ++
    (if n == 0x6002 || n == 0x6003 then [rdySafA, rdySafB, rdyFdie] else []) ++
    (if n == 0x6006 then [rdySafety] else []) ++
    (if (0x8001 ≤ n && n ≤ 0x8003) || (0x8010 ≤ n && n ≤ 0x8012) then [rdyFdie] else []) ++
    (if can3 || (0x8101 ≤ n && n ≤ 0x8104) then [rdyCan] else [])

/-- The ready bit of the function a self-test names, where it has one: its own for an engine or a bank, and the
bits of CAN, Ethernet and the distaff. -/
def functionReady (s : State) (f : Half) : Bool :=
  let n := f.toNat % 256
  match f.toNat / 256 with
  | 1 => s.pwr.readyFly.getLsbD n
  | 2 => s.pwr.readyBank.getLsbD n
  | 6 => s.isReady rdyCan
  | 7 => s.isReady rdyEth
  | 8 => s.isReady rdyDistaff
  | _ => true

/-- Are all the ready bits a command names set? -/
def readyOk (i : Instr) (s : State) : Bool :=
  (needsReady i).all s.isReady &&
    match i with
    | .selfTest _ f _ => functionReady s f
    | _ => true

/-! Origins (R70). -/

/-- Opcodes MB5 refuses. -/
def mb5Refuses (n : Nat) : Bool := [0x4001, 0x6002, 0x6004, 0x6003, 0x9011, 0x9002, 0x0102].contains n

/-- Opcodes MB6 refuses: the same but SAFETY_CONFIRM, and every 0x40xx but MEM_READ and the STAGE commands. -/
def mb6Refuses (n : Nat) : Bool :=
  (mb5Refuses n && n != 0x6003) || (n / 256 == 0x40 && n != 0x4003 && !(0x4010 ≤ n && n ≤ 0x4013))

/-- Does the command's mailbox refuse its opcode? MB7 accepts only peer opcodes, which are none of R72. -/
def originRefuses (mb : MbId) (op : Nat) : Bool :=
  match mb.val with
  | 5 => mb5Refuses op
  | 6 => mb6Refuses op
  | 7 => true
  | _ => false

/-! Acceptance (R48). -/

/-- Is the tag held? -/
def tagHeld (s : State) (mb : MbId) (tag : Fin 32) : Bool :=
  s.mb[mb].held.getLsbD tag || s.mb[mb].lateHeld.getLsbD tag

/-- The long operations running, with those accepted and not yet started. -/
def longsTaken (s : State) : Nat := s.dist.longs.length + (s.dist.inHand.filter fun i => decide (classOf i = .l)).length

/-- The first check of R48 that fails, in its order; OK where none does. -/
def acceptStatus (i : Instr) (o : Origin) (s : State) : Half :=
  if tagHeld s o.mb o.tag then stTagInUse
  else if !wellFormed i then stBadArg
  else if !readyOk i s then stNotReady
  else if classOf i = .l ∧ 16 ≤ longsTaken s then stLongLimit
  else stOk

/-- Hold a tag, without a place in the order of completions: a remote command's (R49). -/
def State.lockTag (s : State) (mb : MbId) (tag : Fin 32) : State :=
  s.modMb mb fun m => { m with held := setBit m.held tag true }

/-- Take a request of this device and hold its tag (R48, R49). -/
def State.holdTag (s : State) (mb : MbId) (tag : Fin 32) : State := (s.takeRequest mb tag false).lockTag mb tag

/-- A long operation begins: it joins the others as the last in turn, and its completions leave the ring order of the short
commands (R49, R51). -/
def State.startLong (s : State) (o : Origin) (i : Instr) : State :=
  (s.modMb o.mb fun m => { m with order := m.order.erase (o.tag, false) }).modDist fun d => { d with
    longs := d.longs ++ [⟨i, 0, 0, false, s.time.dev⟩] }

/-- How a command row meets the distaff. -/
inductive Claim
  /-- nothing happens: no mailbox is ready, the ring is full, or an earlier request of the mailbox comes first -/
  | idle
  /-- answered at once, the tag not taken -/
  | answered (s : State)
  /-- it runs: the state with the command taken out of the distaff's hands and its tag held -/
  | runs (s : State)
deriving DecidableEq, Repr

/-- The first command of a mailbox in the distaff's hands. -/
def firstOf (mb : MbId) (l : List Instr) : Option Instr :=
  l.find? fun i => match originOf i with
    | some o => o.mb == mb
    | none => false

/-- Take a command up: one the distaff has copied and accepted runs when it is the first of its mailbox; one it has
not copied is copied now in its mailbox's turn, under the checks of R48 (log entry 19). While the distaff is stopped the mailbox hardware
answers BUSY_SWITCH (R19); before the mailboxes are ready nothing is copied (R30). -/
def claim (i : Instr) (o : Origin) (s : State) : Claim :=
  if s.dist.st ≠ .running then
    if s.isReady rdyMailboxes && !s.mb[o.mb].full then .answered (s.pushCmpl o.mb (rejectCmpl i o stBusySwitch)) else .idle
  else if s.dist.inHand.contains i then
    if firstOf o.mb s.dist.inHand = some i ∧ s.dist.edit.isNone = true then
      .runs (s.modDist fun d => { d with inHand := d.inHand.erase i, stepped := false })
    else .idle
  else if !s.isReady rdyMailboxes || s.mb[o.mb].full || (firstOf o.mb s.dist.inHand).isSome || !turnOpen s o.mb then .idle
  else
    let st := acceptStatus i o s
    if st = stOk then .runs (s.holdTag o.mb o.tag) else .answered (s.reject i o st)

/-! Descriptor data (R64 to R66). -/

/-- The byte address of byte `off` of a staging chain (R231). -/
def stageAddr (m : Mem) (chain : List Nat) (off : Nat) : Option Nat :=
  (chain[off / 256]?).map fun b => 8 * m.bobbinWord b + off % 256

/-- The staging buffer a handle names: its length and chain. -/
def Mem.stage (m : Mem) (h : Nat) : Option (Nat × List Nat) :=
  (m.stages.find? fun e => e.1 == h).map fun e => (e.2.1, e.2.2)

/-- Bytes of a staging buffer. -/
def stageRead (m : Mem) (chain : List Nat) (off n : Nat) : List Byte :=
  (List.range n).map fun i => ((stageAddr m chain (off + i)).map m.readByte).getD 0

/-- Write bytes into a staging buffer. -/
def stageWrite (m : Mem) (chain : List Nat) (off : Nat) : List Byte → Mem
  | [] => m
  | b :: bs =>
    let m' := match stageAddr m chain off with
      | some a => m.mergeByte a b
      | none => m
    stageWrite m' chain (off + 1) bs

/-- Can the device move data to and from host memory? -/
def dmaReady (s : State) : Bool := s.host.pcieUp && s.host.busMaster

/-- The first poisoned word that a staging buffer's first `n` bytes touch, by its byte address (R71, R227). -/
def stagePoison (m : Mem) (chain : List Nat) (off n : Nat) : Option Nat :=
  (((List.range n).filterMap fun i => stageAddr m chain (off + i)).find? fun a => m.isPoisoned (a / 8)).map fun a => a / 8 * 8

/-- The bytes of a descriptor that carries data in, or the status and the result the command ends with (R64 to R66, R71). -/
def readDesc (s : State) (d : Desc) : Except (Half × List Byte) (List Byte) :=
  if d.kind == 0 then
    match dmaReady s, d.data with
    | true, some bs => .ok (slice bs 0 d.len.toNat)
    | _, _ => .error (stDmaFault, [])
  else
    match s.mem.stage d.addr.toNat with
    | none => .error (stBadArg, [])
    | some (len, chain) =>
      if len < d.len.toNat then .error (stBadArg, [])
      else
        match stagePoison s.mem chain 0 d.len.toNat with
        | some a => .error (stPoisoned, leBytes 4 a)
        | none => .ok (stageRead s.mem chain 0 d.len.toNat)

/-- Is the staging buffer of a descriptor that carries data out open and long enough (R64, R66)? -/
def outDescOk (s : State) (d : Desc) : Bool :=
  d.kind == 0 ||
    match s.mem.stage d.addr.toNat with
    | none => false
    | some (len, _) => decide (d.len.toNat ≤ len)

/-- Write a descriptor's buffer from its start (R65): the new state, or the status the command ends with. -/
def writeDesc (s : State) (d : Desc) (off : Nat) (bs : List Byte) : Except Half State :=
  if d.kind == 0 then
    if dmaReady s && d.data.isSome then .ok (s.emit (.dmaWrite (d.addr + BitVec.ofNat 64 off) bs))
    else .error stDmaFault
  else
    match s.mem.stage d.addr.toNat with
    | none => .error stBadArg
    | some (len, chain) => if d.len.toNat ≤ len then .ok (s.modMem fun m => stageWrite m chain off bs) else .error stBadArg

/-- Does a step's move of data fail on the bus? Only a host memory descriptor uses it (R65). -/
def busFails (d : Desc) (busOk : Bool) : Bool := d.kind == 0 && !busOk

/-! Running a command. -/

/-- What a command's body gives: the state it leaves, its status and its result bytes. -/
abbrev CmdResult := State × Half × List Byte

/-- A body that changes nothing and ends with a status. -/
def refuse (s : State) (st : Half) : CmdResult := (s, st, [])

/-- Run an S-class command (R67): claim it, refuse it by its origin (R70), or run its body and end it. -/
def runShort (i : Instr) (o : Origin) (body : State → CmdResult) (s : State) : State :=
  match claim i o s with
  | .idle => s
  | .answered s' => s'
  | .runs s' =>
    if originRefuses o.mb ((opcodeOf i).getD 0).toNat then s'.finish i o stRefused []
    else
      let r := body s'
      r.1.finish i o r.2.1 r.2.2

/-- Run an S-class command that reads the data of its descriptor first (R65). -/
def runShortIn (i : Instr) (o : Origin) (d : Desc) (body : List Byte → State → CmdResult) (s : State) : State :=
  runShort i o (fun s =>
    match readDesc s d with
    | .error e => (s, e.1, e.2)
    | .ok bs => body bs s) s

/-- What the end of a long operation by DMA_FAULT or an abort leaves marked (R75): a cam shadow incomplete, a firmware
image that does not run invalid. -/
def State.abortMark (s : State) : Instr → State
  | .camLoad _ table _ _ => s.modCam (Fin.ofNat 64 table.toNat) fun c => { c with complete := false }
  | .fwWrite _ image _ _ _ _ =>
    if (image == 1) = s.dist.image then s
    else s.modRec fun r => { r with fw := modAt r.fw (Fin.ofNat 2 image.toNat) fun f => { f with valid := false, verified := false } }
  | _ => s

/-- A long command leaves what the short ones allow: a step of a long operation comes after a short command (R51). -/
def State.keepStepped (s : State) (b : Bool) : State := s.modDist fun d => { d with stepped := b }

/-- Start an L-class command (R51): a check may end it at once; otherwise it joins the long operations, with the
bytes of a descriptor that carries data in already read. -/
def runLong (i : Instr) (o : Origin) (check : State → Half) (s : State) : State :=
  match claim i o s with
  | .idle => s
  | .answered s' => s'
  | .runs s' => State.keepStepped (
    if originRefuses o.mb ((opcodeOf i).getD 0).toNat then s'.finish i o stRefused []
    else
      let ready : Except (Half × List Byte) Instr :=
        match descOf i with
        | none => .ok i
        | some d =>
          if descOut i then (if outDescOk s' d then .ok i else .error (stBadArg, []))
          else (readDesc s' d).map fun bs => withDesc { d with data := some bs } i
      match ready with
      | .error (st, res) => (if st = stDmaFault then s'.abortMark i else s').finish i o st res
      | .ok i' =>
        let st := check s'
        if st = stOk then s'.startLong o i'
        else s'.finish i o st []) s.dist.stepped

/-- The bytes a resolved descriptor holds. -/
def Desc.bytes (d : Desc) : List Byte := d.data.getD []

end Sys2Proof.Machine
end

