-- ==== Sys2Proof/Machine/Law.lean ====
section
/-! DEFINITION. What the plies compute: coefficient blocks (R83, R84, R154), the standard law (R82), the
field-oriented current ply (R86), field weakening (R87), the preset of manual mode (R88), and the sine the microstep
table and the angle transforms rest on. -/

namespace Sys2Proof.Machine

/-! Sine. -/

/-- π scaled by 2^48. -/
def piFix : Int := 884279719003555

/-- Taylor terms of the sine of `x`, scaled by 2^48: `n` more terms, the next of order `k`. -/
def sinTerms : Nat → Nat → Int → Int → Int → Int
  | 0, _, _, _, acc => acc
  | n + 1, k, x2, term, acc =>
    let t := -(term * x2 / 2 ^ 48) / ((k + 1) * (k + 2) : Nat)
    sinTerms n (k + 2) x2 t (acc + t)

/-- Sine of `a` × π / 2^17 scaled by 2^48, for `a` up to 2^16. -/
def sinFix (a : Nat) : Int :=
  let x := (a : Int) * piFix / 2 ^ 17
  sinTerms 10 1 (x * x / 2 ^ 48) x x

/-- Sine of an 18-bit angle, scaled by 2^48 (R7). -/
def sinAngle (a : Nat) : Int :=
  let a := a % 262144
  let q := a / 65536
  let j := a % 65536
  match q with
  | 0 => sinFix j
  | 1 => sinFix (65536 - j)
  | 2 => -sinFix j
  | _ => -sinFix (65536 - j)

/-- Sine as an 18-bit fraction with the error of at most 2 LSB that R202 allows (log entry 7). -/
def sin18 (key a : Nat) : Int :=
  satInt 18 (roundShift (sinAngle a) 31 + clampInt (-2) 2 (Config.sinErr key a))

def cos18 (key a : Nat) : Int := sin18 key (a + 65536)

/-- The reset microstep table T[j] = round(0x1_FFFF × sin(j × π/512)) (R155). -/
def sineStep (j : Nat) : Nat := (roundShift (0x1FFFF * sinFix (j * 256)) 48).toNat

/-- 1/√3, scaled by 2^48. -/
def invSqrt3 : Rat := (162509653574041 : Rat) / (2 ^ 48 : Nat)

/-- A square root in the integers whose rounding the manual does not state (log entry 5). -/
def rootFree (key site n : Nat) : Nat :=
  let r := isqrt n
  if r * r = n then r else if Config.roundUp key site (n : Rat) then r + 1 else r

/-! Coefficient blocks. -/

/-- The 3-byte form of R83: an 18-bit integer sign-extended to 24 bits, or nothing. -/
def coef? (bs : List Byte) (off : Nat) : Option Int :=
  let v := fieldU bs off 3
  if v % 2 ^ 18 / 2 ^ 17 = 0 then (if v < 2 ^ 17 then some v else none)
  else if v / 2 ^ 17 = 127 then some ((v : Int) - 2 ^ 24) else none

/-- `n` values of the 3-byte form from byte `off` on. -/
def coefs? (bs : List Byte) (off : Nat) : Nat → Option (List Int)
  | 0 => some []
  | n + 1 =>
    match coef? bs off, coefs? bs (off + 3) n with
    | some c, some r => some (c :: r)
    | _, _ => none

/-- Cut a list into rows of `w`. -/
def rowsOf (w : Nat) : Nat → List Int → List (List Int)
  | 0, _ => []
  | n + 1, l => l.take w :: rowsOf w n (l.drop w)

/-- Are all bytes of `[lo, hi)` zero? -/
def zeroBytes (bs : List Byte) (lo hi : Nat) : Bool := ((bs.drop lo).take (hi - lo)).all (· == 0)

/-- The ply-specific ranges of R84 for ply 0, 1 or 2. -/
def plyFieldsOk (ply : Nat) (bs : List Byte) : Bool :=
  match ply with
  | 0 => (coef? bs 16).isSome && (coef? bs 19).isSome && (coef? bs 22).isSome && decide (fieldU bs 25 1 ≤ 15) &&
      (match coef? bs 26 with
        | some m => decide (0 ≤ m)
        | none => false) && zeroBytes bs 29 32
  | 1 => decide (1 ≤ fieldU bs 16 4) && decide (fieldU bs 16 4 < 2 ^ 31) && (coef? bs 20).isSome && (coef? bs 23).isSome &&
      (match coef? bs 26 with
        | some m => decide (m ≤ 0)
        | none => false) && decide (fieldU bs 29 1 ≤ 15) && zeroBytes bs 30 32
  | _ => decide (fieldU bs 16 1 ≤ 46) && decide (1 ≤ fieldU bs 21 2) && zeroBytes bs 23 32

/-- A coefficient block for a ply, or nothing where a rule of R83 or R84 is broken. -/
def plyBlock? (ply : Nat) (bs : List Byte) : Option PlyBlock :=
  let n := fieldU bs 0 1
  let m := fieldU bs 1 1
  let p := fieldU bs 2 1
  let flags := fieldU bs 3 1
  let integ := fieldU bs 13 1
  let body := 32 + 3 * ((n + p) * (n + m) + 2 * p)
  let clamp := [fieldU bs 4 1, fieldU bs 5 1]
  let sOut := [fieldU bs 9 1, fieldU bs 10 1]
  let valid := decide (1 ≤ n) && decide (n ≤ 8) && decide (1 ≤ m) && decide (m ≤ 4) && p == (if ply = 0 then 2 else 1) &&
    decide (flags ≤ (if ply = 0 then 1 else 0)) && decide (bs.length = (body + 7) / 8 * 8) &&
    clamp.all (fun c => decide (c < 2 ^ n)) && (p == 2 || fieldU bs 5 1 == 0) && zeroBytes bs 6 8 &&
    decide (fieldU bs 8 1 ≤ 15) && sOut.all (fun c => decide (c ≤ 15)) && (p == 2 || fieldU bs 10 1 == 0) &&
    zeroBytes bs 11 13 && zeroBytes bs 14 16 && zeroBytes bs body bs.length &&
    (if ply = 1 then bits integ 6 3 == 0 && (!bit integ 7 || decide (integ % 8 < n)) else integ == 0) &&
    plyFieldsOk ply bs
  if !valid then none
  else
    match coefs? bs 32 ((n + p) * (n + m)), coefs? bs (32 + 3 * ((n + p) * (n + m))) (2 * p) with
    | some cs, some ls =>
      let rows := rowsOf (n + m) (n + p) cs
      let lims := (rowsOf 2 p ls).map fun r => (r.getD 0 0, r.getD 1 0)
      if lims.all (fun l => decide (l.1 ≤ l.2)) then
        let c := fun off => (coef? bs off).getD 0
        some {
          n := n, m := m, p := p, decouple := flags == 1, clamp := clamp, sState := fieldU bs 8 1, sOut := sOut
          integ := if bit integ 7 then some (integ % 8) else none
          outRows := rows.take p, stateRows := rows.drop p, limits := lims
          cLq := if ply = 0 then c 16 else 0, cLd := if ply = 0 then c 19 else 0, cPsi := if ply = 0 then c 22 else 0
          sDec := if ply = 0 then fieldU bs 25 1 else 0
          mMax := if ply = 0 then (if c 26 = 0 then 0x1FFFF else c 26) else 0
          velFs := if ply = 1 then fieldU bs 16 4 else 0
          fwStart := if ply = 1 then c 20 else 0, kFw := if ply = 1 then c 23 else 0
          idMin := if ply = 1 then c 26 else 0, sFw := if ply = 1 then fieldU bs 29 1 else 0
          peShift := if ply = 2 then fieldU bs 16 1 else 0
          ferrLimit := if ply = 2 then fieldU bs 17 4 else 0
          ferrTime := if ply = 2 then fieldU bs 21 2 else 0 }
      else none
    | _, _ => none

/-- A stepper block (R154); `needsFs` for a step-generator strand with a feedback unit. -/
def stepperBlock? (needsFs : Bool) (bs : List Byte) : Option StepperBlock :=
  let b : StepperBlock := ⟨fieldU bs 0 4, fieldU bs 4 4, fieldU bs 8 4, fieldU bs 12 2, fieldU bs 14 2, fieldU bs 16 2,
    fieldU bs 18 4⟩
  if decide (bs.length = 32) && b.msNum != 0 && b.cntDen != 0 && (b.window == 0 || b.stallTime != 0) &&
      (if needsFs then decide (1 ≤ b.velFs) && decide (b.velFs < 2 ^ 31) else b.velFs == 0) && zeroBytes bs 22 32
  then some b else none

/-- Points of an auxiliary curve from byte 32 on (R146). -/
def auxPoints (bs : List Byte) (n : Nat) : List (Int × Nat) :=
  (List.range n).map fun i => (fieldS bs (32 + 8 * i) 4, fieldU bs (36 + 8 * i) 4)

/-- Are the values strictly rising? -/
def rising : List Int → Bool
  | a :: b :: r => decide (a < b) && rising (b :: r)
  | _ => true

/-- An auxiliary curve (R146), or nothing. -/
def auxCurve? (hysteresis : Nat) (bs : List Byte) : Option AuxCurve :=
  let n := fieldU bs 2 1
  let pts := auxPoints bs n
  let handover := fieldU bs 8 4
  let dir := fieldU bs 3 1
  let input := fieldU bs 0 1
  match coef? bs 12, coef? bs 20, fin? 32 dir with
  | some start, some res, d =>
    if decide (input ≤ 1) && (if input = 0 then decide (fieldU bs 1 1 < 16) else fieldU bs 1 1 == 0) &&
        decide (2 ≤ n) && decide (n ≤ 32) && decide (bs.length = 32 + 8 * n) && (d.isSome || dir == 255) &&
        decide (fieldU bs 4 4 ≤ handover) && decide (0 < start) && fieldU bs 15 1 == 0 && decide (1 ≤ fieldU bs 16 4) &&
        decide (0 < res) && fieldU bs 23 1 == 0 && decide (1 ≤ fieldU bs 24 2) && decide (fieldU bs 24 2 ≤ 1000) &&
        decide (fieldU bs 26 2 ≤ 1000) && decide (10 ≤ fieldU bs 28 2) && decide (fieldU bs 28 2 ≤ 2000) &&
        rising (pts.map (·.1)) && pts.all (fun p => decide (handover ≤ p.2)) then
      some ⟨input == 1, fieldU bs 1 1, d, fieldU bs 4 4, handover, start, fieldU bs 16 4, res, fieldU bs 24 2,
        fieldU bs 26 2, fieldU bs 28 2, fieldU bs 30 2, hysteresis, pts⟩
    else none
  | _, _, _ => none

/-! The standard law (R82). -/

/-- One row of the matrix: the accumulated sum. -/
def rowSum (row w : List Int) : Int := (List.zipWith (· * ·) row w).foldl (· + ·) 0

/-- A row scaled and saturated: sat18((acc + 2^(16 − s)) >> (17 − s)). -/
def scaleRow (acc : Int) (s : Nat) : Int := satInt 18 ((acc + (2 ^ (16 - s) : Nat)) / (2 ^ (17 - s) : Nat))

/-- The raw outputs of a block on the vector of states and inputs. -/
def rawOut (b : PlyBlock) (w : List Int) : List Int :=
  List.zipWith (fun row s => scaleRow (rowSum row w) s) b.outRows b.sOut

/-- Does an output's limit hold state `j` back (the anti-windup test of R82)? -/
def windsUp (b : PlyBlock) (raw out : List Int) (j : Nat) (old new : Int) : Bool :=
  (List.range b.p).any fun i =>
    let r := raw.getD i 0
    let u := out.getD i 0
    r != u && bit (b.clamp.getD i 0) j &&
      ((b.outRows.getD i []).getD j 0 * (new - old)).sign == (r - u).sign

/-- The new states from old states, inputs, raw and limited outputs. -/
def nextStates (b : PlyBlock) (x v raw out : List Int) : List Int :=
  let w := x ++ v
  (List.range b.n).map fun j =>
    let old := x.getD j 0
    let new := scaleRow (rowSum (b.stateRows.getD j []) w) b.sState
    if windsUp b raw out j old new then old else new

/-- The state vector a block starts with: what was there, or zeros where n changes (R85). -/
def padStates (n : Nat) (x : List Int) : List Int := if x.length = n then x else List.replicate n 0

/-- One update of a ply with per-output limits: new states, outputs, and whether an output was limited. -/
def plyUpdate (b : PlyBlock) (x v : List Int) (limits : List (Int × Int)) : List Int × List Int × Bool :=
  let x := padStates b.n x
  let v := v.take b.m
  let raw := rawOut b (x ++ v)
  let out := List.zipWith (fun r (l : Int × Int) => clampInt l.1 l.2 r) raw limits
  (nextStates b x v raw out, out, raw != out)

/-- Preset the state `integ` names so that the unlimited output equals `out` (R88); a zero gain leaves it. -/
def presetState (key : Nat) (b : PlyBlock) (x v : List Int) (out : Int) : List Int :=
  match b.integ with
  | none => x
  | some j =>
    let x := padStates b.n x
    let row := b.outRows.getD 0 []
    let h := row.getD j 0
    if h = 0 then x
    else
      let rest := rowSum row (x.set j 0 ++ v.take b.m)
      let want := out * (2 ^ (17 - b.sOut.getD 0 0) : Nat)
      x.set j (satInt 18 (roundFree key 3 (((want - rest : Int) : Rat) / (h : Int))))

/-! The current ply (R86). -/

/-- The Clarke values before saturation. -/
def clarkeRaw (key : Nat) (a b c : Int) : Int × Int × Int :=
  (roundFree key 4 (((2 * a - b - c : Int) : Rat) / 3), roundFree key 5 (((b - c : Int) : Rat) * invSqrt3),
   roundFree key 6 (((a + b + c : Int) : Rat) / 3))

/-- Clarke: i_α, i_β and i_0 of three phase samples. -/
def clarke (key : Nat) (a b c : Int) : Int × Int × Int :=
  let r := clarkeRaw key a b c
  (satInt 18 r.1, satInt 18 r.2.1, satInt 18 r.2.2)

/-- The Park values before saturation. -/
def parkRaw (key : Nat) (al be : Int) (th : Nat) : Int × Int :=
  let s := sin18 key th
  let c := cos18 key th
  (roundFree key 7 (((al * c + be * s : Int) : Rat) / (2 ^ 17 : Nat)), roundFree key 8 (((be * c - al * s : Int) : Rat) / (2 ^ 17 : Nat)))

/-- Park: α·cos θ + β·sin θ and −α·sin θ + β·cos θ. -/
def park (key : Nat) (al be : Int) (th : Nat) : Int × Int :=
  let r := parkRaw key al be th
  (satInt 18 r.1, satInt 18 r.2)

/-- The inverse Park values before saturation. -/
def iParkRaw (key : Nat) (d q : Int) (th : Nat) : Int × Int :=
  let s := sin18 key th
  let c := cos18 key th
  (roundFree key 9 (((d * c - q * s : Int) : Rat) / (2 ^ 17 : Nat)), roundFree key 10 (((d * s + q * c : Int) : Rat) / (2 ^ 17 : Nat)))

/-- Inverse Park: d·cos θ − q·sin θ and d·sin θ + q·cos θ. -/
def iPark (key : Nat) (d q : Int) (th : Nat) : Int × Int :=
  let r := iParkRaw key d q th
  (satInt 18 r.1, satInt 18 r.2)

/-- The result of one current-ply update. -/
structure CurOut where
  x : List Int
  vd : Int
  vq : Int
  sat : Bool
deriving DecidableEq, Repr

/-- Law, decoupling and vector limit on the inputs i_d, i_q, r_d, r_q at velocity `om` (R82, R86). The estimates of
the decoupling are the first two states (log entry 23), and the decoupled outputs saturate to 18 bits before the vector
limit (log entry 96). -/
def currentLaw (key : Nat) (b : PlyBlock) (x v : List Int) (om : Int) : CurOut :=
  let x := padStates b.n x
  let v := v.take b.m
  let raw := rawOut b (x ++ v)
  let scale : Rat := (2 ^ b.sDec : Nat) / (2 ^ 17 : Nat)
  let one : Rat := (2 ^ 17 : Nat)
  let dD : Rat := (b.cLq * om * x.getD 1 0 : Int) * scale / one
  let dQ : Rat := (b.cLd * om * x.getD 0 0 : Int) * scale / one + (b.cPsi * om : Int) * scale
  let ud := if b.decouple then satInt 18 (raw.getD 0 0 - roundFree key 11 dD) else raw.getD 0 0
  let uq := if b.decouple then satInt 18 (raw.getD 1 0 + roundFree key 12 dQ) else raw.getD 1 0
  let vd := clampInt (-b.mMax) b.mMax ud
  let q : Int := rootFree key 13 (b.mMax * b.mMax - vd * vd).toNat
  let vq := clampInt (-q) q uq
  ⟨nextStates b x v [ud, uq] [vd, vq], vd, vq, ud != vd || uq != vq⟩

/-- Field weakening (R87): the new d reference. -/
def fieldWeaken (key : Nat) (b : PlyBlock) (mMax vd vq idRef : Int) : Int :=
  let mag : Int := rootFree key 14 (vd * vd + vq * vq).toNat
  let m : Rat := if mMax = 0 then 0 else (mag * (2 ^ 17 : Nat) : Int) / (mMax : Int)
  let step : Rat := (b.kFw : Rat) * (2 ^ b.sFw : Nat) / (2 ^ 17 : Nat) * ((b.fwStart : Rat) - m)
  clampInt b.idMin 0 (idRef + roundFree key 15 step)

/-- The limit of the q reference (R87). -/
def iqLimit (key : Nat) (b : PlyBlock) (idRef : Int) : Int :=
  let l := b.limits.getD 0 (0, 0)
  let iMax := min |l.1| |l.2|
  rootFree key 16 (iMax * iMax - idRef * idRef).toNat

/-- A velocity in 1/16 count/s as an 18-bit fraction of vel_fs (R78). -/
def velFrac (key velFs : Nat) (v : Int) : Int :=
  if velFs = 0 then 0 else satInt 18 (roundFree key 17 ((v : Rat) * (2 ^ 17 : Nat) / (16 * velFs : Nat)))

/-- An 18-bit fraction of vel_fs as a velocity in 1/16 count/s. -/
def fracVel (key velFs : Nat) (v : Int) : Int := roundFree key 18 ((v : Rat) * (16 * velFs : Nat) / (2 ^ 17 : Nat))

/-- An acceleration in count/s² as a fraction of vel_fs per ply period of `ns` (R78). -/
def accFrac (key velFs ns : Nat) (a : Int) : Int :=
  if velFs = 0 then 0
  else satInt 18 (roundFree key 19 ((a : Rat) * (2 ^ 17 : Nat) * ns / ((1000000000 : Nat) * velFs : Nat)))

/-- Position error of a ply: sat18(error >> pe_shift) (R78). -/
def posErr (b : PlyBlock) (e : Int) : Int := satInt 18 (asr e b.peShift)

/-- Following error in Q23.8, saturating (R78): the error is in Q47.16. -/
def ferrOf (e : Int) : Int := satInt 32 (asr e 8)

end Sys2Proof.Machine
end

