-- ==== Sys2Proof/Machine/Levels.lean ====
section
/-! DEFINITION. The levels of the PWM outputs (R131, R132, R135, R136, R158): the ideal high-side signal, dead time, force
values and the legs of a stepper's H-bridges. -/

namespace Sys2Proof.Machine

/-- The force value of a pair (R136). -/
def forceOf (x : Quad) (p : PairId) : Nat := bits x.force.toNat (2 * p.val + 1) (2 * p.val)

/-- The ideal high-side signal of a pair where the counter stands (R132): counter ≥ (P − d)/2 on an up-down carrier,
counter < d on a sawtooth; a duty of 0 keeps it low and one of P or more high. -/
def idealHigh (x : Quad) (p : PairId) : Bool :=
  let per := x.cfg.period.toNat
  let d := min x.duty[p].toNat per
  if x.cfg.saw then decide (x.cnt.toNat < d) else d != 0 && decide (per - d ≤ 2 * x.cnt.toNat)

/-- The ideal high-side signal of a pair `c` half units of the counter into its half, and the half units since it last changed
(R132): at an edge of this period, or else, where the level is that of the last boundary, before it. -/
def idealAt (x : Quad) (p : PairId) (c : Nat) (down : Bool) : Bool × Nat :=
  let per := x.cfg.period.toNat
  let d := min x.duty[p].toNat per
  let edges := d != 0 && d != per
  let past := if x.cfg.saw then c else if !down then c else if x.cfg.dbl then per - c else 2 * per - c
  let high := if x.cfg.saw then decide (c < 2 * d) || d == per else d != 0 && decide (per - d ≤ c)
  let still := (high, if high == x.was[p].1 then x.was[p].2 + past else past)
  if !edges then still
  else if x.cfg.saw then (if high then still else (high, c - 2 * d))
  else if !down then (if high then (high, c - (per - d)) else still)
  else if !high then (high, per - d - c)
  else if x.cfg.dbl then still
  else (high, past - (per - d))

/-- Half units since the ideal signal last changed where the counter stands (R135). -/
def idealAge (x : Quad) (p : PairId) : Nat := (idealAt x p (2 * x.cnt.toNat) x.down).2

/-- The level of each pair's ideal signal as a boundary ends its half of the carrier, and how long it has stood; the wrap of a
sawtooth, the peak, or the valley. -/
def levelsAt (peak : Bool) (x : Quad) : Vector (Bool × Nat) 12 :=
  Vector.ofFn fun p =>
    if x.cfg.saw then idealAt x p (2 * x.cfg.period.toNat) false else if peak then idealAt x p x.cfg.period.toNat false else idealAt x p 0 true

/-- The two outputs of a pair from the carrier: each is its ideal signal with every rise delayed by the dead time, and
a rise delayed past the next fall does not occur (R135). -/
def carrierOut (x : Quad) (p : PairId) : Bool × Bool :=
  let on := decide (2 * x.cfg.dead[p].toNat ≤ idealAge x p)
  (idealHigh x p && on, !idealHigh x p && on)

/-- The side of a pair its force value or its carrier turns on, dead times of force writes apart (R136). -/
def sidesOn (x : Quad) (p : PairId) : Bool × Bool :=
  match forceOf x p with
  | 1 => (true, false)
  | 2 => (false, true)
  | 3 => (false, false)
  | _ => carrierOut x p

/-- The sides a force write or its release leaves on: each waits until the dead time after the other has turned off is over. -/
def onAfterWait (x : Quad) (p : PairId) (b : Bool × Bool) : Bool × Bool := (b.1 && x.wait[p].1 == 0, b.2 && x.wait[p].2 == 0)

/-- A force write: from the moment a side turns off, the other waits for the dead time (R136). -/
def withForce (f : BitVec 24) (x : Quad) : Quad :=
  let y := { x with force := f }
  { y with
    wait := Vector.ofFn fun (p : PairId) =>
      let a := onAfterWait x p (sidesOn x p)
      let b := onAfterWait x p (sidesOn y p)
      (if a.2 && !b.2 then x.cfg.dead[p].toNat else x.wait[p].1, if a.1 && !b.1 then x.cfg.dead[p].toNat else x.wait[p].2) }

/-- Write a force value into the fields of some pairs (R136, R151). -/
def forceBits (f : BitVec 24) (ps : List PairId) (v : Nat) : BitVec 24 :=
  ps.foldl (fun f p => (f &&& ~~~(3#24 <<< (2 * p.val))) ||| (BitVec.ofNat 24 (v % 4) <<< (2 * p.val))) f

/-- The two legs of a winding's H-bridge (R158): a drive puts leg 1 high for a positive reference and leg 2 for a negative
one, fast decay reverses them, and slow decay and a reference of 0 hold both low. -/
def legsOf (w : Winding) : Bool × Bool :=
  match w.phase with
  | .drive => (decide (0 < w.ref), decide (w.ref < 0))
  | .fast => (decide (w.ref < 0), decide (0 < w.ref))
  | _ => (false, false)

/-- Put the counter at a place of its period, in units from the valley or wrap (R132). -/
def placeCarrier (pos : Nat) (x : Quad) : Quad :=
  let per := x.cfg.period.toNat
  if x.cfg.saw then { x with cnt := BitVec.ofNat 24 pos, down := false }
  else if 2 * pos < per then { x with cnt := BitVec.ofNat 24 pos, down := false }
  else { x with cnt := BitVec.ofNat 24 (per - pos), down := true }

end Sys2Proof.Machine
end

