-- ==== Sys2Proof/Machine/Plan.lean ====
section
/-! DEFINITION. The profile generator's plans: limits in force (R96, R97), point-to-point moves (R98 to R101),
velocity mode (R102) and stops (R103), and the evaluation of a plan (R99). Counts and seconds. A move's plan is in 64-bit
floating point (R98): what its steps give is rounded to it (log entry 20). -/

namespace Sys2Proof.Machine

/-- The vel_fs a default profile rests on (R96). -/
def defaultVelFs (c : StrandCfg) : Nat :=
  match c.vel with
  | some b => b.velFs
  | none =>
    match c.binding, c.fb, c.step with
    | .stepgen _, some _, some b => b.velFs
    | _, _, _ => 2 ^ 20

/-- The strand's profile: the one of PROFILE_SET, or the default of R96. -/
def profileOf (c : StrandCfg) : Profile :=
  match c.profile with
  | some p => p
  | none =>
    let v := defaultVelFs c
    ⟨false, 0, v * 16, v * 16, 0, v * 64, v * 64, v * 64, v * 64, 0⟩

/-- The configured quick-stop deceleration of R97: twice the larger of d1 and d2, capped. -/
def quickDecel (p : Profile) : Nat := min (2 ^ 32 - 1) (2 * max p.d1 p.d2)

/-- A profile's limits in counts and seconds, with a1 and d1 replaced where they are 0 (R96). -/
structure Lim where
  vs : Rat
  vc : Rat
  vm : Rat
  ve : Rat
  a1 : Rat
  a2 : Rat
  d2 : Rat
  d1 : Rat
  j : Rat
  scurve : Bool
deriving DecidableEq, Repr

def limOf (p : Profile) : Lim where
  vs := (p.vStart : Rat) / 16
  vc := (p.vCorner : Rat) / 16
  vm := (p.vMax : Rat) / 16
  ve := (p.vStop : Rat) / 16
  a1 := if p.a1 = 0 then p.a2 else p.a1
  a2 := p.a2
  d2 := p.d2
  d1 := if p.d1 = 0 then p.d2 else p.d1
  j := (p.jerk : Rat) * 256
  scurve := p.scurve

/-- A square root in 64-bit floating point. -/
def root64 (q : Rat) : Rat := float64 (sqrtFine q)

/-- A piece in 64-bit floating point (R98). -/
def Seg.rounded (g : Seg) : Seg := ⟨float64 g.dur, float64 g.v0, float64 g.a0, float64 g.j⟩

/-- Distance of one piece. -/
def Seg.dist (g : Seg) : Rat := g.v0 * g.dur + g.a0 * g.dur * g.dur / 2 + g.j * g.dur * g.dur * g.dur / 6

def segsDist (l : List Seg) : Rat := l.foldl (fun d g => d + g.dist) 0

def segsTime (l : List Seg) : Rat := l.foldl (fun d g => d + g.dur) 0

/-- Reverse the direction of pieces. -/
def flipSegs (neg : Bool) (l : List Seg) : List Seg :=
  if neg then l.map fun g => { g with v0 := -g.v0, a0 := -g.a0, j := -g.j } else l

/-- A piece of constant acceleration from `v` to `w`. -/
def rampSeg (v w a : Rat) : List Seg := if v = w || a = 0 then [] else [⟨(w - v) / a, v, a, 0⟩]

/-- Rising ramp of the trapezoid: a1 below the corner and a2 above (R98, R100, R102). -/
def upTrap (l : Lim) (v w : Rat) : List Seg :=
  if w ≤ v then []
  else rampSeg v (max v (min w l.vc)) l.a1 ++ rampSeg (max v (min w l.vc)) w l.a2

/-- Falling ramp of the trapezoid: d2 above the corner and d1 below (R98, R102, R103). -/
def downTrap (l : Lim) (v w : Rat) : List Seg :=
  if v ≤ w then []
  else rampSeg v (min v (max w l.vc)) (-l.d2) ++ rampSeg (min v (max w l.vc)) w (-l.d1)

/-- A jerk-limited change from `v` to `w`, both along the motion, with limit `a` (R101). -/
def sRamp (v w a j : Rat) : List Seg :=
  if v = w then []
  else
    let dv := |w - v|
    let sg : Rat := if v < w then 1 else -1
    if a * a ≤ dv * j then
      let t1 := a / j
      let t2 := dv / a - a / j
      let v1 := v + sg * a * t1 / 2
      [⟨t1, v, 0, sg * j⟩, ⟨t2, v1, sg * a, 0⟩, ⟨t1, v1 + sg * a * t2, sg * a, -(sg * j)⟩]
    else
      let t1 := root64 (dv / j)
      let p := j * t1
      [⟨t1, v, 0, sg * j⟩, ⟨t1, (v + w) / 2, sg * p, -(sg * j)⟩]

/-- The profile's rising and falling ramps. -/
def up (l : Lim) (v w : Rat) : List Seg := if l.scurve then (if w ≤ v then [] else sRamp v w l.a2 l.j) else upTrap l v w
def down (l : Lim) (v w : Rat) : List Seg := if l.scurve then (if v ≤ w then [] else sRamp v w l.d2 l.j) else downTrap l v w

/-- The square of the peak speed of a trapezoid that starts at `v`, ends at `w` and covers `d` without reaching its
maximum (steps 3 and 4 of R98; R100). -/
def peakSq (l : Lim) (v w d : Rat) : Rat :=
  let low := segsDist (upTrap l v l.vc) + segsDist (downTrap l l.vc w)
  let base := max v l.vc
  if low ≤ d ∨ l.vc ≤ v then
    -- the peak lies above the corner
    let rest := d - segsDist (upTrap l v base) - segsDist (downTrap l base w)
    base * base + 2 * rest * l.a2 * l.d2 / (l.a2 + l.d2)
  else (2 * d * l.a1 * l.d1 + v * v * l.d1 + w * w * l.a1) / (l.a1 + l.d1)

/-- Bisection for the peak of an S-curve: 24 halvings between 0 and the maximum (R101). -/
def bisectPeak (l : Lim) (v d : Rat) : Nat → Rat → Rat → Rat
  | 0, lo, _ => lo
  | n + 1, lo, hi =>
    let m := (lo + hi) / 2
    if segsDist (up l v (max v m)) + segsDist (down l (max v m) 0) ≤ d then bisectPeak l v d n m hi
    else bisectPeak l v d n lo m

/-- The pieces of a move of distance `d > 0` that starts at speed `v` along it, ending with the stop speed `w`. -/
def moveSegs (l : Lim) (v w d : Rat) : List Seg :=
  let fall := if l.vm < v then (if l.scurve then down l v l.vm else rampSeg v l.vm (-l.d2)) else []
  let v1 := min v l.vm
  let d1 := d - segsDist fall
  let full := segsDist (up l v1 l.vm) + segsDist (down l l.vm w)
  fall ++
    if full ≤ d1 then up l v1 l.vm ++ [⟨(d1 - full) / l.vm, l.vm, 0, 0⟩] ++ down l l.vm w
    else
      let vp := if l.scurve then max v1 (bisectPeak l v1 d1 24 0 l.vm) else max (max v1 w) (root64 (float64 (peakSq l v1 w d1)))
      up l v1 vp ++ down l vp w

/-- A move of signed distance `d` from standstill (R98): the end speeds are clipped to what the distance allows. -/
def fromRest (l : Lim) (d : Rat) : List Seg :=
  if d = 0 then []
  else
    let m := |d|
    let vs := min l.vs (root64 (l.ve * l.ve + 2 * l.d1 * m))
    let ve := min l.ve (root64 (vs * vs + 2 * l.a1 * m))
    flipSegs (decide (d < 0)) (moveSegs l (if l.scurve then 0 else vs) (if l.scurve then 0 else ve) m)

/-- The braking distance of R100: from `v` down to the stop speed. -/
def brakeDist (l : Lim) (v : Rat) : Rat := if v ≤ l.ve then 0 else segsDist (down l v l.ve)

/-- The pieces of a move from reference velocity `v` to a target at distance `d`, both signed (R98, R100). -/
def planSegs (l : Lim) (v d : Rat) : List Seg :=
  if v = 0 then fromRest l d
  else
    let neg := decide (v < 0)
    let m := |v|
    let ahead := if neg then -d else d
    if 0 < ahead ∧ brakeDist l m ≤ ahead then
      let ve := min l.ve (root64 (m * m + 2 * l.a1 * ahead))
      flipSegs neg (moveSegs l m (if l.scurve then 0 else ve) ahead)
    else
      let stop := down l m 0
      flipSegs neg stop ++ fromRest l (d - (if neg then -(segsDist stop) else segsDist stop))

/-- A move to the absolute position `target` from position `pos` and velocity `vel` (1/16 count/s). -/
def planMove (p : Profile) (pos vel target : Int) : Plan :=
  ⟨pos, (planSegs (limOf p) ((vel : Rat) / 16) (((target - pos : Int) : Rat) / 65536)).map Seg.rounded, some target, 0, 0⟩

/-- Velocity mode (R102): the reference velocity moves to the clamped target. -/
def planJog (p : Profile) (pos vel target : Int) : Plan :=
  let l := limOf p
  let tgt := clampInt (-(p.vMax : Int)) p.vMax target
  let v := (vel : Rat) / 16
  let w := (tgt : Rat) / 16
  let segs :=
    if 0 ≤ v * w then
      let neg := decide (v < 0) || decide (w < 0)
      flipSegs neg (if |v| < |w| then up l |v| |w| else down l |v| |w|)
    else flipSegs (decide (v < 0)) (down l |v| 0) ++ flipSegs (decide (w < 0)) (up l 0 |w|)
  ⟨pos, segs, none, w, 0⟩

/-- A jerk-limited stop that starts from the present acceleration (R103): `v > 0` along the motion. -/
def sStop (v a d j : Rat) : List Seg :=
  let p := if d * d ≤ j * v + a * a / 2 then d else root64 (j * v + a * a / 2)
  -- an acceleration beyond the peak eases off first
  let k := if -p ≤ a then -j else j
  let tA := |a + p| / j
  let vA := v + a * tA + k * tA * tA / 2
  let tB := if p = 0 then 0 else max 0 ((vA - p * p / (2 * j)) / p)
  [⟨tA, v, a, k⟩, ⟨tB, vA, -p, 0⟩, ⟨p / j, vA - p * tB, -p, j⟩]

/-- The pieces of a category 1 stop from speed `v` and acceleration `a` along it; a non-zero `decel` is this stop's
own deceleration (R103). -/
def cat1Segs (p : Profile) (v a : Rat) (decel : Nat) : List Seg :=
  let l := limOf p
  if l.scurve then sStop v a (if decel = 0 then l.d2 else (decel : Rat)) l.j
  else if decel = 0 then downTrap l v 0
  else rampSeg v 0 (-(decel : Rat))

/-- The plan of a stop from the strand's reference: quick or category 1 (R103). -/
def planStop (p : Profile) (pos vel acc : Int) (quick : Bool) (decel : Nat) : Plan :=
  let v := (vel : Rat) / 16
  let neg := decide (vel < 0)
  let segs :=
    if vel = 0 then []
    else if quick then rampSeg |v| 0 (-(decel : Rat))
    else cat1Segs p |v| (if neg then -(acc : Rat) else acc) decel
  ⟨pos, flipSegs neg segs, none, 0, 0⟩

/-- Seconds since a plan began. -/
def Plan.secs (p : Plan) : Rat := (p.t : Rat) / 4000000

/-- Position, velocity and acceleration at `t` seconds into the pieces; what is left of `t` beyond them. -/
def evalSegs : List Seg → Rat → Rat → Rat × Rat × Rat × Option Rat
  | [], x, t => (x, 0, 0, some t)
  | g :: r, x, t =>
    if t < g.dur then
      (x + g.v0 * t + g.a0 * t * t / 2 + g.j * t * t * t / 6, g.v0 + g.a0 * t + g.j * t * t / 2, g.a0 + g.j * t, none)
    else evalSegs r (x + g.dist) (t - g.dur)

/-- The reference a plan gives now: position (Q47.16), velocity (1/16 count/s), acceleration (count/s²), and whether
it has ended (R99). -/
def Plan.eval (key : Nat) (p : Plan) : Int × Int × Int × Bool :=
  let (x, v, a, left) := evalSegs p.segs 0 p.secs
  match left with
  | none => (p.start + roundFree key 0 (x * 65536), roundFree key 1 (v * 16), roundFree key 2 a, false)
  | some t =>
    match p.target with
    | some tgt => (tgt, 0, 0, true)
    | none => (p.start + roundFree key 0 ((x + p.endVel * t) * 65536), roundFree key 1 (p.endVel * 16), 0, true)

/-- The distance a plan still covers, without sign (R91). -/
def Plan.left (p : Plan) : Rat :=
  let (x, _, _, _) := evalSegs p.segs 0 p.secs
  |segsDist p.segs - x|

/-- The planned duration in 250 ns units, rounded up. -/
def Plan.ticks (p : Plan) : Nat := (ceilRat (segsTime p.segs * 4000000)).toNat

/-- A plan goes on by `n` units of 250 ns. -/
def Plan.advance (p : Plan) (n : Nat) : Plan := { p with t := p.t + n }

end Sys2Proof.Machine
end

