-- ==== Sys2Proof/Machine/Wake.lean ====
section
/-! DEFINITION. Functions with a power state (R34) and how they are woken (R35). -/

namespace Sys2Proof.Machine

/-- Class and instance of a function code (R72). -/
def fnClass (f : Half) : Nat := f.toNat / 256
def fnInst (f : Half) : Nat := f.toNat % 256

/-- The record of a function, where its code names one. -/
def pwrFn (p : Power) (f : Half) : Option PwrFn :=
  let n := fnInst f
  match fnClass f with
  | 1 => (fin? 17 n).map fun i => p.engines[i]
  | 2 => (fin? 32 n).map fun i => p.banks[i]
  | 3 => (fin? 12 n).map fun i => p.quads[i]
  | 4 => (fin? 48 n).map fun i => p.fbs[i]
  | 5 => (fin? 8 n).map fun i => p.exps[i]
  | 6 => (fin? 4 n).map fun i => p.cans[i]
  | 7 => some p.eth
  | 8 => some p.distaff
  | _ => none

def modPwrFn (f : Half) (g : PwrFn → PwrFn) (p : Power) : Power :=
  let n := fnInst f
  match fnClass f with
  | 1 => match fin? 17 n with | some i => { p with engines := modAt p.engines i g } | none => p
  | 2 => match fin? 32 n with | some i => { p with banks := modAt p.banks i g } | none => p
  | 3 => match fin? 12 n with | some i => { p with quads := modAt p.quads i g } | none => p
  | 4 => match fin? 48 n with | some i => { p with fbs := modAt p.fbs i g } | none => p
  | 5 => match fin? 8 n with | some i => { p with exps := modAt p.exps i g } | none => p
  | 6 => match fin? 4 n with | some i => { p with cans := modAt p.cans i g } | none => p
  | 7 => { p with eth := g p.eth }
  | 8 => { p with distaff := g p.distaff }
  | _ => p

/-- Wake a bank: one that has been OFF and has mode 2 clears, and serves no request until its clear ends (R226). -/
def State.wakeBank (s : State) (b : BankId) : State :=
  if s.pwr.banks[b].st = .run then s
  else
    let clears := decide (s.pwr.banks[b].st = .off) && s.mem.banks[b].pmode == 2
    let s := s.modPwr fun p => { p with banks := modAt p.banks b fun f => { f with st := .run } }
    if clears then s.modMem fun m => m.modBank b fun c => { c with clearing := true, lost := none, built := [] } else s

/-- A bank serves a request: it is woken, and the request waits until its clear has ended (R226). -/
def State.serveBank (s : State) (b : BankId) : State :=
  let s := s.wakeBank b
  if s.mem.banks[b].clearing then s.modMem fun m => m.modBank b fun c => { c with clearing := false } else s

/-- A function is woken (R35). -/
def State.wakeFn (s : State) (f : Half) : State :=
  match fnClass f, fin? 32 (fnInst f) with
  | 2, some b => s.wakeBank b
  | _, _ => s.modPwr (modPwrFn f fun x => { x with st := .run })

/-- The function codes of R72 for an engine, a bank, a quad and a feedback unit. -/
def engineFn (e : EngineId) : Half := BitVec.ofNat 16 (0x100 + e.val)
def bankFn (b : BankId) : Half := BitVec.ofNat 16 (0x200 + b.val)
def quadFn (q : QuadId) : Half := BitVec.ofNat 16 (0x300 + q.val)
def fbFn (u : FbId) : Half := BitVec.ofNat 16 (0x400 + u.val)

/-- Those of a CAN controller and of the distaff. -/
def canFn (c : CanId) : Half := BitVec.ofNat 16 (0x600 + c.val)
def distaffFn : Half := 0x800

/-- Requests reach the banks that hold bytes `[lo, hi)` of the byte view (R35, R226). -/
def State.wakeRange (s : State) (lo hi : Nat) : State :=
  (List.finRange 32).foldl (fun s b => if b.val * 0x100000 < hi ∧ lo < (b.val + 1) * 0x100000 then s.serveBank b else s) s

/-- Requests reach the banks that hold a chain (R35). -/
def State.wakeChain (s : State) (chain : List Nat) : State :=
  chain.foldl (fun s b => s.wakeRange (8 * s.mem.bobbinWord b) (8 * s.mem.bobbinWord b + 256)) s

/-- A requester's allocation: the pool controller reads the link in the head's bank (R232, R226). -/
def State.grab (s : State) : State × Option Nat :=
  let s := if s.mem.head = nullBobbin then s else s.wakeChain [s.mem.head]
  let r := s.mem.alloc
  (s.modMem fun _ => r.1, r.2)

/-- Give out `n` bobbins, or none at all. -/
def State.grabN : Nat → State → Option (State × List Nat)
  | 0, s => some (s, [])
  | n + 1, s =>
    match s.grab with
    | (_, none) => none
    | (t, some i) => (State.grabN n t).map fun r => (r.1, i :: r.2)

/-- Release bobbins (R232). -/
def State.freeChain (s : State) (l : List Nat) : State := (s.wakeChain l).modMem fun m => m.releaseAll l

end Sys2Proof.Machine
end

