-- ==== Sys2Proof/Machine/Motion.lean ====
section
/-! DEFINITION. The operations every strand shares: what a strand owns (R76, R131), its reference and its actual
position (R78, R100), switching off (R136, R164), the stops and how they compete (R91, R103), the fault reactions
(R92, R93), SAFE (R90), and what a member that stops does to its group (R110). -/

namespace Sys2Proof.Machine

/-! What a strand owns. -/

/-- The number of quads enabled for drive (R2); the reserved code counts as the full variant. -/
def quadsEnabled (v : BitVec 2) : Nat :=
  match v.toNat with
  | 1 => 6
  | 2 => 3
  | _ => 12

/-- Is a quad enabled for local drive (R3)? -/
def quadEnabled (s : State) (q : QuadId) : Bool := decide (q.val < quadsEnabled s.id.variant)

/-- The quad a kind-1 strand is bound to (R76). -/
def bindQuad : Binding → Option QuadId
  | .servo q _ => some q
  | .stepper q _ => some q
  | _ => none

/-- The pairs, and with the same numbers the sigma-delta inputs, a binding owns (R131). -/
def ownedPairs : Binding → List PairId
  | .servo _ s => [Fin.ofNat 12 (3 * s.val), Fin.ofNat 12 (3 * s.val + 1), Fin.ofNat 12 (3 * s.val + 2)]
  | .stepper _ p => [Fin.ofNat 12 (2 * p.val), Fin.ofNat 12 (2 * p.val + 1)]
  | _ => []

def isServo : Binding → Bool
  | .servo .. => true
  | _ => false

def isStepper : Binding → Bool
  | .stepper .. => true
  | _ => false

/-- A stepper or step-generator strand (R164). -/
def isStepLike : Binding → Bool
  | .stepper .. => true
  | .stepgen _ => true
  | _ => false

/-- Is the strand an auxiliary strand (R146)? -/
def Strand.isAux (x : Strand) : Bool := isServo x.cfg.binding && x.cfg.aux.isSome

/-- Does the strand run a position ply (R76, R146, R154)? -/
def Strand.hasPosPly (x : Strand) : Bool :=
  match x.cfg.binding with
  | .servo .. => x.cfg.aux.isNone
  | .stepgen _ => x.cfg.fb.isSome
  | _ => false

/-- Does the strand run plies at all? -/
def Strand.hasPlies (x : Strand) : Bool := isServo x.cfg.binding || x.hasPosPly

/-- Velocity full scale of the plies in counts/s (R78, R84, R154). -/
def Strand.velFs (x : Strand) : Nat :=
  match x.cfg.binding with
  | .stepgen _ => ((x.cfg.step.map (·.velFs)).getD 0)
  | _ => ((x.cfg.vel.map (·.velFs)).getD 0)

/-- The strands that satisfy a test, in rising order. -/
def State.strandsWhere (s : State) (p : Strand → Bool) : List StrandId := indicesOf s.strands p

/-- The strands bound to a quad. -/
def State.strandsOfQuad (s : State) (q : QuadId) : List StrandId :=
  s.strandsWhere fun x => decide (bindQuad x.cfg.binding = some q)

/-- The strand that owns a pair of a quad (R131). -/
def State.ownerOf (s : State) (q : QuadId) (p : PairId) : Option StrandId :=
  (s.strandsOfQuad q).find? fun i => (ownedPairs s.strands[i].cfg.binding).contains p

/-- The strands bound to a feedback unit. -/
def State.strandsOfFb (s : State) (u : FbId) : List StrandId :=
  s.strandsWhere fun x => decide (x.cfg.fb = some u)

/-- The strand bound to a step generator. -/
def State.strandOfStg (s : State) (g : StgId) : Option StrandId :=
  (s.strandsWhere fun x => decide (x.cfg.binding = .stepgen g)).head?

/-- The key of a free value that concerns index `n`. -/
def State.key (s : State) (n : Nat) : Nat := s.free * 4096 + n

/-- Is the strand in one of these states? -/
def Strand.within (x : Strand) (l : List StrandSt) : Bool := l.contains x.st

/-- A strand whose reference follows a plan or a source rather than its actual position. -/
def Strand.moving (x : Strand) : Bool :=
  x.within [.run, .hold, .stopping] || (x.within [.fault] && x.reacting)

/-! Reference and actual. -/

/-- The speed of a unit's observer in 1/16 count/s (R78, R178). -/
def fbSpeed (key : Nat) (u : Fb) : Int := satInt 32 (roundFree key 20 ((u.vHat * 16 : Int) / ((2 ^ 32 : Nat) : Rat)))

/-- The measured speed of an auxiliary strand, with its sign (R148). -/
def Strand.auxSpeed (x : Strand) : Int :=
  match x.aux.phase with
  | .closed => x.aux.est
  | .off => 0
  | .align => 0
  | _ => let v := floorRat x.aux.speed
    if x.aux.fwd then v else -v

/-- The width of the measured word: w in serial modes, 32 otherwise (R176). -/
def wordBits (c : FbCfg) : Nat := if c.mode = 3 ∨ c.mode = 4 then c.bits.toNat else 32

/-- The present measurement as a number below 2^n. -/
def measured (u : Fb) : Nat := if u.cfg.mode = 3 ∨ u.cfg.mode = 4 then u.raw.toNat else u.count.toNat

/-- The extension of R176. -/
def extend (u : Fb) : Fb :=
  let n := wordBits u.cfg
  if n = 0 then u else { u with ext := toSigned 48 (wrapNat 48 (u.ext + toSigned n (wrapNat n ((measured u : Int) - u.ext)))) }

/-- Actual position (Q47.16) and velocity (1/16 count/s) of a strand (R76, R78, R157, R161). A bound unit's count is
read as the extension now gives it (log entry 169). -/
def actual (s : State) (i : StrandId) : Int × Int :=
  let x := s.strands[i]
  if x.isAux then (x.refPos, x.auxSpeed)
  else
  match x.cfg.fb with
  | some u => ((extend s.fbs[u]).ext * 65536, fbSpeed (s.key i) s.fbs[u])
  | none =>
    match x.cfg.binding with
    | .stepgen g => (s.stgs[g].ext * 65536, x.refVel)
    | .stepper .. => (x.msRef, x.refVel)
    | .can .. => (x.actPos, x.actVel)
    | _ => (x.refPos, x.refVel)

/-- Time in seconds from a strand's latest update to the start of the present cycle. -/
def sinceUpdate (s : State) (x : Strand) : Rat :=
  (((s.seq.cycle - x.updCycle).toNat * s.tNs : Nat) : Rat) / (1000000000 : Nat)

/-- The reference at the start of the present cycle, for a change that begins there: the running stop or plan, or
else the latest update extrapolated with its velocity (R100, R103, R122). -/
def refNow (s : State) (i : StrandId) : Int × Int × Int :=
  let x := s.strands[i]
  let k := s.key i
  match x.stop, x.plan with
  | some r, _ => let (p, v, a, _) := r.plan.eval k; (p, v, a)
  | none, some p => let (p, v, a, _) := p.eval k; (p, v, a)
  | none, none =>
    if x.moving then
      (x.refPos + roundFree k 21 ((x.refVel : Rat) * sinceUpdate s x * (4096 : Nat)), x.refVel, x.refAcc)
    else (x.refPos, x.refVel, 0)

/-! Pairs and generators. -/

/-- Write a force value into every pair of a strand. -/
def State.forceStrand (s : State) (i : StrandId) (v : Nat) : State :=
  let b := s.strands[i].cfg.binding
  match bindQuad b with
  | some q => s.modQuad q fun x => withForce (forceBits x.force (ownedPairs b) v) x
  | none => s

/-- The drive of TABLE_STEP on a strand's position ends (R163). -/
def State.endTable (s : State) (i : StrandId) : State :=
  match s.strands[i].cfg.binding with
  | .stepper q p => s.modQuad q fun x => { x with tableDrive := x.tableDrive.set p none }
  | _ => s

/-- Switch a strand off: its pairs take 0b11 (R136). -/
def State.switchOff (s : State) (i : StrandId) : State := (s.forceStrand i 3).endTable i

/-- An immediate stop of a generator: its queue is flushed, and no further step follows (R164). -/
def flushStg (x : Stg) : Stg := { x with queue := [], current := none, idle := true }

/-- Category 0 (R90, R136, R164): the strand switches off; a generator flushes; a stepper or generator strand with no
feedback unit loses its position. -/
def State.immediate (s : State) (i : StrandId) : State :=
  let s := s.switchOff i
  let x := s.strands[i]
  let s := match x.cfg.binding with
    | .stepgen g => s.modStg g flushStg
    | _ => s
  if isStepLike x.cfg.binding && x.cfg.fb.isNone then s.modStrand i fun x => { x with uncertain := true } else s

/-! Groups (R104, R110). -/

/-- The group a strand belongs to. -/
def groupOf (s : State) (i : StrandId) : Option (Fin 32) :=
  (List.finRange 32).find? fun g => s.groups[g].members.contains i

/-- Does the strand's group run it along a path now? -/
def onPath (s : State) (i : StrandId) : Bool :=
  match groupOf s i with
  | some g => s.groups[g].running && !s.groups[g].left.contains i
  | none => false

/-- A member leaves its running group: the others come to standstill along the path with member 0's d_q, and the
queue is discarded there (R110). A stop that is running already keeps the larger deceleration (log entry 24). -/
def State.leavePath (s : State) (i : StrandId) : State :=
  match groupOf s i with
  | none => s
  | some g =>
    if !s.groups[g].running then s
    else
      let dq : Rat := match s.groups[g].members with
        | m :: _ => (s.strands[m].cfg.dq : Rat)
        | [] => 0
      s.modGroup g fun x => { x with
        stopping := some (match x.stopping with
          | some d => max d dq
          | none => dq)
        left := if x.left.contains i then x.left else x.left ++ [i] }

/-! Stops. -/

/-- A move that waited for the running acceleration to reach zero is given up (R101): its command ends with REFUSED
(log entry 25). -/
def State.dropDeferred (s : State) (i : StrandId) : State :=
  match s.strands[i].deferred with
  | none => s
  | some (_, cmd) =>
    let s := s.modStrand i fun x => { x with deferred := none }
    match originOf cmd with
    | some o => s.finish cmd o stRefused []
    | none => s

/-- Give up every source of motion of a strand (R103, R122): its plan, its moves, its engagement, its hold by command
and its place on a path. -/
def State.giveUp (s : State) (i : StrandId) : State :=
  ((s.leavePath i).dropDeferred i).modStrand i fun x => { x with
    plan := none, stored := none, engage := none, holdCmd := false, extOn := false }

/-- Enter a state; entry into HOLD, FAULT or SAFE raises vector 11 (R90). -/
def State.enter (s : State) (i : StrandId) (st : StrandSt) : State :=
  if s.strands[i].st = st then s
  else
    let s := s.modStrand i fun x => { x with st := st }
    if st = .hold ∨ st = .fault ∨ st = .safe then s.raise 11 else s

/-- Begin a stop from the present reference. Of two stops the one with the shorter distance continues (R91); where
the running one continues it keeps its own end, unless the new one ends in FAULT or in SS1's standstill (log
entry 26). -/
def State.beginStop (s : State) (i : StrandId) (quick : Bool) (decel : Nat) (after : StopEnd) : State :=
  let x := s.strands[i]
  let (pos, vel, acc) := refNow s i
  let d := if quick && decel == 0 then x.cfg.dq else decel
  let p := planStop (profileOf x.cfg) pos vel acc quick d
  let after := if x.ss1 && after != .toFault then .held else after
  let r : StopRun := match x.stop with
    | some r =>
      if r.plan.left ≤ p.left then { r with
        after := if after == .toFault || after == .held || x.within [.run, .hold] then after else r.after }
      else ⟨p, quick, after, p.ticks⟩
    | none => ⟨p, quick, after, p.ticks⟩
  (s.giveUp i).modStrand i fun x => { x with
    stop := some r, refPos := pos, refVel := vel, refAcc := acc
    updCycle := s.seq.cycle, standstill := false, atTarget := false, moveEnded := false, source := 0 }

/-- End all motion at once in category 0; the reference stands where it is and follows the actual position from the
next update on (log entry 27). -/
def State.categoryZero (s : State) (i : StrandId) : State :=
  let (pos, _, _) := refNow s i
  ((s.giveUp i).immediate i).modStrand i fun x => { x with
    stop := none, refPos := pos, refVel := 0, refAcc := 0, reacting := false, ss1 := false, switchOn := false, source := 0
    ply := { x.ply with velRef := 0 }, aux := x.aux.rest }

/-! Fault reactions (R92, R93). -/

def causeOvercurrent : Nat := 0
def causeGateFault : Nat := 1
def causeFeedback : Nat := 2
def causeFollowing : Nat := 3
def causeOverrun : Nat := 4
def causePubMissing : Nat := 5
def causeStopTimeout : Nat := 6
def causeSourceLost : Nat := 7
def causeEngine : Nat := 8
def causeStall : Nat := 9
def causeAuxSync : Nat := 10
def causeCurrentSum : Nat := 11
def causeExtDrive : Nat := 12
def causePoisoned : Nat := 13
def causeUser : Nat := 14

/-- The reactions of R92. -/
inductive Reaction | cat0 | cat1 | quick
deriving DecidableEq, Repr

/-- The reaction STRAND_CONFIG selects (R92). -/
def configuredReaction (c : StrandCfg) : Reaction :=
  match c.reaction with
  | 0 => .cat0
  | 1 => .cat1
  | _ => .quick

/-- A cause's reaction on a strand (R92); every fault of a stepper or generator strand is an immediate stop (R164). -/
def reactionOf (c : StrandCfg) (cause : Nat) : Reaction :=
  if isStepLike c.binding then .cat0
  else if [causeOvercurrent, causeGateFault, causeStopTimeout, causeAuxSync, causeCurrentSum, causePoisoned].contains cause
  then .cat0
  else if cause = causeFeedback ∧ (bindQuad c.binding).isSome then .cat0
  else if cause = causeEngine then .cat1
  else configuredReaction c

/-- The strand's state vector as the fixer log carries it: eight values (R93, R288), the position states first, then velocity,
then current (log entry 177). -/
def Strand.context (x : Strand) : List Int :=
  let l := x.ply.xPos ++ x.ply.xVel ++ x.ply.xCur
  l.take 8 ++ List.replicate (8 - l.length) 0

/-- Start a reaction on a strand in FAULT; a later one counts only where it stops in a shorter distance (R93). -/
def State.react (s : State) (i : StrandId) (r : Reaction) : State :=
  match r with
  | .cat0 => s.categoryZero i
  | .cat1 => (s.beginStop i false 0 .toFault).modStrand i fun x => { x with reacting := true }
  | .quick => (s.beginStop i true 0 .toFault).modStrand i fun x => { x with reacting := true }

/-- A cause acts on a strand (R90, R92, R93). -/
def State.strandCause (s : State) (i : StrandId) (cause : Nat) : State :=
  let x := s.strands[i]
  let mark := fun (s : State) => s.modStrand i fun x => { x with fault := setBit x.fault cause true }
  let log := fun (s : State) => s.logRec 1 cause i 0 x.context 0
  match x.st with
  | .off => s
  | .safe => log (mark s)
  | .fault => if x.reacting then (mark s).react i (reactionOf x.cfg cause) else mark s
  | .ready => (log ((mark s).enter i .fault)).categoryZero i
  | _ => (log ((mark s).enter i .fault)).react i (reactionOf x.cfg cause)

/-- A cause occurs on a strand: an internal event, which takes effect at the strand's next update (R90). A strand in OFF
ignores it. -/
def State.raiseCause (s : State) (i : StrandId) (cause : Nat) : State :=
  if s.strands[i].st = .off then s else s.modStrand i fun x => { x with raised := setBit x.raised cause true }

/-- The same cause on several strands. -/
def State.raiseCauses (s : State) (l : List StrandId) (cause : Nat) : State :=
  l.foldl (fun s i => s.raiseCause i cause) s

/-- At an update, the causes that have occurred and meet a test act (R90, R93). -/
def State.actCauses (s : State) (i : StrandId) (p : Nat → Bool) : State :=
  let r := s.strands[i].raised
  ((List.range 15).filter fun c => r.getLsbD c && p c).foldl (fun s c =>
    (s.modStrand i fun x => { x with raised := setBit x.raised c false }).strandCause i c) s

/-! SAFE (R90, R145). -/

/-- Are both gate enables of a quad high? -/
def gatesHigh (s : State) (q : QuadId) : Bool := s.quads[q].gateA && s.quads[q].gateB

/-- Bring one kind-1 strand in line with its quad's gate enables at its update: into SAFE where one has gone low, out of
it when both are high again. -/
def State.followGates (s : State) (i : StrandId) : State :=
  let x := s.strands[i]
  match bindQuad x.cfg.binding with
  | none => s
  | some q =>
    let s := if x.safeDue then s.modStrand i fun x => { x with safeDue := false } else s
    if x.safeDue || !gatesHigh s q then
      if x.within [.ready, .run, .hold, .stopping, .fault] then (s.categoryZero i).enter i .safe else s
    else if x.st = .safe then
      if x.fault ≠ 0 then (s.modStrand i fun x => { x with reacting := false }).enter i .fault
      else s.enter i (if x.rearm then .off else .ready)
    else s

/-- A gate enable of a quad goes low: its strands enter SAFE at their next update (R90). -/
def State.gatesFall (s : State) (q : QuadId) : State :=
  (s.strandsOfQuad q).foldl (fun s i => s.modStrand i fun x => { x with safeDue := true }) s

/-! The end of a stop (R90, R91). -/

/-- Standstill has come: the stop's end takes place, at the strand's update. -/
def State.stopDone (s : State) (i : StrandId) : State :=
  let x := s.strands[i]
  match x.stop with
  | none => s
  | some r =>
    let rest := fun (s : State) => s.modStrand i fun x => { x with stop := none, refVel := 0, refAcc := 0 }
    match r.after with
    | .toReady => ((rest s).switchOff i).enter i .ready
    | .toRun => (rest s).enter i .run
    | .toFault => ((rest s).switchOff i).modStrand i fun x => { x with reacting := false }
    | .held => s

/-- Has the strand's reference ended (R91)? -/
def Strand.refEnded (x : Strand) : Bool :=
  match x.stop, x.plan with
  | some r, _ => decide (r.planned ≤ r.plan.t)
  | none, some p => decide (p.ticks ≤ p.t) && p.endVel == 0
  | none, none => !x.moving || x.refVel == 0

/-- Is the strand at standstill (R91)? A strand with plies needs four quiet ply updates; one with none needs
reference velocity 0. -/
def Strand.atStandstill (x : Strand) : Bool :=
  x.refEnded && (if x.hasPlies then decide (4 ≤ x.ply.stillCount) else x.refVel == 0)

end Sys2Proof.Machine
end

