-- ==== Sys2Proof/Machine/Strands.lean ====
section
/-! DEFINITION. What the strand and profile commands check and do (R72, R74, R76, R83 to R103): for each one the
status its check gives in a state, and the state its set leaves at its effective cycle. -/

namespace Sys2Proof.Machine

/-- The strand an argument names; the ranges of Args.lean keep it below 256. -/
def strandIx (h : Half) : StrandId := Fin.ofNat 256 h.toNat

/-- OK where a condition holds, REFUSED where it does not (R63). -/
def allowIf (c : Bool) : Half := if c then stOk else stRefused

/-- The two rows of the matrix that several commands share (R74). -/
def cfgStates : List StrandSt := [.off, .ready, .fault, .safe]
def coeffStates : List StrandSt := [.off, .ready, .run, .hold, .fault, .safe]

/-- Do all strands bound to a quad allowIf a configuration command (R74)? -/
def quadStatesOk (s : State) (q : QuadId) : Bool := (s.strandsOfQuad q).all fun i => s.strands[i].within cfgStates

/-! The mix of a quad (R130). -/

/-- Does a mix place a servo slot at `k`? -/
def mixServo (mix : BitVec 2) (k : SlotId) : Bool := if k.val < 2 then !mix.getLsbD 1 else !mix.getLsbD 0

/-- Does a mix place a stepper position at `p`? -/
def mixStepper (mix : BitVec 2) (p : Fin 6) : Bool := if p.val < 3 then mix.getLsbD 1 else mix.getLsbD 0

/-! Latency and placement (R14, R22, R141). -/

def osr3Of (c : BitVec 3) : Nat :=
  match c.toNat with
  | 0 => 16
  | 1 => 32
  | 2 => 64
  | 3 => 128
  | _ => 256

def osr2Of (c : BitVec 2) : Nat := 2 ^ (c.toNat + 2)

/-- A divider as the hardware takes it (R152). -/
def divOf (d : BitVec 7) : Nat := max 8 (min 80 d.toNat)

/-- One carrier unit in ns. -/
def unitNs : Rat := (625 : Rat) / (8000 : Nat)

/-- The update interval of a quad in ns (R133). -/
def updateNs (c : QuadCfg) : Rat := (c.period.toNat : Rat) * unitNs / (if c.dbl && !c.saw then 2 else 1)

/-- The update interval in units, halved once more as a rational. -/
def updateUnits (c : QuadCfg) : Rat := (c.period.toNat : Rat) / (if c.dbl && !c.saw then 2 else 1)

/-- The default stagger: q × t_u / 12 to the nearest unit, halves up (R133). -/
def defaultPhase (q : QuadId) (c : QuadCfg) : Nat := (floorRat ((q.val : Rat) * updateUnits c / 12 + 1 / 2)).toNat

/-- The servo slots of a quad that have a bound strand. -/
def boundSlots (s : State) (q : QuadId) : List SlotId :=
  (List.finRange 4).filter fun k => (s.strandsWhere fun x => decide (x.cfg.binding = .servo q k)) != []

/-- Instructions of one current-ply update on an engine: 200, or the declared count of its program and the runtime's
36 (R21, R22, R211). -/
def currentCount (s : State) (e : EngineId) : Nat :=
  match s.roles[e].image with
  | some im => im.counts.getD 0 0 + 36
  | none => 200

/-- The engine the distaff places a slot's current ply on (R14 for equal carriers with the default stagger; the manual
leaves the others open and the model places them the same way, log entry 157). -/
def slotEngine (q : QuadId) (k : SlotId) : EngineId := Fin.ofNat 17 (4 * (q.val % 4) + k.val)

/-- The engine that now holds the work R14 gives to engine `n`: that engine until a retirement or a fault moved its
work; where no engine holds it, the lowest-numbered healthy one (R187, R216, R279, R280). -/
def standIn (s : State) (n : EngineId) : EngineId :=
  let live := fun (e : EngineId) => s.roles[e].inService && !s.roles[e].spare
  (((List.finRange 17).find? fun e => live e && decide (s.roles[e].home = some n)).orElse fun _ =>
    (List.finRange 17).find? live).getD n

/-- The engine that holds a servo slot, or would take it. -/
def engineOfSlot (s : State) (q : QuadId) (k : SlotId) : EngineId :=
  ((List.finRange 17).find? fun e => s.roles[e].slots.toList.any fun o => o.any fun x => decide (x.quad = q ∧ x.slot = k)).getD
    (standIn s (slotEngine q k))

/-- Do all quads with a carrier and a bound slot keep equal carriers and the default stagger (R14)? -/
def defaultStagger (s : State) : Bool :=
  let used := (List.finRange 12).filter fun q => s.quads[q].carrierSet && boundSlots s q != []
  used.all (fun q => s.quads[q].sh.phase.toNat == defaultPhase q s.quads[q].sh) &&
    match used with
    | [] => true
    | r :: _ => used.all fun q => s.quads[q].sh.period == s.quads[r].sh.period &&
        s.quads[q].sh.dbl == s.quads[r].sh.dbl && s.quads[q].sh.saw == s.quads[r].sh.saw

/-- The worst case of R22 in ns for one slot of a quad. -/
def latencyNs (s : State) (q : QuadId) (k : SlotId) : Rat :=
  let c := s.quads[q].sh
  let tMod : Rat := (divOf c.div : Rat) * (5 / 2)
  let tc : Rat := (currentCount s (engineOfSlot s q k) : Rat)
  let w : Rat := if defaultStagger s then 1 else 2
  (osr3Of c.osr3 : Rat) * tMod * (3 / 2) + 20 + w * tc + 16 + 8 + tc + 10

/-- Does the sum of R22 fit the update interval of every bound slot of a quad with a carrier (R14, R141)? -/
def timingOk (s : State) (q : QuadId) : Bool :=
  !s.quads[q].carrierSet || (boundSlots s q).all fun k => decide (latencyNs s q k ≤ updateNs s.quads[q].sh)

/-- Does it fit for every quad? -/
def allTimingOk (s : State) : Bool := (List.finRange 12).all (timingOk s)

/-! STRAND_BIND (R76, R153). -/

/-- The binding the arguments name. -/
def bindingOf (kind : Byte) (target : Half) : Binding :=
  let t := target.toNat
  match kind.toNat with
  | 1 => if t < 48 then .servo (Fin.ofNat 12 (t / 4)) (Fin.ofNat 4 (t % 4))
      else .stepper (Fin.ofNat 12 ((t - 256) / 8)) (Fin.ofNat 6 (t % 8))
  | 2 => .stepgen (Fin.ofNat 16 t)
  | 3 => .can (Fin.ofNat 4 (t / 256)) (t % 256)
  | _ => .virt

/-- The settings of R390 for a cycle time in ns: D_s, D_p and k_p. -/
def defaultRates (t : Nat) : Nat × Nat × Nat :=
  ((31250 + t - 1) / t, if 15625 ≤ t then 1 else (15625 + t - 1) / t, if 15625 ≤ t then min 255 (t / 15625) else 1)

/-- Instructions of one ply pair and of one strand update on an engine: 400 and 300, or the declared counts of its program and
the runtime's 20 and 24 (R21, R211). -/
def plyCounts (s : State) (e : EngineId) : Nat × Nat :=
  match s.roles[e].image with
  | some im => (im.counts.getD 1 0 + 20, im.counts.getD 2 0 + 24)
  | none => (400, 300)

/-- The engine load of R21 on one engine, in instructions per second, of all strands but one. -/
def engineLoad (s : State) (but : StrandId) (e : EngineId) : Nat :=
  let rate := fun (n ps : Nat) => n * 1000000000000 / max 1 ps
  let slots := s.roles[e].slots.toList.filterMap fun o => o.map fun x =>
    if s.quads[x.quad].carrierSet then currentCount s e * rate 1 ((updateNs s.quads[x.quad].sh * 1000).num.toNat / (updateNs s.quads[x.quad].sh * 1000).den) else 0
  let strands := (s.strandsWhere fun x => decide (x.engine = e) && x.cfg.binding != .unbound).filterMap fun i =>
    if i = but then none
    else
      let c := s.strands[i].cfg
      some ((plyCounts s e).2 * rate 1 (c.dS * s.tNs * 1000) + (if (c.pos.isSome || c.vel.isSome) then (plyCounts s e).1 * rate c.kP (c.dP * s.tNs * 1000) else 0))
  slots.sum + strands.sum

/-- The engine in service with the least load, the lowest-numbered of several (R21, log entry 28). -/
def leastLoaded (s : State) (but : StrandId) : EngineId :=
  let live := (List.finRange 17).filter fun e => s.roles[e].inService && !s.roles[e].spare
  let loads := live.map fun e => (e, engineLoad s but e)
  match loads with
  | [] => 0
  | a :: r => (r.foldl (fun m x => if x.2 < m.2 then x else m) a).1

/-- Give a strand its engine: a servo slot the engine of its current ply (R14, R77), and where that engine's work has moved, the
engine that holds it now; any other strand the engine with the least load (R21). -/
def engineFor (s : State) (i : StrandId) (b : Binding) : EngineId :=
  match b with
  | .servo q k => standIn s (slotEngine q k)
  | _ => leastLoaded s i

/-- Strands of an engine whose updates fall together with a phase of D_s. -/
def phaseLoad (s : State) (i : StrandId) (e : EngineId) (dS p : Nat) : Nat :=
  ((List.finRange 256).filter fun j =>
    let c := s.strands[j].cfg
    decide (j ≠ i) && decide (c.binding ≠ .unbound) && decide (s.strands[j].engine = e) &&
      decide (((p : Int) - c.phase) % (Nat.gcd (max 1 dS) (max 1 c.dS) : Nat) = 0)).length

/-- The phase the distaff chooses: one of those that share the engine's strands most evenly over the cycles (R13); which
of several, the manual leaves open (log entry 15). -/
def choosePhase (s : State) (i : StrandId) (e : EngineId) (dS : Nat) : Nat :=
  let load := phaseLoad s i e dS
  let least := (List.range dS).foldl (fun m p => min m (load p)) (load 0)
  let best := (List.range dS).filter fun p => load p == least
  best.getD (Config.phaseChoice (s.key i) i % best.length) 0

/-- An engine that takes a current ply is awake, and keeps a latency tolerance of 0 (R16, R35). -/
def State.holdAwake (s : State) (e : EngineId) : State :=
  (s.wakeFn (engineFn e)).modPwr (modPwrFn (engineFn e) fun x => { x with tol := 0 })

/-- Take a strand's slot off the engine that holds it, and put a newly bound one on its engine. -/
def State.placeSlot (s : State) (old new : Binding) : State :=
  let drop := fun (s : State) =>
    match old with
    | .servo q k => (List.finRange 17).foldl (fun s e => s.modRole e fun r => { r with
        slots := r.slots.map fun o => match o with
          | some x => if x.quad = q ∧ x.slot = k then none else some x
          | none => none }) s
    | _ => s
  match new with
  | .servo q k =>
    let s := drop s
    let e := standIn s (slotEngine q k)
    match (List.finRange 4).find? fun j => s.roles[e].slots[j].isNone with
    | some j =>
      (s.modRole e fun r => { r with slots := r.slots.set j (some ⟨q, k, 0, false⟩) }).holdAwake e
    | none => s
  | _ => drop s

/-- A strand that leaves a CAN node takes its unsent drive frame and its count of missed status frames with it (log
entry 156). -/
def State.leaveCan (s : State) (i : StrandId) (old : Binding) : State :=
  match old with
  | .can c _ => s.modCan c fun x => { x with
      drives := x.drives.filter fun e => e.1 != i
      silent := x.silent.filter fun e => e.1 != i }
  | _ => s

/-- Does an input's sinc2 value exceed its limit now (R142)? -/
def overLimit (q : Quad) (p : PairId) : Bool :=
  q.cfg.limit[p] != 0 && decide ((q.cfg.limit[p].toNat : Int) < |q.fast[p].toInt|)

/-- Is gate-fault input `g` active, after level selection (R151)? -/
def gateLive (q : Quad) (g : SlotId) : Bool := q.gfPin.getLsbD g.val == q.cfg.gfLevel.getLsbD g.val

/-- Is gate-fault input `g` enabled and active (R143)? -/
def gateActive (q : Quad) (g : SlotId) : Bool := q.cfg.gfEnable.getLsbD g.val && gateLive q g

/-- Set the trip latch of some pairs. -/
def setTrips (t : BitVec 12) (ps : List PairId) : BitVec 12 := ps.foldl (fun t p => setBit t p.val true) t

/-- An input of an owned axis trips: its axis's latches set and OVERCURRENT is raised; an input no axis owns is
ignored (R131, R142). -/
def State.tripInput (s : State) (q : QuadId) (p : PairId) : State :=
  match s.ownerOf q p with
  | none => s
  | some i =>
    (s.modQuad q fun x => { x with
      trip := setTrips x.trip (ownedPairs s.strands[i].cfg.binding), tripped := setBit x.tripped p.val true }).raiseCause i
      causeOvercurrent

/-- The pairs a gate-fault input guards (R131). -/
def guardedPairs (g : SlotId) : List PairId :=
  [Fin.ofNat 12 (3 * g.val), Fin.ofNat 12 (3 * g.val + 1), Fin.ofNat 12 (3 * g.val + 2)]

/-- A live gate-fault input has been active (R151). -/
def markGate (g : SlotId) (x : Quad) : Quad := if gateLive x g then { x with gfEvent := setBit x.gfEvent g.val true } else x

/-- A live gate-fault input shows in its event bit; an enabled one sets the trips of its owned pairs and raises GATE_FAULT on
every strand that owns one (R143, R151). -/
def State.gateLatch (s : State) (q : QuadId) (g : SlotId) : State :=
  if !quadEnabled s q then s
  else if !gateActive s.quads[q] g then s.modQuad q (markGate g)
  else
    let owned := (guardedPairs g).filter fun p => (s.ownerOf q p).isSome
    let s := s.modQuad q fun x => { x with gfEvent := setBit x.gfEvent g.val true, trip := setTrips x.trip owned }
    s.raiseCauses ((s.strandsOfQuad q).filter fun i => (guardedPairs g).any fun p => (ownedPairs s.strands[i].cfg.binding).contains p)
      causeGateFault

/-- The inputs of the pairs a strand has come to own act on it as they stand: one that is stuck or over its limit trips, and an
active gate-fault input latches (R142, R143). -/
def State.meetInputs (s : State) (i : StrandId) : State :=
  match bindQuad s.strands[i].cfg.binding with
  | none => s
  | some q =>
    let ps := ownedPairs s.strands[i].cfg.binding
    let hot := ps.filter fun p => quadEnabled s q && s.quads[q].cfg.clkEn && (s.quads[q].stuck.getLsbD p.val || overLimit s.quads[q] p)
    let gated := ps.filter fun p => quadEnabled s q && gateActive s.quads[q] (Fin.ofNat 4 (p.val / 3))
    let s := if hot.isEmpty then s else
      (s.modQuad q fun x => { x with trip := setTrips x.trip ps, tripped := setTrips x.tripped hot }).raiseCause i causeOvercurrent
    if gated.isEmpty then s else (s.modQuad q fun x => { x with trip := setTrips x.trip gated }).raiseCause i causeGateFault

/-- A bound strand takes its place: the slot on the engine of its current ply, its own engine, and the functions it needs awake
(R14, R35, R77). `old` is its binding before. -/
def State.seat (s : State) (i : StrandId) (old : Binding) : State :=
  let c := s.strands[i].cfg
  let e := engineFor s i c.binding
  let s := (s.placeSlot old c.binding).modStrand i fun x => { x with engine := e, uncertain := isStepLike c.binding && c.fb.isNone }
  let s := (s.switchOff i).wakeFn (engineFn e)
  let s := match bindQuad c.binding with
    | some q => s.wakeFn (quadFn q)
    | none => s
  let s := match c.fb with
    | some u => s.wakeFn (fbFn u)
    | none => s
  s.meetInputs i

def applyBind (strand : StrandId) (b : Binding) (fb : Option FbId) (s : State) : State :=
  let x := s.strands[strand]
  let (dS, dP, kP) := defaultRates s.tNs
  let e := engineFor s strand b
  let cfg := { x.cfg with binding := b, fb := fb }
  let cfg := if cfg.configured then cfg
    else { cfg with
      dS := dS, dP := dP, kP := kP, phase := choosePhase s strand e dS, reaction := 1, overrunLimit := 0 }
  let cfg := { cfg with dq := quickDecel (profileOf cfg), dqStop := false }
  let s := (s.switchOff strand).leaveCan strand x.cfg.binding
  (s.modStrand strand fun x => { x with cfg := cfg }).seat strand x.cfg.binding

def checkBind (strand : StrandId) (b : Binding) (fb : Option FbId) (s : State) : Half :=
  let free := (List.finRange 256).all fun j => j = strand || decide (s.strands[j].cfg.binding ≠ b)
  let ok := s.strands[strand].within [.off] &&
    match b with
    | .servo q k => quadEnabled s q && mixServo s.quads[q].cfg.mix k && free &&
        decide ((s.roles[engineFor s strand b].slots.toList.filter fun o =>
          match o with
          | some x => decide (x.quad ≠ q ∨ x.slot ≠ k)
          | none => false).length < 3) &&
        (List.finRange 4).all (fun j => j = k || decide (engineOfSlot s q j ≠ engineFor s strand b) ||
          !(s.roles[engineFor s strand b].slots.toList.any fun o => o.any fun x => decide (x.quad = q ∧ x.slot = j))) &&
        allTimingOk (applyBind strand b fb s)
    | .can c n => free && s.cans[c].cfg.fd && decide (s.cans[c].cfg.driveBase + n ≤ 0x7FF) &&
        decide (s.cans[c].cfg.statusBase + n ≤ 0x7FF)
    | .stepper q p => quadEnabled s q && mixStepper s.quads[q].cfg.mix p && free
    | .virt => true
    | .unbound => true
    | _ => free
  allowIf ok

/-- The feedback unit an fb argument names; 0xFF is none. -/
def fbArg (fb : Byte) : Option FbId := fin? 48 fb.toNat

/-! STRAND_CONFIG (R13, R17, R90). -/

/-- Do dividers meet R13 at a cycle of `t` ns? -/
def ratesOk (t dS kP dP : Nat) : Bool := decide (31250 ≤ t * dS) && decide (kP * 15625 ≤ dP * t)

def checkConfig (strand : StrandId) (dS kP dP : Byte) (s : State) : Half :=
  allowIf (s.strands[strand].within cfgStates && ratesOk s.tNs dS.toNat kP.toNat dP.toNat)

def applyConfig (strand : StrandId) (dS phase kP dP reaction limit : Byte) (s : State) : State :=
  let ph := if phase = 0xFF then choosePhase s strand s.strands[strand].engine dS.toNat else phase.toNat
  let s := s.modStrand strand fun x => { x with
    cfg := { x.cfg with
      configured := true, dS := dS.toNat, phase := ph, kP := kP.toNat, dP := dP.toNat
      reaction := reaction.toNat, overrunLimit := limit.toNat }
    rearm := x.rearm || x.within [.fault, .safe] }
  if s.strands[strand].st = .ready then (s.switchOff strand).enter strand .off else s

/-! PLY_COEFF (R83 to R85, R154). -/

/-- Does a binding take stepper blocks with ply 0 (R154)? -/
def needsFs (c : StrandCfg) : Bool :=
  match c.binding with
  | .stepgen _ => c.fb.isSome
  | _ => false

/-- The state conditions, then the block itself. -/
def checkCoeff (strand : StrandId) (ply : Nat) (bs : List Byte) (s : State) : Half :=
  let x := s.strands[strand]
  let b := x.cfg.binding
  if isStepLike b && (ply == 1 || (ply == 2 && (isStepper b || x.cfg.fb.isNone))) then stRefused
  else
    let good := if isStepLike b && ply == 0 then (stepperBlock? (needsFs x.cfg) bs).isSome else (plyBlock? ply bs).isSome
    if !good then stBadArg else allowIf (x.within coeffStates)

/-- A state vector under a new block: carried over, or cleared where n or s_state changes (R85). -/
def switchStates (old : Option PlyBlock) (new : PlyBlock) (x : List Int) : List Int :=
  match old with
  | some o => if o.n = new.n ∧ o.sState = new.sState then x else List.replicate new.n 0
  | none => List.replicate new.n 0

/-- Does the switch clear the state vector of a loaded block (R85)? -/
def clearsStates (old : Option PlyBlock) (new : PlyBlock) : Bool :=
  match old with
  | some o => decide (o.n ≠ new.n ∨ o.sState ≠ new.sState)
  | none => false

def applyCoeff (strand : StrandId) (ply : Nat) (bs : List Byte) (s : State) : State :=
  let x := s.strands[strand]
  if isStepLike x.cfg.binding && ply == 0 then
    match stepperBlock? (needsFs x.cfg) bs with
    | some b => s.modStrand strand fun x => { x with cfg := { x.cfg with step := some b } }
    | none => s
  else
    match plyBlock? ply bs with
    | none => s
    | some b => s.modStrand strand fun x =>
        match ply with
        | 0 => { x with
            cfg := { x.cfg with cur := some b }
            ply := { x.ply with
              xCur := switchStates x.cfg.cur b x.ply.xCur, cleared := setBit x.ply.cleared 0 (x.ply.cleared.getLsbD 0 || clearsStates x.cfg.cur b) } }
        | 1 =>
          let c := { x.cfg with vel := some b }
          { x with
            cfg := if c.profile.isNone && !c.dqStop then { c with dq := quickDecel (profileOf c) } else c
            ply := { x.ply with
              xVel := switchStates x.cfg.vel b x.ply.xVel, cleared := setBit x.ply.cleared 1 (x.ply.cleared.getLsbD 1 || clearsStates x.cfg.vel b) } }
        | _ => { x with
            cfg := { x.cfg with pos := some b }
            ply := { x.ply with
              xPos := switchStates x.cfg.pos b x.ply.xPos, cleared := setBit x.ply.cleared 2 (x.ply.cleared.getLsbD 2 || clearsStates x.cfg.pos b) } }

/-! STRAND_ARM and STRAND_ENABLE (R90). -/

/-- Are all blocks loaded that a strand's binding needs (R84, R154)? -/
def blocksLoaded (s : State) (x : Strand) : Bool :=
  match x.cfg.binding with
  | .unbound => false
  | .servo .. => x.cfg.cur.isSome && x.cfg.vel.isSome && x.cfg.pos.isSome
  | .stepper q p => x.cfg.step.isSome && s.quads[q].choppers[p].isSome
  | .stepgen _ => x.cfg.step.isSome && (x.cfg.fb.isNone || x.cfg.pos.isSome)
  | _ => true

/-- Is FEEDBACK_FAULT latched in a unit (bit 10 of FB_STAT, R175)? -/
def fbFaulted (u : Fb) : Bool := u.stat.getLsbD 10

def fbOk (s : State) (c : StrandCfg) : Bool :=
  match c.fb with
  | some u => !fbFaulted s.fbs[u]
  | none => true

def checkArm (strand : StrandId) (s : State) : Half :=
  let x := s.strands[strand]
  allowIf (x.within [.off] && blocksLoaded s x && fbOk s x.cfg)

/-- A strand takes its actual position as its reference (R90, R116). -/
def State.trackActual (s : State) (i : StrandId) : State :=
  let (p, v) := actual s i
  s.modStrand i fun x => { x with
    actPos := p, actVel := v, refPos := p, refVel := if x.cfg.fb.isSome then v else 0, refAcc := 0
    updCycle := s.seq.cycle }

def applyArm (strand : StrandId) (s : State) : State :=
  ((s.trackActual strand).modStrand strand fun x => { x with rearm := false }).enter strand .ready

def checkEnable (strand : StrandId) (s : State) : Half :=
  let x := s.strands[strand]
  allowIf (x.within [.ready] &&
    match bindQuad x.cfg.binding with
    | some q => gatesHigh s q
    | none => true)

/-- Clear the states named in a clamp mask, and in the velocity ply the one integ names (R90). -/
def clearIntegrators (b : Option PlyBlock) (x : List Int) : List Int :=
  match b with
  | none => x
  | some b => x.mapIdx fun j v => if b.clamp.any (fun c => bit c j) || b.integ == some j then 0 else v

/-- The microstep address of a position in microsteps, 10 bits (R155). -/
def addrOf (m : Int) : Nat := (m % 1024).toNat

/-- The microstep target of a stepper strand at a position in Q47.16, in 1/65,536 microstep (R157): a whole number by the ratio of
its block with a feedback unit, the reference itself without one. -/
def microTarget (c : StrandCfg) (pos : Int) : Int :=
  match c.fb, c.step with
  | some _, some b => floorRat (((pos : Rat) / 65536) * b.msNum / b.cntDen + 1 / 2) * 65536
  | _, _ => pos

/-- Where the sequencer of a strand that is enabled stands: at its unit's position, or where it last stood (R157, R165). -/
def seqStart (s : State) (i : StrandId) (x : Strand) : Int :=
  if x.cfg.fb.isSome then microTarget x.cfg s.strands[i].refPos else x.msRef

/-- STRAND_ENABLE takes effect (R90). The integrator states clear; id_ref starts from 0, and the other ply states carry on
(log entry 160). -/
def applyEnable (strand : StrandId) (s : State) : State :=
  let x := s.strands[strand]
  let s := s.trackActual strand
  let s := match x.cfg.binding with
    | .stepper q p =>
      let addr := match s.quads[q].tableDrive[p] with
        | some (a, _) => a
        | none => if x.cfg.fb.isSome then addrOf (microTarget x.cfg s.strands[strand].refPos / 65536) else x.msAddr
      (s.modStrand strand fun x => { x with
        msAddr := addr, holdCur := false, stillNs := 0
        msRef := seqStart s strand x, msTo := seqStart s strand x, msSpan := 0, msPast := 0 }).modQuad q fun u => { u with
        tableDrive := u.tableDrive.set p none }
    | _ => s
  let s := (List.finRange 17).foldl (fun s e => s.modRole e fun r => { r with
    slots := r.slots.map fun o => match o with
      | some k => if x.cfg.binding = .servo k.quad k.slot then some { k with off := false } else some k
      | none => none }) s
  (s.modStrand strand fun x => { x with
    plan := none, stored := none, deferred := none, stop := none, holdCmd := false, ss1 := false, reacting := false
    moveEnded := false, atTarget := false, source := 0, extOn := false, switchOn := true, skipped := 0, aux := x.aux.rest
    manualRef := false
    ply := { x.ply with
      xCur := clearIntegrators x.cfg.cur x.ply.xCur, xVel := clearIntegrators x.cfg.vel x.ply.xVel
      xPos := clearIntegrators x.cfg.pos x.ply.xPos, idRef := 0, ferrCount := 0, sumCount := 0, stallTime := 0
      stillCount := 0 } }).enter strand .run

/-! Stops and holds (R90, R91, R103). -/

def applyDisable (strand : StrandId) (s : State) : State :=
  (s.beginStop strand false 0 .toReady).enter strand .stopping

def applyStop (strand : StrandId) (quick : Bool) (decel : Nat) (s : State) : State :=
  let s := if quick && decel != 0 then s.modStrand strand fun x => { x with cfg := { x.cfg with dq := decel, dqStop := true } } else s
  (s.beginStop strand quick decel (if quick then .toRun else .toReady)).enter strand .stopping

/-- STOP_NOW on one strand. -/
def stopNowOne (s : State) (i : StrandId) : State :=
  let x := s.strands[i]
  if x.within [.run, .hold, .stopping] then (s.categoryZero i).enter i .ready
  else if x.within [.fault] && x.reacting then s.categoryZero i
  else s

def applyStopNow (strand : Half) (s : State) : State :=
  if strand = 0xFFFF then (List.finRange 256).foldl stopNowOne s else stopNowOne s (strandIx strand)

/-- The move a plan stands for, for a hold that pauses it (R90). -/
def planAsMove (p : Plan) : Option Move :=
  match p.target with
  | some t => if p.ticks ≤ p.t then none else some (.abs t)
  | none => if p.endVel = 0 then none else some (.jog (floorRat (p.endVel * 16)))

/-- RUN to HOLD: the reference decelerates with the profile's d2 and d1, and the running move is paused. -/
def State.beginHold (s : State) (i : StrandId) : State :=
  let x := s.strands[i]
  let (pos, vel, acc) := refNow s i
  let paused : Option Waiting := match x.stored with
    | some m => some m
    | none => (x.plan.bind planAsMove).map fun m => ⟨m, x.moveLim⟩
  let s := (s.leavePath i).dropDeferred i
  (s.modStrand i fun x => { x with
    plan := some (planStop (profileOf x.cfg) pos vel acc false 0), stop := none, stored := paused, engage := none, extOn := false
    refPos := pos, refVel := vel, refAcc := acc, updCycle := s.seq.cycle, source := 0 }).enter i .hold

def applyHold (strand : StrandId) (release : Bool) (s : State) : State :=
  let x := s.strands[strand]
  if release then
    let s := s.modStrand strand fun x => { x with holdCmd := false }
    if x.st = .hold ∧ !x.holdCtl then s.enter strand .run else s
  else if x.st = .run then (s.beginHold strand).modStrand strand fun x => { x with holdCmd := true }
  else s.modStrand strand fun x => { x with holdCmd := true }

/-! FAULT_RESET (R93, R144, R175). -/

/-- The Hall code as the unit takes it (R167): every line inverted where invert is set. -/
def hallInvalid (u : Fb) : Bool := u.cfg.mode == 2 && (u.hall == 0 || u.hall == 7)

/-- Is a cause of FEEDBACK_FAULT present (R175)? -/
def fbCause (s : State) (u : FbId) : Bool :=
  let f := s.fbs[u]
  let now := f.clock
  decide (5 ≤ (f.qerrAt.filter fun t => decide (now ≤ t + 200000)).length) || hallInvalid f || f.nERun != 0 || f.timeoutLast

/-- Is a present cause on a pair (R144)? -/
def pairCause (q : Quad) (p : PairId) : Bool :=
  overLimit q p || q.stuck.getLsbD p.val || gateActive q (Fin.ofNat 4 (p.val / 3))

/-- Does a converter's table hold a channel (R336)? -/
def converts (c : Converter) (ch : Nat) : Bool := c.table.entries.any fun e => e.channel == ch

/-- Is the converter channel's or the pulse unit's source lost (R89): of the converters that convert the channel none is
ready, or the unit reports FEEDBACK_FAULT? -/
def sourceLost (s : State) (c : StrandCfg) : Bool :=
  match c.source with
  | .intake => false
  | .converter ch _ _ =>
    let x := converts s.fio.x ch.val
    let y := converts s.fio.y ch.val
    (x || y) && !((x && s.isReady rdyConvX) || (y && s.isReady rdyConvY))
  | .pulse u _ _ => fbFaulted s.fbs[u]

/-- The strands whose external source is lost in a state and was not lost in the one before (R89). -/
def State.losesSources (s t : State) : State :=
  t.raiseCauses (t.strandsWhere fun x => sourceLost t x.cfg && !sourceLost s x.cfg) causeSourceLost

/-- Does an external drive report a fault in its latest status frame (R354)? The strand keeps EXT_DRIVE's level. -/
def driveFaulty (x : Strand) : Bool := x.extFault

/-- Is any cause of R92 still present on a strand? -/
def causePresent (s : State) (i : StrandId) : Bool :=
  let x := s.strands[i]
  (match bindQuad x.cfg.binding with
    | some q => (ownedPairs x.cfg.binding).any (pairCause s.quads[q])
    | none => false) ||
  (match x.cfg.fb with
    | some u => fbCause s u
    | none => false) ||
  sourceLost s x.cfg || driveFaulty x ||
  x.fault.getLsbD causeEngine

def checkFaultReset (strand : StrandId) (s : State) : Half :=
  let x := s.strands[strand]
  allowIf (x.within [.fault] && !x.reacting && !causePresent s strand)

/-- Clear the trip latches of some pairs (R144). -/
def clearTrips (t : BitVec 12) (ps : List PairId) : BitVec 12 := ps.foldl (fun t p => setBit t p.val false) t

def applyFaultReset (strand : StrandId) (s : State) : State :=
  let x := s.strands[strand]
  let s := match bindQuad x.cfg.binding with
    | some q => s.modQuad q fun u => { u with trip := clearTrips u.trip (ownedPairs x.cfg.binding) }
    | none => s
  let s := match x.cfg.fb with
    | some u => s.modFb u fun f => { f with stat := setBit f.stat 10 false }
    | none => s
  (s.modStrand strand fun x => { x with fault := 0, skipped := 0 }).enter strand (if x.rearm then .off else .ready)

/-! SET_TRANSFER, SET_SOURCE, PROFILE_SET (R88, R89, R96, R97). -/

def checkTransfer (strand : StrandId) (s : State) : Half :=
  let x := s.strands[strand]
  allowIf (x.within coeffStates && ((x.cfg.vel.bind (·.integ)).isSome))

/-- SET_TRANSFER takes effect. Entering manual discards the running and the stored move and leaves a path (log entry 162). -/
def applyTransfer (strand : StrandId) (manual : Bool) (output : Word) (s : State) : State :=
  (if manual then s.leavePath strand else s).modStrand strand fun x =>
    if manual then { x with
      manual := true, plan := none, stored := none, moveEnded := false
      ply := { x.ply with manualOut := if output = 0x80000000 then x.ply.iqRef else satInt 18 output.toInt } }
    else { x with manual := false }

/-- The reference source the arguments of SET_SOURCE name. -/
def sourceOf (source index : Byte) (ratio offset : Word) : ExtSource :=
  match source.toNat with
  | 1 => .converter (Fin.ofNat 16 index.toNat) ratio.toInt offset.toInt
  | 2 => .pulse (Fin.ofNat 48 index.toNat) ratio.toInt offset.toInt
  | _ => .intake

def checkSource (strand : StrandId) (src : ExtSource) (s : State) : Half :=
  allowIf (s.strands[strand].within coeffStates &&
    match src with
    | .pulse u _ _ => (s.fbs[u].cfg.mode == 5 || s.fbs[u].cfg.mode == 6) && !fbFaulted s.fbs[u]
    | _ => true)

def applySource (strand : StrandId) (src : ExtSource) (s : State) : State :=
  s.modStrand strand fun x => { x with cfg := { x.cfg with source := src }, extOn := false, srcRange := false }

def profileArg (p : ProfileArgs) : Profile :=
  let sc := p.shape == 1
  ⟨sc, p.vStart.toNat, p.vCorner.toNat, p.vMax.toNat, p.vStop.toNat, p.a1.toNat, p.a2.toNat, p.d2.toNat,
    if sc then 0 else p.d1.toNat, if sc then p.d1.toNat else 0⟩

def applyProfile (strand : StrandId) (p : ProfileArgs) (s : State) : State :=
  s.modStrand strand fun x => { x with
    cfg := { x.cfg with profile := some (profileArg p), dq := if x.cfg.dqStop then x.cfg.dq else quickDecel (profileArg p) } }

/-! Moves (R98 to R102). -/

def checkMove (strand : StrandId) (s : State) : Half :=
  let x := s.strands[strand]
  allowIf (x.within [.run] && x.engage.isNone && !onPath s strand)

/-- The plan of a move from a reference. -/
def movePlan (p : Profile) (pos vel : Int) (m : Move) : Plan :=
  match m with
  | .abs t => planMove p pos vel t
  | .rel d => planMove p pos vel (pos + d)
  | .jog v => planJog p pos vel v

/-- A move begins from the present reference, with the limits of its acceptance (R96); it takes the place of SKEIN_DISENGAGE's
deceleration (log entry 167). -/
def State.startMove (s : State) (i : StrandId) (w : Waiting) : State :=
  let (pos, vel, _) := refNow s i
  s.modStrand i fun x => { x with
    plan := some (movePlan w.limits pos vel w.move), stop := none, stored := none, moveEnded := false, atTarget := false
    moveLim := w.limits, refPos := pos, refVel := vel, updCycle := s.seq.cycle }

/-- Is a jerk-limited plan, of a move or of a deceleration in RUN, under way whose acceleration is not zero now (R101)? -/
def inRamp (s : State) (i : StrandId) : Bool :=
  match (s.strands[i].stop.map (·.plan)).orElse fun _ => s.strands[i].plan with
  | some p => p.segs.any (fun g => decide (g.j ≠ 0)) && decide (p.t < p.ticks) &&
      (let (_, _, a, _) := evalSegs p.segs 0 p.secs; decide (a ≠ 0))
  | none => false

/-- Does the strand follow its own reference: neither ctl.stop, nor a higher source (R79, R81), nor manual has taken it (log
entry 162)? -/
def ownReference (s : State) (i : StrandId) : Bool :=
  let x := s.strands[i]
  !x.ctl.getLsbD 0 && x.source == 0 && !(x.manual && x.hasPlies)

/-- A move is accepted: stored while ctl.stop holds the strand, a higher source is in use (R79, R81) or manual has taken the
reference (log entry 162), waiting while an S-curve ramps (R101), or begun. -/
def applyMove (strand : StrandId) (m : Move) (cmd : Instr) (s : State) : State :=
  let x := s.strands[strand]
  let w : Waiting := ⟨m, profileOf x.cfg⟩
  let s := s.dropDeferred strand
  if !ownReference s strand then s.modStrand strand fun x => { x with stored := some w }
  else if inRamp s strand then s.modStrand strand fun x => { x with deferred := some (w, cmd) }
  else s.startMove strand w

/-! GROUP_DEFINE (R104). -/

def checkGroup (members : List Half) (s : State) : Half :=
  allowIf (members.all fun h => s.strands[strandIx h].within [.off, .ready])

/-- Records join a group's queue. -/
def appendRecs (rs : List PathRec) (g : Group) : Group :=
  { g with
    queue := g.queue ++ rs
    dwellLeft := match g.queue, rs with
      | [], r :: _ => if r.type = 4 then r.dwell * 1000 else g.dwellLeft
      | _, _ => g.dwellLeft }

/-- The group takes its members, with the records queued for them; one that belonged to another group leaves it (log
entry 29). -/
def applyGroup (g : Fin 32) (members : List Half) (s : State) : State :=
  let ms := members.map strandIx
  let s := (List.finRange 32).foldl (fun s k => s.modGroup k fun x => { x with
    members := x.members.filter fun i => !ms.contains i }) s
  s.modGroup g fun x => appendRecs x.next { Group.reset with members := ms }

end Sys2Proof.Machine
end

