-- ==== Sys2Proof/Machine/Quads.lean ====
section
/-! DEFINITION. The power stage (R130 to R152) and the stepper windings (R153 to R163): configuration commands, the
boundaries of the carrier, samples, trips, force and trip registers, the current ply, choppers, and auxiliary
sensorless commands. -/

namespace Sys2Proof.Machine

def quadIx (q : Byte) : QuadId := Fin.ofNat 12 q.toNat

/-! QUAD_CONFIG (R15, R130, R133, R134). -/

/-- The carrier lock: k × P = j × T for some k and j from 1 to 64 (R15). Periods and T in carrier units. -/
def carrierLocks (period tUnits : Nat) : Bool :=
  (List.range 64).any fun k =>
    decide (((k + 1) * period) % tUnits = 0) && decide (1 ≤ (k + 1) * period / tUnits) && decide ((k + 1) * period / tUnits ≤ 64)

/-- The cycle in carrier units: 250 ns are 3200 of them. -/
def tUnits (s : State) : Nat := s.link.sched.t.toNat * 3200

/-- Does a mix keep every slot and position of a quad that has a strand (R130)? -/
def mixKeeps (s : State) (q : QuadId) (mix : BitVec 2) : Bool :=
  (s.strandsOfQuad q).all fun i =>
    match s.strands[i].cfg.binding with
    | .servo _ k => mixServo mix k
    | .stepper _ p => mixStepper mix p
    | _ => true

/-- The carrier fields of a configuration. -/
def withCarrier (c : QuadCfg) (saw dbl : Bool) (period phase : BitVec 24) : QuadCfg :=
  { c with saw := saw, dbl := dbl, period := period, phase := phase }

/-- The domain time of this cycle's start, in units of 78.125 ps (R9, R257). -/
def domainUnits (s : State) : Int := s.seq.cycle.toNat * tUnits s + s.link.sched.origin.toInt * 64 / 5

/-- Units from a domain time to the next φ + m × P (R134). -/
def toValley (at_ : Int) (c : QuadCfg) : Nat := ((c.phase.toNat - at_) % (max 1 c.period.toNat : Nat)).toNat

/-- A carrier that starts holds its counter at 0 until the first φ + m × P (R134). -/
def startCarrier (at_ : Int) (x : Quad) : Quad := { x with valley := toValley at_ x.cfg, holdTo := toValley at_ x.cfg, cnt := 0, down := false }

/-- QUAD_CONFIG takes effect: mix and run at this cycle start; the carrier too where the counter stood, else at the
next valley or wrap (R134, R151). -/
def applyQuadConfig (q : QuadId) (mix carrier : Byte) (period : Word) (double : Byte) (phase : Word) (s : State) : State :=
  (s.wakeFn (quadFn q)).modQuad q fun x =>
    let sh := { withCarrier x.sh (carrier == 1) (double == 1) (period.truncate 24) 0 with mix := mix.truncate 2, run := true }
    let ph : BitVec 24 := if phase = 0xFFFFFFFF then BitVec.ofNat 24 (defaultPhase q sh) else phase.truncate 24
    let sh := { sh with phase := ph }
    let cfg := { x.cfg with mix := mix.truncate 2, run := true }
    let y := { x with
      sh := sh, carrierSet := true
      cfg := if x.cfg.run then cfg else withCarrier cfg sh.saw sh.dbl sh.period sh.phase }
    if x.cfg.run then y else startCarrier (domainUnits s) y

def checkQuadConfig (q : QuadId) (mix carrier : Byte) (period : Word) (double : Byte) (phase : Word) (s : State) : Half :=
  allowIf (quadStatesOk s q && mixKeeps s q (mix.truncate 2) && carrierLocks period.toNat (tUnits s) &&
    allTimingOk (applyQuadConfig q mix carrier period double phase s))

/-! DEADTIME_SET, SDF_CONFIG, TRIP_CONFIG. -/

def pairArg (p : Byte) : PairId := Fin.ofNat 12 p.toNat

def checkDeadtime (q : QuadId) (p : PairId) (s : State) : Half :=
  allowIf (match s.ownerOf q p with
    | some i => s.strands[i].within cfgStates
    | none => true)

/-- The new dead time waits in the shadow for the next valley or wrap (R24, R134). -/
def applyDeadtime (q : QuadId) (p : PairId) (dead : Half) (s : State) : State :=
  s.modQuad q fun x => { x with sh := { x.sh with dead := x.sh.dead.set p dead } }

def osr3Code (o : Half) : BitVec 3 :=
  match o.toNat with
  | 16 => 0
  | 32 => 1
  | 64 => 2
  | 128 => 3
  | _ => 4

def osr2Code (o : Byte) : BitVec 2 :=
  match o.toNat with
  | 4 => 0
  | 8 => 1
  | 16 => 2
  | _ => 3

/-- The filter fields of a configuration. -/
def withFilter (c : QuadCfg) (fMod : Word) (osr3 : Half) (osr2 : Byte) : QuadCfg :=
  { c with
    div := BitVec.ofNat 7 ((modDiv (fMod.toNat % 2 ^ 26)).getD 8), osr3 := osr3Code osr3, osr2 := osr2Code osr2
    clkEn := true, capDly := BitVec.ofNat 5 (bits fMod.toNat 30 26) }

/-- Time until restarted filters give a valid result: 3 × OSR modulator periods (R141). -/
def settleNs (c : QuadCfg) : Nat := (3 * osr3Of c.osr3 * divOf c.div * 5 + 1) / 2

/-- Do two configurations differ in what restarts the filters (R141)? -/
def filterChanges (a b : QuadCfg) : Bool := decide (divOf a.div ≠ divOf b.div ∨ a.osr3 ≠ b.osr3 ∨ a.osr2 ≠ b.osr2)

def applySdf (q : QuadId) (fMod : Word) (osr3 : Half) (osr2 : Byte) (s : State) : State :=
  s.modQuad q fun x =>
    let cfg := withFilter x.cfg fMod osr3 osr2
    { x with
      cfg := cfg, sh := withFilter x.sh fMod osr3 osr2
      settling := if filterChanges x.cfg cfg then settleNs cfg else x.settling }

def checkSdf (q : QuadId) (fMod : Word) (osr3 : Half) (osr2 : Byte) (s : State) : Half :=
  allowIf (quadStatesOk s q && timingOk (applySdf q fMod osr3 osr2 s) q)

def checkTrip (q : QuadId) (s : State) : Half := allowIf (quadStatesOk s q)

/-- TRIP_CONFIG (R142, R143): an input's limit, or a gate-fault input's enable and level. -/
def tripFields (input : Byte) (limit : Word) (gf : Byte) (c : QuadCfg) : QuadCfg :=
  if input.toNat < 12 then { c with limit := c.limit.set (pairArg input) (limit.truncate 18) }
  else { c with
    gfEnable := setBit c.gfEnable (input.toNat - 16) (gf.getLsbD 0), gfLevel := setBit c.gfLevel (input.toNat - 16) (gf.getLsbD 1) }

/-! The pairs' outputs (R131, R137). -/

/-- What drives a pair at a tick. -/
inductive PairDrive | off | highOn | lowOn | held | carrier | legs
deriving DecidableEq, Repr

/-- Is a pair's owner a stepper position? -/
def ownedByStepper (s : State) (q : QuadId) (p : PairId) : Bool :=
  (s.ownerOf q p).any fun i => isStepper s.strands[i].cfg.binding

/-- The first rank of R137 that applies to a pair; a pair no axis owns, or of a disabled quad, stays low (R3, R131), and
a quad that waits for its valley after a freeze holds every pair off (R138). -/
def pairDrive (s : State) (q : QuadId) (p : PairId) : PairDrive :=
  let x := s.quads[q]
  if !quadEnabled s q || (s.ownerOf q p).isNone then .off
  else if x.trip.getLsbD p.val then .off
  else if !x.gateA || !x.gateB || !x.cfg.run || x.waitValley then .off
  else if ownedByStepper s q p then (if forceOf x p ≠ 0 then .off else if x.frozen then .held else .legs)
  else
    match forceOf x p with
    | 1 => .highOn
    | 2 => .lowOn
    | 3 => .off
    | _ => if x.frozen then .held else .carrier

/-- The levels of the balls PWM_Qqq_(2k) and PWM_Qqq_(2k+1) of pair k (R131, R137). -/
def pairOut (s : State) (q : QuadId) (p : PairId) : Bool × Bool :=
  let x := s.quads[q]
  match pairDrive s q p with
  | .off => (false, false)
  | .highOn => onAfterWait x p (true, false)
  | .lowOn => onAfterWait x p (false, true)
  | .held => x.heldOut[p]
  | .legs => legsOf x.windings[p]
  | .carrier => onAfterWait x p (carrierOut x p)

/-- A debug freeze: the counter stops at a place of its period that nothing determines (log entry 159), and each output
holds the level it had (R138). -/
def State.freezeQuad (s : State) (q : QuadId) : State :=
  let per := s.quads[q].cfg.period.toNat
  let s := s.modQuad q fun x => if x.cfg.run && per != 0 && !x.frozen then placeCarrier (Config.carrierAt s.free q % per) x else x
  s.modQuad q fun x => if x.frozen then x else { x with heldOut := Vector.ofFn fun p => pairOut s q p, frozen := true }

/-- The counters at a cycle start: valleys and wraps fall at domain times φ + m × P, and the counter stands at 0 until it has
started, or while a change of phase lengthens its period (R9, R134, R257). -/
def State.placeCarriers (s : State) : State :=
  let at_ := domainUnits s
  (List.finRange 12).foldl (fun s q => s.modQuad q fun x =>
    let per := x.cfg.period.toNat
    if !x.cfg.run || per == 0 then x
    else if x.holdTo != 0 then { x with cnt := 0, down := false }
    else
      let x := { x with valley := toValley at_ x.cfg }
      if x.frozen || x.waitValley then x else placeCarrier ((at_ - x.cfg.phase.toNat) % (per : Int)).toNat x) s

/-! Boundaries (R132, R134). -/

/-- One update boundary of a running carrier: the duty shadows apply; at a valley or wrap the carrier settings and dead
times apply too. A peak is a boundary only with double update on an up-down carrier, and a frozen
quad has none; one that waits for its valley has no peak before it (R138). -/
def pwmBoundary (peak : Bool) (x : Quad) : Quad :=
  if !x.cfg.run || x.frozen || (peak && (!x.cfg.dbl || x.cfg.saw || x.waitValley)) then x
  else if peak then { x with duty := x.dutySh, was := levelsAt true x, cnt := x.cfg.period >>> 1, down := true }
  else
    let dwell := (((x.sh.phase.toNat : Int) - x.cfg.phase.toNat) % (max 1 x.sh.period.toNat : Nat)).toNat
    { x with
      duty := x.dutySh, was := levelsAt false x, cnt := 0, down := false, waitValley := false
      valley := x.valley + dwell + x.sh.period.toNat, holdTo := if dwell = 0 then x.holdTo else x.valley + dwell
      cfg := { withCarrier x.cfg x.sh.saw x.sh.dbl x.sh.period x.sh.phase with dead := x.sh.dead } }

/-! Samples and trips (R140, R142 to R144). -/

/-- Running sums of a stream: one integrator of a sinc filter. -/
def integrate (l : List Int) : List Int := (l.foldl (fun (a : Int × List Int) b => (a.1 + b, (a.1 + b) :: a.2)) (0, [])).2.reverse

def streamOf (bs : List Bool) : List Int := bs.map fun b => if b then 1 else 0

/-- The raw result of a sinc3 decimator over the last 3 × OSR bits of a modulator, oldest first: three integrators at every
modulator clock, and the comb evaluated once (R140). -/
def sinc3 (osr : Nat) (bs : List Bool) : Nat :=
  let y := integrate (integrate (integrate (streamOf bs)))
  let at_ := fun (k : Nat) => y.getD (k * osr - 1) 0
  (at_ 3 - 3 * at_ 2 + 3 * at_ 1).toNat

/-- The raw result of the sinc2 filter over the last 2 × OSR₂ bits (R142). -/
def sinc2 (osr : Nat) (bs : List Bool) : Nat :=
  let y := integrate (integrate (streamOf bs))
  (y.getD (2 * osr - 1) 0 - 2 * y.getD (osr - 1) 0).toNat

/-- The 18-bit value of a raw result of full scale `full`, in the way of R140. -/
def scaleRaw (full raw : Nat) : Int :=
  let h : Int := (full / 2 : Nat)
  let d : Int := raw - h
  satInt 18 (if h ≤ 2 ^ 17 then d * (2 ^ 17 / h) else (d + (h / 2 ^ 17) / 2) / (h / 2 ^ 17))

/-- The sinc2 value of a data stream (R142). -/
def fastOf (c : QuadCfg) (bs : List Bool) : Sample := BitVec.ofInt 18 (scaleRaw (osr2Of c.osr2 ^ 2) (sinc2 (osr2Of c.osr2) bs))

/-- The 18-bit sample of a raw sinc3 result (R140). -/
def sampleOf (osr raw : Nat) : Int := scaleRaw (osr ^ 3) raw

/-- New sinc3 samples of the twelve inputs; while the filters settle the last valid ones stay (R141). -/
def takeSamples (data : List (List Bool)) (x : Quad) : Quad :=
  if x.settling ≠ 0 then x
  else { x with data := Vector.ofFn fun (i : Fin 12) => BitVec.ofInt 18 (sampleOf (osr3Of x.cfg.osr3) (sinc3 (osr3Of x.cfg.osr3) (data.getD i.val []))) }

/-- A new sinc2 value of an input; it trips when its magnitude exceeds a limit that is not 0 (R142). -/
def State.fastValue (s : State) (q : QuadId) (p : PairId) (v : Sample) : State :=
  if !quadEnabled s q || !s.quads[q].cfg.clkEn then s
  else
    let s := s.modQuad q fun x => { x with fast := x.fast.set p v }
    if overLimit s.quads[q] p then s.tripInput q p else s

/-- The stuck bit of an input, which trips whatever the limit (R142). -/
def State.stuckInput (s : State) (q : QuadId) (p : PairId) (stuck : Bool) : State :=
  if !quadEnabled s q || !s.quads[q].cfg.clkEn then s
  else
    let s := s.modQuad q fun x => { x with stuck := setBit x.stuck p.val stuck }
    if stuck then s.tripInput q p else s

/-- A gate-fault pin changes (R143). -/
def State.gatePin (s : State) (q : QuadId) (g : SlotId) (level : Bool) : State :=
  if !quadEnabled s q then s else (s.modQuad q fun x => { x with gfPin := setBit x.gfPin g.val level }).gateLatch q g

/-- Inputs that a new configuration makes active latch as ones that become active (R143). -/
def State.gateNews (s t : State) (q : QuadId) : State :=
  (List.finRange 4).foldl (fun t g =>
    if gateActive t.quads[q] g && !gateActive s.quads[q] g || gateLive t.quads[q] g && !gateLive s.quads[q] g then t.gateLatch q g else t) t

def applyTrip (q : QuadId) (input : Byte) (limit : Word) (gf : Byte) (s : State) : State :=
  s.gateNews (s.modQuad q fun x => { x with cfg := tripFields input limit gf x.cfg, sh := tripFields input limit gf x.sh }) q

/-- A write of PWM_FORCE (R136). -/
def writeForce (v : Word) (x : Quad) : Quad := withForce (v.truncate 24) x

/-- A write of PWM_FORCE_PAIR; pairs 12 to 15 are ignored (R151). -/
def writeForcePair (v : Word) (x : Quad) : Quad :=
  match fin? 12 (bits v.toNat 3 0) with
  | some p => withForce (forceBits x.force [p] (bits v.toNat 5 4)) x
  | none => x

/-- Is a cause present that keeps pair p's latch: one of its own, or of another input of the axis that owns it (R142, R144)? -/
def latchCause (s : State) (q : QuadId) (p : PairId) : Bool :=
  pairCause s.quads[q] p ||
    match s.ownerOf q p with
    | some i => (ownedPairs s.strands[i].cfg.binding).any fun r => overLimit s.quads[q] r || s.quads[q].stuck.getLsbD r.val
    | none => false

/-- A write of PWM_TRIP: a latch clears where no cause is present, and gate-fault events clear (R144, R151). -/
def State.writeTrip (s : State) (q : QuadId) (v : Word) : State :=
  s.modQuad q fun x => { x with
    trip := (List.finRange 12).foldl (fun t p => if v.getLsbD p.val && !latchCause s q p then setBit t p.val false else t) x.trip
    gfEvent := (List.finRange 4).foldl (fun e g => if v.getLsbD (16 + g.val) && !gateLive x g then setBit e g.val false else e) x.gfEvent }

/-! The current ply (R86, R179). -/

/-- The sector centres as 18-bit angles (R172). -/
def hallCentre (n : Fin 6) : Int :=
  match n.val with
  | 0 => 21845
  | 1 => 65536
  | 2 => 109227
  | 3 => 152917
  | 4 => 196608
  | _ => 240299

/-- The sinc3 group delay in seconds (R22). -/
def groupDelay (c : QuadCfg) : Rat := (osr3Of c.osr3 : Rat) * (divOf c.div : Rat) * (15 / 4) / (1000000000 : Nat)

/-- Time from sample-ready to the next boundary and the update interval, in seconds (R86). -/
def updateTimes (c : QuadCfg) : Rat × Rat :=
  let tu := updateNs c / (1000000000 : Nat)
  (if groupDelay c ≤ tu then tu - groupDelay c else 0, tu)

/-- The unit bound to a servo strand goes on to the sample instant and latches p_i and v̂ there (R179). -/
def State.latchAngles (s : State) (q : QuadId) (go : State → FbId → State) (pi : State → FbId → Int) : State :=
  (s.strandsOfQuad q).foldl (fun s i =>
    match s.strands[i].cfg.binding, s.strands[i].cfg.fb with
    | .servo .., some u =>
      let s := go s u
      s.modFb u fun f => { f with latchPi := pi s u, latchV := f.vHat }
    | _, _ => s) s

/-- The electrical angle of a strand at the latched p_i (R86, R179): in Hall mode the centre of the sector with the fraction
of the count beyond it (R172, log entry 170). -/
def elecAngleOf (key : Nat) (i : StrandId) (u : Fb) : Int :=
  match u.cfg.mode.toNat, u.sector with
  | 2, some n => hallCentre n + roundFree key 102 (((u.latchPi - (extend u).ext * 256 : Int) : Rat) * 262144 / 1536)
  | _, _ => Config.elecAngle i u.latchPi

/-- The angles of one update: where the samples were taken, and where the duty will act. -/
def plyAngles (s : State) (i : StrandId) (c : QuadCfg) : Nat × Nat :=
  let x := s.strands[i]
  let key := s.key i
  if x.isAux then
    let a := if x.aux.phase = .closed then Config.auxAngle key i else (roundFree key 60 x.aux.angle % 262144).toNat
    (a % 262144, a % 262144)
  else
    let (th, v) : Int × Int := match x.cfg.fb with
      | some u => (elecAngleOf key i s.fbs[u], floorRat ((s.fbs[u].latchV : Rat) / (2 ^ 32 : Nat)))
      | none => (Config.elecAngle i 0, 0)
    let w : Rat := Config.elecSpeed i v
    let (tb, tu) := updateTimes c
    (((th - roundFree key 61 (w * groupDelay c)) % 262144).toNat, ((th + roundFree key 62 (w * (tb + tu / 2))) % 262144).toNat)

/-- The references of the current ply: d and q; an auxiliary strand out of closed loop drives its start current on
the d axis (R148, log entry 31). -/
def currentRefs (x : Strand) : Int × Int :=
  match x.cfg.aux with
  | some c => if x.isAux && x.aux.phase != .closed then (if x.aux.phase == .off then 0 else c.startCurrent, 0)
      else (x.ply.idRef, x.ply.iqRef)
  | none => (x.ply.idRef, x.ply.iqRef)

/-- One standard current-ply update of a servo strand (R86): the states move in READY too; duty values reach the
shadows only while the plies run. -/
def State.currentPly (s : State) (i : StrandId) : State :=
  let x := s.strands[i]
  match x.cfg.binding, x.cfg.cur with
  | .servo q k, some b =>
    if !(x.moving || x.st = .ready) then s
    else
      let key := s.key i
      let d := s.quads[q].data
      let ps := ownedPairs (.servo q k)
      let smp := fun (j : Nat) => match ps[j]? with
        | some p => d[p].toInt
        | none => 0
      let (al, be, zero) := clarke key (smp 0) (smp 1) (smp 2)
      let (th1, th2) := plyAngles s i s.quads[q].cfg
      let (iD, iQ) := park key al be th1
      let (rD, rQ) := currentRefs x
      let om := velFrac key x.velFs (if x.isAux then x.auxSpeed else
        match x.cfg.fb with
        | some u => fbSpeed key s.fbs[u]
        | none => 0)
      let o := currentLaw key b x.ply.xCur [iD, iQ, rD, rQ] om
      let (va, vb) := iPark key o.vd o.vq th2
      let live := x.moving && !(x.isAux && x.aux.phase == .off)
      let satNow := (live && o.sat) || x.ply.cleared.getLsbD 0
      let s := s.modStrand i fun x => { x with
        iq := iQ, outLimit := satNow || x.ply.satVel || x.ply.satPos
        ply := { x.ply with
          xCur := o.x, vd := if live then o.vd else 0, vq := if live then o.vq else 0, satCur := satNow
          cleared := setBit x.ply.cleared 0 false
          sumCount := if decide (16384 < |zero|) then x.ply.sumCount + 1 else 0 } }
      if !live then s
      else s.modQuad q fun u => { u with
        dutySh := (List.range 3).foldl (fun (v : Vector (BitVec 24) 12) (j : Nat) =>
          match ps[j]? with
          | some p => v.set p (Config.duty j va vb u.cfg.period.toNat)
          | none => v) u.dutySh }
  | _, _ => s

/-! Stepper windings (R155, R158, R163). -/

/-- A value of a quad's table: T[256] is 0x1_FFFF (R155). -/
def tableAt (x : Quad) (j : Nat) : Int :=
  if j = 256 then 0x1FFFF
  else
    match x.cfg.microstep with
    | some l => (l.getD j 0 : Nat)
    | none => (sineStep j : Nat)

/-- The table values of windings A and B at an address, with the signs of R155. -/
def windingValues (x : Quad) (addr : Nat) : Int × Int :=
  let j := addr % 256
  match addr / 256 % 4 with
  | 0 => (tableAt x (256 - j), tableAt x j)
  | 1 => (-tableAt x j, tableAt x (256 - j))
  | 2 => (-tableAt x (256 - j), -tableAt x j)
  | _ => (tableAt x j, -tableAt x (256 - j))

/-- A winding takes a new reference (R158): a change of sign starts a drive toward it, 0 holds both legs low. -/
def newRef (r : Int) (w : Winding) : Winding :=
  if r = 0 then ⟨.idle, 0⟩
  else if w.phase = .idle ∨ r.sign ≠ w.ref.sign then ⟨.drive, r⟩
  else ⟨w.phase, r⟩

/-- The current of a position: I of STEPPER_CONFIG. -/
def positionCurrent (x : Quad) (p : Fin 6) : Nat := (x.choppers[p].map (·.current)).getD 0

/-- Put the references of a position at an address, scaled by `scale` / 65,536 (R155, R157, R163). -/
def driveWindings (key : Nat) (p : Fin 6) (addr scale : Nat) (x : Quad) : Quad :=
  let (a, b) := windingValues x addr
  let i := positionCurrent x p
  let r := fun (site : Nat) (v : Int) => roundFree key site ((v * i * scale : Int) / ((2 ^ 33 : Nat) : Rat))
  let wa : PairId := Fin.ofNat 12 (2 * p.val)
  let wb : PairId := Fin.ofNat 12 (2 * p.val + 1)
  { x with windings := modAt (modAt x.windings wa (newRef (r 63 a))) wb (newRef (r 64 b)) }

/-- A position under a TABLE_STEP drive takes its references again from the present table and current (R155, R156). -/
def redriveTable (key : Nat) (p : Fin 6) (x : Quad) : Quad :=
  match x.tableDrive[p] with
  | some (addr, scale) => driveWindings key p addr scale x
  | none => x

/-- The position a slot number names (R153). -/
def positionIx (slot : Byte) : QuadId × Fin 6 := (Fin.ofNat 12 (slot.toNat / 8), Fin.ofNat 6 (slot.toNat % 8))

/-- The strand bound to a stepper position. -/
def State.strandOfPosition (s : State) (q : QuadId) (p : Fin 6) : Option StrandId :=
  (s.strandsWhere fun x => decide (x.cfg.binding = .stepper q p)).head?

def checkStepperConfig (slot : Byte) (s : State) : Half :=
  allowIf (match s.strandOfPosition (positionIx slot).1 (positionIx slot).2 with
    | some i => s.strands[i].within cfgStates
    | none => true)

def applyStepperConfig (slot : Byte) (offTime : Half) (split : Byte) (current : Word) (s : State) : State :=
  s.modQuad (positionIx slot).1 fun x => redriveTable (s.key 0) (positionIx slot).2 { x with
    choppers := x.choppers.set (positionIx slot).2 (some ⟨offTime.toNat, split.toNat, current.toNat⟩) }

/-- The 256 entries of a microstep descriptor (R156), or nothing. -/
def microstepTable? (bs : List Byte) : Option (List Nat) :=
  match coefs? bs 0 256 with
  | some l => if l.all (fun v => decide (0 ≤ v)) && l.getD 0 1 == 0 && decide (bs.length = 768) then some (l.map Int.toNat) else none
  | none => none

def checkMicrostep (q : QuadId) (bs : List Byte) (s : State) : Half :=
  if (microstepTable? bs).isNone then stBadArg
  else allowIf ((s.strandsOfQuad q).all fun i => !(isStepper s.strands[i].cfg.binding && s.strands[i].within [.run, .hold, .stopping]))

def applyMicrostep (q : QuadId) (bs : List Byte) (s : State) : State :=
  s.modQuad q fun x => (List.finRange 6).foldl (fun x p => redriveTable (s.key 0) p x) { x with
    cfg := { x.cfg with microstep := microstepTable? bs }, sh := { x.sh with microstep := microstepTable? bs } }

def checkTableStep (strand : Half) (s : State) : Half :=
  let x := s.strands[strandIx strand]
  allowIf (x.within [.ready] &&
    match x.cfg.binding with
    | .stepper q _ => gatesHigh s q
    | _ => false)

/-- TABLE_STEP (R163): the windings stand at an address with a scaled current; scale 0 ends the drive. -/
def applyTableStep (strand address scale : Half) (s : State) : State :=
  let i := strandIx strand
  match s.strands[i].cfg.binding with
  | .stepper q p =>
    if scale = 0 then (s.switchOff i).modQuad q (driveWindings (s.key i) p address.toNat 0)
    else
      ((s.forceStrand i 0).modQuad q fun x =>
        driveWindings (s.key i) p address.toNat scale.toNat { x with tableDrive := x.tableDrive.set p (some (address.toNat, scale.toNat)) }).modStrand i
        fun x => { x with msAddr := address.toNat }
  | _ => s

/-- Drive has ended (R158): fast decay for s/16 of the off time, or slow decay at once with s = 0. -/
def chopDriveEnd (split : Nat) (w : Winding) : Winding :=
  if w.phase = .drive then { w with phase := if split = 0 then .slow else .fast } else w

/-- Fast decay has ended; with s = 16 it lasts the whole off time. -/
def chopFastEnd (split : Nat) (w : Winding) : Winding :=
  if w.phase = .fast ∧ split < 16 then { w with phase := .slow } else w

/-- The off time has ended: drive starts again. -/
def chopOffEnd (split : Nat) (w : Winding) : Winding :=
  if w.phase = .slow ∨ (w.phase = .fast ∧ split = 16) then { w with phase := .drive } else w

/-- The split of the position a pair belongs to. -/
def splitOf (x : Quad) (p : PairId) : Nat := ((x.choppers[(Fin.ofNat 6 (p.val / 2))]).map (·.split)).getD 0

/-! Auxiliary sensorless commands (R146, R149). -/

def checkAuxCurve (strand : Half) (hysteresis : Word) (bs : List Byte) (s : State) : Half :=
  let x := s.strands[strandIx strand]
  if (auxCurve? hysteresis.toNat bs).isNone then stBadArg
  else allowIf (x.within cfgStates && isServo x.cfg.binding)

def applyAuxCurve (strand : Half) (hysteresis : Word) (bs : List Byte) (s : State) : State :=
  s.modStrand (strandIx strand) fun x => { x with cfg := { x.cfg with aux := auxCurve? hysteresis.toNat bs } }

/-- The measured speed of an auxiliary strand, a magnitude (R148). -/
def AuxRun.measured (a : AuxRun) : Rat :=
  match a.phase with
  | .closed => |(a.est : Rat)|
  | .off => 0
  | .align => 0
  | _ => |a.speed|

/-- The direction an AUX_COMMAND asks for, where the command gives it. -/
def auxDir (c : AuxCurve) (speed : Int) : Option Bool := if c.dirInput.isSome ∨ speed = 0 then none else some (decide (0 < speed))

def checkAuxCommand (strand : Half) (speed : Word) (s : State) : Half :=
  let x := s.strands[strandIx strand]
  match x.cfg.aux with
  | some c =>
    allowIf (x.within [.run] && isServo x.cfg.binding &&
      (speed == 0x80000000 || auxDir c speed.toInt == none || auxDir c speed.toInt == some x.aux.fwd ||
        decide (x.aux.measured ≤ (c.revThreshold : Rat))))
  | none => stRefused

def applyAuxCommand (strand : Half) (speed : Word) (s : State) : State :=
  s.modStrand (strandIx strand) fun x => { x with
    aux := { x.aux with override := if speed = 0x80000000 then none else some speed.toInt } }

/-! ENLARGER_SET and STEPGEN_CONFIG (R160 to R162). -/

def checkEnlarger (strand : Half) (s : State) : Half :=
  let x := s.strands[strandIx strand]
  allowIf (x.within cfgStates && isStepper x.cfg.binding)

def applyEnlarger (strand : Half) (fb : Byte) (num den : Word) (s : State) : State :=
  s.modStrand (strandIx strand) fun x => { x with
    cfg := { x.cfg with enlarger := if num = 0 then none else some ⟨Fin.ofNat 48 fb.toNat, num.toNat, den.toNat⟩ }
    enlPos := (x.msRef : Rat) / 65536, enlTarget := (x.msRef : Rat) / 65536, enlRate := 0, enlLast := 0 }

def stgIx (g : Byte) : StgId := Fin.ofNat 16 g.toNat

def checkStepgen (g : StgId) (s : State) : Half :=
  allowIf (match s.strandOfStg g with
    | some i => !s.strands[i].within [.run, .hold, .stopping]
    | none => true)

/-- ns to units of 5 ns, to the nearest (log entry 32). -/
def to5ns (ns : Nat) : Nat := (ns + 2) / 5

/-- STEPGEN_CONFIG sets the width and the direction setup and enables the generator (log entry 33). -/
def applyStepgen (g : StgId) (width dirSetup : Word) (s : State) : State :=
  s.modStg g fun x =>
    let c := { x.cfg with
      width := BitVec.ofNat 15 (to5ns width.toNat), dirSetup := BitVec.ofNat 15 (to5ns dirSetup.toNat), enable := true }
    { x with cfg := c, sh := c }

end Sys2Proof.Machine
end

