-- ==== Sys2Proof/Machine/Path.lean ====
section
/-! DEFINITION. Coordinated paths (R104 to R110): segment records and their rules, path geometry, the velocity limits,
the update of a group, and PATH_QUEUE, PATH_START and PATH_STOP. Lengths are exact rationals in counts; roots, angles
and the stored path length and velocity are taken to 2^-32 with a free last bit (log entry 18). -/

namespace Sys2Proof.Machine

/-! Records (R105). -/

/-- One 96-byte record, or nothing where a rule that needs no start position is broken. -/
def pathRec? (count : Nat) (bs : List Byte) : Option PathRec :=
  let ty := fieldU bs 0 1
  let flags := fieldU bs 1 1
  let plane := fieldU bs 2 1
  let feed := fieldU bs 4 4
  let dwell := fieldU bs 8 4
  let arc := ty == 1 || ty == 2
  let ends := (List.range 8).map fun k => fieldS bs (16 + 8 * k) 8
  let i := bits plane 2 0
  let j := bits plane 5 3
  let ok := decide (ty ≤ 4) && decide (flags < 2) && decide (plane < 64) && fieldU bs 3 1 == 0 && fieldU bs 12 4 == 0 &&
    (if ty == 4 then feed == 0 else feed != 0 && dwell == 0) &&
    (if arc then i != j && decide (i < count) && decide (j < count) else plane == 0) &&
    (arc || zeroBytes bs 80 96) && (ends.drop count).all (· == 0)
  if ok then some ⟨ty, flags == 1, Fin.ofNat 8 i, Fin.ofNat 8 j, feed, dwell, ends.take count,
    (fieldS bs 80 8, fieldS bs 88 8)⟩
  else none

/-- The records of a descriptor. -/
def pathRecs? (count : Nat) : Nat → List Byte → Option (List PathRec)
  | 0, _ => some []
  | n + 1, bs =>
    match pathRec? count (bs.take 96), pathRecs? count n (bs.drop 96) with
    | some r, some rs => some (r :: rs)
    | _, _ => none

/-! Numerics. -/

/-- A value kept to 2^-32, its last bit free (log entry 18). -/
def keep32 (key site : Nat) (q : Rat) : Rat := (roundFree key site (q * (2 ^ 32 : Nat)) : Rat) / (2 ^ 32 : Nat)

/-- A number of 2^-48 units. -/
def fix48 (q : Rat) : Int := floorRat (q * (2 ^ 48 : Nat))

def unfix48 (v : Int) : Rat := (v : Rat) / (2 ^ 48 : Nat)

/-- π as a rational. -/
def piRat : Rat := unfix48 piFix

/-- Sine of an angle between 0 and π/2, in 2^-48 units. -/
def sinQuarter (x : Int) : Int := sinTerms 12 1 (x * x / 2 ^ 48) x x

/-- Sine of any angle in radians. -/
def sinRad (a : Rat) : Rat :=
  let x := fix48 a % (2 * piFix)
  let h := piFix / 2
  unfix48 (if x ≤ h then sinQuarter x
    else if x ≤ piFix then sinQuarter (piFix - x)
    else if x ≤ piFix + h then -sinQuarter (x - piFix)
    else -sinQuarter (2 * piFix - x))

def cosRad (a : Rat) : Rat := sinRad (a + piRat / 2)

/-- Terms of the arc tangent series of `t`, in 2^-48 units. -/
def atanTerms : Nat → Nat → Int → Int → Int → Int
  | 0, _, _, _, acc => acc
  | n + 1, k, t2, p, acc =>
    let p' := -(p * t2 / 2 ^ 48)
    atanTerms n (k + 2) t2 p' (acc + p' / ((k + 2 : Nat) : Int))

/-- Half the tangent argument of an angle: tan(a/2) from tan a. -/
def halfTan (t : Rat) : Rat := t / (1 + sqrtRat (1 + t * t))

/-- The angle of a vector, from −π to π. -/
def atan2Rat (y x : Rat) : Rat :=
  let r := sqrtRat (x * x + y * y)
  if r + x ≤ 0 then piRat
  else
    let t := fix48 (halfTan (halfTan (halfTan (y / (r + x)))))
    16 * unfix48 (atanTerms 14 1 (t * t / 2 ^ 48) t t)

/-- Euclidean length. -/
def norm (v : List Rat) : Rat := sqrtRat ((v.map fun c => c * c).foldl (· + ·) 0)

def subV (a b : List Rat) : List Rat := List.zipWith (· - ·) a b
def addV (a b : List Rat) : List Rat := List.zipWith (· + ·) a b
def scaleV (k : Rat) (a : List Rat) : List Rat := a.map (k * ·)
def unitV (v : List Rat) : List Rat := let n := norm v; if n = 0 then v.map fun _ => 0 else scaleV (1 / n) v
def toCounts (p : List Int) : List Rat := p.map fun v => (v : Rat) / 65536

/-! Geometry (R104, R106, R107). -/

/-- Catmull-Rom between p1 and p2 (R107). -/
def catmull (p0 p1 p2 p3 u : Rat) : Rat :=
  (2 * p1 + (p2 - p0) * u + (2 * p0 - 5 * p1 + 4 * p2 - p3) * u * u + (3 * p1 - p0 - 3 * p2 + p3) * u * u * u) / 2

/-- Its derivative by u. -/
def catmullD (p0 p1 p2 p3 u : Rat) : Rat :=
  ((p2 - p0) + 2 * (2 * p0 - 5 * p1 + 4 * p2 - p3) * u + 3 * (3 * p1 - p0 - 3 * p2 + p3) * u * u) / 2

/-- One coordinate function over four points. -/
def zip4 (f : Rat → Rat → Rat → Rat → Rat) (a b c d : List Rat) : List Rat :=
  List.zipWith (fun (x : Rat × Rat) (y : Rat × Rat) => f x.1 x.2 y.1 y.2) (a.zip b) (c.zip d)

/-- A segment with all that its shape needs: its start, its record and the knots on either side. -/
structure Shape where
  start : List Rat
  rec_ : PathRec
  ends : List Rat
  p0 : List Rat
  p3 : List Rat
deriving DecidableEq, Repr

/-- The shape of the segment that starts at `start`; a missing neighbour knot is the reflection (R107). -/
def shapeOf (before : Option (List Int)) (start : List Int) (r : PathRec) (next : Option PathRec) : Shape :=
  let p1 := toCounts start
  let p2 := toCounts r.ends
  let p0 := match before with
    | some b => toCounts b
    | none => subV (scaleV 2 p1) p2
  let p3 := match next with
    | some n => if n.type = 3 then toCounts n.ends else subV (scaleV 2 p2) p1
    | none => subV (scaleV 2 p2) p1
  ⟨p1, r, p2, p0, p3⟩

/-- An arc's centre, radii, start angle and signed sweep in its plane (R106). -/
structure Arc where
  cx : Rat
  cy : Rat
  r0 : Rat
  r1 : Rat
  a0 : Rat
  sweep : Rat
deriving DecidableEq, Repr

def arcOf (g : Shape) : Arc :=
  let i := g.rec_.mi.val
  let j := g.rec_.mj.val
  let sx := g.start.getD i 0
  let sy := g.start.getD j 0
  let ex := g.ends.getD i 0
  let ey := g.ends.getD j 0
  let cx := sx + (g.rec_.centre.1 : Rat) / 65536
  let cy := sy + (g.rec_.centre.2 : Rat) / 65536
  let a0 := atan2Rat (sy - cy) (sx - cx)
  let a1 := atan2Rat (ey - cy) (ex - cx)
  let turn := 2 * piRat
  let full := sx == ex && sy == ey
  let ccw := if full then turn else if a0 < a1 then a1 - a0 else a1 - a0 + turn
  let sweep := if g.rec_.type = 2 then ccw else if full then -turn else ccw - turn
  ⟨cx, cy, norm [sx - cx, sy - cy], norm [ex - cx, ey - cy], a0, sweep⟩

/-- The chord ends of a spline segment: 17 points. -/
def splinePoints (g : Shape) : List (List Rat) :=
  (List.range 17).map fun k => zip4 (fun a b c d => catmull a b c d ((k : Rat) / 16)) g.p0 g.start g.ends g.p3

/-- The lengths of the 16 chords (R107). -/
def chords (g : Shape) : List Rat :=
  let ps := splinePoints g
  List.zipWith (fun a b => norm (subV b a)) ps (ps.drop 1)

/-- The path length of a segment in counts. -/
def segLen (g : Shape) : Rat :=
  match g.rec_.type with
  | 0 => norm (subV g.ends g.start)
  | 3 => (chords g).foldl (· + ·) 0
  | 4 => 0
  | _ =>
    let a := arcOf g
    let others := (subV g.ends g.start).mapIdx fun k d => if k = g.rec_.mi.val ∨ k = g.rec_.mj.val then 0 else d
    norm (a.r0 * a.sweep :: others)

/-- The spline parameter at path length `s`: linear within each chord. -/
def splineU : List Rat → Nat → Rat → Rat
  | [], _, _ => 1
  | c :: r, k, s => if s < c then ((k : Rat) + s / c) / 16 else splineU r (k + 1) (s - c)

/-- The position at path length `s` and the unit tangent there. An arc whose radii differ takes one linear in its sweep (R106, log
entry 211). -/
def segAt (g : Shape) (len s : Rat) : List Rat × List Rat :=
  match g.rec_.type with
  | 0 => let d := subV g.ends g.start
    (if len = 0 then g.ends else addV g.start (scaleV (s / len) d), unitV d)
  | 3 =>
    let u := splineU (chords g) 0 s
    (zip4 (fun a b c d => catmull a b c d u) g.p0 g.start g.ends g.p3,
      unitV (zip4 (fun a b c d => catmullD a b c d u) g.p0 g.start g.ends g.p3))
  | 4 => (g.start, g.start.map fun _ => 0)
  | _ =>
    let a := arcOf g
    let u := if len = 0 then 1 else s / len
    let r := a.r0 + (a.r1 - a.r0) * u
    let th := a.a0 + a.sweep * u
    let d := subV g.ends g.start
    let pos := g.start.mapIdx fun k p =>
      if k = g.rec_.mi.val then a.cx + r * cosRad th
      else if k = g.rec_.mj.val then a.cy + r * sinRad th
      else p + d.getD k 0 * u
    let tan := d.mapIdx fun k x =>
      if k = g.rec_.mi.val then -(r * a.sweep * sinRad th)
      else if k = g.rec_.mj.val then r * a.sweep * cosRad th
      else x
    (pos, unitV tan)

/-- The rule of R106 on an arc's radii. -/
def arcOk (g : Shape) : Bool :=
  if g.rec_.type = 1 ∨ g.rec_.type = 2 then let a := arcOf g; decide (|a.r1 - a.r0| ≤ 1) else true

/-- Do all arcs among records that follow one another from a start meet R106? -/
def arcsOk (start : List Int) : List PathRec → Bool
  | [] => true
  | r :: rs => arcOk (shapeOf none start r none) && arcsOk (if r.type = 4 then start else r.ends) rs

/-! Velocity limits (R108). -/

/-- The limits of the members, in order. -/
def memberLims (s : State) (g : Group) : List Lim := g.members.map fun i => limOf (profileOf s.strands[i].cfg)

def minOpt (a b : Option Rat) : Option Rat :=
  match a, b with
  | some x, some y => some (min x y)
  | some x, none => some x
  | none, y => y

/-- The least of quotients `num / |t|` over members whose tangent entry is not 0. -/
def leastRatio (nums : List Rat) (t : List Rat) : Option Rat :=
  (List.zipWith (fun n c => if c = 0 then none else some (n / |c|)) nums t).foldl minOpt none

/-- The limit inside a segment at a point with tangent `t`. -/
def insideLimit (ls : List Lim) (g : Shape) (t : List Rat) : Rat :=
  let feed := (g.rec_.feed : Rat) / 16
  let v := match leastRatio (ls.map (·.vm)) t with
    | some x => min feed x
    | none => feed
  if g.rec_.type = 1 ∨ g.rec_.type = 2 then
    let amin := min ((ls.getD g.rec_.mi.val (limOf (profileOf StrandCfg.reset))).a2)
      ((ls.getD g.rec_.mj.val (limOf (profileOf StrandCfg.reset))).a2)
    min v (sqrtRat (amin * (arcOf g).r0))
  else v

/-- Tangents closer than this agree (log entry 18). -/
def tangentTol : Rat := (1 : Rat) / (2 ^ 20 : Nat)

/-- The limit at the joint of two segments; nothing where it sets none. A joint inside a spline run sets none, unless
the run was cut there (R107). -/
def jointLimit (ls : List Lim) (cut : Bool) (a b : Shape) (la lb : Rat) : Option Rat :=
  if a.rec_.exact || a.rec_.type == 4 || b.rec_.type == 4 then some 0
  else if a.rec_.type = 3 ∧ b.rec_.type = 3 ∧ !cut then none
  else
    let d := subV (segAt b lb 0).2 (segAt a la la).2
    leastRatio (ls.map (·.vs)) (d.map fun c => if |c| ≤ tangentTol then 0 else c)

/-- The shapes of the queue from its first segment on, at most `fuel` of them; `cut`: the first one ends its spline run
whatever stands behind it (R107). -/
def shapes : Nat → Bool → Option (List Int) → List Int → List PathRec → List Shape
  | 0, _, _, _, _ => []
  | _, _, _, _, [] => []
  | n + 1, cut, before, start, r :: rs =>
    let g := shapeOf (if r.type = 3 then before else none) start r (if cut then none else rs.head?)
    let e := if r.type = 4 then start else r.ends
    g :: shapes n false (if r.type = 3 ∧ !cut then some start else none) e rs

/-- A run that was at its end when the path entered the first segment ends there (R107). -/
def Group.cut (g : Group) : Bool := g.runEnds.getD false

/-- The shape of the segment `r` on which the path is, the rest of the queue being `rs`. -/
def Group.shape (g : Group) (r : PathRec) (rs : List PathRec) : Shape :=
  shapeOf g.before g.starts r (if g.cut then none else rs.head?)

/-- The limits inside a segment that starts at distance `d`: at its start, and on a curve at every sixteenth of its length
(log entry 18). -/
def innerLimits (ls : List Lim) (d : Rat) (g : Shape) : List (Rat × Rat) :=
  let len := segLen g
  let lim := fun (s : Rat) => (d + s, insideLimit ls g (segAt g len s).2)
  if g.rec_.type = 4 then []
  else if g.rec_.type = 0 then [lim 0]
  else (List.range 17).map fun k => lim (len * k / 16)

/-- The points at which the velocity is limited: distance from the first segment's start, and the limit. The end of the
last segment is 0 (R109). -/
def aheadLimits (ls : List Lim) : Bool → Rat → List Shape → List (Rat × Rat)
  | _, _, [] => []
  | _, d, [g] => innerLimits ls d g ++ [(d + segLen g, 0)]
  | cut, d, g :: h :: r =>
    let e := d + segLen g
    let j := match jointLimit ls cut g h (segLen g) (segLen h) with
      | some v => [(e, v)]
      | none => []
    innerLimits ls d g ++ j ++ aheadLimits ls false e (h :: r)

/-- The largest velocity at the end of a step of `dt` from `v` that still allows `w` at distance `D` with
deceleration `a`; where the step passes the point, the velocity is at most `w` at the point. -/
def brakeLimit (v w D a dt : Rat) : Rat :=
  let x := a * dt / 2
  let u := sqrtRat (max 0 (x * x + w * w + 2 * a * D - a * v * dt)) - x
  if w ≤ u then u
  else if v ≤ w then w
  else if 0 < D then max u (v - (v * v - w * w) * dt / (2 * D))
  else u

/-- The highest speed that follows from speed `v` and acceleration `a` as the jerk takes the acceleration away. -/
def topSpeed (v a j : Rat) : Rat := v + (if 0 < a then a * a / (2 * j) else 0)

/-- The path a jerk-limited fall from speed `v` and acceleration `a` to speed `w` takes; none where the speed stays within `w`. -/
def easeDist (v w a d j : Rat) : Rat :=
  if topSpeed v a j ≤ w then 0
  else
    let l := sStop (max 0 (v - w)) a d j
    segsDist l + w * segsTime l

/-- Does a jerk-limited step to the acceleration `a` keep every limit: the one inside, and those ahead, given by their distance and
limit? A point whose limit the speed does not reach is kept wherever it stands. -/
def jerkFits (l : Lim) (v acc inside : Rat) (pts : List (Rat × Rat)) (dt a : Rat) : Bool :=
  let w := max 0 (v + (acc + a) / 2 * dt)
  let ds := (v + w) / 2 * dt
  let top := max v (topSpeed w a l.j)
  decide (top ≤ inside) && pts.all fun p => decide (top ≤ p.2 ∨ easeDist w p.2 a l.d2 l.j + ds ≤ p.1)

/-- The largest acceleration between `lo` and `hi` that fits, by halving. -/
def bisectAcc (fits : Rat → Bool) : Nat → Rat → Rat → Rat
  | 0, lo, _ => lo
  | n + 1, lo, hi =>
    let m := (lo + hi) / 2
    if fits m then bisectAcc fits n m hi else bisectAcc fits n lo m

/-- One step of path velocity (R108): the largest that meets the limits, within member 0's a2 and d2 and its jerk; while the
path comes to its stop, no more than the stop leaves, without jerk (R110, log entry 213). -/
def pathVelocity (key : Nat) (ls : List Lim) (g : Group) (sh : List Shape) (dt : Rat) : Rat × Rat :=
  match ls, sh with
  | l :: _, h :: _ =>
    let inside := insideLimit ls h (segAt h (segLen h) g.s).2
    let pts := ((aheadLimits ls g.cut 0 sh).filter fun p => decide (g.s ≤ p.1)).map fun p => (p.1 - g.s, p.2)
    let braked := (pts.map fun p => brakeLimit g.v p.2 p.1 l.d2 dt).foldl min inside
    match g.stopping with
    | some d => (keep32 key 30 (min (max 0 (g.v - d * dt)) (max 0 (max (g.v - l.d2 * dt) braked))), 0)
    | none =>
      if l.scurve then
        let lo := max (-l.d2) (g.acc - l.j * dt)
        let hi := min l.a2 (g.acc + l.j * dt)
        let fits := jerkFits l g.v g.acc inside pts dt
        let a := if fits hi then hi else bisectAcc fits 24 lo hi
        let v := keep32 key 30 (max 0 (g.v + (g.acc + a) / 2 * dt))
        (v, if v = 0 then 0 else a)
      else
        let v := keep32 key 30 (max (max 0 (g.v - l.d2 * dt)) (min (g.v + l.a2 * dt) braked))
        (v, if dt = 0 then 0 else (v - g.v) / dt)
  | _, _ => (0, 0)

/-- Leave the first segment. -/
def popSegment (g : Group) : Group :=
  match g.queue with
  | [] => g
  | r :: rs => { g with
      queue := rs, s := 0, before := if r.type = 3 ∧ !g.cut ∧ !rs.isEmpty then some g.starts else none
      runEnds := match rs with
        | _ :: q => some q.isEmpty
        | [] => none
      starts := if r.type = 4 then g.starts else r.ends
      dwellLeft := match rs with
        | n :: _ => if n.type = 4 then n.dwell * 1000 else 0
        | [] => 0
      horizon := g.horizon - 1 }

/-- Go on by `ds` counts of path, into the next segments where the first is used up. -/
def advancePath : Nat → Group → Rat → Group
  | 0, g, _ => g
  | n + 1, g, ds =>
    match g.queue with
    | [] => { g with v := 0, acc := 0 }
    | r :: rs =>
      if r.type = 4 then g
      else if g.horizon = 0 then { g with v := 0, acc := 0 }
      else
        let len := segLen (g.shape r rs)
        if g.s + ds < len then { g with s := g.s + ds } else advancePath n (popSegment g) (g.s + ds - len)

/-- The references of the members at the group's present path length, with the last ones for the acceleration. -/
def pathRefs (key : Nat) (g : Group) (dt : Rat) : List (Int × Int × Int) :=
  let pt : List Rat × List Rat := match g.queue with
    | [] => (toCounts g.starts, g.starts.map fun _ => 0)
    | r :: rs => let h := g.shape r rs; segAt h (segLen h) g.s
  pt.1.mapIdx fun k p =>
    let v := roundFree (key + k) 31 (g.v * pt.2.getD k 0 * 16)
    let old := (g.refs.getD k (0, 0, 0)).2.1
    (roundFree (key + k) 32 (p * 65536), v, if dt = 0 then 0 else roundFree (key + k) 33 (((v - old : Int) : Rat) / 16 / dt))

/-- One update of a running group after `ns` of domain time. A stop discards the queue at standstill (R110, log entry 212). -/
def pathStep (key : Nat) (ls : List Lim) (distaff : Bool) (cycle : BitVec 48) (ns : Nat) (g : Group) : Group :=
  let dt : Rat := (ns : Rat) / (1000000000 : Nat)
  let g := if distaff then { g with horizon := min 256 g.queue.length } else g
  let out := fun (g : Group) => { g with refs := pathRefs key g dt, refCycle := cycle }
  let rest := fun (g : Group) => { g with running := false, stopping := none, queue := [], runEnds := none, acc := 0, left := [] }
  match g.queue with
  | [] => let g := out { g with v := 0, acc := 0 }
    if g.stopping.isSome then rest g else g
  | r :: rs =>
    -- a stopped distaff's horizon has run out: the path rests at its end
    if g.horizon = 0 then let g := out { g with v := 0, acc := 0 }
      if g.stopping.isSome then rest g else g
    else
    let g := if g.runEnds.isNone then { g with runEnds := some rs.isEmpty } else g
    if r.type = 4 ∧ g.stopping.isNone then
      if g.dwellLeft ≤ ns then out (popSegment g) else out { g with dwellLeft := g.dwellLeft - ns }
    else
      let (v, acc) := pathVelocity key ls g (shapes g.horizon g.cut g.before g.starts g.queue) dt
      let g' := advancePath (g.queue.length + 1) { g with v := v, acc := acc } (keep32 key 34 ((g.v + v) / 2 * dt))
      -- a step that can gain nothing more has reached its stop
      let g' := if v = 0 ∧ g.v = 0 ∧ g.stopping.isNone then popSegment { g' with v := 0 } else g'
      if g.stopping.isSome ∧ v = 0 then rest (out g') else out g'

/-! PATH_QUEUE, PATH_START, PATH_STOP (R105, R109, R110). -/

/-- Where the next record appended to a group starts: the last queued end, or where the members stand (R106, log entry 210). -/
def pathEnd (s : State) (g : Group) : List Int :=
  let here := if g.running then g.starts else g.members.map fun i => (refNow s i).1
  g.queue.foldl (fun p r => if r.type = 4 then p else r.ends) here

def groupIx (g : Byte) : Fin 32 := Fin.ofNat 32 g.toNat

def checkPathStart (group : Byte) (s : State) : Half :=
  let g := s.groups[groupIx group]
  allowIf (!g.members.isEmpty && g.members.all fun i => s.strands[i].within [.run])

/-- PATH_START: the first segment starts at the members' references at the effective cycle (R105). -/
def applyPathStart (group : Byte) (s : State) : State :=
  let g := s.groups[groupIx group]
  let here := g.members.map fun i => (refNow s i).1
  let s := g.members.foldl (fun s i => (s.dropDeferred i).modStrand i fun x => { x with plan := none, stop := none, stored := none }) s
  s.modGroup (groupIx group) fun g => if g.running then g else { g with
    running := true, stopping := none, starts := here, before := none, runEnds := none, s := 0, v := 0, acc := 0, left := []
    refs := here.map fun p => (p, 0, 0), refCycle := s.seq.cycle }

/-- PATH_STOP: along the path with decel, or with member 0's d2; the remaining queue is discarded. A harder stop that runs
already goes on (log entry 24). -/
def applyPathStop (group : Byte) (decel : Word) (s : State) : State :=
  let g := s.groups[groupIx group]
  let d : Rat := if decel ≠ 0 then (decel.toNat : Rat) else
    match memberLims s g with
    | l :: _ => l.d2
    | [] => 0
  s.modGroup (groupIx group) fun g => if g.running then { g with stopping := some ((g.stopping.map fun e => max d e).getD d) } else { g with queue := [] }

end Sys2Proof.Machine
end

