-- ==== Sys2Proof/Machine/Skeins.lean ====
section
/-! DEFINITION. Cam tables (R111 to R115), skeins and their followers (R116 to R125), registration (R124) and the
publication map (R126 to R128). -/

namespace Sys2Proof.Machine

/-! Cam tables. -/

def camIx (t : Half) : Fin 64 := Fin.ofNat 64 t.toNat

/-- The points of a cam descriptor. -/
def camPoints (bs : List Byte) : Nat → Nat → List (BitVec 64)
  | 0, _ => []
  | n + 1, off => BitVec.ofNat 64 (fieldU bs off 8) :: camPoints bs n (off + 8)

/-- A cam descriptor, or nothing where a rule of R111 is broken. -/
def camBuf? (bs : List Byte) (points : Nat) : Option CamBuf :=
  let mode := fieldU bs 0 1
  let span := fieldU bs 8 8
  let rise := fieldS bs 16 8
  if decide (mode ≤ 1) && zeroBytes bs 1 8 && decide (65536 ≤ span) && (mode == 0 || rise == 0) && zeroBytes bs 24 32 &&
      decide (bs.length = 32 + 8 * points)
  then some ⟨mode == 1, span, rise, camPoints bs points 32⟩ else none

/-- The descriptor form of a cam buffer, as CAM_READ copies it out. -/
def camBytes (c : CamBuf) : List Byte :=
  leBytes 1 (b2n c.bounded) ++ List.replicate 7 0 ++ leBytes 8 c.span ++ leInt 8 c.rise ++ List.replicate 8 0 ++
    c.points.flatMap bytesOf

/-- Bobbins a buffer of `n` points takes: 32 points to a bobbin and one for the header (R113). -/
def camBobbins (n : Nat) : Nat := (n + 31) / 32 + 1

/-- Point k of a buffer, wrapped by rise or reflected at the ends (R112). -/
def camPoint (c : CamBuf) (k : Int) : Int :=
  let n : Int := c.points.length
  let at_ := fun (j : Int) => (c.points.getD j.toNat 0).toInt
  if c.bounded then
    if k < 0 then 2 * at_ 0 - at_ (-k)
    else if n ≤ k then 2 * at_ (n - 1) - at_ (2 * (n - 1) - k)
    else at_ k
  else if n = 0 then 0
  else at_ (k % n) + (k / n) * c.rise

/-- The spacing of the points in Q47.16 (R112). -/
def camStep (c : CamBuf) : Rat :=
  (c.span : Rat) / (if c.bounded then ((c.points.length - 1 : Nat) : Rat) else (c.points.length : Rat))

/-- The four points of segment k. -/
def camSegment (c : CamBuf) (k : Int) : List Int :=
  [camPoint c (k - 1), camPoint c k, camPoint c (k + 1), camPoint c (k + 2)]

/-- What a follower keeps of a cam: segment number and its four points. -/
abbrev CamSeg := Option (Int × List Int)

/-- f(m), its slope, the segment the follower then keeps, and whether a bounded table holds an end (R112, R115). -/
def camEval (c : CamBuf) (kept : CamSeg) (m : Int) : Rat × Rat × CamSeg × Bool :=
  if c.bounded && decide (m < 0) then ((camPoint c 0 : Rat), 0, none, true)
  else if c.bounded && decide ((c.span : Int) ≤ m) then ((camPoint c (c.points.length - 1 : Nat) : Rat), 0, none, true)
  else
    let h := camStep c
    let k := floorRat ((m : Rat) / h)
    let u := (m : Rat) / h - k
    let pts := match kept with
      | some (j, ps) => if j = k then ps else camSegment c k
      | none => camSegment c k
    let g := fun (i : Nat) => (pts.getD i 0 : Rat)
    (catmull (g 0) (g 1) (g 2) (g 3) u, catmullD (g 0) (g 1) (g 2) (g 3) u / h, some (k, pts), false)

/-- The points an evaluation reads from the banks: the four of a segment it enters, or the end it holds (R112, R115). -/
def camReads (c : CamBuf) (kept seg : CamSeg) (m : Int) : List Nat :=
  let n : Int := c.points.length
  match seg with
  | none => [if m < 0 then 0 else c.points.length - 1]
  | some (k, _) =>
    if kept.any fun x => x.1 == k then []
    else [k - 1, k, k + 1, k + 2].flatMap fun j =>
      (if !c.bounded then [j % n] else if j < 0 then [0, -j] else if n ≤ j then [n - 1, 2 * (n - 1) - j] else [j]).map Int.toNat

/-- CAM_SWAP is refused while the shadow is not completely loaded. -/
def checkCamSwap (table : Half) (s : State) : Half := allowIf s.cams[camIx table].complete

/-- The shadow becomes active and the former active buffer the shadow; followers drop their segments (R114). -/
def applyCamSwap (table : Half) (s : State) : State :=
  s.modCam (camIx table) fun c => { c with
    active := c.shadow, shadow := c.active, complete := c.active.isSome
    chainActive := c.chainShadow, chainShadow := c.chainActive, epoch := c.epoch + 1 }

/-- CAM_EDIT goes on: `n` more points are written, each as one word (R115). -/
def State.editBy (s : State) (n : Nat) : State :=
  match s.dist.edit with
  | none => s
  | some r =>
    ((s.wakeChain r.chain).modMem fun m => m.putPoints r.chain r.next (r.rest.take n)).modDist fun d => { d with
      edit := some { r with next := r.next + min n r.rest.length, rest := r.rest.drop n } }

/-- It ends with its last point. -/
def State.endEdit (s : State) : State :=
  match s.dist.edit with
  | some r =>
    if r.rest.isEmpty then
      let s := s.modDist fun d => { d with edit := none }
      match originOf r.cmd with
      | some o => s.finish r.cmd o stOk []
      | none => s
    else s
  | none => s

/-- The points an edit writes before the next cycle start: an open number, and all of them where no cycle runs (log
entry 165). -/
def editNow (s : State) (n : Nat) : Nat := if s.seq.running then Config.editPace (s.key 0) else n

/-- At a cycle start an edit in progress has gone on by at least one point. -/
def State.editOn (s : State) : State :=
  match s.dist.edit with
  | none => s
  | some r => (s.editBy (1 + editNow s r.rest.length)).endEdit

/-- CAM_EDIT: an edit beyond the last point, or of a table with no active buffer, is BAD_ARG, and nothing is written. -/
def runCamEdit (i : Instr) (o : Origin) (table : Half) (first : Word) (bs : List Byte) (s : State) : State :=
  match s.cams[camIx table].active with
  | none => s.finish i o stBadArg []
  | some c =>
    let n := bs.length / 8
    if c.count < first.toNat + n then s.finish i o stBadArg []
    else
      let s := s.modDist fun d => { d with edit := some ⟨i, s.cams[camIx table].chainActive, first.toNat, camPoints bs n 0⟩ }
      (s.editBy (editNow s n)).endEdit.tick

/-! The publication map. -/

def mapFind (l : List (BitVec 24 × Sample)) (e : BitVec 24) : Option Sample := (l.find? fun x => x.1 == e).map (·.2)

/-- Delete entry j: the last entry takes its word, and a bobbin that is left empty is freed (R126). The placement is the
device's own (log entry 185). -/
def State.dropEntry (s : State) (j : Nat) : State :=
  let last := s.mem.mapCount - 1
  let s := s.modMem fun m =>
    let m := if j = last then m else m.mergeWord (m.mapWord j) (m.word (m.mapWord last))
    { m.mergeWord (m.mapWord last) 0 with mapCount := last }
  if last % 32 = 0 then
    match s.mem.mapChain.getLast? with
    | some b => (s.freeChain [b]).modMem fun m => { m with mapChain := m.mapChain.dropLast }
    | none => s
  else s

/-- The poisoned word a search of the map for an endpoint meets, by its byte address (R71). -/
def mapBad (m : Mem) (e : BitVec 24) : Option Nat :=
  let n := ((m.mapIndex e).map (· + 1)).getD m.mapCount
  (((List.range n).map m.mapWord).find? m.isPoisoned).map (8 * ·)

/-- PUBMAP_WRITE (R126): replace, add with a bobbin where the map is full, or delete. The banks it searches and writes are
woken (R35). -/
def runPubmap (endpoint index : Word) (s : State) : CmdResult :=
  let e : BitVec 24 := endpoint.truncate 24
  let v : Sample := index.truncate 18
  let s := s.wakeChain s.mem.mapChain
  let m := s.mem
  match mapBad m e, m.mapIndex e with
  | some a, _ => (s, stPoisoned, leBytes 4 a)
  | none, some j => if index.getLsbD 31 then (s.dropEntry j, stOk, []) else (s.modMem fun m => m.putEntry j e v, stOk, [])
  | none, none =>
    if index.getLsbD 31 then (s, stOk, [])
    else if m.mapCount % 32 ≠ 0 then
      (s.modMem fun m => { m with mapCount := m.mapCount + 1 }.putEntry m.mapCount e v, stOk, [])
    else
      match s.grab with
      | (t, some b) =>
        (t.modMem fun q => { q with mapCount := q.mapCount + 1, mapChain := q.mapChain ++ [b] }.putEntry q.mapCount e v, stOk, [])
      | (_, none) => refuse s stNoBobbin

/-- Drop every engine's cached entries (R127). -/
def State.dropMapCaches (s : State) : State :=
  (List.finRange 17).foldl (fun s e => s.modRole e fun r => { r with mapCache := [] }) s

/-- Does a lookup go to the map and meet a poisoned word there? -/
def mapPoisoned (s : State) (e : EngineId) (ep : BitVec 24) : Bool :=
  (mapFind s.roles[e].mapCache ep).isNone && (s.mem.mapIndex ep).any fun j => s.mem.isPoisoned (s.mem.mapWord j)

/-- An engine looks an endpoint up: in its cache, else in the map, filling the cache (R127). -/
def State.lookupMap (s : State) (e : EngineId) (ep : BitVec 24) : State × Option Sample :=
  let c := s.roles[e].mapCache
  let keep := fun (s : State) (v : Sample) => s.modRole e fun r => { r with
    mapCache := ((ep, v) :: c.filter fun x => x.1 != ep).take 64 }
  match mapFind c ep, mapFind s.mem.pubmap ep with
  | some v, _ => (keep s v, some v)
  | none, some v => (keep (s.wakeChain s.mem.mapChain) v, some v)
  | none, none => (s.wakeChain s.mem.mapChain, none)

/-! The frozen area (R245). -/

/-- The area size in units of 16,384 indices: 0 acts as 1, above 16 as 16 (R261). -/
def areaUnits (l : Link) : Nat := max 1 (min 16 l.subSize.toNat)

/-- The first word of a receive area. -/
def areaBase (l : Link) (area : Bool) : Nat :=
  l.subBase.toNat * 131072 + (if area then areaUnits l * 18432 else 0)

/-- The word of a payload, and the byte-view address of its status byte. -/
def areaWord (l : Link) (area : Bool) (idx : Nat) : Nat := areaBase l area + idx
def areaStatus (l : Link) (area : Bool) (idx : Nat) : Nat := 8 * (areaBase l area + areaUnits l * 16384) + idx

/-- An entry of the frozen area in the present cycle: payload, age, and whether it arrived in the last cycle. -/
structure FrozenEntry where
  payload : Word72
  age : BitVec 6
  here : Bool
  poisoned : Bool
deriving DecidableEq, Repr

def frozen (s : State) (idx : Nat) : FrozenEntry :=
  let w := areaWord s.link (!s.link.area) idx
  let st := s.mem.readByte (areaStatus s.link (!s.link.area) idx)
  ⟨s.mem.word w, st.truncate 6, bits st.toNat 7 6 == (s.seq.cycle - 1).toNat % 4 && decide (idx < areaUnits s.link * 16384),
    s.mem.isPoisoned w⟩

/-! Skeins. -/

def skeinIx (k : Byte) : Fin 64 := Fin.ofNat 64 k.toNat

/-- A SKEIN_DEFINE descriptor, or nothing where a rule of R120 is broken. -/
def skein? (master : Word) (coupling : Nat) (bs : List Byte) : Option SkeinCfg :=
  let den := fieldU bs 4 4
  let cam := fieldU bs 8 2
  let age := fieldU bs 10 1
  let flags := fieldU bs 11 1
  if den != 0 && decide (cam < 64) && (coupling == 1 || cam == 0) && decide (1 ≤ age) && decide (age ≤ 62) &&
      decide (flags < 2) && zeroBytes bs 12 16 && zeroBytes bs 54 64 && decide (fieldU bs 52 2 < 256) &&
      decide (bs.length = 64)
  then some ⟨master.truncate 24, coupling, fieldS bs 0 4, den, Fin.ofNat 64 cam, age, flags == 1, fieldS bs 16 8,
    fieldS bs 24 8, fieldS bs 32 8, fieldU bs 40 8, fieldU bs 48 4, Fin.ofNat 256 (fieldU bs 52 2)⟩
  else none

/-- Is any strand engaged in a skein? -/
def engagedIn (s : State) (k : Fin 64) : Bool :=
  (s.strandsWhere fun x => match x.engage with
    | some e => decide (e.skein = k)
    | none => false) != []

def checkSkeinDefine (skein : Byte) (master : Word) (coupling : Byte) (bs : List Byte) (s : State) : Half :=
  if (skein? master coupling.toNat bs).isNone then stBadArg else allowIf (!engagedIn s (skeinIx skein))

/-- The definition takes its place; the registration trim returns to 0 (R124). -/
def applySkeinDefine (skein : Byte) (master : Word) (coupling : Byte) (bs : List Byte) (s : State) : State :=
  s.modSkein (skeinIx skein) fun k => { k with
    cfg := skein? master coupling.toNat bs, phiTo := 0 }

def checkEngage (skein : Byte) (strand : Half) (s : State) : Half :=
  allowIf (s.strands[strandIx strand].within [.run] && (s.skeins[skeinIx skein].cfg).isSome)

/-- SKEIN_ENGAGE takes effect (R122): the follower runs on its present reference until its master's entry is good, and the
cycles from this one on count as missing till then. Its trim is the skein's target (log entry 166). -/
def applyEngage (skein : Byte) (strand : Half) (ramp : Word) (s : State) : State :=
  let i := strandIx strand
  let (pos, vel, _) := refNow s i
  let k := s.skeins[skeinIx skein]
  let s := (s.leavePath i).dropDeferred i
  s.modStrand i fun x => { x with
    plan := none, stop := none, refPos := pos, refVel := vel, updCycle := s.seq.cycle
    engage := some ⟨skeinIx skein, ramp.toNat, false, s.seq.cycle.toNat, pos, vel, pos, 0, 0, 0, 0, 0, 0, false, 0,
      s.seq.cycle.toNat, 0, false, none, none, 0, false, k.phiTo, k.phiTo, s.seq.cycle.toNat, 0, k.trims⟩ }

/-- SKEIN_DISENGAGE: the strand is engaged in the named skein (log entry 152). -/
def checkDisengage (skein : Byte) (strand : Half) (s : State) : Half :=
  allowIf ((s.strands[strandIx strand].engage).any fun e => decide (e.skein = skeinIx skein))

/-- SKEIN_DISENGAGE: to standstill in RUN with decel, or with the profile's d2 and d1; no source takes the reference before
it has come to rest (R122). -/
def applyDisengage (strand : Half) (decel : Word) (s : State) : State :=
  let i := strandIx strand
  let (pos, vel, acc) := refNow s i
  let p := planStop (profileOf s.strands[i].cfg) pos vel acc (decel != 0) decel.toNat
  s.modStrand i fun x => { x with
    engage := none, source := 0, refPos := pos, refVel := vel, updCycle := s.seq.cycle, plan := none
    stop := some ⟨p, decel != 0, .toRun, p.ticks⟩ }

/-- REG_TRIM (R124). -/
def applyRegTrim (skein probe : Byte) (gain limit ramp : Word) (s : State) : State :=
  s.modSkein (skeinIx skein) fun k => { k with
    regProbe := Fin.ofNat 16 probe.toNat, regGain := gain.toInt, regLimit := limit.toNat, regRamp := ramp.toNat, regOn := true }

def applyHoldCycles (strand : Half) (hold : Byte) (s : State) : State :=
  s.modStrand (strandIx strand) fun x => { x with cfg := { x.cfg with holdCycles := hold.toNat } }

/-- A follower's trim in a cycle: linear from where its ramp began to the target (R124), in Q47.16 counts. -/
def Engage.trim (e : Engage) (cycle tNs : Nat) : Rat :=
  let t := (cycle - e.trimAt) * tNs
  if e.trimRamp ≤ t then e.trimTo else e.trimFrom + (e.trimTo - e.trimFrom) * ((t : Rat) / (e.trimRamp : Rat))

/-- At its first update after a correction, a follower's ramp starts from its present trim (R124). -/
def Engage.takeTrim (cycle tNs : Nat) (k : Skein) (e : Engage) : Engage :=
  if e.trimSeen = k.trims then e
  else { e with trimFrom := e.trim cycle tNs, trimTo := k.phiTo, trimAt := cycle, trimRamp := k.phiRamp, trimSeen := k.trims }

/-- One event of a skein's probe: the latched position of its register strand, if the mask holds it (R124). -/
def regEvent (key : Nat) (cfg : SkeinCfg) (latched : Option Int) (k : Skein) : Skein :=
  if cfg.regRepeat = 0 ∨ !k.regOn ∨ k.regGain = 0 then k
  else
    match latched with
    | none => { k with regMiss := true }
    | some p =>
      let r : Int := cfg.regRepeat
      let e0 := (p - cfg.regTarget) % r
      let e := if r ≤ 2 * e0 then e0 - r else e0
      if (cfg.regWindow : Int) * 256 < |e| then { k with regMiss := true }
      else
        let c : Rat := -((k.regGain : Rat) * e / 65536)
        let lim : Rat := (k.regLimit : Rat) * 256
        let cc := max (-lim) (min lim c)
        { k with
          phiTo := k.phiTo + keep32 key 40 cc, phiRamp := k.regRamp * 1000, trims := k.trims + 1
          regLimitFlag := k.regLimitFlag || decide (cc ≠ c) }

/-! The follower's update (R117 to R125). -/

/-- Take a good entry: unwrap its position against the last extended master, and form Â (R118). -/
def takeEntry (key : Nat) (cycle tNs : Nat) (e : Engage) (mLast : Int) (idx : Nat) (f : FrozenEntry) : Engage × Int :=
  let raw : Nat := f.payload.toNat % 2 ^ 40
  let vel := toSigned 32 (f.payload.toNat / 2 ^ 40)
  let m := mLast - mLast % 256 + toSigned 40 (wrapNat 40 ((raw : Int) - mLast / 256)) * 256
  let c := cycle - f.age.toNat - 1
  let dt : Rat := (((c : Int) - e.lastCycle) * tNs : Int) / (1000000000 : Nat)
  let aHat := if e.fresh ∧ c ≠ e.lastCycle then keep32 key 41 (((vel - e.lastVel : Int) : Rat) / 16 / dt) else e.aHat
  ({ e with
      lastPos := m, lastVel := vel, lastCycle := c, aHat := aHat, fresh := true, missing := 0, seenCycle := cycle + 1
      age := f.age.toNat, extrapolating := false, index := some idx }, m)

/-- One entry that is not good counts as missing (R119, R125), with the cycles since the last one counted. -/
def missEntry (cycle : Nat) (e : Engage) : Engage :=
  { e with missing := e.missing + (cycle + 1 - e.seenCycle), seenCycle := cycle + 1, extrapolating := true }

/-- The master now: position and velocity after Δt = (k − c) × T; without accel_est both go without the acceleration (R117, R118, log
entry 214). -/
def masterNow (key : Nat) (est : Bool) (cycle tNs : Nat) (e : Engage) : Int × Int :=
  let dt : Rat := (((cycle : Int) - e.lastCycle) * tNs : Int) / (1000000000 : Nat)
  let a : Rat := if est then e.aHat else 0
  (e.lastPos + roundFree key 42 (((e.lastVel : Rat) / 16 * dt + a * dt * dt / 2) * 65536),
   e.lastVel + roundFree key 43 (a * dt * 16))

/-- The law of R121 on a master: position and velocity, with the cam segment and range; a table with no active buffer leaves the follower at
s_e plus the phase change, at velocity 0 (log entry 215). -/
def skeinLaw (key : Nat) (cam : Option CamBuf) (epoch : Nat) (c : SkeinCfg) (e : Engage) (m v phi : Int) : Int × Int × CamSeg × Bool :=
  match c.coupling with
  | 0 => (e.sE + (2 * (c.num * (m - e.mE)) + c.den) / (2 * (c.den : Int)) + phi - e.phiE,
      roundFree key 44 ((c.num * v : Int) / ((c.den : Nat) : Rat)), none, false)
  | 1 =>
    match cam with
    | some b =>
      let (f, d, seg, rng) := camEval b (if e.camEpoch = epoch then e.camSeg else none) (m - c.camOrigin)
      (roundFree key 45 f + phi, roundFree key 46 (d * v), seg, rng)
    | none => (e.sE + phi - e.phiE, 0, none, false)
  | _ => (m + phi, v, none, false)

/-- ns since the cycle an engagement's time counts from. -/
def Engage.since (e : Engage) (cycle tNs : Nat) : Nat := (cycle - e.base) * tNs

/-- The follower's own reference `t` ns on: extrapolated with its velocity (R122). -/
def Engage.own (e : Engage) (t : Nat) : Rat := e.s0 + (e.v0 : Rat) * 4096 * t / (1000000000 : Nat)

/-- The blend of R122 between the follower's own reference and the law, `t` ns after the engaging update. -/
def blend (key : Nat) (e : Engage) (t : Nat) (sLaw vLaw : Int) : Int × Int :=
  let tau : Rat := if e.ramp = 0 then 1 else min 1 ((t : Rat) / ((e.ramp * 1000 : Nat) : Rat))
  let w := 3 * tau * tau - 2 * tau * tau * tau
  let sOwn := e.own t
  (roundFree key 47 ((1 - w) * sOwn + w * sLaw), roundFree key 48 ((1 - w) * (e.v0 : Rat) + w * vLaw))

/-- Can a step from speed `u` come to rest `d` ahead, within the speed `vc` and the acceleration `a`: no nearer than it brakes,
and no farther than it goes by way of its highest speed? -/
def restsAt (vc a dt u d : Rat) : Bool :=
  let p := min vc ((u + a * dt) / 2)
  decide (0 < a) && decide (0 ≤ u) && decide (u ≤ min vc (a * dt)) && decide (u * u ≤ 2 * a * d) && decide (2 * a * d ≤ 2 * p * p - u * u)

/-- Move the host phase toward its target, at most v_corner and a2 (R123). It rests there when one step can bring it there at
rest; a phase too fast for its target brakes past it and returns. Counts and seconds. -/
def hostPhase (key : Nat) (l : Lim) (dt target phi v : Rat) : Rat × Rat :=
  let d := target - phi
  if d = 0 ∧ v = 0 then (phi, v)
  else
    let sg : Rat := if d < 0 then -1 else 1
    let toward := sg * v
    let w := max (toward - l.a2 * dt) (min (min (toward + l.a2 * dt) l.vc) (brakeLimit toward 0 |d| l.a2 dt))
    let step := (toward + w) / 2 * dt
    if restsAt l.vc l.a2 dt toward |d| then (target, 0)
    else (keep32 key 49 (phi + sg * step), keep32 key 50 (sg * w))

/-- Does a strand's read of its master meet a poisoned word (R92)? -/
def masterPoisoned (s : State) (i : StrandId) (c : SkeinCfg) : Bool :=
  mapPoisoned s s.strands[i].engine c.master ||
  match (s.lookupMap s.strands[i].engine c.master).2 with
  | some k => (frozen s k.toNat).here && (frozen s k.toNat).poisoned
  | none => false

/-- One update of an engaged follower: the strand with its new engagement, and its reference (position, velocity).
A poisoned entry is reported for POISONED_DATA (R92). -/
def State.followerUpdate (s : State) (i : StrandId) (e : Engage) (c : SkeinCfg) (ns : Nat) :
    State × Int × Int × Bool :=
  let x := s.strands[i]
  let key := s.key i
  let cycle := s.seq.cycle.toNat
  let dt : Rat := (ns : Rat) / (1000000000 : Nat)
  let poisoned := masterPoisoned s i c
  let (s, idx) := s.lookupMap x.engine c.master
  let s := if c.coupling = 1 then s.wakeChain s.cams[c.camTable].chainActive else s
  let entry := idx.map fun k => (k.toNat, frozen s k.toNat)
  let (e, mLast) := match entry with
    | some (k, f) => if f.here && !f.poisoned && decide (f.age.toNat ≤ c.maxAge) then takeEntry key cycle s.tNs e x.mLast k f
        else (missEntry cycle e, x.mLast)
    | none => (missEntry cycle e, x.mLast)
  let e := e.takeTrim cycle s.tNs s.skeins[e.skein]
  let target : Rat := if bits x.ctl.toNat 4 3 = 1 then ((toSigned 64 (s.host.latched[i].toNat / 2 ^ 64) : Int) : Rat) / 65536 else 0
  let (phiH, phiHV) := hostPhase key (limOf (profileOf x.cfg)) dt target x.phiH x.phiHV
  let phi := c.phase + roundFree key 51 (phiH * 65536) + roundFree key 52 (e.trim cycle s.tNs)
  let put := fun (e : Engage) => s.modStrand i fun x => { x with engage := some e, mLast := mLast, phiH := phiH, phiHV := phiHV }
  let own := roundFree key 53 (e.own (e.since cycle s.tNs))
  if !e.begun && !e.fresh then (put e, own, e.v0, poisoned)
  else
    let (m, v) := masterNow key c.accelEst cycle s.tNs e
    let e := if e.begun then e
      else { e with begun := true, base := cycle, s0 := own, sE := own, mE := m, phiE := phi }
    let cam := if c.coupling = 1 then s.camActive c.camTable else none
    let (sl, vl, seg, rng) := skeinLaw key cam s.cams[c.camTable].epoch c e m v phi
    let poisoned := poisoned || cam.any fun b =>
      (camReads b (if e.camEpoch = s.cams[c.camTable].epoch then e.camSeg else none) seg (m - c.camOrigin)).any fun k =>
        s.mem.isPoisoned (s.mem.pointWord s.cams[c.camTable].chainActive k)
    let (p, w) := blend key e (e.since cycle s.tNs) sl vl
    (put { e with camSeg := seg, camEpoch := s.cams[c.camTable].epoch, camRange := rng }, p, w, poisoned)

/-- The skein status of STRAND_READ, bytes 47:40 (R129). -/
def skeinStatus (key : Nat) (s : State) (i : StrandId) : List Byte :=
  match s.strands[i].engage with
  | none => [0xFF, 0, 0, 0, 0, 0, 0, 0]
  | some e =>
    let k := s.skeins[e.skein]
    let engaging := !e.begun || decide (e.since s.seq.cycle.toNat s.tNs < e.ramp * 1000)
    leBytes 1 e.skein ++ leBytes 1 e.age ++ leBytes 1 e.missing ++
      leBytes 1 (pack [(b2n engaging, 1), (b2n e.extrapolating, 1), (b2n e.camRange, 1), (b2n k.regLimitFlag, 1), (b2n k.regMiss, 1)]) ++
      leInt 4 (roundFree key 54 (e.trim s.seq.cycle.toNat s.tNs / 256))

end Sys2Proof.Machine
end

