-- ==== Sys2Proof/Machine/Feedback.lean ====
section
/-! DEFINITION. Feedback units (R167 to R179), probes (R180, R181), compare units (R182, R183), and the enlarger's
input steps (R160). Observer states are scaled by 2^32; times are samples of 5 ns. -/

namespace Sys2Proof.Machine

def fbIx (u : Byte) : FbId := Fin.ofNat 48 u.toNat

/-! FB_CONFIG (R167, R168, R175). -/

/-- The settings the arguments name. -/
def fbCfgOf (mode : Byte) (filter : Half) (bits_ : Byte) (bandwidth : Word) : FbCfg :=
  ⟨mode.truncate 3, mode.getLsbD 3, filter.truncate 9, bits_.truncate 6, bits_.getLsbD 6,
    BitVec.ofNat 8 (bits bandwidth.toNat 23 16), bandwidth.truncate 16, BitVec.ofNat 8 (bits bandwidth.toNat 31 24)⟩

def checkFbConfig (u : FbId) (s : State) : Half := allowIf ((s.strandsOfFb u).all fun i => s.strands[i].within cfgStates)

/-- The levels of the three input lines as accepted last. -/
def Fb.lines (u : Fb) : BitVec 3 := BitVec.ofNat 3 (pack [(b2n u.a, 1), (b2n u.b, 1), (b2n (u.hall.getLsbD 2), 1)])

/-- The sector of a Hall code (R172). -/
def hallSector (code : BitVec 3) : Option (Fin 6) :=
  match code.toNat with
  | 1 => some 0
  | 3 => some 1
  | 2 => some 2
  | 6 => some 3
  | 4 => some 4
  | 5 => some 5
  | _ => none

/-- A unit whose mode or inversion changes starts again from zero; only its fault bit stays (R168). In Hall mode it starts on the code
its lines show: a valid one gives the sector, an invalid one sets its flag and counts nothing (R172, log entry 35). -/
def clearUnit (u : Fb) (c : FbCfg) : Fb :=
  let code := u.lines
  let bad := c.mode == 2 && (code == 0 || code == 7)
  { Fb.reset with
    cfg := c, sh := c, now := u.now, clock := u.clock, a := u.a, b := u.b, bPrev := u.bPrev, bAt := u.bAt, hall := code
    sector := if c.mode == 2 then hallSector code else none
    lineAt := u.lineAt, maHigh := u.maHigh
    stat := setBit (if fbFaulted u then 0x400 else 0) 1 bad }

def applyFbConfig (u : FbId) (c : FbCfg) (s : State) : State :=
  let s := s.wakeFn (fbFn u)
  let f := s.fbs[u]
  let s := s.setFb u (if f.cfg.mode = c.mode ∧ f.cfg.invert = c.invert then { f with cfg := c, sh := c } else clearUnit f c)
  if !fbCause s u && (s.strandsOfFb u).all fun i => s.strands[i].within [.off] then
    s.modFb u fun f => { f with stat := setBit f.stat 10 false }
  else s

/-! The observer (R178). -/

/-- ω_o in rad/s. -/
def omegaOf (c : FbCfg) : Rat := 2 * piRat * (c.bandwidth.toNat : Rat)

/-- The difference y − p of a word and a scaled position, wrapped to the word (R176, R178). -/
def wrapErr (n y : Nat) (p : Int) : Int := toSigned (n + 32) (wrapNat (n + 32) ((y : Int) * 2 ^ 32 - p))

/-- One observer step with error `e`. -/
def obsStep (key : Nat) (w : Rat) (e : Int) (u : Fb) : Fb :=
  let ts : Rat := (1 : Rat) / (200000000 : Nat)
  { u with
    pHat := u.pHat + roundFree key 70 (ts * (u.vHat + 3 * w * e))
    vHat := u.vHat + roundFree key 71 (ts * (u.aHat + 3 * w * w * e))
    aHat := u.aHat + roundFree key 72 (ts * (w * w * w * e)) }

/-- What an error `e` adds to the step of one sample. -/
def obsCorrect (key : Nat) (w : Rat) (e : Int) (u : Fb) : Fb :=
  let ts : Rat := (1 : Rat) / (200000000 : Nat)
  { u with
    pHat := u.pHat + roundFree key 103 (ts * (3 * w * e))
    vHat := u.vHat + roundFree key 104 (ts * (3 * w * w * e))
    aHat := u.aHat + roundFree key 105 (ts * (w * w * w * e)) }

/-- `n` samples: the error is y − p̂ in count modes and 0 in serial modes. -/
def runObs (key : Nat) (w : Rat) : Nat → Fb → Fb
  | 0, u => u
  | n + 1, u =>
    let e := if u.cfg.mode = 3 ∨ u.cfg.mode = 4 then 0 else wrapErr 32 u.count.toNat u.pHat
    runObs key w n (obsStep key w e u)

/-- A unit goes on by `n` samples; the observer of a unit that is off stands. -/
def advanceFb (key n : Nat) (u : Fb) : Fb :=
  let v := if u.cfg.mode = 0 then u else runObs key (omegaOf u.cfg) n u
  { v with now := u.now + n, clock := u.clock + n, maHigh := u.maHigh - n }

/-- A unit reaches the next cycle start, `t` samples after the last one. -/
def fbCycle (key t : Nat) (u : Fb) : Fb := { advanceFb key (t - u.now) u with now := 0 }

/-- The interpolated position p_i in 1/256 count, on the extended count (R176, R178). At a counted edge it is the count. -/
def piOf (key : Nat) (u : Fb) : Int :=
  let n := wordBits u.cfg
  if u.cfg.mode = 3 ∨ u.cfg.mode = 4 then
    roundFree key 73 ((u.pHat : Rat) / (2 ^ 24 : Nat))
  else
    let f := -wrapErr n u.count.toNat u.pHat
    let r := roundFree key 74 ((f : Rat) / (2 ^ 24 : Nat))
    (extend u).ext * 256 + (if u.edgeAt = some u.clock then 0 else if 0 ≤ u.vHat then clampInt 0 255 r else clampInt (-255) 0 r)

/-! Counting, direction and errors (R170 to R177). -/

/-- The counting direction of a change; a reversal is an event (R177). -/
def setDir (delta : Int) (u : Fb) : Fb :=
  if delta = 0 ∨ u.stat.getLsbD 7 = decide (delta < 0) then u
  else { u with stat := setBit (setBit u.stat 7 (decide (delta < 0))) 8 true }

/-- The count moves (R176: it wraps). -/
def bump (delta : Int) (u : Fb) : Fb := setDir delta { u with count := u.count + BitVec.ofInt 32 delta }

/-- A qerr increment at absolute sample `t`: true where it is the fifth within 1 ms (R175). -/
def addQerr (t : Nat) (u : Fb) : Fb × Bool :=
  let at_ := (t :: u.qerrAt).take 5
  ({ u with qerr := satAdd 65535 u.qerr 1, qerrAt := at_ }, decide (at_.length = 5) && at_.all fun x => decide (t ≤ x + 200000))

/-- Set a flag of FB_STAT. -/
def flag (i : Nat) (u : Fb) : Fb := { u with stat := setBit u.stat i true }

/-- FEEDBACK_FAULT: latched in the unit, and raised on every bound strand (R175). -/
def State.fbFault (s : State) (u : FbId) : State :=
  (s.losesSources (s.modFb u (flag 10))).raiseCauses (s.strandsOfFb u) causeFeedback

/-- Put a unit back after an event, with its fault where there is one. -/
def State.putFb (s : State) (i : FbId) (r : Fb × Bool) : State := if r.2 then (s.setFb i r.1).fbFault i else s.setFb i r.1

/-- The filter time in samples; values above 256 act as 256 (R169, R185). -/
def filterLen (c : FbCfg) : Nat := min 256 c.filter.toNat

/-- Has a line shown its level for the filter time at sample `t`, so that it may change again (R169)? -/
def lineSteady (t : Nat) (u : Fb) (l : Fin 3) : Bool := (u.lineAt[l]).all fun t0 => decide (t0 + filterLen u.cfg ≤ t)

/-- New line levels first shown at sample `t` (R169). A level that follows the one before it sooner than the filter time is
none the filter accepts, and nothing changes. -/
def lineEdge (t : Nat) (new : BitVec 3) (f : Fb → Fb × Bool) (u : Fb) : Fb × Bool :=
  let moved := (List.finRange 3).filter fun l => new.getLsbD l.val != u.lines.getLsbD l.val
  if moved.all (lineSteady t u) then f { u with lineAt := moved.foldl (fun v (l : Fin 3) => v.set l (some t)) u.lineAt } else (u, false)

/-- The bits of the lines A, B and C. -/
def lineBits (a b c : Bool) : BitVec 3 := BitVec.ofNat 3 (pack [(b2n a, 1), (b2n b, 1), (b2n c, 1)])

/-- The change of the quadrature table; nothing on a double change (R170). -/
def quadDelta (a b a' b' : Bool) : Option Int :=
  let pos : Bool → Bool → Int := fun x y => match x, y with
    | false, false => 0
    | true, false => 1
    | true, true => 2
    | false, true => 3
  match ((pos a' b' - pos a b) % 4).toNat with
  | 0 => some 0
  | 1 => some 1
  | 3 => some (-1)
  | _ => none

/-- An accepted change of the A and B lines at absolute sample `t` (R170, R171). -/
def quadEdge (t : Nat) (a b : Bool) (u : Fb) : Fb × Bool :=
  let lines := { u with a := a, b := b, bPrev := u.b, bAt := if b = u.b then u.bAt else t }
  match quadDelta u.a u.b a b with
  | some d => (bump (if u.cfg.invert then -d else d) lines, false)
  | none =>
    let fast := decide ((50000000 * 2 ^ 32 : Int) ≤ |u.vHat|)
    addQerr t (flag 0 (bump (if fast then 2 * u.vHat.sign else 0) lines))

/-- A new Hall code (R172). The first valid code is taken without a count (log entry 35); an invalid code after another is no
new entry. -/
def hallChange (t : Nat) (code : BitVec 3) (u : Fb) : Fb × Bool :=
  let u' := { u with hall := code }
  match hallSector code, u.sector with
  | none, _ => if u.hall == 0 || u.hall == 7 then (flag 1 u', false) else addQerr t (flag 1 u')
  | some n, none => ({ u' with sector := some n }, false)
  | some n, some o =>
    let m : Int := if u.cfg.invert then ((o.val : Int) - n.val) % 6 else ((n.val : Int) - o.val) % 6
    let d := if m ≤ 3 then m else m - 6
    let u' := bump d { u' with sector := some n }
    if d = 0 ∨ d = 1 ∨ d = -1 then (u', false) else addQerr t (flag 2 u')

/-- The direction level two samples before `t` (R173). -/
def dirBefore (t : Nat) (u : Fb) : Bool := if u.bAt + 2 ≤ t then u.b else u.bPrev

/-- The count change of new line levels in step/dir and up/down mode (R173). -/
def pulseDelta (t : Nat) (a b : Bool) (u : Fb) : Int :=
  let up : Int := b2n (a && !u.a)
  let down : Int := b2n (b && !u.b)
  if u.cfg.mode = 5 then (if dirBefore t u = u.cfg.invert then up else -up)
  else if u.cfg.invert then down - up else up - down

def pulseEdge (t : Nat) (a b : Bool) (u : Fb) : Fb :=
  let d := pulseDelta t a b u
  bump d { u with a := a, b := b, bPrev := if b = u.b then u.bPrev else u.b, bAt := if b = u.b then u.bAt else t }

/-! Serial frames (R174). -/

/-- The nominal duration of a frame in samples. -/
def frameSamples (c : FbCfg) : Nat := ((c.bits.toNat + 10) * c.clkDiv.toNat * 10 + 2000 + 4) / 5

/-- May a frame start now: on the grid of the period, none in progress, and over before the next cycle start? -/
def frameMayStart (t : Nat) (u : Fb) : Bool :=
  (u.cfg.mode == 3 || u.cfg.mode == 4) && !u.frameOpen && u.maHigh == 0 && u.cfg.period != 0 &&
    u.now % (u.cfg.period.toNat * 200) == 0 && decide (u.now + frameSamples u.cfg ≤ t)

/-- Gray to binary: each bit is the exclusive or of itself and all bits above. -/
def grayDecode : Nat → Nat → Nat → Nat
  | 0, _, acc => acc
  | n + 1, g, acc =>
    let hi := acc % 2
    grayDecode n g (2 * acc + (if bit g n then 1 - hi else hi))

/-- The position a received word stands for (R167, R174, R176). -/
def serialPos (c : FbCfg) (word : BitVec 40) : Nat :=
  let w := c.bits.toNat
  let v := word.toNat % 2 ^ w
  let v := if c.mode = 4 ∧ c.gray then grayDecode w v 0 else v
  if c.invert then 2 ^ w - 1 - v else v

/-- One bit of the CRC with polynomial x^6 + x + 1 (R174). -/
def crc6Step (r : BitVec 6) (b : Bool) : BitVec 6 := (r <<< 1) ^^^ (if r.getLsbD 5 != b then 3 else 0)

/-- The CRC of a BiSS-C word of `n` bits with its nE and nW, most significant bit first (log entry 168). -/
def crc6 (n : Nat) (word : BitVec 40) (nE nW : Bool) : BitVec 6 :=
  (((List.range n).reverse.map word.getLsbD) ++ [nE, nW]).foldl crc6Step 0

/-- Do the check bits, transmitted inverted, fit the word? -/
def crcFits (c : FbCfg) (word : BitVec 40) (k : SerialCheck) : Bool := ~~~k.crc == crc6 c.bits.toNat word k.nE k.nW

/-- A frame ends with its word and check bits; MA then stays high until the encoder's timeout has passed. -/
def frameEnd (key high t : Nat) (word : BitVec 40) (c : SerialCheck) (u : Fb) : Fb × Bool :=
  let u := { u with frameOpen := false, maHigh := if u.cfg.mode = 3 then high else 0 }
  if u.cfg.mode = 3 ∧ !crcFits u.cfg word c then addQerr t (flag 3 { u with nERun := 0, timeoutLast := false })
  else if u.cfg.mode = 4 ∧ !c.startHigh then addQerr t (flag 4 { u with timeoutLast := true })
  else
    let w := u.cfg.bits.toNat
    let y := serialPos u.cfg word
    let d := toSigned w (wrapNat w ((y : Int) - u.raw.toNat))
    let e := wrapErr w y u.latchP
    let u : Fb := (if u.hasWord then setDir d u else u)
    let u : Fb := { obsCorrect key (omegaOf u.cfg) e u with
      raw := BitVec.ofNat 40 y, count := BitVec.ofNat 32 y, hasWord := true, timeoutLast := false }
    let low := decide (u.cfg.mode = 3) && !c.nE
    let again := low && decide (u.nERun = 1)
    let u : Fb := { (if low then flag 5 u else u) with nERun := if low then u.nERun + 1 else 0 }
    let u := if decide (u.cfg.mode = 3) && !c.nW then flag 6 u else u
    if again then ((addQerr t u).1, true) else (u, false)

/-- No start bit within 20 µs of the frame's start; MA of a BiSS-C unit then stays high for the encoder's timeout too. -/
def frameTimeout (high t : Nat) (u : Fb) : Fb × Bool :=
  if u.frameOpen && decide (u.frameAt + 4000 ≤ t) then
    addQerr t (flag 4 { u with frameOpen := false, timeoutLast := true, nERun := 0, maHigh := if u.cfg.mode = 3 then high else 0 })
  else (u, false)

/-- The sample in which the count moves is one with the new count as its measurement (R178). -/
def countedEdge (key : Nat) (old u : Fb) : Fb :=
  let d := toSigned 32 (wrapNat 32 ((u.count.toNat : Int) - old.count.toNat))
  if d = 0 then u else { obsCorrect key (omegaOf u.cfg) (d * 2 ^ 32) u with edgeAt := some u.clock }

/-! Compare units (R182, R183). -/

def cmpIx (c : Byte) : CmpId := Fin.ofNat 24 c.toNat

/-- The entries of a compare list; nothing where a direction code or a reserved bit is wrong. -/
def cmpEntries? : Nat → List Byte → Option (List CmpEntry)
  | 0, _ => some []
  | n + 1, bs =>
    let d := fieldU bs 7 1
    match cmpEntries? n (bs.drop 8) with
    | some r => if d < 3 then some (⟨fieldS bs 0 7, BitVec.ofNat 2 d⟩ :: r) else none
    | none => none

/-- Strictly monotonic with steps of at most 2^30 counts. -/
def cmpOrdered (up : Bool) : List CmpEntry → Bool
  | a :: b :: r => decide (if up then a.pos < b.pos else b.pos < a.pos) && decide (|b.pos - a.pos| ≤ 2 ^ 38) && cmpOrdered up (b :: r)
  | _ => true

/-- A COMPARE_LOAD descriptor, or nothing (R182). -/
def compare? (source : Half) (width : Word) (bs : List Byte) : Option CompareCfg :=
  let n := fieldU bs 0 2
  let mode := fieldU bs 2 1
  let rep := fieldS bs 8 8
  match cmpEntries? n (bs.drop 16) with
  | none => none
  | some es =>
    let first : Int := (es.head?.map (·.pos)).getD 0
    let last : Int := (es.getLast?.map (·.pos)).getD 0
    let up := decide (first < last) || (decide (first = last) && decide (0 < rep))
    if decide (1 ≤ n) && decide (n ≤ 4096) && decide (bs.length = 16 + 8 * n) && decide (mode ≤ 1) && zeroBytes bs 3 8 &&
        (cmpOrdered true es || cmpOrdered false es) && (mode == 1 || rep == 0) &&
        (mode == 0 || (decide (|last - first| < |rep|) && decide (rep ≠ 0) && (n == 1 || decide (0 < rep) == up)))
    then some ⟨Fin.ofNat 48 source.toNat, width.toNat, mode == 1, rep, es⟩ else none

def checkCompare (source : Half) (width : Word) (bs : List Byte) : Half :=
  if (compare? source width bs).isSome then stOk else stBadArg

/-- A compare unit takes a list, which is active from its first entry on, with the source at `p`. -/
def takeList (p : Int) (c : CompareCfg) (x : Compare) : Compare :=
  { x with
    cfg := some c, enable := true, width := BitVec.ofNat 18 (to5ns c.width), source := BitVec.ofNat 6 c.source
    repeatOn := c.repeatMode, pointer := 0, idle := false, offset := 0, prev := p, fresh := true }

/-- The list is loaded and active at the effective cycle. -/
def applyCompare (u : CmpId) (source : Half) (width : Word) (bs : List Byte) (s : State) : State :=
  match compare? source width bs with
  | none => s
  | some c => s.modCmp u (takeList (piOf (s.key u) s.fbs[c.source]) c)

/-- The signed difference of bits 39:0 (R183). -/
def diff40 (a b : Int) : Int := toSigned 40 (wrapNat 40 (a - b))

/-- Does the unit's p_i, going from `p` to `q`, reach or pass the position `t`: from the far side, or `fresh` from the list's
activation, at the position itself? -/
def reaches (fresh rising : Bool) (p q t : Int) : Bool :=
  if rising then (decide (0 < diff40 t p) || (fresh && decide (diff40 t p = 0))) && decide (diff40 t q ≤ 0)
  else (decide (diff40 t p < 0) || (fresh && decide (diff40 t p = 0))) && decide (0 ≤ diff40 t q)

/-- Pass the entries reached between two positions: how many, and whether one that may fire is among them. -/
def passEntries (c : CompareCfg) (rising : Bool) (p q : Int) : Nat → Compare → Nat → Bool → Compare × Nat × Bool
  | 0, x, n, f => (x, n, f)
  | k + 1, x, n, f =>
    if x.idle then (x, n, f)
    else
      match c.entries[x.pointer]? with
      | none => (x, n, f)
      | some e =>
        if !reaches x.fresh rising p q (e.pos + x.offset) then (x, n, f)
        else
          let ok := e.dir == 0 || (e.dir == 1 && rising) || (e.dir == 2 && !rising)
          let next := x.pointer + 1
          let x := if next < c.entries.length then { x with pointer := next }
            else if x.repeatOn then { x with pointer := 0, offset := x.offset + c.repeatOff }
            else { x with pointer := next % 4096, idle := true }
          passEntries c rising p q k x (n + 1) (f || ok)

/-- The unit sees position `q` (1/256 count) in one sample. The entries lie apart, so that no more can be passed than the
positions between. A list that starts on its first entry takes the direction of `up` (log entry 171). -/
def compareAt (up : Bool) (q : Int) (x : Compare) : Compare :=
  match x.cfg with
  | none => x
  | some c =>
    if !x.enable || x.idle then { x with prev := q }
    else
      let d := diff40 q x.prev
      let (y, n, fire) := passEntries c (if d = 0 then up else decide (0 < d)) x.prev q (d.natAbs + 1) x 0 false
      let y := { y with prev := q, fresh := false }
      if !fire then y
      else { y with
        out := true, fired := (y.fired + 1) % 2 ^ 32, missed := satAdd 65535 y.missed (n - 1)
        overlap := if x.out then satAdd 65535 y.overlap 1 else y.overlap }

/-- The unit a compare unit follows. -/
def cmpSource (c : Compare) : FbId := Fin.ofNat 48 c.source.toNat

/-- A compare unit sees its source as it stands in one sample; a fire shows as the output going high, or staying high for a new
width (R183). -/
def State.compareOn (s : State) (c : CmpId) (u : Fb) : State :=
  let t := s.modCmp c (compareAt (decide (0 ≤ u.vHat)) (piOf (s.key (cmpSource s.cmps[c])) u))
  if t.cmps[c].fired = s.cmps[c].fired then t else t.emit (.comparePulse c true)

/-- A compare unit sees its source in each of the next `n` samples. -/
def State.compareRun (s : State) (c : CmpId) (n : Nat) : State :=
  let i := cmpSource s.cmps[c]
  let u := s.fbs[i]
  (List.range n).foldl (fun s k => s.compareOn c (advanceFb (s.key i) (k + 1) u)) s

/-- The compare units that follow a unit and run. -/
def compareUnits (s : State) (i : FbId) : List CmpId :=
  (List.finRange 24).filter fun c => s.cmps[c].enable && !s.cmps[c].idle && decide (cmpSource s.cmps[c] = i)

/-- A unit goes on by `n` samples under the eyes of its compare units. -/
def State.runFb (s : State) (i : FbId) (n : Nat) : State :=
  ((compareUnits s i).foldl (fun s c => s.compareRun c n) s).modFb i (advanceFb (s.key i) n)

/-- An event has moved a unit: its compare units see it in this sample. -/
def State.compareNow (s : State) (i : FbId) : State := (compareUnits s i).foldl (fun s c => s.compareOn c s.fbs[i]) s

/-- An event on a unit after `n` samples: time passes, then the event acts at its sample. -/
def State.fbEvent (s : State) (i : FbId) (n : Nat) (f : Nat → Fb → Fb × Bool) : State :=
  let s := (s.wakeFn (fbFn i)).runFb i n
  ((s.putFb i (f s.fbs[i].clock s.fbs[i])).compareNow i).tick

/-- New levels of the input lines, with what they do to the count. -/
def State.lineEvent (s : State) (i : FbId) (n : Nat) (lines : Fb → BitVec 3) (f : Nat → Fb → Fb × Bool) : State :=
  s.fbEvent i n fun t u =>
    let r := lineEdge t (lines u) (f t) u
    (countedEdge (s.key i) u r.1, r.2)

/-! The enlarger and the duty input (R147, R160). -/

/-- An input step of `sg` reaches the enlarger of a strand at `t` ns of its unit's clock: num/den microsteps are added; a
reverse step waits until the pending distance is complete. -/
def enlargerStep (t : Nat) (sg : Int) (e : Enlarger) (x : Strand) : Strand :=
  let step : Rat := (sg : Rat) * e.num / e.den
  let dt : Rat := ((t - x.enlLast.toNat : Nat) : Rat) / (1000000000 : Nat)
  let rate : Rat := if x.enlLast = 0 ∨ dt = 0 then |x.enlRate| else ((e.num : Rat) / e.den) / dt
  let left := x.enlTarget - x.enlPos
  let x := { x with enlLast := BitVec.ofNat 64 t }
  match x.enlNext with
  | some (tg, _) => { x with enlNext := some (tg + step, rate) }
  | none =>
    if left * step < 0 then { x with enlNext := some (x.enlTarget + step, rate) }
    else { x with enlTarget := x.enlTarget + step, enlRate := rate }

/-- Every strand whose enlarger reads a unit takes its step. -/
def State.enlargeAll (s : State) (u : FbId) (sg : Int) : State :=
  if sg = 0 then s
  else (s.strandsWhere fun x => match x.cfg.enlarger with
    | some e => x.extOn && decide (e.unit = u)
    | none => false).foldl (fun s i =>
      match s.strands[i].cfg.enlarger with
      | some e => s.modStrand i (enlargerStep (5 * s.fbs[u].clock) sg e)
      | none => s) s

/-- The A line of a unit as the duty input of an auxiliary strand (R147): a rise closes a period. -/
def dutyEdge (key t : Nat) (a : Bool) (x : Strand) : Strand :=
  let x := { x with aux := { x.aux with edgeAt := 5 * t } }
  let g := x.aux
  if a then
    let per := t - g.rise
    { x with aux := { g with
      rise := t, duty := if g.rise = 0 ∨ per = 0 then g.duty else (roundFree key 75 ((g.high * 65536 : Nat) / (per : Rat))).toNat } }
  else { x with aux := { g with high := t - g.rise } }

/-- Every auxiliary strand with a duty input on a unit takes the edge of its A line. -/
def State.dutyAll (s : State) (u : FbId) (was now : Bool) : State :=
  if was = now then s
  else ((s.strandsOfFb u).filter fun i =>
      s.strands[i].isAux && (s.strands[i].cfg.aux.map (·.dutyInput)).getD false).foldl
    (fun s i => s.modStrand i (dutyEdge (s.key i) s.fbs[u].clock now)) s

/-! Probes (R180, R181). -/

def probeIx (p : Byte) : ProbeId := Fin.ofNat 16 p.toNat

/-- PROBE_ARM replaces the previous arming. -/
def applyProbeArm (p : ProbeId) (edge mode : Byte) (mask : Rec32) (s : State) : State :=
  s.modProbe p fun x => { x with cfg := ⟨edge.truncate 2, mode == 1, mask⟩, armed := true }

/-- Where the interpolation stands after `past` ns, in steps of 100 ns (R157). -/
def seqPlace (x : Strand) (past : Nat) : Int :=
  if x.msSpan ≤ past then x.msTo
  else roundHalf (((x.msTo - x.msFrom : Int) : Rat) * ((past / 100 * 100 : Nat) : Rat) / (x.msSpan : Rat)) + x.msFrom
where
  roundHalf (q : Rat) : Int := floorRat (q + 1 / 2)

/-- ns from the present cycle's start to a stamp in device time, which is exact at cycle starts (R262, R271). -/
def sinceStart (s : State) (stamp : BitVec 64) : Nat := (stamp - s.time.dev).toNat

/-- A unit goes on to the sample of a stamp. -/
def State.advanceTo (s : State) (u : FbId) (stamp : BitVec 64) : State :=
  s.modFb u fun x => advanceFb (s.key u) (sinceStart s stamp / 5 - x.now) x

/-- The position of a strand in a probe record, Q47.8, at the edge's stamp (R181); bound units stand at its sample. -/
def probePos (s : State) (i : StrandId) (stamp : BitVec 64) : Int :=
  let x := s.strands[i]
  let key := s.key i
  match x.cfg.fb with
  | some u => piOf key s.fbs[u]
  | none =>
    match x.cfg.binding with
    | .stepper .. => (if x.moving then seqPlace x (x.msPast + sinceStart s stamp) else x.msRef) / 256
    | .stepgen g => s.stgs[g].ext * 256
    | _ =>
      let dt : Rat := sinceUpdate s x + ((sinceStart s stamp : Nat) : Rat) / (1000000000 : Nat)
      (x.refPos + roundFree key 76 ((x.refVel : Rat) * dt * (4096 : Nat))) / 256

/-- The strands of a mask, rising. -/
def maskStrands (m : Rec32) : List StrandId := (List.finRange 256).filter fun i => m.getLsbD i.val

/-- The base of a probe's ring as a byte-view address (log entry 11). -/
def probeBase (p : ProbeId) : Nat := Config.probeBase p % (0x02000000 - 65536)

/-- The bytes of a record. -/
def probeBytes (p : ProbeId) (falling : Bool) (seq : Byte) (stamp : BitVec 64) (ps : List (StrandId × Int)) : List Byte :=
  leBytes 1 p ++ leBytes 1 (b2n falling) ++ [seq] ++ leBytes 1 ps.length ++ leBytes 4 stamp.toNat ++ List.replicate 8 0 ++
    ps.flatMap fun e => leBytes 1 e.1 ++ leInt 7 e.2

/-- Write bytes into a ring of 64 KiB. -/
def ringWrite (m : Mem) (base : Nat) : Nat → List Byte → Mem
  | _, [] => m
  | off, b :: bs => ringWrite (m.mergeByte (base + off % 65536) b) base (off + 1) bs

/-- Drop the oldest records until `n` more bytes fit; how many were dropped. -/
def dropOldest : Nat → Nat → List (Nat × Nat) → List (Nat × Nat) × Nat
  | 0, _, l => (l, 0)
  | _, _, [] => ([], 0)
  | f + 1, n, e :: r =>
    if ((e :: r).map (·.2)).foldl (· + ·) 0 + n ≤ 65536 then (e :: r, 0)
    else let (l, k) := dropOldest f n r; (l, k + 1)

/-- An edge reaches a probe (R180, R181): one that its arming takes becomes a record in its ring. -/
def State.probeEdge (s : State) (p : ProbeId) (falling : Bool) (stamp : BitVec 64) : State :=
  let x := s.probes[p]
  let wanted := x.armed && (x.cfg.edge == 2 || x.cfg.edge == (if falling then 1 else 0))
  let early := match x.last with
    | some t => decide ((stamp - t).toNat < 1000)
    | none => false
  if !wanted then s
  else if early then s.modProbe p fun x => { x with overrun := satAdd 65535 x.overrun 1 }
  else
    let s := (maskStrands x.cfg.mask).foldl (fun s i =>
      match s.strands[i].cfg.fb with
      | some u => s.advanceTo u stamp
      | none => s) s
    let ps := (maskStrands x.cfg.mask).map fun i => (i, probePos s i stamp)
    let bs := probeBytes p falling x.seq stamp ps
    let len := (bs.length + 15) / 16 * 16
    let (held, lost) := dropOldest (x.held.length + 1) len x.held
    let low : Int := match ps with
      | e :: _ => e.2
      | [] => 0
    let s := (s.wakeRange (probeBase p) (probeBase p + 65536)).modMem fun m => ringWrite m (probeBase p) x.wrOff bs
    let s := s.modProbe p fun x => { x with
      armed := x.cfg.continuous, seq := x.seq + 1, wrOff := (x.wrOff + len) % 65536, written := (x.written + 1) % 65536
      lost := satAdd 65535 x.lost lost, last := some stamp, held := held ++ [(x.wrOff, len)]
      pub := BitVec.ofNat 72 (pack [(stamp.toNat, 32), (x.seq.toNat, 8), (wrapNat 32 low, 32)])
      events := x.events ++ [⟨ps.map fun e => (e.1, e.2 * 256), !x.cfg.continuous, x.cfg.mask, 0⟩] }
    -- a skein whose register strand the mask does not hold misses the event (R124)
    ((List.finRange 64).foldl (fun s k =>
      match s.skeins[k].cfg with
      | some c => if s.skeins[k].regProbe = p ∧ !x.cfg.mask.getLsbD c.regStrand.val then
          s.modSkein k (regEvent (s.key k) c none) else s
      | none => s) s).tick

/-- The latched position from which a strand's update forms a skein's correction: it is the register strand or a follower, and no
update has formed it before, so that no follower's first update after the event comes too early (R124). -/
def regTakes (s : State) (i : StrandId) (p : ProbeId) (e : ProbeEvent) (k : Fin 64) : Option Int :=
  match s.skeins[k].cfg with
  | some c =>
    if s.skeins[k].regProbe = p ∧ !e.trimmed.getLsbD k.val ∧ (c.regStrand = i ∨ s.strands[i].engage.any (·.skein == k)) then
      (e.positions.find? fun x => x.1 == c.regStrand).map (·.2)
    else none
  | none => none

/-- The skeins whose correction a strand's update forms from an event. -/
def trimsOf (s : State) (i : StrandId) (p : ProbeId) (e : ProbeEvent) : List (Fin 64) :=
  (List.finRange 64).filter fun k => (regTakes s i p e k).isSome

/-- A strand takes one event of a probe: the home mark of R165 and the registration of R124. -/
def State.takeEvent (s : State) (i : StrandId) (p : ProbeId) (e : ProbeEvent) : State :=
  let s := if e.single && e.waits.getLsbD i.val then s.modStrand i fun x => { x with uncertain := false } else s
  (List.finRange 64).foldl (fun s k =>
    match s.skeins[k].cfg, regTakes s i p e k with
    | some c, some pos => s.modSkein k (regEvent (s.key k) c (some pos))
    | _, _ => s) s

/-- The strand is marked in an event as having taken it, with the skeins it has formed corrections for. -/
def ProbeEvent.took (i : StrandId) (trims : List (Fin 64)) (e : ProbeEvent) : ProbeEvent :=
  { e with waits := setBit e.waits i.val false, trimmed := trims.foldl (fun v k => setBit v k.val true) e.trimmed }

/-- At a strand's update it takes the events not yet taken, in their order (R181). -/
def State.takeProbes (s : State) (i : StrandId) : State :=
  (List.finRange 16).foldl (fun s p =>
    let mine := s.probes[p].events.filter fun e => e.waits.getLsbD i.val || !(trimsOf s i p e).isEmpty
    if mine.isEmpty then s
    else mine.foldl (fun s e => s.takeEvent i p e)
      (s.modProbe p fun x => { x with events := (x.events.map fun e => e.took i (trimsOf s i p e)).filter fun e => e.waits != 0 })) s

/-! FB_READ (R72, R176, R181, R183). -/

def fbReadBytes (s : State) (unit : Byte) : List Byte :=
  let n := unit.toNat
  if n < 48 then
    let u := s.fbs[fbIx unit]
    Config.layout 0x2204 [u.count.toNat, wrapNat 48 u.ext, u.qerr, u.stat.toNat]
  else if n < 0x60 then
    let p := s.probes[(Fin.ofNat 16 (n - 0x40))]
    leBytes 4 (probeBase (Fin.ofNat 16 (n - 0x40))) ++ leBytes 4 p.wrOff ++ leBytes 2 p.written ++ leBytes 2 p.lost ++ leBytes 2 p.overrun
  else
    let c := s.cmps[(Fin.ofNat 24 (n - 0x60))]
    leBytes 2 c.pointer ++ leBytes 4 c.fired ++ leBytes 2 c.missed ++ leBytes 2 c.overlap

end Sys2Proof.Machine
end

