-- ==== Sys2Proof/Machine/Outputs.lean ====
section
/-! DEFINITION. What a strand update sends to hardware: the stepper target (R157), the interval queue of a step
generator (R161, R162), the CAN drive frame (R354), and the publication (R116). -/

namespace Sys2Proof.Machine

/-! Step generators (R161, R162). -/

/-- A counter of STG_STAT: eight bits, saturating. -/
def bump8 (n : Nat) : Nat := satAdd 255 n 1

/-- The shortest interval in 5 ns units: 200 ns, or the width and 20 ns. -/
def shortest (c : StgCfg) : Nat := max 40 (c.width.toNat + 4)

/-- The timer takes an entry: from idle it times from this moment; otherwise from the previous rising edge. A direction
change waits for dir_setup after the previous falling edge, or after now. -/
def takeStep (fromIdle : Bool) (e : StgEntry) (x : Stg) : Stg :=
  let short := !fromIdle && decide (e.interval.toNat < shortest x.cfg)
  let iv := if short then shortest x.cfg else e.interval.toNat
  let room := if fromIdle then iv else iv - x.cfg.width.toNat
  let waits := e.dir != x.dir && decide (room < x.cfg.dirSetup.toNat)
  { x with
    current := some e, idle := false, dir := e.dir
    stretch := if short then bump8 x.stretch else x.stretch
    dirDelay := if waits then bump8 x.dirDelay else x.dirDelay }

/-- A push (R162): a full queue discards it and sets overflow; an idle generator takes it at once. A generator that is
not enabled has its queue flushed. -/
def pushStep (e : StgEntry) (x : Stg) : Stg :=
  if !x.cfg.enable then x
  else if x.idle && x.queue.isEmpty && x.current.isNone then takeStep true e x
  else if 64 ≤ x.queue.length then { x with overflow := true }
  else { x with queue := x.queue ++ [e] }

def pushSteps (x : Stg) (l : List StgEntry) : Stg := l.foldl (fun x e => pushStep e x) x

/-- The step of the entry the timer runs on: the count moves, and the next entry is taken; with none, the generator
idles, with underrun unless the entry had end set. -/
def emitStep (x : Stg) : Stg :=
  match x.current with
  | none => x
  | some e =>
    let d : Int := if e.dir then -1 else 1
    let y := { x with count := x.count + BitVec.ofInt 32 d, ext := x.ext + d, current := none }
    match y.queue with
    | n :: r => takeStep false n { y with queue := r }
    | [] => { y with idle := true, underrun := y.underrun || !e.last }

/-- The steps a generator has emitted or been given. -/
def Stg.ahead (x : Stg) : Int :=
  let one := fun (e : StgEntry) => if e.dir then (-1 : Int) else 1
  x.ext + (x.queue.map one).foldl (· + ·) 0 + ((x.current.map one).getD 0)

/-- `n` steps spread evenly over `ns`; the last one ends the sequence where motion ends (log entry 36). -/
def stepEntries (n : Int) (ns : Nat) (ends : Bool) : List StgEntry :=
  let k := n.natAbs
  let one : StgEntry := ⟨BitVec.ofNat 27 (ns / 5 / k), false, decide (n < 0)⟩
  if k = 0 then []
  else if 65 < k then List.replicate 65 one
  else List.replicate (k - 1) one ++ [{ one with last := ends }]

/-- The strand update of a step-generator strand fills its queue (R154, R161). -/
def State.feedStg (s : State) (i : StrandId) (g : StgId) (ns : Nat) : State :=
  let x := s.strands[i]
  if !x.moving then s
  else
    match x.cfg.fb, x.cfg.step with
    | some _, some b =>
      let rate : Rat := (x.ply.velRef : Rat) * b.velFs * b.msNum / ((2 ^ 17 * b.cntDen : Nat) : Rat)
      let want := x.stepFrac + rate * ns / (1000000000 : Nat)
      let n := floorRat want
      (s.modStg g fun q => pushSteps q (stepEntries n ns (x.ply.velRef == 0))).modStrand i fun x => { x with
        stepFrac := want - n }
    | _, _ =>
      let n := roundFree (s.key i) 80 ((x.refPos : Rat) / 65536) - s.stgs[g].ahead
      s.modStg g fun q => pushSteps q (stepEntries n ns (x.refVel == 0))

/-! Stepper positions (R155, R157). -/

/-- The scale of a position's references: hold_frac while it applies, or full (R154, R157). -/
def holdScale (x : Strand) : Nat :=
  match x.cfg.step with
  | some b => if x.holdCur && b.holdFrac != 0 then b.holdFrac else 65536
  | none => 65536

/-- Put the windings of a stepper strand at its address. -/
def State.windings (s : State) (i : StrandId) : State :=
  let x := s.strands[i]
  match x.cfg.binding with
  | .stepper q p => s.modQuad q (driveWindings (s.key i) p x.msAddr (holdScale x))
  | _ => s

/-- The sequencer stands at a place, in 1/65,536 microstep: the address and the windings follow (R157). -/
def State.standAt (s : State) (i : StrandId) (ref : Int) : State :=
  (s.modStrand i fun x => { x with
    msRef := ref, msAddr := addrOf ((x.msAddr : Int) + (ref / 65536 - x.msRef / 65536)) }).windings i

/-- `ns` pass for every sequencer that is under way (R157). -/
def State.stepSequencers (s : State) (ns : Nat) : State :=
  (s.strandsWhere fun x => isStepper x.cfg.binding && x.moving && decide (x.msPast < x.msSpan)).foldl (fun s i =>
    let x := s.strands[i]
    (s.modStrand i fun x => { x with msPast := x.msPast + ns }).standAt i (seqPlace x (x.msPast + ns))) s

/-- The strand update of a stepper strand (R157): the previous target is reached and the interpolation to the new one
begins; full current returns before the address moves. -/
def State.feedStepper (s : State) (i : StrandId) (ns : Nat) : State :=
  let x := s.strands[i]
  if !x.moving then s
  else
    (s.modStrand i fun x => { x with
      msFrom := x.msTo, msTo := microTarget x.cfg x.refPos, msSpan := x.cfg.dS * s.tNs, msPast := 0
      holdCur := x.holdCur && x.refVel == 0, stillNs := if x.refVel = 0 then x.stillNs + ns else 0 }).standAt i x.msTo

/-! CAN drives (R354). -/

/-- Bits of a CAN data length code for `n` bytes (R346). -/
def dlcOf (n : Nat) : BitVec 4 :=
  if n ≤ 8 then BitVec.ofNat 4 n
  else if n ≤ 24 then BitVec.ofNat 4 (9 + (n - 9) / 4)
  else if n ≤ 32 then 13
  else if n ≤ 48 then 14
  else 15

/-- The drive frame of a strand. -/
def driveFrame (s : State) (i : StrandId) (c : CanId) (node : Nat) : CanFrame :=
  let x := s.strands[i]
  let cfg := s.cans[c].cfg
  { ide := false, rtr := false, fdf := true, brs := cfg.brs, esi := false, ident := BitVec.ofNat 29 (cfg.driveBase + node)
    dlc := dlcOf 16, data := leInt 8 x.refPos ++ leInt 4 x.refVel ++ leBytes 4 s.seq.cycle.toNat, stamp := 0 }

/-- The entry of a strand in a list keyed by strand, and the list with it changed. -/
def keyed {α : Type} (d : α) (i : StrandId) (l : List (StrandId × α)) : α := ((l.find? fun e => e.1 == i).map (·.2)).getD d

def setKeyed {α : Type} (i : StrandId) (v : α) (l : List (StrandId × α)) : List (StrandId × α) :=
  (l.filter fun e => e.1 != i) ++ [(i, v)]

/-- The strand update sends the drive frame: one not yet sent is replaced and counted late. -/
def State.sendDrive (s : State) (i : StrandId) (c : CanId) (node : Nat) : State :=
  let f := driveFrame s i c node
  s.modCan c fun x => { x with
    driveLate := if x.drives.any fun e => e.1 == i then satAdd 255 x.driveLate 1 else x.driveLate
    drives := setKeyed i f x.drives
    silent := setKeyed i (keyed 0 i x.silent + 1) x.silent }

/-! Publications (R116). -/

/-- The payload of a position and a velocity. -/
def pubWord (pos vel : Int) : Word72 := BitVec.ofNat 72 (pack [(wrapNat 40 (pos / 256), 40), (wrapNat 32 vel, 32)])

/-- The payload of a strand. -/
def strandPub (x : Strand) : Word72 := pubWord x.pubPos x.pubVel

end Sys2Proof.Machine
end

