-- ==== Sys2Proof/Machine/Update.lean ====
section
/-! DEFINITION. The strand update (R79 to R81, R89 to R93) and the position and velocity ply update (R13, R78, R84,
R87, R88). -/

namespace Sys2Proof.Machine

/-! What the intake, the converters and a program give a strand. -/

/-- The latched set-points of a strand: position, velocity and torque (03_host_interface.md). -/
def intakePos (s : State) (i : StrandId) : Int := toSigned 64 (s.host.latched[i].toNat / 2 ^ 64)
def intakeVel (s : State) (i : StrandId) : Int := toSigned 32 (s.host.latched[i].toNat / 2 ^ 128)
def intakeTrq (s : State) (i : StrandId) : Int := satInt 18 (toSigned 32 (s.host.latched[i].toNat / 2 ^ 160))

/-- ctl.mode as last latched (R79). -/
def Strand.mode (x : Strand) : Nat := bits x.ctl.toNat 4 3

/-- The latest result of a shared channel: of the two converters the one with the later stamp. -/
def convLatest (s : State) (ch : Nat) : Option ConvResult :=
  let a := s.fio.x.results[(Fin.ofNat 17 ch)]
  let b := s.fio.y.results[(Fin.ofNat 17 ch)]
  if a.has && b.has then some (if (b.stamp - a.stamp).toNat < 2 ^ 31 then b else a)
  else if a.has then some a
  else if b.has then some b
  else none

/-- Has the image an engine has loaded this entry (R211, R212)? -/
def userEntry (s : State) (e : EngineId) (k : Nat) : Bool :=
  match s.roles[e].image with
  | some im => im.entries.getD k 0 != 0
  | none => false

/-- A value a user law leaves (log entry 10). -/
def userValue (s : State) (i : StrandId) (entry site : Nat) : Int :=
  Config.userLaw (s.key i) ((s.roles[s.strands[i].engine].program.map (·.val)).getD 16) (entry * 16 + site) i

/-- The time one update of a strand covers: the cycles since its last one. -/
def spanNs (s : State) (x : Strand) : Nat := max 1 x.pubAge * s.tNs

/-! The paths (R109, R110). -/

/-- At the update of member 0 the group goes on; where it comes to rest, the members hold their last references. -/
def State.groupStep (s : State) (i : StrandId) (ns : Nat) : State :=
  match groupOf s i with
  | none => s
  | some k =>
    let g := s.groups[k]
    if g.members.head? != some i || !g.running then s
    else
      let g' := pathStep (s.key i) (memberLims s g) (decide (s.dist.st = .running)) s.seq.cycle ns g
      let s := s.modGroup k fun _ => g'
      if g'.running then s
      else ((g.members.mapIdx fun n m => (n, m)).filter fun e => !g.left.contains e.2).foldl (fun s e =>
        let r := g'.refs.getD e.1 (0, 0, 0)
        s.modStrand e.2 fun x => { x with refPos := r.1, refVel := 0, refAcc := 0, plan := none }) s

/-- The reference a running path gives a member now. -/
def pathRef (s : State) (i : StrandId) : Option (Int × Int × Int) :=
  match groupOf s i with
  | none => none
  | some k =>
    let g := s.groups[k]
    if !onPath s i then none
    else
      (g.members.findIdx? (· == i)).map fun n =>
        let r := g.refs.getD n (0, 0, 0)
        let dt : Rat := (((s.seq.cycle - g.refCycle).toNat * s.tNs : Nat) : Rat) / (1000000000 : Nat)
        (r.1 + roundFree (s.key i) 81 ((r.2.1 : Rat) * dt * (4096 : Nat)), r.2.1, r.2.2)

/-! The profile generator (R81, R99, R101). -/

/-- A waiting move begins: the deferred one once the acceleration is zero, whose command ends then; the stored one once
the running plan has ended. -/
def State.beginWaiting (s : State) (i : StrandId) : State :=
  let x := s.strands[i]
  match x.deferred with
  | some (m, cmd) =>
    if inRamp s i then s
    else
      let s := (s.startMove i m).modStrand i fun x => { x with deferred := none }
      match originOf cmd with
      | some o => s.finishAt cmd o stOk s.seq.cycle
      | none => s
  | none =>
    match x.stored, x.plan with
    | some m, none => s.startMove i m
    | some m, some p => if p.ticks ≤ p.t then s.startMove i m else s
    | none, _ => s

/-- The reference from the profile generator. -/
def State.profileRef (s : State) (i : StrandId) : State × Int × Int × Int :=
  match pathRef s i with
  | some r => (s, r)
  | none =>
    let s := s.beginWaiting i
    let x := s.strands[i]
    match x.plan with
    | some p =>
      let (pos, v, a, ended) := p.eval (s.key i)
      (s.modStrand i fun x => { x with moveEnded := ended && p.target.isSome }, pos, v, a)
    | none => (s, x.refPos, 0, 0)

/-- The generator continues from a tracked reference when the higher source drops out (R81). -/
def State.untrack (s : State) (i : StrandId) : State :=
  let x := s.strands[i]
  if x.source = 0 then s
  else
    let s := s.modStrand i fun x => { x with source := 0, extOn := false }
    match x.stored with
    | some m => s.startMove i m
    | none =>
      let (pos, vel, acc) := refNow s i
      s.modStrand i fun x => { x with
        plan := some (planStop (profileOf x.cfg) pos vel acc false 0), updCycle := s.seq.cycle }

/-! External inputs (R89, R160). -/

/-- A velocity moves toward its target within a2 and d2 (R89). In 1/16 count/s. -/
def slewVel (key : Nat) (p : Profile) (ns : Nat) (v target : Int) : Int :=
  let up : Int := roundFree key 82 (((p.a2 * 16 * ns : Nat) : Rat) / (1000000000 : Nat))
  let down : Int := roundFree key 83 (((p.d2 * 16 * ns : Nat) : Rat) / (1000000000 : Nat))
  if 0 ≤ v * target ∧ |v| ≤ |target| then (if v ≤ target then min target (v + up) else max target (v - up))
  else
    let goal := if v * target < 0 then 0 else target
    if goal ≤ v then max goal (v - down) else min goal (v + down)

/-- The reference of a converter channel: position integrates the velocity; an over-range result is not used. -/
def State.convRef (s : State) (i : StrandId) (ch : Nat) (ratio offset : Int) (ns : Nat) : State × Int × Int :=
  let x := s.strands[i]
  let key := s.key i
  let (range, target) := match convLatest s ch with
    | some r => if r.over_ then (true, x.extVel) else (false, roundFree key 84 ((ratio * r.value.toInt : Int) / (65536 : Rat)) + offset)
    | none => (x.srcRange, x.extVel)
  let v := slewVel key (profileOf x.cfg) ns x.refVel target
  let pos := x.refPos + roundFree key 85 (((x.refVel + v : Int) : Rat) * 2048 * ns / (1000000000 : Nat))
  (s.modStrand i fun x => { x with extOn := true, extVel := target, srcRange := range }, pos, v)

/-- A strand's last reference carried on with its velocity over the ns of one update. -/
def carriedOn (s : State) (i : StrandId) (ns : Nat) : Int :=
  s.strands[i].refPos + roundFree (s.key i) 98 ((s.strands[i].refVel : Rat) * 4096 * ns / (1000000000 : Nat))

/-- A change of source makes no step: what is left of the one it would make goes to zero within a2 and d2 (R89). `start`: the
position at which the reference begins. -/
def State.easeIn (s : State) (i : StrandId) (ns : Nat) (start : Option Int) (p v : Int) : State × Int × Int :=
  let x := s.strands[i]
  let key := s.key i
  let l := limOf (profileOf x.cfg)
  let dt : Rat := (ns : Rat) / (1000000000 : Nat)
  let (d, dv) := match start with
    | some at_ => (((at_ - p : Int) : Rat) / 65536, ((x.refVel - v : Int) : Rat) / 16)
    | none => hostPhase key { l with vc := l.vm, a2 := min l.a2 l.d2 } dt 0 x.extD x.extDV
  (s.modStrand i fun x => { x with extD := d, extDV := dv, extOn := true }, p + roundFree key 87 (d * 65536), v + roundFree key 88 (dv * 16))

/-- The reference of a pulse input: the law of R89, eased in. -/
def State.pulseRef (s : State) (i : StrandId) (u : FbId) (ratio offset : Int) (ns : Nat) : State × Int × Int :=
  let x := s.strands[i]
  let key := s.key i
  let fresh := !x.extOn
  let count := (extend s.fbs[u]).ext
  let v := roundFree key 86 ((ratio * fbSpeed key s.fbs[u] : Int) / (65536 : Rat))
  let s := if fresh then s.modStrand i fun x => { x with extBase := carriedOn s i ns, extCount := count } else s
  let law := s.strands[i].extBase + ratio * (count - s.strands[i].extCount) + offset * 65536
  s.easeIn i ns (if fresh then some (carriedOn s i ns) else none) law v

/-- A position moves toward the enlarger's target at its rate (R160). Microsteps. -/
def enlargeTo (pos target rate dt : Rat) : Rat :=
  let d := target - pos
  let step := rate * dt
  if |d| ≤ step then target else if 0 < d then pos + step else pos - step

/-- The reference of the enlarger. -/
def State.enlargeRef (s : State) (i : StrandId) (ns : Nat) : State × Int × Int :=
  let x := s.strands[i]
  let key := s.key i
  let x := if x.extOn then x else
    let at_ : Rat := (x.msRef : Rat) / 65536
    { x with extOn := true, enlPos := at_, enlTarget := at_, enlRate := 0, enlLast := 0, enlNext := none }
  let dt : Rat := (ns : Rat) / (1000000000 : Nat)
  let pos := x.enlPos
  let p := enlargeTo pos x.enlTarget x.enlRate dt
  let x := match x.enlNext with
    | some (t, r) => if p = x.enlTarget then { x with enlTarget := t, enlRate := r, enlNext := none } else x
    | none => x
  let scale : Rat := match x.cfg.fb, x.cfg.step with
    | some _, some b => (b.cntDen : Rat) / b.msNum
    | _, _ => 1
  let v : Rat := if ns = 0 then 0 else (p - pos) / dt
  (s.setStrand i { x with enlPos := p }, roundFree key 89 (p * scale * 65536), roundFree key 90 (v * scale * 16))

/-- Is an external input selected (R80)? -/
def Strand.external (x : Strand) : Bool := x.cfg.source != .intake || x.cfg.enlarger.isSome

/-- The reference of the external input. -/
def State.externalRef (s : State) (i : StrandId) (ns : Nat) : State × Int × Int :=
  let x := s.strands[i]
  match x.cfg.enlarger, x.cfg.source with
  | some _, _ => s.enlargeRef i ns
  | none, .converter ch ratio offset => s.convRef i ch ratio offset ns
  | none, .pulse u ratio offset => s.pulseRef i u ratio offset ns
  | none, .intake => (s, x.refPos, x.refVel)

/-! The intake (R79, R81). -/

/-- The reference of the intake: the set-points, or in the velocity and torque modes the actual position. A strand
with no actual position of its own integrates its velocity (log entry 38). After an external input the change is eased in
(R89); after the profile or a skein pos_sp acts from the first update (R79, R81, log entry 209). -/
def State.intakeRef (s : State) (i : StrandId) (ns : Nat) : State × Int × Int :=
  let x := s.strands[i]
  let own := x.cfg.fb.isSome && x.hasPlies
  let vel := intakeVel s i
  let easing := x.source == 2 || (x.source == 1 && x.extOn)
  let still := fun (r : State × Int × Int) (on : Bool) => (r.1.modStrand i fun x => { x with extOn := on }, r.2)
  match x.mode with
  | 1 =>
    if easing then
      let r := s.easeIn i ns (if x.source = 2 then some (carriedOn s i ns) else none) (intakePos s i) vel
      still r (r.1.strands[i].extD != 0 || r.1.strands[i].extDV != 0)
    else (s, intakePos s i, vel)
  | 2 =>
    let v := if easing then slewVel (s.key i) (profileOf x.cfg) ns x.refVel vel else vel
    still (s, if own then (actual s i).1 else x.refPos + roundFree (s.key i) 91 ((v : Rat) * 4096 * ns / (1000000000 : Nat)), v) (v != vel)
  | _ => still (s, if own then actual s i else (x.refPos, 0)) false

/-! The source of a strand in RUN (R80). -/

/-- The reference of a strand in RUN, and the source in use. -/
def State.sourceRef (s : State) (i : StrandId) (ns : Nat) : State × Int × Int × Int :=
  let x := s.strands[i]
  let acc : Int := Config.refAccel (s.key i) i
  let use := fun (s : State) (src : BitVec 2) => s.modStrand i fun x => { x with
    source := src, plan := none, moveEnded := false, extOn := x.extOn && src != 3 && (src == 1 || x.source == 2) }
  if x.ctl.getLsbD 0 then (s.modStrand i fun x => { x with source := 0, plan := none }, x.refPos, 0, 0)
  else
    match x.engage with
    | some e =>
      match s.skeins[e.skein].cfg with
      | some c =>
        let (s, p, v, bad) := (use s 3).followerUpdate i e c ns
        let s := if bad then s.strandCause i causePoisoned else s
        (s, p, v, acc)
      | none => (s, x.refPos, x.refVel, 0)
    | none =>
      if x.external then
        let (s, p, v) := (use (s.leavePath i) 2).externalRef i ns
        (s, p, v, acc)
      else if x.mode ≠ 0 then
        let (s, p, v) := (s.leavePath i).intakeRef i ns
        (use s 1, p, v, acc)
      else (s.untrack i).profileRef i

/-- The reference of a strand in RUN. After manual a skein's reference and pos_sp begin at actual position, and go to their own
value as after a change of source (R88, R89, log entry 162). -/
def State.runRef (s : State) (i : StrandId) (ns : Nat) : State × Int × Int × Int :=
  let x := s.strands[i]
  let r := s.sourceRef i ns
  let y := r.1.strands[i]
  if x.fromManual = 0 then r
  else if y.source = 3 ∨ (y.source = 1 ∧ x.mode = 1) then
    let (t, p, v) := r.1.easeIn i ns (if x.fromManual = 1 then some x.refPos else none) r.2.1 r.2.2.1
    let still := t.strands[i].extD != 0 || t.strands[i].extDV != 0
    (t.modStrand i fun z => { z with extOn := y.extOn, fromManual := if still then 2 else 0 }, p, v, r.2.2.2)
  else (r.1.modStrand i fun z => { z with fromManual := 0 }, r.2)

/-! ctl and SS1 (R79, R90, R300). -/

/-- The intake bits act at the update: ctl.stop's rise, ctl.hold's level. -/
def State.latchCtl (s : State) (i : StrandId) : State :=
  let old := s.strands[i].ctl
  let ctl : Half := s.host.latched[i].extractLsb' 32 16
  let s := s.modStrand i fun x => { x with ctl := ctl, holdCtl := ctl.getLsbD 2 }
  let x := s.strands[i]
  let s := if ctl.getLsbD 0 && !old.getLsbD 0 && x.within [.run, .hold, .stopping] then
      let quick := ctl.getLsbD 1
      (s.beginStop i quick 0 (if quick then .toRun else .toReady)).enter i .stopping
    else s
  let x := s.strands[i]
  if x.st = .run ∧ x.holdCtl then s.beginHold i
  else if x.st = .hold ∧ !x.holdCtl ∧ !x.holdCmd then s.enter i .run
  else s

/-- An SS1 request acts: a quick stop that holds standstill in STOPPING, or one more competing stop in FAULT; in another state it
has no effect (R300). -/
def State.actSs1 (s : State) (i : StrandId) : State :=
  let x := s.strands[i]
  if !x.ss1 then s
  else if x.within [.run, .hold] || (x.st = .stopping && (x.stop.map (·.after)) != some .held) then
    (s.beginStop i true 0 .held).enter i .stopping
  else if x.st = .fault && x.reacting then (s.beginStop i true 0 .toFault).modStrand i fun x => { x with ss1 := false }
  else if x.st = .stopping then s
  else s.modStrand i fun x => { x with ss1 := false }

/-! Auxiliary strands (R147 to R150). -/

/-- Linear interpolation of the curve at an input value; the last speed holds above the last point. -/
def curveAt (v : Int) : List (Int × Nat) → Rat
  | [] => 0
  | [p] => p.2
  | p :: q :: r =>
    if v < q.1 then (p.2 : Rat) + ((q.2 : Rat) - p.2) * ((v - p.1 : Int) : Rat) / ((q.1 - p.1 : Int) : Rat) else curveAt v (q :: r)

/-- The target speed, a magnitude: AUX_COMMAND's, or the curve's while it is on. -/
def auxTarget (c : AuxCurve) (a : AuxRun) : Rat :=
  match a.override with
  | some v => if v = 0 then 0 else max (|v| : Int) (c.handover : Int)
  | none => if a.on then curveAt (max a.input ((c.points.head?.map (·.1)).getD 0)) c.points else 0

/-- The direction asked for: the field input, the sign of AUX_COMMAND, or the present one. -/
def auxWants (s : State) (c : AuxCurve) (a : AuxRun) : Bool :=
  match c.dirInput, a.override with
  | some n, _ => !s.fio.inputs.getLsbD n.val
  | none, some v => if v = 0 then a.fwd else decide (0 < v)
  | none, none => a.fwd

/-- The input is read: on at x_0 + h, off below x_0. -/
def auxInput (s : State) (c : AuxCurve) (a : AuxRun) : AuxRun :=
  let v : Option Int := if c.dutyInput then some a.duty else
    match convLatest s c.channel with
    | some r => if r.over_ then none else some r.value.toInt
    | none => none
  let x0 := (c.points.head?.map (·.1)).getD 0
  match v with
  | none => a
  | some v => { a with input := v, on := if x0 + c.hysteresis ≤ v then true else if v < x0 then false else a.on }

/-- Is the strand's converter result flagged over-range, so that it is not used (R89, R147)? -/
def auxOver (s : State) (c : AuxCurve) : Bool := !c.dutyInput && (convLatest s c.channel).any fun r => r.over_

/-- The observer's estimate along the commanded direction. -/
def AuxRun.along (a : AuxRun) : Rat := if a.fwd then (a.est : Rat) else -(a.est : Rat)

/-- The four loss conditions of R150 in closed loop: each keeps its time while it holds. -/
def auxLoss (residual : Nat) (c : AuxCurve) (ns : Nat) (a : AuxRun) : List Nat :=
  let top : Rat := (c.points.getLast?.map fun p => (p.2 : Rat)).getD 0
  let e := |(a.est : Rat)|
  let on : List Bool := [decide (c.resLimit < residual), decide (e < (c.handover : Rat) / 2), decide (top * 3 / 2 < e), decide (a.along < 0)]
  if a.phase = .closed then List.zipWith (fun b t => if b then t + ns else 0) on a.los else [0, 0, 0, 0]

/-- One step of the loop: alignment, open loop up and down, closed loop, reversal (R148, R149). -/
def auxStep (key : Nat) (obs : Rat) (l : Lim) (c : AuxCurve) (wants : Bool) (ns : Nat) (a : AuxRun) : AuxRun :=
  let dt : Rat := (ns : Rat) / (1000000000 : Nat)
  let tgt := auxTarget c a
  let rev := wants != a.fwd
  let ramp : Rat := (c.ramp : Rat) * 16 * dt
  let hand : Rat := c.handover
  let turn := fun (a : AuxRun) => { a with
    angle := keep32 key 92 (a.angle + (if a.fwd then a.speed else -a.speed) / 16 * dt) }
  match a.phase with
  | .off =>
    let a := { a with fwd := wants, pending := false, speed := 0, angle := 0 }
    if tgt = 0 then a
    else if c.alignTime = 0 then { a with phase := .openUp } else { a with phase := .align, alignLeft := c.alignTime * 1000000 }
  | .align => if tgt = 0 then { a with phase := .off } else { a with fwd := wants, alignLeft := a.alignLeft - ns }
  | .openUp =>
    let a := turn a
    if rev ∧ |a.speed| ≤ (c.revThreshold : Rat) then { a with fwd := wants, pending := false, speed := -a.speed }
    else if rev ∨ tgt = 0 then { a with phase := .openDown, pending := rev }
    else
      let v := min hand (a.speed + ramp)
      if v = hand ∧ |a.along - v| ≤ v / 4 then { a with phase := .closed, speed := v, pending := false, los := [0, 0, 0, 0] }
      else { a with speed := v, pending := false }
  | .closed =>
    if rev ∨ tgt = 0 then
      let v := max hand (a.speed - l.d2 * 16 * dt)
      if v = hand then { a with phase := .openDown, speed := hand, angle := obs, pending := rev } else { a with speed := v, pending := rev }
    else
      let v := if a.speed ≤ tgt then min tgt (a.speed + l.a2 * 16 * dt) else max tgt (a.speed - l.d2 * 16 * dt)
      { a with speed := v, pending := false }
  | .openDown =>
    let a := turn a
    if rev ∧ |a.speed| ≤ (c.revThreshold : Rat) then
      { a with fwd := wants, pending := false, phase := .openUp, speed := -a.speed }
    else if !rev ∧ tgt ≠ 0 then { a with phase := .openUp, pending := false }
    else
      let v : Rat := if decide (a.speed < (0 : Rat)) then min (0 : Rat) (a.speed + ramp) else max (0 : Rat) (a.speed - ramp)
      if v = 0 ∧ tgt = 0 then { a with phase := .off, speed := 0, pending := false } else { a with speed := v, pending := rev }

/-- The update of an auxiliary strand; its pairs switch off when the loop comes to rest and on when it starts. -/
def State.auxUpdate (s : State) (i : StrandId) (ns : Nat) : State :=
  let x := s.strands[i]
  match x.cfg.aux with
  | none => s
  | some c =>
    if !x.isAux || !x.moving then s
    else
      let key := s.key i
      let a := auxInput s c x.aux
      let a := if a.phase = .off then { a with est := 0 } else { a with est := Config.auxSpeed key i }
      let a := if x.st = .run then a else { a with override := some 0 }
      let a := { a with los := auxLoss (Config.auxResidual key i) c ns a }
      let b := auxStep key (Config.auxAngle key i : Nat) (limOf (profileOf x.cfg)) c (auxWants s c a) ns a
      let b := if x.st = .run then b else { b with override := x.aux.override }
      let v : Int := roundFree key 93 (if b.fwd then b.speed else -b.speed)
      let s := s.modStrand i fun x => { x with
        aux := b, srcRange := auxOver s c, refVel := v, refPos := x.refPos + roundFree key 94 ((v : Rat) * 4096 * ns / (1000000000 : Nat)) }
      if x.aux.phase ≠ .off ∧ b.phase = .off then s.forceStrand i 3
      else if x.aux.phase = .off ∧ b.phase ≠ .off then s.forceStrand i 0
      else s

/-! Deviation (R166). -/

/-- The deviation of a stepper or generator strand from its feedback unit, in microsteps or steps. -/
def deviation (s : State) (x : Strand) : Option Rat :=
  match x.cfg.fb, x.cfg.step with
  | some u, some b =>
    if b.window = 0 then none
    else
      let out : Rat := match x.cfg.binding with
        | .stepgen g => (s.stgs[g].ext : Int)
        | _ => (x.msRef : Rat) / 65536
      let d := out - (s.fbs[u].ext : Rat) * b.msNum / b.cntDen
      some |d|
  | _, _ => none

/-- Strand updates the window has been exceeded without a break (R166). -/
def State.stallCount (s : State) (i : StrandId) : State :=
  let x := s.strands[i]
  match deviation s x, x.cfg.step with
  | some d, some b => s.modStrand i fun x => { x with
      ply := { x.ply with stallTime := if decide ((b.window : Rat) < d) then x.ply.stallTime + 1 else 0 } }
  | _, _ => s

/-! The strand update. -/

/-- Position error against the limit of at_target (R94); without a position block there is no error to test (log entry 101). -/
def nearTarget (x : Strand) : Bool :=
  match x.cfg.pos with
  | some b => b.ferrLimit == 0 || decide (|x.ferr| * 8 ≤ (b.ferrLimit : Int))
  | none => true

/-- What the state word shows after an update. -/
def State.showFlags (s : State) (i : StrandId) : State :=
  let (p, v) := actual s i
  (s.modStrand i fun x => { x with
    pubPos := x.refPos, pubVel := x.refVel, actPos := p, actVel := v, ferr := ferrOf (x.refPos - p), pubAge := 0, updCycle := s.seq.cycle, skipped := 0 }).modStrand i
    fun x => { x with
      standstill := x.atStandstill, atTarget := x.moveEnded && nearTarget x
      stopHeld := x.ctl.getLsbD 0 && x.within [.run, .stopping] && x.atStandstill }

/-- The position reference leaves manual: it resumes from actual position with no following error (R88), at the actual
velocity, and comes to rest as after a tracked source (log entry 162). -/
def State.leaveManual (s : State) (i : StrandId) : State :=
  let (p, v) := actual s i
  s.modStrand i fun x => { x with
    manualRef := false, fromManual := 1, refPos := p, refVel := v, refAcc := 0, updCycle := s.seq.cycle
    plan := if x.stored.isSome && x.st == .run then none else some (planStop (profileOf x.cfg) p v 0 false 0) }

/-- The reference of one update in every state of R90. In manual it follows actual position, but for a running stop (R80,
R88). -/
def State.updateRef (s : State) (i : StrandId) (ns : Nat) : State :=
  let x := s.strands[i]
  let put := fun (r : State × Int × Int × Int) => r.1.modStrand i fun x => { x with
    refPos := r.2.1, refVel := satInt 32 r.2.2.1, refAcc := r.2.2.2 }
  if !x.moving then s.trackActual i
  else
    match x.stop with
    | some r =>
      let (p, v, a, ended) := r.plan.eval (s.key i)
      put (if ended && x.st == StrandSt.run then s.modStrand i fun x => { x with stop := none } else s, p, v, a)
    | none =>
      if x.manual && x.hasPlies && x.within [.run, .hold] then
        let (p, v) := actual s i
        put (s.modStrand i fun x => { x with manualRef := true, plan := none, moveEnded := false, extOn := false, source := 0 }, p, v, 0)
      else
      let s := if x.manualRef then s.leaveManual i else s
      let x := s.strands[i]
      if x.st = .run then put (s.runRef i ns)
      else
        match x.plan with
        | some q => let (p, v, a, _) := q.eval (s.key i); put (s, p, v, a)
        | none => put (s, x.refPos, 0, 0)

/-- The runtime is to call a background entry of a user program for a strand (R211). -/
def State.callEntry (s : State) (i : StrandId) (entry : Nat) : State :=
  s.modRole s.strands[i].engine fun r => { r with calls := r.calls ++ [(entry, i)] }

/-- A user law in place of the standard strand update: the runtime calls entry_strand, and what it makes of the reference are
free values (R211, log entry 10). -/
def State.userStrand (s : State) (i : StrandId) : State :=
  if userEntry s s.strands[i].engine 2 then
    let s := s.callEntry i 2
    if s.strands[i].moving then
      s.modStrand i fun x => { x with
        refPos := userValue s i 2 0, refVel := satInt 32 (userValue s i 2 1), refAcc := userValue s i 2 2 }
    else s
  else s

/-! What has happened to a strand, at its update (R90, R93). -/

/-- SAFE, then the causes of category 0, with a poisoned word that this update's reads meet, then the runtime's own
STOP_NOW (R93, R210). -/
def State.graveEvents (s : State) (i : StrandId) : State :=
  let s := s.followGates i
  let x := s.strands[i]
  let s := match x.engage with
    | some e =>
      match s.skeins[e.skein].cfg with
      | some c => if x.st == StrandSt.run && (s.followerUpdate i e c (spanNs s x)).2.2.2 then s.raiseCause i causePoisoned else s
      | none => s
    | none => s
  let s := s.actCauses i fun c => decide (reactionOf s.strands[i].cfg c = Reaction.cat0)
  if s.strands[i].stopDue then stopNowOne (s.modStrand i fun x => { x with stopDue := false }) i else s

/-- The other causes, then the end of a stop. -/
def State.otherEvents (s : State) (i : StrandId) : State :=
  let s := s.actCauses i fun _ => true
  let x := s.strands[i]
  if !x.restDue then s
  else
    let s := s.modStrand i fun x => { x with restDue := false }
    if x.stop.isSome && x.atStandstill then s.stopDone i else s

/-- The engine extends the count of the bound unit (R176). -/
def State.extendBound (s : State) (i : StrandId) : State :=
  match s.strands[i].cfg.fb with
  | some u => s.modFb u extend
  | none => s

/-- One strand update (R13, R90): the extension of the bound unit's count, what has happened since the last, the release of the pairs, the intake bits and SS1, the
records of the probes, the reference, and what goes to the outputs. -/
def State.strandUpdate (s : State) (i : StrandId) : State :=
  let s := (((s.extendBound i).graveEvents i).otherEvents i)
  let ns := spanNs s s.strands[i]
  let s := if s.strands[i].switchOn then
      (if s.strands[i].st = .run then (s.forceStrand i 0).modStrand i fun x => { x with switchOn := false } else s)
    else s
  let s := (s.latchCtl i).actSs1 i
  let s := s.takeProbes i
  let s := s.groupStep i ns
  let s := if s.strands[i].isAux && s.strands[i].moving then s.auxUpdate i ns else s.updateRef i ns
  let s := s.userStrand i
  let s := match s.strands[i].cfg.binding with
    | .stepper .. => s.feedStepper i ns
    | .stepgen g => s.feedStg i g ns
    | .can c n => s.sendDrive i c n
    | _ => s
  (s.stallCount i).showFlags i

/-! The ply update (R13, R84). -/

/-- Does update j of a strand's plies fall in a cycle (R13)? -/
def plyDue (c : StrandCfg) (cycle j : Nat) : Bool :=
  decide (j < c.kP) && decide (((cycle : Int) - (j * c.dP / c.kP : Nat) - c.phase) % (c.dP : Int) = 0)

/-- Its offset from the cycle start, in seconds. -/
def plyOffset (s : State) (c : StrandCfg) (j : Nat) : Rat :=
  (((j * c.dP % c.kP : Nat) : Rat) / c.kP) * s.tNs / (1000000000 : Nat)

/-- The ply period in ns, and at least 1. -/
def plyNs (s : State) (c : StrandCfg) : Nat := max 1 (c.dP * s.tNs / max 1 c.kP)

/-- Measured velocity (1/16 count/s) and acceleration (count/s²) of the plies. -/
def plyMeasured (s : State) (i : StrandId) : Int × Int :=
  let x := s.strands[i]
  if x.isAux then (x.auxSpeed, 0)
  else
    match x.cfg.fb with
    | some u => (fbSpeed (s.key i) s.fbs[u], roundFree (s.key i) 95 ((s.fbs[u].aHat : Rat) / (2 ^ 32 : Nat)))
    | none => (0, 0)

/-- Ply updates in a row with |measured velocity| of at most vel_fs/256 (R91). -/
def stillNext (x : Strand) (mv : Int) : Nat := if |mv| * 256 ≤ ((16 * x.velFs : Nat) : Int) then x.ply.stillCount + 1 else 0

/-- The position ply: states, reference velocity, saturation, and the following-error count. -/
def posPly (s : State) (i : StrandId) (b : PlyBlock) (j : Nat) (live : Bool) (x : Strand) : Strand :=
  let key := s.key i
  let fs := x.velFs
  let (act, _) := actual s i
  let (mv, _) := plyMeasured s i
  let dt := sinceUpdate s x + plyOffset s x.cfg j
  let ref := if live then x.refPos + roundFree key 96 ((x.refVel : Rat) * dt * (4096 : Nat)) else act
  let e := ref - act
  let v := [posErr b e, velFrac key fs x.refVel, velFrac key fs mv, if live then accFrac key fs (plyNs s x.cfg) x.refAcc else 0]
  let (xs, out, sat) := plyUpdate b x.ply.xPos v b.limits
  let ferr := ferrOf e
  { x with
    ferr := ferr
    ply := { x.ply with
      xPos := xs, velRef := if live then out.getD 0 0 else 0, satPos := (live && sat) || x.ply.cleared.getLsbD 2
      cleared := setBit x.ply.cleared 2 false
      ferrCount := if live && b.ferrLimit != 0 && decide ((b.ferrLimit : Int) < |ferr|) then x.ply.ferrCount + 1 else 0 } }

/-- The velocity ply: field weakening, the law, manual and torque mode, and the limit of the q reference. The first
automatic output after a held one is preset to it once more and lies within 1 LSB of it (R88). -/
def velPly (s : State) (i : StrandId) (b : PlyBlock) (live torque : Bool) (x : Strand) : Strand :=
  let key := s.key i
  let (mv, ma) := plyMeasured s i
  let fs := b.velFs
  let mMax := (x.cfg.cur.map (·.mMax)).getD 0
  let id := if live then fieldWeaken key b mMax x.ply.vd x.ply.vq x.ply.idRef else x.ply.idRef
  let q := iqLimit key b id
  let v := [velFrac key fs mv, x.ply.velRef, accFrac key fs (plyNs s x.cfg) ma, intakeTrq s i]
  let lims := b.limits.map fun l => (clampInt (-q) q l.1, clampInt (-q) q l.2)
  let held : Option Int := if x.manual then some x.ply.manualOut else if torque then some (intakeTrq s i) else none
  let xs0 := match held.orElse fun _ => x.ply.lastHeld with
    | some h => presetState key b (padStates b.n x.ply.xVel) v h
    | none => x.ply.xVel
  let (xs, out, sat) := plyUpdate b xs0 v lims
  let iq := match held, x.ply.lastHeld with
    | some h, _ => clampInt (-q) q h
    | none, some h => clampInt (-q) q (clampInt (h - 1) (h + 1) (out.getD 0 0))
    | none, none => out.getD 0 0
  { x with
    fwActive := decide (id < 0)
    ply := { x.ply with
      xVel := xs, idRef := id, iqRef := if live then iq else 0
      satVel := (live && (sat || held.any fun h => h != iq)) || x.ply.cleared.getLsbD 1
      cleared := setBit x.ply.cleared 1 false, lastHeld := if live then held.map fun _ => iq else none
      stillCount := stillNext x mv } }

/-- One update of a strand's position and velocity plies; none in a cycle in which its work was abandoned (R210). While the
plies do not run, out_limit stays as they left it (R82, log entry 83). -/
def State.plyStep (s : State) (i : StrandId) (j : Nat) : State :=
  let x := s.strands[i]
  let live := x.moving
  if !x.hasPlies || !(live || x.st = .ready) || decide (x.abandoned = some s.seq.cycle) then s
  else if userEntry s x.engine 3 then
    let (mv, _) := plyMeasured s i
    let s := s.callEntry i 3
    (s.modStrand i fun x => { x with
      ply := { x.ply with
        velRef := satInt 18 (userValue s i 3 0), iqRef := if live then satInt 18 (userValue s i 3 1) else 0
        stillCount := stillNext x mv } }).tick
  else
    let mode := if x.source = 1 then x.mode else 0
    let key := s.key i
    let s := s.modStrand i fun x =>
      if x.isAux then { x with ply := { x.ply with velRef := velFrac key x.velFs x.refVel } }
      else if mode = 2 then { x with ply := { x.ply with velRef := velFrac key x.velFs x.refVel, satPos := false, ferrCount := 0 } }
      else if mode = 3 then { x with ply := { x.ply with satPos := false, ferrCount := 0 } }
      else
        match x.cfg.pos with
        | some b => posPly s i b j live x
        | none => x
    let s := match s.strands[i].cfg.binding, s.strands[i].cfg.vel with
      | .servo .., some b => s.modStrand i (velPly s i b live (mode == 3))
      | .stepgen _, _ => s.modStrand i fun x =>
          let (mv, _) := plyMeasured s i
          { x with ply := { x.ply with stillCount := stillNext x mv } }
      | _, _ => s
    (s.modStrand i fun x => { x with outLimit := x.ply.satCur || x.ply.satVel || x.ply.satPos }).tick

end Sys2Proof.Machine
end

