-- ==== Sys2Proof/Machine/Engine.lean ====
section
/-! DEFINITION. The flyer engines' shared operations: registers and banks (R188 to R190), visible writes (R195), local
memory (R191), interrupt entry (R206), exception entry (R207 to R210), loops and boundaries (R198, R199), engine
faults and migration (R216, R279, R280). -/

namespace Sys2Proof.Machine

/-! Registers. -/

def Engine.lvl (e : Engine) : Bool := e.status.getLsbD 5
def Engine.xl (e : Engine) : Bool := e.status.getLsbD 6
def Engine.gr (e : Engine) : Nat := bits e.status.toNat 11 9
def Engine.bank (e : Engine) : FlBank := if e.lvl then e.irq else e.bg
def Engine.modBank (e : Engine) (irq : Bool) (f : FlBank → FlBank) : Engine :=
  if irq then { e with irq := f e.irq } else { e with bg := f e.bg }

def reg16 (r : BitVec 4) : Fin 16 := Fin.ofNat 16 r.toNat
def acc4 (r : BitVec 4) : Fin 4 := Fin.ofNat 4 r.toNat
def addr8 (r : BitVec 4) : Fin 8 := Fin.ofNat 8 r.toNat

/-- A data register as a reader sees it now. -/
def Engine.d (e : Engine) (r : Nat) : Sample := e.bank.d[(Fin.ofNat 16 r)]

/-- An accumulator as RDA, STS and XAC see it now. -/
def Engine.ac (e : Engine) (r : Fin 4) : BitVec 48 := e.bank.ac[r]

/-- The newest value of an accumulator, as a chained operation sees it (R195). -/
def Engine.acNew (e : Engine) (r : Fin 4) : BitVec 48 :=
  e.pend.foldl (fun v w => match w.dest with
    | .ac irq k x => if irq = e.lvl ∧ k = r then x else v
    | _ => v) (e.ac r)

/-- Set the five-bit group count. -/
def Engine.setGr (e : Engine) (n : Nat) : Engine :=
  { e with status := (e.status &&& ~~~(0xE00 : BitVec 18)) ||| (BitVec.ofNat 18 (n % 8) <<< 9) }

def Engine.setStatus (e : Engine) (i : Nat) (b : Bool) : Engine := { e with status := setBit e.status i b }

/-- The status register as it reads: fcnt counts the outstanding fabric operations (R190). -/
def Engine.statusRead (e : Engine) : BitVec 18 :=
  (e.status &&& ~~~(0xE000 : BitVec 18)) ||| (BitVec.ofNat 18 (min 4 e.fab.length) <<< 13)

/-! Visible writes (R195). -/

/-- A write lands. -/
def landWrite (e : Engine) : FlDest → Engine
  | .d irq r v => e.modBank irq fun b => { b with d := b.d.set r v }
  | .ac irq r v => e.modBank irq fun b => { b with ac := b.ac.set r v }
  | .mode v => { e with mode := v }
  | .flags z n v c => { e with condZ := z, condN := n, condV := v, condC := c }

/-- A write issued now is seen at a distance. -/
def Engine.put (e : Engine) (left : Nat) (d : FlDest) : Engine := { e with pend := e.pend ++ [⟨left, d⟩] }
def Engine.putD (e : Engine) (left : Nat) (r : Fin 16) (v : Sample) : Engine := e.put left (.d e.lvl r v)
def Engine.putAc (e : Engine) (r : Fin 4) (v : BitVec 48) : Engine := e.put 2 (.ac e.lvl r v)

/-- Issue cycles pass: writes whose distance is reached land in the order of their issue. -/
def Engine.age (e : Engine) (cycles : Nat) : Engine :=
  let (due, rest) := e.pend.partition fun w => decide (w.left ≤ cycles)
  due.foldl (fun e w => landWrite e w.dest) { e with pend := rest.map fun w => { w with left := w.left - cycles } }

/-- Every instruction issued before completes (R196). -/
def Engine.flush (e : Engine) : Engine :=
  (e.pend.mergeSort fun a b => decide (a.left ≤ b.left)).foldl (fun e w => landWrite e w.dest) { e with pend := [] }

/-! Local memory (R191). -/

def Engine.load (e : Engine) (a : Nat) : Sample := sget 0 e.local_ (a % 32768)
def Engine.store (e : Engine) (a : Nat) (v : Sample) : Engine := { e with local_ := sset 0 e.local_ (a % 32768) v }

/-- Store a run of words. -/
def Engine.storeAll (e : Engine) : Nat → List Sample → Engine
  | _, [] => e
  | a, v :: r => (e.store a v).storeAll (a + 1) r

/-! Interrupts (R206). -/

/-- The ipend bit of a source, its lost bit, and its vector address (R188, R206). -/
def sourceBit (src : Nat) : Nat := if src = 4 then 7 else src
def lostBit (src : Nat) : Nat := if src = 4 then 8 else 4 + src

/-- May an interrupt be taken at the present boundary (R198)? -/
def Engine.interruptible (e : Engine) : Bool := e.gr == 0 && e.delay.isNone && !e.shadow

/-- FLYER_DEBUG holds the engine, so that no handler runs: halted, or in a step (R217). -/
def FlRun.atDebug : FlRun → Bool
  | .debug | .stepping | .stalled _ true => true
  | .running | .halted | .stalled _ false | .faulted => false

/-- The engine enters the handler of its earliest pending source, where it can. An instruction that waits for a place in the
fabric port issues again after RETI (R198). -/
def takeInterrupt (e : Engine) : Engine :=
  match e.order with
  | [] => e
  | src :: r =>
    if e.lvl || !e.interruptible || e.run == .faulted || e.run.atDebug then e
    else
      let e := e.flush
      let st := setBit (e.status &&& ~~~(0xFC0 : BitVec 18)) 5 true
      { e with
        epc := e.pc, estat := e.statusRead, status := st, pc := BitVec.ofNat 14 (0x10 + 2 * src)
        ipend := setBit e.ipend (sourceBit src) false, order := r, handling := some src, held := none, run := .running }

/-- A source fires: pending already, its lost bit sets; a distaff message has no lost bit. -/
def fireSource (src : Nat) (e : Engine) : Engine :=
  if e.ipend.getLsbD (sourceBit src) then (if src = 3 then e else { e with ipend := setBit e.ipend (lostBit src) true })
  else takeInterrupt { e with ipend := setBit e.ipend (sourceBit src) true, order := e.order ++ [src] }

/-- The source of a slot (R206). -/
def slotSource (k : Nat) : Nat := if k = 3 then 4 else k

/-- The slot whose handler runs. -/
def Engine.slotHandled (e : Engine) : Option (Fin 4) :=
  match e.handling with
  | some 4 => some 3
  | some n => if n < 3 then fin? 4 n else none
  | none => none

/-! Loops (R199). -/

/-- The next address after an ordinary instruction at `pc` of `cycles` issue cycles. -/
def loopNext (cycles : Nat) (e : Engine) : Engine :=
  let active := fun (k : Fin 2) => e.pc == e.le[k] && decide (1 ≤ e.lc[k].toNat) &&
    (e.status.getLsbD (16 + k.val) == e.lvl) && !e.xl
  let fall := { e with pc := e.pc + BitVec.ofNat 14 cycles }
  let back := fun (k : Fin 2) (e : Engine) => { e with pc := e.ls[k], lc := e.lc.set k (e.lc[k] - 1) }
  let l0 := fun (e0 : Engine) =>
    if active 0 then
      if e.lc[(0 : Fin 2)] = 1 then { e0 with lc := e0.lc.set 0 0, pc := e.pc + BitVec.ofNat 14 cycles } else back 0 e0
    else { e0 with pc := e.pc + BitVec.ofNat 14 cycles }
  if active 1 then
    if e.lc[(1 : Fin 2)] = 1 then l0 { e with lc := e.lc.set 1 0 } else back 1 e
  else if active 0 then l0 e
  else fall

/-! The end of an instruction. -/

/-- What comes after an instruction. -/
inductive Flow
  | next
  /-- a branch, taken to a target or not; its delay slot follows (R197) -/
  | branch (target : Option (BitVec 14))
  /-- a jump with no delay slot -/
  | jump (target : BitVec 14)
  /-- a mode change; its shadow follows (R198) -/
  | shadow
  /-- RETI and RETX: the restored group count stands; RETX may go back into a mode shadow (R208) -/
  | resume (target : BitVec 14) (shadow : Bool)
  | group (n : Nat)
deriving DecidableEq, Repr

/-- The program counter and the boundary state after an instruction. -/
def flowOn (cycles : Nat) (fl : Flow) (e : Engine) : Engine :=
  let g := e.gr
  let e := match fl with
    | .group n => e.setGr n
    | .resume .. => e
    | _ => if 0 < g then e.setGr (g - 1) else e
  let e := { e with shadow := match fl with
    | .shadow => true
    | .resume _ b => b
    | _ => false }
  match fl, e.delay with
  | .jump t, _ => { e with pc := t, delay := none }
  | .resume t _, _ => { e with pc := t, delay := none }
  | .branch t, _ => { e with pc := e.pc + 1, delay := some (e.pc, t) }
  | _, some (_, some t) => { e with pc := t, delay := none }
  | _, some (_, none) => { e with pc := e.pc + BitVec.ofNat 14 cycles, delay := none }
  | _, none => loopNext cycles e

/-- An instruction of `cycles` issue cycles is over: its successor, the writes that land, and an interrupt that
waited. A step of FLYER_DEBUG ends at the next boundary. -/
def finishIssue (cycles : Nat) (fl : Flow) (e : Engine) : Engine :=
  let e := (flowOn cycles fl e).age cycles
  if e.run == .stepping then (if e.interruptible && !e.lvl then { e with run := .debug } else e) else takeInterrupt e

/-! The roles (R187, R216, R279, R280). -/

/-- The spare, while the device has one. -/
def spareOf (s : State) : Option EngineId := (List.finRange 17).find? fun e => s.roles[e].spare && s.roles[e].inService

/-- The quads in which an engine holds a slot. -/
def quadsOfEngine (s : State) (e : EngineId) : List QuadId :=
  s.roles[e].slots.toList.filterMap fun o => o.map (·.quad)

/-- The words of slot block k. -/
def blockBase (k : Nat) : Nat := 0x7000 + 256 * k

/-- Copy a slot block between engines. -/
def copyBlock (src : Engine) (k : Nat) (dst : Engine) (j : Nat) : Engine :=
  dst.storeAll (blockBase j) ((List.range 256).map fun w => src.load (blockBase k + w))

/-- The address of a slot's landing area (R191). -/
def landingBase (k : Nat) : Nat := if k = 3 then 0x7EC0 else 0x7F00 + 64 * k

/-- A sample-ready that waits for its handler is withdrawn. -/
def Engine.withdraw (k : Fin 4) (e : Engine) : Engine :=
  { e with ipend := setBit e.ipend (sourceBit (slotSource k.val)) false, order := e.order.filter (· != slotSource k.val) }

/-- A sample-ready that waits on one engine waits on another instead, with its landing area: no update is lost or run twice
(R216). -/
def takeReady (src : Engine) (k : Fin 4) (j : Fin 4) (dst : Engine) : Engine :=
  if src.ipend.getLsbD (sourceBit (slotSource k.val)) then
    fireSource (slotSource j.val) (dst.storeAll (landingBase j.val) ((List.range 10).map fun w => src.load (landingBase k.val + w)))
  else dst

/-- Move one slot of an engine to another, with its block and a sample-ready that waits. -/
def State.moveSlot (s : State) (e : EngineId) (k : Fin 4) (dst : EngineId) : State :=
  match s.roles[e].slots[k], (List.finRange 4).find? fun j => s.roles[dst].slots[j].isNone with
  | some x, some j =>
    let src := s.engines[e]
    let s := (s.modEngine dst fun d => takeReady src k j (copyBlock src k.val d j.val)).modEngine e (Engine.withdraw k)
    let s := (s.modRole dst fun r => { r with slots := r.slots.set j (some x) }).holdAwake dst
    s.modRole e fun r => { r with slots := r.slots.set k none }
  | _, _ => s

/-- A word that fails its ECC in a copy after a fault arrives poisoned: its value is open (R279, log entry 107). -/
def spoil (key : Nat) (bad : List Nat) (e : Engine) : Engine := bad.foldl (fun e a => e.store a (Config.flyerOpen key 76 a 0)) e

/-- Words of a slot block that fail in the copy after a fault, and the POISONED_DATA of the strand whose block holds them
(R279). -/
def State.spoilBlock (s : State) (e : EngineId) (k : Fin 4) : State :=
  let bad := (Config.copyErrors (s.key e)).filter fun a => decide (blockBase k.val ≤ a) && decide (a < blockBase k.val + 256)
  match s.roles[e].slots[k] with
  | some x =>
    if bad.isEmpty then s
    else (s.modEngine e (spoil (s.key e) bad)).raiseCauses (s.strandsWhere fun y => decide (y.cfg.binding = .servo x.quad x.slot)) causePoisoned
  | none => s

/-- An engine is woken from RETAIN (R34, R279). -/
def State.wakeEngine (s : State) (e : EngineId) : State :=
  s.modPwr fun p => { p with engines := modAt p.engines e fun f => { f with st := .run } }

/-- The lowest-numbered healthy engine that holds no slot of a quad and has room (R280). -/
def hostFor (s : State) (q : QuadId) : Option EngineId :=
  (List.finRange 17).find? fun e => s.roles[e].inService && !s.roles[e].spare && !(quadsOfEngine s e).contains q &&
    (s.roles[e].slots.toList.any fun o => o.isNone)

/-- The lowest-numbered healthy engine. -/
def healthy (s : State) : Option EngineId := (List.finRange 17).find? fun e => s.roles[e].inService && !s.roles[e].spare

/-- The strands an engine works for. -/
def strandsOfEngine (s : State) (e : EngineId) : List StrandId := s.strandsWhere fun x => decide (x.engine = e) && x.cfg.binding != .unbound

/-- The engines whose work is to go to this one at the next cycle start. -/
def boundFor (s : State) (e : EngineId) : List EngineId := (List.finRange 17).filter fun d => decide (s.roles[d].moveTo = some e)

/-- The strands a fault of an engine strikes: those it works for, those whose slots it holds, and those whose work was about to
come to it (R280). -/
def struckBy (s : State) (e : EngineId) : List StrandId :=
  s.strandsWhere fun x => x.cfg.binding != .unbound &&
    (decide (x.engine = e) || (boundFor s e).contains x.engine ||
      s.roles[e].slots.toList.any fun o => o.any fun y => decide (x.cfg.binding = .servo y.quad y.slot))

/-- The slots of a faulted engine go to another, through their ECC (R279). -/
def State.moveSlots (s : State) (e dst : EngineId) : State :=
  (List.finRange 4).foldl (fun s k => (s.spoilBlock e k).moveSlot e k dst) s

/-- The supervisor handles a fault of an engine (R279, R280). One that retires gives its remaining slots to the engine that has
its work, with the copies already made; a retirement toward the faulted engine ends. -/
def State.engineFault (s : State) (e : EngineId) : State :=
  if !s.roles[e].inService then s
  else
    let s := (s.modEngine e fun x => { x with run := .faulted }).logRec 2 0 e 0 [] 1
    let s := { s with roles := s.roles.map fun r => if r.retiring = some e then { r with retiring := none } else r }
    match s.roles[e].retiring, (spareOf s).filter fun x => decide (x ≠ e) with
    | some dst, _ => (s.modRole e fun r => { r with inService := false, retiring := none }).moveSlots e dst
    | none, some sp =>
      let s := s.modRole e fun r => { r with inService := false, spare := false, moveTo := some sp, byFault := true }
      let s := (s.modRole sp fun r => { r with spare := false, home := s.roles[e].home }).wakeEngine sp
      (s.modRole e fun r => { r with home := none }).moveSlots e sp
    | none, none =>
      let hit := struckBy s e
      let late := boundFor s e
      let s := s.modRole e fun r => { r with inService := false, moveTo := none, home := none }
      let s := (List.finRange 4).foldl (fun s k =>
        match s.roles[e].slots[k] with
        | some x =>
          match hostFor s x.quad with
          | some h => (s.spoilBlock e k).moveSlot e k h
          | none => s
        | none => s) s
      let s := (e :: late).foldl (fun s d => s.modRole d fun r => { r with moveTo := healthy s, byFault := false }) s
      s.raiseCauses hit causeEngine

/-! Exceptions (R207 to R209). -/

/-- Exception entry (R208): what the engine saves, and the handler's address at the same level. A step of FLYER_DEBUG ends
there. -/
def Engine.except (e : Engine) (cause : Nat) (info : Word) : Engine :=
  let pending := e.pend.foldl (fun m w => match w.dest with
    | .mode v => v
    | _ => m) e.mode
  let ds := e.delay.isSome
  let at_ := match e.delay with
    | some (b, _) => b
    | none => e.pc
  let f := e.flush
  let st := setBit (setBit f.statusRead 7 ds) 8 e.shadow
  let f := f.modBank e.lvl fun b => { b with
    xpc := at_, xstat := st, xmode := BitVec.ofNat 16 (e.mode.toNat % 256 + 256 * (pending.toNat % 256)), xcause := BitVec.ofNat 3 cause
    xinfo := info }
  let f := { (f.setGr 0) with
    pc := 8, delay := none, shadow := false, divs := none, run := if f.run = FlRun.stepping then FlRun.debug else f.run }
  { f with status := setBit (setBit (setBit f.status 6 true) 7 false) 8 false }

/-- An instruction raises an exception: it has no effect, the engine takes the exception, and on those of R209 it stops. -/
def State.trap (s : State) (i : EngineId) (cause : Nat) (info : Word) : State :=
  let t := s.setEngine i (s.engines[i].except cause info)
  if s.engines[i].xl || cause == 4 || cause == 6 then t.engineFault i else t

/-! The cycle start at an engine (R190, R204, R207). -/

/-- Where the runtime's calls return to. -/
inductive RtPoint | dispatch | handler | exc
deriving DecidableEq, Repr

/-- The return addresses, in the runtime's part of program memory (log entry 172). -/
def retAddr (p : RtPoint) : BitVec 14 :=
  BitVec.ofNat 14 (Config.runtimeReturn (match p with
    | .dispatch => 0
    | .handler => 1
    | .exc => 2) % 4096)

/-- A cycle start is signalled: cs sets, and an engine that HALT has stopped goes on; the dispatcher's HALT stands in a loop.
The levels that will come back see it too. -/
def signalCycle (e : Engine) : Engine :=
  if e.run == .halted then
    (if e.pc = retAddr .dispatch then { e with run := .running } else finishIssue 1 .next { e with run := .running })
  else
    let e := e.setStatus 12 true
    let e := if e.lvl then { e with estat := setBit e.estat 12 true } else e
    if e.xl then e.modBank e.lvl fun b => { b with xstat := setBit b.xstat 12 true } else e

/-- Every register 0 but mode (R188). -/
def zeroRegisters (e : Engine) : Engine :=
  { Engine.reset with mode := e.mode, program := e.program, local_ := e.local_, run := .running }

/-! Migration (R216). -/

/-- The address of an entry of the image an engine runs; 0 where it has none. -/
def entryAddr (s : State) (e : EngineId) (k : Nat) : Nat :=
  match s.roles[e].image with
  | some im => im.entries.getD k 0
  | none => 0

/-- Every register 0 but mode, and a call of a background entry; without one the dispatcher stands ready (R211, R215, R216). -/
def startEntry (entry : Nat) (e : Engine) : Engine :=
  let y := zeroRegisters e
  if entry = 0 then { y with pc := retAddr .dispatch } else { y with pc := BitVec.ofNat 14 entry, lr := retAddr .dispatch }

/-- The words that are no slot block. -/
def outsideBlocks (l : List (Nat × Sample)) : List (Nat × Sample) := l.filter fun e => decide (e.1 < 0x7000) || decide (0x7400 ≤ e.1)

/-- Why the work of an engine goes to another: ENGINE_RETIRE (R216), a fault while a spare is present (R279), or a fault with
none (R280). -/
inductive MoveKind | retire | fault | second
deriving DecidableEq, Repr

/-- The strand block of a strand (R191). -/
def strandBlock (st : StrandId) : Nat := 0x7400 + Config.strandBlock st % 0xAC0

/-- The strand among these whose block holds a local address: the one whose block begins last before it. -/
def blockOwner (l : List StrandId) (a : Nat) : Option StrandId :=
  if a < 0x7400 ∨ 0x7EC0 ≤ a then none
  else (l.filter fun i => decide (strandBlock i ≤ a)).argmax strandBlock

/-- The local memory without the slot blocks, as a faulted engine's is copied through its ECC: words that fail arrive with an
open value, and the strands whose blocks hold them raise POISONED_DATA (R279, log entry 107). -/
def State.spoilLocal (s : State) (e : EngineId) : State :=
  let bad := (Config.copyErrors (s.key e)).filter fun a => decide (a < 0x7000) || (decide (0x7400 ≤ a) && decide (a < 0x8000))
  (s.modEngine e (spoil (s.key e) bad)).raiseCauses (bad.filterMap (blockOwner (strandsOfEngine s e))).dedup causePoisoned

/-- A program memory with an image's code from 0x1000 (R215). -/
def loadCode (old : List (Nat × BitVec 36)) (im : Option FlyerImage) : List (Nat × BitVec 36) :=
  old.filter (fun w => decide (w.1 < 0x1000)) ++
    ((((im.map (·.code)).getD []).mapIdx fun k w => (0x1000 + k, w)).filter fun w => w.2 != 0)

/-- The image and the program memory that go along: a retired engine's own, after a fault the bank copy of the assigned program
(R216, R279). -/
def movedCode (s : State) (e dst : EngineId) (kind : MoveKind) : Option FlyerImage × List (Nat × BitVec 36) :=
  match kind with
  | .fault =>
    let im := s.roles[e].program.bind fun p => s.progs[p]
    (im, loadCode s.engines[dst].program im)
  | .retire | .second => (s.roles[e].image, s.engines[e].program)

/-- At a cycle start the work of an engine goes to another (R216, R279, R280). A spare takes the program and the local memory
without the slot blocks, and runs entry_resume. -/
def State.migrate (s : State) (e dst : EngineId) (kind : MoveKind) : State :=
  let fresh := kind != .second
  let hits := strandsOfEngine s e
  let s := if kind = .fault then s.spoilLocal e else s
  let code := movedCode s e dst kind
  let own := (outsideBlocks s.engines[e].local_)
  let blocks := s.engines[dst].local_.filter fun x => decide (0x7000 ≤ x.1) && decide (x.1 < 0x7400)
  let mem := own.filter (fun x => decide (x.1 < 0x7000)) ++ blocks ++ own.filter fun x => decide (0x7400 ≤ x.1)
  let s := if fresh then
      (s.modEngine dst fun x =>
        startEntry ((code.1.map fun im => im.entries.getD 1 0).getD 0)
          { x with program := code.2, local_ := mem, badParity := Config.loadParity (s.key dst) }).modRole dst fun r => { r with
        program := s.roles[e].program, image := code.1, mapCache := [], tookOver := true }
    else s.modRole dst fun r => { r with tookOver := true }
  let go := fun (x : Strand) => match x.cfg.binding with
    | .servo q k => if fresh then dst else engineOfSlot s q k
    | _ => dst
  let s := hits.foldl (fun s i => s.modStrand i fun x => { x with engine := go x }) s
  let s := if fresh && s.roles[e].home.isSome then s.modRole dst fun r => { r with home := s.roles[e].home } else s
  s.modRole e fun r => { r with calls := [], moveTo := none, byFault := false, home := none, retiring := if r.inService then some dst else none }

/-- After the last slot has gone over, a healthy retired engine is the new spare (R187). -/
def State.endRetire (s : State) (e : EngineId) : State :=
  if s.roles[e].retiring.isSome && s.roles[e].slots.toList.all (fun o => o.isNone) then
    (s.modRole e fun r => { r with retiring := none, spare := true, program := none, image := none, home := none }).modPwr fun p => { p with
      engines := modAt p.engines e fun f => { f with st := .retain } }
  else s

/-- The slot's handler is over: a retiring engine gives the slot away (R216). -/
def State.reroute (s : State) (e : EngineId) (k : Fin 4) : State :=
  match s.roles[e].retiring with
  | some dst => (s.moveSlot e k dst).endRetire e
  | none => s

/-! Sample-ready (R192, R206). -/

/-- A signed field of a landing area word: bits `hi:lo` of a value, sign-extended from `n` bits. -/
def landField (v : Int) (lo n : Nat) : Sample := BitVec.ofInt 18 (toSigned n (wrapNat n (asr v lo)))

/-- The ten words of a landing area. -/
def landing (s : State) (q : QuadId) (k : SlotId) (count : Sample) (peak : Bool) : List Sample :=
  let d := s.quads[q].data
  let ps := (ownedPairs (.servo q k)).map fun p => d[p]
  let strand := (s.strandsWhere fun x => decide (x.cfg.binding = .servo q k)).head?
  let u := strand.bind fun i => s.strands[i].cfg.fb
  let (pi, v) : Int × Int := match u with
    | some u => (s.fbs[u].latchPi, satInt 32 (roundFree (s.key 0) 97 ((s.fbs[u].latchV * 16 : Int) / ((2 ^ 32 : Nat) : Rat))))
    | none => (0, 0)
  ps ++ [count, if peak then 1 else 0, landField pi 0 18, landField pi 18 18, landField pi 36 4, landField v 0 18, landField v 18 14]

/-! The runtime (R210, R211). -/

/-- The strand a slot serves. -/
def strandOfSlot (s : State) (x : FlSlot) : Option StrandId :=
  (s.strandsWhere fun y => decide (y.cfg.binding = .servo x.quad x.slot)).head?

/-- What RETI restores (R204). -/
def Engine.reti (e : Engine) : Engine :=
  { e with
    status := e.estat &&& ~~~0xE000, condZ := e.estat.getLsbD 0, condN := e.estat.getLsbD 1, condV := e.estat.getLsbD 2
    condC := e.estat.getLsbD 3, handling := none }

/-- What RETX restores, and whether it goes back into a mode shadow (R208). -/
def Engine.retx (e : Engine) : Engine × Bool :=
  let b := e.bank
  let st := setBit (setBit (setBit (b.xstat &&& ~~~0xE000) 6 false) 7 false) 8 false
  let ms := b.xstat.getLsbD 8
  let old : BitVec 18 := BitVec.ofNat 18 (b.xmode.toNat % 256)
  let new : BitVec 18 := BitVec.ofNat 18 (b.xmode.toNat / 256)
  let y := { e with
    status := st, condZ := st.getLsbD 0, condN := st.getLsbD 1, condV := st.getLsbD 2, condC := st.getLsbD 3
    mode := if ms then old else new }
  (if ms then y.put 2 (.mode new) else y, ms)

/-- The handler's save area: lr, mode, lc1, ls1 and le1 (R211). -/
def saveBase : Nat := 0x7FC0 + Config.handlerSave % 60

/-- The runtime's current-ply handler calls entry_cur for slot k: the shared registers it saves, a6, a7 and the link (R211). -/
def callCur (k : Nat) (entry : Nat) (e : Engine) : Engine :=
  { e.storeAll saveBase [e.lr.setWidth 18, e.mode, e.lc[(1 : Fin 2)], e.ls[(1 : Fin 2)].setWidth 18, e.le[(1 : Fin 2)].setWidth 18] with
    a := (e.a.set 6 (BitVec.ofNat 20 (landingBase k))).set 7 (BitVec.ofNat 20 (blockBase k))
    lr := retAddr .handler, pc := BitVec.ofNat 14 entry, inCur := true, delay := none, shadow := false }

/-- entry_cur has returned: the handler puts the saved registers back (R211). -/
def endCur (e : Engine) : Engine :=
  if !e.inCur then e
  else { e with
    inCur := false, lr := (e.load saveBase).truncate 14, mode := e.load (saveBase + 1)
    lc := e.lc.set 1 (e.load (saveBase + 2)), ls := e.ls.set 1 ((e.load (saveBase + 3)).truncate 14)
    le := e.le.set 1 ((e.load (saveBase + 4)).truncate 14) }

/-- The runtime's handler ends with RETI; a retiring engine gives the slot away (R211, R216). -/
def State.endHandler (s : State) (i : EngineId) : State :=
  let s := s.modEngine i fun e => endCur e.flush
  let s := match s.engines[i].slotHandled with
    | some k => s.reroute i k
    | none => s
  s.modEngine i fun e => finishIssue 1 (.resume e.epc false) e.reti

/-- The engine holds slots of a faulted engine whose program, with an entry_cur, it loads only at the next cycle start: until then
their quads keep the last duty values (R279, log entry 107). -/
def awaitsCode (s : State) (i : EngineId) : Bool :=
  (boundFor s i).any fun e => s.roles[e].byFault && userEntry s e 4

/-- The handler of a source begins. A slot's: the standard current ply, or the call of entry_cur, and nothing for a slot that
is off or waits for its program (R210, R211, R279). -/
def State.beginHandler (s : State) (i : EngineId) : State :=
  match s.engines[i].slotHandled with
  | none => s.endHandler i
  | some k =>
    match s.roles[i].slots[k] with
    | none => s.endHandler i
    | some x =>
      if x.off || awaitsCode s i then s.endHandler i
      else if userEntry s i 4 then s.modEngine i (callCur k.val (entryAddr s i 4))
      else
        match strandOfSlot s x with
        | some st => (s.currentPly st).endHandler i
        | none => s.endHandler i

/-- The runtime abandons a strand's work for this cycle and goes on with the next strand (R210). -/
def State.abandon (s : State) (i : EngineId) (st : StrandId) : State :=
  let s := s.modStrand st fun x => { x with abandoned := some s.seq.cycle }
  let s := s.modRole i fun r => { r with calls := r.calls.filter fun c => c.2 != st }
  s.modEngine i fun e => { (e.setGr 0).setStatus 6 false with
    pc := retAddr .dispatch, delay := none, shadow := false, excLink := none }

/-- The exception handler (R210). -/
def State.dispose (s : State) (i : EngineId) : State :=
  let e := s.engines[i]
  let b := e.bank
  if e.lvl then
    match (e.slotHandled.bind fun k => (s.roles[i].slots[k]).map fun x => (k, x)) with
    | none => s.endHandler i
    | some (k, x) =>
      match strandOfSlot s x with
      | none => s.endHandler i
      | some st =>
        let s := if b.xcause = 3 then (s.raiseCause st causePoisoned).modStrand st fun x => { x with abandoned := some s.seq.cycle }
          else
            let s := (s.modRole i fun r => { r with slots := r.slots.set k (some { x with off := true }) }).switchOff st
            (s.modStrand st fun x => { x with stopDue := true }).raiseCause st causeUser
        s.endHandler i
  else
    let st : StrandId := Fin.ofNat 256 e.stid.toNat
    if b.xcause = 3 then (s.raiseCause st causePoisoned).abandon i st
    else if userEntry s i 5 && !b.xstat.getLsbD 7 then
      s.modEngine i fun e => { (e.modBank false fun b => { b with d := b.d.set 0 (b.xcause.setWidth 18) }) with
        pc := BitVec.ofNat 14 (entryAddr s i 5), lr := retAddr .exc, excLink := some e.lr }
    else ((s.logRec 1 causeUser st b.xcause.toNat s.strands[st].context 0).raiseCause st causeUser).abandon i st

/-- entry_exc has returned: with d0 = 1 the runtime executes RETX; otherwise the strand's work is abandoned with USER and a log
record (R210). -/
def State.endExc (s : State) (i : EngineId) (link : BitVec 14) : State :=
  let e := { s.engines[i].flush with lr := link, excLink := none }
  let st : StrandId := Fin.ofNat 256 e.stid.toNat
  if e.d 0 = 1 then
    let r := e.retx
    s.setEngine i (finishIssue 1 (.resume e.bank.xpc r.2) r.1)
  else
    (((s.setEngine i e).logRec 1 causeUser st e.bank.xcause.toNat s.strands[st].context 0).raiseCause st causeUser).abandon i st

/-- The dispatcher: the next call of an entry, with a0 and stid set; with none left it halts (R211, R16), where a poisoned word
not yet reported is met (R194). -/
def State.dispatch (s : State) (i : EngineId) : State :=
  match s.roles[i].calls, s.engines[i].poison with
  | [], some a => (s.modEngine i fun e => { e with poison := none }).trap i 3 a
  | [], none => s.modEngine i fun e =>
      { (e.flush.setStatus 12 false) with run := if e.run = FlRun.stepping then FlRun.debug else FlRun.halted }
  | (k, st) :: r, _ =>
    (s.modRole i fun x => { x with calls := r }).modEngine i fun e => { e.flush with
      a := e.a.set 0 (BitVec.ofNat 20 (strandBlock st)), stid := BitVec.ofNat 8 st.val
      pc := BitVec.ofNat 14 (entryAddr s i k), lr := retAddr .dispatch }

/-- One thing the runtime does where an engine has come to one of its places; nothing in a user's code. -/
def State.runtimeStep (s : State) (i : EngineId) : Option State :=
  let e := s.engines[i]
  if (e.run ≠ .running ∧ e.run ≠ .stepping) ∨ e.delay.isSome ∨ 4096 ≤ e.pc.toNat then none
  else if e.xl then
    match e.excLink with
    | none => if e.pc = 8 then some (s.dispose i) else none
    | some l => if e.pc = retAddr .exc ∧ !e.lvl then some (s.endExc i l) else none
  else if e.lvl then
    if e.inCur then (if e.pc = retAddr .handler then some (s.endHandler i) else none)
    else if e.handling.any fun src => e.pc == BitVec.ofNat 14 (0x10 + 2 * src) then some (s.beginHandler i) else none
  else if e.pc = retAddr .dispatch then some (s.dispatch i)
  else none

/-- The runtime at work, till an engine is in a user's code, halts, or has none of these places before it. -/
def State.runtimeRun : Nat → State → EngineId → State
  | 0, s, _ => s
  | n + 1, s, i =>
    match s.runtimeStep i with
    | some t => State.runtimeRun n t i
    | none => s

/-- What the runtime does at one boundary: at most the handlers of five sources, an exception, and the dispatcher's turn. -/
def State.runtime (s : State) (i : EngineId) : State := State.runtimeRun 16 s i

/-- The same, and on the engine a retirement hands slots to, which may have taken over a sample-ready (R216). -/
def State.runtimes2 (s : State) (i : EngineId) : State :=
  match s.roles[i].retiring with
  | some d => (s.runtime i).runtime d
  | none => s.runtime i

/-- A slot of an engine is sample-ready: the landing area, then the slot's interrupt (R192, R206). -/
def State.slotReady (s : State) (e : EngineId) (k : Fin 4) (x : FlSlot) (peak : Bool) : State :=
  let words := landing s x.quad x.slot x.count peak
  let s := s.modEngine e fun en => en.storeAll (landingBase k.val) words
  let s := s.modRole e fun r => { r with slots := r.slots.set k (some { x with count := x.count + 1 }) }
  (s.modEngine e (fireSource (slotSource k.val))).runtimes2 e

/-- The slots that serve a quad. -/
def slotsOfQuad (s : State) (q : QuadId) : List (EngineId × Fin 4 × FlSlot) :=
  (List.finRange 17).flatMap fun e => (List.finRange 4).filterMap fun k =>
    match s.roles[e].slots[k] with
    | some x => if x.quad = q then some (e, k, x) else none
    | none => none

/-- Sample-ready of a quad (R140, R179, R192). -/
def State.quadReady (s : State) (q : QuadId) (at_ : SampleInstant) (data : List (List Bool)) : State :=
  let s := s.modQuad q (takeSamples data)
  let s := s.latchAngles q (fun s u => s.modFb u fun x => advanceFb (s.key u) (at_.ns / 5 - x.now) x) fun s u => piOf (s.key u.val) s.fbs[u]
  ((slotsOfQuad s q).foldl (fun s x => s.slotReady x.1 x.2.1 x.2.2 at_.peak) s).tick

/-! FLYER_ASSIGN, ENGINE_RETIRE, FLYER_DEBUG (R215 to R217, R138). -/

def engineIx (e : Byte) : EngineId := Fin.ofNat 17 e.toNat

def checkAssign (engine program : Byte) (s : State) : Half :=
  let e := engineIx engine
  let quiet := (strandsOfEngine s e).all fun i => s.strands[i].within [.off, .ready]
  let ok := match fin? 16 program.toNat with
    | none => true
    | some p =>
      match s.progs[p] with
      | none => false
      | some im => im.entries.getD 4 0 != 0 && allTimingOk (s.modRole e fun r => { r with program := some p, image := some im })
  allowIf (quiet && ok && s.roles[e].inService)

/-- The assignment at its cycle start (R215). -/
def applyAssign (engine program : Byte) (s : State) : State :=
  let e := engineIx engine
  let p := fin? 16 program.toNat
  let im := p.bind fun p => s.progs[p]
  let data := (im.map (·.data)).getD []
  let s := s.modRole e fun r => { r with program := p, image := im, loading := true, mapCache := [], calls := [] }
  let bad := (Config.loadParity (s.key e)).filter fun a => decide (0x1000 ≤ a)
  let s := s.modEngine e fun x =>
    let mem := x.local_.filter fun w => decide (w.1 < 0x7000) || decide (0x7EC0 ≤ w.1)
    let y := ({ x with program := loadCode x.program im, local_ := mem }).storeAll 0 data
    startEntry ((im.map fun i => i.entries.getD 0 0).getD 0) { y with badParity := y.badParity.filter (fun a => decide (a < 0x1000)) ++ bad }
  ((strandsOfEngine s e).filter fun i => s.strands[i].st = .ready).foldl (fun s i => s.modStrand i fun x => { x with
    ply := { x.ply with xCur := x.ply.xCur.map fun _ => 0, xVel := x.ply.xVel.map fun _ => 0, xPos := x.ply.xPos.map fun _ => 0 } }) s

def checkRetire (engine : Byte) (s : State) : Half :=
  let e := engineIx engine
  allowIf ((spareOf s).isSome && s.roles[e].inService && !s.roles[e].spare)

/-- The move of ENGINE_RETIRE starts at its cycle start: the strand work, then slot by slot (R216). -/
def applyRetire (engine : Byte) (s : State) : State :=
  let e := engineIx engine
  match spareOf s with
  | none => s
  | some sp =>
    if sp = e then s
    else (((s.modRole sp fun r => { r with spare := false }).wakeEngine sp).migrate e sp .retire).endRetire e

/-- A debug halt takes hold: the engine stops and its quads freeze (R138). An instruction that waits for a place in the fabric port
issues again after the halt. -/
def State.debugHalt (s : State) (e : EngineId) : State :=
  let s := s.modEngine e fun x => { x with run := .debug, held := none }
  let s := s.modRole e fun r => { r with haltDue := false }
  (quadsOfEngine s e).foldl State.freezeQuad s

/-- A halt that waits takes hold where it can. -/
def State.haltIfDue (s : State) (e : EngineId) : State :=
  let x := s.engines[e]
  if s.roles[e].haltDue && !x.lvl && x.interruptible && x.run != .faulted then s.debugHalt e else s

/-- A quad leaves the freeze: every pair off, and from the next valley the carrier with the shadows (R138). -/
def unfreeze (x : Quad) : Quad := { x with frozen := false, waitValley := x.frozen || x.waitValley, cnt := 0, down := false }

/-- A step: at one of the runtime's places what the runtime does there, else the next instruction to issue (R217). -/
def State.debugStep (s : State) (e : EngineId) : State :=
  let s := s.modEngine e fun x => { x with run := .stepping }
  match s.runtimeStep e with
  | some t => t.modEngine e fun x => { x with run := if x.run = FlRun.stepping then FlRun.debug else x.run }
  | none => s

/-- FLYER_DEBUG: 0 halt, 1 step, 2 resume. -/
def runDebug (engine action : Byte) (s : State) : CmdResult :=
  let e := engineIx engine
  if !s.host.bench then refuse s stRefused
  else
    match action.toNat with
    | 0 => ((s.modRole e fun r => { r with attached := true, haltDue := true }).haltIfDue e, stOk, [])
    | 1 => (if s.engines[e].run == .debug then s.debugStep e else s, stOk, [])
    | _ =>
      if s.engines[e].run == .debug then
        let qs := quadsOfEngine s e
        let s := (s.modEngine e fun x => takeInterrupt { x with run := .running }).runtime e
        -- a quad stays frozen while another halted engine holds one of its slots
        (qs.foldl (fun s q =>
          if (slotsOfQuad s q).any fun t => s.engines[t.1].run == .debug then s else s.modQuad q unfreeze) s, stOk, [])
      else (s.modRole e fun r => { r with haltDue := false }, stOk, [])

end Sys2Proof.Machine
end

