-- ==== Sys2Proof/Machine/Hash.lean ====
section
/-! DEFINITION. The checks the manual names by their standards: CRC-32 (R288, R307), SHA-256 (R310) and HMAC-SHA-256
(R364). Digests are byte lists in the order the standard prints them. -/

namespace Sys2Proof.Machine

/-! CRC-32: the reflected polynomial 0xEDB88320, all ones before and after. -/

def crcBit (c : BitVec 32) : BitVec 32 := if c.getLsbD 0 then (c >>> 1) ^^^ 0xEDB88320 else c >>> 1

def crcByte (c : BitVec 32) (b : Byte) : BitVec 32 :=
  crcBit (crcBit (crcBit (crcBit (crcBit (crcBit (crcBit (crcBit (c ^^^ b.setWidth 32))))))))

def crc32 (bs : List Byte) : Word := ~~~(bs.foldl crcByte 0xFFFFFFFF)

/-! SHA-256, from its definition: every constant is the first 32 bits after the point of a root of a prime, and the eight
working words are the last four values of two sequences. -/

/-- The whole part of the `k`-th root of `x`, bit by bit from bit `n − 1` down. -/
def rootBits (k x : Nat) : Nat → Nat → Nat
  | 0, r => r
  | n + 1, r => rootBits k x n (if (r + 2 ^ n) ^ k ≤ x then r + 2 ^ n else r)

/-- The first 32 bits after the point of the `k`-th root of `p`. -/
def rootWord (k p : Nat) : Word := BitVec.ofNat 32 (rootBits k (p * 2 ^ (32 * k)) 38 0)

/-- The first 64 primes. -/
def firstPrimes : List Nat := (List.range 312).filter fun n => decide (2 ≤ n) && (List.range n).all fun d => decide (d < 2) || decide (n % d ≠ 0)

/-- A word turned right by each of some counts, the turned words added bit by bit. -/
def turned (counts : List Nat) (w : Word) : Word := counts.foldl (fun v n => v ^^^ w.rotateRight n) 0

/-- The words of a block as numbers, most significant byte first. -/
def blockWords (bs : List Byte) : List Word := (List.range 16).map fun i => BitVec.ofNat 32 (leNat (slice bs (4 * i) 4).reverse)

/-- The word that follows the sixteen of a window, oldest first. -/
def nextWord (w : List Word) : Word :=
  let small := fun (counts : List Nat) (n : Nat) (v : Word) => turned counts v ^^^ (v >>> n)
  w.getD 0 0 + small [7, 18] 3 (w.getD 1 0) + w.getD 9 0 + small [17, 19] 10 (w.getD 14 0)

/-- The two sequences, newest value first, and the window of sixteen message words, oldest first. -/
structure ShaRun where
  as_ : List Word
  es : List Word
  window : List Word
deriving DecidableEq, Repr

/-- One step of both sequences, with its constant. -/
def ShaRun.next (r : ShaRun) (k : Word) : ShaRun :=
  let a := fun n => r.as_.getD n 0
  let e := fun n => r.es.getD n 0
  let common := e 3 + turned [6, 11, 25] (e 0) + ((e 0 &&& (e 1 ^^^ e 2)) ^^^ e 2) + k + r.window.getD 0 0
  let major := ((a 0 ||| a 1) &&& a 2) ||| (a 0 &&& a 1)
  { as_ := (common + turned [2, 13, 22] (a 0) + major) :: r.as_.take 3
    es := (a 3 + common) :: r.es.take 3
    window := r.window.drop 1 ++ [nextWord r.window] }

/-- The constants of a block's 64 steps. -/
def shaWords : List Word := firstPrimes.map (rootWord 3)

/-- A chaining value taken on by one block of 64 bytes. -/
def shaBlock (h : List Word) (bs : List Byte) : List Word :=
  let r := shaWords.foldl ShaRun.next ⟨h.take 4, h.drop 4, blockWords bs⟩
  List.zipWith (· + ·) h (r.as_ ++ r.es)

/-- The bytes of a number, most significant first. -/
def beBytes (n v : Nat) : List Byte := (leBytes n v).reverse

/-- A message filled up to whole blocks: one bit, zeros, and the length in bits. -/
def shaFill (bs : List Byte) : List Byte :=
  bs ++ [0x80] ++ List.replicate ((119 - bs.length % 64) % 64) 0 ++ beBytes 8 (8 * bs.length)

def sha256 (bs : List Byte) : List Byte :=
  let m := shaFill bs
  let start := (firstPrimes.take 8).map (rootWord 2)
  ((List.range (m.length / 64)).foldl (fun h i => shaBlock h (slice m (64 * i) 64)) start).flatMap fun w => beBytes 4 w.toNat

/-- HMAC-SHA-256. -/
def hmac (key msg : List Byte) : List Byte :=
  let k := if 64 < key.length then sha256 key else key
  let k := k ++ List.replicate (64 - k.length) 0
  sha256 (k.map (· ^^^ 0x5C) ++ sha256 (k.map (· ^^^ 0x36) ++ msg))

end Sys2Proof.Machine
end

