-- ==== Sys2Proof/Machine/Mram.lean ====
section
/-! DEFINITION. The MRAM as the internal bus reads it (R281), and the bytes of fixer log records (R288). -/

namespace Sys2Proof.Machine

/-- The 64 bytes of a record. -/
def logBytes (r : LogRec) : List Byte :=
  let ctx := ((r.context.take 8).flatMap (leInt 3))
  let b := leBytes 4 r.seq.toNat ++ leBytes 4 r.stamp.toNat ++ leBytes 6 r.cycle.toNat ++ [r.cls, r.flags] ++ leBytes 2 r.cause.toNat ++
    leBytes 2 r.inst.toNat ++ leBytes 4 r.detail.toNat ++ ctx ++ List.replicate (32 - ctx.length) 0 ++ List.replicate 4 0
  b ++ leBytes 4 (crc32 b).toNat

/-- A byte of the MRAM at 0x2000_0000: the firmware images, the fixer log and the calibration set stand as the manual lays them
out; the layouts of the other regions are not given (R281, log entry 201). -/
def mramByte (s : State) (off : Nat) : Byte :=
  if off < 0x400000 then sget 0xFF s.rec_.fw[(Fin.ofNat 2 (off / 0x200000))].bytes (off % 0x200000)
  else if 0xC00000 ≤ off ∧ off < 0xD00000 then
    match s.rec_.log.find? fun r => r.seq.toNat % 16384 == (off - 0xC00000) / 64 with
    | some r => (logBytes r).getD (off % 64) 0
    | none => Config.mramFree s.free off
  else Config.mramFree s.free off

end Sys2Proof.Machine
end

