-- ==== Sys2Proof/Machine/Topology.lean ====
section
/-! DEFINITION. The domain's topology as an enumeration finds it (R237, R253): segments, the tree of segments, routes (R249), the
publications that cross a T link (R244, R246), and how bursts travel over the links (R238, R256, R258). Devices are named by
their places in the order found. -/

namespace Sys2Proof.Machine

def isRing : Port → Bool
  | .s => true
  | .z => true
  | _ => false

/-- The other ring port, or the other tree port. -/
def otherPort : Port → Port
  | .s => .z
  | .z => .s
  | .t0 => .t1
  | .t1 => .t0

/-! Links. -/

/-- The far end of a port: the device, its port and the length of the link in m. -/
def farEnd (links : List FoundLink) (i : Nat) (p : Port) : Option (Nat × Port × Nat) :=
  links.findSome? fun l =>
    if l.a = i ∧ l.pa = p then some (l.b, l.pb, l.metres)
    else if l.b = i ∧ l.pb = p then some (l.a, l.pa, l.metres)
    else none

/-- The ring link of a device and port. -/
def ringLink (l : FoundLink) : Bool := isRing l.pa

/-- One link in ns: 64 ns and 5 ns for each m (R258). -/
def linkNs (metres : Nat) : Nat := 64 + 5 * metres

/-! Segments (R237). -/

/-- Every device takes the lowest label among itself and its ring neighbours. -/
def spreadLabels (links : List FoundLink) (l : List Nat) : List Nat :=
  l.mapIdx fun i v => links.foldl (fun v k =>
    if !ringLink k then v
    else if k.a = i then min v (l.getD k.b v)
    else if k.b = i then min v (l.getD k.a v)
    else v) v

def labelsOf (links : List FoundLink) : Nat → List Nat → List Nat
  | 0, l => l
  | n + 1, l => labelsOf links n (spreadLabels links l)

/-- The segment number of each device: segments in the order in which their first devices are found. -/
def segmentsOf (n : Nat) (links : List FoundLink) : List Nat :=
  let l := labelsOf links n (List.range n)
  l.map fun v => ((l.filter fun w => decide (w < v)).eraseDups).length

/-- Number of segments of a list of segment numbers. -/
def segmentCount (segs : List Nat) : Nat := segs.foldl (fun m v => max m (v + 1)) 0

/-- A T link between the gateway of a child segment and a device of its parent segment. -/
structure TreeLink where
  child : Nat
  childPort : Port
  parent : Nat
  parentPort : Port
deriving DecidableEq, Repr

/-- The role of a T port: 2 uplink, 3 downlink. -/
def roleOf (d : FoundDevice) (p : Port) : BitVec 2 := if p = .t0 then d.role0 else d.role1

/-- The T links with one uplink and one downlink end. -/
def treeLinks (found : List FoundDevice) (links : List FoundLink) : List TreeLink :=
  links.filterMap fun l =>
    let role := fun (i : Nat) (p : Port) => ((found[i]?).map fun d => roleOf d p).getD 0
    if ringLink l then none
    else if role l.a l.pa = 2 ∧ role l.b l.pb = 3 then some ⟨l.a, l.pa, l.b, l.pb⟩
    else if role l.b l.pb = 2 ∧ role l.a l.pa = 3 then some ⟨l.b, l.pb, l.a, l.pa⟩
    else none

/-! The tree of segments. -/

def Topology.segment (t : Topology) (i : Nat) : Nat := t.segments.getD i 0

/-- The uplinks of a segment. -/
def Topology.ups (t : Topology) (seg : Nat) : List TreeLink := (treeLinks t.devices t.links).filter fun u => t.segment u.child == seg

/-- The parent of a segment. -/
def Topology.parent (t : Topology) (seg : Nat) : Option Nat := (t.ups seg).head?.map fun u => t.segment u.parent

/-- Is a segment `a` itself or one below it? -/
def Topology.below (t : Topology) (a : Nat) : Nat → Nat → Bool
  | 0, c => c == a
  | n + 1, c => c == a || match t.parent c with
    | some p => t.below a n p
    | none => false

/-- Does a segment lie in the subtree of another? -/
def Topology.inTree (t : Topology) (a c : Nat) : Bool := t.below a (segmentCount t.segments) c

/-- R237: one link to a port; ring ports S to Z, tree ports uplink to downlink; at most 256 devices in a segment; one root; two
uplinks only from different devices to different devices of one parent; no loops. -/
def Topology.legal (t : Topology) : Bool :=
  let n := t.devices.length
  let ends := t.links.flatMap fun l => [(l.a, l.pa), (l.b, l.pb)]
  let segs := List.range (segmentCount t.segments)
  let roots := segs.filter fun g => (t.ups g).isEmpty
  let root := roots.headD 0
  t.links.all (fun l => decide (l.a < n) && decide (l.b < n) && l.a != l.b) && decide (ends.eraseDups.length = ends.length) &&
    t.links.all (fun l => if isRing l.pa then decide (l.pb = otherPort l.pa) else !isRing l.pb) &&
    decide ((treeLinks t.devices t.links).length = (t.links.filter fun l => !ringLink l).length) &&
    segs.all (fun g => decide ((t.segments.filter (· == g)).length ≤ 256)) && decide (roots.length = 1) &&
    segs.all (fun g => match t.ups g with
      | [] => true
      | [_] => true
      | [u, v] => u.child != v.child && u.parent != v.parent && t.segment u.parent == t.segment v.parent
      | _ => false) &&
    segs.all (fun g => t.inTree root g)

/-- Is a segment a ring: as many links as devices (R237)? -/
def Topology.isRing (t : Topology) (seg : Nat) : Bool :=
  decide ((t.links.filter fun l => ringLink l && t.segment l.a == seg).length = (t.segments.filter (· == seg)).length)

/-! Routes (R249). -/

/-- Links from device `i` to `j` when every device is left by port `p`. -/
def Topology.hops (t : Topology) (p : Port) (j : Nat) : Nat → Nat → Option Nat
  | 0, _ => none
  | n + 1, i =>
    if i = j then some 0
    else match farEnd t.links i p with
      | some (k, _, _) => (t.hops p j n k).map (· + 1)
      | none => none

/-- The ring port toward a device of the same segment: the shorter way, S on a tie, and in a chain the only one. -/
def Topology.ringWay (t : Topology) (i j : Nat) : Option Port :=
  match t.hops .s j (t.devices.length + 1) i, t.hops .z j (t.devices.length + 1) i with
  | some a, some b => some (if a ≤ b then .s else .z)
  | some _, none => some .s
  | none, some _ => some .z
  | none, none => none

/-- The child segment of `seg` on the way down to `goal`. -/
def Topology.childToward (t : Topology) (seg goal : Nat) : Option Nat :=
  (List.range (segmentCount t.segments)).find? fun c => decide (t.parent c = some seg) && t.inTree c goal

/-- The device number a place in the list holds. -/
def Topology.number (t : Topology) (i : Nat) : Option (BitVec 14) := (t.numbers[i]?).bind id

/-- The uplink a segment uses: the one of lower device number that is ready. -/
def Topology.uplink (t : Topology) (ready : Nat → Port → Bool) (seg : Nat) : Option TreeLink :=
  let before := fun (u v : TreeLink) => decide (((t.number u.child).map (·.toNat)).getD 16384 ≤ ((t.number v.child).map (·.toNat)).getD 16384)
  let best := fun (l : List TreeLink) => l.foldl (fun (w : Option TreeLink) u => match w with
    | none => some u
    | some v => if before v u then some v else some u) none
  (best ((t.ups seg).filter fun u => ready u.child u.childPort && ready u.parent u.parentPort)).orElse fun _ => best (t.ups seg)

/-- The port by which a frame to a device leaves this one, where a way is known; `ready` says which T ports are. -/
def Topology.route (t : Topology) (ready : Nat → Port → Bool) (dst : BitVec 14) : Option Port :=
  match t.numbers.findIdx? (· == some dst) with
  | none => none
  | some j =>
    let own := t.segment t.self
    let goal := t.segment j
    let toward := fun (i : Nat) (p : Port) => if i = t.self then some p else t.ringWay t.self i
    if own = goal then t.ringWay t.self j
    else if t.inTree own goal then
      ((t.childToward own goal).bind (t.uplink ready)).bind fun u => toward u.parent u.parentPort
    else (t.uplink ready own).bind fun u => toward u.child u.childPort

/-! Publications across a T link (R244, R246). -/

/-- Does the schedule send a publication to a segment? -/
def SchedPub.goesTo (p : SchedPub) (seg : Nat) : Bool :=
  if p.scope = 1 then true else if p.scope = 2 then p.dest.contains seg && seg != 0xFFFF else seg == p.home

/-- Does a publication cross the T link of a device and port, into the device's segment or out of it? Down to a child segment
goes what starts outside its subtree and is wanted in it; up goes what starts in it and is wanted outside. -/
def Topology.crosses (t : Topology) (device : BitVec 14) (port : Port) (inward : Bool) (p : SchedPub) : Bool :=
  match t.numbers.findIdx? (· == some device) with
  | none => false
  | some i =>
    match (treeLinks t.devices t.links).find? fun u => (u.child == i && decide (u.childPort = port)) || (u.parent == i && decide (u.parentPort = port)) with
    | none => false
    | some u =>
      let c := t.segment u.child
      let segs := List.range (segmentCount t.segments)
      let below := t.inTree c
      let down := !below p.home && segs.any fun g => below g && p.goesTo g
      let up := below p.home && segs.any fun g => !below g && p.goesTo g
      if (u.child == i) == inward then down else up

/-! The way of a burst through its segment (R238, R256, R258). -/

/-- R_seg of a segment in ns. -/
def Topology.roundNs (t : Topology) (seg : Nat) : Nat :=
  ((t.links.filter fun l => ringLink l && t.segment l.a == seg).map fun l => linkNs l.metres).foldl (· + ·) 0

/-- Where and when a burst leaves by port `p` of each device on its way from `source`: the device and the time in 1/100 ns. It
does not leave by the port that leads to its source. -/
def Topology.passes (t : Topology) (p : Port) (source : Nat) : Nat → Nat → Nat → List (Nat × Nat)
  | 0, _, _ => []
  | n + 1, i, time =>
    match farEnd t.links i p with
    | none => []
    | some (k, _, m) => if k = source then [] else (i, time) :: t.passes p source n k (time + 100 * linkNs m)

/-- The passes of a burst of the device with a number, from its start on. -/
def Topology.way (t : Topology) (p : Port) (device : BitVec 14) (start : Nat) : List (Nat × Nat) :=
  match t.numbers.findIdx? (· == some device) with
  | none => []
  | some i => t.passes p i (t.devices.length + 1) i (100 * start)

/-- When the bursts of the schedule start on a port of this device, in block times from the cycle start: its own bursts and those
it forwards (R238, R250). -/
def Link.dues (l : Link) (p : Port) : List Nat :=
  l.sched.slots.flatMap fun e =>
    let x := e.2
    if x.kind = .tree then (if x.device = l.device ∧ x.port = some p then [x.start * 100 / 128] else [])
    else if !isRing p then []
    else if x.device = l.device then [x.start * 100 / 128]
    else ((l.topo.way p x.device x.start).filter fun w => w.1 == l.topo.self).map fun w => w.2 / 128

/-- Does a frame that is sent from one block time to another, two slack blocks with it, keep clear of the bursts due on a port in
this cycle and at the start of the next (R250)? -/
def frameFits (l : Link) (p : Port) (cycle start upTo : Nat) : Bool :=
  (l.dues p).all fun d => (decide (d < start) || decide (upTo ≤ d)) && decide (upTo ≤ d + cycle)

/-- The ports a burst leaves by, with the device and the time in 1/100 ns at which it starts there: both ring ports of every device
on its way, or the T port of a tree burst. -/
def Topology.occupies (t : Topology) (x : SchedSlot) : List (Port × Nat × Nat) :=
  match x.kind with
  | .tree => match t.numbers.findIdx? (· == some x.device) with
    | some i => [(x.port.getD .t0, i, 100 * x.start)]
    | none => []
  | _ => ((t.way .s x.device x.start).map fun w => (Port.s, w)) ++ (t.way .z x.device x.start).map fun w => (Port.z, w)

/-- Two bursts overlap on a port where the later starts before the earlier has ended and two slack blocks have passed; each lasts
`na` and `nb` in 1/100 ns. -/
def Topology.overlap (t : Topology) (na nb : Nat) (a b : SchedSlot) : Bool :=
  (t.occupies a).any fun v => (t.occupies b).any fun w =>
    decide (v.1 = w.1) && v.2.1 == w.2.1 && decide (v.2.2 < w.2.2 + nb + 256) && decide (w.2.2 < v.2.2 + na + 256)

/-- The tree slot that feeds an export slot: that of the device and port at the far end of its T link, with the length of the
link in m (R246). -/
def Topology.feeder (t : Topology) (c : Schedule) (x : SchedSlot) : Option (SchedSlot × Nat) :=
  match t.numbers.findIdx? (· == some x.device) with
  | none => none
  | some i => (farEnd t.links i (x.port.getD .t0)).bind fun f =>
    ((c.slots.map (·.2)).find? fun y => decide (y.kind = .tree) && (t.number f.1 == some y.device) && y.port == some f.2.1).map fun y => (y, f.2.2)

end Sys2Proof.Machine
end

