-- ==== Sys2Proof/Machine/Regs.lean ====
section
/-! DEFINITION. The internal register map: every register a table of the manual places at an internal address, as a
32-bit word read and written under its access codes (R4), and the control page of BAR0 as the host reads it (R41). -/

namespace Sys2Proof.Machine

def bw (b : Bool) : Nat × Nat := (b2n b, 1)
def nw (n w : Nat) : Nat × Nat := (n, w)

/-- A saturating count as a field shows it. -/
def capped (cap n : Nat) : Nat := min cap n

/-! The C-die system registers (R28, R31, R383). -/

/-- SYS_CLK_CTL. -/
def readClk (c : Clock) : Nat :=
  pack [nw c.pri0.toNat 2, nw c.pri1.toNat 2, nw c.pri2.toNat 2, bw c.revert, nw 0 9, nw c.active.toNat 2, bw c.holdover, bw c.mismatch,
    bw c.keeperCFault, bw c.keeperFFault]

/-- Is a reference source good? Code 3 is none. -/
def sourceGood (c : Clock) (src : BitVec 2) : Bool :=
  if src = 0 then c.goodA else if src = 1 then c.goodB else if src = 2 then c.goodLink else false

def setGood (src : BitVec 2) (v : Bool) (c : Clock) : Clock :=
  if src = 0 then { c with goodA := v } else if src = 1 then { c with goodB := v } else if src = 2 then { c with goodLink := v } else c

/-- The highest-priority source that is good. -/
def bestSource (c : Clock) : Option (BitVec 2) := [c.pri0, c.pri1, c.pri2].find? (sourceGood c)

/-- The PLL keeps a source that is good and listed; otherwise it takes the best one, and with none it holds over. -/
def selectSource (c : Clock) : Clock :=
  if sourceGood c c.active && [c.pri0, c.pri1, c.pri2].contains c.active then { c with holdover := false }
  else
    match bestSource c with
    | some x => { c with active := x, holdover := false }
    | none => { c with holdover := true }

/-- A write acts at once: a source that is no longer listed is left (R4, R31). -/
def writeClk (v : Nat) (c : Clock) : Clock :=
  selectSource { c with
    pri0 := BitVec.ofNat 2 v, pri1 := BitVec.ofNat 2 (v / 4), pri2 := BitVec.ofNat 2 (v / 16), revert := bit v 6
    mismatch := c.mismatch && !bit v 19 }

/-- SYS_TEMP. -/
def readTemp (q : Safety) : Nat :=
  pack [nw q.tjC.toNat 11, bw q.warnC, bw q.tripC, nw 0 3, nw q.tjF.toNat 11, bw q.warnF, bw q.tripF]

/-! PWM (R151). -/

def readPwm (s : State) (q : QuadId) (off : Nat) : Nat :=
  let x := s.quads[q]
  if off = 0 then pack [nw x.cfg.mix.toNat 2, bw x.cfg.saw, bw x.cfg.dbl, bw x.cfg.run]
  else if off = 4 then x.cfg.period.toNat
  else if off = 8 then x.cfg.phase.toNat
  else if off = 0xC then pack [nw x.cnt.toNat 24, bw x.down]
  else if 0x40 ≤ off ∧ off < 0x70 then x.duty[(Fin.ofNat 12 ((off - 0x40) / 4))].toNat
  else if 0x80 ≤ off ∧ off < 0xB0 then x.cfg.dead[(Fin.ofNat 12 ((off - 0x80) / 4))].toNat
  else if off = 0xC0 then x.force.toNat
  else if off = 0xC8 then
    pack [nw x.trip.toNat 12, bw (gateLive x 0), bw (gateLive x 1), bw (gateLive x 2), bw (gateLive x 3), nw x.gfEvent.toNat 4]
  else if off = 0xCC then pack [nw x.cfg.gfEnable.toNat 4, nw x.cfg.gfLevel.toNat 4]
  else if off = 0xD0 then pack [bw x.frozen, bw x.gateA, bw x.gateB, bw x.lockLost]
  else 0

/-- PWM_PERIOD: the shadow takes it; a period that is no lock sets lock_lost (R134). -/
def writePeriod (tUnits v : Nat) (x : Quad) : Quad :=
  { x with
    sh := { x.sh with period := BitVec.ofNat 24 v }
    lockLost := x.lockLost || !carrierLocks (v % 2 ^ 24) tUnits }

def writePwm (t : Nat) (off v : Nat) (x : Quad) : Quad :=
  if off = 0 then { x with sh := { x.sh with mix := BitVec.ofNat 2 v, saw := bit v 2, dbl := bit v 3, run := bit v 4 } }
  else if off = 4 then writePeriod t v x
  else if off = 8 then { x with
    sh := { x.sh with phase := BitVec.ofNat 24 v }, lockLost := x.lockLost || !carrierLocks x.sh.period.toNat t }
  else if 0x40 ≤ off ∧ off < 0x70 then { x with dutySh := x.dutySh.set (Fin.ofNat 12 ((off - 0x40) / 4)) (BitVec.ofNat 24 v) }
  else if 0x80 ≤ off ∧ off < 0xB0 then
    { x with sh := { x.sh with dead := x.sh.dead.set (Fin.ofNat 12 ((off - 0x80) / 4)) (BitVec.ofNat 16 v) } }
  else if off = 0xC0 then writeForce (BitVec.ofNat 32 v) x
  else if off = 0xC4 then writeForcePair (BitVec.ofNat 32 v) x
  else if off = 0xCC then { x with sh := { x.sh with gfEnable := BitVec.ofNat 4 v, gfLevel := BitVec.ofNat 4 (v / 16) } }
  else if off = 0xD0 then { x with lockLost := x.lockLost && !bit v 3 }
  else x

/-- The registers engines may write (R151, R193). -/
def enginePwm (off : Nat) : Bool :=
  off == 4 || off == 8 || (decide (0x40 ≤ off) && decide (off < 0x70)) || off == 0xC0 || off == 0xC4

/-! Filters (R152). -/

def readSdf (x : Quad) (off : Nat) : Nat :=
  if off = 0 then pack [nw x.cfg.div.toNat 7, nw 0 1, nw x.cfg.osr3.toNat 3, nw x.cfg.osr2.toNat 2, bw x.cfg.clkEn, nw 0 2, nw x.cfg.capDly.toNat 5]
  else if 0x40 ≤ off ∧ off < 0x70 then x.cfg.limit[(Fin.ofNat 12 ((off - 0x40) / 4))].toNat
  else if 0x80 ≤ off ∧ off < 0xB0 then x.data[(Fin.ofNat 12 ((off - 0x80) / 4))].toNat
  else if 0xC0 ≤ off ∧ off < 0xF0 then x.fast[(Fin.ofNat 12 ((off - 0xC0) / 4))].toNat
  else if off = 0x100 then pack [nw x.tripped.toNat 12, nw x.stuck.toNat 12]
  else 0

def writeSdf (off v : Nat) (x : Quad) : Quad :=
  if off = 0 then { x with
    sh := { x.sh with
      div := BitVec.ofNat 7 v, osr3 := BitVec.ofNat 3 (v / 2 ^ 8), osr2 := BitVec.ofNat 2 (v / 2 ^ 11), clkEn := bit v 13
      capDly := BitVec.ofNat 5 (v / 2 ^ 16) } }
  else if 0x40 ≤ off ∧ off < 0x70 then { x with sh := { x.sh with limit := x.sh.limit.set (Fin.ofNat 12 ((off - 0x40) / 4)) (BitVec.ofNat 18 v) } }
  else if off = 0x100 then { x with tripped := x.tripped &&& ~~~(BitVec.ofNat 12 v) }
  else x

/-! Feedback units (R185). -/

/-- The acceleration estimate of FB_ACCEL: count/s², saturating. -/
def fbAccel (key : Nat) (u : Fb) : Int := satInt 32 (roundFree key 98 ((u.aHat : Rat) / (2 ^ 32 : Nat)))

def readFb (key : Nat) (u : Fb) (off : Nat) : Nat :=
  if off = 0 then pack [nw u.cfg.mode.toNat 3, bw u.cfg.invert, nw u.cfg.filter.toNat 9, nw 0 3, nw u.cfg.bits.toNat 6, bw u.cfg.gray, nw 0 1,
    nw u.cfg.clkDiv.toNat 8]
  else if off = 4 then pack [nw u.cfg.bandwidth.toNat 16, nw u.cfg.period.toNat 8]
  else if off = 0x10 then u.count.toNat
  else if off = 0x14 then u.index.toNat
  else if off = 0x18 then wrapNat 32 (fbSpeed key u)
  else if off = 0x1C then wrapNat 32 (fbAccel key u)
  else if off = 0x20 then u.stat.toNat
  else if off = 0x24 then capped 65535 u.qerr
  else if off = 0x28 then u.raw.toNat % 2 ^ 32
  else if off = 0x2C then u.raw.toNat / 2 ^ 32
  else 0

/-- The W1C bits of FB_STAT: all but dir and fault. -/
def fbW1c : BitVec 11 := 0x37F

def writeFb (off v : Nat) (u : Fb) : Fb :=
  if off = 0 then { u with
    sh := { u.sh with
      mode := BitVec.ofNat 3 v, invert := bit v 3, filter := BitVec.ofNat 9 (v / 16), bits := BitVec.ofNat 6 (v / 2 ^ 16), gray := bit v 22
      clkDiv := BitVec.ofNat 8 (v / 2 ^ 24) } }
  else if off = 4 then { u with sh := { u.sh with bandwidth := BitVec.ofNat 16 v, period := BitVec.ofNat 8 (v / 2 ^ 16) } }
  else if off = 0x20 then { u with stat := u.stat &&& ~~~(BitVec.ofNat 11 v &&& fbW1c) }
  else if off = 0x24 then (if bit v 31 then { u with qerr := 0 } else u)
  else u

/-! Compare and probe units (R186). -/

def readCmp (c : Compare) (off : Nat) : Nat :=
  if off = 0 then pack [nw c.source.toNat 6, bw c.repeatOn, bw c.enable, nw c.width.toNat 18]
  else if off = 4 then pack [nw c.pointer 12, bw c.idle, bw c.out, nw 0 2, nw (capped 255 c.missed) 8, nw (capped 255 c.overlap) 8]
  else 0

/-- CMP_CTL as it stands after the cycle start that takes its shadow. -/
def landCmp (c : Compare) : Compare :=
  match c.ctlSh with
  | none => c
  | some v => { c with
    ctlSh := none, source := BitVec.ofNat 6 v.toNat, repeatOn := v.getLsbD 6, enable := v.getLsbD 7
    width := BitVec.ofNat 18 (v.toNat / 2 ^ 8), out := c.out && v.getLsbD 7 }

def readProbe (p : Probe) (off : Nat) : Nat :=
  if off = 0 then pack [nw p.cfg.edge.toNat 2, bw p.cfg.continuous, bw p.armed]
  else if off = 4 then pack [nw (p.wrOff / 16) 16, nw (capped 255 p.lost) 8, nw (capped 255 p.overrun) 8]
  else 0

def landProbe (p : Probe) : Probe :=
  match p.cfgSh with
  | none => p
  | some v => { p with cfgSh := none, cfg := { p.cfg with edge := v.truncate 2, continuous := v.getLsbD 2 } }

/-! Step generators (R162). -/

def readStg (x : Stg) (off : Nat) : Nat :=
  if off = 0 then pack [nw x.cfg.width.toNat 15, bw x.cfg.dirPol, nw x.cfg.dirSetup.toNat 15, bw x.cfg.enable]
  else if off = 8 then pack [nw x.queue.length 7, bw x.idle, bw x.underrun, bw x.overflow, nw 0 6, nw x.stretch 8, nw x.dirDelay 8]
  else if off = 0xC then x.count.toNat
  else 0

/-- The entry a write of STG_PUSH carries. -/
def stgEntryOf (v : Nat) : StgEntry := ⟨BitVec.ofNat 27 v, bit v 30, bit v 31⟩

/-- STG_STAT's W1C bits; the two counts clear with underrun. -/
def clearStgStat (v : Nat) (x : Stg) : Stg :=
  { x with
    underrun := x.underrun && !bit v 8, overflow := x.overflow && !bit v 9
    stretch := if bit v 8 then 0 else x.stretch, dirDelay := if bit v 8 then 0 else x.dirDelay }

def writeStg (off v : Nat) (x : Stg) : Stg :=
  if off = 0 then { x with sh := ⟨BitVec.ofNat 15 v, bit v 15, BitVec.ofNat 15 (v / 2 ^ 16), bit v 31⟩ }
  else if off = 4 then pushStep (stgEntryOf v) x
  else if off = 8 then clearStgStat v x
  else x

/-! Link (R261), sequencer (R18) and time unit (R273). -/

def readPort (p : LinkPort) (off : Nat) : Nat :=
  if off = 0 then pack [nw p.roleSh.toNat 2, nw p.lanes.toNat 2]
  else if off = 4 then pack [nw p.lock.toNat 2, bw p.ready, bw p.degraded, bw p.wrapped, bw p.wrapEvent, bw p.degradeEvent, bw p.lockEvent,
    nw p.nbrDevice.toNat 14, bw p.nbrValid]
  else if off = 8 then pack [nw (capped 65535 p.single) 16, nw (capped 65535 p.missing) 16]
  else if off = 0xC then pack [nw (capped 255 p.crcErr) 8, nw (capped 255 p.retry) 8, nw (capped 255 p.unreach) 8, nw (capped 127 p.ownLate) 7]
  else 0

/-- A role a port may take: ring on a ring port, uplink or downlink on a tree port; any other acts as off (R261). -/
def legalRole (ring : Bool) (r : BitVec 2) : BitVec 2 := if ring then (if r = 1 then 1 else 0) else (if r = 1 then 0 else r)

/-- Both LNK_PCNT words clear. -/
def clearPcnt (p : LinkPort) : LinkPort := { p with single := 0, missing := 0, crcErr := 0, retry := 0, unreach := 0, ownLate := 0 }

/-! Ports (R235, R236, R241). -/

/-- Is the port configured: a role, and a lane enabled? -/
def portOn (p : LinkPort) : Bool := p.role != 0 && p.lanes != 0

/-- The port's bit in the ready word follows its state. -/
def State.syncPort (s : State) (p : Port) : State := s.setReady (rdyLink p) (s.port p).ready

/-- Ready: a lane holds lock and a hello has been exchanged (R236). -/
def State.settlePort (s : State) (p : Port) : State :=
  let x := s.port p
  let r := portOn x && x.lock != 0 && x.helloSeen
  if r == x.ready then s else ((s.modPort p fun x => { x with ready := r }).syncPort p).raise 13

/-- Queued frames leave by the other port of the pair (R241). -/
def State.moveQueue (s : State) (p : Port) : State :=
  let q := (s.port p).queue
  (s.modPort p fun x => { x with queue := [] }).modPort (otherPort p) fun x => { x with queue := x.queue ++ q }

/-- The port goes down: a ring port wraps, and its routes move to the other ring port (R241). -/
def State.portDown (s : State) (p : Port) : State :=
  let ring := isRing p
  let s := s.modPort p fun x => { x with
    ready := false, helloSeen := false, degraded := false, laneBack := false
    wrapped := x.wrapped || ring, wrapEvent := x.wrapEvent || ring }
  let s := if ring then s.moveQueue p else s
  (s.syncPort p).raise 13

/-- The port with a number. -/
def portAt (i : Nat) : Port := if i = 0 then .s else if i = 1 then .z else if i = 2 then .t0 else .t1

/-- A change of lane enables retrains the port at once: lock is lost (R261). -/
def writePort (off v : Nat) (p : LinkPort) : LinkPort :=
  if off = 0 then
    let lanes : BitVec 2 := BitVec.ofNat 2 (v / 4)
    let p := { p with roleSh := BitVec.ofNat 2 v }
    if lanes = p.lanes then p
    else { p with lanes := lanes, lock := 0, helloSeen := false, degraded := false, laneBack := false, lockEvent := p.lockEvent || p.lock != 0 }
  else if off = 4 then { p with
    wrapEvent := p.wrapEvent && !bit v 5, degradeEvent := p.degradeEvent && !bit v 6, lockEvent := p.lockEvent && !bit v 7 }
  else if off = 0xC then (if bit v 31 then clearPcnt p else p)
  else p

/-- A ready port that is off, or has lost lock, goes down (R241). -/
def State.checkPort (s : State) (p : Port) : State :=
  if (s.port p).ready && (!portOn (s.port p) || (s.port p).lock == 0) then s.portDown p else s

def readDomCfg (l : Link) : Nat :=
  match l.cfgSh with
  | some v => v.toNat
  | none => pack [nw l.device.toNat 14, nw l.clkPort.toNat 2, nw l.segment.toNat 14, nw 0 1, bw l.member]

def readMemCfg (l : Link) : Nat :=
  match l.memSh with
  | some v => v.toNat
  | none => pack [nw l.subBase.toNat 5, nw l.schedBase.toNat 5, nw l.subSize.toNat 5]

/-- LNK_DOM_CFG and LNK_MEM_CFG as the cycle start takes them. -/
def landLink (l : Link) : Link :=
  let l := match l.cfgSh with
    | some v => { l with
      cfgSh := none, device := BitVec.ofNat 14 v.toNat, clkPort := BitVec.ofNat 2 (v.toNat / 2 ^ 14)
      segment := BitVec.ofNat 14 (v.toNat / 2 ^ 16), member := v.getLsbD 31 }
    | none => l
  match l.memSh with
  | some v => { l with
    memSh := none, subBase := BitVec.ofNat 5 v.toNat, schedBase := BitVec.ofNat 5 (v.toNat / 32), subSize := BitVec.ofNat 5 (v.toNat / 1024) }
  | none => l

def readDomStat (l : Link) : Nat :=
  pack [nw l.sched.gen.toNat 3, bw l.master, bw l.masterSeen, nw 0 11, nw (capped 255 l.schedErr) 8, nw (capped 127 l.idxOver) 7]

def clearDomCnt (l : Link) : Link := { l with schedErr := 0, idxOver := 0 }

def readSeq (q : Seq) (off : Nat) : Nat :=
  if off = 0 then pack [nw q.sheetPoint.toNat 14, nw 0 2, nw q.overrun.toNat 8]
  else pack [nw (capped 255 q.torn) 8, nw (capped 255 q.late) 8, nw (capped 255 q.overCnt) 8]

def clearSeqCnt (q : Seq) : Seq := { q with torn := 0, late := 0, overCnt := 0 }

/-- LNK_SEQ_CFG: a written overrun limit of 0 acts as 1. -/
def writeSeqCfg (v : Nat) (q : Seq) : Seq :=
  let o : Byte := BitVec.ofNat 8 (v / 2 ^ 16)
  let q := { q with sheetPointSh := BitVec.ofNat 14 v, overrunSh := if o = 0 then 1 else o }
  if bit v 31 then clearSeqCnt q else q

def timeStat (t : Time) : Nat :=
  pack [bw t.td1.lock, bw t.td2.lock, bw t.td1.isMaster, bw t.td2.isMaster, bw (t.active == .td2), bw t.slewing, bw t.holdover, nw 0 1,
    nw (portIx t.td1.up).val 2, nw (portIx t.td2.up).val 2, bw t.masterEvent, bw t.switchEvent, bw t.lockEvent]

/-- A domain's time in 2^-24 ns. -/
def domFine (d : TimeDom) : Int := (d.ns.toNat * 2 ^ 24 + d.frac.toNat : Nat)

def Time.dom (t : Time) : Dom → TimeDom
  | .td1 => t.td1
  | .td2 => t.td2

def Time.modDom (t : Time) (d : Dom) (f : TimeDom → TimeDom) : Time :=
  match d with
  | .td1 => { t with td1 := f t.td1 }
  | .td2 => { t with td2 := f t.td2 }

def State.dom (s : State) (d : Dom) : TimeDom := s.time.dom d
def State.modDom (s : State) (d : Dom) (f : TimeDom → TimeDom) : State := s.modTime fun t => t.modDom d f

/-- Device time in 2^-24 ns. -/
def devFine (t : Time) : Int := (t.dev.toNat * 2 ^ 24 + t.devFrac.toNat : Nat)

/-- What device time lacks to the domain it follows. -/
def slewLeft (t : Time) : Int := domFine (t.dom t.active) - devFine t

/-- Device time turns to a domain: continuous at the switch, then slewing. -/
def State.switchTo (s : State) (d : Dom) : State :=
  let changed := s.time.active != d
  let s := s.modTime fun t => { t with
    sel := d, active := d, slewing := decide (2 ^ 24 ≤ |slewLeft { t with active := d }|)
    switchEvent := t.switchEvent || changed }
  s.raise 14

/-- A sel written into TIM_CTL that differs from the followed domain acts at once, where that domain is locked; where it is not, it
waits for the next such write or a TIME_SELECT (R4, R273, log entry 203). -/
def State.takeSel (s : State) : State :=
  if s.time.sel != s.time.active && (s.dom s.time.sel).lock then s.switchTo s.time.sel else s

/-- TIM_DIFF: TD2 − TD1 in ps, saturating. -/
def timeDiff (key : Nat) (t : Time) : Int :=
  satInt 32 (roundFree key 99 ((domFine t.td2 - domFine t.td1 : Int) * (1000 : Int) / ((2 ^ 24 : Nat) : Rat)))

def readTim (key : Nat) (t : Time) (off : Nat) : Nat :=
  if off = 0 then pack [bw (t.sel == .td2), bw t.auto, nw 0 6, nw t.td1.prio.toNat 4, nw t.td2.prio.toNat 4]
  else if off = 4 then timeStat t
  else if off = 8 then t.dev.toNat % 2 ^ 32
  else if off = 0xC then t.nowHi.toNat
  else if off = 0x10 then wrapNat 32 (timeDiff key t)
  else if off = 0x14 then t.plant.toNat % 2 ^ 32
  else if off = 0x18 then t.plantHi.toNat
  else 0

/-- The latches a read of TIM_NOW_LO and TIM_PLANT_LO sets. -/
def latchTim (off : Nat) (t : Time) : Time :=
  if off = 8 then { t with nowHi := BitVec.ofNat 32 (t.dev.toNat / 2 ^ 32) }
  else if off = 0x14 then { t with plantHi := BitVec.ofNat 32 (t.plant.toNat / 2 ^ 32 + b2n t.plantValid * 2 ^ 31) }
  else t

def writeTim (off v : Nat) (t : Time) : Time :=
  if off = 0 then { t with
    sel := if bit v 0 then .td2 else .td1, auto := bit v 1
    td1 := { t.td1 with prio := BitVec.ofNat 4 (v / 2 ^ 8) }, td2 := { t.td2 with prio := BitVec.ofNat 4 (v / 2 ^ 12) } }
  else if off = 4 then { t with
    masterEvent := t.masterEvent && !bit v 12, switchEvent := t.switchEvent && !bit v 13, lockEvent := t.lockEvent && !bit v 14 }
  else if off = 0x14 then { t with plant := BitVec.ofNat 63 (t.plant.toNat / 2 ^ 32 * 2 ^ 32 + v % 2 ^ 32) }
  else if off = 0x18 then { t with
    plant := BitVec.ofNat 63 (t.plant.toNat % 2 ^ 32 + v % 2 ^ 31 * 2 ^ 32), plantValid := bit v 31, plantHi := BitVec.ofNat 32 v }
  else t

/-! Exposure units (R326). -/

def expStNum : ExpSt → Nat
  | .idle => 0
  | .filling => 1
  | .armed => 2
  | .post => 3
  | .closed => 4

/-- Triggers are evaluated in ARMED and POST. -/
def Exp.armedFlag (x : Exp) : Bool := x.st == .armed || x.st == .post

def readExp (x : Exp) (off : Nat) : Nat :=
  if off = 0 then pack [nw (x.div - 1) 16, nw x.k 5, bw x.stream, nw 0 2, nw x.chanEn.toNat 8]
  else if off = 4 then x.base
  else if off = 8 then x.size
  else if off = 0xC then x.pre
  else if off = 0x10 then x.post
  else if off = 0x14 then x.holdoff
  else if 0x20 ≤ off ∧ off < 0x40 then (x.srcs.getD ((off - 0x20) / 4) 0).toNat
  else if 0x40 ≤ off ∧ off < 0x60 then (x.addrs.getD ((off - 0x40) / 4) 0).toNat
  else if off = 0x60 then pack [nw (expStNum x.st) 3, bw x.armedFlag, bw x.poisoned, bw x.trigLost, nw 0 10, nw (capped 65535 x.triggers) 16]
  else if off = 0x64 then x.wr
  else if off = 0x68 then x.rd
  else if off = 0x6C then x.dropped
  else if off = 0x70 then x.trigStamp.toNat
  else if off = 0x74 then x.trigInfo.toNat
  else if 0x80 ≤ off ∧ off < 0x100 ∧ off % 32 < 24 then
    ((x.slots.map fun k => bits k.raw.toNat (off % 32 * 8 + 31) (off % 32 * 8)).getD ((off - 0x80) / 32) 0)
  else 0

/-- Replace bits `lo + w − 1 : lo` of a bit vector. -/
def putBits {n : Nat} (x : BitVec n) (lo w v : Nat) : BitVec n :=
  (x &&& ~~~(BitVec.ofNat n (2 ^ w - 1) <<< lo)) ||| (BitVec.ofNat n (v % 2 ^ w) <<< lo)

/-- The bits of a trigger slot's words that are not reserved (R320): bits 6:3 of byte 1, byte 3 and bytes 15:13 stay 0. -/
def slotMask (off : Nat) : Nat := if off = 0 then 0x00FF87FF else if off = 12 then 0xFF else 0xFFFFFFFF

def writeExp (off v : Nat) (x : Exp) : Exp :=
  if off = 0 then { x with div := v % 2 ^ 16 + 1, k := bits v 20 16, stream := bit v 21, chanEn := BitVec.ofNat 8 (v / 2 ^ 24) }
  else if off = 4 then { x with base := v % 2 ^ 22 }
  else if off = 8 then { x with size := v % 2 ^ 21 }
  else if off = 0xC then { x with pre := v }
  else if off = 0x10 then { x with post := v }
  else if off = 0x14 then { x with holdoff := v % 2 ^ 24 }
  else if 0x20 ≤ off ∧ off < 0x40 then { x with srcs := x.srcs.set ((off - 0x20) / 4) (BitVec.ofNat 16 v) }
  else if 0x40 ≤ off ∧ off < 0x60 then { x with addrs := x.addrs.set ((off - 0x40) / 4) (BitVec.ofNat 32 (v % 2 ^ 24)) }
  else if off = 0x60 then { x with poisoned := x.poisoned && !bit v 4, trigLost := x.trigLost && !bit v 5 }
  else if 0x80 ≤ off ∧ off < 0x100 ∧ off % 32 < 24 then
    { x with slots := x.slots.modify ((off - 0x80) / 32) fun k => { k with raw := putBits k.raw (off % 32 * 8) 32 (v &&& slotMask (off % 32)) } }
  else x

/-! CAN (R356), USB (R361) and Ethernet (R366). -/

def canStNum : CanSt → Nat
  | .off => 0
  | .active => 1
  | .passive => 2
  | .busOff => 3

def readCan (c : Can) (off : Nat) : Nat :=
  if off = 0 then pack [nw (canStNum c.st) 2, nw c.mode.toNat 2, bw c.warn, bw c.recovering, nw 0 2, nw (capped 255 c.tec) 8, nw (capped 127 c.rec_) 7]
  else if off = 4 then pack [nw (capped 255 c.lost0) 8, nw (capped 255 c.lost1) 8, nw (capped 255 c.txFail) 8, nw (capped 127 c.driveLate) 7]
  else if off = 8 then pack [nw c.fifo0.length 7, nw 0 1, nw c.fifo1.length 7]
  else if 0x100 ≤ off ∧ off < 0x200 then
    let b := c.bufs[(Fin.ofNat 64 ((off - 0x100) / 4))]
    pack [bw b.nd, bw false, bw b.ovr, nw 0 5, nw b.count.toNat 8]
  else 0

def clearCanCnt (c : Can) : Can := { c with lost0 := 0, lost1 := 0, txFail := 0, driveLate := 0 }

/-- CAN_TAKE (R348): nd and ovr clear only if the count the reader saw still stands. -/
def takeBuffer (v : Nat) (c : Can) : Can :=
  { c with bufs := modAt c.bufs (Fin.ofNat 64 (v % 64)) fun b =>
    if b.count.toNat = bits v 15 8 then { b with nd := false, ovr := false } else b }

def writeCan (off v : Nat) (c : Can) : Can :=
  if off = 4 then (if bit v 31 then clearCanCnt c else c)
  else if off = 0x10 then takeBuffer v c
  else c

def readUsb (u : Usb) : Nat :=
  pack [nw u.speed.toNat 2, bw u.configured, bw u.dfuOnly, bw u.resetEvent, nw 0 3, nw (capped 255 u.badSetup) 8, nw (capped 255 u.badOut) 8]

def readEth (e : Eth) : Nat :=
  pack [bw e.link, nw e.speed.toNat 2, bw e.session.isSome, bw (e.address.isSome && e.key.isSome), nw 0 3, nw (capped 255 e.macFail) 8,
    nw (capped 255 e.seqDrop) 8]

/-! Banks and pool (R234). -/

def pwrNum : PwrState → Nat
  | .run => 0
  | .gate => 1
  | .retain => 2
  | .off => 3

def readBank (s : State) (b : BankId) (off : Nat) : Nat :=
  let c := s.mem.banks[b]
  if off = 0 then pack [nw c.pmode.toNat 2, nw (pwrNum s.pwr.banks[b].st) 2, bw c.clearing, bw c.repairing.isSome]
  else if off = 4 then pack [nw (capped 65535 c.ce) 16, nw (capped 255 c.ue) 8, nw c.spares 7]
  else if off = 8 then capped 65535 c.coll
  else 0

/-- BNK_ERR's W1C bits: bit 0 clears the whole of ce_cnt, bit 16 of ue_cnt. -/
def clearBankErr (v : Nat) (c : BankCtl) : BankCtl :=
  { c with ce := if bit v 0 then 0 else c.ce, ue := if bit v 16 then 0 else c.ue }

def writeBank (off v : Nat) (c : BankCtl) : BankCtl :=
  if off = 0 then { c with pmode := BitVec.ofNat 2 v }
  else if off = 4 then clearBankErr v c
  else if off = 8 then (if bit v 31 then { c with coll := 0 } else c)
  else c

/-- BNK_POOL_CFG: while en is 1 base and count do not change; en going to 1 builds the free list. -/
def writePoolCfg (v : Nat) (m : Mem) : Mem :=
  let m := if m.poolEn then m else { m with poolBase := BitVec.ofNat 5 v, poolCount := BitVec.ofNat 14 (v / 2 ^ 15) }
  if bit v 31 && !m.poolEn then m.build
  else if !bit v 31 then { m with poolEn := false, head := nullBobbin, freeCount := 0, used := [], handed := [] }
  else m

def clearPoolCnt (m : Mem) : Mem := { m with linkDrop := 0, relErr := 0 }

def readPool (m : Mem) (off : Nat) : Nat :=
  if off = 0 then pack [nw m.poolBase.toNat 5, nw 0 10, nw m.poolCount.toNat 14, nw 0 2, bw m.poolEn]
  else pack [nw m.freeCount 14, nw (capped 255 m.linkDrop) 8, nw (capped 255 m.relErr) 8]

/-! Safety islands, field I/O and converters: read-only to every requester (R313, R341). -/

/-- Is a function enabled in an island's view (R296)? -/
def fnEnabled (c : SafetyFn) (f : FnState) : Bool := c.type != 0 && !f.demand && !f.waitReset && !f.discrepancy

/-- The levels an island reads back from its test-pulse outputs: high outside the pulse, and the other level where a mismatch stands
(R293, R294). -/
def tpBack (q : Safety) (i : IslandState) : BitVec 4 :=
  BitVec.ofNat 4 (pack ((List.finRange 4).map fun k => bw ((i.tpLevel.getLsbD k.val && q.tpLow[k] == 0) != i.tpFault.getLsbD k.val)))

def readIsle (s : State) (x : Island) (off : Nat) : Nat :=
  let i := s.isle x
  if off = 0 then pack [bw i.eval, bw i.cfgOk, bw (s.saf.confirmed && i.cfgOk), bw i.writing, bw i.safelight, bw i.peerFailed, bw s.saf.lockout, nw 0 1,
    nw i.gen.toNat 12, nw (i.ss1.toList.foldl (fun (a : BitVec 12) b => a ||| b) 0).toNat 12]
  else if off = 4 then
    pack ((List.finRange 4).flatMap fun (f : Fin 4) =>
      let g := i.fns[f]
      [bw g.demand, bw g.waitReset, bw g.discrepancy, bw (g.chFault != 0), bw (i.eval && fnEnabled s.saf.cfg.fns[f] g), nw 0 3])
  else if off = 8 then pack [nw i.level.toNat 8, nw i.pulseFault.toNat 8, nw (tpBack s.saf i).toNat 4, nw i.tpFault.toNat 4]
  else if off = 0xC then (i.remaining - min 59 (s.saf.slNs / 1000000000)) % 2 ^ 12
  else 0

def readWdg (f : FieldIo) : Nat := pack [nw f.wdgMs 10, bw f.expired, bw f.inSafe]

def readConv (c : Converter) : Nat := pack [nw c.entry 6, bw c.waiting, bw c.next.isSome, nw c.left 8]

def readXchk (x : CrossCheck) : Nat :=
  pack [nw (match x.channel with
    | some c => c.val
    | none => 0x1F) 5, bw x.safety, bw x.fault, nw 0 1, nw x.limit.toNat 18]

/-! The map. -/

/-- One 32-bit register at an internal address; an address without a register reads an open value (log entry 40). -/
def readReg (s : State) (a : Nat) : Word :=
  let k := s.key 2
  let n := fun (v : Nat) => BitVec.ofNat 32 v
  if a = 0x80000010 then n s.pwr.ready.toNat
  else if a = 0x80000080 then n (readTemp s.saf)
  else if a = 0x80010000 then n (readClk s.clk)
  else if 0x80100000 ≤ a ∧ a < 0x8010C000 then n (readPwm s (Fin.ofNat 12 ((a - 0x80100000) / 0x1000)) (a % 0x1000))
  else if 0x80110000 ≤ a ∧ a < 0x8011C000 then n (readSdf s.quads[(Fin.ofNat 12 ((a - 0x80110000) / 0x1000))] (a % 0x1000))
  else if 0x80120000 ≤ a ∧ a < 0x8012C000 then n (readFb k s.fbs[(Fin.ofNat 48 ((a - 0x80120000) / 0x400))] (a % 0x400))
  else if 0x80130000 ≤ a ∧ a < 0x80130300 then n (readCmp s.cmps[(Fin.ofNat 24 ((a - 0x80130000) / 0x20))] (a % 0x20))
  else if 0x80130400 ≤ a ∧ a < 0x80130500 then n (readProbe s.probes[(Fin.ofNat 16 ((a - 0x80130400) / 0x10))] (a % 0x10))
  else if 0x80140000 ≤ a ∧ a < 0x80140400 then n (readStg s.stgs[(Fin.ofNat 16 ((a - 0x80140000) / 0x40))] (a % 0x40))
  else if 0x80200000 ≤ a ∧ a < 0x80200400 then n (readPort s.link.ports[(Fin.ofNat 4 ((a - 0x80200000) / 0x100))] (a % 0x100))
  else if a = 0x8020E000 then n (readDomCfg s.link)
  else if a = 0x8020E004 then n (readMemCfg s.link)
  else if a = 0x8020E008 then n (readDomStat s.link)
  else if a = 0x8020F000 then n (readSeq s.seq 0)
  else if a = 0x8020F004 then n (readSeq s.seq 4)
  else if 0x80210000 ≤ a ∧ a < 0x8021001C then n (readTim k s.time (a - 0x80210000))
  else if 0x80300000 ≤ a ∧ a < 0x80300800 then n (readExp s.exps[(Fin.ofNat 8 ((a - 0x80300000) / 0x100))] (a % 0x100))
  else if 0x80400000 ≤ a ∧ a < 0x80404000 then n (readCan s.cans[(Fin.ofNat 4 ((a - 0x80400000) / 0x1000))] (a % 0x1000))
  else if a = 0x80410000 then n (readUsb s.usb)
  else if a = 0x80420000 then n (readEth s.eth)
  else if 0x80500000 ≤ a ∧ a < 0x80500800 then n (readBank s (Fin.ofNat 32 ((a - 0x80500000) / 0x40)) (a % 0x40))
  else if a = 0x80502000 then n (readPool s.mem 0)
  else if a = 0x80502004 then n (readPool s.mem 4)
  else if 0x80600000 ≤ a ∧ a < 0x80600010 then n (readIsle s .a (a - 0x80600000))
  else if a = 0x80700004 then n (readWdg s.fio)
  else if a = 0x80704000 then n (readConv s.fio.x)
  else if a = 0x80704100 then n (readConv s.fio.y)
  else if a = 0x80704200 then n (readXchk s.fio.xchk)
  else if 0x80708000 ≤ a ∧ a < 0x80708010 then n (readIsle s .b (a - 0x80708000))
  else Config.unlisted k a

/-- What reading a register changes: the latches of the time unit. -/
def State.afterRead (s : State) (a : Nat) : State :=
  if 0x80210000 ≤ a ∧ a < 0x8021001C then s.modTime (latchTim (a - 0x80210000)) else s

/-- Write one 32-bit register at an internal address, under its access codes. -/
def State.writeReg (s : State) (a : Nat) (w : Word) : State :=
  let v := w.toNat
  if a = 0x80010000 then s.modClk (writeClk v)
  else if 0x80100000 ≤ a ∧ a < 0x8010C000 ∧ a % 0x1000 = 0xC8 then s.writeTrip (Fin.ofNat 12 ((a - 0x80100000) / 0x1000)) w
  else if 0x80100000 ≤ a ∧ a < 0x8010C000 then s.modQuad (Fin.ofNat 12 ((a - 0x80100000) / 0x1000)) (writePwm (tUnits s) (a % 0x1000) v)
  else if 0x80110000 ≤ a ∧ a < 0x8011C000 then s.modQuad (Fin.ofNat 12 ((a - 0x80110000) / 0x1000)) (writeSdf (a % 0x1000) v)
  else if 0x80120000 ≤ a ∧ a < 0x8012C000 then s.modFb (Fin.ofNat 48 ((a - 0x80120000) / 0x400)) (writeFb (a % 0x400) v)
  else if 0x80130000 ≤ a ∧ a < 0x80130300 then
    (if a % 0x20 = 0 then s.modCmp (Fin.ofNat 24 ((a - 0x80130000) / 0x20)) fun c => { c with ctlSh := some w } else s)
  else if 0x80130400 ≤ a ∧ a < 0x80130500 then
    (if a % 0x10 = 0 then s.modProbe (Fin.ofNat 16 ((a - 0x80130400) / 0x10)) fun p => { p with cfgSh := some (w.truncate 3) } else s)
  else if 0x80140000 ≤ a ∧ a < 0x80140400 then s.modStg (Fin.ofNat 16 ((a - 0x80140000) / 0x40)) (writeStg (a % 0x40) v)
  else if 0x80200000 ≤ a ∧ a < 0x80200400 then
    (s.modPort (portAt ((a - 0x80200000) / 0x100)) (writePort (a % 0x100) v)).checkPort (portAt ((a - 0x80200000) / 0x100))
  else if a = 0x8020E000 then s.modLink fun l => { l with cfgSh := some (w &&& 0xBFFFFFFF) }
  else if a = 0x8020E004 then s.modLink fun l => { l with memSh := some (w &&& 0x7FFF) }
  else if a = 0x8020E008 then (if bit v 31 then s.modLink clearDomCnt else s)
  else if a = 0x8020F000 then s.modSeq (writeSeqCfg v)
  else if 0x80210000 ≤ a ∧ a < 0x8021001C then if a = 0x80210000 then (s.modTime (writeTim 0 v)).takeSel else s.modTime (writeTim (a - 0x80210000) v)
  else if 0x80300000 ≤ a ∧ a < 0x80300800 then s.modExp (Fin.ofNat 8 ((a - 0x80300000) / 0x100)) (writeExp (a % 0x100) v)
  else if 0x80400000 ≤ a ∧ a < 0x80404000 then s.modCan (Fin.ofNat 4 ((a - 0x80400000) / 0x1000)) (writeCan (a % 0x1000) v)
  else if a = 0x80410000 then (if bit v 4 then s.modUsb fun u => { u with resetEvent := false } else s)
  else if 0x80500000 ≤ a ∧ a < 0x80500800 then
    s.modMem fun m => m.modBank (Fin.ofNat 32 ((a - 0x80500000) / 0x40)) (writeBank (a % 0x40) v)
  else if a = 0x80502000 then s.modMem (writePoolCfg v)
  else if a = 0x80502004 then (if bit v 31 then s.modMem clearPoolCnt else s)
  else s

/-- An address of safety island A, or of island B behind the F-die bridge (R61). -/
def islandAddr (a : Nat) : Bool := (decide (0x80600000 ≤ a) && decide (a < 0x80610000)) || (decide (0x80708000 ≤ a) && decide (a < 0x80709000))

/-! Bank addresses as 32-bit words (R218). -/

/-- A 32-bit word at any internal address: a bank view or a register. -/
def readInternal (s : State) (a : Nat) : Word :=
  if a < 0x02000000 then BitVec.ofNat 32 (leNat (s.mem.readBytes a 4))
  else if a < 0x02400000 then BitVec.ofNat 32 (leNat ((List.range 4).map fun i => if a + i < 0x02400000 then s.mem.byte (a + i) else 0))
  else if 0x10000000 ≤ a ∧ a < 0x11000000 then (s.mem.sample (a - 0x10000000)).setWidth 32
  else if 0x20000000 ≤ a ∧ a < 0x21000000 then BitVec.ofNat 32 (leNat ((List.range 4).map fun i => mramByte s (a - 0x20000000 + i)))
  else readReg s a

def State.writeInternal (s : State) (a : Nat) (v : Word) : State :=
  if a < 0x02400000 then s.modMem fun m => m.mergeBytes a (leBytes 4 v.toNat)
  else if 0x10000000 ≤ a ∧ a < 0x11000000 then s.modMem fun m => m.setSample (a - 0x10000000) (v.truncate 18)
  else s.writeReg a v

/-! The control page (R38, R41, R42). -/

/-- SYS_ID_MODULE (R38). -/
def moduleId (i : Identity) : Nat := pack [nw i.serial.toNat 48, nw i.variant.toNat 2, bw i.gradeE, nw 0 5, nw i.stepping.toNat 8]

/-- A register of the control page as a read returns it. -/
def controlPage (s : State) (off : Nat) : Word :=
  let n := fun (v : Nat) => BitVec.ofNat 32 v
  if off = 0 then 0x534B3936
  else if off = 4 then n s.dist.fwRel.toNat
  else if off = 8 then n (s.seq.cycle.toNat % 2 ^ 32)
  else if off = 0xC then n s.host.cycleHi.toNat
  else if off = 0x10 then n s.pwr.ready.toNat
  else if off = 0x14 then s.pwr.readyBank
  else if off = 0x18 then n s.pwr.readyFly.toNat
  else if off = 0x20 then s.host.intStatus
  else if off = 0x24 then s.host.intMask
  else if off = 0x28 then n s.host.notice.toNat
  else if off = 0x2C then wmLive s.host
  else if off = 0x30 then n (pack [bw s.host.sheetPage, bw s.host.subPage, nw 0 14, nw s.host.sheetCycle.toNat 16])
  else if off = 0x34 then n (pack ([bw s.host.bench, bw s.host.accErr, nw 0 6] ++ (List.finRange 8).map (fun m => bw s.mb[m].dbErr) ++
    [nw (capped 255 s.host.bar2Denied) 8]))
  else if 0x40 ≤ off ∧ off < 0x50 then n (s.id.dieC.toNat / 2 ^ (8 * (off - 0x40)))
  else if 0x50 ≤ off ∧ off < 0x60 then n (s.id.dieF.toNat / 2 ^ (8 * (off - 0x50)))
  else if 0x60 ≤ off ∧ off < 0x68 then n (moduleId s.id / 2 ^ (8 * (off - 0x60)))
  else if 0x100 ≤ off ∧ off < 0x180 then
    let m := s.mb[(Fin.ofNat 8 ((off - 0x100) / 16))]
    n ((if off % 16 = 0 then m.reqPi else if off % 16 = 4 then m.reqCi else if off % 16 = 8 then m.rspPi else m.rspCi).toNat)
  else 0

end Sys2Proof.Machine
end

