-- ==== Sys2Proof/Machine/Send.lean ====
section
/-! DEFINITION. How this device sends asynchronous frames (R247, R249): kinds and classes, routes, and the queues of the ports. -/

namespace Sys2Proof.Machine

/-- One more on a counter that saturates. -/
def sat (cap n : Nat) : Nat := satAdd cap n 1

/-- Can traffic leave by the port? -/
def usable (s : State) (p : Port) : Bool := (s.port p).ready && !(s.port p).wrapped

def kindRequest : BitVec 4 := 0
def kindCompletion : BitVec 4 := 1
def kindPeer : BitVec 4 := 2
def kindBulk : BitVec 4 := 3
def kindEnum : BitVec 4 := 4
def kindBeacon : BitVec 4 := 5
def kindDelivery : BitVec 4 := 6
def kindUnreach : BitVec 4 := 7

def broadcastDst : BitVec 14 := 0x3FFF

/-- The classes of R250: 0 urgent, 1 normal, 2 bulk. -/
def frameClass (f : Frame) : Nat := if f.kind = kindDelivery ∨ f.kind = kindUnreach then 0 else if f.kind = kindBulk then 2 else 1

/-- Which T ports are ready: this device's own as they stand, another's as enumerated (log entry 44). -/
def portsReady (s : State) (i : Nat) (p : Port) : Bool := i != s.link.topo.self || (s.port p).ready

/-- The port a frame to a device takes now (R249): the route of the enumeration, S where it found none, or the other port of the
pair while that one is down. -/
def routeTo (s : State) (dst : BitVec 14) : Port :=
  let p := (s.link.topo.route (portsReady s) dst).getD .s
  if usable s p || !usable s (otherPort p) then p else otherPort p

/-- A frame waits on a port, in a bobbin; with none it is dropped (R233, R247). -/
def State.enqueue (s : State) (p : Port) (f : Frame) : State :=
  match s.grab with
  | (s, some b) => s.modPort p fun x => { x with queue := x.queue ++ [(b, f)] }
  | (_, none) => s.modMem fun m => { m with linkDrop := sat 255 m.linkDrop }

/-- A frame sets out from this device or goes on from it: by its route, or out of every ready port but one. -/
def State.spread (s : State) (f : Frame) (but : Option Port) : State :=
  if f.dst = broadcastDst then
    (allPorts.filter fun p => (s.port p).ready && some p != but).foldl (fun s p => s.enqueue p f) s
  else s.enqueue (routeTo s f.dst) f

/-- The device sends a frame of its own, whose data blocks say what its body holds. -/
def State.sendBody (s : State) (dst : BitVec 14) (kind : BitVec 4) (data : List (BitVec 64)) (body : FrameBody) : State :=
  let f : Frame := ⟨dst, s.link.device, kind, 0, s.link.oseq, data, body⟩
  (s.modLink fun l => { l with oseq := l.oseq + 1 }).spread f none

def State.sendFrame (s : State) (dst : BitVec 14) (kind : BitVec 4) (data : List (BitVec 64)) : State := s.sendBody dst kind data .blocks

end Sys2Proof.Machine
end

