-- ==== Sys2Proof/Machine/Announce.lean ====
section
/-! DEFINITION. Time announcements as they come in (R262, R265, R267): the upstream port of a domain, and what a device learns of
its master. -/

namespace Sys2Proof.Machine

/-- The data blocks of an announcement (log entry 56). -/
def announceData (a : Announcement) : List (BitVec 64) :=
  Config.peerData 2 [if a.dom = .td1 then 0 else 1, b2n a.master, a.prio.toNat, a.serial.toNat, a.time.toNat, a.hops]

/-- May domain time come in by a port? It is ready, and an uplink of a dual-homed segment is the one that segment uses (R249,
R267). -/
def timePort (s : State) (p : Port) : Bool :=
  let t := s.link.topo
  (s.port p).ready && match (t.ups (t.segment t.self)).find? fun u => u.child == t.self && decide (u.childPort = p) with
    | some _ => (t.uplink (portsReady s) (t.segment t.self)).any fun u => u.child == t.self && decide (u.childPort = p)
    | none => true

/-- The port with the fewest hops to the master of a domain, S before Z before the T ports; a port that has brought no announcement
comes after those that have (R267). -/
def upstream (s : State) (d : Dom) : Option Port :=
  let far := fun (p : Port) => ((s.dom d).hops[portIx p]).getD (2 ^ 32)
  (allPorts.filter (timePort s)).foldl (fun (w : Option Port) p => match w with
    | none => some p
    | some q => if far p < far q then some p else some q) none

/-- A device that follows a master tracks its upstream port. -/
def State.trackUp (s : State) (d : Dom) : State :=
  if (s.dom d).isMaster || !(s.dom d).hasMaster then s
  else
    match upstream s d with
    | some p => if (s.dom d).up = p then s else s.modDom d fun x => { x with up := p, sync := none }
    | none => s

/-- The first master of a domain, or a new one: the event and vector 14 (R267, log entry 202). -/
def State.newMaster (s : State) : State := (s.modTime fun t => { t with masterEvent := true }).raise 14

/-- An announcement of a master comes in by a port, the first copy or a later one: its hops to that port. -/
def State.heedHops (s : State) (p : Port) (f : Frame) : State :=
  match f.body with
  | .announce a =>
    if a.master && a.serial != s.id.serial && f.kind == kindPeer then
      (s.modDom a.dom fun x => { x with hops := x.hops.set (portIx p) (some a.hops) }).trackUp a.dom
    else s
  | _ => s

/-- An announcement acts: the first names the domain's master and gives the full time; later ones of that master leave the time
to the syncs, unless it is beyond their reach (R262, R265). A later candidate displaces no master. -/
def State.heed (s : State) (p : Port) (a : Announcement) : State :=
  let d := s.dom a.dom
  if !a.master || a.serial == s.id.serial || d.isMaster || (d.hasMaster && d.masterSerial != 0 && d.masterSerial != a.serial) then s
  else
    let step := !d.hasMaster || decide (2 ^ 39 ≤ |(a.time.toNat : Int) - d.ns.toNat|)
    let t := s.modDom a.dom fun x => { x with
      hasMaster := true, masterSerial := a.serial, up := if d.hasMaster then x.up else p
      ns := if step then a.time else x.ns, frac := if step then 0 else x.frac }
    (if d.hasMaster then t else t.newMaster).trackUp a.dom

end Sys2Proof.Machine
end

