-- ==== Sys2Proof/Machine/FlyerWords.lean ====
section
/-! DEFINITION. Flyer program words: the encodings of R201 to R205 read into instructions. -/

namespace Sys2Proof.Machine

/-! Encodings (R201 to R205). -/

/-- The memory slot in eleven bits. -/
def memSlotOf (v : Nat) : MemSlot := ⟨BitVec.ofNat 2 (v / 512), BitVec.ofNat 4 (v / 32), BitVec.ofNat 3 (v / 4), BitVec.ofNat 2 v, none⟩

/-- A MAC slot in eleven bits. -/
def macSlotOf (v : Nat) : MacSlot := ⟨BitVec.ofNat 2 (v / 512), BitVec.ofNat 2 (v / 128), BitVec.ofNat 4 (v / 8), BitVec.ofNat 3 v⟩

/-- A-format operations by op code (R202). -/
def aluOf (e : EngineId) (op : Nat) (d s1 s2 : BitVec 4) (m : MemSlot) : Option Instr :=
  match op with
  | 0x01 => some (.flAdd e d s1 s2 m)
  | 0x02 => some (.flSub e d s1 s2 m)
  | 0x03 => some (.flNeg e d s1 m)
  | 0x04 => some (.flAbs e d s1 m)
  | 0x05 => some (.flAnd e d s1 s2 m)
  | 0x06 => some (.flOr e d s1 s2 m)
  | 0x07 => some (.flXor e d s1 s2 m)
  | 0x08 => some (.flNot e d s1 m)
  | 0x09 => some (.flShl e d s1 s2 m)
  | 0x0A => some (.flShr e d s1 s2 m)
  | 0x0B => some (.flAsr e d s1 s2 m)
  | 0x0C => some (.flMov e d s1 m)
  | 0x0D => some (.flCmp e d s1 s2 m)
  | 0x0E => some (.flMin e d s1 s2 m)
  | 0x0F => some (.flMax e d s1 s2 m)
  | 0x10 => if d.getLsbD 0 then none else some (.flMaxi e d s1 s2 m)
  | 0x11 => if d.getLsbD 0 then none else some (.flMini e d s1 s2 m)
  | 0x12 => some (.flWrap e d s1 s2 m)
  | 0x13 => if d = 15 then none else some (.flSincos e d s1 m)
  | 0x14 => if 13 < d.toNat ∨ 13 < s1.toNat then none else some (.flClarke e d s1 m)
  | 0x15 => some (.flPark e d s1 s2 m)
  | 0x16 => some (.flIpark e d s1 s2 m)
  | 0x17 => some (.flDivs e d s1 m)
  | 0x18 => some (.flRda e d s1 m)
  | 0x19 => some (.flRdal e d s1 m)
  | 0x1A => some (.flRdam e d s1 m)
  | 0x1B => some (.flRdah e d s1 m)
  | 0x1C => some (.flWra e d s1 m)
  | 0x1D => some (.flClra e d m)
  | 0x1E => some (.flAdda e d s1 m)
  | 0x1F => some (.flSuba e d s1 m)
  | 0x20 => some (.flMova e d s1 m)
  | 0x21 => some (.flMovd e d s1 m)
  | 0x22 => some (.flAadd e d s1 m)
  | 0x23 => if s2.getLsbD 0 && decide (4 ≤ s1.toNat) && decide (s1.toNat < 8) then none else some (.flMovc e d s1 s2 m)
  | 0x24 => if s2.getLsbD 0 && decide (4 ≤ d.toNat) && decide (d.toNat < 8) then none else some (.flMovtc e d s1 s2 m)
  | _ => none

/-- B-format operations (R204); a cond from 13 is illegal with any of them. -/
def controlOf (e : EngineId) (op : Nat) (cond reg aux : BitVec 4) (imm : Half) : Option Instr :=
  if 13 ≤ cond.toNat then none
  else
  match op with
  | 0x01 => some (.flBr e cond (imm.truncate 14))
  | 0x02 => some (.flCall e cond (imm.truncate 14))
  | 0x03 => some (.flRet e cond)
  | 0x08 => some (.flLoopr e (aux.getLsbD 0) reg (imm.truncate 14))
  | 0x10 => some (.flMode e imm)
  | 0x11 => if 1 ≤ imm.toNat ∧ imm.toNat ≤ 6 then some (.flGrp e imm) else none
  | 0x14 => some (.flHalt e)
  | 0x15 => some (.flReti e)
  | 0x16 => some (.flRetx e)
  | 0x17 => some (.flSig e (imm.truncate 3))
  | 0x18 => some (.flWaitf e (imm.truncate 2))
  | 0x19 => some (.flBrk e)
  | _ => none

/-- L-format operations (R205). -/
def longOf (e : EngineId) (op : Nat) (reg aux : BitVec 4) (imm20 imm36 : Nat) : Option Instr :=
  let k : BitVec 2 := aux.truncate 2
  match op with
  | 0x01 => some (.flMovi e reg (BitVec.ofNat 18 imm36))
  | 0x02 => some (.flMovia e (reg.truncate 3) (BitVec.ofNat 20 imm36))
  | 0x03 => some (.flMovx e k (BitVec.ofNat 32 imm36))
  | 0x04 => some (.flLoop e (aux.getLsbD 0) (BitVec.ofNat 18 imm20) (BitVec.ofNat 14 imm36))
  | 0x08 =>
    if 1 ≤ imm20 % 128 ∧ imm20 % 128 ≤ 64 then
      some (.flFmv e (reg.truncate 3) k (aux.getLsbD 2) (BitVec.ofNat 7 imm20) (BitVec.ofNat 24 imm36) [])
    else none
  | 0x09 => some (.flFatm e reg k (aux.getLsbD 2) (BitVec.ofNat 15 imm20) (BitVec.ofNat 24 imm36) [])
  | 0x0A => some (.flXac e reg k (aux.getLsbD 2) (aux.getLsbD 3) (BitVec.ofNat 32 imm36))
  | _ => none

/-- The instruction a program word spells, with the word after it, and how many words it takes; none where it is illegal. -/
def flyerWord (e : EngineId) (w : Nat) (after : Nat) : Option (Instr × Nat) :=
  let m := fun (v : Nat) => let x := memSlotOf v; if x.op = 3 ∧ 4 ≤ x.reg.toNat then none else some x
  match bits w 35 34 with
  | 0 => if w % 2 = 1 then none else (m (bits w 11 1)).map fun x => (.flParallel e (macSlotOf (bits w 33 23)) (macSlotOf (bits w 22 12)) x, 1)
  | 1 =>
    if w % 8 ≠ 0 then none
    else
      (m (bits w 13 3)).bind fun x =>
        (aluOf e (bits w 33 26) (BitVec.ofNat 4 (bits w 25 22)) (BitVec.ofNat 4 (bits w 21 18)) (BitVec.ofNat 4 (bits w 17 14)) x).map fun i => (i, 1)
  | 2 =>
    (controlOf e (bits w 33 28) (BitVec.ofNat 4 (bits w 27 24)) (BitVec.ofNat 4 (bits w 23 20)) (BitVec.ofNat 4 (bits w 19 16))
      (BitVec.ofNat 16 w)).map fun i => (i, 1)
  | _ =>
    (longOf e (bits w 33 28) (BitVec.ofNat 4 (bits w 27 24)) (BitVec.ofNat 4 (bits w 23 20)) (bits w 19 0) after).map fun i => (i, 2)

/-- How many words without a break before an address have the long format. -/
def longRun (word : Nat → Nat) : Nat → Nat
  | 0 => 0
  | n + 1 => if bits (word n) 35 34 = 3 then longRun word n + 1 else 0

/-- Is an address the second word of a long form (R205)? The first of a run of long-format words is a first word. -/
def secondWord (word : Nat → Nat) (a : Nat) : Bool := longRun word a % 2 == 1

end Sys2Proof.Machine
end

