-- ==== Sys2Proof/Machine/FlyerOps.lean ====
section
/-! DEFINITION. What every flyer instruction shares: the issue of an instruction (R195 to R199, R207), the memory slot
(R200, R201), results and flags (R189, R190, R202), rounding shifts, the divide step, control registers, and the
fabric port (R194, R224). -/

namespace Sys2Proof.Machine

/-! Issue. -/

/-- What an instruction gives when it issues. -/
inductive Issue
  /-- it completes: the other parts of the device, the engine, and what comes next -/
  | done (s : State) (x : Engine) (fl : Flow)
  /-- it raises an exception and has no effect -/
  | trap (cause info : Nat)
  /-- the engine waits, and the instruction issues again or completes later -/
  | stay (x : Engine)

/-- An illegal instruction: xinfo is its address (R207). -/
def illegal (e : Engine) : Issue := .trap 1 e.pc.toNat

/-- The word of program memory at an address. -/
def Engine.wordAt (e : Engine) (a : Nat) : Nat := (sget 0 e.program a).toNat

/-- Does the word at pc spell an instruction (R201, R205)? The runtime's own words are the vendor's. -/
def Engine.legalHere (e : Engine) : Bool :=
  let a := e.pc.toNat
  decide (a < 0x1000) || ((flyerWord 0 (e.wordAt a) (e.wordAt (a + 1))).isSome && !secondWord e.wordAt a)

/-- What follows an instruction: the runtime where it stands before one of its places, and a halt that waits. -/
def State.afterIssue (s : State) (i : EngineId) : State := (s.runtimes2 i).haltIfDue i

/-- What an instruction gives where its word may spell nothing: of the exceptions local memory ECC comes before illegal
instruction (R207). -/
def judged (x : Engine) : Issue → Issue
  | .trap 4 info => .trap 4 info
  | r => if x.legalHere then r else illegal x

/-- Issue one instruction on an engine that runs; a poisoned word is reported once. A word that fails its parity stops the
engine at fetch (R209), and one that spells nothing is illegal (R201). `keep`: it is a DIVS, and the divide sequence goes
on. -/
def issue (i : EngineId) (cycles : Nat) (keep : Bool) (body : State → Engine → Issue) (s : State) : State :=
  let x := s.engines[i]
  if x.run ≠ .running ∧ x.run ≠ .stepping then s
  else if x.badParity.contains x.pc.toNat then s.engineFault i
  else
    match judged x (body s x) with
    | .trap c info => ((if c = 3 then s.modEngine i fun x => { x with poison := none } else s).trap i c (BitVec.ofNat 32 info)).runtime i
    | .stay y => s.setEngine i y
    | .done s' y fl =>
      ((s'.setEngine i (finishIssue cycles fl (if keep then y else { y with divs := none }))).afterIssue i).tick

/-- An instruction that changes nothing but its engine. -/
def onEngine (f : Engine → Engine) : State → Engine → Issue := fun s e => .done s (f e) .next

/-! The memory slot (R200, R201). -/

/-- The low `k` bits of a number in reverse order. -/
def reverseBits : Nat → Nat → Nat
  | 0, _ => 0
  | k + 1, n => (n % 2) * 2 ^ k + reverseBits k (n / 2)

/-- The k with 2^k = n, for n from 2 to 32,768. -/
def log2Of (n : Nat) : Option Nat := (List.range 16).find? fun k => decide (0 < k ∧ 2 ^ k = n)

/-- ⌈log2 n⌉. -/
def clog2 (n : Nat) : Nat := ((List.range 17).find? fun k => decide (n ≤ 2 ^ k)).getD 17

/-- A length outside R200's ranges: the manual gives no result (log entry 8). -/
def openLength (mode : Nat) (l : Nat) : Bool := (mode == 1 && decide (32768 < l)) || (mode == 2 && l == 1)

/-- ai advanced by one in its mode. -/
def nextAddr (key : Nat) (mode l : Nat) (a : BitVec 20) : BitVec 20 :=
  if openLength mode l then (Config.flyerOpen key 70 a.toNat l).setWidth 20
  else if mode = 1 ∧ 1 ≤ l then
    let base := a.toNat / 2 ^ clog2 l * 2 ^ clog2 l
    if a.toNat = base + l - 1 then BitVec.ofNat 20 base else a + 1
  else if mode = 2 then
    match log2Of l with
    | some k =>
      let low := reverseBits k ((reverseBits k (a.toNat % 2 ^ k) + 1) % 2 ^ k)
      BitVec.ofNat 20 (a.toNat / 2 ^ k * 2 ^ k + low)
    | none => a + 1
  else a + 1

/-- The mode of an address register. -/
def Engine.modeOf (e : Engine) (k : Fin 8) : Nat := bits e.amode.toNat (2 * k.val + 1) (2 * k.val)

/-- An address register after a slot's update. -/
def slotAddr (key : Nat) (e : Engine) (k : Fin 8) (upd : BitVec 2) : BitVec 20 :=
  match upd.toNat with
  | 1 => e.a[k] + 1
  | 2 => e.a[k] - 1
  | 3 => nextAddr key (e.modeOf k) e.lg[k].toNat e.a[k]
  | _ => e.a[k]

/-- Round a value that is to be shifted right by `sh`, by the mode's rnd (R189). -/
def roundBy (rnd : Nat) (v : Int) (sh : Nat) : Int :=
  let q := asr v sh
  let r := v - q * (2 ^ sh : Nat)
  let half : Int := (2 ^ (sh - 1) : Nat)
  match rnd with
  | 0 => q
  | 1 => if half ≤ r then q + 1 else q
  | 2 => if half < r ∨ (r = half ∧ q % 2 = 1) then q + 1 else q
  | _ => if half < r ∨ (r = half ∧ 0 ≤ v) then q + 1 else q

/-- The output shift of RDA, STS and WRA: 17 − oshift. -/
def Engine.outShift (e : Engine) : Nat := 17 - bits e.mode.toNat 7 4

/-- An accumulator rounded, shifted and saturated; the flag tells of saturation (R202). -/
def Engine.readOut (e : Engine) (r : Fin 4) : Sample × Bool :=
  let v := roundBy (bits e.mode.toNat 2 1) (e.ac r).toInt e.outShift
  (BitVec.ofInt 18 (satInt 18 v), decide (satInt 18 v ≠ v))

/-- Sticky sv. -/
def Engine.sticky (e : Engine) (b : Bool) : Engine := if b then e.setStatus 4 true else e

/-- The memory slot's access and update, beside the instruction `y` made of engine `e`. -/
def slotOn (key : Nat) (e : Engine) (m : MemSlot) (y : Engine) : Engine :=
  let k : Fin 8 := Fin.ofNat 8 m.a.toNat
  let at_ := e.a[k].toNat
  let y := match m.op.toNat with
    | 1 => y.putD 2 (reg16 m.reg) (e.load at_)
    | 2 => y.store at_ (e.d m.reg.toNat)
    | 3 =>
      let (v, sv) := e.readOut (acc4 m.reg)
      (y.store at_ v).sticky sv
    | _ => y
  if m.upd = 0 then y else { y with a := y.a.set k (slotAddr key e k m.upd) }

/-- Single-bit errors of local words that an engine reads are corrected and counted (R191). -/
def State.countLocal (s : State) (i : EngineId) (n : Nat) : State :=
  if n = 0 then s else s.modRole i fun r => { r with eccCorrected := satAdd 255 r.eccCorrected n }

/-- A slot's load that corrects its word counts one (R191). -/
def State.corrected (s : State) (i : EngineId) (m : MemSlot) : State :=
  s.countLocal i (if m.op = 1 ∧ m.ecc = some false then 1 else 0)

/-- A P- or A-format instruction with its memory slot: the slot's exceptions come first (R207), and a slot that is
illegal makes the instruction so (R201). -/
def withSlot (i : EngineId) (m : MemSlot) (body : State → Engine → Issue) (s : State) (e : Engine) : Issue :=
  if m.op = 1 ∧ m.ecc = some true then .trap 4 (e.a[(Fin.ofNat 8 m.a.toNat)].toNat % 32768)
  else if m.op = 3 ∧ 4 ≤ m.reg.toNat then illegal e
  else
    match body s e with
    | .done s' y fl => .done (s'.corrected i m) (slotOn (s.key i) e m y) fl
    | r => r

/-- An A-format instruction in one issue cycle. -/
def issueA (i : EngineId) (m : MemSlot) (f : Nat → Engine → Engine) (s : State) : State :=
  issue i 1 false (withSlot i m (onEngine (f (s.key i)))) s

/-! Results and flags. -/

/-- Set z, n, v and c; conditions read them at distance 2 (R195). -/
def Engine.setFlags (e : Engine) (left : Nat) (z n v c : Bool) : Engine :=
  { e with status := setBit (setBit (setBit (setBit e.status 0 z) 1 n) 2 v) 3 c }.put left (.flags z n v c)

/-- An exact result in 18 bits: saturated where mode.sat is 1, wrapped where it is 0; flags from the result, v from
the exact value (R189, R190). -/
def Engine.aluOut (e : Engine) (exact : Int) (carry : Bool) (dst : Option (Fin 16)) : Engine :=
  let ovf := decide (satInt 18 exact ≠ exact)
  let sat := e.mode.getLsbD 0
  let r : Sample := BitVec.ofInt 18 (if sat then satInt 18 exact else exact)
  let e := (e.sticky (ovf && sat)).setFlags 2 (r == 0) r.msb ovf carry
  match dst with
  | some d => e.putD 1 d r
  | none => e

/-- Carry out of bit 17 of a sum of two unsigned values and a carry in. -/
def carryOf (a b cin : Nat) : Bool := decide (2 ^ 18 ≤ a + b + cin)

/-- s1 − s2 as s1 + NOT s2 + 1: its carry. -/
def subCarry (a b : Sample) : Bool := carryOf a.toNat (~~~b).toNat 1

/-- The shift count: s2 bits 4:0. -/
def shiftCount (b : Sample) : Nat := b.toNat % 32

/-- A helper's results into consecutive registers, saturated, seen at a distance; a register past d15 does not exist
(log entry 8). -/
def Engine.helperOut (e : Engine) (left : Nat) : Nat → List Int → Engine
  | _, [] => e
  | r, v :: vs =>
    let e := e.sticky (decide (satInt 18 v ≠ v))
    let e := match fin? 16 r with
      | some d => e.putD left d (BitVec.ofInt 18 (satInt 18 v))
      | none => e
    e.helperOut left (r + 1) vs

/-- A data register by number; one past d15 holds an open value (log entry 8). -/
def Engine.dOpen (e : Engine) (key r : Nat) : Int := if r < 16 then (e.d r).toInt else (Config.flyerOpen key 71 r 0).toInt

/-! Accumulators. -/

/-- A product as a MAC slot adds it: shifted left once where mode.frac is 1 (R189). -/
def Engine.product (e : Engine) (x y : Sample) : BitVec 48 :=
  BitVec.ofInt 48 (x.toInt * y.toInt * (if e.mode.getLsbD 3 then 2 else 1))

/-- One MAC slot, on the newest value of its accumulator (R195, R201). -/
def macSlot (src : Engine) (m : MacSlot) (e : Engine) : Engine :=
  let r : Fin 4 := Fin.ofNat 4 m.acc.toNat
  let p := src.product (src.d m.x.toNat) (src.d (8 + m.y.toNat))
  match m.op.toNat with
  | 1 => e.putAc r (e.acNew r + p)
  | 2 => e.putAc r (e.acNew r - p)
  | 3 => e.putAc r p
  | _ => e

/-- 48 open bits (log entry 8). -/
def open48 (key op x : Nat) : BitVec 48 :=
  BitVec.ofNat 48 ((Config.flyerOpen key op x 0).toNat + 2 ^ 18 * (Config.flyerOpen key op x 1).toNat + 2 ^ 36 * (Config.flyerOpen key op x 2).toNat)

/-- Quotient and remainder of a whole divide sequence; bits 47:36 are open (R202, log entry 8). -/
def divResult (key : Nat) (dividend divisor : Int) : BitVec 48 :=
  let q := roundFree key 72 ((dividend : Rat) / divisor)
  BitVec.ofNat 48 (wrapNat 18 q + 2 ^ 18 * wrapNat 18 (dividend - q * divisor) + 2 ^ 36 * (Config.flyerOpen key 73 0 0).toNat)

/-- One divide step (R202): the eighteenth of a sequence with one divisor gives quotient and remainder, and every other
value is open. -/
def divStep (key : Nat) (e : Engine) (r : Fin 4) (s1 : Sample) : Issue ⊕ Engine :=
  let cur := e.acNew r
  let fresh := match e.divs with
    | some (k, _) => decide (k ≠ r)
    | none => true
  if s1 = 0 then .inl (.trap 5 s1.toNat)
  else if fresh && decide (|s1.toInt| ≤ |toSigned 19 (bits cur.toNat 35 17)|) then .inl (.trap 5 s1.toNat)
  else
    let (n, dividend, divisor) : Nat × Int × Int := match fresh, e.divs with
      | false, some (_, n, dd, dv) => (n, dd, if dv = s1.toInt then dv else 0)
      | _, _ => (0, toSigned 36 (bits cur.toNat 35 0), s1.toInt)
    let v := if n + 1 = 18 ∧ divisor ≠ 0 then divResult key dividend divisor else open48 key 74 n
    .inr { (e.putAc r v) with divs := some (r, n + 1, dividend, divisor) }

/-! Control registers (R202). -/

/-- Read a control register by page and number. -/
def Engine.control (e : Engine) (page n : Nat) : Option Sample :=
  let b := e.bank
  let x := fun (v : Nat) => some (BitVec.ofNat 18 v)
  if page = 0 then
    match n with
    | 0 => x e.mode.toNat
    | 1 => x e.statusRead.toNat
    | 2 => x e.amode.toNat
    | 3 => x e.lc[(0 : Fin 2)].toNat
    | 4 => x e.ls[(0 : Fin 2)].toNat
    | 5 => x e.le[(0 : Fin 2)].toNat
    | 6 => x e.lc[(1 : Fin 2)].toNat
    | 7 => x e.ls[(1 : Fin 2)].toNat
    | 8 => x e.le[(1 : Fin 2)].toNat
    | 9 => x e.lr.toNat
    | 10 => x e.epc.toNat
    | 11 => x e.estat.toNat
    | 12 => x b.xpc.toNat
    | 13 => x b.xstat.toNat
    | 14 => x b.xmode.toNat
    | _ => x b.xcause.toNat
  else
    match n with
    | 0 => x (b.xinfo.toNat % 2 ^ 18)
    | 1 => x (b.xinfo.toNat / 2 ^ 18)
    | 2 => x e.stid.toNat
    | 3 => x e.ipend.toNat
    | _ => if 8 ≤ n then x e.lg[(Fin.ofNat 8 n)].toNat else none

/-- Reading ipend clears its lost bits (R188). -/
def readClears (page n : Nat) (e : Engine) : Engine := if page = 1 ∧ n = 3 then { e with ipend := e.ipend &&& 0x08F } else e

/-- ipend is written: a source that is no longer pending is withdrawn, and one newly pending follows those before it. -/
def Engine.setPending (e : Engine) (v : BitVec 9) : Engine :=
  let on := fun (src : Nat) => v.getLsbD (sourceBit src)
  { e with ipend := v, order := e.order.filter on ++ (List.range 5).filter fun src => on src && !e.order.contains src }

/-- Write a control register; mode goes through its shadow (R195), and read-only fields keep their values (R190). -/
def Engine.setControl (e : Engine) (page n : Nat) (v : Sample) : Engine :=
  let f := fun (g : FlBank → FlBank) => e.modBank e.lvl g
  if page = 0 then
    match n with
    | 0 => e.put 2 (.mode (v &&& 0xFF))
    | 1 => ({ e with status := (e.status &&& ~~~0x10) ||| (v &&& 0x10) }).setFlags 1 (v.getLsbD 0) (v.getLsbD 1) (v.getLsbD 2) (v.getLsbD 3)
    | 2 => { e with amode := v.truncate 16 }
    | 3 => { e with lc := e.lc.set 0 v }
    | 4 => { e with ls := e.ls.set 0 (v.truncate 14) }
    | 5 => { e with le := e.le.set 0 (v.truncate 14) }
    | 6 => { e with lc := e.lc.set 1 v }
    | 7 => { e with ls := e.ls.set 1 (v.truncate 14) }
    | 8 => { e with le := e.le.set 1 (v.truncate 14) }
    | 9 => { e with lr := v.truncate 14 }
    | 10 => { e with epc := v.truncate 14 }
    | 11 => { e with estat := v }
    | 12 => f fun b => { b with xpc := v.truncate 14 }
    | 13 => f fun b => { b with xstat := v }
    | 14 => f fun b => { b with xmode := v.truncate 16 }
    | _ => f fun b => { b with xcause := v.truncate 3 }
  else
    match n with
    | 0 => f fun b => { b with xinfo := putBits b.xinfo 0 18 v.toNat }
    | 1 => f fun b => { b with xinfo := putBits b.xinfo 18 14 v.toNat }
    | 2 => { e with stid := v.truncate 8 }
    | 3 => e.setPending (v.truncate 9)
    | _ => if 8 ≤ n then { e with lg := e.lg.set (Fin.ofNat 8 n) (v.truncate 16) } else e

/-! Conditions (R204). -/

/-- A condition, where it is legal. -/
def Engine.cond (e : Engine) (c : BitVec 4) : Option Bool :=
  match c.toNat with
  | 0 => some true
  | 1 => some e.condZ
  | 2 => some !e.condZ
  | 3 => some e.condN
  | 4 => some !e.condN
  | 5 => some (!e.condN && !e.condZ)
  | 6 => some (e.condN || e.condZ)
  | 7 => some e.condV
  | 8 => some !e.condV
  | 9 => some e.condC
  | 10 => some !e.condC
  | 11 => some (e.status.getLsbD 12)
  | 12 => some !e.fab.isEmpty
  | _ => none

/-- A conditional branch to a target. -/
def branchTo (c : BitVec 4) (target : Engine → BitVec 14) (f : Engine → Engine) (s : State) (e : Engine) : Issue :=
  match e.cond c with
  | none => illegal e
  | some true => .done s (f e) (.branch (some (target e)))
  | some false => .done s e (.branch none)

/-- The address after the delay slot of the instruction at pc: a long form there takes two words (R197). -/
def Engine.afterDelay (e : Engine) : BitVec 14 :=
  if bits (sget 0 e.program (e.pc + 1).toNat).toNat 35 34 = 3 then e.pc + 3 else e.pc + 2

/-- LOOP and LOOPR (R199): `size` words to the loop's first instruction. -/
def startLoop (level : Bool) (size : Nat) (count : Sample) (le : BitVec 14) (s : State) (e : Engine) : Issue :=
  let k : Fin 2 := if level then 1 else 0
  let y := { e with
    ls := e.ls.set k (e.pc + BitVec.ofNat 14 size), le := e.le.set k le, lc := e.lc.set k count, status := setBit e.status (16 + k.val) e.lvl }
  .done s y (if count = 0 then .jump (le + 1) else .next)

/-! The fabric port (R194, R224). -/

/-- First and last-plus-one sample-view addresses. -/
def sampleBase : Nat := 0x10000000
def sampleEnd : Nat := 0x11000000

/-- Start a fabric operation: a fifth stalls the engine until one completes (R194). -/
def startFab (op : FabOp) (s : State) (e : Engine) : Issue :=
  if 4 ≤ e.fab.length then .stay { e with run := .stalled 3 (decide (e.run = FlRun.stepping)), held := some op }
  else .done s { e with fab := e.fab ++ [op] } .next

/-- A poisoned word met: its internal address waits for WAITF or HALT. -/
def notePoison (g : Nat) (e : Engine) : Engine :=
  { e with poison := match e.poison with
    | some a => some a
    | none => some (BitVec.ofNat 32 (sampleBase + 4 * g)) }

/-- The four samples of a word. -/
def wordSamples (w : Word72) : List Sample := (List.range 4).map fun k => BitVec.ofNat 18 (w.toNat / 2 ^ (18 * k))

/-- A word of four samples. -/
def samplesWord (l : List Sample) : Word72 :=
  BitVec.ofNat 72 ((List.range 4).foldl (fun (v : Nat) k => v + 2 ^ (18 * k) * (l.getD k 0).toNat) 0)

/-- Move words from the banks to local memory. -/
def fabIn (m : Mem) : Nat → Nat → Nat → Engine → Engine
  | 0, _, _, e => e
  | n + 1, g, at_, e =>
    let e := if m.isPoisoned g then notePoison g (e.storeAll at_ [0, 0, 0, 0]) else e.storeAll at_ (wordSamples (m.word g))
    fabIn m n (g + 1) (at_ + 4) e

/-- Move words from local memory to the banks: whole-word writes (R221). -/
def fabOut (e : Engine) : Nat → Nat → Nat → Mem → Mem
  | 0, _, _, m => m
  | n + 1, g, at_, m => fabOut e n (g + 1) (at_ + 4) (m.writeWord g (samplesWord ((List.range 4).map fun k => e.load (at_ + k))))

/-- A fabric operation of engine `i` takes place. -/
def State.runFab (s : State) (i : EngineId) (op : FabOp) : State :=
  match op with
  | .fmv at_ sample toBanks lines ecc =>
    let s := s.wakeRange (8 * (sample / 4)) (8 * (sample / 4 + 4 * lines))
    if toBanks then s.modMem (fabOut s.engines[i] (4 * lines) (sample / 4) at_)
    else
      let s := s.meetErrors ecc (sample / 4) (sample / 4 + 4 * lines) i
      s.modEngine i (fabIn s.mem (4 * lines) (sample / 4) at_)
  | .fatm at_ sample swap operand ecc =>
    let g := sample / 4
    let s := s.wakeRange (8 * g) (8 * g + 8)
    let s := s.meetErrors ecc g (g + 1) i
    if s.mem.isPoisoned g then s.modEngine i fun e => notePoison g (e.store at_ 0)
    else
      let old := s.mem.sample sample
      (s.modMem fun m => m.setSample sample (if swap then operand else old + operand)).modEngine i fun e => e.store at_ old

/-- The single-bit errors an operation met as it read local memory (R191). -/
def FabOp.localErrors : FabOp → Nat
  | .fmv at_ _ true lines ecc => (ecc.filter fun x => decide (at_ ≤ x.word) && decide (x.word < at_ + 16 * lines) && !x.double).length
  | .fmv _ _ false _ _ | .fatm .. => 0

/-- A stalled engine goes on once few enough operations are outstanding: a WAITF completes, or raises the poisoned data
exception; a fifth operation takes its place and its instruction completes. -/
def State.unstall (s : State) (i : EngineId) : State :=
  let e := s.engines[i]
  match e.run with
  | .stalled n step =>
    let go : FlRun := if step then .stepping else .running
    if n < e.fab.length then s
    else
      match e.held, e.poison with
      | some op, _ =>
        ((s.countLocal i op.localErrors).setEngine i
          (finishIssue 2 .next { e with run := go, held := none, fab := e.fab ++ [op], divs := none })).afterIssue i
      | none, some a => ((s.setEngine i { e with run := go, poison := none }).trap i 3 a).runtime i
      | none, none => (s.setEngine i (finishIssue 1 .next { e with run := go })).afterIssue i
  | _ => s

/-! XAC (R193). -/

/-- May an engine write this register? -/
def xacWrites (a : Nat) : Bool :=
  (decide (0x80100000 ≤ a) && decide (a < 0x8010C000) && enginePwm (a % 0x1000)) ||
    (decide (0x80140000 ≤ a) && decide (a < 0x80140400) && a % 0x40 == 4)

/-- May an engine read this address? -/
def xacReads (a : Nat) : Bool :=
  (decide (0x80100000 ≤ a) && decide (a < 0x80150000)) || (decide (0x80000000 ≤ a) && decide (a < 0x80010000)) ||
    (decide (0x80200000 ≤ a) && decide (a < 0x80220000))

def xacAddr (e : Engine) (k : BitVec 2) (offset : Word) : Word := e.xb[(Fin.ofNat 4 k.toNat)] + offset

/-- XAC: a read's d register takes bits 17:0; bits 47:32 of an accumulator that takes it are open (log entry 8). -/
def runXac (i : EngineId) (reg : BitVec 4) (k : BitVec 2) (read ac : Bool) (offset : Word) (s : State) (e : Engine) : Issue :=
  let a := xacAddr e k offset
  if a.toNat % 4 ≠ 0 ∨ (read = true ∧ !xacReads a.toNat) ∨ (read = false ∧ !xacWrites a.toNat) then .trap 2 a.toNat
  else if read then
    let v := readReg s a.toNat
    let s := s.afterRead a.toNat
    if ac then .done s (e.put 1 (.ac e.lvl (acc4 reg)
      (BitVec.ofNat 48 (v.toNat + 2 ^ 32 * ((Config.flyerOpen (s.key i) 75 v.toNat 0).toNat % 65536))))) .next
    else .done s (e.putD 1 (reg16 reg) (v.truncate 18)) .next
  else
    let v : Word := if ac then (e.ac (acc4 reg)).truncate 32 else (e.d reg.toNat).signExtend 32
    .done (s.writeReg a.toNat v) e .next

end Sys2Proof.Machine
end

