-- ==== Sys2Proof/Machine/Flyer.lean ====
section
/-! DEFINITION. The flyer engines' instructions (R201 to R205) and the two events of their ports. Each takes the engine
it issues on; an engine that is halted, stalled, faulted or in debug issues nothing, and the state stays. -/

namespace Sys2Proof.Machine

/-- A command row's answer. -/
abbrev Answer := Host.Outcome State Fault Refusal

/-- PARALLEL: MAC slots 0 and 1, and the memory slot (R201). -/
def execFlParallel (e : EngineId) (m0 m1 : MacSlot) (m : MemSlot) (s : State) : Answer :=
  .next (issueA e m (fun _ x => macSlot x m1 (macSlot x m0 x)) s)

/-! ALU operations with flags (R202). -/

def execFlAdd (e : EngineId) (dst s1 s2 : BitVec 4) (m : MemSlot) (s : State) : Answer :=
  .next (issueA e m (fun _ x =>
    let a := x.d s1.toNat
    let b := x.d s2.toNat
    x.aluOut (a.toInt + b.toInt) (carryOf a.toNat b.toNat 0) (some (reg16 dst))) s)

def execFlSub (e : EngineId) (dst s1 s2 : BitVec 4) (m : MemSlot) (s : State) : Answer :=
  .next (issueA e m (fun _ x =>
    let a := x.d s1.toNat
    let b := x.d s2.toNat
    x.aluOut (a.toInt - b.toInt) (subCarry a b) (some (reg16 dst))) s)

def execFlNeg (e : EngineId) (dst s1 : BitVec 4) (m : MemSlot) (s : State) : Answer :=
  .next (issueA e m (fun _ x => x.aluOut (-(x.d s1.toNat).toInt) (subCarry 0 (x.d s1.toNat)) (some (reg16 dst))) s)

/-- No sum leaves bit 17 in ABS and the operations below: c is 0 (log entry 8). -/
def execFlAbs (e : EngineId) (dst s1 : BitVec 4) (m : MemSlot) (s : State) : Answer :=
  .next (issueA e m (fun _ x => x.aluOut |(x.d s1.toNat).toInt| false (some (reg16 dst))) s)

def execFlAnd (e : EngineId) (dst s1 s2 : BitVec 4) (m : MemSlot) (s : State) : Answer :=
  .next (issueA e m (fun _ x => x.aluOut (x.d s1.toNat &&& x.d s2.toNat).toInt false (some (reg16 dst))) s)

def execFlOr (e : EngineId) (dst s1 s2 : BitVec 4) (m : MemSlot) (s : State) : Answer :=
  .next (issueA e m (fun _ x => x.aluOut (x.d s1.toNat ||| x.d s2.toNat).toInt false (some (reg16 dst))) s)

def execFlXor (e : EngineId) (dst s1 s2 : BitVec 4) (m : MemSlot) (s : State) : Answer :=
  .next (issueA e m (fun _ x => x.aluOut (x.d s1.toNat ^^^ x.d s2.toNat).toInt false (some (reg16 dst))) s)

def execFlNot (e : EngineId) (dst s1 : BitVec 4) (m : MemSlot) (s : State) : Answer :=
  .next (issueA e m (fun _ x => x.aluOut (~~~(x.d s1.toNat)).toInt false (some (reg16 dst))) s)

/-- SHL: the exact product by a power of two; c is the last bit to leave bit 17. -/
def execFlShl (e : EngineId) (dst s1 s2 : BitVec 4) (m : MemSlot) (s : State) : Answer :=
  .next (issueA e m (fun _ x =>
    let a := x.d s1.toNat
    let n := shiftCount (x.d s2.toNat)
    x.aluOut (a.toInt * (2 ^ n : Nat)) (bit (a.toNat * 2 ^ n) 18) (some (reg16 dst))) s)

def execFlShr (e : EngineId) (dst s1 s2 : BitVec 4) (m : MemSlot) (s : State) : Answer :=
  .next (issueA e m (fun _ x => x.aluOut (x.d s1.toNat >>> shiftCount (x.d s2.toNat)).toInt false (some (reg16 dst))) s)

def execFlAsr (e : EngineId) (dst s1 s2 : BitVec 4) (m : MemSlot) (s : State) : Answer :=
  .next (issueA e m (fun _ x => x.aluOut (asr (x.d s1.toNat).toInt (shiftCount (x.d s2.toNat))) false (some (reg16 dst))) s)

def execFlMov (e : EngineId) (dst s1 : BitVec 4) (m : MemSlot) (s : State) : Answer :=
  .next (issueA e m (fun _ x => x.aluOut (x.d s1.toNat).toInt false (some (reg16 dst))) s)

/-- CMP: the flags of s1 − s2, as SUB sets them; nothing is written, so nothing saturates. -/
def execFlCmp (e : EngineId) (_dst s1 s2 : BitVec 4) (m : MemSlot) (s : State) : Answer :=
  .next (issueA e m (fun _ x =>
    let a := x.d s1.toNat
    let b := x.d s2.toNat
    let y := x.aluOut (a.toInt - b.toInt) (subCarry a b) none
    { y with status := setBit y.status 4 (x.status.getLsbD 4) }) s)

def execFlMin (e : EngineId) (dst s1 s2 : BitVec 4) (m : MemSlot) (s : State) : Answer :=
  .next (issueA e m (fun _ x => x.aluOut (min (x.d s1.toNat).toInt (x.d s2.toNat).toInt) false (some (reg16 dst))) s)

def execFlMax (e : EngineId) (dst s1 s2 : BitVec 4) (m : MemSlot) (s : State) : Answer :=
  .next (issueA e m (fun _ x => x.aluOut (max (x.d s1.toNat).toInt (x.d s2.toNat).toInt) false (some (reg16 dst))) s)

/-- MAXI and MINI (R203): dst is even; s2 bits 2:0 name the address register, read before the slot's own update. -/
def extremeIndex (better : Int → Int → Bool) (i : EngineId) (dst s1 s2 : BitVec 4) (m : MemSlot) (s : State) : State :=
  issue i 1 false (withSlot i m fun s x =>
    if dst.getLsbD 0 then illegal x
    else if better (x.d s1.toNat).toInt (x.d dst.toNat).toInt then
      .done s ((x.putD 1 (reg16 dst) (x.d s1.toNat)).putD 1 (reg16 (dst + 1)) (x.a[(Fin.ofNat 8 (s2.toNat % 8))].truncate 18)) .next
    else .done s x .next) s

def execFlMaxi (e : EngineId) (dst s1 s2 : BitVec 4) (m : MemSlot) (s : State) : Answer :=
  .next (extremeIndex (fun c best => decide (best < c)) e dst s1 s2 m s)

def execFlMini (e : EngineId) (dst s1 s2 : BitVec 4) (m : MemSlot) (s : State) : Answer :=
  .next (extremeIndex (fun c best => decide (c < best)) e dst s1 s2 m s)

/-- WRAP: the difference modulo 2^18, which never overflows (log entry 8). -/
def execFlWrap (e : EngineId) (dst s1 s2 : BitVec 4) (m : MemSlot) (s : State) : Answer :=
  .next (issueA e m (fun _ x => x.aluOut (x.d s1.toNat - x.d s2.toNat).toInt (subCarry (x.d s1.toNat) (x.d s2.toNat)) (some (reg16 dst))) s)

/-! Helpers (R202). -/

def execFlSincos (e : EngineId) (dst s1 : BitVec 4) (m : MemSlot) (s : State) : Answer :=
  .next (issue e 1 false (withSlot e m fun s x =>
    if dst = 15 then illegal x
    else
      let th := (x.d s1.toNat).toNat
      .done s (x.helperOut 3 dst.toNat [sin18 (s.key e) th, cos18 (s.key e) th]) .next) s)

def execFlClarke (e : EngineId) (dst s1 : BitVec 4) (m : MemSlot) (s : State) : Answer :=
  .next (issue e 1 false (withSlot e m fun s x =>
    if 13 < dst.toNat ∨ 13 < s1.toNat then illegal x
    else
      let n := s1.toNat
      let r := clarkeRaw (s.key e) (x.d n).toInt (x.d (n + 1)).toInt (x.d (n + 2)).toInt
      .done s (x.helperOut 2 dst.toNat [r.1, r.2.1, r.2.2]) .next) s)

def execFlPark (e : EngineId) (dst s1 s2 : BitVec 4) (m : MemSlot) (s : State) : Answer :=
  .next (issueA e m (fun key x =>
    let r := parkRaw key (x.d s1.toNat).toInt (x.dOpen key (s1.toNat + 1)) (x.d s2.toNat).toNat
    x.helperOut 3 dst.toNat [r.1, r.2]) s)

def execFlIpark (e : EngineId) (dst s1 s2 : BitVec 4) (m : MemSlot) (s : State) : Answer :=
  .next (issueA e m (fun key x =>
    let r := iParkRaw key (x.d s1.toNat).toInt (x.dOpen key (s1.toNat + 1)) (x.d s2.toNat).toNat
    x.helperOut 3 dst.toNat [r.1, r.2]) s)

/-! Accumulators (R202). -/

def execFlDivs (e : EngineId) (dst s1 : BitVec 4) (m : MemSlot) (s : State) : Answer :=
  .next (issue e 1 true (withSlot e m fun s x =>
    match divStep (s.key e) x (acc4 dst) (x.d s1.toNat) with
    | .inl r => r
    | .inr y => .done s y .next) s)

def execFlRda (e : EngineId) (dst s1 : BitVec 4) (m : MemSlot) (s : State) : Answer :=
  .next (issueA e m (fun _ x => (x.putD 1 (reg16 dst) (x.readOut (acc4 s1)).1).sticky (x.readOut (acc4 s1)).2) s)

def execFlRdal (e : EngineId) (dst s1 : BitVec 4) (m : MemSlot) (s : State) : Answer :=
  .next (issueA e m (fun _ x => x.putD 1 (reg16 dst) ((x.ac (acc4 s1)).extractLsb' 0 18)) s)

def execFlRdam (e : EngineId) (dst s1 : BitVec 4) (m : MemSlot) (s : State) : Answer :=
  .next (issueA e m (fun _ x => x.putD 1 (reg16 dst) ((x.ac (acc4 s1)).extractLsb' 18 18)) s)

def execFlRdah (e : EngineId) (dst s1 : BitVec 4) (m : MemSlot) (s : State) : Answer :=
  .next (issueA e m (fun _ x => x.putD 1 (reg16 dst) (((x.ac (acc4 s1)).extractLsb' 36 12).signExtend 18)) s)

def execFlWra (e : EngineId) (dst s1 : BitVec 4) (m : MemSlot) (s : State) : Answer :=
  .next (issueA e m (fun _ x => x.putAc (acc4 dst) ((x.d s1.toNat).signExtend 48 <<< x.outShift)) s)

def execFlClra (e : EngineId) (dst : BitVec 4) (m : MemSlot) (s : State) : Answer :=
  .next (issueA e m (fun _ x => x.putAc (acc4 dst) 0) s)

/-- ADDA and SUBA read the newest values, as the chained operations do (log entry 8). -/
def execFlAdda (e : EngineId) (dst s1 : BitVec 4) (m : MemSlot) (s : State) : Answer :=
  .next (issueA e m (fun _ x => x.putAc (acc4 dst) (x.acNew (acc4 dst) + x.acNew (acc4 s1))) s)

def execFlSuba (e : EngineId) (dst s1 : BitVec 4) (m : MemSlot) (s : State) : Answer :=
  .next (issueA e m (fun _ x => x.putAc (acc4 dst) (x.acNew (acc4 dst) - x.acNew (acc4 s1))) s)

/-! Address and control registers (R202). -/

/-- An instruction and its memory slot both write one address register: the manual gives no order (log entry 8). -/
def writeAddr (i : EngineId) (m : MemSlot) (dst : BitVec 4) (f : Engine → BitVec 20) (s : State) : State :=
  let clash := decide (m.upd ≠ 0 ∧ m.a.toNat = dst.toNat % 8)
  issue i 1 false (fun s x =>
    match withSlot i m (onEngine fun x => { x with a := x.a.set (addr8 dst) (f x) }) s x with
    | .done s' y fl =>
      let v : BitVec 20 := if clash then (Config.flyerOpen (s.key i) 76 (addr8 dst) 0).setWidth 20 else f x
      .done s' { y with a := y.a.set (addr8 dst) v } fl
    | r => r) s

def execFlMova (e : EngineId) (dst s1 : BitVec 4) (m : MemSlot) (s : State) : Answer :=
  .next (writeAddr e m dst (fun x => (x.d s1.toNat).setWidth 20) s)

def execFlMovd (e : EngineId) (dst s1 : BitVec 4) (m : MemSlot) (s : State) : Answer :=
  .next (issueA e m (fun _ x => x.putD 1 (reg16 dst) (x.a[addr8 s1].truncate 18)) s)

def execFlAadd (e : EngineId) (dst s1 : BitVec 4) (m : MemSlot) (s : State) : Answer :=
  .next (writeAddr e m dst (fun x => x.a[addr8 dst] + (x.d s1.toNat).signExtend 20) s)

def execFlMovc (e : EngineId) (dst s1 s2 : BitVec 4) (m : MemSlot) (s : State) : Answer :=
  .next (issue e 1 false (withSlot e m fun s x =>
    let page := s2.toNat % 2
    match x.control page s1.toNat with
    | none => illegal x
    | some v => .done s (readClears page s1.toNat (x.putD 1 (reg16 dst) v)) .next) s)

def execFlMovtc (e : EngineId) (dst s1 s2 : BitVec 4) (m : MemSlot) (s : State) : Answer :=
  .next (issue e 1 false (withSlot e m fun s x =>
    let page := s2.toNat % 2
    if (x.control page dst.toNat).isNone then illegal x
    else .done s (x.setControl page dst.toNat (x.d s1.toNat)) (if page = 0 ∧ dst = 0 then .shadow else .next)) s)

/-! Control (R204). -/

def execFlBr (e : EngineId) (cond : BitVec 4) (target : BitVec 14) (s : State) : Answer :=
  .next (issue e 1 false (branchTo cond (fun _ => target) id) s)

def execFlCall (e : EngineId) (cond : BitVec 4) (target : BitVec 14) (s : State) : Answer :=
  .next (issue e 1 false (branchTo cond (fun _ => target) fun x => { x with lr := x.afterDelay }) s)

def execFlRet (e : EngineId) (cond : BitVec 4) (s : State) : Answer :=
  .next (issue e 1 false (branchTo cond (fun x => x.lr) id) s)

def execFlLoopr (e : EngineId) (level : Bool) (reg : BitVec 4) (le : BitVec 14) (s : State) : Answer :=
  .next (issue e 1 false (fun s x => startLoop level 1 (x.d reg.toNat) le s x) s)

/-- MODE: the masked bits of mode take imm16 bits 7:0; the next instruction is the mode shadow. -/
def execFlMode (e : EngineId) (imm : Half) (s : State) : Answer :=
  .next (issue e 1 false (fun s x =>
    let mask : BitVec 18 := BitVec.ofNat 18 (imm.toNat / 256)
    .done s (x.put 2 (.mode ((x.mode &&& ~~~mask) ||| (BitVec.ofNat 18 (imm.toNat % 256) &&& mask)))) .shadow) s)

def execFlGrp (e : EngineId) (n : Half) (s : State) : Answer :=
  .next (issue e 1 false (fun s x => if 1 ≤ n.toNat ∧ n.toNat ≤ 6 then .done s x (.group n.toNat) else illegal x) s)

/-- HALT: a poisoned word first (R194); then cs, or the clock stops. -/
def execFlHalt (e : EngineId) (s : State) : Answer :=
  .next (issue e 1 false (fun s x =>
    match x.poison with
    | some a => .trap 3 a.toNat
    | none =>
      if x.status.getLsbD 12 then .done s (x.setStatus 12 false) .next
      else .stay { x with run := if x.run = .stepping then .debug else .halted }) s)

/-- RETI: pc and status come back, and the slot whose handler ends may go over to another engine, before the next interrupt
(R216). -/
def execFlReti (e : EngineId) (s : State) : Answer :=
  .next (issue e 1 false (fun s x =>
    let t := match x.slotHandled with
      | some k => s.reroute e k
      | none => s
    .done t t.engines[e].reti (.resume x.epc false)) s)

/-- RETX (R208). -/
def execFlRetx (e : EngineId) (s : State) : Answer :=
  .next (issue e 1 false (fun s x =>
    let r := x.retx
    .done s r.1 (.resume x.bank.xpc r.2)) s)

def execFlSig (e : EngineId) (n : BitVec 3) (s : State) : Answer :=
  .next (issue e 1 false (fun s x => .done (s.raise (20 + n.toNat)) x .next) s)

def execFlWaitf (e : EngineId) (n : BitVec 2) (s : State) : Answer :=
  .next (issue e 1 false (fun s x =>
    if x.fab.length ≤ n.toNat then
      match x.poison with
      | some a => .trap 3 a.toNat
      | none => .done s x .next
    else .stay { x with run := .stalled n.toNat (decide (x.run = FlRun.stepping)) }) s)

/-- BRK: a halt in bench mode with FLYER_DEBUG attached, at the next boundary it allows (R217); otherwise NOP. -/
def execFlBrk (e : EngineId) (s : State) : Answer :=
  .next (issue e 1 false (fun s x =>
    .done (if s.host.bench && s.roles[e].attached then s.modRole e fun r => { r with haltDue := true } else s) x .next) s)

/-! Long forms (R205). -/

def execFlMovi (e : EngineId) (reg : BitVec 4) (imm : Sample) (s : State) : Answer :=
  .next (issue e 2 false (onEngine fun x => x.putD 1 (reg16 reg) imm) s)

def execFlMovia (e : EngineId) (reg : BitVec 3) (imm : BitVec 20) (s : State) : Answer :=
  .next (issue e 2 false (onEngine fun x => { x with a := x.a.set (Fin.ofNat 8 reg.toNat) imm }) s)

def execFlMovx (e : EngineId) (k : BitVec 2) (imm : Word) (s : State) : Answer :=
  .next (issue e 2 false (onEngine fun x => { x with xb := x.xb.set (Fin.ofNat 4 k.toNat) imm }) s)

def execFlLoop (e : EngineId) (level : Bool) (count : Sample) (le : BitVec 14) (s : State) : Answer :=
  .next (issue e 2 false (startLoop level 2 count le) s)

/-- FMV: lines between local memory and the banks. `ecc` names words that show errors: of the banks where they are read, of
local memory where it is (R191, R194). -/
def execFlFmv (e : EngineId) (reg : BitVec 3) (k : BitVec 2) (toBanks : Bool) (lines : BitVec 7) (offset : BitVec 24) (ecc : List EccErr)
    (s : State) : Answer :=
  .next (issue e 2 false (fun s x =>
    let at_ := x.a[(Fin.ofNat 8 reg.toNat)].toNat % 32768
    let a := (xacAddr x k (offset.setWidth 32)).toNat
    let read := if toBanks then ecc.filter fun x => decide (at_ ≤ x.word) && decide (x.word < at_ + 16 * lines.toNat) else []
    match read.find? (·.double) with
    | some x => .trap 4 (x.word % 32768)
    | none =>
    if lines = 0 ∨ 64 < lines.toNat then illegal x
    else if at_ % 16 ≠ 0 ∨ a % 16 ≠ 0 ∨ a < sampleBase ∨ sampleEnd < a + 16 * lines.toNat then .trap 2 a
    else
      let op := FabOp.fmv at_ (a - sampleBase) toBanks lines.toNat ecc
      startFab op (s.countLocal e op.localErrors) x) s)

def execFlFatm (e : EngineId) (reg : BitVec 4) (k : BitVec 2) (swap : Bool) (old : BitVec 15) (offset : BitVec 24) (ecc : List EccErr)
    (s : State) : Answer :=
  .next (issue e 2 false (fun s x =>
    let a := (xacAddr x k (offset.setWidth 32)).toNat
    if a < sampleBase ∨ sampleEnd ≤ a then .trap 2 a
    else startFab (.fatm old.toNat (a - sampleBase) swap (x.d reg.toNat) ecc) s x) s)

def execFlXac (e : EngineId) (reg : BitVec 4) (k : BitVec 2) (read ac : Bool) (offset : Word) (s : State) : Answer :=
  .next (issue e 2 false (runXac e reg k read ac offset) s)

/-! Events. -/

/-- FABRIC_OP_COMPLETE: the k-th outstanding operation takes place (R194). -/
def execFabricOpComplete (e : EngineId) (k : Fin 4) (s : State) : Answer :=
  .next (
    match s.engines[e].fab[k.val]? with
    | none => s
    | some op => ((s.runFab e op).modEngine e fun x => { x with fab := x.fab.eraseIdx k.val }).unstall e)

/-- FLYER_WATCHDOG_EXPIRY (R207): at background level after 16 cycle starts that found the engine not halted, at
interrupt level while a handler runs. -/
def execFlyerWatchdogExpiry (e : EngineId) (handler : Bool) (s : State) : Answer :=
  .next (
    let x := s.engines[e]
    if !s.roles[e].inService || x.run = .debug then s
    else if handler then (if x.lvl then s.trap e 6 1 else s)
    else if 16 ≤ s.roles[e].busy then s.trap e 6 0
    else s)

end Sys2Proof.Machine
end

