-- ==== Sys2Proof/Machine/Power.lean ====
section
/-! DEFINITION. Power states of functions (R34, R35): which state a tolerance allows, waking, and entering a state. -/

namespace Sys2Proof.Machine

/-- The lowest state a function may take now (R34); a CAN controller that is not bus-on has no row there and stays in
RUN (log entry 41), and an exposure unit whose record is closed counts as idle (log entry 158). -/
def lowestState (s : State) (f : Half) : PwrState :=
  let n := fnInst f
  match fnClass f with
  | 1 => match fin? 17 n with
    | some e =>
      if s.roles[e].spare then .retain
      else if s.roles[e].slots.toList.any (fun o => o.isSome) then .run
      else if s.roles[e].program.isSome then .retain
      else .off
    | none => .run
  | 2 => match fin? 32 n with
    | some b => if s.mem.banks[b].pmode == 1 || s.mem.banks[b].pmode == 2 then .off else .retain
    | none => .run
  | 3 => match fin? 12 n with
    | some q => if (s.strandsOfQuad q).isEmpty then .off else .run
    | none => .run
  | 4 => match fin? 48 n with
    | some u => if (s.strandsOfFb u).isEmpty then .off else .run
    | none => .run
  | 5 => match fin? 8 n with
    | some x => if s.exps[x].st == .idle || s.exps[x].st == .closed then .off else .run
    | none => .run
  | 7 => .gate
  | 8 => .gate
  | _ => .run

/-- The wake time of a state in ns; a bank that clears on wake takes its clear time too (R34, R226). -/
def wakeNs (s : State) (f : Half) (st : PwrState) : Nat :=
  match st with
  | .run => 0
  | .gate => 50
  | .retain => 4000
  | .off =>
    match fnClass f, fin? 32 (fnInst f) with
    | 2, some b => if s.mem.banks[b].pmode == 2 then 105000 else 60000
    | _, _ => 60000

def pwrDepth : PwrState → Nat
  | .run => 0
  | .gate => 1
  | .retain => 2
  | .off => 3

/-- The deepest state a function's tolerance and row allow; the spare is held in RETAIN (R34). -/
def targetState (s : State) (f : Half) (tol : Nat) : PwrState :=
  let low := lowestState s f
  let spare := match fnClass f, fin? 17 (fnInst f) with
    | 1, some e => s.roles[e].spare
    | _, _ => false
  if spare then .retain
  else
    (([.off, .retain, .gate] : List PwrState).find? fun st =>
      decide (pwrDepth st ≤ pwrDepth low) && decide (wakeNs s f st ≤ tol)).getD .run

/-- A bank goes OFF: its contents are lost; a wake in mode 2 clears them (R226). -/
def bankOff (key : Nat) (b : BankId) (m : Mem) : Mem :=
  let c := m.banks[b]
  let lo := b.val * 131072
  let m := { m with
    cells := sclear (sclear m.cells (8 * lo) (8 * (lo + 131072))) (0x02000000 + lo) (0x02000000 + lo + 131072)
    poison := m.poison.filter fun g => decide (g < lo) || decide (lo + 131072 ≤ g) }
  m.modBank b fun _ => { c with lost := some key, built := [] }

/-- Local memory after OFF: open words (log entry 9). -/
def lostLocal (key : Nat) : List (Nat × Sample) :=
  ((List.range 32768).map fun a => (a, Config.lostWord key a)).filter fun e => e.2 != 0

/-- A function enters a state. -/
def State.enterPwr (s : State) (f : Half) (st : PwrState) : State :=
  let was := (pwrFn s.pwr f).map (·.st)
  let s := s.modPwr (modPwrFn f fun x => { x with st := st })
  if st = .off ∧ was ≠ some .off then
    match fnClass f, fin? 32 (fnInst f), fin? 17 (fnInst f) with
    | 2, some b, _ => (s.modMem (bankOff (s.key b) b)).tick
    | 1, _, some e => (s.modEngine e fun x => { x with local_ := lostLocal (s.key e) }).tick
    | _, _, _ => s
  else s

/-- POWER_STATE_ENTRY: a function takes the lowest state its tolerance allows (R34). -/
def execPowerStateEntry (function : Half) (s : State) : Answer :=
  .next (
    match pwrFn s.pwr function with
    | none => s
    | some x =>
      let t := targetState s function x.tol.toNat
      if pwrDepth x.st < pwrDepth t then s.enterPwr function t else s)

/-- An engine that holds a current ply keeps a tolerance of 0 whatever the host sets (R16). -/
def heldAtZero (s : State) (f : Half) : Bool :=
  match fnClass f, fin? 17 (fnInst f) with
  | 1, some e => s.roles[e].slots.toList.any fun o => o.isSome
  | _, _ => false

/-- SET_LATENCY_TOLERANCE (R34): a function whose wake time no longer fits is woken first. -/
def setTolerance (function : Half) (ns : Word) (s : State) : State :=
  match pwrFn s.pwr function with
  | none => s
  | some x =>
    let ns : Word := if heldAtZero s function then 0 else ns
    let s := s.modPwr (modPwrFn function fun x => { x with tol := ns })
    if pwrDepth (targetState s function ns.toNat) < pwrDepth x.st then
      (if decide (ns.toNat < wakeNs s function x.st) then s.wakeFn function else s)
    else s

def execSetLatencyTolerance (o : Origin) (function : Half) (ns : Word) (s : State) : Answer :=
  .next (runShort (.setLatencyTolerance o function ns) o (fun s => (setTolerance function ns s, stOk, [])) s)

end Sys2Proof.Machine
end

