-- ==== Sys2Proof/Machine/Memory.lean ====
section
/-! DEFINITION. The banks and the bobbin pool as commands and events reach them: BAR2 (R60), allocation and release
(R231 to R233), scrub and row repair (R229, R230), bank power (R226), staging buffers (R66), and the memory commands
of R72. -/

namespace Sys2Proof.Machine

/-! What one step of a long operation gives (R51). -/

inductive LongStep
  /-- it goes on: a phase of its own and its progress in per mille -/
  | goOn (s : State) (phase progress : Nat)
  /-- it ends with a status and its result bytes -/
  | ends (s : State) (st : Half) (res : List Byte)
  /-- it ends with OK, and its set became active in a cycle -/
  | endsAt (s : State) (cycle : BitVec 48)

/-- The bytes one step of a copying operation moves (R51 bounds a step by time; log entry 42). -/
def stepBytes : Nat := 4096

/-- Progress in per mille. -/
def perMille (done all : Nat) : Nat := if all = 0 then 0 else min 1000 (done * 1000 / all)

/-! Shared access. -/

/-- The first poisoned word that bytes `[lo, hi)` touch. -/
def firstPoison (m : Mem) (lo hi : Nat) : Option Nat := m.poison.find? fun g => decide (8 * g < hi) && decide (lo < 8 * g + 8)

/-- A byte-class request part by part, each within an aligned 16-byte pair, lower address first: one that meets port A's write or
merge in one of its words is discarded whole and counted (R222, R223). -/
def State.mergeParts : Nat → Nat → List Byte → List Nat → State → State
  | 0, _, _, _, s => s
  | k + 1, a, bs, portA, s =>
    let part := bs.take (16 - a % 16)
    let hit := portA.any fun g => decide (a / 8 ≤ g) && decide (8 * g < a + part.length)
    let s := s.modMem fun m =>
      if hit then
        match bankOf (a / 8) with
        | some b => m.modBank b fun c => { c with coll := satAdd 65535 c.coll 1 }
        | none => m
      else m.mergeBytes a part
    State.mergeParts k (a + (16 - a % 16)) (bs.drop (16 - a % 16)) portA s

/-- A byte-class write: its merges read their words first (R221); `portA` lists the words port A is writing meanwhile (R222,
log entry 187). -/
def State.mergeWrite (s : State) (a : Nat) (bs : List Byte) (ecc : List EccErr) (portA : List Nat) (who : Nat) : State :=
  let s := (s.wakeRange a (a + bs.length)).meetErrors ecc (a / 8) ((a + bs.length + 7) / 8) who
  if portA = [] then s.modMem fun m => m.mergeBytes a bs else State.mergeParts (bs.length / 16 + 2) a bs portA s

/-! BAR2 (R60, R222, R227). -/

/-- BAR2_ACCESS. Outside bench mode a read returns all ones and a write is discarded; both count. -/
def execBar2Access (offset : BitVec 25) (size : Nat) (write : Option (List Byte)) (portA : List Nat) (ecc : List EccErr) (s : State) : Answer :=
  .next (
    if !s.host.pcieUp then s
    else if !s.host.bench then
      let s := s.modHost fun h => { h with bar2Denied := satAdd 255 h.bar2Denied 1 }
      match write with
      | some _ => s
      | none => s.emit (.busRead (List.replicate size 0xFF) false)
    else
      let a := offset.toNat
      match write with
      | some bs => (s.mergeWrite a (bs.take (0x02000000 - a)) ecc portA reqHost).tick
      | none =>
        let n := min size (0x02000000 - a)
        let s := (s.wakeRange a (a + n)).meetErrors ecc (a / 8) ((a + n + 7) / 8) reqHost
        s.emit (.busRead (s.mem.readBytes a n) (firstPoison s.mem a (a + n)).isSome))

/-! The bobbin pool (R231 to R233). -/

/-- BOBBIN_ALLOCATE: the requester receives the index, or meets an empty pool in its own way; the distaff's own work asks once
and then waits for the release notice. -/
def execBobbinAllocate (requester : PoolUser) (s : State) : Answer :=
  .next (
    if !s.mem.poolEn then s
    else
      match requester, s.grab with
      | .own, (t, some i) => t.modMem fun m => { m with handed := m.handed ++ [(.own, i)], waiters := 0, notice := false }
      | u, (t, some i) => t.modMem fun m => { m with handed := m.handed ++ [(u, i)] }
      | .link, (_, none) => s.modMem fun m => { m with linkDrop := satAdd 255 m.linkDrop 1 }
      | .command, (_, none) => s
      | .own, (_, none) => s.modMem fun m => { m with waiters := 1 })

/-- BOBBIN_RELEASE (R232). -/
def execBobbinRelease (index : Sample) (s : State) : Answer :=
  .next (
    if !s.mem.poolEn then s
    else if s.mem.used.contains index.toNat then s.freeChain [index.toNat]
    else s.modMem fun m => m.release index.toNat)

/-- BNK_POOL_ENABLE: the distaff writes BNK_POOL_CFG with en set (R231, R234). -/
def execBnkPoolEnable (s : State) : Answer :=
  .next (s.modMem fun m => writePoolCfg (m.poolBase.toNat + m.poolCount.toNat * 2 ^ 15 + 2 ^ 31) m)

/-- BNK_POOL_CNT_CLEAR. -/
def execBnkPoolCntClear (s : State) : Answer := .next (s.writeReg 0x80502004 0x80000000)

/-! Counters of the banks (R234). -/

def execBnkErrClear (bank : BankId) (value : Word) (s : State) : Answer := .next (s.modMem fun m => m.modBank bank (clearBankErr value.toNat))

def execBnkCollCntClear (bank : BankId) (s : State) : Answer := .next (s.modMem fun m => m.modBank bank fun c => { c with coll := 0 })

/-! Scrub and row repair (R229, R230). -/

/-- Switch a row to a spare. -/
def switchRow (row : Nat) (c : BankCtl) : BankCtl := { c with rows := c.rows ++ [row] }

/-- The row map of a bank is written to the MRAM; R281 gives it no place (log entry 196). -/
def State.keepRows (s : State) (b : BankId) (row : Nat) : State := (s.logEvent 3 50 b row).mramWrite Config.rowMapAt 1

/-- The rows a scrub pass wants repaired: a word corrected in two successive passes, or a poisoned word (R230). A row
that is on a spare already is left (log entry 43). -/
def rowsToRepair (m : Mem) (b : BankId) (fixed : List Nat) : List Nat :=
  let c := m.banks[b]
  let rowOf := fun (g : Nat) => g % 131072 / 256
  let twice := (fixed.filter fun g => c.lastFixed.contains g).map rowOf
  let bad := (m.poison.filter fun g => g / 131072 == b.val).map rowOf
  ((twice ++ bad).eraseDups).filter fun r => !c.rows.contains r

/-- SCRUB_PASS: every word of a bank in RUN is read, and corrected words are written back (R229). -/
def execScrubPass (bank : BankId) (ecc : List EccErr) (s : State) : Answer :=
  .next (
    let c := s.mem.banks[bank]
    if s.pwr.banks[bank].st ≠ .run ∨ c.pmode = 1 ∨ c.clearing = true then s
    else
      let lo := bank.val * 131072
      let mine := ecc.filter fun e => decide (lo ≤ e.word) && decide (e.word < lo + 131072)
      let s := s.meetErrors mine lo (lo + 131072) reqScrub
      let fixed := (mine.filter fun e => !e.double).map (·.word)
      let rows := (rowsToRepair s.mem bank fixed).take (64 - s.mem.banks[bank].spares)
      let s := s.modMem fun m => m.modBank bank fun c => { c with lastFixed := fixed }
      rows.foldl (fun s r => (s.modMem fun m => m.modBank bank fun c => { (switchRow r c) with spares := c.spares + 1 }).keepRows bank r) s)

/-- BANK_CLEAR_DONE: the clear on wake has ended (R226). -/
def execBankClearDone (bank : BankId) (s : State) : Answer :=
  .next (if s.mem.banks[bank].clearing then s.modMem fun m => m.modBank bank fun c => { c with clearing := false } else s)

/-- The checks of MEM_REPAIR as it starts. -/
def checkRepair (bank : Byte) (s : State) : Half := allowIf (s.mem.banks[(Fin.ofNat 32 bank.toNat)].spares < 64)

/-- MEM_REPAIR (R230): allocate a spare, copy, switch. The copy reads every word of the row; what it corrects goes corrected,
what is poisoned goes poisoned (R227). -/
def stepRepair (bank : Byte) (row : Half) (phase : Nat) (ecc : List EccErr) (s : State) : LongStep :=
  let b : BankId := Fin.ofNat 32 bank.toNat
  let c := s.mem.banks[b]
  if phase = 0 then
    if c.repairing.isSome then .goOn s 0 0
    else if 64 ≤ c.spares then .ends s stRefused []
    else .goOn ((s.wakeBank b).modMem fun m => m.modBank b fun c => { c with repairing := some row.toNat, spares := c.spares + 1 }) 1 0
  else if phase = 1 then
    let lo := b.val * 131072 + row.toNat * 256
    .goOn ((s.serveBank b).meetErrors ecc lo (lo + 256) reqRepair) 2 500
  else .ends ((s.modMem fun m => m.modBank b fun c => { (switchRow row.toNat c) with repairing := none }).keepRows b row.toNat) stOk []

/-- An aborted repair releases its spare (R75). -/
def abortRepair (bank : Byte) (phase : Nat) (s : State) : State :=
  if phase = 0 then s
  else s.modMem fun m => m.modBank (Fin.ofNat 32 bank.toNat) fun c => { c with repairing := none, spares := c.spares - 1 }

def execMemRepair (o : Origin) (bank : Byte) (row : Half) (s : State) : Answer :=
  .next (runLong (.memRepair o bank row) o (checkRepair bank) s)

/-! MEM_READ and MEM_WRITE (R65, R72, R227). -/

def execMemRead (o : Origin) (address : Word) (desc : Desc) (s : State) : Answer :=
  .next (runLong (.memRead o address desc) o (fun _ => stOk) s)

/-- One step of MEM_READ: whole words until the descriptor is full or the banks end; a poisoned word ends it with its
internal address. How the result lays out the number of words is open (log entry 6). -/
def stepMemRead (address : Word) (d : Desc) (phase : Nat) (busOk : Bool) (ecc : List EccErr) (s : State) : LongStep :=
  let a := address.toNat
  let all := min (d.len.toNat / 8 * 8) ((0x02000000 - a) / 8 * 8)
  let n := min stepBytes (all - phase)
  let at_ := a + phase
  let s := (s.wakeRange at_ (at_ + n)).meetErrors ecc (at_ / 8) ((at_ + n + 7) / 8) reqDistaff
  if busFails d busOk then .ends s stDmaFault []
  else
    match firstPoison s.mem at_ (at_ + n) with
    | some g =>
      let k := (8 * g - at_) / 8 * 8
      match writeDesc s d phase (s.mem.readBytes at_ k) with
      | .error st => .ends s st []
      | .ok s => .ends s stPoisoned (leBytes 4 (8 * g))
    | none =>
      match writeDesc s d phase (s.mem.readBytes at_ n) with
      | .error st => .ends s st []
      | .ok s => if phase + n = all then .ends s stOk (Config.layout 0x4003 [all / 8]) else .goOn s (phase + n) (perMille (phase + n) all)

def execMemWrite (o : Origin) (address : Word) (desc : Desc) (s : State) : Answer :=
  .next (runLong (.memWrite o address desc) o (fun s => allowIf s.host.bench) s)

def stepMemWrite (address : Word) (d : Desc) (phase : Nat) (ecc : List EccErr) (portA : List Nat) (s : State) : LongStep :=
  let all := d.len.toNat
  let n := min stepBytes (all - phase)
  let s := s.mergeWrite (address.toNat + phase) (slice (d.data.getD []) phase n) ecc portA reqDistaff
  if phase + n = all then .ends s stOk [] else .goOn s (phase + n) (perMille (phase + n) all)

/-! BANK_POWER (R226). -/

/-- The bank of a bobbin. -/
def bobbinBank (m : Mem) (i : Nat) : Nat := m.bobbinWord i / 131072

/-- The bobbins in use for strand and staging data: cam tables, the publication map, open staging buffers. -/
def usedBobbins (s : State) : List Nat :=
  s.mem.mapChain ++ s.mem.stages.flatMap (fun e => e.2.2) ++
    s.cams.toList.flatMap fun c => c.chainActive ++ c.chainShadow ++ c.chainNew

/-- Entries of the schedule in force, header included. -/
def schedEntries (x : Schedule) : Nat := (x.pubs.map (·.1) ++ x.slots.map (·.1)).foldl max 0 + 1

/-- Does a bank hold strand, schedule or staging data? -/
def bankInUse (s : State) (b : Nat) : Bool :=
  (usedBobbins s).any (fun i => bobbinBank s.mem i == b) ||
    (s.link.hasSched && decide (s.link.schedBase.toNat ≤ b) &&
      decide (b * 0x100000 < s.link.schedBase.toNat * 0x100000 + 32 * schedEntries s.link.sched))

def execBankPower (o : Origin) (bank mode : Byte) (s : State) : Answer :=
  .next (runShort (.bankPower o bank mode) o (fun s =>
    if bankInUse s bank.toNat then refuse s stRefused
    else (s.modMem fun m => m.modBank (Fin.ofNat 32 bank.toNat) fun c => { c with pmode := mode.truncate 2 }, stOk, [])) s)

/-! Staging buffers (R66). -/

/-- Open a staging buffer: all of its bobbins or none. -/
def openStage (len : Nat) (s : State) : CmdResult :=
  if 16 ≤ s.mem.stages.length then refuse s stRefused
  else if !s.mem.poolEn then refuse s stNoBobbin
  else
    match s.grabN ((len + 255) / 256) with
    | none => refuse s stNoBobbin
    | some (t, l) => (t.modMem fun m => { m with stages := m.stages ++ [(l.headD 0, len, l)] }, stOk, leBytes 4 (l.headD 0))

/-- Close a buffer and free its chain. -/
def State.closeStage (h : Nat) (s : State) : State :=
  match s.mem.stage h with
  | none => s
  | some (_, chain) => (s.freeChain chain).modMem fun m => { m with stages := m.stages.filter fun e => e.1 != h }

/-- A restart frees every buffer (R66). -/
def State.closeStages (s : State) : State := s.mem.stages.foldl (fun s e => s.closeStage e.1) s

/-- The bobbins that hold bytes `[off, off + n)` of a buffer. -/
def stagePart (chain : List Nat) (off n : Nat) : List Nat := (chain.drop (off / 256)).take ((off + n + 255) / 256 - off / 256)

def execStageOpen (o : Origin) (length : Word) (s : State) : Answer :=
  .next (runShort (.stageOpen o length) o (openStage length.toNat) s)

/-- Write into an open buffer, within its length. -/
def putStage (handle offset : Nat) (data : List Byte) (s : State) : CmdResult :=
  match s.mem.stage handle with
  | none => refuse s stBadArg
  | some (len, chain) =>
    if len < offset + data.length then refuse s stBadArg
    else ((s.wakeChain (stagePart chain offset data.length)).modMem fun m => stageWrite m chain offset data, stOk, [])

def execStageWrite (o : Origin) (handle offset : Word) (count zero : Half) (data : List Byte) (s : State) : Answer :=
  .next (runShort (.stageWrite o handle offset count zero data) o (putStage handle.toNat offset.toNat data) s)

def execStageClose (o : Origin) (handle : Word) (s : State) : Answer :=
  .next (runShort (.stageClose o handle) o (fun s =>
    match s.mem.stage handle.toNat with
    | none => refuse s stBadArg
    | some _ => (s.closeStage handle.toNat, stOk, [])) s)

/-- STAGE_READ: a poisoned word ends it with its address (R71). -/
def execStageRead (o : Origin) (handle offset : Word) (count : Half) (s : State) : Answer :=
  .next (runShort (.stageRead o handle offset count) o (fun s =>
    match s.mem.stage handle.toNat with
    | none => refuse s stBadArg
    | some (len, chain) =>
      if len < offset.toNat + count.toNat then refuse s stBadArg
      else
        let s := s.wakeChain (stagePart chain offset.toNat count.toNat)
        match stagePoison s.mem chain offset.toNat count.toNat with
        | some a => (s, stPoisoned, leBytes 4 a)
        | none => (s, stOk, stageRead s.mem chain offset.toNat count.toNat)) s)

end Sys2Proof.Machine
end

