-- ==== Sys2Proof/Machine/Exposure.lean ====
section
/-! DEFINITION. The exposure units (R317 to R325): configuration, trigger comparators, frames and segments, the record
and its states, and EXP_READ. Sampled values of sources that move between rows come with the events. -/

namespace Sys2Proof.Machine

/-! Slots (R320). -/

def ExpSlot.byte (k : ExpSlot) (i : Nat) : Nat := bits k.raw.toNat (8 * i + 7) (8 * i)
def ExpSlot.type (k : ExpSlot) : Nat := k.byte 0
def ExpSlot.chan (k : ExpSlot) : Nat := k.byte 1 % 8
def ExpSlot.neg (k : ExpSlot) : Bool := bit (k.byte 1) 7
def ExpSlot.outside (k : ExpSlot) : Bool := k.byte 2 == 1
def ExpSlot.thrA (k : ExpSlot) : Int := toSigned 18 (bits k.raw.toNat 49 32)
def ExpSlot.thrB (k : ExpSlot) : Int := toSigned 18 (bits k.raw.toNat 73 56)
def ExpSlot.hyst (k : ExpSlot) : Int := toSigned 18 (bits k.raw.toNat 97 80)
def ExpSlot.tMin (k : ExpSlot) : Nat := bits k.raw.toNat 159 128
def ExpSlot.tMax (k : ExpSlot) : Nat := bits k.raw.toNat 191 160

/-- A hysteresis comparator. -/
def comparator (neg : Bool) (thr hyst x : Int) (was : Bool) : Bool :=
  if neg then (if x ≤ thr then true else if thr + hyst < x then false else was)
  else (if thr ≤ x then true else if x < thr - hyst then false else was)

/-- Does a measured time meet the slot's qual (R320)? -/
def ExpSlot.meets (k : ExpSlot) (t : Nat) : Bool := (decide (k.tMin ≤ t) && decide (t ≤ k.tMax)) != k.outside

/-- A slot takes one sample: the comparators move, and the flag tells whether its condition is met in this sample. -/
def slotStep (x : Int) (k : ExpSlot) : ExpSlot × Bool :=
  let a := comparator k.neg k.thrA k.hyst x k.a
  let b := comparator k.neg k.thrB k.hyst x k.b
  let rose := a && !k.a
  let fell := k.a && !a
  let bRose := b && !k.b
  let high := if rose then 1 else if a then k.high + 1 else 0
  let bSeen := if rose then bRose else k.bSeen || bRose
  let done := !rose && k.fired
  let timeout := a && !done && decide (k.tMax ≤ high)
  let met := match k.type with
    | 1 => a
    | 2 => rose
    | 3 => fell && k.meets k.high
    | 4 => fell && !bSeen
    | 5 => timeout
    | 6 => bRose && a && k.meets (high - 1)
    | _ => false
  ({ k with a := a, b := b, high := high, bSeen := bSeen, fired := (done || timeout) && a }, met)

/-- The enabled channels in ascending order. -/
def Exp.channels (x : Exp) : List Nat := (List.range 8).filter fun c => x.chanEn.getLsbD c

/-- A channel's value in a sample of the enabled channels. -/
def Exp.chanValue (x : Exp) (smp : List Sample) (c : Nat) : Int := (smp.getD (x.channels.idxOf c) 0).toInt

/-- All slots take one sample; the mask names those whose condition is met. -/
def Exp.takeSample (x : Exp) (smp : List Sample) : Exp × BitVec 4 :=
  let r := x.slots.map fun k => slotStep (x.chanValue smp k.chan) k
  ({ x with slots := r.map (·.1) }, (r.mapIdx fun i e => (i, e.2)).foldl (fun (m : BitVec 4) e => setBit m e.1 e.2) 0)

/-- Several samples: the unit after them, the masks of all but the last ORed, and the mask of the last. -/
def Exp.takeSamples (x : Exp) : List (List Sample) → Exp × BitVec 4 × BitVec 4
  | [] => (x, 0, 0)
  | [s] => let (y, m) := x.takeSample s; (y, 0, m)
  | s :: r =>
    let (y, m) := x.takeSample s
    let (z, before, last) := y.takeSamples r
    (z, m ||| before, last)

/-- Are triggers taken now (R321)? -/
def Exp.listens (x : Exp) : Bool := x.armedFlag && !x.run.inHoldoff

/-! Configuration (R317, R318). -/

/-- Is a selector in the table, and does it name no disabled quad (R317)? -/
def selectorOk (s : State) (sel addr : Nat) : Bool :=
  let i := sel % 4096
  let quad := fun (q : Nat) => match fin? 12 q with
    | some q => quadEnabled s q
    | none => false
  let bank := decide (0x10000000 ≤ addr) && decide (addr < 0x11000000)
  if sel / 4096 = 8 then i == 0 && bank
  else addr == 0 &&
    match sel / 4096 with
    | 0 => i == 0
    | 1 => quad (i / 16) && decide (i % 16 < 12)
    | 2 => quad (i / 16) && decide (i % 16 < 12)
    | 3 => quad (i / 32) && decide (i % 32 < 24)
    | 4 => decide (i < 48)
    | 5 => decide (i < 48)
    | 6 =>
      if i < 0xC0 then i % 4 != 3
      else if i < 0xD0 then true
      else if i < 0xE8 then true
      else if 0xF0 ≤ i ∧ i < 0x108 then quad ((i - 0xF0) / 2)
      else if 0x110 ≤ i ∧ i < 0x140 then quad ((i - 0x110) / 4)
      else false
    | 7 => quad (i / 16) && decide (i % 16 < 12)
    | 9 => decide (i < 32)
    | 10 => decide (i < 32)
    | _ => false

/-- Words per frame (R319). -/
def frameWidth (k : Nat) (chanEn : Byte) : Nat :=
  let n := ((List.range 8).filter fun c => chanEn.getLsbD c).length
  if k = 0 then (n + 3) / 4 else n

/-- Is a slot in range (R318, R320)? -/
def slotOk (chanEn : Byte) (bs : List Byte) (k : ExpSlot) : Bool :=
  decide (k.type < 7) && (bits (k.byte 1) 6 3 == 0) && decide (k.byte 2 < 2) && (k.byte 3 == 0) && zeroBytes bs 13 16 &&
    (coef? bs 4).isSome && (coef? bs 7).isSome && (coef? bs 10).isSome && decide (0 ≤ k.hyst) && decide (k.tMin ≤ k.tMax) &&
    (k.type == 0 || chanEn.getLsbD k.chan) &&
    (!(k.type == 4 || k.type == 6) || (if k.neg then decide (k.thrB < k.thrA) else decide (k.thrA < k.thrB)))

/-- A slot as the descriptor gives it, comparators at rest. -/
def slotOfBytes (bs : List Byte) : ExpSlot := ⟨BitVec.ofNat 192 (leNat bs), false, false, 0, false, false⟩

/-- The unit an EXP_CONFIG descriptor describes, or nothing where a rule is broken. -/
def exp? (s : State) (bs : List Byte) : Option Exp :=
  let div := fieldU bs 0 4
  let k := fieldU bs 4 1
  let mode := fieldU bs 5 1
  let chanEn : Byte := BitVec.ofNat 8 (fieldU bs 6 1)
  let base := fieldU bs 8 4
  let size := fieldU bs 12 4
  let pre := fieldU bs 16 4
  let post := fieldU bs 20 4
  let holdoff := fieldU bs 24 4
  let sels := (List.range 8).map fun c => fieldU bs (32 + 8 * c) 2
  let addrs := (List.range 8).map fun c => fieldU bs (36 + 8 * c) 4
  let slotBytes := (List.range 4).map fun i => slice bs (96 + 24 * i) 24
  let slots := slotBytes.map slotOfBytes
  let ok := decide (bs.length = 192) && decide (1 ≤ div) && decide (div ≤ 65536) && decide (k ≤ 16) && decide (mode < 2) && chanEn != 0 &&
    zeroBytes bs 7 8 && decide (base % 64 = 0) && decide (4096 ≤ size) && decide (size ≤ 1048576) && decide (size % 64 = 0) &&
    decide (base + size ≤ wordCount) && (if mode = 1 then post == 0 else decide (1 ≤ post)) && decide (holdoff < 2 ^ 24) && zeroBytes bs 28 32 &&
    (List.range 8).all (fun c => zeroBytes bs (34 + 8 * c) (36 + 8 * c) && selectorOk s (sels.getD c 0) (addrs.getD c 0) &&
      (!(chanEn.getLsbD c) || sels.getD c 0 / 4096 != 0)) &&
    (List.zipWith (slotOk chanEn) slotBytes slots).all id &&
    (mode == 1 || decide ((pre + post) * frameWidth k chanEn * 257 + 64 * 256 ≤ size * 256))
  if ok then some { Exp.reset with
    configured := true, div := div, k := k, stream := mode == 1, chanEn := chanEn, base := base, size := size, pre := pre, post := post
    holdoff := holdoff, srcs := sels.map (BitVec.ofNat 16), addrs := addrs.map fun a => BitVec.ofNat 32 (a % 2 ^ 24), slots := slots }
  else none

def expIx (u : Byte) : ExpId := Fin.ofNat 8 u.toNat

/-- Is the unit armed in the sense of R72: from EXP_ARM to the close? -/
def Exp.busy (x : Exp) : Bool := x.st == .filling || x.st == .armed || x.st == .post

def overlaps (a n b m : Nat) : Bool := decide (a < b + m) && decide (b < a + n) && n != 0 && m != 0

/-- Does an area touch the pool, the receive areas, the schedule or another unit's area (R318)? -/
def areaTaken (s : State) (u : ExpId) (base size : Nat) : Bool :=
  (s.mem.poolEn && overlaps base size (s.mem.bobbinWord 0) (32 * s.mem.poolSize)) ||
  overlaps base size (areaBase s.link false) (2 * areaUnits s.link * 18432) ||
  (s.link.hasSched && overlaps base size (s.link.schedBase.toNat * 131072) (4 * schedEntries s.link.sched)) ||
  (List.finRange 8).any fun v => decide (v ≠ u) && s.exps[v].configured && overlaps base size s.exps[v].base s.exps[v].size

/-- The stream watermark: unread words / 128 (R325). -/
def State.expLevel (s : State) (u : ExpId) : State :=
  s.setLevel (Fin.ofNat 25 (16 + u.val)) (if s.exps[u].stream then s.exps[u].unread / 128 else 0)

/-- EXP_CONFIG: a watermark of three quarters of the allocation, rounded down, goes with an area (log entries 45 and 207). -/
def execExpConfig (o : Origin) (unit : Byte) (desc : Desc) (s : State) : Answer :=
  .next (runShortIn (.expConfig o unit desc) o desc (fun bs s =>
    let u := expIx unit
    match exp? s bs with
    | none => refuse s stBadArg
    | some x =>
      if s.exps[u].busy || areaTaken s u x.base x.size then refuse s stRefused
      else
        let s := s.modExp u fun _ => x
        let src : Fin 25 := Fin.ofNat 25 (16 + u.val)
        let s := s.modHost fun h => { h with wm := modAt h.wm src fun w => { w with mark := x.size / 128 * 3 / 4 } }
        (s.expLevel u, stOk, [])) s)

/-! Segments (R323). -/

/-- A header word. -/
def segHeader (kind flags info : Nat) (stamp : Word) : Word72 := BitVec.ofNat 72 (pack [nw kind 4, nw flags 4, nw info 24, nw stamp.toNat 32])

/-- In single mode the ring overwrites the oldest segments. -/
def dropOld (size unread need : Nat) : List (Nat × Nat) → List (Nat × Nat) × Nat
  | [] => ([], unread)
  | (o, n) :: r => if unread + need ≤ size then ((o, n) :: r, unread) else dropOld size (unread - n) need r

/-- Words into the area, `off` words after the ring's write offset: whole-word, sample-class writes (R324). In single mode the oldest
segments make room for what the open segment holds by then. -/
def State.putWords (s : State) (u : ExpId) (off : Nat) (words : List Word72) : State :=
  let x := s.exps[u]
  let (segs, unread) := if x.stream then (x.run.segs, x.unread) else dropOld x.size x.unread (off + words.length) x.run.segs
  ((s.wakeRange (8 * x.base) (8 * (x.base + x.size))).modMem fun m =>
    (words.mapIdx fun j w => (j, w)).foldl (fun (m : Mem) e => m.writeWord (x.base + (x.wr + off + e.1) % max 1 x.size) e.2) m).modExp u fun x =>
      { x with unread := unread, rd := if segs.length = x.run.segs.length then x.rd else ((segs.head?).map (·.1)).getD x.wr, run := { x.run with segs := segs } }

/-- Write the header of a segment whose `n` further words stand already, and advance past it (R323). -/
def State.writeSeg (s : State) (u : ExpId) (header : Word72) (n : Nat) : State :=
  let s := s.putWords u 0 [header]
  (s.modExp u fun x =>
    let segs := x.run.segs ++ [(x.wr, n + 1)]
    { x with
      wr := (x.wr + n + 1) % max 1 x.size, unread := x.unread + n + 1, rd := ((segs.head?).map (·.1)).getD 0
      run := { x.run with segs := segs, lostFlag := false } }).expLevel u

/-- The flags of a segment's header: poisoned, and trig_lost. -/
def segFlags (x : Exp) (bad : Bool) : Nat := b2n bad + 2 * b2n x.run.lostFlag

/-- Close the open data segment. -/
def State.closeSeg (s : State) (u : ExpId) : State :=
  let x := s.exps[u]
  if x.run.frames.isEmpty then s
  else
    (s.writeSeg u (segHeader 1 (segFlags x x.run.bad) x.run.frames.length x.run.stamp) x.run.frames.flatten.length).modExp u fun x => { x with
      run := { x.run with frames := [], bad := false } }

/-- A segment of one header word. -/
def State.writeMark (s : State) (u : ExpId) (kind info : Nat) (stamp : Word) : State :=
  s.writeSeg u (segHeader kind (segFlags s.exps[u] false) info stamp) 0

/-- The gap segments of a run of missing frames. -/
def gapParts (n : Nat) : List Nat := List.replicate (n / (2 ^ 24 - 1)) (2 ^ 24 - 1) ++ (if n % (2 ^ 24 - 1) = 0 then [] else [n % (2 ^ 24 - 1)])

/-- The k in use: a value above 16 acts as 16 (R326). -/
def Exp.rate (x : Exp) : Nat := min 16 x.k

/-- The frame period in ns. -/
def Exp.periodNs (x : Exp) : Nat := x.div * 2 ^ x.rate * 5

/-- Gap segments before the first stored frame after a drop (R324). -/
def State.writeGap (s : State) (u : ExpId) : State :=
  let x := s.exps[u]
  if x.run.gap = 0 then s
  else
    let s := s.closeSeg u
    let s := ((gapParts x.run.gap).foldl (fun (p : State × Word) n =>
      (p.1.writeMark u 2 n p.2, p.2 + BitVec.ofNat 32 (n * x.periodNs))) (s, x.run.gapStamp)).1
    s.modExp u fun x => { x with run := { x.run with gap := 0 } }

/-- Words of the area in use, the open segment's among them. -/
def Exp.used (x : Exp) : Nat :=
  x.unread + (if x.run.frames.isEmpty then 0 else 1 + x.run.frames.length * frameWidth x.rate x.chanEn)

/-- Has the area room for a frame, its header and two spare words (R324)? -/
def Exp.roomFor (x : Exp) : Bool :=
  !x.stream || decide (x.used + frameWidth x.rate x.chanEn + (if x.run.frames.isEmpty then 1 else 0) + 2 ≤ x.size)

/-! Frames (R319). -/

/-- The word of a channel's interval: first, minimum, maximum, rounded mean. -/
def intervalWord (k : Nat) (vs : List Int) : Word72 :=
  let sum := vs.foldl (· + ·) 0
  samplesWord ([vs.headD 0, vs.foldl min (vs.headD 0), vs.foldl max (vs.headD 0), roundShift sum k].map (BitVec.ofInt 18))

/-- The words of a frame. -/
def frameWords (x : Exp) (samples : List (List Sample)) : List Word72 :=
  let n := x.channels.length
  if x.rate = 0 then
    let v := samples.headD []
    (List.range ((n + 3) / 4)).map fun j => samplesWord ((v.drop (4 * j)).take 4)
  else (List.range n).map fun c => intervalWord x.rate (samples.map fun v => (v.getD c 0).toInt)

/-- The counts a frame moves, stored or dropped (R321, R322). -/
def Exp.frameGone (stored : Bool) (x : Exp) : Exp :=
  { x with run := { x.run with
      stored := x.run.stored + b2n stored, seen := 0
      postLeft := if x.st == .post then x.run.postLeft - 1 else x.run.postLeft
      holdLeft := x.run.holdLeft - 1 } }

/-- Is the word of a sample-view address poisoned? -/
def bankPoison (s : State) (a : Word) : Bool := s.mem.isPoisoned ((a.toNat - 0x10000000) / 4)

/-- A digital level as a sample (R317). -/
def digital (b : Bool) : Sample := if b then 0x1FFFF else 0

/-- Is a source a digital level? -/
def isDigital (sel : Nat) : Bool := sel / 4096 == 3 || sel / 4096 == 6 || sel / 4096 == 10

/-- The value a channel's source has now, where it changes only by rows of the table: a sinc3 sample, a feedback position or speed,
the level of a compare output, a gate enable or a gate-fault input after level selection, an active duty value, a bank sample, a
converter's latest result, a field input (R317). -/
def heldValue (s : State) (sel : Nat) (addr : Word) : Option Sample :=
  let i := sel % 4096
  let level := fun (b : Bool) => some (digital b)
  let fb : FbId := Fin.ofNat 48 i
  match sel / 4096 with
  | 1 => some s.quads[(Fin.ofNat 12 (i / 16))].data[(Fin.ofNat 12 (i % 16))]
  | 6 =>
    if 0xD0 ≤ i ∧ i < 0xE8 then level s.cmps[(Fin.ofNat 24 (i - 0xD0))].out
    else if 0xF0 ≤ i ∧ i < 0x108 then
      let q := s.quads[(Fin.ofNat 12 ((i - 0xF0) / 2))]
      level (if i % 2 = 0 then q.gateA else q.gateB)
    else if 0x110 ≤ i ∧ i < 0x140 then
      let q := s.quads[(Fin.ofNat 12 ((i - 0x110) / 4))]
      level (q.gfPin.getLsbD (i % 4) == q.cfg.gfLevel.getLsbD (i % 4))
    else none
  | 4 => some (BitVec.ofInt 18 (piOf (s.key i) s.fbs[fb]))
  | 5 => some (BitVec.ofInt 18 (fbSpeed (s.key i) s.fbs[fb] / 2 ^ 14))
  | 7 => some (s.quads[(Fin.ofNat 12 (i / 16))].duty[(Fin.ofNat 12 (i % 16))].extractLsb' 6 18)
  | 8 => some (if bankPoison s addr then 0 else s.mem.sample (addr.toNat - 0x10000000))
  | 10 => level (s.fio.inputs.getLsbD i)
  | 9 => some (if i < 16 then s.fio.x else s.fio.y).results[(Fin.ofNat 17 (i % 16))].value
  | _ => none

/-- The samples of a row: the last one, which is taken now, shows the sources the state holds, and a digital source has one of its two
values in each (log entry 192). -/
def State.heldIn (s : State) (u : ExpId) (samples : List (List Sample)) : List (List Sample) :=
  let x := s.exps[u]
  let sel := fun (c : Nat) => (x.srcs.getD c 0).toNat
  let given := fun (v : List Sample) => x.channels.mapIdx fun n c => if isDigital (sel c) then digital (v.getD n 0 != 0) else v.getD n 0
  samples.dropLast.map given ++ samples.getLast?.toList.map fun v =>
    x.channels.mapIdx fun n c => (heldValue s (sel c) (x.addrs.getD c 0)).getD ((given v).getD n 0)

/-- Does a class-8 channel of the unit meet a poisoned word now (R317)? -/
def readsPoison (s : State) (x : Exp) : Bool :=
  x.channels.any fun c => (x.srcs.getD c 0).toNat / 4096 == 8 && bankPoison s (x.addrs.getD c 0)

/-- A frame's words reach the banks, after those of the open segment and before its header (R323). -/
def State.putFrame (s : State) (u : ExpId) (words : List Word72) : State := s.putWords u (1 + s.exps[u].run.frames.flatten.length) words

/-- EXP_FRAME: the comparators take the samples EXP_TRIGGER has not, and the frame is stored or dropped whole. A sample
that fires a trigger comes as EXP_TRIGGER first. -/
def execExpFrame (unit : ExpId) (samples : List (List Sample)) (stamp : Word) (room poison : Bool) (s : State) : Answer :=
  .next (
    let x := s.exps[unit]
    let samples := s.heldIn unit samples
    let poison := poison || readsPoison s x
    let stamp := s.pastStamp stamp
    let (y, before, last) := x.takeSamples (samples.drop x.run.seen)
    if !x.busy || decide (samples.length ≠ 2 ^ x.rate) || (x.listens && (before ||| last) != 0) then s
    else
      let s := s.modExp unit fun _ => { y with poisoned := y.poisoned || poison }
      if room && x.roomFor then
        let s := (s.writeGap unit).putFrame unit (frameWords x samples)
        let s := s.modExp unit fun x => { (x.frameGone true) with
          run := { (x.frameGone true).run with
            frames := x.run.frames ++ [frameWords x samples], stamp := if x.run.frames.isEmpty then stamp else x.run.stamp
            bad := x.run.bad || poison } }
        if 256 ≤ s.exps[unit].run.frames.length then s.closeSeg unit else s
      else s.modExp unit fun x => { (x.frameGone false) with
        dropped := satAdd (2 ^ 32 - 1) x.dropped 1
        run := { (x.frameGone false).run with
          gap := x.run.gap + 1, gapStamp := if x.run.gap = 0 then stamp else x.run.gapStamp } })

/-! Triggers and states (R321, R322). -/

/-- EXP_PRE_FILLED. -/
def execExpPreFilled (unit : ExpId) (s : State) : Answer :=
  .next (if s.exps[unit].st = .filling ∧ s.exps[unit].pre ≤ s.exps[unit].run.stored then s.modExp unit fun x => { x with st := .armed } else s)

/-- The lowest slot of a mask. -/
def lowestSlot (m : BitVec 4) : Option Nat := (List.range 4).find? fun i => m.getLsbD i

/-- EXP_TRIGGER: the samples of the present frame up to the trigger sample, which is the last. -/
def execExpTrigger (unit : ExpId) (samples : List (List Sample)) (stamp : Word) (s : State) : Answer :=
  .next (
    let x := s.exps[unit]
    let samples := s.heldIn unit samples
    let stamp := s.eventStamp stamp
    let (y, before, last) := x.takeSamples samples
    match lowestSlot last with
    | none => s
    | some w =>
      if !x.listens || before != 0 || decide (2 ^ x.rate < x.run.seen + samples.length) then s
      else
        let co := setBit last w false
        let second := decide (x.st = .post)
        let s := (s.modExp unit fun _ => { y with run := { y.run with seen := x.run.seen + samples.length } }).closeSeg unit
        let full := x.stream && decide (x.size < s.exps[unit].used + 1)
        let s := if full then s.modExp unit fun x => { x with trigLost := true, run := { x.run with lostFlag := true } }
          else s.writeMark unit 3 (pack [nw 0 8, nw w 2, nw co.toNat 4, bw second]) stamp
        (s.modExp unit fun x => { x with
          triggers := satAdd 65535 x.triggers 1, trigStamp := stamp, trigInfo := BitVec.ofNat 7 (pack [nw w 2, nw co.toNat 4, bw second])
          st := if x.st = .armed ∧ x.stream = false then .post else x.st
          run := { x.run with
            postLeft := if x.st = .armed then x.post else x.run.postLeft, inHoldoff := decide (0 < x.holdoff), holdLeft := x.holdoff } }).raise 16)

/-- EXP_HOLDOFF_END. -/
def execExpHoldoffEnd (unit : ExpId) (s : State) : Answer :=
  .next (if s.exps[unit].run.inHoldoff && s.exps[unit].run.holdLeft == 0 then
    s.modExp unit fun x => { x with run := { x.run with inHoldoff := false } } else s)

/-- The record closes with an end segment (R322, R323); in stream mode an area without room for it keeps what is unread (log entry
204). -/
def State.closeExp (s : State) (u : ExpId) (info : Nat) (stamp : Word) : State :=
  let s := s.closeSeg u
  let full := s.exps[u].stream && decide (s.exps[u].size < s.exps[u].used + 1)
  ((if full then s else s.writeMark u 4 info stamp).modExp u fun x => { x with st := .closed }).raise 16

/-- EXP_POST_COMPLETE. -/
def execExpPostComplete (unit : ExpId) (stamp : Word) (s : State) : Answer :=
  .next (if s.exps[unit].st = .post ∧ s.exps[unit].run.postLeft = 0 then s.closeExp unit 1 (s.eventStamp stamp) else s)

/-- EXP_ARM: a new record, in FILLING, or in ARMED at once where pre is 0. -/
def execExpArm (o : Origin) (unit : Byte) (s : State) : Answer :=
  .next (runShort (.expArm o unit) o (fun s =>
    let u := expIx unit
    if !s.exps[u].configured then refuse s stRefused
    else
      let s := s.wakeFn (BitVec.ofNat 16 (5 * 256 + u.val))
      ((s.modExp u fun x => { x with
        st := if x.pre = 0 then .armed else .filling, poisoned := false, trigLost := false, triggers := 0, wr := 0, rd := 0, unread := 0
        dropped := 0, run := ExpRun.reset
        slots := x.slots.map fun k => { k with a := false, b := false, high := 0, bSeen := false, fired := false } }).expLevel u, stOk, [])) s)

/-- EXP_DISARM: in FILLING, ARMED and POST the record closes. -/
def execExpDisarm (o : Origin) (unit : Byte) (s : State) : Answer :=
  .next (runShort (.expDisarm o unit) o (fun s =>
    (if s.exps[expIx unit].busy then s.closeExp (expIx unit) 2 s.stamp else s, stOk, [])) s)

/-! EXP_READ (R325). -/

/-- As many whole segments as fit. -/
def segsThatFit : Nat → List (Nat × Nat) → List (Nat × Nat)
  | _, [] => []
  | room, (o, n) :: r => if 9 * n ≤ room then (o, n) :: segsThatFit (room - 9 * n) r else []

/-- The words of a segment, by global number. -/
def segWords (x : Exp) (e : Nat × Nat) : List Nat := (List.range e.2).map fun j => x.base + (e.1 + j) % max 1 x.size

/-- The result bytes of EXP_READ. -/
def expReadResult (words segs : Nat) (x : Exp) : List Byte := leBytes 4 words ++ leBytes 4 segs ++ leBytes 1 (expStNum x.st) ++ leBytes 3 x.unread

def execExpRead (o : Origin) (unit : Byte) (desc : Desc) (s : State) : Answer :=
  .next (runLong (.expRead o unit desc) o (fun _ => stOk) s)

/-- EXP_READ in one step (log entry 42). In single mode before the close it copies nothing. -/
def stepExpRead (unit : Byte) (d : Desc) (busOk : Bool) (ecc : List EccErr) (s : State) : LongStep :=
  let u := expIx unit
  let x := s.exps[u]
  if x.stream = false ∧ x.st ≠ .closed then .ends s stOk (expReadResult 0 0 x)
  else if busFails d busOk then .ends s stDmaFault []
  else
    let segs := segsThatFit d.len.toNat x.run.segs
    let words := segs.flatMap (segWords x)
    let s := words.foldl (fun s g => s.meetErrors ecc g (g + 1) reqDistaff) (s.wakeRange (8 * x.base) (8 * (x.base + x.size)))
    let good := words.takeWhile fun g => !s.mem.isPoisoned g
    match writeDesc s d 0 (good.flatMap fun g => leBytes 9 (s.mem.word g).toNat) with
    | .error st => .ends s st []
    | .ok s =>
      match words[good.length]? with
      | some g => .ends s stPoisoned (leBytes 4 (8 * g))
      | none =>
        let s := (s.modExp u fun x =>
          let rest := x.run.segs.drop segs.length
          { x with rd := ((rest.head?).map (·.1)).getD x.wr, unread := x.unread - words.length, run := { x.run with segs := rest } }).expLevel u
        .ends s stOk (expReadResult words.length segs.length s.exps[u])

end Sys2Proof.Machine
end

