-- ==== Sys2Proof/Machine/Negative.lean ====
section
/-! DEFINITION. Negatives (R282 to R284): what one holds, the items a change writes into it at once, and a negative
applied as the device's configuration. -/

namespace Sys2Proof.Machine

/-- The stored safety part: a print's, until it is confirmed, else the one in force (R285). -/
def Safety.stored (q : Safety) : SafetyCfg × Option Password := q.printed.getD (q.cfg, q.password)

/-- The configuration of the device as a negative holds it (R282). -/
def negativeOf (s : State) : Negative where
  device := if s.link.numbered then some s.link.device else none
  masterPrio := s.link.masterPrio
  prio1 := s.time.td1.prio
  prio2 := s.time.td2.prio
  safety := s.saf.stored.1
  password := s.saf.stored.2
  strands := s.strands.toList.map (·.cfg)
  quads := s.quads.toList.map (·.cfg)
  choppers := s.quads.toList.flatMap fun q => q.choppers.toList
  stgs := s.stgs.toList.map (·.cfg)
  fbs := s.fbs.toList.map (·.cfg)
  probes := s.probes.toList.map (·.cfg)
  compares := s.cmps.toList.map (·.cfg)
  skeins := s.skeins.toList.map (·.cfg)
  pubmap := s.mem.pubmap
  subscriptions := s.host.subList
  watchdogMs := s.fio.wdgMs
  cans := s.cans.toList.map (·.cfg)
  programs := s.progs.toList
  cams := (List.finRange 64).map s.camActive

/-- A negative that holds items 1 and 2 alone, before the first NEGATIVE_SAVE. -/
def firstNegative (s : State) : Negative :=
  { negativeOf s with
    strands := [], quads := [], choppers := [], stgs := [], fbs := [], probes := [], compares := [], skeins := []
    pubmap := [], subscriptions := [], watchdogMs := 100, cans := [], programs := [], cams := [] }

/-- The MRAM place of the generation in force. -/
def negPlace (gen : Word) : Nat := 0x400000 + 0x200000 * (gen.toNat % 2)

/-- A negative goes to the ring neighbours (R282); a frame of the model stands for all its bulk segments (log entry 200). -/
def State.sendCopies (s : State) (n : Negative) : State :=
  [Port.s, Port.z].foldl (fun s p =>
    if (s.port p).ready && (s.port p).nbrValid then s.sendBody (s.port p).nbrDevice kindBulk [] (.negative s.link.device n) else s) s

/-- A neighbour's negative is kept, in the copy of its port (R281, R282). -/
def State.keepCopy (s : State) (device : BitVec 14) (n : Negative) : State :=
  if (s.port .s).nbrValid && (s.port .s).nbrDevice == device then (s.modRec fun r => { r with nbrS := some n }).mramWrite 0x800000 0x200000
  else if (s.port .z).nbrValid && (s.port .z).nbrDevice == device then (s.modRec fun r => { r with nbrZ := some n }).mramWrite 0xA00000 0x200000
  else s

/-- A record of a device among those kept. -/
def keepRecord (r : NegRecord) (l : List NegRecord) : List NegRecord := l.filter (fun x => x.device != r.device) ++ [r]

/-- Every device keeps every record, 64 bytes each (R281, R283). -/
def State.keepRec (s : State) (r : NegRecord) : State :=
  (s.modRec fun c => { c with records := keepRecord r c.records }).mramWrite (0xD00000 + 64 * r.device.toNat) 64

/-- Items 1 and 2 go into the negative, and to the ring neighbours, as soon as they change (R282). -/
def State.keepItems (s : State) : State :=
  let n := s.rec_.negative.getD (firstNegative s)
  let n := { n with
    device := if s.link.numbered then some s.link.device else none, masterPrio := s.link.masterPrio, prio1 := s.time.td1.prio, prio2 := s.time.td2.prio
    safety := s.saf.stored.1, password := s.saf.stored.2 }
  ((s.modRec fun r => { r with negative := some n }).mramWrite (negPlace s.rec_.negGen) 4096).sendCopies n

/-! The size of a negative (R281, R282). -/

/-- Bytes of a cam buffer, as its descriptor form has them. -/
def camSize : Option CamBuf → Nat
  | none => 0
  | some c => 32 + 8 * c.points.length

/-- Bytes of a stored program: code words of 36 bits and samples of 18, byte-aligned. -/
def progSize : Option FlyerImage → Nat
  | none => 0
  | some p => 5 * p.code.length + 3 * p.data.length + 2 * p.entries.length

/-- Leave out items from the end of a list until the rest fits: the list, and how many went. -/
def leaveOut {α : Type} (size : Option α → Nat) (room : Nat) : List (Option α) → List (Option α) × Nat
  | [] => ([], 0)
  | x :: r =>
    if ((x :: r).map size).foldl (· + ·) 0 ≤ room then (x :: r, 0)
    else if size x ≤ room then
      let q := leaveOut size (room - size x) r
      (x :: q.1, q.2)
    else ((x :: r).map fun _ => none, ((x :: r).filter (·.isSome)).length)

/-- The bytes of items 1 to 5, from their elements. -/
def fixedSize (n : Negative) : Nat :=
  ([1, 1, n.strands.length, n.quads.length, n.choppers.length, n.stgs.length, n.fbs.length, n.probes.length, (n.compares.filter (·.isSome)).length,
    (n.skeins.filter (·.isSome)).length, n.pubmap.length, n.subscriptions.length, n.cans.length].mapIdx fun i k => k * Config.itemBytes i).foldl (· + ·) 0

/-- The negative as it is saved: within 2 MiB, with the counts of cam tables and programs left out. -/
def fitNegative (n : Negative) : Negative × Nat × Nat :=
  let room := 0x200000 - fixedSize n
  let (ps, np) := leaveOut progSize room n.programs
  let used := (ps.map progSize).foldl (· + ·) 0
  let (cs, nc) := leaveOut camSize (room - used) n.cams
  ({ n with programs := ps, cams := cs }, nc, np)

/-! A CAN controller takes a configuration, from CAN_CONFIG or from a negative (R344, R345). -/

/-- Write bytes into a controller's area. -/
def State.canBytes (s : State) (c : CanId) (off : Nat) (bs : List Byte) : State :=
  let a := s.cans[c].cfg.base + off
  ((s.wakeFn (canFn c)).wakeRange a (a + bs.length)).modMem fun m => m.mergeBytes a bs

/-- The watermark source of a FIFO. -/
def fifoSrc (c : CanId) (second : Bool) : Fin 25 := Fin.ofNat 25 (8 + 2 * c.val + b2n second)

def State.fifoLevel (s : State) (c : CanId) : State :=
  (s.setLevel (fifoSrc c false) s.cans[c].fifo0.length).setLevel (fifoSrc c true) s.cans[c].fifo1.length

/-- A new configuration starts with empty storage (log entry 50), the filters kept, and with the default marks of its
FIFO sizes (log entry 45). -/
def takeCanCfg (c : CanCfg) (x : Can) : Can :=
  { x with
    cfg := c, fifo0 := [], fifo1 := [], pos0 := 0, pos1 := 0
    bufs := Vector.replicate 64 ⟨false, false, 0, false, ⟨⟨false, false, false, false, false, 0, 0, [], 0⟩, 0, 0, 0⟩⟩ }

/-- The 16 bytes of an acceptance rule (R347). -/
def ruleBytes (r : CanRule) : List Byte :=
  leBytes 4 r.a.toNat ++ leBytes 4 r.b.toNat ++ leBytes 1 r.test ++ leBytes 1 r.scope.toNat ++ leBytes 1 r.dest ++ leBytes 1 r.buffer ++ [0, 0, 0, 0]

/-- The rules as the area holds them: 512 of 16 bytes. -/
def State.storeRules (s : State) (c : CanId) : State :=
  let bs := s.cans[c].rules.flatMap ruleBytes
  s.canBytes c 0 (bs ++ List.replicate (8192 - bs.length) 0)

/-- CAN_CONFIG's effect: the configuration, the rules in the area, and the marks of FIFOs whose size changes, three quarters of it
rounded down (R57, log entry 207). -/
def State.configCan (s : State) (c : CanId) (g : CanCfg) : State :=
  let old := s.cans[c].cfg
  let s := (s.modCan c (takeCanCfg g)).storeRules c
  let mark := fun (s : State) (second : Bool) (n was : Nat) =>
    if n = was then s else s.modHost fun h => { h with wm := modAt h.wm (fifoSrc c second) fun w => { w with mark := n * 3 / 4 } }
  (mark (mark s false g.f0Size old.f0Size) true g.f1Size old.f1Size).fifoLevel c

/-! A subscription list against the cycle (R56). -/

/-- The time a subscription copy takes, in 1/100 ns (03_host_interface.md). -/
def copyTime (n : Nat) : Nat := 10000 + 125 * n

/-- A list that no longer fits after a change of T is cut, with a record (R56). -/
def State.cutSubs (s : State) : State :=
  let room := (s.tNs - 1000) * 100
  let fit := if room < 10000 then 0 else (room - 10000) / 125
  if s.host.subList.length ≤ fit then s
  else (s.modHost fun h => { h with subList := h.subList.take fit }).logEvent 9 1 0 fit

/-! Applying a negative (R284, 15_fault_recovery_service.md). -/

/-- Elements of a list over those of a vector; where the list ends the vector stands. -/
def overlay {α β : Type} {n : Nat} (v : Vector α n) (l : List β) (f : α → β → α) : Vector α n :=
  Vector.ofFn fun i : Fin n => match l[i.val]? with
    | some b => f v[i] b
    | none => v[i]

/-- Bobbins of a restored cam table: 32 points to a bobbin and one for the header (R113). -/
def camChain : Option CamBuf → Nat
  | none => 0
  | some c => (c.points.length + 31) / 32 + 1

/-- One cam table takes its buffer back, where the pool has the bobbins. -/
def State.restoreCam (s : State) (i : Fin 64) (c : Option CamBuf) : State :=
  match c, s.grabN (camChain c) with
  | some b, some (s, l) => (s.modMem fun m => m.putCam l b).modCam i fun t => { t with active := some b.head, chainActive := l }
  | _, _ => s

/-- The publication map takes its entries back: 32 to a bobbin (R126). -/
def State.restoreMap (s : State) (l : List (BitVec 24 × Sample)) : State :=
  match s.grabN ((l.length + 31) / 32) with
  | some (s, chain) => s.modMem fun m => ({ m with mapCount := l.length, mapChain := chain } : Mem).putEntries 0 l
  | none => s

/-- A strand of a negative takes its place, and leaves the one it had. -/
def State.seatFrom (was : State) (s : State) (i : StrandId) : State :=
  let old := was.strands[i].cfg.binding
  if s.strands[i].cfg.binding ≠ .unbound then (s.leaveCan i old).seat i old
  else if old ≠ .unbound then (s.leaveCan i old).placeSlot old .unbound
  else s

/-- The distaff takes a negative as the device's configuration: what a configuration command would set is set, strands take
their engines and slots, compare lists are active, and CAN controllers start with empty storage (log entry 188). -/
def State.applyNegative (s : State) (n : Negative) : State :=
  let was := s
  let s := s.modLink fun l => { l with
    device := n.device.getD l.device, numbered := n.device.isSome || l.numbered, masterPrio := n.masterPrio }
  let s := s.modTime fun t => { t with td1 := { t.td1 with prio := n.prio1 }, td2 := { t.td2 with prio := n.prio2 } }
  let s := { s with
    strands := overlay s.strands n.strands fun x c => { x with cfg := c, plan := none, stored := none, deferred := none }
    quads := overlay (overlay s.quads n.quads fun q c => { q with cfg := c, sh := c, carrierSet := q.carrierSet || c.run })
      ((List.range 12).map fun k => (n.choppers.drop (6 * k)).take 6) fun q l => { q with choppers := overlay q.choppers l fun _ c => c }
    stgs := overlay s.stgs n.stgs fun x c => { x with cfg := c, sh := c }
    fbs := overlay s.fbs n.fbs fun u c => if u.cfg.mode = c.mode ∧ u.cfg.invert = c.invert then { u with cfg := c, sh := c } else clearUnit u c
    probes := overlay s.probes n.probes fun p c => { p with cfg := c }
    skeins := overlay s.skeins n.skeins fun k g => { k with cfg := g }
    progs := overlay s.progs n.programs fun _ p => p }
  let s := s.modHost fun h => { h with subList := n.subscriptions }
  let s := s.modFio fun f => { f with wdgMs := n.watchdogMs }
  let s := if s.mem.poolEn then s else s.modMem fun m => writePoolCfg (m.poolBase.toNat + m.poolCount.toNat * 2 ^ 15 + 2 ^ 31) m
  let s := ((List.finRange 256).filter fun i => i.val < n.strands.length).foldl (State.seatFrom was) s
  let s := (List.finRange 24).foldl (fun s u => match n.compares.getD u.val none with
    | some c => s.modCmp u (takeList (piOf (s.key u) s.fbs[c.source]) c)
    | none => if u.val < n.compares.length then s.modCmp u fun x => { x with cfg := none, enable := false, idle := true } else s) s
  let s := (List.finRange 4).foldl (fun s c => match n.cans[c.val]? with
    | some g => if g = s.cans[c].cfg then s else s.configCan c g
    | none => s) s
  let s := s.restoreMap n.pubmap
  ((List.finRange 64).foldl (fun s i => s.restoreCam i (n.cams.getD i.val none)) s).cutSubs

end Sys2Proof.Machine
end

