-- ==== Sys2Proof/Machine/Safety.lean ====
section
/-! DEFINITION. The safety islands and the stop bath (R291 to R313): evaluation, gate enables, demands, SS1 timers,
discrepancies, pulse checks, faults and safelight, the password and the change log, and the safety commands. -/

namespace Sys2Proof.Machine

def otherIsle : Island → Island
  | .a => .b
  | .b => .a

/-! Functions (R296). -/

/-- The number of channels of a type. -/
def chanCount (type : Nat) : Nat := if type = 0 then 0 else if type = 4 then 4 else 2

/-- The demand level of a channel: high for the NO contact of type 3, low for an NC contact or an output; a contact of
type 4 is in demand in its released state, NC high and NO low. -/
def demandLevel (type c : Nat) : Bool := if type = 3 then c == 1 else if type = 4 then c % 2 == 0 else false

/-- The channels a function uses: those not faulted. -/
def usedChans (type : Nat) (chFault : BitVec 4) : BitVec 4 := BitVec.ofNat 4 (2 ^ chanCount type - 1) &&& ~~~chFault

/-- Is a contact of a two-hand control in its released state: a faulted one counts as the other contact of its button,
which the button then uses alone, and with both faulted as released (R304, R305)? -/
def FnState.contact (f : FnState) (c : Nat) : Bool :=
  let mate := if c % 2 = 0 then c + 1 else c - 1
  if !f.chFault.getLsbD c then f.chDemand.getLsbD c else f.chFault.getLsbD mate || f.chDemand.getLsbD mate

/-- Are all contacts of a two-hand control released, or all actuated? -/
def FnState.allReleased (f : FnState) : Bool := (List.range 4).all f.contact
def FnState.allActuated (f : FnState) : Bool := (List.range 4).all fun c => !f.contact c

/-- Is exactly one button fully actuated? -/
def FnState.oneButton (f : FnState) : Bool :=
  (!f.contact 0 && !f.contact 1) != (!f.contact 2 && !f.contact 3)

/-- Is a used channel in demand? -/
def FnState.anyDemand (type : Nat) (f : FnState) : Bool := f.chDemand &&& usedChans type f.chFault != 0

/-- Do the channels of a pair differ (R297)? -/
def FnState.differs (type : Nat) (f : FnState) : Bool :=
  let pair := fun (c : Nat) => !f.chFault.getLsbD c && !f.chFault.getLsbD (c + 1) && f.chDemand.getLsbD c != f.chDemand.getLsbD (c + 1)
  pair 0 || (type == 4 && pair 2)

/-- Do two views of a function differ in a channel that neither holds for faulted (R301)? -/
def FnState.disagrees (type : Nat) (a b : FnState) : Bool :=
  (a.chDemand ^^^ b.chDemand) &&& usedChans type (a.chFault ||| b.chFault) != 0

/-- A channel changes: the two-hand state and the clearing of a discrepancy go on (R296, R297). -/
def FnState.takeChan (type : Nat) (c : Fin 4) (demand : Bool) (f : FnState) : FnState :=
  let f := { f with chDemand := setBit f.chDemand c.val demand }
  let f := if type = 4 ∧ f.allReleased then { f with released := true, missed := false } else f
  let n := chanCount type
  if !f.discrepancy then f
  else if f.chDemand.toNat % 2 ^ n = 2 ^ n - 1 then { f with clearStep := 1 }
  else if f.chDemand.toNat % 2 ^ n = 0 ∧ f.clearStep = 1 then { f with clearStep := 2 }
  else f

/-- Does evaluation see a demand? A two-hand control is in demand until both buttons come together after a full
release. -/
def FnState.wants (type : Nat) (f : FnState) : Bool :=
  if type = 4 then !f.allActuated || f.missed || (f.demand && !f.released)
  else f.anyDemand type || usedChans type f.chFault == 0

/-! The stop bath (R298, R305). -/

/-- The conditions of an island that concern every quad. -/
def isleLive (s : State) (x : Island) : Bool :=
  let i := s.isle x
  i.eval && i.cfgOk && !i.writing && !i.failed && !i.common && s.saf.confirmed && s.rec_.calValid && !s.rec_.printing &&
    decide (s.pwr.dev ≠ .dormant)

/-- Does an island's evaluation hold its output of a quad high? -/
def genWanted (s : State) (x : Island) (q : QuadId) : Bool :=
  let i := s.isle x
  isleLive s x && quadEnabled s q && s.saf.cfg.quadMask.getLsbD q.val &&
    (List.finRange 4).all (fun (f : Fin 4) =>
      let c := s.saf.cfg.fns[f]
      c.type == 0 || !c.zone.getLsbD q.val || fnEnabled c i.fns[f] || (i.ss1[(Fin.ofNat 5 f.val)]).getLsbD q.val) &&
    (!i.limitOver || i.ss1[(4 : Fin 5)].getLsbD q.val)

/-- The outputs of an island by its own evaluation. -/
def genOf (s : State) (x : Island) : BitVec 12 :=
  (List.finRange 12).foldl (fun (v : BitVec 12) (q : QuadId) => setBit v q.val (genWanted s x q)) 0

/-- Evaluate both islands: a healthy island drives its outputs; a failed one holds what its peer has not released. The
strands of a quad that loses one enter SAFE at their next update (R90, R299). -/
def State.evaluate (s : State) : State :=
  let wa := genOf s .a
  let wb := genOf s .b
  let hold := fun (x : Island) (peer : BitVec 12) => (s.isle x).holdLatch &&& peer
  let fa := (s.isle .a).failed
  let fb := (s.isle .b).failed
  let common := (s.isle .a).common
  let ga := if fa then (if fb || common then 0 else hold .a wb) else wa
  let gb := if fb then (if fa || common then 0 else hold .b wa) else wb
  let s := s.modIsle .a fun i => { i with gen := ga, holdLatch := if fa then ga else i.holdLatch }
  let s := s.modIsle .b fun i => { i with gen := gb, holdLatch := if fb then gb else i.holdLatch }
  (List.finRange 12).foldl (fun s (q : QuadId) =>
    let a := ga.getLsbD q.val
    let b := gb.getLsbD q.val
    if s.quads[q].gateA = a ∧ s.quads[q].gateB = b then s
    else
      let s := s.modQuad q fun x => { x with gateA := a, gateB := b }
      if a && b then s else s.gatesFall q) s

/-! Faults and safelight (R304, R305). -/

/-- A record of class 6 and vector 12; `service` where the device has to be replaced (R288, R290, log entry 186). -/
def State.safetyEvent (s : State) (service : Bool) (cause inst detail : Nat) : State :=
  (s.logRec 6 cause inst detail [] (b2n service)).raise 12

/-- A common fault: STO on every quad. -/
def State.commonFault (s : State) (cause detail : Nat) : State :=
  (((s.modIsle .a fun i => { i with common := true }).modIsle .b fun i => { i with common := true }).safetyEvent true cause 0
    detail).evaluate

/-- Is the device in safelight? -/
def inSafelight (s : State) : Bool := (s.isle .a).safelight

/-- A fault starts safelight; with a limit of 0, or in safelight already, it is a common fault. `service` where it is an
island fault. -/
def State.safelightEntry (s : State) (service : Bool) (cause detail : Nat) : State :=
  let lim := s.saf.cfg.safelight
  if lim = 0 ∨ inSafelight s then s.commonFault cause detail
  else
    let on := fun (i : IslandState) => { i with safelight := true, remaining := lim, limitOver := i.limitOver && i.ss1[(4 : Fin 5)] != 0 }
    ((((s.modIsle .a on).modIsle .b on).modSaf fun q => { q with slNs := 0 }).safetyEvent service cause 0 detail).evaluate

/-- An island fails: its self-tests no longer stand, its outputs hold their level, and its peer evaluates alone (R28, R305). -/
def State.islandFault (s : State) (x : Island) (cause : Nat) : State :=
  if (s.isle x).failed then s
  else
    let s := s.modIsle x fun i => { i with failed := true, eval := false, holdLatch := i.gen }
    let s := s.modIsle (otherIsle x) fun i => { i with peerFailed := true }
    let s := (s.setReady (if x = .a then rdySafA else rdySafB) false).setReady rdySafety false
    s.safelightEntry true cause (isleIx x).val

/-- Mark a channel of a function faulted in one island's view (R292, R304). -/
def State.markChan (s : State) (x : Island) (f : Fin 4) (c : Nat) : State :=
  s.modIsle x fun i => { i with fns := modAt i.fns f fun g => { g with chFault := setBit g.chFault c true } }

/-- A fault of what supplies or joins channels is one of both views (log entry 47). -/
def State.markChans (s : State) (f : Fin 4) (c : Nat) : State := (s.markChan .a f c).markChan .b f c

/-- The configured channels an input feeds: at most one (R308). -/
def channelOf (c : SafetyCfg) (input : Nat) : Option (Fin 4 × Nat) :=
  ((List.finRange 4).filterMap fun f =>
    let g := c.fns[f]
    ((List.range (chanCount g.type)).find? fun k => g.inputs.getD k 255 == input).map fun k => (f, k)).head?

/-- The channels an output supplies. -/
def suppliedBy (c : SafetyCfg) (k : Nat) : List (Fin 4 × Nat) :=
  (List.finRange 4).flatMap fun f =>
    let g := c.fns[f]
    ((List.range (chanCount g.type)).filter fun j => g.supply.getD j 255 == k).map fun j => (f, j)

/-! Demands (R295, R299 to R301, R303). -/

/-- The strands of a quad take an SS1 request: acted on at their next update, by their state there (R300). -/
def State.requestSs1 (s : State) (zone : BitVec 12) : State :=
  (List.finRange 12).foldl (fun s (q : QuadId) =>
    if zone.getLsbD q.val then (s.strandsOfQuad q).foldl (fun s i => s.modStrand i fun x => { x with ss1 := true }) s else s) s

/-- A function's demand is over: automatic restart, or wait_reset (R303); a two-hand control needs a full release again (R296). -/
def endDemand (c : SafetyFn) (f : FnState) : FnState := { f with demand := false, waitReset := f.waitReset || !c.auto, released := false }

/-- A function takes up its channels in one island: a demand begins, with its SS1 timers where it was enabled, or ends
unless a timer still runs (R301). -/
def State.takeFn (s : State) (x : Island) (f : Fin 4) : State :=
  let c := s.saf.cfg.fns[f]
  let i := s.isle x
  let g := i.fns[f]
  let k : Fin 5 := Fin.ofNat 5 f.val
  if c.type = 0 then s
  else if g.wants c.type then
    if g.demand then s
    else
      let start := c.ss1 && fnEnabled c g
      let s := s.modIsle x fun i => { i with
        fns := modAt i.fns f fun g => { g with demand := true }
        ss1 := if start then modAt i.ss1 k fun v => v ||| c.zone else i.ss1 }
      (if start then s.requestSs1 c.zone else s).raise 12
  else if g.demand && i.ss1[k] == 0 then
    s.modIsle x fun i => { i with fns := modAt i.fns f (endDemand c) }
  else s

/-- One channel of a function goes to or from demand in an island's view. -/
def State.channelTo (s : State) (x : Island) (f ch : Fin 4) (demand : Bool) : State :=
  let c := s.saf.cfg.fns[f]
  if chanCount c.type ≤ ch.val then s
  else
    let lvl := demandLevel c.type ch.val == demand
    let s := s.modIsle x fun i => { i with
      level := setBit i.level (c.inputs.getD ch.val 0) lvl
      fns := modAt i.fns f (FnState.takeChan c.type ch demand) }
    if (s.isle x).eval then (s.takeFn x f).evaluate else s

/-- SAFETY_INPUT_DEMAND (R295). -/
def execSafetyInputDemand (island : Island) (fn ch : Fin 4) (s : State) : Answer := .next (s.channelTo island fn ch true)

/-- SAFETY_INPUT_REST (R295). -/
def execSafetyInputRest (island : Island) (fn ch : Fin 4) (s : State) : Answer := .next (s.channelTo island fn ch false)

/-- SS1_TIMER_EXPIRY (R300, R301): timer `fn` of a quad, 4 being that of the safelight limit. The outputs fall; with the
last timer of a function whose channels are at rest its demand ends. -/
def execSs1TimerExpiry (island : Island) (fn : Fin 5) (quad : QuadId) (s : State) : Answer :=
  .next (
    if !(s.isle island).ss1[fn].getLsbD quad.val then s
    else
      let s := (s.modIsle island fun i => { i with ss1 := modAt i.ss1 fn fun v => setBit v quad.val false }).evaluate.raise 12
      match fin? 4 fn.val with
      | none =>
        -- the limit's SS1 has ended in STO; with that safelight over, the quads may enable again (R301, R305)
        if (s.isle island).ss1[fn] == 0 && !((s.isle island).safelight && (s.isle island).remaining == 0) then
          (s.modIsle island fun i => { i with limitOver := false }).evaluate
        else s
      | some f =>
        let c := s.saf.cfg.fns[f]
        if (s.isle island).ss1[fn] == 0 && !(s.isle island).fns[f].wants c.type then
          (s.modIsle island fun i => { i with fns := modAt i.fns f (endDemand c) }).evaluate
        else s)

/-- DISCREPANCY_TIMEOUT (R297): two channels, or the two islands, have differed for t_disc. -/
def execDiscrepancyTimeout (island : Island) (fn : Fin 4) (s : State) : Answer :=
  .next (
    let t := s.saf.cfg.fns[fn].type
    let a := (s.isle island).fns[fn]
    let b := (s.isle (otherIsle island)).fns[fn]
    if t = 0 ∨ !((s.isle island).eval && (a.differs t || a.disagrees t b)) then s
    else
      let put := fun (i : IslandState) => { i with fns := modAt i.fns fn fun g => { g with discrepancy := true, clearStep := 0 } }
      let was := a.discrepancy
      let s := (s.modIsle .a put).modIsle .b put
      (if was then s else s.safetyEvent false 1 fn.val 0).evaluate)

/-- TWO_HAND_TIMEOUT (R296): 500 ms after one button the other is not actuated. -/
def execTwoHandTimeout (island : Island) (fn : Fin 4) (s : State) : Answer :=
  .next (
    if s.saf.cfg.fns[fn].type = 4 ∧ (s.isle island).fns[fn].oneButton ∧ (s.isle island).fns[fn].released then
      s.modIsle island fun i => { i with fns := modAt i.fns fn fun g => { g with missed := true, released := false } }
    else s)

/-! The islands begin to evaluate (R298, R303, R309). -/

/-- A function as an island first evaluates it: its channels by the present levels, with the faults found since its states were
cleared. -/
def freshFn (c : SafetyFn) (level : Byte) (faults : BitVec 4) : FnState :=
  let d := (List.range (chanCount c.type)).foldl (fun (v : BitVec 4) k =>
    setBit v k (level.getLsbD (c.inputs.getD k 0) == demandLevel c.type k)) 0
  let f := { FnState.reset with chDemand := d, chFault := faults, released := decide (c.type = 4) && d == 15 }
  { f with
    demand := c.type != 0 && (if c.type = 4 then true else f.wants c.type)
    waitReset := c.type != 0 && !c.auto }

/-- The configuration's CRC, computed over bytes 287:8. -/
def cfgCrc (bs : List Byte) : Word := crc32 (bs.drop 8)

/-- Does the stored configuration match its CRC? Both islands read the same bytes and compare their results (R298, log entry 193). -/
def cfgCrcOk (c : SafetyCfg) : Bool := c.bytes.isEmpty || decide (fieldU c.bytes 4 4 = (cfgCrc c.bytes).toNat)

/-- A full test-pulse period has passed: both islands have checked the configuration and evaluate. Under a configuration that
has stayed in force the functions go on from their states and faults (R309). The safety bit sets where both islands evaluate and
the calibration page is valid (R28, R40). -/
def State.beginEval (s : State) : State :=
  let keep := s.saf.resume
  let ok := cfgCrcOk s.saf.cfg
  let on := fun (i : IslandState) => { i with
    eval := !i.failed && ok, cfgOk := ok, writing := false
    fns := if keep then i.fns else Vector.ofFn fun f => freshFn s.saf.cfg.fns[f] i.level i.fns[f].chFault }
  let s := ((s.modIsle .a on).modIsle .b on).modSaf fun q => { q with settling := false, pulses := 0, resume := false }
  let s := if keep then (List.finRange 4).foldl (fun s f =>
      let s := if (s.isle .a).eval then s.takeFn .a f else s
      if (s.isle .b).eval then s.takeFn .b f else s) s
    else s
  (if s.rec_.calValid && (s.isle .a).eval && (s.isle .b).eval then s.setReady rdySafety true else s).evaluate

/-- Has an island passed its self-tests, or failed after that? -/
def State.isleUp (s : State) (x : Island) : Bool := s.isReady (if x = .a then rdySafA else rdySafB) || (s.isle x).failed

/-- TEST_PULSE_START (R293): the output goes low for 250 µs; when the same output comes round again a full period has passed. -/
def execTestPulseStart (k : Fin 4) (s : State) : Answer :=
  .next (
    if !s.isleUp (if k.val < 2 then .a else .b) then s
    else
      -- failures of the inputs this output supplies belong to the period that ends here
      let ins := (suppliedBy s.saf.cfg k.val).map fun e => s.saf.cfg.fns[e.1].inputs.getD e.2 0
      let s := s.modSaf fun q => { q with
        failedNow := ins.foldl (fun (v : Byte) n => setBit v n false) q.failedNow
        tpLow := q.tpLow.set k 250000
        xchkClear := if k = 0 then (if s.fio.xchk.fault then 0 else min 2 (q.xchkClear + 1)) else q.xchkClear }
      if !s.saf.settling then s
      else if s.saf.pulses.getLsbD k.val && s.isleUp .a && s.isleUp .b then s.beginEval
      else s.modSaf fun q => { q with pulses := setBit q.pulses k.val true })

/-! Pulse checks (R294). -/

/-- An input channel fault on a channel, by a check of one island. -/
def State.channelFault (s : State) (x : Island) (f : Fin 4) (c : Nat) (cause detail : Nat) : State :=
  let known := (s.isle x).fns[f].chFault.getLsbD c
  let s := s.markChan x f c
  let s := if (s.isle x).eval then s.takeFn x f else s
  if known then s.evaluate else s.safelightEntry false cause detail

/-- PULSE_CHECK: the input's answer to its own pulse. An open channel is not checked; one that has not come back counts
as opened. -/
def execPulseCheck (input : Fin 8) (response : PulseResponse) (s : State) : Answer :=
  .next (
    match channelOf s.saf.cfg input.val with
    | none => s
    | some (f, c) =>
      let k := s.saf.cfg.fns[f].supply.getD c 255
      let x : Island := if k < 2 then .a else .b
      if 4 ≤ k ∨ !(s.isle x).level.getLsbD input.val then s
      else if response.wentLow then
        if !response.returned then s
        else s.modSaf fun q => { q with
          absent := setBit q.absent input.val true, checked := setBit q.checked input.val (q.absent.getLsbD input.val) }
      else
        let mate := s.saf.cfg.fns[f].inputs.getD (if c % 2 = 0 then c + 1 else c - 1) 255
        let cross := decide (mate < 8) && s.saf.failedNow.getLsbD mate
        let s := s.modSaf fun q => { q with
          failedNow := setBit q.failedNow input.val true, absent := setBit q.absent input.val false
          checked := setBit q.checked input.val false }
        let s := s.modIsle x fun i => { i with pulseFault := setBit i.pulseFault input.val true }
        if cross then (s.markChans f c).commonFault 2 input.val else s.channelFault x f c 2 input.val)

/-- TP_READBACK_MISMATCH (R294): every channel the output supplies is faulted. -/
def execTpReadbackMismatch (k : Fin 4) (s : State) : Answer :=
  .next (
    let x : Island := if k.val < 2 then .a else .b
    let was := (s.isle x).tpFault.getLsbD k.val
    let s := s.modIsle x fun i => { i with tpFault := setBit i.tpFault k.val true }
    let chans := suppliedBy s.saf.cfg k.val
    let s := chans.foldl (fun (s : State) e =>
      let n := s.saf.cfg.fns[e.1].inputs.getD e.2 0
      let s := (s.markChans e.1 e.2).modSaf fun q => { q with absent := setBit q.absent n false, checked := setBit q.checked n false }
      let s := if (s.isle .a).eval then s.takeFn .a e.1 else s
      if (s.isle .b).eval then s.takeFn .b e.1 else s) s
    if was || chans.isEmpty then s.evaluate else s.safelightEntry false 3 k.val)

/-! Safelight's course (R305), and the islands' own tests (R306, R316). -/

def execSafelightMinute (s : State) : Answer :=
  .next (
    if !inSafelight s then s
    else
      let less := fun (i : IslandState) => { i with remaining := i.remaining - 60 }
      (((s.modIsle .a less).modIsle .b less).modSaf fun q => { q with slNs := 0 }).raise 12)

/-- SAFELIGHT_LIMIT_EXPIRY: the healthy islands run SS1 on every quad of quad_mask. -/
def execSafelightLimitExpiry (s : State) : Answer :=
  .next (
    if !inSafelight s || (s.isle .a).limitOver then s
    else
      let mask := s.saf.cfg.quadMask
      let ended := fun (i : IslandState) => { i with
        remaining := 0, limitOver := true, ss1 := if i.failed then i.ss1 else i.ss1.set 4 mask }
      (((s.modIsle .a ended).modIsle .b ended).requestSs1 mask).evaluate.safetyEvent false 4 0 0)

def execSwitchTest (island : Island) (_quad : QuadId) (pass : Bool) (s : State) : Answer :=
  .next (if pass then s else s.islandFault island 5)

def execCrossLinkSilent (failed : Island) (s : State) : Answer := .next (s.islandFault failed 6)

/-- ISLAND_SELF_TEST (R316). -/
def execIslandSelfTest (island : Island) (pass : Bool) (s : State) : Answer :=
  .next (if pass then s else s.islandFault island 7)

/-! Temperature (R383). -/

def execThermalWarning (die : Die) (tj : BitVec 11) (s : State) : Answer :=
  .next (
    match die with
    | .c => (s.modSaf fun q => { q with tjC := tj, warnC := true }).logEvent 7 10 0 tj.toNat
    | .f => (s.modSaf fun q => { q with tjF := tj, warnF := true }).logEvent 7 10 1 tj.toNat)

def execThermalTrip (die : Die) (tj : BitVec 11) (s : State) : Answer :=
  .next (
    match die with
    | .c => (s.modSaf fun q => { q with tjC := tj, tripC := true }).commonFault 8 0
    | .f => (s.modSaf fun q => { q with tjF := tj, tripF := true }).commonFault 8 1)

/-! The password and the change log (R310, R311). -/

/-- Password bytes without their padding. -/
def trimPassword (bs : List Byte) : List Byte := (bs.reverse.dropWhile (· == 0)).reverse

/-- SHA-256(salt ‖ password), byte 0 in bits 7:0. -/
def passwordHash (salt : BitVec 128) (bs : List Byte) : BitVec 256 :=
  BitVec.ofNat 256 (leNat (sha256 (bytesOf salt ++ trimPassword bs)))

/-- The stored bytes of the factory configuration (R298). -/
def factoryBytes : List Byte :=
  let body := List.replicate 8 (0 : Byte) ++ leBytes 2 20 ++ leBytes 2 0 ++ leBytes 2 10 ++ leBytes 2 0 ++ List.replicate 264 0
  leBytes 2 1 ++ leBytes 2 288 ++ leBytes 4 (crc32 body).toNat ++ body

/-- The 288 stored bytes of a configuration. -/
def storedBytes (c : SafetyCfg) : List Byte := if c.bytes.isEmpty then factoryBytes else c.bytes

def SafetyCfg.inForce (c : SafetyCfg) : Word := BitVec.ofNat 32 (fieldU (storedBytes c) 4 4)

/-- An entry of the change log. -/
def State.logChange (s : State) (kind : Nat) (o : Origin) (user : BitVec 64) : State :=
  let crc := SafetyCfg.inForce s.saf.cfg
  (s.mramWrite (0xE02000 + 32 * (s.saf.logNext.toNat % 256)) 32).modSaf fun q =>
    let l := q.log ++ [⟨q.logNext, s.stamp, s.seq.cycle, BitVec.ofNat 8 kind, BitVec.ofNat 8 o.mb.val, user, crc,
      match o.remote with
      | some (d, _) => d.setWidth 16
      | none => 0xFFFF⟩]
    { q with log := l.drop (l.length - 256), logNext := q.logNext + 1 }

/-- One check against a stored password: only a check of a given password against a stored one counts (R310). -/
def State.checkAgainst (s : State) (stored : Option Password) (o : Origin) (user : BitVec 64) (given : List Byte) : State × Bool :=
  match stored with
  | none => (s, false)
  | some p =>
    if s.saf.lockout then (s, false)
    else if passwordHash p.salt given = p.hash then (s.modSaf fun q => { q with failures := 0 }, true)
    else if 5 ≤ s.saf.failures + 1 then ((s.modSaf fun q => { q with failures := 0, lockout := true }).logChange 4 o user, false)
    else (s.modSaf fun q => { q with failures := q.failures + 1 }, false)

/-- One check against the device's password. -/
def State.checkPassword (s : State) (o : Origin) (user : BitVec 64) (given : List Byte) : State × Bool :=
  s.checkAgainst s.saf.password o user given

def execPasswordLockoutEnd (s : State) : Answer := .next (s.modSaf fun q => { q with lockout := false })

/-! Configuration (R307, R308). -/

/-- The checks of one function's bytes, each with the offset it names. -/
def fnChecks (bs : List Byte) (mask : Nat) (f : Nat) : List (Nat × Bool) :=
  let b := 32 + 32 * f
  let u := fun (k n : Nat) => fieldU bs (b + k) n
  let type := u 0 1
  let n := chanCount type
  let used := fun (g c : Nat) => decide (c < chanCount (fieldU bs (32 + 32 * g) 1))
  let res := (3 :: (List.range 12).map (20 + ·)).map fun k => (b + k, u k 1 == 0)
  if type = 0 then res
  else
    [(b, decide (type ≤ 5)), (b + 1, decide (u 1 1 < 2)), (b + 2, decide (u 2 1 < 2) && (type != 4 || u 2 1 == 1))] ++ res ++
    (List.range 4).flatMap (fun c =>
      let inp := u (4 + c) 1
      let sup := u (8 + c) 1
      let seen := (List.range 4).any fun g => (List.range 4).any fun d =>
        decide (4 * g + d < 4 * f + c) && used g d && fieldU bs (32 + 32 * g + 4 + d) 1 == inp
      if c < n then
        [(b + 4 + c, decide (inp < 8) && !seen),
         (b + 8 + c, if type = 5 then sup == 255 else decide (sup < 4) && (c % 2 == 0 || u (8 + c - 1) 1 / 2 != sup / 2))]
      else [(b + 4 + c, inp == 255), (b + 8 + c, decide (sup < 4) || sup == 255)]) ++
    [(b + 12, decide ((if type = 5 then 11 else 5) ≤ u 12 2) && decide (u 12 2 ≤ 200)),
     (b + 14, decide (10 ≤ u 14 2) && decide (u 14 2 ≤ 500)),
     (b + 16, (u 16 1) &&& (mask % 256) == u 16 1), (b + 17, (u 17 1) &&& (mask / 256) == u 17 1),
     (b + 18, if u 1 1 = 0 then u 18 2 == 0 else decide (10 ≤ u 18 2) && decide (u 18 2 ≤ 10000))]

/-- The offset of the first offending byte of a descriptor, where there is one (R308). -/
def safetyBad (bs : List Byte) : Option Nat :=
  if bs.length ≠ 288 then some 2
  else
    let mask := fieldU bs 22 2
    let checks : List (Nat × Bool) :=
      [(0, fieldU bs 0 2 == 1), (2, fieldU bs 2 2 == 288), (4, fieldU bs 4 4 == (cfgCrc bs).toNat),
       (16, decide (10 ≤ fieldU bs 16 2) && decide (fieldU bs 16 2 ≤ 500)), (18, decide (fieldU bs 18 2 ≤ 3600)),
       (20, decide (10 ≤ fieldU bs 20 2) && decide (fieldU bs 20 2 ≤ 10000)), (23, decide (mask < 4096)), (24, decide (fieldU bs 24 1 ≤ 2))] ++
      (List.range 7).map (fun k => (25 + k, fieldU bs (25 + k) 1 == 0)) ++ (List.range 4).flatMap (fnChecks bs mask)
    ((checks.filter fun e => !e.2).map (·.1)).foldl (fun (m : Option Nat) n => some (match m with
      | some k => min k n
      | none => n)) none

def safetyFn (bs : List Byte) (f : Nat) : SafetyFn :=
  let u := fun (k n : Nat) => fieldU bs (32 + 32 * f + k) n
  ⟨u 0 1, u 1 1 == 1, u 2 1 == 1, (List.range 4).map fun c => u (4 + c) 1, (List.range 4).map fun c => u (8 + c) 1, u 12 2, u 14 2,
    BitVec.ofNat 12 (u 16 2), u 18 2⟩

/-- A valid descriptor, decoded. -/
def safetyCfgOf (bs : List Byte) : SafetyCfg :=
  ⟨bs, BitVec.ofNat 32 (fieldU bs 4 4), BitVec.ofNat 64 (fieldU bs 8 8), fieldU bs 16 2, fieldU bs 18 2, fieldU bs 20 2,
    BitVec.ofNat 12 (fieldU bs 22 2), fieldU bs 24 1, Vector.ofFn fun (f : Fin 4) => safetyFn bs f.val,
    (List.range 4).map fun k => BitVec.ofNat 256 (fieldU bs (160 + 32 * k) 32)⟩

/-! The commands. -/

/-- Is any strand in RUN, HOLD or STOPPING? -/
def anyMoving (s : State) : Bool := s.strandsWhere (fun x => x.within [.run, .hold, .stopping]) != []

/-- Both islands stop evaluating until a full test-pulse period has passed; `resume` where the configuration stays and the
functions have begun under it. -/
def State.settle (s : State) (resume : Bool) : State :=
  let off := fun (i : IslandState) => { i with eval := false, writing := i.writing && !resume }
  ((((s.modIsle .a off).modIsle .b off).modSaf fun q => { q with
    settling := true, pulses := 0, resume := resume && (!q.settling || q.resume) }).setReady rdySafety false).evaluate

/-- Step 7 of R309 on one island: what it latched under the previous configuration clears, but not common and island
faults. -/
def freshIsle (i : IslandState) : IslandState :=
  { i with
    fns := Vector.replicate 4 FnState.reset, pulseFault := 0, tpFault := 0, ss1 := Vector.replicate 5 0
    safelight := i.safelight && (i.failed || i.peerFailed || i.common)
    remaining := if i.failed || i.peerFailed || i.common then i.remaining else 0
    limitOver := i.limitOver && (i.failed || i.peerFailed || i.common) }

/-- SAFETY_WRITE's steps (R309). -/
def stepSafetyWrite (o : Origin) (password : Rec32) (d : Desc) (phase : Nat) (pass : Bool) (s : State) : LongStep :=
  let bs := d.data.getD []
  match phase with
  | 0 =>
    let (s, ok) := s.checkPassword o 0 (bytesOf password)
    if !ok then .ends s stAuthFail []
    else
      match safetyBad bs with
      | some k => .ends s stBadArg (leBytes 4 k)
      | none =>
        let w := fun (i : IslandState) => { i with writing := true }
        .goOn (((s.modIsle .a w).modIsle .b w).setReady rdySafety false).evaluate 1 100
  | 1 => if pass then .goOn s 2 300 else .ends (s.settle true) stVerifyFail []
  | 2 =>
    let c := safetyCfgOf bs
    let s := (s.modSaf fun q => { q with
      cfg := c, printed := none, confirmed := true, xchkFault := false, failedNow := 0, absent := 0, checked := 0 }).logChange 1 o c.user
    let s := (s.mramWrite 0xE01000 4096).keepItems
    let s := s.modFio fun f => { f with xchk := { f.xchk with safety := false } }
    .goOn (((s.modIsle .a freshIsle).modIsle .b freshIsle).settle false) 3 500
  | _ => if s.saf.settling then .goOn s 3 500 else .ends s stOk []

/-- An abort (R309): before step 6 the previous configuration goes on after one test-pulse period, after it the islands run
step 7 by themselves. -/
def abortSafetyWrite (phase : Nat) (s : State) : State :=
  let quiet := fun (i : IslandState) => { i with writing := false }
  if phase = 1 ∨ phase = 2 then s.settle true else if 2 < phase then (s.modIsle .a quiet).modIsle .b quiet else s

/-- SAFETY_READ (R312): the stored part, which for a print is the one that waits (R314). -/
def execSafetyRead (o : Origin) (desc : Desc) (s : State) : Answer :=
  .next (runShort (.safetyRead o desc) o (fun s =>
    match writeDesc s desc 0 (storedBytes s.saf.stored.1 ++ List.replicate 48 0) with
    | .error st => refuse s st
    | .ok s => (s, stOk, leBytes 4 (readIsle s .a 0) ++ leBytes 4 (readIsle s .b 0) ++ leBytes 4 (readIsle s .a 4) ++
        leBytes 4 (SafetyCfg.inForce s.saf.stored.1).toNat ++ leBytes 2 (readIsle s .a 0xC))) s)

/-- The safety part of a print comes into force, as step 7 of R309 brings a written one; the islands check it before they evaluate
(R285, log entry 194). -/
def State.confirmPrint (s : State) : State :=
  (((s.modSaf fun q => { q with
    cfg := q.stored.1, password := q.stored.2, printed := none, confirmed := true, xchkFault := false, failedNow := 0, absent := 0
    checked := 0 }).modIsle .a freshIsle).modIsle .b freshIsle).settle false

/-- SAFETY_CONFIRM, with the password the waiting part holds (R285, R310). -/
def execSafetyConfirm (o : Origin) (password : Rec32) (user : BitVec 64) (s : State) : Answer :=
  .next (runShort (.safetyConfirm o password user) o (fun s =>
    if s.saf.confirmed then refuse s stRefused
    else
      let (s, ok) := s.checkAgainst s.saf.stored.2 o user (bytesOf password)
      if !ok then refuse s stAuthFail
      else ((s.confirmPrint.logChange 2 o user).keepItems, stOk, [])) s)

/-- SAFETY_PASSWORD (R310): the first password needs an all-zero old field. -/
def execSafetyPassword (o : Origin) (old new : BitVec 192) (user : BitVec 64) (salt : BitVec 128) (s : State) : Answer :=
  .next (runShort (.safetyPassword o old new user salt) o (fun s =>
    let put := fun (s : State) => ((s.modSaf fun q => { q with
      password := some ⟨salt, passwordHash salt (bytesOf new)⟩ }).keepItems.logChange 3 o user, stOk, ([] : List Byte))
    match s.saf.password with
    | none => if old = 0 then put s else refuse s stAuthFail
    | some _ =>
      let (s, ok) := s.checkPassword o user (bytesOf old)
      if ok then put s else refuse s stAuthFail) s)

/-- The 32 bytes of a change log entry. -/
def changeBytes (c : ChangeRec) : List Byte :=
  bytesOf c.seq ++ bytesOf c.stamp ++ bytesOf c.cycle ++ [c.kind, c.mailbox] ++ bytesOf c.user ++ bytesOf c.crc ++ bytesOf c.source ++ [0, 0]

/-- SAFETY_LOG_READ (R311): as many entries as the descriptor holds, oldest first. -/
def execSafetyLogRead (o : Origin) (desc : Desc) (s : State) : Answer :=
  .next (runShort (.safetyLogRead o desc) o (fun s =>
    let l := s.saf.log.take (desc.len.toNat / 32)
    match writeDesc s desc 0 (l.flatMap changeBytes) with
    | .error st => refuse s st
    | .ok s => (s, stOk, leBytes 2 l.length)) s)

/-- Does anything stand against a SAFETY_RESET (R303)? -/
def resetBlocked (s : State) : Bool :=
  let bad := fun (x : Island) (f : Fin 4) =>
    let c := s.saf.cfg.fns[f]
    let g := (s.isle x).fns[f]
    c.type != 0 && (g.chDemand != 0 || (g.discrepancy && decide (g.clearStep < 2)) ||
      (List.range 4).any fun k => g.chFault.getLsbD k && !s.saf.checked.getLsbD (c.inputs.getD k 0))
  (List.finRange 4).any (fun f => bad .a f || bad .b f) ||
    (s.saf.xchkFault && (s.fio.xchk.fault || decide (s.saf.xchkClear < 2)))

/-- SAFETY_RESET: every waiting function, every resettable fault, and the safelight of an input channel fault. -/
def execSafetyReset (o : Origin) (s : State) : Answer :=
  .next (runShort (.safetyReset o) o (fun s =>
    if resetBlocked s then refuse s stRefused
    else
      let clear := fun (i : IslandState) =>
        let lasting := i.failed || i.peerFailed || i.common
        { i with
          fns := i.fns.map fun g => { g with waitReset := false, discrepancy := false, clearStep := 0, chFault := 0 }
          pulseFault := 0, tpFault := 0, safelight := i.safelight && lasting
          remaining := if lasting then i.remaining else 0
          -- a started SS1 ends in STO all the same (R301)
          limitOver := i.limitOver && (lasting || i.ss1[(4 : Fin 5)] != 0) }
      (((s.modSaf fun q => { q with xchkFault := false, failedNow := 0, absent := 0, checked := 0 }).modIsle .a clear).modIsle .b
        clear).evaluate.raise 12 |> fun s => (s, stOk, [])) s)

/-- The cross-check fault of a safety-marked check: an input channel fault of no function (R339). -/
def State.xchkSafety (s : State) : State :=
  let s := s.modSaf fun q => { q with xchkClear := 0 }
  if s.saf.xchkFault then s else (s.modSaf fun q => { q with xchkFault := true }).safelightEntry false 9 0

/-! Keeper vote (R33) on the two keepers. -/

/-- Do two counts agree within 3 %? -/
def countsAgree (a b : Nat) : Bool := decide (|(a : Int) - b| * 100 ≤ 3 * max (a : Int) b)

end Sys2Proof.Machine
end

