-- ==== Sys2Proof/Machine/FieldIo.lean ====
section
/-! DEFINITION. Field inputs and outputs, their supply, diagnosis and watchdog (R327 to R334), and the converters X and Y
with their cross-check (R335 to R340). -/

namespace Sys2Proof.Machine

/-! Bank bits (R332). -/

/-- The fault bits of the banks: outputs 0 and 1, inputs 0 and 1. -/
def bankFaults (f : FieldIo) : BitVec 4 :=
  let out := fun (b : Nat) => (List.finRange 16).any fun (o : Fin 16) => o.val / 8 == b && f.causeLatched[o] != 0
  let inp := fun (b : Nat) => bits f.overLatched.toNat (16 * b + 15) (16 * b) != 0
  if f.supplyLatched != 0 then 15
  else BitVec.ofNat 4 (pack [bw (out 0), bw (out 1), bw (inp 0), bw (inp 1)])

/-- Are the outputs off for want of supply (R331)? -/
def supplyOff (f : FieldIo) : Bool := f.supplyNow.getLsbD 0 || f.supplyNow.getLsbD 1

/-- What an output is commanded to now: the record's bit, or its safe state (R333, R334). -/
def wantedLevel (f : FieldIo) (o : Fin 16) : Bool :=
  if !f.inSafe then f.outCmd.getLsbD o.val
  else
    match bits f.safe.toNat (2 * o.val + 1) (2 * o.val) with
    | 0 => false
    | 1 => true
    | _ => f.outHold.getLsbD o.val

/-- Does the switch of an output conduct? -/
def driven (f : FieldIo) (o : Fin 16) : Bool := wantedLevel f o && !f.shut.getLsbD o.val && !supplyOff f

/-- The level at a pin: a held current limit leaves it open (log entry 13). -/
def pinOf (key : Nat) (f : FieldIo) (o : Fin 16) : Bool :=
  if driven f o then !f.causeNow[o].getLsbD 0 || Config.pinLevel key o else f.causeNow[o].getLsbD 3

/-- The pins follow. -/
def settlePins (key : Nat) (f : FieldIo) : FieldIo :=
  { f with outActual := (List.finRange 16).foldl (fun (v : Half) (o : Fin 16) => setBit v o.val (pinOf key f o)) 0 }

/-- Change the field I/O: the pins follow, and a bank bit that rises raises vector 17. -/
def State.fio_ (s : State) (f : FieldIo → FieldIo) : State :=
  let was := bankFaults s.fio
  let s := s.modFio fun x => settlePins (s.key 0) (f x)
  if bankFaults s.fio &&& ~~~was != 0 then s.raise 17 else s

/-! Inputs (R327, R328). -/

def execFieldInputAccept (input : Fin 32) (level : Bool) (s : State) : Answer :=
  .next (s.fio_ fun f => { f with inputs := setBit f.inputs input.val level })

def execInputOvervoltage (input : Fin 32) (present : Bool) (s : State) : Answer :=
  .next (s.fio_ fun f => { f with
    overNow := setBit f.overNow input.val present, overLatched := if present then setBit f.overLatched input.val true else f.overLatched })

/-! Outputs (R329). -/

/-- A cause of an output is present or gone. -/
def putCause (o : Fin 16) (bit_ : Nat) (present : Bool) (f : FieldIo) : FieldIo :=
  { f with
    causeNow := modAt f.causeNow o fun v => setBit v bit_ present
    causeLatched := if present then modAt f.causeLatched o fun v => setBit v bit_ true else f.causeLatched }

/-- A cause that needs `cond` to arise. -/
def State.cause (s : State) (o : Fin 16) (bit_ : Nat) (present cond : Bool) : State :=
  if present && !cond then s else s.fio_ (putCause o bit_ present)

def execOutputShort (output : Fin 16) (present : Bool) (s : State) : Answer :=
  .next (s.cause output 0 present (driven s.fio output))

/-- OUTPUT_OVERTEMP: the output turns off whatever is commanded. -/
def execOutputOvertemp (output : Fin 16) (s : State) : Answer :=
  .next (s.fio_ fun f => { (putCause output 2 true f) with shut := setBit f.shut output.val true })

def execOutputOvertempRecover (output : Fin 16) (s : State) : Answer :=
  .next (s.fio_ fun f => { (putCause output 2 false f) with shut := setBit f.shut output.val false })

/-- OUTPUT_OPEN_LOAD: with the output on, or off where open_off enables the check. -/
def execOutputOpenLoad (output : Fin 16) (present : Bool) (s : State) : Answer :=
  .next (s.cause output 1 present (driven s.fio output || s.fio.openOff.getLsbD output.val))

def execOutputShortSupply (output : Fin 16) (present : Bool) (s : State) : Answer :=
  .next (s.cause output 3 present (!driven s.fio output && s.fio.openOff.getLsbD output.val))

/-! Supply (R331). Readings are in 10 mV. -/

/-- Supply causes present now, and their latches. -/
def putSupply (reading : Half) (now : BitVec 3) (f : FieldIo) : FieldIo :=
  { f with vfield := reading, supplyNow := now, supplyLatched := f.supplyLatched ||| now }

def execVfieldReverse (reading : Half) (s : State) : Answer :=
  .next (if reading.toInt < -50 then s.fio_ (putSupply reading 1) else s)

def execVfieldLow (reading : Half) (s : State) : Answer :=
  .next (if 0 ≤ reading.toInt ∧ reading.toInt ≤ 1800 then s.fio_ (putSupply reading 2) else s)

def execVfieldRecover (reading : Half) (s : State) : Answer :=
  .next (if 1920 < reading.toInt then s.fio_ (fun f => putSupply reading (f.supplyNow &&& 4) f) else s)

def execVfieldHigh (reading : Half) (present : Bool) (s : State) : Answer :=
  .next (if present && decide (reading.toInt ≤ 3050) then s
    else s.fio_ fun f => putSupply reading (setBit f.supplyNow 2 present) f)

/-! Diagnosis, watchdog, IO_CONFIG (R332 to R334). -/

/-- The result of IO_DIAG. -/
def diagBytes (f : FieldIo) : List Byte :=
  ((List.finRange 16).map fun (o : Fin 16) => BitVec.ofNat 8 (f.causeLatched[o].toNat + 16 * f.causeNow[o].toNat)) ++
    bytesOf f.overLatched ++ bytesOf f.overNow ++ [BitVec.ofNat 8 (f.supplyLatched.toNat + 8 * f.supplyNow.toNat)] ++
    bytesOf f.vfield ++ bytesOf f.outActual ++ [BitVec.ofNat 8 (b2n f.expired + 2 * b2n f.inSafe)] ++ List.replicate 18 0

/-- Every latched cause that is no longer present clears. -/
def clearCauses (f : FieldIo) : FieldIo :=
  { f with causeLatched := f.causeNow, overLatched := f.overNow, supplyLatched := f.supplyNow, expired := false }

def execIoDiag (o : Origin) (s : State) : Answer :=
  .next (runShort (.ioDiag o) o (fun s => (s.fio_ clearCauses, stOk, diagBytes s.fio)) s)

/-- The levels present now, for a safe state of hold. -/
def heldLevels (f : FieldIo) : Half := (List.finRange 16).foldl (fun (v : Half) (o : Fin 16) => setBit v o.val (driven f o)) 0

/-- The outputs go to their safe states. -/
def enterSafe (f : FieldIo) : FieldIo := { f with outHold := heldLevels f, inSafe := true }

def execOutputWatchdogExpiry (s : State) : Answer :=
  .next (((s.fio_ fun f => { (enterSafe f) with expired := true }).raise 17).logEvent 0 60 0 s.fio.wdgMs)

def execWatchdogSet (o : Origin) (ms : Half) (s : State) : Answer :=
  .next (runShort (.watchdogSet o ms) o (fun s => (s.modFio fun f => { f with wdgMs := ms.toNat }, stOk, [])) s)

/-- An IO_CONFIG descriptor, or nothing. -/
def ioConfig? (bs : List Byte) : Option (Word × Half × Byte × Byte) :=
  let safe := fieldU bs 0 4
  if decide (bs.length = 16) && (List.range 16).all (fun o => bits safe (2 * o + 1) (2 * o) != 3) && decide (fieldU bs 6 1 ≤ 200) &&
      decide (fieldU bs 7 1 ≤ 200) && zeroBytes bs 8 16
  then some (BitVec.ofNat 32 safe, BitVec.ofNat 16 (fieldU bs 4 2), BitVec.ofNat 8 (fieldU bs 6 1), BitVec.ofNat 8 (fieldU bs 7 1))
  else none

/-- A new safe state acts at once while the outputs are in theirs. -/
def applyIo (safe : Word) (openOff : Half) (f0 f1 : Byte) (f : FieldIo) : FieldIo :=
  { f with outHold := if f.inSafe then heldLevels f else f.outHold, safe := safe, openOff := openOff, filt0 := f0, filt1 := f1 }

def execIoConfig (o : Origin) (desc : Desc) (s : State) : Answer :=
  .next (runShortIn (.ioConfig o desc) o desc (fun bs s =>
    match ioConfig? bs with
    | none => refuse s stBadArg
    | some (a, b, c, d) => (s.fio_ (applyIo a b c d), stOk, [])) s)

/-- The latch of the field-output record at a cycle start (R54, R55, R329, R333). The record's reset value counts as
taken (log entry 49). -/
def State.latchOutputs (s : State) : State :=
  let r := s.host.outRec
  let seq : Word := r.truncate 32
  if seq.getLsbD 0 then s
  else
    let fresh := seq != s.host.outSeqTaken.getD 0
    (s.modHost fun h => { h with outLatched := r, outSeqTaken := some seq }).fio_ fun f => { f with
      outCmd := r.extractLsb' 32 16, inSafe := f.inSafe && !fresh }

/-! Converter tables (R336). -/

def convEntries (bs : List Byte) : Nat → List ConvEntry
  | 0 => []
  | n + 1 => ⟨fieldU bs 0 1, fieldU bs 1 1, fieldU bs 2 1, fieldU bs 4 2⟩ :: convEntries (bs.drop 8) n

/-- The reserved bytes of the entries are zero. -/
def convPadsOk (bs : List Byte) : Nat → Bool
  | 0 => true
  | n + 1 => zeroBytes bs 3 4 && zeroBytes bs 6 8 && convPadsOk (bs.drop 8) n

/-- A CONV_TABLE descriptor, or nothing. -/
def convTable? (s : State) (bs : List Byte) : Option ConvTable :=
  let t := fieldU bs 0 4
  let e := fieldU bs 4 1
  let start := fieldU bs 5 1
  let quad := fieldU bs 6 1
  let delay := fieldU bs 8 4
  let es := convEntries (bs.drop 16) e
  let ok := decide (t ≤ 1 ∨ (250 ≤ t ∧ t ≤ 100000)) && decide (1 ≤ e) && decide (e ≤ 64) && decide (bs.length = 16 + 8 * e) && decide (start < 2) &&
    zeroBytes bs 7 8 && zeroBytes bs 12 16 && convPadsOk (bs.drop 16) e && decide (delay ≤ 1000000) &&
    (if start = 0 then quad == 0 && delay == 0 else
      match fin? 12 quad with
      | some q => quadEnabled s q
      | none => false) &&
    es.all fun x => decide (x.channel ≤ 16) && decide (x.range ≤ 4) && (x.range == 4) == (x.channel == 16) && decide (1 ≤ x.rep)
  if ok then some ⟨t, start == 1, quad, delay, es⟩ else none

/-- The channels entries drive with an excitation output. -/
def exciteChans (es : List ConvEntry) (r : Nat) : List Nat := (es.filter fun e => e.range == r).map (·.channel)

/-- The entries a converter runs or is about to run. -/
def convAll (c : Converter) : List ConvEntry := c.table.entries ++ (c.next.map (·.entries)).getD []

/-- Would one excitation output serve two channels? -/
def exciteClash (t : ConvTable) (other : Converter) : Bool :=
  [2, 3].any fun r =>
    let l := exciteChans (t.entries ++ convAll other) r
    l.any fun a => l.any fun b => a != b

def convOf (f : FieldIo) : Conv → Converter
  | .x => f.x
  | .y => f.y

def modConv (c : Conv) (g : Converter → Converter) (f : FieldIo) : FieldIo :=
  match c with
  | .x => { f with x := g f.x }
  | .y => { f with y := g f.y }

def otherConv : Conv → Conv
  | .x => .y
  | .y => .x

def convArg (c : Byte) : Conv := if c = 0 then .x else .y

def execConvTable (o : Origin) (converter : Byte) (desc : Desc) (s : State) : Answer :=
  .next (runShortIn (.convTable o converter desc) o desc (fun bs s =>
    match convTable? s bs with
    | none => refuse s stBadArg
    | some t =>
      if exciteClash t (convOf s.fio (otherConv (convArg converter))) then refuse s stRefused
      else (s.modFio (modConv (convArg converter) fun c => { c with next := some t }), stOk, [])) s)

/-- CONV_READ's fields: per channel the result, its flags, stamp and count (log entry 6). -/
def execConvRead (o : Origin) (converter : Byte) (s : State) : Answer :=
  .next (runShort (.convRead o converter) o (fun s =>
    (s, stOk, Config.layout 0x8011 ((convOf s.fio (convArg converter)).results.toList.flatMap fun r =>
      [r.value.toNat, b2n r.over_, b2n r.uncal, r.stamp.toNat, r.count.toNat]))) s)

/-! Conversions (R335, R337). -/

/-- The entry a converter is at. -/
def convEntry (c : Converter) : ConvEntry := c.table.entries.getD c.entry ⟨16, 4, 1, 0⟩

/-- Is an excitation output on: does the present entry of a converter select it (R337)? `range` is 2 for CNV_EXC0 and 3 for
CNV_EXC1. -/
def excitation (f : FieldIo) (range : Nat) : Bool := (convEntry f.x).range == range || (convEntry f.y).range == range

/-- A conversion falls due: with a timer start it integrates at once; with a PWM start it waits for the boundary. -/
def convDue (c : Converter) : Converter :=
  let c := if c.left = 0 then { c with left := (convEntry c).rep } else c
  if c.table.pwm then { c with waiting := true } else { c with busy := true }

/-- CONVERSION_START: an entry's delay is over. -/
def execConversionStart (conv : Conv) (s : State) : Answer :=
  .next (
    let c := convOf s.fio conv
    if !s.isReady rdyFdie || c.busy || c.waiting || c.left != 0 then s else s.modFio (modConv conv convDue))

/-- A period boundary of a quad starts the conversions that wait for it (R337). -/
def convBoundary (q : QuadId) (f : FieldIo) : FieldIo :=
  let go := fun (c : Converter) => if c.waiting && c.table.pwm && c.table.quad == q.val then { c with waiting := false, busy := true } else c
  { f with x := go f.x, y := go f.y }

/-- Is a result over-range: beyond full scale, as the converter finds it, or below what its range allows: -0.2 V in range 1
and 0 in ranges 2 and 3 (R335)? -/
def overRange (range : Nat) (v : Sample) (full : Bool) : Bool :=
  full || (range == 1 && decide (v.toInt * 10 < -26214)) || ((range == 2 || range == 3) && v.msb)

/-- A result takes its place: an over-range one carries the nearest full-scale code. -/
def convResult (v : Sample) (over_ uncal : Bool) (stamp : Word) (now : BitVec 64) (r : ConvResult) : ConvResult :=
  ⟨if over_ then (if v.msb then 0x20000 else 0x1FFFF) else v, over_, uncal, stamp, r.count + 1, true, now⟩

/-- After a conversion: the next of its entry begins, or the next entry comes up, and after the last entry the pass
ends, where a pending table takes over. -/
def convNext (c : Converter) : Converter :=
  let c := { c with busy := false, left := c.left - 1 }
  if c.left ≠ 0 then convDue c
  else if c.entry + 1 < c.table.entries.length then { c with entry := c.entry + 1 }
  else
    match c.next with
    | some t => { c with entry := 0, table := t, next := none }
    | none => { c with entry := 0 }

/-! The cross-check (R338, R339). -/

/-- Do a new result and the other converter's latest disagree? The stamps tell the age within their wrap of 4.29 s. -/
def mismatch (limit : Nat) (a b : ConvResult) : Bool :=
  let young := decide ((a.at_ - b.at_).toNat < 2 ^ 31) && (decide ((a.stamp - b.stamp).toNat < 1000000000) || decide ((b.stamp - a.stamp).toNat < 1000000000))
  !b.has || !young || (a.over_ != b.over_) || decide ((limit : Int) < |a.value.toInt - b.value.toInt|)

/-- One comparison: two mismatches in a row raise the fault, two matches clear it. -/
def compareChans (bad : Bool) (x : CrossCheck) : CrossCheck :=
  if bad then { x with bad := min 2 (x.bad + 1), good := 0, fault := x.fault || decide (1 ≤ x.bad) }
  else { x with bad := 0, good := min 2 (x.good + 1), fault := x.fault && decide (x.good < 1) }

def State.crossCheck (s : State) (conv : Conv) (ch : Nat) : State :=
  let x := s.fio.xchk
  match x.channel with
  | none => s
  | some c =>
    if c.val ≠ ch then s
    else
      let y := compareChans (mismatch x.limit.toNat (convOf s.fio conv).results[c] (convOf s.fio (otherConv conv)).results[c]) x
      let s := s.modFio fun f => { f with xchk := y }
      if y.fault && !x.fault then
        let s := s.raise 17
        if y.safety then s.xchkSafety else s
      else s

/-- CONVERSION_END. The stamp is of the midpoint of the integration, which is over (log entry 205). -/
def execConversionEnd (conv : Conv) (result : Sample) (overRange : Bool) (stamp : Word) (s : State) : Answer :=
  .next (
    let c := convOf s.fio conv
    if !c.busy then s
    else
      let stamp := s.pastStamp stamp
      let ch := (convEntry c).channel
      let uncal := !s.isReady rdyCal
      let s := s.modFio (modConv conv fun c => convNext { c with results := modAt c.results (Fin.ofNat 17 ch) (convResult result
        (Machine.overRange (convEntry c).range result overRange) uncal stamp s.time.dev) })
      (s.setReady (match conv with
        | .x => rdyConvX
        | .y => rdyConvY) true).crossCheck conv ch)

/-- CROSSCHECK_SET: a safety-marked check keeps its mark and its channel. -/
def execCrosscheckSet (o : Origin) (channel : Byte) (limit : Word) (safety : Byte) (s : State) : Answer :=
  .next (runShort (.crosscheckSet o channel limit safety) o (fun s =>
    let x := s.fio.xchk
    let ch := fin? 17 channel.toNat
    if x.safety && (safety == 0 || x.channel != ch) then refuse s stSafetyLocked
    else
      let same := x.channel == ch
      let s := s.modFio fun f => { f with
        xchk := ⟨ch, limit.truncate 18, safety == 1, same && x.fault, if same then x.bad else 0, if same then x.good else 0⟩ }
      -- a check that is marked while its fault stands shows it to the islands at once (R339)
      (if s.fio.xchk.safety && s.fio.xchk.fault then s.xchkSafety else s, stOk, [])) s)

/-! Publications (R340). -/

/-- The payload of a converter's channel. -/
def convPub (f : FieldIo) (c : Converter) (ch : Fin 17) : Word72 :=
  let r := c.results[ch]
  BitVec.ofNat 72 (pack [nw r.value.toNat 18, bw r.over_, bw r.uncal, bw (f.xchk.fault && f.xchk.channel == some ch), nw 0 3,
    nw r.stamp.toNat 32, nw r.count.toNat 16])

def inputsPub (f : FieldIo) : Word72 := BitVec.ofNat 72 (pack [nw f.inputs.toNat 32, nw (bankFaults f).toNat 4])

def outputsPub (f : FieldIo) : Word72 :=
  let cmd := (List.finRange 16).foldl (fun (v : Half) (o : Fin 16) => setBit v o.val (wantedLevel f o)) 0
  BitVec.ofNat 72 (pack [nw cmd.toNat 16, nw f.outActual.toNat 16, bw f.inSafe])

end Sys2Proof.Machine
end

