-- ==== Sys2Proof/Machine/Can.lean ====
section
/-! DEFINITION. The CAN FD controllers (R342 to R356): configuration, acceptance, message storage, transmission, bus
states, drive frames and buffer snapshots. -/

namespace Sys2Proof.Machine

def canIx (c : Byte) : CanId := Fin.ofNat 4 c.toNat

/-- Data bytes a DLC gives (ISO 11898-1). -/
def dlcLen (fd : Bool) (dlc : Nat) : Nat :=
  if dlc ≤ 8 then dlc
  else if !fd then 8
  else [12, 16, 20, 24, 32, 48, 64].getD (dlc - 9) 64

/-! Records (R346). -/

/-- The 80 bytes of a frame record. -/
def recBytes (r : CanRec) : List Byte :=
  let f := r.frame
  leBytes 4 r.stamp.toNat ++ leBytes 4 f.ident.toNat ++
    leBytes 1 (pack [bw f.ide, bw f.rtr, bw f.fdf, bw f.brs, bw f.esi]) ++ leBytes 1 f.dlc.toNat ++
    leBytes 1 (dlcLen f.fdf f.dlc.toNat) ++ [r.count] ++ bytesOf r.rule ++ [0, 0] ++ slice f.data 0 64

/-- Byte offsets in a controller's area (R345). -/
def bufOff (k : Nat) : Nat := 8192 + 80 * k
def fifoOff (second : Bool) (k : Nat) : Nat := (if second then 18432 else 13312) + 80 * k

/-- The word of a buffer's snapshot. -/
def snapWord (c : Can) (k : Nat) : Nat := (c.cfg.base + 23552) / 8 + k

/-- The payload of a snapshot (R355). -/
def snapPayload (r : CanRec) : Word72 := BitVec.ofNat 72 (leNat (slice r.frame.data 0 8) + r.count.toNat * 2 ^ 64)

/-! Configuration (R344). -/

/-- A CAN_CONFIG descriptor, or nothing. -/
def canCfg? (bs : List Byte) : Option CanCfg :=
  let u := fun (k n : Nat) => fieldU bs k n
  let within := fun (v lo hi : Nat) => decide (lo ≤ v) && decide (v ≤ hi)
  let np := u 0 2 * (1 + u 2 2 + u 4 1)
  let dp := u 6 1 * (1 + u 7 1 + u 8 1)
  let fl := u 11 1
  let miss := u 12 1
  let ok := decide (bs.length = 48) && within (u 0 2) 1 256 && within (u 2 2) 2 256 && within (u 4 1) 1 128 && within (u 5 1) 1 (u 4 1) &&
    within (u 6 1) 1 32 && within (u 7 1) 1 32 && within (u 8 1) 1 16 && within (u 9 1) 1 (u 8 1) && decide (u 10 1 ≤ 127) && decide (fl < 16) &&
    decide (miss < 16) && miss % 4 != 3 && miss / 4 != 3 && u 13 1 == 0 && within (u 14 1) 1 64 && within (u 15 1) 1 64 && decide (u 16 1 < 4) &&
    zeroBytes bs 17 20 && u 20 4 % 256 == 0 && decide (u 20 4 + 24064 ≤ 0x02000000) && decide (u 32 2 ≤ 0x7FF) && decide (u 34 2 ≤ 0x7FF) &&
    zeroBytes bs 36 48 && decide (80 ≤ np) && decide (10 ≤ dp) && decide (dp ≤ np)
  if ok then some ⟨u 0 2, u 2 2, u 4 1, u 5 1, u 6 1, u 7 1, u 8 1, u 9 1, u 10 1, bit fl 0, bit fl 1, bit fl 2, bit fl 3, BitVec.ofNat 2 miss,
    BitVec.ofNat 2 (miss / 4), u 14 1, u 15 1, bit (u 16 1) 0, bit (u 16 1) 1, u 20 4, BitVec.ofNat 64 (u 24 8), u 32 2, u 34 2⟩
  else none

/-- Does a controller's area touch the pool, the receive areas, the schedule or another controller's area? Words. -/
def canAreaTaken (s : State) (c : CanId) (base : Nat) : Bool :=
  let b := base / 8
  (s.mem.poolEn && overlaps b 3008 (s.mem.bobbinWord 0) (32 * s.mem.poolSize)) ||
  overlaps b 3008 (areaBase s.link false) (2 * areaUnits s.link * 18432) ||
  (s.link.hasSched && overlaps b 3008 (s.link.schedBase.toNat * 131072) (4 * schedEntries s.link.sched)) ||
  (List.finRange 4).any fun v => decide (v ≠ c) && overlaps b 3008 (s.cans[v].cfg.base / 8) 3008

/-- Is the controller in mode 1 or 2 of CAN_BUS? -/
def busOn (x : Can) : Bool := x.mode != 0

/-- Is a kind-3 strand bound to the controller? -/
def canBound (s : State) (c : CanId) : Bool :=
  s.strandsWhere (fun x => match x.cfg.binding with
    | .can d _ => decide (d = c)
    | _ => false) != []

/-! Acceptance (R347). -/

/-- One rule, or nothing where it breaks the table. -/
def canRule? (bs : List Byte) : Option CanRule :=
  let u := fun (k n : Nat) => fieldU bs k n
  let test := u 8 1
  let dest := u 10 1
  if decide (u 0 4 < 2 ^ 29) && decide (u 4 4 < 2 ^ 29) && decide (test < 4) && decide (u 9 1 < 64) && decide (dest < 4) &&
      (if dest = 3 then decide (u 11 1 < 64) else u 11 1 == 0) && zeroBytes bs 12 16 && !(test == 1 && decide (u 4 4 < u 0 4))
  then some ⟨BitVec.ofNat 29 (u 0 4), BitVec.ofNat 29 (u 4 4), test, BitVec.ofNat 6 (u 9 1), dest, Fin.ofNat 64 (u 11 1)⟩ else none

def canRules? : Nat → List Byte → Option (List CanRule)
  | 0, _ => some []
  | n + 1, bs =>
    match canRule? (bs.take 16), canRules? n (bs.drop 16) with
    | some r, some l => some (r :: l)
    | _, _ => none

def execCanFilter (o : Origin) (ctl : Byte) (desc : Desc) (s : State) : Answer :=
  .next (runShortIn (.canFilter o ctl desc) o desc (fun bs s =>
    let c := canIx ctl
    match canRules? (bs.length / 16) bs with
    | none => refuse s stBadArg
    | some l =>
      if busOn s.cans[c] || l.any (fun r => r.dest == 3 && !(s.cans[c].cfg.rxMask.getLsbD r.buffer.val)) then refuse s stRefused
      else ((s.modCan c fun x => { x with rules := l }).storeRules c, stOk, [])) s)

/-- Does a rule take a frame? -/
def ruleTakes (f : CanFrame) (r : CanRule) : Bool :=
  let kind := (if f.rtr then 2 else 0) + (if f.ide then 1 else 0)
  let fmt := if f.fdf then 5 else 4
  r.scope.getLsbD kind && r.scope.getLsbD fmt &&
    match r.test with
    | 1 => decide (r.a.toNat ≤ f.ident.toNat) && decide (f.ident.toNat ≤ r.b.toNat)
    | 2 => f.ident == r.a || f.ident == r.b
    | 3 => (f.ident ^^^ r.a) &&& r.b == 0
    | _ => false

/-- Where a frame goes: destination, buffer, and the rule that took it. -/
def routeFrame (x : Can) (f : CanFrame) : Nat × Fin 64 × Half :=
  match x.rules.findIdx? (ruleTakes f) with
  | some n =>
    let r := x.rules.getD n ⟨0, 0, 0, 0, 0, 0⟩
    (r.dest, r.buffer, BitVec.ofNat 16 n)
  | none => (if f.rtr then 0 else if f.fdf then x.cfg.missFd.toNat else x.cfg.missClassic.toNat, 0, 0xFFFF)

/-! Storage (R348, R349). -/

/-- A dedicated buffer takes a frame: the record, the snapshot word, then the state bits. -/
def State.storeBuf (s : State) (c : CanId) (k : Fin 64) (f : CanFrame) (rule : Half) : State :=
  let n := s.cans[c].bufs[k].count + 1
  let r : CanRec := ⟨f, f.stamp, n, rule⟩
  let s := (s.canBytes c (bufOff k) (recBytes r)).modMem fun m => m.writeWord (snapWord s.cans[c] k) (snapPayload r)
  s.modCan c fun x => { x with bufs := modAt x.bufs k fun b => { b with record := r, count := n, ovr := b.ovr || b.nd, nd := true } }

/-- A FIFO takes a frame; full, it discards the new one or replaces its oldest, and counts. -/
def State.storeFifo (s : State) (c : CanId) (second : Bool) (f : CanFrame) (rule : Half) : State :=
  let x := s.cans[c]
  let size := if second then x.cfg.f1Size else x.cfg.f0Size
  let l := if second then x.fifo1 else x.fifo0
  let over_ := if second then x.cfg.over1 else x.cfg.over0
  let full := decide (size ≤ l.length)
  let lose := fun (s : State) => s.modCan c fun x => if second then { x with lost1 := satAdd 255 x.lost1 1 } else { x with lost0 := satAdd 255 x.lost0 1 }
  let s := if full then lose s else s
  if full && !over_ then s
  else
    let n := (if second then x.stored1 else x.stored0) + 1
    let r : CanRec := ⟨f, f.stamp, n, rule⟩
    let p := if second then x.pos1 else x.pos0
    let l := (if full then l.drop 1 else l) ++ [r]
    let s := s.canBytes c (fifoOff second p) (recBytes r)
    (s.modCan c fun x => if second then { x with fifo1 := l, stored1 := n, pos1 := (p + 1) % size }
      else { x with fifo0 := l, stored0 := n, pos0 := (p + 1) % size }).fifoLevel c

/-! Bus states (R352, R353). -/

/-- The state the two counts stand for. -/
def canStateOf (x : Can) : CanSt :=
  if x.mode = 0 then .off else if 255 < x.tec then .busOff else if 128 ≤ x.tec ∨ 128 ≤ x.rec_ then .passive else .active

/-- The counts have changed: state and warn follow, bus-off starts its recovery where auto_recover is set, and every
change raises vector 15. -/
def State.canSettle (s : State) (c : CanId) : State :=
  let x := s.cans[c]
  let st := canStateOf x
  let warn := decide (96 ≤ x.tec ∨ 96 ≤ x.rec_)
  let rec_ := if st = .busOff then x.recovering || x.cfg.autoRecover else false
  let s' := s.modCan c fun x => { x with st := st, warn := warn, recovering := rec_ }
  if st = x.st ∧ warn = x.warn then s' else s'.raise 15

/-- Does the controller take part on the bus? -/
def canLive (x : Can) : Bool := x.mode != 0 && (x.st == .active || x.st == .passive)

def execCanBus (o : Origin) (ctl mode : Byte) (s : State) : Answer :=
  .next (runShort (.canBus o ctl mode) o (fun s =>
    (s.modCan (canIx ctl) fun x => { x with modeNext := some (mode.truncate 2) }, stOk, [])) s)

/-- CAN_MODE_APPLY: the bus is idle, or 1 ms has passed. Mode 1 starts the recovery of a controller that is bus-off. -/
def execCanModeApply (ctl : CanId) (s : State) : Answer :=
  .next (
    match s.cans[ctl].modeNext with
    | none => s
    | some m =>
      let s := (s.modCan ctl fun x => { x with mode := m, modeNext := none }).canSettle ctl
      if m = 1 ∧ s.cans[ctl].st = .busOff then s.modCan ctl fun x => { x with recovering := true } else s)

/-- CAN_ERROR: listen-only freezes the counts. -/
def execCanError (ctl : CanId) (transmit : Bool) (amount : Nat) (s : State) : Answer :=
  .next (
    if !canLive s.cans[ctl] || s.cans[ctl].mode != 1 then s
    else (s.modCan ctl fun x => if transmit then { x with tec := x.tec + amount } else { x with rec_ := x.rec_ + amount }).canSettle ctl)

def execCanRecoveryComplete (ctl : CanId) (s : State) : Answer :=
  .next (
    if s.cans[ctl].st = .busOff ∧ s.cans[ctl].recovering then
      (s.modCan ctl fun x => { x with tec := 0, rec_ := 0, recovering := false }).canSettle ctl
    else s)

/-- A frame has been received, or sent, without error. -/
def goodRx (key : Nat) (x : Can) : Can :=
  if x.mode ≠ 1 then x else { x with rec_ := if 127 < x.rec_ then 119 + Config.recBack key % 9 else x.rec_ - 1 }
def goodTx (x : Can) : Can := { x with tec := x.tec - 1 }

/-! Reception (R347, R354). -/

/-- The strand whose drive sends a frame as its status. -/
def statusStrand (s : State) (c : CanId) (f : CanFrame) : Option StrandId :=
  if f.ide || f.rtr then none
  else (s.strandsWhere fun x => match x.cfg.binding with
    | .can d n => decide (d = c) && decide (s.cans[c].cfg.statusBase + n = f.ident.toNat)
    | _ => false).head?

/-- A drive's status frame: its position, its fault, and the end of its silence; a period outside mode 1 counts as
silent whatever arrives (R354). The fault bit of the frame is the drive's fault input of R92 (log entry 178). -/
def State.driveStatus (s : State) (c : CanId) (i : StrandId) (f : CanFrame) : State :=
  let pos := toSigned 64 (leNat (slice f.data 0 8))
  let bad := (slice f.data 8 1).any fun b => b.getLsbD 0
  let s := s.modCan c fun x => if x.mode = 1 then { x with silent := setKeyed i 0 x.silent } else x
  let s := s.modStrand i fun x => { x with actPos := pos, extFault := bad }
  if bad then s.raiseCause i causeExtDrive else s

/-- CAN_FRAME_RECEIVE. -/
def execCanFrameReceive (ctl : CanId) (frame : CanFrame) (s : State) : Answer :=
  .next (
    if !canLive s.cans[ctl] then s
    else
      let frame := { frame with stamp := s.eventStamp frame.stamp }
      let s := ((s.modCan ctl (goodRx (s.key ctl))).canSettle ctl).tick
      let s := if s.cans[ctl].mode = 1 then s.emit (.canAck ctl) else s
      match statusStrand s ctl frame with
      | some i => s.driveStatus ctl i frame
      | none =>
        let (dest, k, rule) := routeFrame s.cans[ctl] frame
        match dest with
        | 1 => s.storeFifo ctl false frame rule
        | 2 => s.storeFifo ctl true frame rule
        | 3 => s.storeBuf ctl k frame rule
        | _ => s)

/-! Transmission (R350). -/

/-- A transmit record, or nothing where a rule of R350 is broken. -/
def txRec? (bs : List Byte) : Option CanFrame :=
  let u := fun (k n : Nat) => fieldU bs k n
  let fl := u 8 1
  let n := dlcLen (bit fl 2) (u 9 1)
  if decide (u 4 4 < (if bit fl 0 then 2 ^ 29 else 2 ^ 11)) && decide (fl < 32) && decide (u 9 1 < 16) && u 10 1 == n && decide (bs.length = 16 + n) &&
      u 12 2 == 0 && u 14 2 == 0 && !(bit fl 1 && bit fl 2)
  then some ⟨bit fl 0, bit fl 1, bit fl 2, bit fl 3, bit fl 4, BitVec.ofNat 29 (u 4 4), BitVec.ofNat 4 (u 9 1), bs.drop 16, 0⟩ else none

def execCanSend (o : Origin) (ctl buffer : Byte) (desc : Desc) (s : State) : Answer :=
  .next (runShortIn (.canSend o ctl buffer desc) o desc (fun bs s =>
    let c := canIx ctl
    let k : Fin 64 := Fin.ofNat 64 buffer.toNat
    let x := s.cans[c]
    match txRec? bs with
    | none => refuse s stBadArg
    | some f =>
      if x.cfg.rxMask.getLsbD k.val || (f.fdf && !x.cfg.fd) || (f.brs && !x.cfg.brs) || x.st == .busOff || x.mode == 2 then refuse s stRefused
      else
        let r : CanRec := ⟨f, 0, x.bufs[k].count, 0⟩
        ((s.canBytes c (bufOff k) (recBytes r)).modCan c fun x => { x with
          bufs := modAt x.bufs k fun b => { b with record := r, pending := true } }, stOk, [])) s)

/-- The arbitration field as a number: the lower wins. -/
def arbKey (f : CanFrame) : Nat :=
  if f.ide then f.ident.toNat / 2 ^ 18 * 2 ^ 21 + 2 ^ 20 + 2 ^ 19 + f.ident.toNat % 2 ^ 18 * 2 + b2n f.rtr
  else f.ident.toNat % 2 ^ 11 * 2 ^ 21 + b2n f.rtr * 2 ^ 20

/-- The frame that goes next: drive frames before buffers, lower buffers first. -/
def nextTx (x : Can) : Option (CanTx × CanFrame) :=
  let l := x.drives.map (fun d => (CanTx.drive d.1, d.2)) ++
    (indicesOf x.bufs fun b => b.pending).map fun k => (CanTx.buffer k, x.bufs[k].record.frame)
  l.foldl (fun b e => match b with
    | some p => if arbKey e.2 < arbKey p.2 then some e else b
    | none => some e) none

/-- A buffer's frame ends: its record takes a stamp, and it is no longer pending. -/
def State.endTx (s : State) (c : CanId) (k : Fin 64) (stamp : Word) (count : Byte) : State :=
  let r := s.cans[c].bufs[k].record
  let r := { r with stamp := stamp, count := count }
  (s.canBytes c (bufOff k) (recBytes r)).modCan c fun x => { x with
    bufs := modAt x.bufs k fun b => { b with record := r, count := count, pending := false } }

/-- CAN_FRAME_TRANSMIT: the next frame goes; without one_shot a failed one stays and is tried again. -/
def execCanFrameTransmit (ctl : CanId) (stamp : Word) (sent : Bool) (s : State) : Answer :=
  .next (
    let x := s.cans[ctl]
    if !canLive x || x.mode != 1 then s
    else
      match nextTx x with
      | none => s
      | some (t, f) =>
        let stamp := s.eventStamp stamp
        if sent then
          let s := ((s.emit (.canFrame ctl f)).modCan ctl goodTx).canSettle ctl
          match t with
          | .buffer k => s.endTx ctl k stamp (x.bufs[k].count + 1)
          | .drive i => s.modCan ctl fun x => { x with drives := x.drives.filter fun d => d.1 != i }
        else if !x.cfg.oneShot then s
        else
          let s := s.modCan ctl fun x => { x with txFail := satAdd 255 x.txFail 1 }
          match t with
          | .buffer k => s.endTx ctl k 0xFFFFFFFF x.bufs[k].count
          | .drive i => s.modCan ctl fun x => { x with drives := x.drives.filter fun d => d.1 != i })

/-! Register rows (R348, R356). -/

def execCanCntClear (ctl : CanId) (s : State) : Answer := .next (s.modCan ctl clearCanCnt)

def execCanTakeWrite (ctl : CanId) (value : Word) (s : State) : Answer := .next (s.modCan ctl (takeBuffer value.toNat))

/-- DRIVE_STATUS_TIMEOUT (R354): eight strand updates with no status frame. -/
def execDriveStatusTimeout (strand : StrandId) (s : State) : Answer :=
  .next (
    match s.strands[strand].cfg.binding with
    | .can c _ => if 8 ≤ keyed 0 strand s.cans[c].silent then s.raiseCause strand causeExtDrive else s
    | _ => s)

/-! MEM_READ in a controller's area (R348, R349). -/

/-- What a MEM_READ address means to a controller: a FIFO to drain, or the first of some dedicated buffers. -/
inductive CanTarget
  | fifo (c : CanId) (second : Bool)
  | buffers (c : CanId) (k n : Nat)
deriving DecidableEq, Repr

def canTarget (s : State) (address len : Nat) : Option CanTarget :=
  if len % 80 ≠ 0 then none
  else
    ((List.finRange 4).filterMap fun c =>
      let b := s.cans[c].cfg.base
      if address = b + 13312 then some (CanTarget.fifo c false)
      else if address = b + 18432 then some (CanTarget.fifo c true)
      else if b + 8192 ≤ address ∧ address + len ≤ b + 13312 ∧ (address - b - 8192) % 80 = 0 then
        some (CanTarget.buffers c ((address - b - 8192) / 80) (len / 80))
      else none).head?

/-- The bit errors a read of a controller's area meets (R227). -/
def State.areaErrors (s : State) (c : CanId) (ecc : List EccErr) : State :=
  let a := s.cans[c].cfg.base
  (s.wakeRange a (a + 24064)).meetErrors ecc (a / 8) (a / 8 + 3008) reqDistaff

/-- A draining read: the oldest elements, released at the final step; a poisoned word ends it with its address (R71, R227). -/
def stepFifoRead (c : CanId) (second : Bool) (d : Desc) (busOk : Bool) (ecc : List EccErr) (s : State) : LongStep :=
  let s := s.areaErrors c ecc
  let l := (if second then s.cans[c].fifo1 else s.cans[c].fifo0).take (d.len.toNat / 80)
  let size := if second then s.cans[c].cfg.f1Size else s.cans[c].cfg.f0Size
  let fill := (if second then s.cans[c].fifo1 else s.cans[c].fifo0).length
  let head := ((if second then s.cans[c].pos1 else s.cans[c].pos0) + size - fill) % max 1 size
  let addr := fun (j : Nat) => s.cans[c].cfg.base + fifoOff second ((head + j) % max 1 size)
  let good := (List.range l.length).takeWhile fun j => (firstPoison s.mem (addr j) (addr j + 80)).isNone
  if busFails d busOk then .ends s stDmaFault []
  else
    match writeDesc s d 0 ((l.take good.length).flatMap recBytes) with
    | .error st => .ends s st []
    | .ok s =>
      if good.length < l.length then
        .ends s stPoisoned (leBytes 4 (8 * (firstPoison s.mem (addr good.length) (addr good.length + 80)).getD 0))
      else .ends ((s.modCan c fun x => if second then { x with fifo1 := x.fifo1.drop l.length } else { x with fifo0 := x.fifo0.drop l.length }).fifoLevel c)
        stOk (Config.layout 0x4003 [l.length])

/-- A read of dedicated buffers, up to a poisoned word (R71): each record is taken, and bytes 7:0 tell which were new. -/
def stepBufRead (c : CanId) (k n : Nat) (d : Desc) (busOk : Bool) (ecc : List EccErr) (s : State) : LongStep :=
  let s := s.areaErrors c ecc
  let ks := (List.range n).map fun j => (Fin.ofNat 64 (k + j) : Fin 64)
  let at_ := s.cans[c].cfg.base + bufOff k
  let bad := firstPoison s.mem at_ (at_ + 80 * n)
  let m := ((bad.map fun g => 8 * g - at_).getD (80 * n)) / 8 * 8
  if busFails d busOk then .ends s stDmaFault []
  else
    match writeDesc s d 0 (s.mem.readBytes at_ m), bad with
    | .error st, _ => .ends s st []
    | .ok s, some g => .ends s stPoisoned (leBytes 4 (8 * g))
    | .ok s, none =>
      let fresh := (ks.mapIdx fun j b => if s.cans[c].bufs[b].nd then 2 ^ j else 0).foldl (· + ·) 0
      .ends (s.modCan c fun x => ks.foldl (fun (x : Can) b => takeBuffer (b.val + 256 * x.bufs[b].count.toNat) x) x) stOk (leBytes 8 fresh)

end Sys2Proof.Machine
end

