-- ==== Sys2Proof/Machine/Wire.lean ====
section
/-! DEFINITION. What goes over an Ohmond port (R242, R243, R247): control and data blocks, the packing of bursts and frames, and
their CRC-32. -/

namespace Sys2Proof.Machine

/-- A block of 64 bits with its sync header: a control block, sync header 0b10, or data. -/
structure Block where
  control : Bool
  bits : BitVec 64
deriving DecidableEq, Repr

/-- A control block: its type in the first byte, and 56 bits of payload. -/
def ctlBlock (kind : Nat) (payload : Nat) : Block := ⟨true, BitVec.ofNat 64 (kind + payload % 2 ^ 56 * 256)⟩

def slackBlock : Block := ctlBlock 0x0F 0

def helloBlock (device : BitVec 14) (valid : Bool) (serial : Half) (master : Bool) : Block :=
  ctlBlock 0x96 (pack [(device.toNat, 14), (b2n valid, 1), (serial.toNat, 16), (b2n master, 1)])

/-- 64 bits at a time, from the low end, the last block zero-padded. -/
def dataBlocks (n v : Nat) : List (BitVec 64) := (List.range n).map fun i => BitVec.ofNat 64 (v / 2 ^ (64 * i))

/-- The CRC-32 over the 56 header bits and the blocks, lowest byte first (log entry 199). -/
def linkCrc (header : Nat) (l : List (BitVec 64)) : Word := crc32 (leBytes 7 header ++ l.flatMap bytesOf)

/-! Bursts (R243). -/

/-- The code of a burst kind. -/
def kindCode : BurstKind → Nat
  | .home => 0
  | .exported => 1
  | .tree => 2

/-- B(P), the blocks of a burst of P publications (R243). -/
def burstBlocks (p : Nat) : Nat := 2 + (3 * p + 1) / 2 + (3 * p + 31) / 32

/-- The header bits of a burst. -/
def burstHeader (b : Burst) : Nat :=
  pack [(kindCode b.kind, 2), (b2n b.zward, 1), (b.gen.toNat, 3), (b.source.toNat, 14), (b.cycle.toNat, 16), (b.pubs.length, 15)]

/-- The publication blocks, then the age blocks. -/
def burstData (b : Burst) : List (BitVec 64) :=
  let n := b.pubs.length
  dataBlocks ((3 * n + 1) / 2) (pack (b.pubs.flatMap fun p => [(p.endpoint.toNat, 24), (p.payload.toNat, 72)])) ++
    dataBlocks ((3 * n + 31) / 32) (pack (b.pubs.map fun p => (p.age.toNat, 6)))

def burstCrc (b : Burst) : Word := linkCrc (burstHeader b) (burstData b)

/-- Is a copy of a burst good: 1 to 16,384 publications, an end block that is not stomped, and its CRC (R239, R243)? -/
def burstGood (b : Burst) (a : Arrival) : Bool :=
  decide (1 ≤ b.pubs.length ∧ b.pubs.length ≤ 16384) && !a.stomped && a.crc == burstCrc b

/-! Frames (R247). -/

def frameHeader (f : Frame) : Nat :=
  pack [(f.dst.toNat, 14), (f.src.toNat, 14), (f.kind.toNat, 4), (f.hseq.toNat, 8), (f.oseq.toNat, 8), (f.data.length, 6)]

def frameCrc (f : Frame) : Word := linkCrc (frameHeader f) f.data

/-- Is a frame good: up to 32 data blocks, and its CRC? -/
def frameGood (f : Frame) (crc : Word) : Bool := decide (f.data.length ≤ 32) && crc == frameCrc f

/-! The wire. -/

/-- The blocks of what leaves by a port: a burst cut short keeps the blocks sent before its stomped end, which follows. -/
def Out.blocks : Out → List Block
  | .burst _ b n =>
    let all := ctlBlock 0xB1 (burstHeader b) :: ((burstData b).map fun d => ⟨false, d⟩) ++ [ctlBlock 0xE1 (burstCrc b).toNat]
    all.take n
  | .stomp _ => [ctlBlock 0xE2 0]
  | .hello _ d v r m => [helloBlock d v r m]
  | .frame _ f => ctlBlock 0xA1 (frameHeader f) :: (f.data.map fun d => ⟨false, d⟩) ++ [ctlBlock 0xAE (frameCrc f).toNat]
  | .ack _ h => [ctlBlock 0xC1 h.toNat]
  | .nak _ h => [ctlBlock 0xC2 h.toNat]
  | .release _ h => [ctlBlock 0xC3 h.toNat]
  | .slack _ => [slackBlock]
  | .timeBlock _ _ p => [ctlBlock 0x5A p.toNat]
  | _ => []

end Sys2Proof.Machine
end

