-- ==== Sys2Proof/Machine/Frames.lean ====
section
/-! DEFINITION. Asynchronous frames (R247 to R250): routes, the queue of each port, the hop protocol with its acks,
naks, releases and retries, and the hellos, lane states and wraps of the ports (R236, R241). -/

namespace Sys2Proof.Machine

/-! Ports (R235, R236, R241). -/

def execHelloSend (port : Port) (s : State) : Answer :=
  .next (
    if portOn (s.port port) && s.pwr.dev != .dormant then
      s.emit (.hello port s.link.device s.link.numbered (s.id.serial.truncate 16) s.link.master)
    else s)

/-- HELLO_RECEIVE (R236). -/
def execHelloReceive (port : Port) (device : BitVec 14) (valid : Bool) (serial : Half) (master : Bool) (s : State) : Answer :=
  .next (
    let x := s.port port
    if portOn x && x.lock != 0 && s.pwr.dev != .dormant then
      (s.modPort port fun x => { x with
        nbrDevice := device, nbrValid := valid, nbrSerial := serial, nbrMaster := master, helloSeen := true }).settlePort port
    else s)

def execHelloTimeout (port : Port) (s : State) : Answer :=
  .next (if (s.port port).ready then s.portDown port else s)

/-- BLOCK_LOCK (R236): a lane of the port holds lock. -/
def execBlockLock (port : Port) (lane : Bool) (s : State) : Answer :=
  .next (
    let x := s.port port
    if portOn x && x.lanes.getLsbD (b2n lane) && s.pwr.dev != .dormant then
      (s.modPort port fun x => { x with lock := setBit x.lock (b2n lane) true }).settlePort port
    else s)

/-- BLOCK_LOCK_LOSS (R241): no lane holds lock. -/
def execBlockLockLoss (port : Port) (s : State) : Answer :=
  .next (
    let x := s.port port
    if x.lock = 0 then s
    else
      let s := s.modPort port fun x => { x with lock := 0, lockEvent := true }
      if x.ready then s.portDown port else s)

/-- PORT_DEGRADE (R236): `lost` where the lane lost lock, and not where it showed header errors. A port that runs degraded
already may lose a lane that had locked again. -/
def execPortDegrade (port : Port) (lane lost : Bool) (s : State) : Answer :=
  .next (
    let x := s.port port
    if x.lanes != 3 || x.lock != 3 then s
    else if x.degraded then
      if lost then s.modPort port fun x => { x with lock := setBit x.lock (b2n lane) false, lockEvent := true, laneBack := false } else s
    else
      let s := s.modPort port fun x => { x with
        degraded := true, degradeEvent := true, lock := if lost then setBit x.lock (b2n lane) false else x.lock
        lockEvent := x.lockEvent || lost, laneBack := false }
      (s.raise 13).logEvent 4 1 (portIx port) (b2n lane))

/-- LANE_RESTORE (R236): back to two lanes at the next cycle start. -/
def execLaneRestore (port : Port) (s : State) : Answer :=
  .next (if (s.port port).degraded && (s.port port).lock == 3 then s.modPort port fun x => { x with laneBack := true } else s)

def execLnkPcntCntClear (port : Port) (s : State) : Answer := .next (s.modPort port clearPcnt)
def execLnkDomCntClear (s : State) : Answer := .next (s.modLink clearDomCnt)

/-- LINK_STATUS (R261). -/
def execLinkStatus (o : Origin) (port : Byte) (s : State) : Answer :=
  .next (runShort (.linkStatus o port) o (fun s =>
    let x := s.link.ports[(Fin.ofNat 4 port.toNat)]
    (s, stOk, leBytes 4 (readPort x 4) ++ leBytes 4 (readPort x 8) ++ leBytes 4 (readPort x 0xC))) s)

/-! Frames (R247 to R250). -/

/-- Block times one block takes on a port: a port on one lane takes two (R236). -/
def blockTime (x : LinkPort) : Nat := if x.degraded || x.lanes != 3 then 2 else 1

/-- The key block of a remote request (R276). -/
def keyBlock (k : RemoteKey) : BitVec 64 := BitVec.ofNat 64 (k.mailbox.toNat + k.tag.toNat * 2 ^ 8 + k.rseq.toNat * 2 ^ 32)

/-- The eight blocks of a slot. -/
def slotBlocks (w : SlotWord) : List (BitVec 64) := (List.range 8).map fun i => BitVec.ofNat 64 (w.toNat / 2 ^ (64 * i))

/-- The frame that goes next: urgent before normal before bulk, oldest first. Urgent waits while its quota is spent,
and a bulk frame that has waited long enough counts as normal (R225, R250). -/
def nextFrame (masked promoted : Bool) (q : List (Nat × Frame)) : Option (Nat × Frame) :=
  let ofClass := fun (c : Nat) => q.find? fun e => frameClass e.2 == c
  let normal := if promoted then q.find? fun e => frameClass e.2 != 0 else ofClass 1
  let rest := normal.orElse fun _ => ofClass 2
  if masked then rest else (ofClass 0).orElse fun _ => rest

/-- A frame leaves by a port under its next hop sequence. -/
def State.launch (s : State) (p : Port) (b : Nat) (f : Frame) (retries : Nat) : State :=
  let h := (s.port p).nextHseq
  let f := { f with hseq := h }
  (s.modPort p fun x => { x with nextHseq := h + 1, sent := x.sent ++ [⟨h, b, f, retries⟩] }).emit (.frame p f)

/-- Block times a frame takes on a port: its header, its data and its end. -/
def frameTimes (x : LinkPort) (f : Frame) : Nat := (2 + f.data.length) * blockTime x

/-- ASYNC_FRAME_TRANSMIT: a frame starts only where the port is free, and where it ends two blocks before the next burst due on
the port; otherwise it waits (R250). -/
def execAsyncFrameTransmit (port : Port) (turn : SendTurn) (promoted : Bool) (s : State) : Answer :=
  .next (
    let x := s.port port
    if !usable s port then s
    else
      match nextFrame turn.masked promoted x.queue with
      | none => s
      | some e =>
        let upTo := turn.time + frameTimes x e.2
        if turn.time < x.busy || !frameFits s.link port (s.tNs * 100 / 128) turn.time (upTo + 2 * blockTime x) then s
        else (s.modPort port fun x => { x with queue := x.queue.erase e, busy := upTo }).launch port e.1 e.2 0)

/-- Take the frame with a hop sequence out of a list. -/
def takeSent (h : Byte) (l : List Sent) : Option (Sent × List Sent) :=
  (l.find? fun e => e.hseq == h).map fun e => (e, l.erase e)

/-- ASYNC_FRAME_RECEIVE: ack and hold, or nak (R248). A frame already held is acked again; one with no bobbin is
dropped unanswered, so that its sender tries again. -/
def execAsyncFrameReceive (port : Port) (frame : Frame) (crc : Word) (s : State) : Answer :=
  .next (
    let bad := fun (s : State) => s.modPort port fun x => { x with crcErr := sat 255 x.crcErr }
    if !(s.port port).ready then s
    else if !frameGood frame crc then bad (s.emit (.nak port frame.hseq))
    else if 8 ≤ frame.kind.toNat then bad (s.emit (.ack port frame.hseq))
    else if (s.port port).held.any fun e => e.hseq == frame.hseq then s.emit (.ack port frame.hseq)
    else
      match s.grab with
      | (s, some b) => (s.modPort port fun x => { x with held := x.held ++ [⟨frame.hseq, b, frame, 0⟩] }).emit (.ack port frame.hseq)
      | (_, none) => s.modMem fun m => { m with linkDrop := sat 255 m.linkDrop })

/-- ACK_RECEIVE: the release goes out and the frame's bobbin is free. -/
def execAckReceive (port : Port) (hseq : Byte) (s : State) : Answer :=
  .next (
    match takeSent hseq (s.port port).sent with
    | none => s
    | some (e, r) => ((s.modPort port fun x => { x with sent := r }).freeChain [e.bobbin]).emit (.release port hseq))

/-- End a remote command of this device that its link gave up (R248, R276). -/
def State.endRemote (s : State) (rseq : Word) (st : Half) : State :=
  match s.rec_.remotes.find? fun r => r.rseq == rseq with
  | none => s
  | some r =>
    (s.modRec fun c => { c with remotes := c.remotes.erase r }).pushCmpl r.mb
      ⟨r.opcode, r.tag, true, false, r.irq, st, 0, noCycle, [], none⟩

/-- A hop gives up: an unreachable report goes to the source, and the frame is discarded (R248). -/
def State.giveUpFrame (s : State) (p : Port) (e : Sent) : State :=
  let s := (s.modPort p fun x => { x with unreach := sat 255 x.unreach }).freeChain [e.bobbin]
  if e.frame.src = s.link.device then
    if e.frame.kind = kindRequest then s.endRemote (BitVec.ofNat 32 ((e.frame.data.head?.getD 0).toNat / 2 ^ 32)) stUnreachable else s
  else s.sendFrame e.frame.src kindUnreach (e.frame.data.take 1)

/-- A frame is sent again, by the route in force now, or given up after three retries (R248). -/
def State.retryFrame (s : State) (p : Port) (hseq : Byte) : State :=
  match takeSent hseq (s.port p).sent with
  | none => s
  | some (e, r) =>
    let s := s.modPort p fun x => { x with sent := r }
    if 3 ≤ e.retries then s.giveUpFrame p e
    else
      let q := if e.frame.dst = broadcastDst then p else routeTo s e.frame.dst
      let s := s.modPort q fun x => { x with retry := sat 255 x.retry }
      if q = p then
        (s.modPort p fun x => { x with sent := x.sent ++ [{ e with retries := e.retries + 1 }] }).emit (.frame p e.frame)
      else s.launch q e.bobbin e.frame (e.retries + 1)

def execNakReceive (port : Port) (hseq : Byte) (s : State) : Answer := .next (s.retryFrame port hseq)
def execRetransmitTimeout (port : Port) (hseq : Byte) (s : State) : Answer := .next (s.retryFrame port hseq)

/-- Has a broadcast been seen within 1 ms (R247)? -/
def seenBroadcast (s : State) (f : Frame) : Bool :=
  s.link.broadcasts.any fun b => b.1 == f.src && b.2.1 == f.oseq && decide ((s.time.dev - b.2.2).toNat < 1000000)

/-- A frame has come for this device by a port: a beacon shows a master, an announcement tells the time of its domain (R265), and a
negative record or copy is kept (R282, R283); a frame of another kind acts through the row of its kind (log entry 57). -/
def State.deliver (s : State) (p : Port) (f : Frame) : State :=
  match f.body with
  | .announce a => if f.kind = kindPeer then s.heed p a else s
  | .record r => if f.kind = kindPeer then s.keepRec r else s
  | .negative d n => if f.kind = kindBulk && !(s.link.numbered && s.link.device == d) then s.keepCopy d n else s
  | .blocks => if f.kind = kindBeacon then s.modLink fun l => { l with masterSeen := true } else s

/-- What goes on from here of a broadcast: an announcement has made one hop more (R265). -/
def onward (f : Frame) : Frame :=
  match f.body with
  | .announce a => let b := { a with hops := a.hops + 1 }
    { f with body := .announce b, data := announceData b }
  | _ => f

/-- RELEASE_RECEIVE: the held frame is delivered or goes on. -/
def execReleaseReceive (port : Port) (hseq : Byte) (s : State) : Answer :=
  .next (
    match takeSent hseq (s.port port).held with
    | none => s
    | some (e, r) =>
      let s := (s.modPort port fun x => { x with held := r }).freeChain [e.bobbin]
      let f := e.frame
      let s := s.heedHops port f
      if f.dst = broadcastDst then
        if seenBroadcast s f || f.src == s.link.device then s
        else
          let s := s.modLink fun l => { l with
            broadcasts := (l.broadcasts.filter fun b => decide ((s.time.dev - b.2.2).toNat < 1000000)) ++ [(f.src, f.oseq, s.time.dev)] }
          (s.deliver port f).spread (onward f) (some port)
      else if s.link.numbered && f.dst == s.link.device then s.deliver port f
      else s.spread f none)

/-- HELD_FRAME_TIMEOUT: an acked frame without its release is discarded. -/
def execHeldFrameTimeout (port : Port) (hseq : Byte) (s : State) : Answer :=
  .next (
    match takeSent hseq (s.port port).held with
    | none => s
    | some (e, r) => (s.modPort port fun x => { x with held := r }).freeChain [e.bobbin])

/-- UNREACHABLE_REPORT (R248): it ends a command that was not delivered. -/
def execUnreachableReport (rseq : Word) (s : State) : Answer :=
  .next (if s.rec_.remotes.any (fun r => r.rseq == rseq && !r.timer) then s.endRemote rseq stUnreachable else s)

/-- The remote-command timer starts (R249, R278). -/
def State.startTimer (s : State) (rseq : Word) : State :=
  s.modRec fun c => { c with remotes := c.remotes.map fun r => if r.rseq = rseq then { r with timer := true } else r }

def execDeliveryReport (rseq : Word) (s : State) : Answer := .next (s.startTimer rseq)
def execDeliveryAssumed (rseq : Word) (s : State) : Answer := .next (s.startTimer rseq)

/-- REMOTE_TIMER_EXPIRY (R278). -/
def execRemoteTimerExpiry (rseq : Word) (s : State) : Answer :=
  .next (if s.rec_.remotes.any (fun r => r.rseq == rseq && r.timer) then s.endRemote rseq stRemoteTimeout else s)

end Sys2Proof.Machine
end

