-- ==== Sys2Proof/Machine/FlyerCode.lean ====
section
/-! DEFINITION. The image of FLYER_LOAD (R212) and
the check of every path through its code (R213). -/

namespace Sys2Proof.Machine

/-! What an instruction reads, writes and uses. -/

/-- Where control goes after an instruction. -/
inductive FlGo
  | next
  /-- a branch: its target, none for the link register, whether it may fall through, and whether it sets the link -/
  | branch (target : Option Nat) (falls : Bool) (link : Bool)
  | loop (level : Bool) (le : Nat) (skips : Bool)
  | mode
  | group (n : Nat)
  | leave
deriving DecidableEq, Repr

/-- Registers by number: d 0–15, ac 16–19, flags 20, mode 21. `writes` lists those with a distance above 1. -/
structure FlUse where
  reads : List Nat
  writes : List (Nat × Nat)
  addrs : List Nat
  bases : List Nat
  lens : List Nat
  go : FlGo
  /-- it always stalls, or it is a fabric operation, or it waits for a count -/
  stalls : Bool
  fabric : Bool
  waits : Option Nat
  /-- it touches loop level 0 -/
  loop0 : Bool
  /-- it writes the link register by MOVTC -/
  setsLink : Bool
  /-- it writes a control register no entry of R211's rows is given: amode, epc, estat, stid or ipend (log entry 60) -/
  outside : Bool
deriving DecidableEq, Repr

def FlUse.none : FlUse := ⟨[], [], [], [], [], .next, false, false, Option.none, false, false, false⟩

def rd (r : BitVec 4) : Nat := r.toNat
def ra (r : BitVec 4) : Nat := 16 + r.toNat % 4
def rFlags : Nat := 20
def rMode : Nat := 21

/-- The memory slot's share. -/
def FlUse.slot (m : MemSlot) (u : FlUse) : FlUse :=
  if m.op = 0 then { u with addrs := if m.upd = 0 then u.addrs else m.a.toNat :: u.addrs }
  else
    let u := { u with addrs := m.a.toNat :: u.addrs }
    if m.op = 1 then { u with writes := (rd m.reg, 2) :: u.writes }
    else if m.op = 2 then { u with reads := rd m.reg :: u.reads }
    else { u with reads := ra m.reg :: rMode :: u.reads }

def useAlu (reads : List Nat) (m : MemSlot) : FlUse := ({ FlUse.none with reads := reads, writes := [(rFlags, 2)] }).slot m

def useOp (reads : List Nat) (writes : List (Nat × Nat)) (m : MemSlot) : FlUse := ({ FlUse.none with reads := reads, writes := writes }).slot m

/-- Does a condition read the flags? -/
def condFlags (c : BitVec 4) : List Nat := if 1 ≤ c.toNat ∧ c.toNat ≤ 10 then [rFlags] else []

/-- The share of a MAC slot: an accumulator is chained for a following slot on it, so it is written and not read. -/
def FlUse.mac (x : MacSlot) (u : FlUse) : FlUse :=
  if x.op = 0 then u
  else { u with reads := rd x.x :: (8 + x.y.toNat) :: rMode :: u.reads, writes := (16 + x.acc.toNat, 2) :: u.writes }

/-- A control register named by MOVC or MOVTC. -/
def FlUse.ctl (page : Bool) (n : Nat) (u : FlUse) : FlUse :=
  if page then (if 8 ≤ n then { u with lens := (n - 8) :: u.lens } else u)
  else if 3 ≤ n ∧ n ≤ 5 then { u with loop0 := true } else u

/-- What an instruction does to registers and control (R195, R202 to R205). -/
def flUse : Instr → FlUse
  | .flParallel _ m0 m1 m => ((FlUse.none.mac m0).mac m1).slot m
  | .flAdd _ _ a b m | .flSub _ _ a b m | .flShl _ _ a b m | .flCmp _ _ a b m => useAlu [rd a, rd b, rMode] m
  | .flAnd _ _ a b m | .flOr _ _ a b m | .flXor _ _ a b m | .flShr _ _ a b m | .flAsr _ _ a b m
  | .flMin _ _ a b m | .flMax _ _ a b m | .flWrap _ _ a b m => useAlu [rd a, rd b] m
  | .flNeg _ _ a m | .flAbs _ _ a m => useAlu [rd a, rMode] m
  | .flNot _ _ a m | .flMov _ _ a m => useAlu [rd a] m
  | .flMaxi _ d a b m | .flMini _ d a b m =>
    let u := useOp [rd d, rd a] [] m
    { u with addrs := b.toNat % 8 :: u.addrs }
  | .flSincos _ d a m => useOp [rd a] [(rd d, 3), (rd d + 1, 3)] m
  | .flClarke _ d a m => useOp [rd a, rd a + 1, rd a + 2] [(rd d, 2), (rd d + 1, 2), (rd d + 2, 2)] m
  | .flPark _ d a b m | .flIpark _ d a b m => useOp [rd a, rd a + 1, rd b] [(rd d, 3), (rd d + 1, 3)] m
  | .flDivs _ d a m => useOp [rd a] [(ra d, 2)] m
  | .flRda _ _ a m => useOp [ra a, rMode] [] m
  | .flRdal _ _ a m | .flRdam _ _ a m | .flRdah _ _ a m => useOp [ra a] [] m
  | .flWra _ d a m => useOp [rd a, rMode] [(ra d, 2)] m
  | .flClra _ d m => useOp [] [(ra d, 2)] m
  | .flAdda _ d _ m | .flSuba _ d _ m => useOp [] [(ra d, 2)] m
  | .flMova _ d a m | .flAadd _ d a m =>
    let u := useOp [rd a] [] m
    { u with addrs := d.toNat % 8 :: u.addrs }
  | .flMovd _ _ a m =>
    let u := useOp [] [] m
    { u with addrs := a.toNat % 8 :: u.addrs }
  | .flMovc _ _ a p m => (useOp (if !p.getLsbD 0 && decide (a = 0) then [rMode] else []) [] m).ctl (p.getLsbD 0) a.toNat
  | .flMovtc _ d a p m =>
    let u := (useOp [rd a] [] m).ctl (p.getLsbD 0) d.toNat
    let u := { u with outside := if p.getLsbD 0 then d = 2 || d = 3 else d = 2 || d = 10 || d = 11 }
    if p.getLsbD 0 then u
    else if d = 0 then { u with go := .mode, writes := (rMode, 2) :: u.writes }
    else { u with setsLink := decide (d = 9) }
  | .flBr _ c t => { FlUse.none with reads := condFlags c, go := .branch (some t.toNat) (c != 0) false }
  | .flCall _ c t => { FlUse.none with reads := condFlags c, go := .branch (some t.toNat) (c != 0) true }
  | .flRet _ c => { FlUse.none with reads := condFlags c, go := .branch none (c != 0) false }
  | .flLoopr _ l r le => { FlUse.none with reads := [rd r], go := .loop l le.toNat true, loop0 := !l }
  | .flLoop _ l c le => { FlUse.none with go := .loop l le.toNat (c == 0), loop0 := !l }
  | .flMode .. => { FlUse.none with go := .mode, writes := [(rMode, 2)] }
  | .flGrp _ n => { FlUse.none with go := .group n.toNat }
  | .flReti _ | .flRetx _ => { FlUse.none with go := .leave }
  | .flWaitf _ n => { FlUse.none with stalls := true, waits := some n.toNat }
  | .flMovia _ r _ => { FlUse.none with addrs := [r.toNat] }
  | .flMovx _ k _ => { FlUse.none with bases := [k.toNat] }
  | .flFmv _ r k _ _ _ _ => { FlUse.none with addrs := [r.toNat], bases := [k.toNat], fabric := true }
  | .flFatm _ r k _ _ _ _ => { FlUse.none with reads := [rd r], bases := [k.toNat], fabric := true }
  | .flXac _ r k read ac _ =>
    { FlUse.none with reads := if read then [] else [if ac then ra r else rd r], bases := [k.toNat], stalls := read }
  | _ => FlUse.none

/-! The paths (R213). -/

/-- The link register as a path knows it: an address of the image, or anything else. -/
abbrev FlLink := Option Nat

/-- A point of a path. `entry` numbers the entries of R212 from 0. -/
structure FlPoint where
  entry : Nat
  pc : Nat
  /-- writes whose distance is not over: register, cycles left, made in the present group -/
  open_ : List (Nat × Nat × Bool)
  /-- cycles since the last interruptible boundary -/
  run : Nat
  group : Nat
  /-- the branch whose delay slot this is -/
  slot : Option (Option Nat × Bool × Bool)
  shadow : Bool
  loop0 : Option (Nat × Nat)
  loop1 : Option (Nat × Nat)
  link : FlLink
  /-- link values overwritten on the path: MOVTC lr may bring any of them back (log entry 60) -/
  links : List Nat
  fabric : Nat
deriving DecidableEq, Repr

/-- The entry with interrupt level, entry_cur. -/
def entryCur : Nat := 4

/-- May an entry use an address register, a base, a length or a control register (R211)? -/
def entrySet (entry : Nat) (u : FlUse) : Bool :=
  if 2 ≤ entry ∧ entry ≤ entryCur ∧ u.outside = true then false
  else if entry = 2 ∨ entry = 3 then u.addrs.all (· < 6) && u.bases.all (· < 2) && u.lens.all (· < 6)
  else if entry = entryCur then u.addrs.all (6 ≤ ·) && u.bases.all (2 ≤ ·) && u.lens.all (6 ≤ ·)
  else true

/-- The rule of R213 an instruction breaks where it stands. -/
def brokenRule (p : FlPoint) (u : FlUse) (cycles : Nat) : Option Nat :=
  let inSlot := p.slot.isSome || p.shadow
  let atLoop := p.loop0.any (·.2 == p.pc) || p.loop1.any (·.2 == p.pc)
  let branch := match u.go with
    | .branch .. => true
    | _ => false
  let forbidden := branch || (match u.go with
    | .mode | .group _ | .loop .. | .leave => true
    | _ => false)
  let stall := u.stalls || (u.fabric && decide (4 ≤ p.fabric))
  let beyond := match u.go, p.loop0 with
    | .loop true le _, some (_, le0) => decide (p.pc ≤ le0) && decide (le0 < le)
    | _, _ => false
  let target := match u.go with
    | .branch (some t) _ _ => decide (t < 0x1000)
    | _ => false
  let overlap := p.open_.any fun w => u.reads.contains w.1 && !(decide (0 < p.group) && w.2.2)
  if p.entry ≠ entryCur ∧ overlap then some 2
  else if 8 < p.run + cycles ∨ (stall = true ∧ (inSlot || decide (0 < p.group)) = true) then some 3
  else if (inSlot && forbidden) || (atLoop && (branch || p.slot.isSome)) || beyond then some 4
  else if target then some 5
  else if (p.entry = entryCur ∧ u.loop0 = true) ∨ !entrySet p.entry u then some 6
  else none

/-- A link value joins those that MOVTC lr may bring back, each once. -/
def noteLink (l : FlLink) (seen : List Nat) : List Nat :=
  match l with
  | some a => if seen.contains a then seen else a :: seen
  | none => seen

/-- Where a path goes on once the instruction at `p` has issued and takes `len` words. -/
def pathOn (p : FlPoint) (u : FlUse) (len : Nat) : List FlPoint :=
  let after := p.pc + len
  let inGroup := decide (0 < p.group)
  let group := match u.go with
    | .group n => n
    | _ => p.group - 1
  let aged := (p.open_.map fun w => (w.1, w.2.1 - len, w.2.2 && decide (0 < group))).filter fun w => decide (0 < w.2.1)
  let fresh := (u.writes.map fun w => (w.1, w.2 - len, inGroup && decide (0 < group))).filter fun w => decide (0 < w.2.1)
  let holds := decide (0 < group) || (match u.go with
    | .branch .. | .mode => true
    | _ => false)
  let fabric := match u.waits with
    | some n => min n p.fabric
    | none => if u.fabric then min 4 (p.fabric + 1) else p.fabric
  let q := { p with
    open_ := fresh ++ aged, run := if holds then p.run + len else 0, group := group, slot := none
    shadow := match u.go with
      | .mode => true
      | _ => false
    fabric := fabric
    link := if u.setsLink then none else p.link
    links := if u.setsLink then noteLink p.link p.links else p.links }
  let ends := fun (q : FlPoint) =>
    let back1 := match q.loop1 with
      | some (ls, le) => if le = p.pc then [{ q with pc := ls }] else []
      | none => []
    let q1 := if q.loop1.any (·.2 == p.pc) then { q with loop1 := none } else q
    let back0 := match q1.loop0 with
      | some (ls, le) => if le = p.pc then [{ q1 with pc := ls }] else []
      | none => []
    let q0 := if q1.loop0.any (·.2 == p.pc) then { q1 with loop0 := none } else q1
    back1 ++ back0 ++ [{ q0 with pc := after }]
  match p.slot with
  | some (t, falls, link) =>
    let q := if link then { q with link := some after, links := noteLink p.link p.links } else q
    let taken := match t with
      | some t => [{ q with pc := t }]
      | none => (match p.link with
        | some l => [l]
        | none => p.links).map fun l => { q with pc := l }
    taken ++ (if falls then [{ q with pc := after }] else [])
  | none =>
    match u.go with
    | .branch t falls link => [{ q with pc := after, slot := some (t, falls, link) }]
    | .loop level le skips =>
      let run := if level then { q with pc := after, loop1 := some (after, le) } else { q with pc := after, loop0 := some (after, le) }
      run :: (if skips then [{ q with pc := le + 1 }] else [])
    | .leave => []
    | _ => ends q

/-- A code word of the image, by program address. -/
def codeAt (code : List (BitVec 36)) (pc : Nat) : Option Nat := if pc < 0x1000 then none else (code[pc - 0x1000]?).map (·.toNat)

/-- Walk every path, `fuel` points at most: the points passed, each with its instruction's length, or the first address and rule
that breaks. -/
def walkPaths (code : List (BitVec 36)) : Nat → List FlPoint → List (FlPoint × Nat) → Except (Nat × Nat) (List (FlPoint × Nat))
  | 0, _, seen => .ok seen
  | _, [], seen => .ok seen
  | n + 1, p :: r, seen =>
    if seen.any (·.1 == p) then walkPaths code n r seen
    else if p.pc < 0x1000 ∨ 0x4000 ≤ p.pc then .error (p.pc, 5)
    else
      match (codeAt code p.pc).bind fun w => flyerWord 0 w ((codeAt code (p.pc + 1)).getD 0) with
      | none => .error (p.pc, 1)
      | some (i, len) =>
        let u := flUse i
        match brokenRule p u len with
        | some k => .error (p.pc, k)
        | none => walkPaths code n (pathOn p u len ++ r) ((p, len) :: seen)

/-- A point on the second word of a long form another point passes (rule 5). -/
def onSecondWord (l : List (FlPoint × Nat)) : Option Nat := (l.find? fun x => l.any fun y => y.2 == 2 && y.1.pc + 1 == x.1.pc).map (·.1.pc)

/-- The check of R213: the address and the rule of the first break it meets (log entry 60). -/
def checkProgram (p : FlyerImage) : Option (Nat × Nat) :=
  let starts := ((List.range 6).filter fun k => p.entries.getD k 0 ≠ 0).map fun k =>
    (⟨k, p.entries.getD k 0, [], 0, 0, none, false, none, none, none, [], 0⟩ : FlPoint)
  match walkPaths p.code (2 ^ 32) starts [] with
  | .error e => some e
  | .ok l => (onSecondWord l).map fun a => (a, 5)

/-! The image (R212, R214). -/

/-- The image FLYER_LOAD carries, where its header and length agree. -/
def flyerImage? (bs : List Byte) : Option FlyerImage :=
  let code := fieldU bs 12 2
  let data := fieldU bs 14 2
  let signed := fieldU bs 6 1 == 1
  let size := 64 + 8 * code + 4 * data + (if signed then 64 else 0)
  let words := (List.range code).map fun i => fieldU bs (64 + 8 * i) 8
  let vals := (List.range data).map fun i => fieldU bs (64 + 8 * code + 4 * i) 4
  if decide (64 ≤ bs.length) && fieldU bs 0 4 == 0x314C5946 && fieldU bs 4 2 == 1 && decide (fieldU bs 6 1 ≤ 1) && decide (fieldU bs 7 1 < 4) &&
      fieldU bs 8 1 == 4 && fieldU bs 9 3 == 0 && decide (1 ≤ code) && decide (code ≤ 12288) && decide (data ≤ 28672) &&
      fieldU bs 16 2 != 0 && (slice bs 34 30).all (· == 0) && bs.length == size && words.all (· < 2 ^ 36) && vals.all (· < 2 ^ 18)
  then
    some ⟨signed, BitVec.ofNat 2 (fieldU bs 7 1), (List.range 6).map fun k => fieldU bs (16 + 2 * k) 2,
      (List.range 3).map fun k => fieldU bs (28 + 2 * k) 2, words.map (BitVec.ofNat 36), vals.map (BitVec.ofNat 18)⟩
  else none

/-- Does the secure-flyer policy admit an image, given what the signature check found (R214)? -/
def policyAdmits (c : SafetyCfg) (p : FlyerImage) (sigOk : Bool) : Bool :=
  let filled := c.keys.getD p.key.toNat 0 != 0
  if c.flyerPolicy = 0 then true
  else if p.signed then filled && sigOk
  else c.flyerPolicy == 1

end Sys2Proof.Machine
end

