-- ==== Sys2Proof/Machine/Link.lean ====
section
/-! DEFINITION. Bursts and receive areas (R238 to R246), and the publications a device sends (R116, R181, R340, R355). -/

namespace Sys2Proof.Machine

/-! What this device publishes (R389). -/

/-- The word of a CAN snapshot a user publication sends (R355). -/
def userWord (s : State) (u : UserPub) : Option Nat :=
  if u.kind = 2 then some (snapWord s.cans[(Fin.ofNat 4 (u.source.toNat / 64) : CanId)] (u.source.toNat % 64)) else none

/-- The payload of a user publication, where its word is not poisoned (R116, R244, R355). -/
def userPayload (s : State) (u : UserPub) : Option Word72 :=
  match userWord s u with
  | some w => if s.mem.isPoisoned w then none else some (s.mem.word w)
  | none =>
    if u.kind = 1 then
      let i : FbId := Fin.ofNat 48 u.source.toNat
      some (pubWord (s.fbs[i].ext * 65536) (fbSpeed (s.key i.val) s.fbs[i]))
    else some (Config.userPub s.free u.kind.toNat u.source.toNat)

/-- The payload and age of a local index, where the device publishes there (R389). -/
def ownPub (s : State) (n : Nat) : Option (Word72 × BitVec 6) :=
  if h : n < 256 then
    let x := s.strands[(⟨n, h⟩ : StrandId)]
    some (strandPub x, BitVec.ofNat 6 (min 63 x.pubAge))
  else if n ≤ 272 then some (convPub s.fio s.fio.x (Fin.ofNat 17 (n - 256)), 0)
  else if n ≤ 289 then some (convPub s.fio s.fio.y (Fin.ofNat 17 (n - 273)), 0)
  else if n = 290 then some (inputsPub s.fio, 0)
  else if n = 291 then some (outputsPub s.fio, 0)
  else if 480 ≤ n ∧ n ≤ 495 then some (s.probes[(Fin.ofNat 16 (n - 480) : ProbeId)].pub, 0)
  else if 512 ≤ n then (s.userPubs.find? fun u => u.index == n).bind fun u => (userPayload s u).map fun w => (w, 0)
  else none

/-- Device number and local index of an endpoint (R389). -/
def epDevice (e : BitVec 24) : BitVec 14 := e.extractLsb' 10 14
def epLocal (e : BitVec 24) : Nat := e.toNat % 1024

/-! The order of publications in a burst (R244). -/

/-- Insert by rising index. -/
def insertPub (p : SchedPub) : List SchedPub → List SchedPub
  | [] => [p]
  | q :: r => if p.index ≤ q.index then p :: q :: r else q :: insertPub p r

def sortPubs (l : List SchedPub) : List SchedPub := l.foldr insertPub []

/-- The publications of a device's home burst. -/
def homePubs (c : Schedule) (device : BitVec 14) : List SchedPub :=
  sortPubs ((c.pubs.map (·.2)).filter fun p => epDevice p.endpoint == device)

/-- The publications a T port of a gateway carries, into its segment or out of it (R244, R246). -/
def crossPubs (t : Topology) (c : Schedule) (gateway : BitVec 14) (port : Port) (inward : Bool) : List SchedPub :=
  sortPubs ((c.pubs.map (·.2)).filter (t.crosses gateway port inward))

/-- The slots of a device of one kind. -/
def slotsOf (c : Schedule) (device : BitVec 14) (kind : BurstKind) : List SchedSlot :=
  (c.slots.map (·.2)).filter fun x => x.device == device && decide (x.kind = kind)

/-- The publications of an export burst: those of the export slot with as many, from the same endpoint on. -/
def exportPubs (t : Topology) (c : Schedule) (device : BitVec 14) (n : Nat) (head : BitVec 24) : List SchedPub :=
  let ls := (slotsOf c device .exported).map fun x => crossPubs t c device (x.port.getD .t0) true
  ((ls.find? fun l => l.length == n && (l.head?.map (·.endpoint)).getD 0 == head).orElse fun _ => ls.head?).getD []

/-! The receive areas (R245). -/

/-- Does the area hold an index? -/
def indexFits (l : Link) (idx : Nat) : Bool := decide (idx < areaUnits l * 16384)

/-- Store a publication in the area of the present cycle: the payload, then the status byte. -/
def State.storePub (s : State) (idx : Nat) (payload : Word72) (age : BitVec 6) : State :=
  if !indexFits s.link idx then s.modLink fun l => { l with idxOver := sat 127 l.idxOver }
  else
    let w := areaWord s.link s.link.area idx
    let a := areaStatus s.link s.link.area idx
    let st : Byte := BitVec.ofNat 8 (age.toNat + s.seq.cycle.toNat % 4 * 64)
    let s := if w < wordCount ∧ a < 8 * wordCount then
        ((s.wakeRange (8 * w) (8 * w + 8)).wakeRange a (a + 1)).modMem fun m => (m.writeWord w payload).mergeByte a st
      else s
    s.modLink fun l => { l with
      stored := if l.stored.contains idx then l.stored else idx :: l.stored
      lastGood := setGood idx (payload, age) l.lastGood }
where
  /-- The sequencer's record of an index, the list kept rising. -/
  setGood (i : Nat) (v : Word72 × BitVec 6) : List (Nat × (Word72 × BitVec 6)) → List (Nat × (Word72 × BitVec 6))
    | [] => [(i, v)]
    | e :: r => if i < e.1 then (i, v) :: e :: r else if i = e.1 then (i, v) :: r else e :: setGood i v r

/-- Payload and age of an index stored in an area under the status of a cycle, where it is there. -/
def areaPub (s : State) (area : Bool) (cycle idx : Nat) : Option (Word72 × BitVec 6) :=
  let st := s.mem.readByte (areaStatus s.link area idx)
  if indexFits s.link idx && bits st.toNat 7 6 == cycle % 4 then
    let w := areaWord s.link area idx
    if s.mem.isPoisoned w then none else some (s.mem.word w, st.truncate 6)
  else none

/-- A publication of a burst; one that is missing goes with payload 0 and age 63 (R244). -/
def pubOf (p : SchedPub) (v : Option (Word72 × BitVec 6)) : Pub :=
  match v with
  | some (w, a) => ⟨p.endpoint, w, a⟩
  | none => ⟨p.endpoint, 0, 63⟩

/-- This device's own publications reach its own receive area too: subscribers on the same device read them there. -/
def State.storeOwn (s : State) : State :=
  let own := if s.link.hasSched then (homePubs s.link.sched s.link.device).map fun p => (p.endpoint, p.index) else []
  let mapped := (s.mem.pubmap.filter fun e => epDevice e.1 == s.link.device && !own.any fun o => o.1 == e.1).map fun e => (e.1, e.2.toNat)
  (own ++ mapped).foldl (fun s e => match ownPub s (epLocal e.1) with
    | some (w, a) => if indexFits s.link e.2 then s.storePub e.2 w a else s
    | none => s) s

/-! Transmission (R238, R246, R250). -/

/-- The slot time of an own burst in block times; a tree burst leaves at the cycle start (R246). -/
def ownStart (s : State) (b : Burst) : Nat :=
  (((slotsOf s.link.sched s.link.device b.kind).find? fun x => x.count == b.pubs.length).map (·.start * 100 / 128)).getD 0

/-- Is a port sending a burst it forwards when the slot of an own burst comes (R250)? -/
def ownLateAt (s : State) (p : Port) (b : Burst) : Bool :=
  (s.port p).fwd.any fun w => decide (w.1 ≤ ownStart s b) && decide (ownStart s b < w.2)

/-- A burst leaves by a port, where that port can send, and keeps the port busy (R250). -/
def State.emitBurst (s : State) (p : Port) (b : Burst) : State :=
  if (s.port p).ready && portOn (s.port p) then
    let n := burstBlocks b.pubs.length
    (s.modPort p fun x => { x with busy := max x.busy (ownStart s b) + n * blockTime x }).emit (.burst p { b with zward := decide (p = .z) } n)
  else s

/-- The same publications out of S and Z at once. An own burst is late on a port that sends a forwarded one then: as the bursts
received say, or, for one that is still coming in, `late`. -/
def State.twoPly (s : State) (kind : BurstKind) (pubs : List Pub) (late : List Port) : State :=
  let b : Burst := ⟨kind, false, s.link.sched.gen, s.link.device, s.seq.cycle.truncate 16, pubs⟩
  let s := [Port.s, Port.z].foldl (fun t p => if late.contains p || ownLateAt s p b then t.modPort p fun x => { x with ownLate := sat 127 x.ownLate } else t) s
  (s.emitBurst .s b).emitBurst .z b

/-- The link reads words of the banks: they wake, and its reads meet bit errors (R35, R227). -/
def State.readWords (s : State) (ecc : List EccErr) (l : List Nat) : State :=
  l.foldl (fun s w => (s.wakeRange (8 * w) (8 * w + 8)).meetErrors ecc w (w + 1) reqLink) s

/-- The home burst: each word is read once; the snapshots it sends stand in the banks, where their reads meet the bit errors of
`ecc` (R227, R244). -/
def State.homeBurst (s : State) (late : List Port) (ecc : List EccErr) : State :=
  let own := homePubs s.link.sched s.link.device
  let words := own.filterMap fun p => (s.userPubs.find? fun u => 512 ≤ epLocal p.endpoint && u.index == epLocal p.endpoint).bind (userWord s)
  let s := s.readWords ecc words
  s.twoPly .home (own.map fun p => pubOf p (ownPub s (epLocal p.endpoint))) late

/-- The export burst of one T port: what came over it in this cycle, ages unchanged. -/
def State.exportBurst (s : State) (port : Port) (late : List Port) (ecc : List EccErr) : State :=
  let l := crossPubs s.link.topo s.link.sched s.link.device port true
  let s := s.readWords ecc (l.map fun p => areaWord s.link s.link.area p.index)
  let ps := l.map fun p => pubOf p (areaPub s s.link.area s.seq.cycle.toNat p.index)
  s.twoPly .exported ps late

/-- The tree burst of one T port at a cycle start: what the segment gave in the last cycle, one cycle older (R246). A schedule that
has just taken over orders it; each value was stored under the index `old` gave its endpoint. -/
def State.treeBurst (s : State) (old : Schedule) (port : Port) : State :=
  let ps := (crossPubs s.link.topo s.link.sched s.link.device port false).map fun p =>
    match (old.pubs.find? fun e => e.2.endpoint == p.endpoint).bind fun e => areaPub s (!s.link.area) (s.seq.cycle.toNat + 3) e.2.index with
    | some (w, a) => (⟨p.endpoint, w, if a = 63 then 63 else a + 1⟩ : Pub)
    | none => pubOf p none
  if ps.isEmpty then s
  else s.emitBurst port ⟨.tree, false, s.link.sched.gen, s.link.device, s.seq.cycle.truncate 16, ps⟩

/-- BURST_TRANSMIT: the bursts of one kind leave; a device that has just joined sends from the next cycle start on (R254). -/
def execBurstTransmit (kind : BurstKind) (late : List Port) (ecc : List EccErr) (s : State) : Answer :=
  .next (
    let l := s.link
    if !(l.member && l.hasSched) || l.joining then s
    else
      match kind with
      | .home => if (slotsOf l.sched l.device .home).isEmpty then s else s.homeBurst late ecc
      | .exported => (slotsOf l.sched l.device .exported).foldl (fun s x => s.exportBurst (x.port.getD .t0) late ecc) s
      | .tree => s)

/-! Reception (R239, R244, R245). -/

/-- Count something once in a cycle for a source. -/
def State.once (s : State) (source : BitVec 14) (what : Nat) (f : State → State) : State :=
  if s.link.counted.contains (source, what) then s
  else f (s.modLink fun l => { l with counted := (source, what) :: l.counted })

def State.schedErr (s : State) : State := s.modLink fun l => { l with schedErr := sat 255 l.schedErr }

/-- The blocks of 8 bytes the 64 KiB forwarding buffer of a port holds (R251). -/
def fwdCap : Nat := 8192

/-- Blocks of earlier forwarded bursts that a port has still to send at a block time. -/
def backlog (fwd : List (Nat × Nat)) (rout time : Nat) : Nat := (fwd.map fun w => (w.2 - max w.1 time) / rout).foldl (· + ·) 0

/-- Blocks that stand in the forwarding buffer when block `k` of a passing burst arrives: those of earlier bursts, and of this one,
which arrives from `time` on at `rin` block times a block, and leaves at `rout` once the port has sent what keeps it busy for
`wait` more (R251). -/
def fwdFill (fwd : List (Nat × Nat)) (rin rout time wait k : Nat) : Nat :=
  backlog fwd rout (time + k * rin) + (k - (k * rin - wait) / rout)

/-- The block of a passing burst at which the buffer fills, if it does. -/
def fwdCut (fwd : List (Nat × Nat)) (n rin rout time wait : Nat) : Option Nat :=
  (List.range (n + 1)).find? fun k => decide (fwdCap < fwdFill fwd rin rout time wait k)

/-- A copy that arrived `time` block times after the cycle start goes on in its direction, unless that port leads to the
burst's source (R238); where the forwarding buffer fills, its rest is cut and a stomped end goes out (R251). -/
def State.forward (s : State) (p : Port) (b : Burst) (good : Bool) (time : Nat) : State :=
  let q := otherPort p
  let x := s.port q
  if !isRing p || !x.ready || (x.nbrValid && x.nbrDevice == b.source) then s
  else
    let n := burstBlocks b.pubs.length
    let rin := blockTime (s.port p)
    let rout := blockTime x
    let from_ := max x.busy time
    let sends := fun (s : State) (upTo : Nat) => s.modPort q fun y => { y with busy := upTo, fwd := y.fwd ++ [(from_, upTo)] }
    match fwdCut x.fwd n rin rout time (x.busy - time) with
    | some k => ((sends s (from_ + k * rout)).emit (.burst q b k)).emit (.stomp q)
    | none =>
      let s := sends s (max (from_ + n * rout) (time + n * rin))
      if good then s.emit (.burst q b n) else (s.emit (.burst q b (n - 1))).emit (.stomp q)

/-- The first endpoint of a burst. -/
def burstHead (b : Burst) : BitVec 24 := (b.pubs.head?.map (·.endpoint)).getD 0

/-- A late burst counts its publications once, however many copies come and whenever (R12, R245). -/
def State.lateBurst (s : State) (b : Burst) : State :=
  let e := (b.source, kindCode b.kind, b.cycle, burstHead b)
  if s.link.lateSeen.contains e then s
  else (s.modLink fun l => { l with lateSeen := e :: l.lateSeen }).modSeq fun q => { q with late := satAdd 255 q.late b.pubs.length }

/-- The schedule's order for a burst. -/
def burstOrder (s : State) (p : Port) (b : Burst) : List SchedPub :=
  match b.kind with
  | .home => homePubs s.link.sched b.source
  | .exported => exportPubs s.link.topo s.link.sched b.source b.pubs.length (burstHead b)
  | .tree => crossPubs s.link.topo s.link.sched s.link.device p true

/-- A number that tells a burst from every other of its source in a cycle: its first endpoint and its kind. -/
def burstKey (b : Burst) : Nat := (burstHead b).toNat * 2 ^ 20 + kindCode b.kind * 2 ^ 16

/-- One publication of a good first copy. -/
def State.takePub (s : State) (b : Burst) (i : Nat) (p : Pub) (e : Option SchedPub) : State :=
  match e with
  | some e =>
    if e.endpoint = p.endpoint then (if s.link.stored.contains e.index then s else s.storePub e.index p.payload p.age)
    else s.once b.source (burstKey b + 100 + i) State.schedErr
  | none => s.once b.source (burstKey b + 100 + i) State.schedErr

/-- All publications of a good first copy. -/
def State.takePubs (s : State) (b : Burst) : Nat → List Pub → List SchedPub → State
  | _, [], _ => s
  | i, p :: ps, es => (s.takePub b i p es.head?).takePubs b (i + 1) ps es.tail

/-- BURST_RECEIVE: a copy arrives, is forwarded, checked, and the first good one stored. -/
def execBurstReceive (port : Port) (burst : Burst) (arrival : Arrival) (s : State) : Answer :=
  .next (
    let good := burstGood burst arrival
    if !(s.port port).ready then s
    else
      let first := !s.link.seen.any fun x => x.source == burst.source && decide (x.kind = burst.kind) && x.head == burstHead burst && x.good
      let s := if burst.kind = .tree then s else s.forward port burst good arrival.time
      let s := if good && burst.cycle != s.seq.cycle.truncate 16 then s
        else s.modLink fun l => { l with seen := ⟨burst.source, burst.kind, port, good, burstHead burst⟩ :: l.seen }
      if !good then s.modPort port fun x => { x with crcErr := sat 255 x.crcErr }
      else if burst.cycle != s.seq.cycle.truncate 16 then
        s.lateBurst burst
      else if !s.link.hasSched then s
      else if burst.gen != s.link.sched.gen then
        let s := s.once burst.source (burstKey burst) State.schedErr
        match s.link.next with
        | some n => if n.gen = burst.gen then s.modLink fun l => { l with next := some { n with switchCycle := (s.seq.cycle + 1).zeroExtend 64 } } else s
        | none => s
      else if first then s.takePubs burst 0 burst.pubs (burstOrder s port burst)
      else s)

/-- A burst of the own segment that should come, evaluated when the cycle ends (R239): a copy that failed while its
twin was good counts in single_ply of its port; with neither good, missing of both ring ports counts. A wrapped port
expects nothing, and in a chain there is no second copy (R240, R241; log entry 197). -/
def State.countCopies (s : State) (seen : List SeenBurst) (x : SchedSlot) : State :=
  let got := fun (p : Port) => seen.any fun c => c.source == x.device && decide (c.kind = x.kind) && decide (c.port = p) && c.good &&
    (decide (x.kind ≠ .exported) || c.head == ((crossPubs s.link.topo s.link.sched x.device (x.port.getD .t0) true).head?.map (·.endpoint)).getD 0)
  let miss := fun (s : State) (p : Port) => s.modPort p fun q => { q with missing := sat 65535 q.missing }
  let lone := fun (s : State) (p : Port) =>
    if (s.port p).wrapped || !s.link.ring then s else s.modPort p fun q => { q with single := sat 65535 q.single }
  match got .s, got .z with
  | true, true => s
  | true, false => lone s .z
  | false, true => lone s .s
  | false, false => miss (miss s .s) .z

/-- The bursts of the cycle that ends. -/
def State.countBursts (s : State) : State :=
  let l := s.link
  let due := if l.hasSched then
      (l.sched.slots.map (·.2)).filter fun x => x.segment == l.segment.toNat && x.device != l.device && decide (x.kind ≠ .tree)
    else []
  let s := due.foldl (fun s x => s.countCopies l.seen x) s
  s.modLink fun l => { l with seen := [], counted := [], stored := [] }

end Sys2Proof.Machine
end

