-- ==== Sys2Proof/Machine/Schedule.lean ====
section
/-! DEFINITION. The domain: its schedule (R255 to R259), the master and the enumeration (R252, R253), joining and
leaving (R254), prints (R284), user publications (R116) and the host's subscription list (R56). -/

namespace Sys2Proof.Machine

/-! The schedule's entries (R255). -/

def recBytes32 (r : Rec32) : List Byte := leBytes 32 r.toNat
def recOf (bs : List Byte) : Rec32 := BitVec.ofNat 256 (leNat (slice bs 0 32))

/-- The byte-view address of a schedule entry. -/
def entryAddr32 (l : Link) (e : Nat) : Nat := l.schedBase.toNat * 0x100000 + 32 * e

/-- An entry as the banks hold it. -/
def bankEntry (s : State) (e : Nat) : Rec32 := recOf (s.mem.readBytes (entryAddr32 s.link e) 32)

/-- A publication entry, or nothing where a field is out of range. -/
def schedPub? (bs : List Byte) : Option SchedPub :=
  let idx := fieldU bs 1 3
  let scope := fieldU bs 7 1
  if idx < 2 ^ 18 ∧ scope < 3 ∧ zeroBytes bs 18 32 = true then
    some ⟨idx, BitVec.ofNat 24 (fieldU bs 4 3), scope, fieldU bs 8 2, (List.range 4).map fun i => fieldU bs (10 + 2 * i) 2⟩
  else none

/-- A slot entry, or nothing. -/
def schedSlot? (bs : List Byte) : Option SchedSlot :=
  let kind := fieldU bs 5 1
  let port := fieldU bs 6 1
  let k : Option (BurstKind × Option Port) := match kind, port with
    | 0, 255 => some (.home, none)
    | 1, 2 => some (.exported, some .t0)
    | 1, 3 => some (.exported, some .t1)
    | 2, 2 => some (.tree, some .t0)
    | 2, 3 => some (.tree, some .t1)
    | _, _ => none
  let n := fieldU bs 12 2
  match k with
  | some (k, p) =>
    if fieldU bs 3 2 < 2 ^ 14 ∧ 1 ≤ n ∧ n ≤ 16384 ∧ zeroBytes bs 14 32 = true then
      some ⟨fieldU bs 1 2, BitVec.ofNat 14 (fieldU bs 3 2), k, p, fieldU bs 8 4, n⟩
    else none
  | none => none

/-- The entries of a schedule after its header, numbered: the decoded schedule, or the first entry that is wrong. -/
def decodeEntries : List (Nat × Rec32) → Schedule → Except Nat Schedule
  | [], c => .ok c
  | (e, r) :: l, c =>
    let bs := recBytes32 r
    match fieldU bs 0 1 with
    | 0 => decodeEntries l c
    | 1 => match schedPub? bs with
      | some p => decodeEntries l { c with pubs := c.pubs ++ [(e, p)] }
      | none => .error e
    | 2 => match schedSlot? bs with
      | some x => decodeEntries l { c with slots := c.slots ++ [(e, x)] }
      | none => .error e
    | _ => .error e

/-- A whole schedule from its header and entries 1 on; the header's CRC covers the entries. -/
def decodeSchedule (header : Rec32) (rest : List (Nat × Rec32)) : Except Nat Schedule :=
  let h := recBytes32 header
  let t := fieldU h 2 2
  if fieldU h 0 1 = 3 ∧ 16 ≤ t ∧ t ≤ 16384 ∧ fieldU h 4 4 = rest.length + 1 ∧ zeroBytes h 28 32 = true ∧
      fieldU h 24 4 = (crc32 (rest.flatMap fun e => recBytes32 e.2)).toNat then
    decodeEntries rest ⟨BitVec.ofNat 3 (fieldU h 1 1), BitVec.ofNat 16 t, BitVec.ofNat 64 (fieldU h 8 8), BitVec.ofNat 64 (fieldU h 16 8), [], []⟩
  else .error 0

/-! The master's check (R256, R258, R259). -/

/-- The last instant of a slot's burst in a segment's farthest device, in 1/100 ns. -/
def slotEnd (g : Topology) (x : SchedSlot) : Nat := (x.start + g.roundNs x.segment) * 100 + burstBlocks x.count * 128

/-- Does a slot meet R258 at a cycle of `t` × 250 ns? -/
def slotMeets (g : Topology) (t : Nat) (x : SchedSlot) : Bool :=
  decide (slotEnd g x + 200000 ≤ t * 25000) && decide ((g.roundNs x.segment + 2000) ≤ t * 250)

/-- The length of a slot's burst in 1/100 ns. -/
def slotLong (x : SchedSlot) : Nat := burstBlocks x.count * 128

/-- Does a slot's burst keep two slack blocks clear of every other burst on every port, and an export burst follow the tree
burst that feeds it (R256)? -/
def slotFits (g : Topology) (c : Schedule) (e : Nat × SchedSlot) : Bool :=
  !(c.slots.any fun o => o.1 != e.1 && g.overlap (slotLong e.2) (slotLong o.2) e.2 o.2) &&
    (decide (e.2.kind ≠ .exported) || match g.feeder c e.2 with
      | some (y, m) => decide (100 * y.start + slotLong y + 100 * linkNs m ≤ 100 * e.2.start)
      | none => true)

/-- The publications a segment admits in a cycle of `t` × 250 ns: C = 0.9 × r × T / 96 bits, r = 25 Gb/s where a ring port
is degraded and 50 Gb/s otherwise (R259). -/
def capacity (slow : Bool) (t : Nat) : Nat := 9 * (if slow then 25 else 50) * (t * 250) / 960

/-- Does a slot, with the slots of its segment before it, go beyond the capacity? -/
def overCapacity (slow : Nat → Bool) (c : Schedule) (e : Nat × SchedSlot) : Bool :=
  decide (capacity (slow e.2.segment) c.t.toNat <
    ((c.slots.filter fun g => g.2.segment == e.2.segment && decide (g.1 ≤ e.1)).map (·.2.count)).foldl (· + ·) 0)

/-- The segments that hold a degraded ring port: this device's ports as they stand, the others' as the enumeration found them (log
entry 154). -/
def slowSegment (s : State) (seg : Nat) : Bool :=
  (seg == s.link.segment.toNat && ((s.port .s).degraded || (s.port .z).degraded)) ||
    s.link.topo.degraded.any fun d => d.1 != s.link.topo.self && isRing d.2 && s.link.topo.segments[d.1]? == some seg

/-- The first entry that breaks a rule of R256, R258 or R259. -/
def badEntry (slow : Nat → Bool) (g : Topology) (c : Schedule) : Option Nat :=
  let twice := c.pubs.find? fun e => c.pubs.any fun g => decide (g.1 < e.1) && (g.2.index == e.2.index || g.2.endpoint == e.2.endpoint)
  let late := c.slots.find? fun e => !slotMeets g c.t.toNat e.2
  let clash := c.slots.find? fun e => !slotFits g c e
  let full := c.slots.find? (overCapacity slow c)
  let all := (full.map (·.1)).toList ++ (twice.map (·.1)).toList ++ (late.map (·.1)).toList ++ (clash.map (·.1)).toList
  if all.isEmpty then none else some (all.foldl min (2 ^ 18))

/-- What this device finds against a cycle time as its own member: a quad that no longer locks (R15), or a strand whose
dividers break R13. -/
def ownRefusal (s : State) (t : Nat) : Option SchedRefusal :=
  let quad := (List.finRange 12).any fun q => s.quads[q].carrierSet && !carrierLocks s.quads[q].sh.period.toNat (t * 3200)
  let strand := (List.finRange 256).find? fun i =>
    let c := s.strands[i].cfg
    (c.binding != .unbound || c.configured) && !ratesOk (t * 250) c.dS c.kP c.dP
  if quad then some ⟨s.link.device, none⟩ else strand.map fun i => ⟨s.link.device, some (BitVec.ofNat 8 i.val)⟩

/-- The first cycle at least 10 ms ahead whose start is a whole multiple of the new cycle (R256, R257). -/
def switchFrom (origin : Int) (old new : Nat) : Nat → Nat → Nat
  | 0, n => n
  | k + 1, n => if (origin + (n * old * 250 : Nat)) % ((new * 250 : Nat) : Int) = 0 then n else switchFrom origin old new k (n + 1)

/-- A schedule agreed: its switch cycle and its t_0 (R256, R257). -/
def agreed (s : State) (c : Schedule) : Schedule :=
  let old := s.link.sched.t.toNat
  let o := s.link.sched.origin.toInt
  let n := switchFrom o old c.t.toNat (c.t.toNat + 1) (s.seq.cycle.toNat + (10000000 + old * 250 - 1) / max 1 (old * 250))
  { c with switchCycle := BitVec.ofNat 64 n, origin := if c.t = s.link.sched.t then s.link.sched.origin else BitVec.ofInt 64 (o + (n * old * 250 : Nat) - (n * c.t.toNat * 250 : Nat)) }

/-- The bytes of the result of a refusal (R256, R257). -/
def refusalBytes (r : SchedRefusal) : List Byte := leBytes 4 0 ++ leBytes 2 r.device.toNat ++ leBytes 2 ((r.strand.map (·.toNat)).getD 0)

/-! SCHEDULE_WRITE (R256). -/

def execScheduleWrite (o : Origin) (first count : Word) (desc : Desc) (s : State) : Answer :=
  .next (runLong (.scheduleWrite o first count desc) o (fun s => allowIf s.link.master) s)

/-- The entries a descriptor carries. -/
def entriesOf (first : Nat) (bs : List Byte) : List (Nat × Rec32) :=
  (List.range (bs.length / 32)).map fun i => (first + i, recOf (bs.drop (32 * i)))

/-- Put entries into the pending copy. -/
def stageEntries (l new : List (Nat × Rec32)) : List (Nat × Rec32) := l.filter (fun e => !new.any fun n => n.1 == e.1) ++ new

/-- Entry `e` of the pending copy: as written, or as in force (log entry 58). -/
def pendingEntry (s : State) (e : Nat) : Rec32 := ((s.link.staged.find? fun x => x.1 == e).map (·.2)).getD (bankEntry s e)

/-- The pending copy under a header. -/
def pendingSchedule (s : State) : Except Nat Schedule :=
  let h := pendingEntry s 0
  let n := fieldU (recBytes32 h) 4 4
  if n = 0 ∨ 262144 < n then .error 0
  else decodeSchedule h ((List.range (n - 1)).map fun i => (i + 1, pendingEntry s (i + 1)))

/-- Does a write commit: its range holds entry 0, with a new gen? -/
def commits (s : State) (first : Nat) : Bool := first == 0 && bits (pendingEntry s 0).toNat 10 8 != s.link.sched.gen.toNat

/-- The first word of the banks that the pending copy needs and that is poisoned (R71, R227): a word of its header, or of an
entry not written. -/
def pendingPoison (s : State) : Option Nat :=
  let n := fieldU (recBytes32 (pendingEntry s 0)) 4 4
  if n = 0 ∨ 262144 < n then none
  else (List.range n).findSome? fun e =>
    if s.link.staged.any fun x => x.1 == e then none
    else (List.range 4).findSome? fun k => if s.mem.isPoisoned (entryAddr32 s.link e / 8 + k) then some (entryAddr32 s.link e + 8 * k) else none

/-- What a commit that is refused or aborted leaves: the pending copy as it was before the write (R63, R75). -/
def State.unstage (s : State) : State := s.modLink fun l => { l with staged := l.stagedWas, stagedWas := [] }

/-- Is another SCHEDULE_WRITE committing? -/
def committing (s : State) : Bool := s.dist.longs.any fun g => opcodeOf g.cmd == some 0x5003 && g.phase != 0

/-- One step of SCHEDULE_WRITE: it waits while an agreed schedule or another commit does, then stage and check, distribute, gather the
confirmations, switch. -/
def stepSchedule (first : Word) (d : Desc) (phase : Nat) (refusals : List SchedRefusal) (s : State) : LongStep :=
  let drop := State.unstage
  match phase with
  | 0 =>
    if s.link.next.isSome || committing s then .goOn s 0 0 else
    let s := s.modLink fun l => { l with stagedWas := l.staged, staged := stageEntries l.staged (entriesOf first.toNat (d.data.getD [])) }
    if !commits s first.toNat then .ends s stOk []
    else if let some a := pendingPoison s then .ends (drop s) stPoisoned (leBytes 4 a)
    else
      match pendingSchedule s with
      | .error e => .ends (drop s) stRefused (leBytes 4 e)
      | .ok c =>
        match badEntry (slowSegment s) s.link.topo c with
        | some e => .ends (drop s) stRefused (leBytes 4 e)
        | none => .goOn (s.emit (.schedule c.gen)) 1 300
  | 1 =>
    match pendingSchedule s with
    | .error e => .ends (drop s) stRefused (leBytes 4 e)
    | .ok c =>
      if s.link.next.isSome then .goOn s 1 300 else
      match refusals.head?.orElse (fun _ => ownRefusal s c.t.toNat) with
      | some r => .ends (drop s) stRefused (refusalBytes r)
      | none => .goOn (s.modLink fun l => { l with next := some (agreed s c) }) 2 600
  | n => if s.link.next.isSome then .goOn s n 800 else .endsAt s (BitVec.ofNat 48 s.link.sched.switchCycle.toNat)

/-- An abort: the entries written are discarded, with the schedule this operation has agreed (R75). -/
def abortSchedule (phase : Nat) (s : State) : State :=
  if phase = 0 then s
  else if phase = 1 then s.unstage
  else s.unstage.modLink fun l => { l with next := none }

/-- The commit in progress ends with a device's refusal (R256, R257). -/
def execScheduleConfirmTimeout (refusal : SchedRefusal) (s : State) : Answer :=
  .next (
    match s.link.setCycle with
    | some c =>
      match originOf c with
      | some o => (s.modLink fun l => { l with setCycle := none, next := none }).finish c o stRefused (refusalBytes refusal)
      | none => s
    | none =>
      match s.dist.longs.find? fun g => opcodeOf g.cmd == some 0x5003 && g.phase != 0 with
      | some g =>
        match originOf g.cmd with
        | some o => ((abortSchedule g.phase s).modDist fun q => { q with longs := q.longs.erase g }).finish g.cmd o stRefused (refusalBytes refusal)
        | none => s
      | none => s)

/-! The switch (R9, R56, R256, R257). -/

/-- The schedule's bytes as the banks hold them: the header with its switch, then the entries of a pending copy; a SET_CYCLE has
none. -/
def State.storeSchedule (s : State) (c : Schedule) (staged : List (Nat × Rec32)) : State :=
  let h := recBytes32 (((staged.find? fun x => x.1 == 0).map (·.2)).getD (bankEntry s 0))
  let h := h.take 2 ++ leBytes 2 c.t.toNat ++ slice h 4 4 ++ leBytes 8 c.switchCycle.toNat ++ leBytes 8 c.origin.toNat ++ slice h 24 8
  let h := h.take 1 ++ leBytes 1 c.gen.toNat ++ h.drop 2
  let put := fun (m : Mem) (e : Nat × Rec32) => m.mergeBytes (entryAddr32 s.link e.1) (recBytes32 e.2)
  s.modMem fun m => put ((staged.filter fun e => e.1 != 0).foldl put m) (0, recOf h)

/-- The SCHEDULE_WRITE whose schedule waits for its switch. -/
def switching (s : State) : Option LongOp := s.dist.longs.find? fun g => opcodeOf g.cmd == some 0x5003 && g.phase == 2

/-- The agreed schedule takes over at its switch cycle, and the command that agreed it ends. A SCHEDULE_WRITE that has been cancelled
meanwhile leaves the schedule in force (R75). -/
def State.switchSchedule (s : State) : State :=
  match s.link.next with
  | none => s
  | some c =>
    if s.seq.cycle.toNat < c.switchCycle.toNat then s
    else
      let at_ := BitVec.ofNat 48 c.switchCycle.toNat
      let take := fun (s : State) (l : List (Nat × Rec32)) =>
        ((s.storeSchedule c l).modLink fun x => { x with sched := c, hasSched := true, next := none, setCycle := none }).cutSubs
      let end_ := fun (s : State) (i : Instr) => match originOf i with
        | some o => s.finishAt i o stOk at_
        | none => s
      match s.link.setCycle, switching s with
      | some i, _ => end_ (take s []) i
      | none, some g =>
        if g.cancel then s.modLink fun l => { l with next := none }
        else end_ ((take (s.modLink fun l => { l with staged := [], stagedWas := [] }) s.link.staged).modDist fun q => { q with longs := q.longs.erase g }) g.cmd
      | none, none => take (s.modLink fun l => { l with staged := [], stagedWas := [] }) s.link.staged

/-- SCHEDULE_SWITCH: a device that is not master has received and confirmed a schedule, which it takes at its switch
cycle; the master's own waits already. -/
def execScheduleSwitch (entries : List Rec32) (s : State) : Answer :=
  .next (
    let s := match entries with
      | [] => s
      | h :: r =>
        let l := (List.range r.length).map fun i => (i + 1, r.getD i 0)
        match decodeSchedule h l with
        | .error _ => s
        | .ok c => if (ownRefusal s c.t.toNat).isSome then s else s.modLink fun x => { x with staged := (0, h) :: l, next := some c }
    s.switchSchedule)

/-! SET_CYCLE (R257). -/

/-- The schedule in force under a new T and generation. -/
def cycleSchedule (s : State) (t : Half) : Schedule := { s.link.sched with t := t, gen := s.link.sched.gen + 1 }

def checkSetCycle (t : Half) (s : State) : Half :=
  allowIf (s.link.master && s.link.next.isNone && (badEntry (slowSegment s) s.link.topo (cycleSchedule s t)).isNone)

/-- The new schedule is agreed and waits; the command ends at the switch. Where this device itself refuses, the command ends
with that refusal and nothing changes. -/
def applySetCycle (t : Half) (cmd : Instr) (s : State) : State :=
  match originOf cmd, ownRefusal s t.toNat with
  | some o, some r => s.finish cmd o stRefused (refusalBytes r)
  | _, _ =>
    let c := agreed s (cycleSchedule s t)
    (s.modLink fun l => { l with next := some c, setCycle := some cmd }).emit (.schedule c.gen)

/-! DOMAIN_LEAVE and joining (R254). -/

def checkLeave (s : State) : Half := allowIf ((s.strandsWhere fun x => x.within [.run, .hold, .stopping]).isEmpty)

def applyLeave (s : State) : State := s.modLink fun l => { l with member := false, joining := false }

/-- Is the selected domain tracked? -/
def timeTracked (s : State) : Bool := if s.time.sel = .td1 then s.time.td1.hasMaster else s.time.td2.hasMaster

/-- DOMAIN_JOIN: the device steps its time and its cycle counter once, and sets member. -/
def execDomainJoin (time : BitVec 64) (cycle : BitVec 48) (s : State) : Answer :=
  .next (
    let l := s.link
    if l.member || s.rec_.printing || !l.numbered || !l.hasSched || !timeTracked s || !allPorts.any (fun p => (s.port p).ready) then s
    else
      let d := fun (x : TimeDom) => { x with ns := time, frac := 0 }
      let s := s.modTime fun t => if t.sel = .td1 then { t with dev := time, devFrac := 0, td1 := d t.td1 } else { t with dev := time, devFrac := 0, td2 := d t.td2 }
      let s := s.modSeq fun q => { q with cycle := cycle, running := true }
      ((s.modLink fun l => { l with member := true, joining := true }).setReady rdyDomain true).raise 13)

/-! The domain master (R252). -/

/-- Does candidate a go before b: the higher priority, then the lower serial? -/
def Candidate.beats (a b : Candidate) : Bool := decide (b.prio < a.prio) || (a.prio == b.prio && decide (a.serial < b.serial))

/-- The winner of an election; priority 0 never wins. -/
def elect (l : List Candidate) : Option Candidate :=
  (l.filter fun c => c.prio != 0).foldl (fun (w : Option Candidate) c => match w with
    | none => some c
    | some x => if Candidate.beats c x then some c else w) none

/-- The candidates of an election, this device with its own priority and serial. -/
def State.asSelf (s : State) (prio : BitVec 4) (l : List Candidate) : List Candidate :=
  l.map fun c => if c.self then { c with prio := prio, serial := s.id.serial } else c

def execBeaconSend (s : State) : Answer :=
  .next (if s.link.master then
      s.sendFrame broadcastDst kindBeacon (Config.peerData 5 [s.id.serial.toNat, ((s.link.next.map (·.switchCycle.toNat)).getD 0)])
    else s)

/-- BEACON_LOSS: the candidates elect again; a running master is not displaced. -/
def execBeaconLoss (candidates : List Candidate) (s : State) : Answer :=
  .next (
    if s.link.master then s
    else
      let won := match elect (s.asSelf s.link.masterPrio candidates) with
        | some c => c.self
        | none => false
      let s := s.modLink fun l => { l with masterSeen := false, master := won }
      if won then s.raise 13 else s)

/-! Enumeration (R253). -/

/-- The lowest number that is free: not taken, and not reserved in the schedule. -/
def lowestFree (taken : List Nat) : Option Nat := (List.range 16383).find? fun n => !taken.contains n

/-- What one device is given. -/
inductive Given
  | number (n : Nat) (fresh : Bool)
  | conflict
  | refused (n : Nat)
deriving DecidableEq, Repr

/-- Number the devices in the order they were found. -/
def numberAll (reserved : List Nat) : List FoundDevice → List Nat → List (FoundDevice × Given)
  | [], _ => []
  | d :: r, taken =>
    match d.held, d.missing with
    | some h, _ =>
      if taken.contains h.toNat then (d, .conflict) :: numberAll reserved r taken
      else (d, .number h.toNat false) :: numberAll reserved r (h.toNat :: taken)
    | none, some m =>
      if d.quadsNeeded &&& ~~~d.quadsEnabled != 0 then (d, .refused m.toNat) :: numberAll reserved r taken
      else (d, .number m.toNat true) :: numberAll reserved r (m.toNat :: taken)
    | none, none =>
      match lowestFree (taken ++ reserved) with
      | some n => (d, .number n false) :: numberAll reserved r (n :: taken)
      | none => (d, .conflict) :: numberAll reserved r taken

/-- The number a device has been given. -/
def Given.device : Given → Option (BitVec 14)
  | .number n _ => some (BitVec.ofNat 14 n)
  | _ => none

/-- The topology of an enumeration (R253). -/
def topologyOf (found : List FoundDevice) (links : List FoundLink) (degraded : List (Nat × Port)) (given : List (FoundDevice × Given)) : Topology :=
  ⟨found, segmentsOf found.length links, given.map (·.2.device), links, degraded, (found.findIdx? (·.self)).getD 0⟩

/-- This device takes what the enumeration gives it, in the segment the enumeration found it in. -/
def State.takeNumber (s : State) (g : Given) : State :=
  match g with
  | .number n fresh =>
    let seg := BitVec.ofNat 14 (s.link.topo.segment s.link.topo.self)
    let s := s.modLink fun l => { l with device := BitVec.ofNat 14 n, numbered := true, segment := seg }
    let s := s.modRec fun r => { r with printing := r.printing || fresh }
    (s.keepItems.evaluate.setReady rdyDomain s.seq.running).raise 13
  | .conflict =>
    let s := s.modLink fun l => { l with numbered := false, member := false }
    ((s.setReady rdyDomain false).raise 13).logEvent 4 2 s.link.device.toNat 0
  | .refused n =>
    let s := s.modLink fun l => { l with numbered := false }
    (s.raise 13).logEvent 8 1 n 0

/-- The numbers of an enumeration: those in negatives and in the schedule are kept for their devices. -/
def enumerate (s : State) (found : List FoundDevice) : List (FoundDevice × Given) :=
  numberAll ((found.filterMap fun d => d.held.map (·.toNat)) ++ s.link.sched.slots.map fun e => e.2.device.toNat) found []

/-- The print of a device that this device can send: the neighbour copy it holds whose CRC matches the record (R284). -/
def printOf (s : State) (n : Nat) : Option Negative :=
  let dev : BitVec 14 := BitVec.ofNat 14 n
  let copies := (s.rec_.nbrS.toList ++ s.rec_.nbrZ.toList).filter fun c => c.device == some dev
  match s.rec_.records.find? fun r => r.device == dev with
  | some r => copies.find? fun c => Config.negCrc c == r.crc
  | none => none

/-- The master sends a replacement its print as bulk segments; where a neighbour of that device holds the copy it asks for it
(log entry 200). -/
def State.sendPrint (s : State) (n : Nat) : State :=
  let dev : BitVec 14 := BitVec.ofNat 14 n
  match printOf s n with
  | some c => s.sendBody dev kindBulk [] (.negative dev c)
  | none => s.emit (.printSend dev)

/-- ENUMERATION: the topology is checked; then numbers in the order found, and each device takes its own number and its segment; the
master sends a print to each replacement. A topology that breaks R237 is not enumerated. -/
def execEnumeration (found : List FoundDevice) (links : List FoundLink) (degraded : List (Nat × Port)) (s : State) : Answer :=
  .next (
    let l := enumerate s found
    let topo := topologyOf found links degraded l
    if !topo.legal then (s.setReady rdyDomain false).raise 13
    else
      let s := s.modLink fun x => { x with topo := topo, ring := topo.isRing (topo.segment topo.self) }
      l.foldl (fun s e =>
        let s := if e.1.self then s.takeNumber e.2 else s
        if !s.link.master then s
        else
          match e.2 with
          | .number n true => if e.1.self then s else s.sendPrint n
          | .refused n => if e.1.self then s else (s.raise 13).logEvent 8 1 n 0
          | _ => s) s)

/-- PRINT_APPLY (R284, R285): the print becomes the negative and is applied; its safety part stays
inactive until its confirmation. -/
def execPrintApply (neg : Negative) (s : State) : Answer :=
  .next (
    if !s.rec_.printing then s
    else
      let s := s.modRec fun r => { r with negative := some neg, negGen := r.negGen + 1, printing := false }
      let s := ((s.mramWrite (negPlace s.rec_.negGen) 0x200000).applyNegative neg).modSaf fun q => { q with confirmed := false, printed := some (neg.safety, neg.password) }
      (s.evaluate.raise 13).logEvent 8 2 s.link.device.toNat 0)

/-! User publications and subscriptions (R56, R116). -/

def applyPublish (index : Half) (source : Word) (kind : Byte) (s : State) : State :=
  { s with userPubs := (s.userPubs.filter fun u => u.index != index.toNat) ++ [⟨index.toNat, source, kind⟩] }

/-- The endpoints of a subscription list, or nothing where one is no e24. -/
def subs? : Nat → List Byte → Option (List (BitVec 24))
  | 0, _ => some []
  | n + 1, bs => if fieldU bs 3 1 = 0 then (subs? n (bs.drop 4)).map fun l => BitVec.ofNat 24 (fieldU bs 0 3) :: l else none

def checkSubs (bs : List Byte) (s : State) : Half :=
  match subs? (bs.length / 4) bs with
  | none => stBadArg
  | some l => allowIf (decide (copyTime l.length + 100000 ≤ s.tNs * 100))

def applySubs (bs : List Byte) (s : State) : State :=
  match subs? (bs.length / 4) bs with
  | some l => s.modHost fun h => { h with subList := l }
  | none => s

end Sys2Proof.Machine
end

