-- ==== Sys2Proof/Machine/Long.lean ====
section
/-! DEFINITION. Long operations (R51, R52, R75): LOG_READ, CAM_LOAD, CAM_READ, FLYER_LOAD, NEGATIVE_SAVE, FW_WRITE, CAL_WRITE and
SELF_TEST, the step of any of them, their ends by CANCEL, and what an abort leaves. -/

namespace Sys2Proof.Machine

/-! LOG_READ (R288, R289). -/

/-- How far a LOG_READ is: the first number it returns, how many numbers it has gone past, and how many records it has delivered.
The phase of the operation holds all three, and 0 before its first step. -/
structure LogAt where
  first : Nat
  past : Nat
  done : Nat
deriving DecidableEq, Repr

def LogAt.phase (a : LogAt) : Nat := 1 + a.done + 2 ^ 16 * (a.past + 2 ^ 32 * a.first)

/-- Where a LOG_READ begins: at its first record, or at the oldest where that is gone (R289). -/
def logStart (s : State) (first : Nat) : LogAt := ⟨max first ((s.rec_.log.head?.map (·.seq.toNat)).getD first), 0, 0⟩

def logAt (s : State) (first phase : Nat) : LogAt :=
  if phase = 0 then logStart s first else ⟨(phase - 1) / 2 ^ 48, (phase - 1) / 2 ^ 16 % 2 ^ 32, (phase - 1) % 2 ^ 16⟩

/-- The records one step looks at: up to 64 from where the operation is. -/
def logWindow (s : State) (a : LogAt) (limit : Nat) : List LogRec :=
  (s.rec_.log.filter fun r => decide (a.first + a.past ≤ r.seq.toNat)).take (min 64 (limit - a.done))

/-- One step of LOG_READ. A torn record, and one that is overwritten before the operation comes to it, is skipped and counted (R289,
log entry 123). What the result holds after its bytes 3:0 has no layout (log entry 6). -/
def stepLogRead (first count : Word) (d : Desc) (phase : Nat) (busOk : Bool) (s : State) : LongStep :=
  let limit := min count.toNat (d.len.toNat / 64)
  let a := logAt s first.toNat phase
  let seen := logWindow s a limit
  let part := seen.filter fun r => !r.torn
  if busFails d busOk then .ends s stDmaFault []
  else
    match writeDesc s d (64 * a.done) (part.flatMap logBytes) with
    | .error st => .ends s st []
    | .ok s =>
      let next := match seen.getLast? with
        | some r => r.seq.toNat + 1
        | none => a.first + a.past
      let b : LogAt := ⟨a.first, next - a.first, a.done + part.length⟩
      let upTo := if seen.isEmpty then s.rec_.logRead.toNat else max s.rec_.logRead.toNat next
      let unread := min s.rec_.logUnread (s.rec_.logNext.toNat - upTo)
      let s := (s.modRec fun c => { c with logRead := BitVec.ofNat 32 upTo, logUnread := unread }).setLevel 24 unread
      if b.done < limit ∧ next < s.rec_.logNext.toNat then .goOn s b.phase (perMille b.done limit)
      else .ends s stOk (leBytes 4 a.first ++ Config.layout 0x0109 [b.done, b.past - b.done])

def execLogRead (o : Origin) (first count : Word) (desc : Desc) (s : State) : Answer :=
  .next (runLong (.logRead o first count desc) o (fun _ => stOk) s)

/-! CAM_LOAD and CAM_READ (R111, R113). -/

/-- Points one step of a cam transfer moves. -/
def stepPoints : Nat := 512

def execCamLoad (o : Origin) (table : Half) (points : Word) (desc : Desc) (s : State) : Answer :=
  .next (runLong (.camLoad o table points desc) o (fun s => if (camBuf? (carried s desc) points.toNat).isSome then stOk else stBadArg) s)
where
  /-- the bytes the descriptor carries -/
  carried (s : State) (d : Desc) : List Byte :=
    match readDesc s d with
    | .ok bs => bs
    | .error _ => []

/-- One step of CAM_LOAD: allocate and write the chain, then switch (R113). A second load of a table waits for the first. -/
def stepCamLoad (table : Half) (points : Word) (d : Desc) (phase : Nat) (s : State) : LongStep :=
  let i := camIx table
  let n := points.toNat
  match phase with
  | 0 =>
    if !s.cams[i].chainNew.isEmpty then .goOn s 0 0
    else if !s.mem.poolEn then .ends s stNoBobbin []
    else
      match s.grabN (camBobbins n) with
      | none => .ends s stNoBobbin []
      | some (t, l) =>
        let t := match camBuf? (d.data.getD []) n with
          | some c => t.modMem fun m => m.putCam l c
          | none => t
        .goOn (t.modCam i fun c => { c with complete := false, chainNew := l }) 1 0
  | k + 1 =>
    if (k + 1) * stepPoints < n then .goOn s (k + 2) (perMille ((k + 1) * stepPoints) n)
    else
      let c := s.cams[i]
      let s := s.freeChain c.chainShadow
      .ends (s.modCam i fun c => { c with
        shadow := (camBuf? (d.data.getD []) n).map CamBuf.head, complete := true, chainShadow := c.chainNew, chainNew := [] }) stOk []

/-- An aborted load gives the chain it has allocated back and leaves the shadow incomplete (R75); one that still waits for
another load of the table has none. -/
def abortCamLoad (table : Half) (phase : Nat) (s : State) : State :=
  let i := camIx table
  if phase = 0 then s.modCam i fun c => { c with complete := false }
  else
    let l := s.cams[i].chainNew
    (s.freeChain l).modCam i fun c => { c with complete := false, chainNew := [] }

/-- The buffer CAM_READ names. -/
def camBuffer (table : Half) (buffer : Byte) (s : State) : Option CamBuf :=
  if buffer = 0 then s.camActive (camIx table) else s.camShadow (camIx table)

/-- The first poisoned word among bytes `[lo, hi)` of the buffer's descriptor form, by its byte address (R71). -/
def camPoison (table : Half) (buffer : Byte) (lo hi : Nat) (s : State) : Option Nat :=
  let t := s.cams[camIx table]
  let chain := if buffer = 0 then t.chainActive else t.chainShadow
  let pts := (List.range ((hi - 32 + 7) / 8)).filter fun k => decide (lo < 40 + 8 * k)
  (pts.map (s.mem.pointWord chain)).find? s.mem.isPoisoned |>.map (8 * ·)

/-- The place in the descriptor's form of the point in the word at byte address `a`. -/
def camByte (table : Half) (buffer : Byte) (a : Nat) (s : State) : Nat :=
  let t := s.cams[camIx table]
  let chain := if buffer = 0 then t.chainActive else t.chainShadow
  32 + 8 * (((List.range (32 * chain.length)).find? fun k => 8 * s.mem.pointWord chain k == a).getD 0)

/-- CAM_READ is refused where the descriptor is shorter than the table (R65). -/
def checkCamRead (table : Half) (buffer : Byte) (d : Desc) (s : State) : Half :=
  allowIf (decide (camSize (camBuffer table buffer s) ≤ d.len.toNat))

def execCamRead (o : Origin) (table : Half) (buffer : Byte) (desc : Desc) (s : State) : Answer :=
  .next (runLong (.camRead o table buffer desc) o (checkCamRead table buffer desc) s)

/-- One step of CAM_READ. The size was judged as it began; it never writes beyond the length (R65). -/
def stepCamRead (table : Half) (buffer : Byte) (d : Desc) (phase : Nat) (busOk : Bool) (ecc : List EccErr) (s : State) : LongStep :=
  let chain := if buffer = 0 then s.cams[camIx table].chainActive else s.cams[camIx table].chainShadow
  let s := chain.foldl (fun s b => s.meetErrors ecc (s.mem.bobbinWord b) (s.mem.bobbinWord b + 32) reqDistaff) (s.wakeChain chain)
  let bs := (((camBuffer table buffer s).map camBytes).getD []).take d.len.toNat
  if bs.isEmpty then .ends s stOk []
  else if busFails d busOk then .ends s stDmaFault []
  else
    let part := (bs.drop phase).take stepBytes
    match camPoison table buffer phase (phase + part.length) s, writeDesc s d phase part with
    | some a, _ =>
      match writeDesc s d phase (part.take (camByte table buffer a s - phase)) with
      | .error st => .ends s st []
      | .ok s => .ends s stPoisoned (leBytes 4 a)
    | none, .error st => .ends s st []
    | none, .ok s => if phase + part.length < bs.length then .goOn s (phase + part.length) (perMille (phase + part.length) bs.length) else .ends s stOk []

/-! FLYER_LOAD (R212 to R214). -/

def execFlyerLoad (o : Origin) (program : Byte) (desc : Desc) (sigOk : Bool) (s : State) : Answer :=
  .next (runLong (.flyerLoad o program desc sigOk) o (fun _ => stOk) s)

/-- One step of FLYER_LOAD: header, paths, signature, store. -/
def stepFlyerLoad (program : Byte) (d : Desc) (sigOk : Bool) (phase : Nat) (s : State) : LongStep :=
  match flyerImage? (d.data.getD []) with
  | none => .ends s stBadArg []
  | some p =>
    match phase with
    | 0 =>
      match checkProgram p with
      | some (a, k) => .ends s stBadArg (leBytes 4 a ++ leBytes 1 k)
      | none => .goOn s 1 500
    | _ =>
      if policyAdmits s.saf.cfg p sigOk then .ends { s with progs := s.progs.set (Fin.ofNat 16 program.toNat) (some p) } stOk []
      else .ends s stVerifyFail []

/-! NEGATIVE_SAVE (R282, R283). -/

def execNegativeSave (o : Origin) (s : State) : Answer := .next (runLong (.negativeSave o) o (fun _ => stOk) s)

/-- SHA-256 of a negative's safety part. -/
def safetyDigest (n : Negative) : BitVec 256 := BitVec.ofNat 256 (leNat ((sha256 (storedBytes n.safety)).reverse))

/-- The record of a negative of this device (R283). -/
def ownRecord (s : State) (n : Negative) : NegRecord :=
  ⟨n.device.getD 0, s.id.serial, s.id.variant, s.rec_.negGen, Config.negCrc n, safetyDigest n⟩

/-- One step of NEGATIVE_SAVE: write beside, then switch the pointer and send in the last step, so that an abort leaves the
previous negative (R75). The result says which copies were stored. -/
def stepNegative (phase : Nat) (stored : BitVec 3) (s : State) : LongStep :=
  let gen := s.rec_.negGen + 1
  match phase with
  | 0 => .goOn s 1 300
  | 1 => .goOn (s.mramWrite (negPlace gen) 0x200000) 2 700
  | _ =>
    let (n, cams, progs) := fitNegative (negativeOf s)
    let s := s.modRec fun r => { r with negative := some n, negGen := gen }
    let r := ownRecord s n
    let s := (s.keepRec r).sendCopies n
    let s := s.sendBody broadcastDst kindPeer (Config.peerData 3 [r.device.toNat, r.serial.toNat, r.variant.toNat, r.generation.toNat, r.crc.toNat, r.safety.toNat]) (.record r)
    let have_ := b2n ((s.port .s).ready && stored.getLsbD 0) + 2 * b2n ((s.port .z).ready && stored.getLsbD 1) + 4 * b2n (stored.getLsbD 2)
    .ends s stOk (leBytes 2 cams ++ leBytes 2 progs ++ leBytes 4 (Config.negCrc n).toNat ++ leBytes 1 have_)

/-! FW_WRITE (R286, 04_command_set.md). -/

/-- The image an argument names: false A, true B. -/
def fwIx (image : Byte) : Fin 2 := Fin.ofNat 2 image.toNat

def execFwWrite (o : Origin) (image : Byte) (offset : Word) (last : Byte) (desc : Desc) (sigOk : Bool) (s : State) : Answer :=
  .next (runLong (.fwWrite o image offset last desc sigOk) o (fun s => allowIf ((image == 1) != s.dist.image)) s)

/-- Bytes written into an image. -/
def putImage (off : Nat) (bs : List Byte) (l : List (Nat × Byte)) : List (Nat × Byte) :=
  (bs.foldl (fun (a : Nat × List (Nat × Byte)) b => (a.1 + 1, sset 0xFF a.2 a.1 b)) (off, l)).2

/-- The bytes of an image from its start to the last one written. -/
def imageBytes (l : List (Nat × Byte)) : List Byte := (List.range (((l.getLast?).map (·.1 + 1)).getD 0)).map (sget 0xFF l)

/-- An image fails its verification: it is discarded (R71). -/
def dropImage (i : Fin 2) (r : Recovery) : Recovery := { r with fw := modAt r.fw i fun _ => ⟨0, [], false, false⟩ }

/-- An image passes. -/
def passImage (i : Fin 2) (r : Recovery) : Recovery :=
  { r with fw := modAt r.fw i fun f => { f with rel := Config.fwRelease (imageBytes f.bytes), valid := true, verified := true } }

/-- One step of FW_WRITE: the data in 4 KiB pieces, then the check of a last write. -/
def stepFwWrite (image : Byte) (offset : Word) (last : Byte) (d : Desc) (sigOk : Bool) (phase : Nat) (s : State) : LongStep :=
  let i := fwIx image
  let bs := d.data.getD []
  if (image == 1) = s.dist.image then .ends s stRefused []
  else if phase < bs.length then
    let part := (bs.drop phase).take stepBytes
    let s := s.modRec fun r => { r with fw := modAt r.fw i fun f => { f with bytes := putImage (offset.toNat + phase) part f.bytes, valid := false, verified := false } }
    let s := s.mramWrite (0x200000 * i.val + offset.toNat + phase) part.length
    .goOn s (phase + part.length) (perMille (phase + part.length) bs.length)
  else if last = 0 then .ends s stOk []
  else if sigOk then .ends (s.modRec (passImage i)) stOk []
  else .ends (s.modRec (dropImage i)) stVerifyFail []

/-! CAL_READ and CAL_WRITE (R39, R40). -/

/-- The bytes of the calibration set. -/
def calSet (r : Recovery) : List Byte := (List.range calLen).map fun i => sget 0 r.calPage i

/-- The page as CAL_READ returns it: the set, its origin and its date (log entry 14). -/
def calBytes (r : Recovery) : List Byte :=
  slice (Config.layout 0x9010 ([b2n r.calUser, r.calDate.toNat] ++ (calSet r).map (·.toNat))) 0 calLen

def execCalRead (o : Origin) (desc : Desc) (s : State) : Answer :=
  .next (runShort (.calRead o desc) o (fun s =>
    match writeDesc s desc 0 (calBytes s.rec_) with
    | .error st => refuse s st
    | .ok s => (s, stOk, [])) s)

def execCalWrite (o : Origin) (desc : Desc) (s : State) : Answer := .next (runLong (.calWrite o desc) o (fun _ => stOk) s)

/-- One step of CAL_WRITE: the new set beside the old, then the pointer. -/
def stepCalWrite (d : Desc) (phase : Nat) (s : State) : LongStep :=
  if phase = 0 then .goOn (s.mramWrite 0xE00000 calLen) 1 500
  else
    let page := putImageAt (d.data.getD [])
    let s := (s.modRec fun r => { r with calPage := page, calUser := true, calDate := Config.calDate (s.key 200) }).tick
    .ends (s.mramWrite 0xE00000 1) stOk []
where
  /-- the set as sparse bytes -/
  putImageAt (bs : List Byte) : List (Nat × Byte) :=
    (bs.foldl (fun (a : Nat × List (Nat × Byte)) b => (a.1 + 1, sset 0 a.2 a.1 b)) (0, [])).2

/-! SELF_TEST (R72). -/

/-- The strands a function holds. -/
def strandsOfFn (s : State) (f : Half) : List StrandId :=
  let n := fnInst f
  match fnClass f with
  | 1 => match fin? 17 n with
    | some e => strandsOfEngine s e
    | none => []
  | 3 => match fin? 12 n with
    | some q => s.strandsOfQuad q
    | none => []
  | 4 => match fin? 48 n with
    | some u => s.strandsOfFb u
    | none => []
  | 6 => s.strandsWhere fun x => match x.cfg.binding with
    | .can c _ => c.val == n
    | _ => false
  | _ => []

def checkSelfTest (f : Half) (s : State) : Half := allowIf ((strandsOfFn s f).all fun i => s.strands[i].st == .off)

/-- Has every engine that holds strands or plies a verified program (R28)? -/
def flyersReady (s : State) : Bool :=
  (List.finRange 17).all fun e => s.pwr.readyFly.getLsbD e.val ||
    ((strandsOfEngine s e).isEmpty && !(s.roles[e].slots.toList.any fun o => o.isSome))

/-- The summary bits of the ready word follow the bank and engine words (R28). -/
def State.sumReady (s : State) : State :=
  let s := s.setReady rdyBanks (s.pwr.readyBank == 0xFFFFFFFF)
  if s.isReady rdyFlyers && !flyersReady s then s.setReady rdyFlyers false else s

def State.bankReady (s : State) (b : BankId) (v : Bool) : State :=
  if s.pwr.readyBank.getLsbD b.val = v then s
  else ((s.modPwr fun p => { p with readyBank := setBit p.readyBank b.val v }).sumReady)

def State.engineReady (s : State) (e : EngineId) (v : Bool) : State :=
  if s.pwr.readyFly.getLsbD e.val = v then s
  else
    let s := (s.modPwr fun p => { p with readyFly := setBit p.readyFly e.val v }).sumReady
    if v && flyersReady s then s.setReady rdyFlyers true else s

/-- A function leaves service for its test, or returns. -/
def State.service (s : State) (f : Half) (on : Bool) : State :=
  let s := s.modPwr fun p => { p with testing := if on then p.testing.erase f else p.testing ++ [f] }
  match fnClass f, fin? 17 (fnInst f), fin? 32 (fnInst f) with
  | 1, some e, _ => s.engineReady e on
  | 2, _, some b => s.bankReady b on
  | _, _, _ => s

/-- One step of SELF_TEST: out of service, the test, back in service with its outcome. The manual gives its result no fields
and no status for a failed test: it ends OK and answers function, level and outcome (log entry 175). -/
def stepSelfTest (f : Half) (level : Byte) (phase : Nat) (pass : Bool) (s : State) : LongStep :=
  if phase = 0 then .goOn (s.service f false) 1 0
  else .ends (s.service f true) stOk (Config.layout 0x9020 [f.toNat, level.toNat, b2n pass])

/-! Steps, aborts and CANCEL (R51, R52, R75). -/

/-- One step of a long operation. -/
def longStep (g : LongOp) (x : StepInput) (s : State) : LongStep :=
  match g.cmd with
  | .logRead _ first count d => stepLogRead first count d g.phase x.busOk s
  | .camLoad _ table points d => stepCamLoad table points d g.phase s
  | .camRead _ table buffer d => stepCamRead table buffer d g.phase x.busOk x.ecc s
  | .flyerLoad _ program d sigOk => stepFlyerLoad program d sigOk g.phase s
  | .memRead _ address d =>
    match canTarget s address.toNat d.len.toNat with
    | some (.fifo c second) => stepFifoRead c second d x.busOk x.ecc s
    | some (.buffers c k n) => stepBufRead c k n d x.busOk x.ecc s
    | none => stepMemRead address d g.phase x.busOk x.ecc s
  | .memWrite _ address d => stepMemWrite address d g.phase x.ecc x.portA s
  | .memRepair _ bank row => stepRepair bank row g.phase x.ecc s
  | .scheduleWrite _ first _ d => stepSchedule first d g.phase x.refusals s
  | .negativeSave _ => stepNegative g.phase x.stored s
  | .safetyWrite o password d => stepSafetyWrite o password d g.phase x.pass s
  | .expRead _ unit d => stepExpRead unit d x.busOk x.ecc s
  | .fwWrite _ image offset last d sigOk => stepFwWrite image offset last d sigOk g.phase s
  | .calWrite _ d => stepCalWrite d g.phase s
  | .selfTest _ f level => stepSelfTest f level g.phase x.pass s
  | _ => .ends s stOk []

/-- What an abort leaves (R75). -/
def abortLong (g : LongOp) (s : State) : State :=
  match g.cmd with
  | .camLoad _ table _ _ => abortCamLoad table g.phase s
  | .memRepair _ bank _ => abortRepair bank g.phase s
  | .scheduleWrite .. => abortSchedule g.phase s
  | .safetyWrite .. => abortSafetyWrite g.phase s
  | .fwWrite .. => s.abortMark g.cmd
  | .selfTest _ f _ => if g.phase = 0 then s else s.service f true
  | _ => s

/-- Put a long operation's new phase in its place. -/
def putLong (g h : LongOp) (q : Distaff) : Distaff := { q with longs := q.longs.map fun x => if x = g then h else x }

/-- An IN_PROGRESS completion (R46, R51). -/
def State.report (s : State) (i : Instr) (o : Origin) (progress : Nat) : State :=
  (s.dropReports o.mb o.tag).pushCmpl o.mb { finalCmpl i o stProgress noCycle [] with final := false, progress := BitVec.ofNat 16 progress }

/-- The longest time between two reports of a long operation, in ns (R51). -/
def reportNs : Nat := 10000000

/-- Is a report due: would the next cycle's steps come later than 10 ms after the last? Device time moves once a cycle, and a
step takes at most 50 µs (R51). -/
def reportDue (s : State) (g : LongOp) : Bool := decide (g.told.toNat + reportNs < s.time.dev.toNat + s.tNs + 50000)

/-- A long operation ends. -/
def State.endLong (s : State) (g : LongOp) : State := s.modDist fun q => { q with longs := q.longs.erase g, stepped := true }

/-- The long operation that holds a tag. -/
def longAt (s : State) (mb : MbId) (tag : Fin 32) : Option (LongOp × Origin) :=
  s.dist.longs.findSome? fun g => match originOf g.cmd with
    | some o => if o.mb = mb ∧ o.tag = tag then some (g, o) else none
    | none => none

/-- Put a long operation's new phase in its place, and that place last: the others come first (R51). -/
def nextTurn (g h : LongOp) (q : Distaff) : Distaff := { q with longs := q.longs.erase g ++ [h], stepped := true }

/-- Run one step of a long operation, or end it where CANCEL asked. -/
def State.stepLong (s : State) (g : LongOp) (o : Origin) (x : StepInput) : State :=
  if g.cancel then ((abortLong g s).endLong g).finish g.cmd o stAborted []
  else
    match longStep g x s with
    | .goOn s phase progress =>
      let tells := x.report || reportDue s g
      let h := { g with phase := phase, progress := progress, told := if tells then s.time.dev else g.told }
      let s := s.modDist (nextTurn g h)
      if tells then s.report g.cmd o progress else s
    | .ends s st res => (((if st = stDmaFault then s.abortMark g.cmd else s)).endLong g).finish g.cmd o st res
    | .endsAt s cycle => (s.endLong g).finishAt g.cmd o stOk cycle

/-- Does a short command wait: one in hand, or a request to copy (R51)? -/
def shortWaits (s : State) : Bool :=
  s.dist.inHand.any (fun i => decide (classOf i ≠ .l)) || (List.finRange 8).any (requestWaits s)

/-- LONG_OPERATION_STEP: the operation whose turn it is; while short commands wait, at most one step after each (R51). -/
def execLongOperationStep (mb : MbId) (tag : Fin 32) (input : StepInput) (s : State) : Answer :=
  .next (
    if s.dist.st ≠ .running ∨ (s.dist.stepped = true ∧ shortWaits s = true) then s
    else
      match longAt s mb tag with
      | none => s
      | some (g, o) => if s.dist.longs.head? = some g then s.stepLong g o input else s)

/-- The long command that holds a tag and still waits in the distaff's hands. -/
def longInHand (s : State) (mb : MbId) (tag : Fin 32) : Option (Instr × Origin) :=
  s.dist.inHand.findSome? fun i => match originOf i with
    | some o => if classOf i = .l ∧ o.mb = mb ∧ o.tag = tag then some (i, o) else none
    | none => none

/-- CANCEL of a long operation that has not begun: it ends before its first step (R52, R75). -/
def State.cancelInHand (s : State) (i : Instr) (o : Origin) : State :=
  ((abortLong ⟨i, 0, 0, true, s.time.dev⟩ s).modDist fun d => { d with inHand := d.inHand.erase i }).finish i o stAborted []

/-- CANCEL (R52): the operation ends at its next step boundary. -/
def execCancel (o : Origin) (mailbox tag : Byte) (s : State) : Answer :=
  .next (runShort (.cancel o mailbox tag) o (fun s =>
    match longAt s (Fin.ofNat 8 mailbox.toNat) (Fin.ofNat 32 tag.toNat) with
    | none =>
      match longInHand s (Fin.ofNat 8 mailbox.toNat) (Fin.ofNat 32 tag.toNat) with
      | none => refuse s stBadArg
      | some (i, q) => (s.cancelInHand i q, stOk, [])
    | some (g, _) => (s.modDist (putLong g { g with cancel := true }), stOk, [])) s)

end Sys2Proof.Machine
end

