-- ==== Sys2Proof/Machine/Mailbox.lean ====
section
/-! DEFINITION. The mailboxes (R44 to R53): doorbells, the copy and check of a request, remote commands (R49, R276 to R278), the
writing of completions (R46, R47), and what a stop of the distaff ends (R19, R53). -/

namespace Sys2Proof.Machine

/-! A stop of the distaff (R19, R53, R75). -/

/-- What the distaff owes for a command it has in hand. -/
def owedOf (i : Instr) (keep : Bool) (cycle : BitVec 48) : List Owed :=
  match originOf i with
  | some o => [⟨o.mb, if keep then some i else none, finalCmpl i o stAborted cycle []⟩]
  | none => []

/-- The deferred moves whose commands are still open. -/
def deferredMoves (s : State) : List Instr := s.strands.toList.filterMap fun x => x.deferred.map (·.2)

/-- The completions of a mailbox that a stop turns into ABORTED, and those that stay: refusals. -/
def owedPend (mb : MbId) (l : List Cmpl) : List Owed × List Cmpl :=
  (((l.filter fun c => c.final && !c.reject).map fun c => ⟨mb, none, { c with status := stAborted, progress := 0, result := [] }⟩),
    l.filter fun c => c.final && c.reject)

/-- The distaff stops: every command without its final completion is owed ABORTED; an armed set still applies. -/
def State.stopDistaff (s : State) (st : DistState) : State :=
  let longs := s.dist.longs
  let waits := (s.link.setCycle.map fun i => owedOf i false (BitVec.ofNat 48 ((s.link.next.map (·.switchCycle.toNat)).getD 0))).getD []
  let held := s.dist.armed.flatMap (fun i => owedOf i true noCycle) ++ (deferredMoves s).flatMap (fun i => owedOf i true noCycle)
  let lost := (s.dist.staged ++ s.dist.inHand ++ longs.map (·.cmd) ++ (s.dist.edit.map (·.cmd)).toList).flatMap fun i => owedOf i false noCycle
  let remote := s.rec_.remotes.map fun r => (⟨r.mb, none, ⟨r.opcode, r.tag, true, false, r.irq, stAborted, 0, noCycle, [], none⟩⟩ : Owed)
  let pend := (List.finRange 8).flatMap fun m => (owedPend m s.mb[m].pend).1
  let s := longs.foldl (fun s g => abortLong g s) s
  let s := (List.finRange 8).foldl (fun s m => s.modMb m fun b => { b with pend := (owedPend m b.pend).2 }) s
  let s := s.modDist fun d => { d with
    st := st, inHand := [], staged := [], armed := [], longs := [], stopAfter := none, edit := none
    orphan := d.orphan ++ d.armed, owed := d.owed ++ pend ++ held ++ lost ++ waits ++ remote }
  let s := (s.modLink fun l => { l with setCycle := none }).modRec fun r => { r with remotes := [] }
  (s.closeStages.modHost fun h => { h with bench := false }).setReady rdyDistaff false

/-- The distaff runs again: what it owes is written, but what an armed set or a waiting move still settles (R53). -/
def State.startDistaff (s : State) : State :=
  let open_ := s.dist.orphan ++ deferredMoves s
  let waits := fun (w : Owed) => match w.cmd with
    | some i => open_.contains i
    | none => false
  let now := s.dist.owed.filter fun w => !waits w
  let s := s.modDist fun d => { d with st := .running, owed := d.owed.filter waits }
  now.foldl (fun s w => s.pushCmpl w.mb w.c) s

/-! Slots (03_host_interface.md). -/

/-- The 64 bytes of a slot. -/
def slotBytes (w : SlotWord) : List Byte := leBytes 64 w.toNat

def slotOf (bs : List Byte) : SlotWord := BitVec.ofNat 512 (leNat (slice bs 0 64))

/-- The response slot of a completion under a phase. -/
def rspSlot (c : Cmpl) (phase : Bool) : SlotWord :=
  slotOf (leBytes 2 c.opcode.toNat ++ leBytes 1 c.tag.val ++ leBytes 1 (b2n c.final + 2 * b2n c.reject + 128 * b2n phase) ++
    leBytes 2 c.status.toNat ++ leBytes 2 c.progress.toNat ++ leBytes 6 c.cycle.toNat ++ leBytes 2 0 ++ c.result.take 48)

/-- The level of a mailbox's response ring. -/
def rspLevel (m : Mailbox) : Nat := (m.rspPi - m.rspCi).toNat

/-- A mailbox's watermark source (R57). -/
def mbSource (mb : MbId) : Fin 25 := Fin.ofNat 25 mb.val

def State.mbLevel (s : State) (mb : MbId) : State := s.setLevel (mbSource mb) (rspLevel s.mb[mb])

/-! MB5's response datagrams (R364, R366). -/

/-- A datagram under the session key. -/
def macData (s : State) (body : List Byte) : List Byte := body ++ hmac (bytesOf s.eth.sessionKey) body

/-- The fields before a payload. -/
def dgHead (type_ ack session seq : Nat) : List Byte := leBytes 2 type_ ++ leBytes 2 ack ++ leBytes 4 session ++ leBytes 4 seq ++ leBytes 4 0

/-- The device sends response slots in one datagram. -/
def State.sendResponses (s : State) (slots : List SlotWord) : State :=
  match s.eth.session with
  | none => s
  | some n =>
    if slots.isEmpty then s
    else
      let body := dgHead 5 (s.eth.rxSeq.toNat % 65536) n.toNat s.eth.txSeq.toNat ++ slots.flatMap slotBytes
      (s.modEth fun e => { e with txSeq := e.txSeq + 1, unacked := e.unacked ++ [(e.txSeq, slots.length)] }).emit (.eth (macData s body))

/-! COMPLETION_WRITE (R46 to R48, R57, R58, R72, R358, R359, R366, R276). -/

/-- MB6's completion goes back to its source over the link (R276). -/
def State.answerRemote (s : State) (c : Cmpl) (w : SlotWord) : State :=
  match c.remote with
  | none => s
  | some (src, key) =>
    let s := if c.final then s.modRec fun r => { r with keys := r.keys.map fun k => if k.src = src ∧ k.key = key then { k with done := some w } else k } else s
    s.sendFrame src kindCompletion (keyBlock key :: slotBlocks w)

/-- What the owner of the mailbox does with a completion just written. -/
def State.carry (s : State) (mb : MbId) (c : Cmpl) (w : SlotWord) : State :=
  match mb.val with
  | 4 =>
    let s := if s.usb.configured then s.emit (.usbIn (slotBytes w)) else s
    if c.final && s.usb.status == some c.tag then (s.modUsb fun u => { u with status := none }).emit (.usbStatus true) else s
  | 5 => s.sendResponses [w]
  | 6 => ((s.answerRemote c w).modMb 6 fun m => { m with rspCi := m.rspPi }).mbLevel 6
  | _ => s

/-- Does the completion free its tag? A refusal never held it, but one that comes back from a remote device did. -/
def freesTag (mb : MbId) (c : Cmpl) : Bool := c.final && (!c.reject || (c.remote.isSome && mb.val != 6))

/-- What follows the completion of a command that stops the distaff or resets the device (R72, R73). -/
def State.afterCompletion (s : State) (mb : MbId) (c : Cmpl) : State :=
  let s := if s.pwr.coldAsked && c.opcode == 0x0102 && freesTag mb c && c.status == stOk then
      s.modPwr fun p => { p with coldAsked := false, coldDue := true } else s
  match s.dist.stopAfter with
  | some (m, t, st) => if m = mb ∧ t = c.tag ∧ freesTag mb c = true then s.stopDistaff st else s
  | none => s

/-- May a completion be written: it is no final completion that waits for an earlier one of its mailbox (R49)? -/
def Mailbox.mayWrite (m : Mailbox) (c : Cmpl) : Bool :=
  !c.final || !m.order.contains (c.tag, c.reject) || m.order.head? == some (c.tag, c.reject)

/-- The completion a mailbox writes next. -/
def nextCmpl (m : Mailbox) : Option Cmpl := m.pend.find? m.mayWrite

/-- COMPLETION_WRITE. -/
def execCompletionWrite (mb : MbId) (s : State) : Answer :=
  .next (
    let m := s.mb[mb]
    match nextCmpl m with
    | none => s
    | some c =>
      if m.full then s
      else
        let w := rspSlot c m.phase
        let at_ : Fin 64 := Fin.ofNat 64 m.rspPi.toNat
        let s := s.modMb mb fun m => { m with
          pend := m.pend.erase c, order := if c.final then m.order.erase (c.tag, c.reject) else m.order
          rsp := m.rsp.set at_ w, rspPi := m.rspPi + 1, phase := if at_ = 63 then !m.phase else m.phase
          held := if freesTag mb c then setBit m.held c.tag.val false else m.held }
        let s := if c.final && c.irq then s.raise (2 + mb.val) else s
        ((s.mbLevel mb).carry mb c w).afterCompletion mb c)

/-! MAILBOX_REQUEST_COPY (R45, R48, R62, R70). -/

/-- The fields of a request slot. -/
structure Request where
  opcode : Nat
  tag : Fin 32
  irq : Bool
  remote : Bool
  target : BitVec 14
  bad : Bool
  len : Nat
  args : List Byte
deriving DecidableEq, Repr

/-- A request slot read. `bad` is a reserved flag or target bit, or an arg_len above 56; argument bytes beyond arg_len read 0. -/
def requestOf (w : SlotWord) : Request :=
  let bs := slotBytes w
  let flags := fieldU bs 3 1
  let target := fieldU bs 4 2
  let len := fieldU bs 6 2
  ⟨fieldU bs 0 2, Fin.ofNat 32 (fieldU bs 2 1), bit flags 0, bit flags 1, BitVec.ofNat 14 target,
    decide (4 ≤ flags) || decide (0x4000 ≤ target) || decide (56 < len), len, slice ((bs.drop 8).take (min len 56)) 0 56⟩

/-- The command a request spells as its mailbox sees it; none where check 2 of R48 fails on its form. -/
def Request.command (r : Request) (o : Origin) (dma : DmaInput) : Option Instr :=
  if r.bad then none
  else
    match decodeArgs r.opcode o r.args r.len dma with
    | none => none
    | some (i, n) => if (r.args.drop n).all (· == 0) then some i else none

/-- A completion for a request that holds no tag. -/
def refusal (r : Request) (o : Origin) (st : Half) (reject : Bool) : Cmpl :=
  ⟨BitVec.ofNat 16 r.opcode, r.tag, true, reject, r.irq, st, 0, noCycle, [], o.remote⟩

/-- A remote command leaves for its target (R49, R276), under the checks of R48 that fall to this device. -/
def State.sendRemote (s : State) (mb : MbId) (r : Request) (w : SlotWord) (dma : DmaInput) : State :=
  let o : Origin := ⟨mb, r.tag, r.irq, none⟩
  let far : Origin := ⟨6, r.tag, r.irq, none⟩
  let no := fun (st : Half) => s.pushReject mb (refusal r o st true)
  if tagHeld s mb r.tag then no stTagInUse
  else
    match r.command far dma with
    | none => no stBadArg
    | some i =>
      if !wellFormed i then no stBadArg
      else if 128 ≤ s.rec_.remotes.length then no stRemoteLimit
      else if mb6Refuses r.opcode || originRefuses mb r.opcode then (s.holdTag mb r.tag).pushCmpl mb (refusal r o stRefused false)
      else
        let q := s.rec_.nextRseq
        let key : RemoteKey := ⟨BitVec.ofNat 8 mb.val, BitVec.ofNat 8 r.tag.val, q⟩
        let s := ((s.takeTurn mb).lockTag mb r.tag).modRec fun c => { c with
          nextRseq := q + 1, remotes := c.remotes ++ [⟨q, mb, r.tag, BitVec.ofNat 16 r.opcode, r.irq, r.target, false⟩] }
        s.sendFrame r.target kindRequest (keyBlock key :: slotBlocks w)

/-- The checks of R48 on a request for this device. -/
def State.takeLocal (s : State) (mb : MbId) (r : Request) (remote : Option (BitVec 14 × RemoteKey)) (dma : DmaInput) : State :=
  let o : Origin := ⟨mb, r.tag, r.irq, remote⟩
  if tagHeld s mb r.tag then s.pushReject mb (refusal r o stTagInUse true)
  else if mb = 7 ∧ (r.command o dma).isNone then
    if r.bad then s.pushReject mb (refusal r o stBadArg true) else (s.holdTag mb r.tag).pushCmpl mb (refusal r o stRefused false)
  else
    match r.command o dma with
    | none => s.pushReject mb (refusal r o stBadArg true)
    | some i =>
      let st := acceptStatus i o s
      if st = stOk then (s.holdTag mb r.tag).modDist fun q => { q with inHand := q.inHand ++ [i], stepped := s.dist.stepped }
      else s.reject i o st

/-- The request at req_ci, taken out of the ring with the key MB6's ring keeps for it. -/
def State.popRequest (s : State) (mb : MbId) : State × SlotWord × Option (BitVec 14 × RemoteKey) :=
  let m := s.mb[mb]
  let w := m.req[(Fin.ofNat 64 m.reqCi.toNat)]
  let s := s.modMb mb fun m => { m with reqCi := m.reqCi + 1 }
  if mb = 6 then (s.modRec fun c => { c with arrivals := c.arrivals.tail }, w, s.rec_.arrivals.head?) else (s, w, none)

def execMailboxRequestCopy (mb : MbId) (dma : DmaInput) (s : State) : Answer :=
  .next (
    let m := s.mb[mb]
    if s.dist.st ≠ .running ∨ !s.isReady rdyMailboxes ∨ m.reqPi = m.reqCi ∨ m.full ∨ !turnOpen s mb then s
    else
      let (s, w, remote) := (s.wakeFn distaffFn).popRequest mb
      let r := requestOf w
      if r.remote && mb != 6 then s.sendRemote mb r w dma else s.takeLocal mb r remote dma)

/-- BUSY_SWITCH_ANSWER (R19). -/
def execBusySwitchAnswer (mb : MbId) (s : State) : Answer :=
  .next (
    let m := s.mb[mb]
    if s.dist.st = .running ∨ !s.isReady rdyMailboxes ∨ m.reqPi = m.reqCi ∨ m.full then s
    else
      let (s, w, remote) := s.popRequest mb
      let r := requestOf w
      s.pushCmpl mb (refusal r ⟨mb, r.tag, r.irq, remote⟩ stBusySwitch true))

/-! Doorbells (R30, R44 to R46). -/

/-- An ignored index write. -/
def State.dbErr (s : State) (mb : MbId) : State := s.modMb mb fun m => { m with dbErr := true }

def State.accErr (s : State) : State := s.modHost fun h => { h with accErr := true }

/-- REQ_PI_WRITE. -/
def State.writeReqPi (s : State) (mb : MbId) (value : Word) : State :=
  let m := s.mb[mb]
  let new : BitVec 7 := value.truncate 7
  if 4 ≤ mb.val then s.accErr
  else if !s.isReady rdyMailboxes then s.dbErr mb
  else if (new - m.reqCi).toNat ≤ 64 ∧ (m.reqPi - m.reqCi).toNat ≤ (new - m.reqCi).toNat then s.modMb mb fun m => { m with reqPi := new }
  else s.dbErr mb

/-- RSP_CI_WRITE. -/
def State.writeRspCi (s : State) (mb : MbId) (value : Word) : State :=
  let m := s.mb[mb]
  let new : BitVec 7 := value.truncate 7
  if 4 ≤ mb.val then s.accErr
  else if (new - m.rspCi).toNat ≤ (m.rspPi - m.rspCi).toNat then (s.modMb mb fun m => { m with rspCi := new }).mbLevel mb
  else s.dbErr mb

def execReqPiWrite (mb : MbId) (value : Word) (s : State) : Answer := .next (if s.host.pcieUp then s.writeReqPi mb value else s)

def execRspCiWrite (mb : MbId) (value : Word) (s : State) : Answer := .next (if s.host.pcieUp then s.writeRspCi mb value else s)

/-! Remote commands (R276 to R278). -/

/-- REMOTE_REQUEST_RECEIVE: a duplicate is dropped or answered again; a new request enters MB6 and is reported delivered. -/
def execRemoteRequestReceive (src : BitVec 14) (key : RemoteKey) (slot : SlotWord) (s : State) : Answer :=
  .next (
    let r := requestOf slot
    match s.rec_.keys.find? fun k => k.src == src && k.key == key with
    | some k =>
      match k.done with
      | none => s
      | some w => s.sendFrame src kindCompletion (keyBlock key :: slotBlocks w)
    | none =>
      if 8192 ≤ s.rec_.keys.length then
        s.sendFrame src kindCompletion (keyBlock key :: slotBlocks (rspSlot (refusal r ⟨6, r.tag, r.irq, none⟩ stRefused true) true))
      else if !s.isReady rdyMailboxes ∨ 64 ≤ (s.mb[(6 : MbId)].reqPi - s.mb[(6 : MbId)].reqCi).toNat then s
      else
        let s := s.modMb 6 fun m => { m with req := m.req.set (Fin.ofNat 64 m.reqPi.toNat) slot, reqPi := m.reqPi + 1 }
        let s := s.modRec fun c => { c with keys := c.keys ++ [⟨src, key, none⟩], arrivals := c.arrivals ++ [(src, key)] }
        s.sendFrame src kindDelivery [keyBlock key])

/-- The completion a response slot carries for a command this device sent. -/
def cmplOf (r : RemoteCmd) (src : BitVec 14) (key : RemoteKey) (w : SlotWord) : Cmpl :=
  let bs := slotBytes w
  let flags := fieldU bs 3 1
  ⟨r.opcode, r.tag, bit flags 0, bit flags 1, r.irq, BitVec.ofNat 16 (fieldU bs 4 2), BitVec.ofNat 16 (fieldU bs 6 2), BitVec.ofNat 48 (fieldU bs 8 6),
    bs.drop 16, some (src, key)⟩

/-- REMOTE_COMPLETION_RECEIVE: into the originating mailbox; progress restarts the timer, and a completion of a command no
longer open is discarded with a record (R278). -/
def execRemoteCompletionReceive (src : BitVec 14) (key : RemoteKey) (slot : SlotWord) (s : State) : Answer :=
  .next (
    match s.rec_.remotes.find? fun r => r.rseq == key.rseq && r.target == src with
    | none => s.logEvent 10 60 src.toNat key.rseq.toNat
    | some r =>
      let c := cmplOf r src key slot
      if c.final then (s.modRec fun q => { q with remotes := q.remotes.erase r }).pushCmpl r.mb c
      else ((s.startTimer r.rseq).dropReports r.mb c.tag).pushCmpl r.mb c)

/-- REMOTE_KEY_EXPIRY. -/
def execRemoteKeyExpiry (src : BitVec 14) (key : RemoteKey) (s : State) : Answer :=
  .next (s.modRec fun c => { c with keys := c.keys.filter fun k => !(k.src == src && k.key == key) })

end Sys2Proof.Machine
end

