-- ==== Sys2Proof/Machine/Host.lean ====
section
/-! DEFINITION. BAR0 as the host reaches it (R41 to R46, R57, R58), the register writes of the internal bus (R4 to R6), and the
commands that report on the host interface or turn bench mode on and off (R59, R61, R62, R72). -/

namespace Sys2Proof.Machine

/-! Interrupts and watermarks (R57, R58). -/

def State.clearInt (s : State) (value : Word) : State := s.modHost fun h => { h with intStatus := h.intStatus &&& ~~~value }

/-- Unmasking a bit that is set sends its message at once. -/
def State.writeMask (s : State) (value : Word) : State :=
  let old := s.host.intMask
  let s := s.modHost fun h => { h with intMask := value }
  (List.range 32).foldl (fun s v => if old.getLsbD v && !value.getLsbD v && s.host.intStatus.getLsbD v then s.sendMsix v else s) s

/-- A notice cleared is re-armed at once where the level is already below the mark less the hysteresis. -/
def rearm (value : Word) (h : HostIf) (i : Fin 25) : HostIf :=
  let w := h.wm[i]
  if value.getLsbD i.val && h.notice.getLsbD i.val then
    { h with notice := setBit h.notice i.val false, wm := h.wm.set i { w with armed := w.armed || decide (w.level + w.hyst < w.mark) } }
  else h

def State.clearNotice (s : State) (value : Word) : State := s.modHost fun h => (List.finRange 25).foldl (rearm value) h

def execSysIntStatusClear (value : Word) (s : State) : Answer := .next (if s.host.pcieUp then s.clearInt value else s)
def execSysIntMaskWrite (value : Word) (s : State) : Answer := .next (if s.host.pcieUp then s.writeMask value else s)
def execSysWmNoticeClear (value : Word) (s : State) : Answer := .next (if s.host.pcieUp then s.clearNotice value else s)

/-- SET_WATERMARK: a mark the level meets already counts as a crossing, and a level below a new mark less its hysteresis arms at once
(R57, log entry 206). -/
def setMark (source : Byte) (mark hyst : Word) (s : State) : State :=
  let i : Fin 25 := Fin.ofNat 25 source.toNat
  let w := s.host.wm[i]
  let s := s.modHost fun h => { h with wm := h.wm.set i { w with mark := mark.toNat, hyst := hyst.toNat } }
  if mark.toNat ≤ w.level ∧ w.armed = true then
    (s.modHost fun h => { h with wm := h.wm.set i { h.wm[i] with armed := false }, notice := setBit h.notice i.val true }).raise 10
  else s.setLevel i w.level

def execSetWatermark (o : Origin) (source : Byte) (mark hyst : Word) (s : State) : Answer :=
  .next (runShort (.setWatermark o source mark hyst) o (fun s => (setMark source mark hyst s, stOk, [])) s)

/-! Registers (R4, R41, R42, R44). -/

/-- A port whose lane enables were changed goes down (R241, R261). -/
def State.syncPorts (s : State) (before : Vector LinkPort 4) : State :=
  allPorts.foldl (fun s p => if before[portIx p].ready && !(s.port p).ready then s.portDown p else s) s

/-- A 32-bit write on the internal bus. -/
def State.busWrite (s : State) (a : Nat) (v : Word) : State := (s.writeInternal a v).syncPorts s.link.ports

/-- A 32-bit write of a control-page register. -/
def State.pageWrite (s : State) (off : Nat) (v : Word) : State :=
  if off = 0x20 then s.clearInt v
  else if off = 0x24 then s.writeMask v
  else if off = 0x28 then s.clearNotice v
  else if off = 0x34 then
    let s := s.modHost fun h => { h with accErr := h.accErr && !v.getLsbD 1 }
    (List.finRange 8).foldl (fun s m => if v.getLsbD (8 + m.val) then s.modMb m fun b => { b with dbErr := false } else s) s
  else if 0x100 ≤ off ∧ off < 0x180 ∧ off % 16 = 0 then s.writeReqPi (Fin.ofNat 8 ((off - 0x100) / 16)) v
  else if 0x100 ≤ off ∧ off < 0x180 ∧ off % 16 = 12 then s.writeRspCi (Fin.ofNat 8 ((off - 0x100) / 16)) v
  else if 0x140 ≤ off ∧ off < 0x180 then s.accErr
  else s

/-- Is there a register at a control-page offset? -/
def pageReg (off : Nat) : Bool :=
  decide (off < 0x1C) || (decide (0x20 ≤ off) && decide (off < 0x38)) || (decide (0x40 ≤ off) && decide (off < 0x68)) ||
    (decide (0x100 ≤ off) && decide (off < 0x180))

/-! Reads of BAR0 (R41, R42, R44). A read changes nothing but SYS_CYCLE_HI, so the table has a row for that one alone. -/

/-- Byte `i` of a number, least significant first. -/
def byteOf (n i : Nat) : Byte := BitVec.ofNat 8 (n / 256 ^ i)

/-- The 64-byte header of a contact sheet page or a subscription page. -/
def pageHead (seq : Word) (cycle : BitVec 48) : Nat := pack [nw seq.toNat 64, nw cycle.toNat 64]

/-- A byte of a contact sheet page (03_host_interface.md). -/
def sheetByte (p : SheetPage) (i : Nat) : Byte :=
  if i < 0x40 then byteOf (pageHead p.seq p.cycle) i
  else if i < 0x2040 then
    let e := p.entries[(Fin.ofNat 256 ((i - 0x40) / 32))]
    byteOf (pack [nw e.pos.toNat 64, nw e.vel.toNat 32, nw e.iq.toNat 32, nw e.ferr.toNat 32, nw e.state.toNat 16, nw e.fault.toNat 16,
      nw e.updCycle.toNat 32]) ((i - 0x40) % 32)
  else if i < 0x2060 then byteOf (pack [nw p.inputs.toNat 32, nw p.faults.toNat 4]) (i - 0x2040)
  else 0

/-- A byte of a subscription page. -/
def subByte (p : SubPage) (i : Nat) : Byte :=
  if i < 0x40 then byteOf (pageHead p.seq p.cycle) i
  else
    match p.entries[(i - 0x40) / 16]? with
    | some e => byteOf (pack [nw e.endpoint.toNat 24, nw e.age.toNat 6, nw 0 1, bw e.missing, nw e.payload.toNat 72]) ((i - 0x40) % 16)
    | none => 0

/-- A byte of BAR0 as a read returns it; an address that is not listed reads 0 (R41), and every ring can be read (R44). -/
def barByte (s : State) (a : Nat) : Byte :=
  if a < 0x1000 then byteOf (controlPage s (a / 4 * 4)).toNat (a % 4)
  else if h : 0x8000 ≤ a ∧ a < 0x8200 then s.host.msixTable[(⟨a - 0x8000, by omega⟩ : Fin 512)]
  else if 0x9000 ≤ a ∧ a < 0x9008 then byteOf s.host.msixPending.toNat (a - 0x9000)
  else if 0x10000 ≤ a ∧ a < 0x20000 then
    let m := s.mb[(Fin.ofNat 8 ((a - 0x10000) / 0x2000))]
    let i := a % 0x2000
    byteOf (if i < 0x1000 then m.req else m.rsp)[(Fin.ofNat 64 (i % 0x1000 / 64))].toNat (i % 64)
  else if 0x100000 ≤ a ∧ a < 0x102000 then byteOf s.host.intake[(Fin.ofNat 256 ((a - 0x100000) / 32))].toNat (a % 32)
  else if 0x102000 ≤ a ∧ a < 0x102020 then byteOf s.host.outRec.toNat (a - 0x102000)
  else if 0x200000 ≤ a ∧ a < 0x210000 then sheetByte s.host.sheets[(Fin.ofNat 2 ((a - 0x200000) / 0x8000))] (a % 0x8000)
  else if 0x300000 ≤ a ∧ a < 0x340000 then subByte s.host.subs[(Fin.ofNat 2 ((a - 0x300000) / 0x20000))] (a % 0x20000)
  else 0

/-- The bytes a read of any size returns. -/
def barBytes (s : State) (a n : Nat) : List Byte := (List.range n).map fun i => barByte s (a + i)

/-- A host read of BAR0: one that takes in SYS_CYCLE_LO latches the high half first, so that a read of both registers returns
one counter value (R42). -/
def State.barRead (s : State) (a n : Nat) : State :=
  let s := if a < 12 ∧ 8 < a + n then s.modHost fun h => { h with cycleHi := BitVec.ofNat 16 (s.seq.cycle.toNat / 2 ^ 32) } else s
  s.emit (.busRead (barBytes s a n) false)

/-- SYS_CYCLE_LO_READ. -/
def execSysCycleLoRead (s : State) : Answer := .next (if s.host.pcieUp then s.barRead 8 4 else s)

/-! Memory areas (R41, R44). -/

/-- What a byte of BAR0 is to a host write. -/
inductive Area
  | reg
  | msixTable (i : Fin 512)
  | request (m : MbId) (i : Nat)
  | intake (i : Nat)
  | outputs (i : Nat)
  | readOnly
  | none
deriving DecidableEq, Repr

def areaOf (a : Nat) : Area :=
  if a < 0x1000 then (if pageReg a then .reg else .none)
  else if h : 0x8000 ≤ a ∧ a < 0x8200 then .msixTable ⟨a - 0x8000, by omega⟩
  else if 0x10000 ≤ a ∧ a < 0x20000 then
    let m : MbId := Fin.ofNat 8 ((a - 0x10000) / 0x2000)
    if 4 ≤ m.val ∨ 0x1000 ≤ a % 0x2000 then .readOnly else .request m (a % 0x2000)
  else if 0x100000 ≤ a ∧ a < 0x102000 then .intake (a - 0x100000)
  else if 0x102000 ≤ a ∧ a < 0x102020 then .outputs (a - 0x102000)
  else if (0x200000 ≤ a ∧ a < 0x210000) ∨ (0x300000 ≤ a ∧ a < 0x340000) then .readOnly
  else .none

/-- Replace byte `i` of a bit vector. -/
def putByte {n : Nat} (x : BitVec n) (i : Nat) (b : Byte) : BitVec n := putBits x (8 * i) 8 b.toNat

/-- One byte of a host write. A table entry unmasked while its message is pending sends it (the PCIe specification's rule). -/
def State.hostByte (s : State) (a : Nat) (b : Byte) : State :=
  match areaOf a with
  | .msixTable i =>
    let v := i.val / 16
    let s := s.modHost fun h => { h with msixTable := h.msixTable.set i b }
    if s.host.msixPending.getLsbD v && !entryMasked s.host v && s.host.msixEnable then
      (s.modHost fun h => { h with msixPending := setBit h.msixPending v false }).emit (.msix v)
    else s
  | .request m i => s.modMb m fun x => { x with req := modAt x.req (Fin.ofNat 64 (i / 64)) fun w => putByte w (i % 64) b }
  | .intake i => s.modHost fun h => { h with intake := modAt h.intake (Fin.ofNat 256 (i / 32)) fun w => putByte w (i % 32) b }
  | .outputs i => s.modHost fun h => { h with outRec := putByte h.outRec i b }
  | .readOnly => s.accErr
  | .reg => s.accErr
  | .none => s

/-- A host write of any size: a whole aligned word of a register, or bytes of memory; the bytes go in rising order. -/
def State.hostWrite (s : State) (a : Nat) (bs : List Byte) : State :=
  if bs.length = 4 ∧ a % 4 = 0 ∧ areaOf a = .reg then s.pageWrite a (BitVec.ofNat 32 (leNat bs))
  else (bs.foldl (fun (x : State × Nat) b => (x.1.hostByte x.2 b, x.2 + 1)) (s, a)).1

def execBar0MemoryWrite (offset : BitVec 24) (data : List Byte) (s : State) : Answer :=
  .next (if s.host.pcieUp then s.hostWrite offset.toNat data else s)

/-- REGISTER_WRITE: from the host through BAR0, or on the internal bus as one aligned 32-bit word. -/
def execRegisterWrite (bus : RegBus) (address : Word) (size : Nat) (value : BitVec 64) (s : State) : Answer :=
  .next (
    match bus with
    | .bar0 => if s.host.pcieUp then s.hostWrite (address.toNat % 0x1000000) (leBytes (min size 8) value.toNat) else s
    | .internal => if size = 4 ∧ address.toNat % 4 = 0 ∧ 0x80000000 ≤ address.toNat then s.busWrite address.toNat (value.truncate 32) else s)

/-! Commands. -/

/-- IDENTIFY (R63). -/
def identityBytes (s : State) : List Byte :=
  leBytes 2 s.dist.fwRel.toNat ++ leBytes 1 s.id.stepping.toNat ++ leBytes 1 (pack [nw s.id.variant.toNat 2, bw s.id.gradeE]) ++
    leBytes 6 s.id.serial.toNat ++ leBytes 2 (s.link.device.toNat + (if s.link.numbered then 0x8000 else 0)) ++ leBytes 1 (b2n s.dist.image) ++
    leBytes 1 (pack [bw s.host.bench, bw s.link.master]) ++ leBytes 2 0 ++ leBytes 16 s.id.dieC.toNat ++ leBytes 16 s.id.dieF.toNat

def execIdentify (o : Origin) (s : State) : Answer := .next (runShort (.identify o) o (fun s => (s, stOk, identityBytes s)) s)

def execPing (o : Origin) (bytes : List Byte) (s : State) : Answer := .next (runShort (.ping o bytes) o (fun s => (s, stOk, bytes)) s)

/-- MB_TAGS (R50). -/
def execMbTags (o : Origin) (mailbox : Byte) (s : State) : Answer :=
  .next (runShort (.mbTags o mailbox) o (fun s =>
    let m := s.mb[(Fin.ofNat 8 mailbox.toNat)]
    (s, stOk, leBytes 4 (m.held ||| m.lateHeld).toNat)) s)

/-- GET_COUNTERS (R72): the counters by name (log entry 6). -/
def counterBytes (s : State) : List Byte :=
  Config.layout 0x0107 ((readSeq s.seq 4) :: allPorts.flatMap fun p => [capped 65535 (s.port p).single, capped 65535 (s.port p).missing])

def execGetCounters (o : Origin) (clear : Byte) (s : State) : Answer :=
  .next (runShort (.getCounters o clear) o (fun s =>
    let bs := counterBytes s
    if clear = 0 then (s, stOk, bs)
    else (allPorts.foldl (fun s p => s.modPort p fun x => { x with single := 0, missing := 0 }) (s.modSeq clearSeqCnt), stOk, bs)) s)

/-- BENCH_MODE (R59). -/
def runBench (o : Origin) (on : Byte) (password : Rec32) (s : State) : CmdResult :=
  if on = 0 then (s.modHost fun h => { h with bench := false }, stOk, [])
  else
    let (s, ok) := s.checkPassword o 0 (bytesOf password)
    if ok then (s.modHost fun h => { h with bench := true, bar2Denied := 0 }, stOk, []) else refuse s stAuthFail

def execBenchMode (o : Origin) (on : Byte) (password : Rec32) (s : State) : Answer :=
  .next (runShort (.benchMode o on password) o (runBench o on password) s)

/-- The words a 32-bit access at an internal address touches, from the first up to the one after the last (R218); none at a
register. -/
def touchedWords (a : Nat) : Option (Nat × Nat) :=
  if a < 0x02000000 then some (a / 8, (a + 11) / 8)
  else if a < 0x02400000 then some (a - 0x02000000, a - 0x02000000 + 4)
  else if 0x10000000 ≤ a ∧ a < 0x11000000 then some ((a - 0x10000000) / 4, (a - 0x10000000) / 4 + 1)
  else none

/-- REG_ACCESS (R61, R71). -/
def runRegAccess (address : Word) (write : Byte) (value : Word) (s : State) : CmdResult :=
  let a := address.toNat
  if !s.host.bench then refuse s stRefused
  else if write != 0 && islandAddr a then refuse s stSafetyLocked
  else
    let t := touchedWords a
    let s := match t with
      | some (lo, hi) => s.wakeRange (8 * lo) (8 * hi)
      | none => s
    if write != 0 then ((s.busWrite a value).tick, stOk, [])
    else
      match t.bind fun w => firstPoison s.mem (8 * w.1) (8 * w.2) with
      | some g => (s, stPoisoned, leBytes 4 (8 * g))
      | none => ((s.afterRead a).tick, stOk, leBytes 4 (readInternal s a).toNat)

def execRegAccess (o : Origin) (address : Word) (write : Byte) (value : Word) (s : State) : Answer :=
  .next (runShort (.regAccess o address write value) o (runRegAccess address write value) s)

/-! Counters that a write of one bit clears (R18, R162, R185). -/

def execLnkSeqCntClear (s : State) : Answer := .next (s.modSeq clearSeqCnt)
def execFbQerrCntClear (unit : FbId) (s : State) : Answer := .next (s.modFb unit (writeFb 0x24 0x80000000))
def execStgStatClear (stg : StgId) (value : Word) (s : State) : Answer := .next (s.modStg stg (clearStgStat value.toNat))

end Sys2Proof.Machine
end

