-- ==== Sys2Proof/Machine/Timing.lean ====
section
/-! DEFINITION. Domain time (R262 to R273): the two domains and device time, time events and link delays, the election
of time masters, the selected domain and its switch, holdover, and the PTP bridge. Times are in 2^-24 ns, errors and
delays in 1/256 ns. -/

namespace Sys2Proof.Machine

def otherDom : Dom → Dom
  | .td1 => .td2
  | .td2 => .td1

def domIx : Dom → Nat
  | .td1 => 0
  | .td2 => 1

/-- A domain goes on by a signed time. -/
def TimeDom.add (d : TimeDom) (v : Int) : TimeDom :=
  let n := wrapNat 88 (domFine d + v)
  { d with ns := BitVec.ofNat 64 (n / 2 ^ 24), frac := BitVec.ofNat 24 n }

/-! A cycle passes (R9, R262, R266). -/

/-- The most a rate change of 0.1 ppm moves in `ns` nanoseconds. -/
def slewStep (ns : Nat) : Int := ((ns * 2 ^ 24 / 10000000 : Nat) : Int)

/-- The time unit from one cycle start to the next, `ns` nanoseconds of device time later. Device time is exact on its own cycle
starts, so the slew toward the followed domain shows as that domain's distance closing. The TD2 master slews TD2 toward TD1, at most
0.1 ppm (log entry 17). -/
def Time.cycle (key ns : Nat) (t : Time) : Time :=
  let pull : Int := if (t.dom t.active).lock then clampInt (-(slewStep ns)) (slewStep ns) (-(slewLeft t)) else 0
  let go := fun (d : TimeDom) => d.add ((ns * 2 ^ 24 : Nat) + pull)
  let t := { t with dev := t.dev + BitVec.ofNat 64 ns, td1 := go t.td1, td2 := go t.td2 }
  if t.td2.isMaster && t.td1.hasMaster then
    let e := domFine t.td1 - domFine t.td2
    { t with td2 := t.td2.add (clampInt (-(slewStep ns)) (slewStep ns) (clampInt (min 0 e) (max 0 e) (Config.servo key e))) }
  else t

/-! The selected domain (R268, R269). -/

/-- A domain loses lock; with auto the device turns to the other where that is locked. -/
def State.dropLock (s : State) (d : Dom) : State :=
  if !(s.dom d).lock then s.modDom d fun x => { x with goodSyncs := 0 }
  else
    let s := (s.modDom d fun x => { x with lock := false, goodSyncs := 0 }).modTime fun t => { t with lockEvent := true }
    let s := s.raise 14
    if s.time.auto && decide (s.time.active = d) && (s.dom (otherDom d)).lock then s.switchTo (otherDom d) else s

/-- TIME_SELECT. -/
def execTimeSelect (o : Origin) (domain : Byte) (s : State) : Answer :=
  .next (runShort (.timeSelect o domain) o (fun s =>
    let d : Dom := if domain = 1 then .td1 else .td2
    if !(s.dom d).lock then refuse s stRefused
    else if s.time.active = d ∧ s.time.slewing = false then (s.modTime fun t => { t with sel := d }, stOk, [])
    else (s.switchTo d, stOk, [])) s)

def execTimeRead (o : Origin) (s : State) : Answer :=
  .next (runShort (.timeRead o) o (fun s =>
    (s, stOk, Config.layout 0x5101 [s.time.td1.ns.toNat, s.time.td2.ns.toNat, domIx s.time.sel, s.seq.cycle.toNat])) s)

/-- TIME_PRIORITY: the value goes into the negative at once (R265, R282). -/
def execTimePriority (o : Origin) (domain priority : Byte) (s : State) : Answer :=
  .next (runShort (.timePriority o domain priority) o (fun s =>
    ((s.modDom (if domain = 1 then .td1 else .td2) fun x => { x with prio := priority.truncate 4 }).keepItems, stOk, [])) s)

def execSlewEnd (s : State) : Answer :=
  .next (if s.time.slewing && decide (|slewLeft s.time| < 2 ^ 24) then s.modTime fun t => { t with slewing := false } else s)

/-- DOMAIN_LOCK: a master, a good upstream port and 100 syncs below 10 ns; a master tracks itself. -/
def execDomainLock (dom : Dom) (s : State) : Answer :=
  .next (
    let d := s.dom dom
    if d.lock || !d.hasMaster || !(d.isMaster || ((s.port d.up).ready && decide (100 ≤ d.goodSyncs))) then s
    else
      let s := (s.modDom dom fun x => { x with lock := true }).modTime fun t => { t with holdover := false }
      let s := if s.time.active = dom then (s.modTime fun t => { t with slewing := decide (2 ^ 24 ≤ |slewLeft t|) })
        else if s.time.auto && !(s.dom s.time.active).lock then s.switchTo dom else s
      s.setReady rdyTimeLock true)

/-- TIME_HOLDOVER (R269). -/
def execTimeHoldover (s : State) : Answer :=
  .next (if s.time.td1.lock || s.time.td2.lock || s.time.holdover then s
    else (s.modTime fun t => { t with holdover := true }).raise 14)

def execTimeLockClear (s : State) : Answer := .next (if s.time.holdover then s.setReady rdyTimeLock false else s)

/-! Time events (R263, R264). -/

/-- The payload of a time-event block. -/
def timePayload (kind : Nat) (dom : Dom) (seq : BitVec 5) (value : Nat) : BitVec 56 :=
  BitVec.ofNat 56 (pack [nw kind 2, nw (domIx dom) 1, nw seq.toNat 5, nw value 48])

/-- A domain's time modulo 2^40 ns in 1/256 ns. -/
def domValue (d : TimeDom) : Nat := (d.ns.toNat * 256 + d.frac.toNat / 65536) % 2 ^ 48

/-- A domain's time when a stamp was taken. -/
def domAt (t : Time) (d : Dom) (stamp : BitVec 64) : Int := domValue (t.dom d) + ((stamp.toNat : Int) - t.dev.toNat) * 256

/-- The difference of two times modulo 2^40 ns, the nearest reading. -/
def near48 (v : Int) : Int := toSigned 48 (wrapNat 48 v)

/-- Does the port lead away from the domain's master? -/
def leadsAway (s : State) (p : Port) (d : Dom) : Bool := (s.dom d).isMaster || (s.dom d).up != p

/-- A time-event block leaves: on lane 0, with a slack block before it where the next block would fall on lane 1, or on the lane a
port on one lane has (R263). -/
def State.sendTime (s : State) (p : Port) (payload : BitVec 56) : State :=
  let x := s.port p
  let two := blockTime x == 1
  let s := if two && Config.laneOne s.free (portIx p).val then s.emit (.slack p) else s
  s.emit (.timeBlock p (!two && x.lock == 2) payload)

/-- SYNC_SEND: sync and its follow-up. -/
def execSyncSend (port : Port) (dom : Dom) (s : State) : Answer :=
  .next (
    if (s.port port).ready && (s.dom dom).hasMaster && leadsAway s port dom then
      let q := s.time.syncSeq
      ((s.modTime fun t => { t with syncSeq := q + 1 }).sendTime port (timePayload 0 dom q 0)).sendTime port
        (timePayload 1 dom q (domValue (s.dom dom)))
    else s)

/-- DELAY_REQUEST_SEND. -/
def execDelayRequestSend (port : Port) (s : State) : Answer :=
  .next (
    if (s.port port).ready then
      let q := s.time.syncSeq
      (s.modTime fun t => { t with syncSeq := q + 1, requests := t.requests.set (portIx port) (some (q, s.time.dev)) }).sendTime port
        (timePayload 2 s.time.active q 0)
    else s)

/-- What the servo takes out of an error, in 2^-24 ns: a part of it, and in a member of the domain no more than 0.1 ppm over the
125 µs between syncs (R262, R267). -/
def servoFix (key : Nat) (member : Bool) (err : Int) : Int :=
  let fix := clampInt (min 0 err) (max 0 err) (Config.servo key err) * 65536
  if member then clampInt (-(slewStep 125000)) (slewStep 125000) fix else fix

/-- A follow-up with its sync: the domain's error, and the servo that takes some of it out. The time from the neighbour, as it
stands after that, is kept for the link delay (R264). -/
def State.follow (s : State) (p : Port) (d : Dom) (stamp : BitVec 64) (value : Nat) : State :=
  let fwd := near48 (domAt s.time d stamp - (value : Int))
  let err := (s.time.delays[portIx p] : Int) - fwd
  let fix := servoFix s.free s.link.member err
  let first := !(s.dom d).hasMaster
  let s := s.modDom d fun x => { (x.add fix) with
    sync := none, error := err, hasMaster := true, masterSerial := if first then 0 else x.masterSerial
    forwards := x.forwards.set (portIx p) (some (fwd + fix / 65536)) }
  let s := if first then s.newMaster else s
  if |err| < 2560 then (s.modDom d fun x => { x with goodSyncs := x.goodSyncs + 1 }).tick else (s.dropLock d).tick

/-- The link delay: half of the time from the neighbour and the time to it; where none has come from it yet, the delay stands
(R264). -/
def linkDelay (fwd : Option Int) (back : Int) (was : Nat) : Nat :=
  match fwd with
  | some f => ((f + back) / 2).toNat
  | none => was

/-- TIME_EVENT_RECEIVE: the block's payload and the device time of its arrival. Sync and follow-up count on the upstream
port, which the first sync of a domain without a master names (log entry 52). -/
def execTimeEventReceive (port : Port) (payload : BitVec 56) (stamp : BitVec 64) (s : State) : Answer :=
  .next (
    let v := payload.toNat
    let d : Dom := if bit v 2 then .td2 else .td1
    let q : BitVec 5 := BitVec.ofNat 5 (bits v 7 3)
    let value := bits v 55 8
    let x := s.dom d
    let mine := !x.isMaster && (x.up == port || !x.hasMaster)
    if !(s.port port).ready then s
    else
      match bits v 1 0 with
      | 0 => if mine then s.modDom d fun x => { x with sync := some (port, q, stamp), up := port } else s
      | 1 =>
        match x.sync with
        | some (p, n, t) => if mine && p == port && n == q then s.follow port d t value else s
        | none => s
      | 2 => s.sendTime port (timePayload 3 d q (wrapNat 48 (domAt s.time d stamp)))
      | _ =>
        match s.time.requests[portIx port] with
        | some (n, t) =>
          if n = q then
            let back := near48 ((value : Int) - domAt s.time d t)
            s.modTime fun y => { y with
              delays := y.delays.set (portIx port) (linkDelay (x.forwards[portIx port]) back y.delays[portIx port])
              requests := y.requests.set (portIx port) none }
          else s
        | none => s)

/-- UPSTREAM_PORT_LOSS (R267): the port that is next by its hops; with none the lock is lost. -/
def execUpstreamPortLoss (dom : Dom) (s : State) : Answer :=
  .next (
    let d := s.dom dom
    if d.isMaster || !d.hasMaster || (s.port d.up).ready then s
    else
      match upstream s dom with
      | some p => s.modDom dom fun x => { x with up := p, sync := none }
      | none => s.dropLock dom)

/-! Masters (R265, R266). -/

/-- TIME_ANNOUNCE_SEND: the master, or a candidate while there is none. -/
def execTimeAnnounceSend (dom : Dom) (s : State) : Answer :=
  .next (
    let d := s.dom dom
    if d.isMaster || (!d.hasMaster && d.prio != 0 && !(decide (dom = .td2) && s.time.td1.isMaster)) then
      let a : Announcement := ⟨dom, d.isMaster, d.prio, s.id.serial, d.ns, 0⟩
      s.sendBody broadcastDst kindPeer (announceData a) (.announce a)
    else s)

/-- TIME_ANNOUNCE_LOSS: the candidates elect. The TD1 master is no candidate for TD2. A winner goes on from the time it
was tracking, or starts at its device time where there was no domain. -/
def execTimeAnnounceLoss (dom : Dom) (candidates : List Candidate) (s : State) : Answer :=
  .next (
    let d := s.dom dom
    if d.isMaster then s
    else
      let barred := fun (c : Candidate) => decide (dom = .td2) && s.time.td1.hasMaster &&
        (if c.self then s.time.td1.isMaster else !s.time.td1.isMaster && c.serial == s.time.td1.masterSerial)
      let cs := s.asSelf d.prio candidates
      match elect (cs.filter fun c => !barred c) with
      | none =>
        let t := (s.modDom dom fun x => { x with hasMaster := false }).dropLock dom
        if d.hasMaster then (t.modTime fun t => { t with masterEvent := true }).raise 14 else t
      | some c =>
        let fresh := c.self && !d.hasMaster
        let s := s.modDom dom fun x => { x with
          hasMaster := true, isMaster := c.self, masterSerial := c.serial, goodSyncs := 0
          ns := if fresh then s.time.dev else x.ns, frac := if fresh then s.time.devFrac else x.frac }
        (s.modTime fun t => { t with masterEvent := true }).raise 14)

/-! The PTP bridge (R272, R363). -/

/-- Does the bridge run: enabled, the distaff running, the Ethernet link up? -/
def ptpRuns (s : State) : Bool := s.time.ptpOn && s.eth.link && decide (s.dist.st = .running)

/-- PTP_CONFIG: the bridge, and with set bits the address and the session key; the key comes from MB0 to MB4 alone. -/
def execPtpConfig (o : Origin) (args : PtpArgs) (s : State) : Answer :=
  .next (runShort (.ptpConfig o args) o (fun s =>
    if args.set.getLsbD 1 && decide (5 ≤ o.mb.val) then refuse s stRefused
    else
      let s := s.modTime fun t => { t with
        ptpOn := args.enable == 1, ptpDomain := args.domain.toNat, ptpInterval := args.interval.toInt }
      let s := s.modEth fun e => { e with
        address := if args.set.getLsbD 0 then some (BitVec.ofNat 96 (pack [nw args.ip.toNat 32, nw args.mask.toNat 32, nw args.gateway.toNat 32])) else e.address
        key := if args.set.getLsbD 1 then some args.key else e.key }
      let s := if args.set = 0 then s else s.mramWrite 0xE10000 0x1000
      (s.setReady rdyEth (s.eth.link && s.eth.address.isSome && s.eth.key.isSome && s.isReady rdyMailboxes), stOk, [])) s)

/-- One exchange's offset of plant time enters the filter and TIM_PLANT. -/
def Time.takeOffset (t : Time) (offset : Int) : Time :=
  let l := t.ptpOffsets ++ [offset]
  let l := l.drop (l.length - 16)
  { t with ptpOffsets := l, plant := Config.plantFilter l, plantValid := true, ptpAt := t.dev }

/-- The domainNumber of a message. -/
def ptpDomainOf : PtpMessage → Byte
  | .sync d _ _ _ => d
  | .followUp d _ _ => d
  | .delayResp d _ _ => d

/-- A message of the bridge's PTP domain: a Sync gives the time from the master to here, at once or with its Follow_Up; the response
to a Delay_Req gives the time back, and half their difference is the offset (R272). -/
def Time.takePtp (t : Time) : PtpMessage → Time
  | .sync _ _ arrived (some time) => { t with ptpSync := none, ptpDown := some ((time.toNat : Int) - arrived.toNat) }
  | .sync _ q arrived none => { t with ptpSync := some (q, arrived) }
  | .followUp _ q time =>
    match t.ptpSync with
    | some (n, arrived) => if n = q then { t with ptpSync := none, ptpDown := some ((time.toNat : Int) - arrived.toNat) } else t
    | none => t
  | .delayResp _ q time =>
    match t.ptpReq, t.ptpDown with
    | some (n, left), some down => if n = q then { t with ptpReq := none }.takeOffset ((down + ((time.toNat : Int) - left.toNat)) / 2) else t
    | _, _ => t

/-- PTP_EVENT_MESSAGE. -/
def execPtpEventMessage (msg : PtpMessage) (s : State) : Answer :=
  .next (if ptpRuns s && (ptpDomainOf msg).toNat == s.time.ptpDomain then s.modTime fun t => t.takePtp msg else s)

/-- PLANT_VALID_TIMEOUT: ten seconds without an update, which a bridge that runs may still give in time (R272). -/
def execPlantValidTimeout (s : State) : Answer :=
  .next (if ptpRuns s && decide ((s.time.dev - s.time.ptpAt).toNat < 10000000000) then s else s.modTime fun t => { t with plantValid := false })

/-- The Delay_Req interval in ns. -/
def ptpGap (t : Time) : Nat := if 0 ≤ t.ptpInterval then 1000000000 * 2 ^ t.ptpInterval.toNat else 1000000000 / 2 ^ (-t.ptpInterval).toNat

/-- PTP_DELAY_REQ_SEND: a request, once the interval has passed since the last. -/
def execPtpDelayReqSend (s : State) : Answer :=
  .next (
    let t := s.time
    if !ptpRuns s || t.ptpLast.any (fun l => decide ((t.dev - l).toNat < ptpGap t)) then s
    else (s.modTime fun t => { t with ptpReq := some (t.ptpSeq, t.dev), ptpSeq := t.ptpSeq + 1, ptpLast := some t.dev }).emit .ptpDelayReq)

/-! The latching reads (R42, R273). -/

def execTimNowLoRead (s : State) : Answer :=
  .next ((s.modTime (latchTim 8)).emit (.busRead (leBytes 4 (readTim s.free s.time 8)) false))
def execTimPlantLoRead (s : State) : Answer :=
  .next ((s.modTime (latchTim 0x14)).emit (.busRead (leBytes 4 (readTim s.free s.time 0x14)) false))

end Sys2Proof.Machine
end

