-- ==== Sys2Proof/Machine/System.lean ====
section
/-! DEFINITION. Resets and bring-up (R26 to R30, R369), clocks (R31 to R33), the power state of the device (R36, R37), and the
restarts and firmware switches of the distaff (R19, R53, R73). -/

namespace Sys2Proof.Machine

/-! Complete resets (R26, R369). -/

/-- What a complete reset leaves: the reset state with what is fused, in MRAM or in the row map, the level of unread log records
(R57), and the model's own counter, outputs and queue. -/
def State.completeReset (s : State) : State :=
  { State.reset with
    id := s.id
    rec_ := { State.reset.rec_ with
      log := s.rec_.log, logNext := s.rec_.logNext, logUnread := s.rec_.logUnread, logRead := s.rec_.logRead, negative := s.rec_.negative
      negGen := s.rec_.negGen, nbrS := s.rec_.nbrS, nbrZ := s.rec_.nbrZ, records := s.rec_.records, fw := s.rec_.fw, boot := s.rec_.boot
      calPage := s.rec_.calPage, calUser := s.rec_.calUser, calDate := s.rec_.calDate, wear := s.rec_.wear, spareBlocks := s.rec_.spareBlocks }
    saf := { State.reset.saf with
      cfg := s.saf.cfg, password := s.saf.password, confirmed := s.saf.confirmed, printed := s.saf.printed, log := s.saf.log, logNext := s.saf.logNext }
    mem := { State.reset.mem with
      banks := State.reset.mem.banks.zipWith (fun (c d : BankCtl) => ({ c with rows := d.rows, spares := d.spares } : BankCtl)) s.mem.banks }
    host := { State.reset.host with wm := modAt State.reset.host.wm 24 fun w => { w with level := s.rec_.logUnread } }
    eth := { State.reset.eth with address := s.eth.address, key := s.eth.key }
    scan := s.scan
    free := s.free, out := s.out, pending := s.pending }

/-- The device is held in reset: the engines are stopped until the release. -/
def State.holdReset (s : State) : State :=
  let s := s.completeReset
  ({ s with pwr := { s.pwr with held := true }, engines := s.engines.map fun (e : Engine) => ({ e with run := .halted } : Engine) } : State).emit .reset

/-- A power loss may tear the record written last: then its CRC fails (R289, log entry 123). -/
def tearLog (key : Nat) (r : Recovery) : Recovery :=
  let n := r.log.length
  { r with log := r.log.mapIdx fun i x => { x with torn := x.torn || (i + 1 == n && Config.torn key) } }

/-- POWER_ON_RESET: a rail fell below its threshold for more than 2 µs. -/
def execPowerOnReset (rail : Fin 8) (s : State) : Answer :=
  .next (
    let was := s.pwr
    (s.holdReset.modRec (tearLog s.free)).modPwr fun p => { p with railsBad := setBit was.railsBad rail.val true, resetLow := was.resetLow })

def execResetNLow (s : State) : Answer :=
  .next (
    let bad := s.pwr.railsBad
    s.holdReset.modPwr fun p => { p with railsBad := bad, resetLow := true })

/-- RESET_RELEASE: RESET_N is high and every monitor reports good; the reset a cold SYSTEM_RESET asked for ends the same way. -/
def execResetRelease (s : State) : Answer := .next (if s.pwr.held || s.pwr.coldDue then s.completeReset else s)

/-! PCIe (R27). -/

/-- PERST_ASSERT: the endpoint resets; the MSI-X table keeps its entries and nothing is pending (R27, R58, log entry 208). -/
def execPerstAssert (s : State) : Answer :=
  .next ((s.modHost fun h => { h with
    perst := true, pcieUp := false, busMaster := false, msixEnable := false, msixPending := 0, bench := false }).setReady rdyPcie false)

/-- PCIE_LINK_UP; it comes again where the host changes bus mastering or MSI-X. -/
def execPcieLinkUp (busMaster msixEnable : Bool) (s : State) : Answer :=
  .next (
    if s.pwr.held || s.pwr.dev == .dormant then s
    else (s.modHost fun h => { h with perst := false, pcieUp := true, busMaster := busMaster, msixEnable := msixEnable }).setReady rdyPcie true)

/-! Clocks (R31 to R33). -/

def execRefclkFail (source : BitVec 2) (s : State) : Answer := .next (s.modClk fun c => selectSource (setGood source false c))
def execRefclkRecover (source : BitVec 2) (s : State) : Answer := .next (s.modClk fun c => selectSource (setGood source true c))

/-- REFCLK_REVERT: a source of higher priority has been good for 1 s. -/
def execRefclkRevert (s : State) : Answer :=
  .next (s.modClk fun c => if c.revert && !c.holdover then { c with active := (bestSource c).getD c.active } else c)

def execRefclkMismatch (s : State) : Answer := .next (s.modClk fun c => { c with mismatch := true })

def execSetClockSources (o : Origin) (pri0 pri1 pri2 revert : Byte) (s : State) : Answer :=
  .next (runShort (.setClockSources o pri0 pri1 pri2 revert) o (fun s =>
    (s.modClk fun c => selectSource { c with
      pri0 := pri0.truncate 2, pri1 := pri1.truncate 2, pri2 := pri2.truncate 2, revert := revert == 1 }, stOk, [])) s)

/-- A keeper count against the reference's 2,048 (R33). -/
def nearReference (n : Nat) : Bool := decide (1987 ≤ n) && decide (n ≤ 2109)

/-- A window's count of disagreements: at two the source has failed. -/
def votes (bad : Bool) (n : Nat) : Nat := if bad then n + 1 else 0

/-- A keeper fails: its ready bit, its fault bit and its island (R33). -/
def State.keeperFails (s : State) (c : Bool) : State :=
  let s := s.modClk fun k => if c then { k with keeperCFault := true } else { k with keeperFFault := true }
  (s.setReady (if c then rdyKeeperC else rdyKeeperF) false).islandFault (if c then .a else .b) 1

/-- The reference in use has failed; the one taken in its place is judged from its own windows on. -/
def State.referenceFails (s : State) : State := s.modClk fun c => { (selectSource (setGood c.active false c)) with badRef := 0 }

/-- KEEPER_VOTE: one window of 1 ms. -/
def execKeeperVote (countC countF : Nat) (s : State) : Answer :=
  .next (
    let cr := nearReference countC
    let fr := nearReference countF
    let cf := countsAgree countC countF
    let c := votes (!cr && !cf) s.clk.badC
    let f := votes (!fr && !cf) s.clk.badF
    let r := votes (!cr && !fr) s.clk.badRef
    let s := s.modClk fun k => { k with badC := c, badF := f, badRef := r }
    let s := if 2 ≤ c ∧ s.clk.keeperCFault = false then s.keeperFails true else s
    let s := if 2 ≤ f ∧ s.clk.keeperFFault = false then s.keeperFails false else s
    if !cr && !fr && !cf then (s.commonFault 2 0).referenceFails
    else if 2 ≤ r then s.referenceFails else s)

/-! Power states of the device (R36, R37). -/

/-- Every function that has a power state, by its code (R72). -/
def allFunctions : List Half :=
  ((List.range 17).map fun i => 256 + i) ++ ((List.range 32).map fun i => 512 + i) ++ ((List.range 12).map fun i => 768 + i) ++
    ((List.range 48).map fun i => 1024 + i) ++ ((List.range 8).map fun i => 1280 + i) ++ ((List.range 4).map fun i => 1536 + i) ++ [1792, 2048]
    |>.map (BitVec.ofNat 16)

/-- Standby: links pass traffic, all else in RETAIN; what may only stop its clock does that. -/
def standbyState (f : Half) : PwrState := if 7 ≤ fnClass f then .gate else .retain

/-- Dormant: only the always-on islands run; banks and program memories that are to be retained are. -/
def dormantState (s : State) (f : Half) : PwrState :=
  match fnClass f with
  | 1 => match fin? 17 (fnInst f) with
    | some e => if s.roles[e].program.isSome || s.roles[e].spare then .retain else .off
    | none => .off
  | 2 => lowestState s f
  | _ => .off

/-- The ready bits that stay through DORMANT: the keepers, the islands, the islands' evaluation and the calibration. -/
def dormantReady : BitVec 24 := BitVec.ofNat 24 (2 ^ 0 + 2 ^ 1 + 2 ^ 3 + 2 ^ 5 + 2 ^ 20 + 2 ^ 22)

/-- Entry to DORMANT: outputs safe, gate enables low, links down and out of the domain. -/
def State.goDormant (s : State) (o : Origin) : State :=
  let s := s.modFio fun f => settlePins (s.key 210) (enterSafe f)
  let s := (s.modPwr fun p => { p with dev := .dormant }).evaluate
  let s := allPorts.foldl (fun s p => if (s.port p).ready then s.portDown p else s) s
  let s := s.modLink fun l => { l with
    member := false, joining := false, master := false, ports := l.ports.map fun p => { p with lock := 0, ready := false, helloSeen := false, lockEvent := p.lockEvent || p.lock != 0 } }
  let s := allFunctions.foldl (fun s f => s.enterPwr f (dormantState s f)) s
  let s := s.modPwr fun p => { p with readyBank := 0, readyFly := 0 }
  let s := s.losesSources ((List.finRange 24).foldl (fun s b => if dormantReady.getLsbD b.val then s else s.setReady b false) s)
  s.modDist fun d => { d with stopAfter := some (o.mb, o.tag, .restarting) }

/-- Every function wakes but the spare engine, which stays in RETAIN (R34). -/
def State.wakeAll (s : State) : State :=
  allFunctions.foldl (fun s f =>
    match fnClass f, fin? 17 (fnInst f) with
    | 1, some e => if s.roles[e].spare then s else s.wakeFn f
    | _, _ => s.wakeFn f) s

/-- DORMANT_WAKE: bring-up again, from the boot of the distaff. -/
def execDormantWake (s : State) : Answer :=
  .next (
    if s.pwr.dev ≠ .dormant then s
    else
      let s := if s.dist.st = .running then s.stopDistaff .restarting else s
      let s := (s.modPwr fun p => { p with dev := .run }).wakeAll
      (s.modRec fun r => { r with restoreDue := true }).evaluate)

/-- GET_POWER: the state of each function, and the power of each die (log entry 6). -/
def powerBytes (s : State) : List Byte :=
  Config.layout 0x0203 ((allFunctions.map fun f => ((pwrFn s.pwr f).map fun x => pwrNum x.st).getD 0) ++ [Config.power (s.key 211) 0, Config.power (s.key 211) 1])

def execGetPower (o : Origin) (s : State) : Answer := .next (runShort (.getPower o) o (fun s => (s.tick, stOk, powerBytes s)) s)

/-! The distaff: restart, switch, boot (R19, R26, R53, R72, R73). -/

def execDistaffRestart (o : Origin) (s : State) : Answer :=
  .next (runShort (.distaffRestart o) o (fun s => (s.modDist fun d => { d with stopAfter := some (o.mb, o.tag, .restarting) }, stOk, [])) s)

def execDistaffWatchdogExpiry (s : State) : Answer := .next (if s.dist.st = .running then s.stopDistaff .restarting else s)

/-- The number of an image. -/
def imgIx (b : Bool) : Fin 2 := if b then 1 else 0

def execFwSwitch (o : Origin) (s : State) : Answer :=
  .next (runShort (.fwSwitch o) o (fun s =>
    let f := s.rec_.fw[imgIx (!s.dist.image)]
    if f.valid && f.verified then (s.modDist fun d => { d with stopAfter := some (o.mb, o.tag, .switching) }, stOk, []) else refuse s stRefused) s)

/-- FW_SWITCH_FALLBACK: the previous image runs on. -/
def execFwSwitchFallback (s : State) : Answer :=
  .next (if s.dist.st = .switching then (s.modDist fun d => { d with st := .restarting }).logEvent 5 1 (b2n (!s.dist.image)) 0 else s)

/-- FW_STATUS (log entry 6). -/
def fwBytes (s : State) : List Byte :=
  Config.layout 0x9003 ((List.finRange 2).flatMap fun i =>
    let f := s.rec_.fw[i]
    [f.rel.toNat, b2n f.valid, b2n f.verified, (crc32 (imageBytes f.bytes)).toNat])

def execFwStatus (o : Origin) (s : State) : Answer := .next (runShort (.fwStatus o) o (fun s => (s, stOk, fwBytes s)) s)

/-- The image a boot takes: the selected one, or the other where that one fails. -/
def bootImage (r : Recovery) : Option Bool :=
  [r.boot, !r.boot].find? fun b => r.fw[imgIx b].valid && r.fw[imgIx b].verified

/-- The distaff runs an image. -/
def State.runImage (s : State) (image : Bool) : State := s.modDist fun d => { d with image := image, fwRel := s.rec_.fw[imgIx image].rel }

/-- The distaff has loaded the Ethernet configuration: the PHY leaves its reset (R380). -/
def State.loadEth (s : State) : State := s.modEth fun e => { e with phyRun := true }

/-- The distaff has booted: after a complete reset it takes the selected image and the device's negative. -/
def State.distaffUp (s : State) : State :=
  if s.dist.st = .recovery then s
  else if s.rec_.restoreDue then
    match bootImage s.rec_ with
    | none => s
    | some image =>
      let s := (s.runImage image).modRec fun r => { r with restoreDue := false }
      let s := match s.rec_.negative with
        | some n => s.applyNegative n
        | none => s
      s.loadEth.setReady rdyDistaff true
  else s.loadEth.setReady rdyDistaff true

/-- The mailboxes accept requests: a stop of the distaff ends, and a switch has succeeded (R53, R73, R286). -/
def State.mailboxesUp (s : State) : State :=
  if !s.isReady rdyDistaff then s
  else
    let s := if s.dist.st = .switching then
        let b := !s.dist.image
        ((s.runImage b).modRec fun r => { r with boot := b }).mramWrite 0xE10000 1
      else s
    let s := if s.dist.st = .running then s else s.startDistaff
    s.setReady rdyMailboxes true

/-- Both images failed: only USB DFU is left. -/
def State.enterRecovery (s : State) : State :=
  if s.isReady rdyDistaff || (bootImage s.rec_).isSome then s
  else ((s.modDist fun d => { d with st := .recovery }).modUsb fun u => { u with dfuOnly := true }).setReady rdyRecovery true

/-- A bit of the ready word whose function shows its own state: it sets where the function is usable. -/
def bitReady (b : Fin 24) (s : State) : Bool :=
  match b.val with
  | 0 => !s.clk.keeperCFault
  | 1 => !s.clk.keeperFFault
  | 2 => s.pwr.readyBank == 0xFFFFFFFF
  | 3 => !(s.isle .a).failed
  | 5 => !(s.isle .b).failed
  | 8 => flyersReady s
  | 9 => s.host.pcieUp
  | 10 => s.usb.configured
  | 11 => s.eth.link && s.eth.address.isSome && s.eth.key.isSome && s.isReady rdyMailboxes
  | 12 => (s.port .s).ready
  | 13 => (s.port .z).ready
  | 14 => (s.port .t0).ready
  | 15 => (s.port .t1).ready
  | 16 => s.link.numbered && s.seq.running
  | 17 => (s.dom s.time.active).lock
  | 20 => (s.isle .a).eval && (s.isle .b).eval && (s.isle .a).cfgOk && (s.isle .b).cfgOk && s.rec_.calValid
  | _ => true

/-- The boot's check of the calibration page: one that fails leaves it invalid, and a page written later counts after the next
reset (R40). -/
def State.checkCal (s : State) : State :=
  if s.rec_.calChecked then s
  else
    let ok := Config.calCrcOk (calSet s.rec_)
    ((s.modRec fun r => { r with calChecked := true, calValid := ok }).setReady rdyCal ok).evaluate

/-- An island has passed its self-tests and puts its test-pulse outputs at VFIELD (R293). -/
def State.tpUp (s : State) (x : Island) : State := s.modIsle x fun i => { i with tpLevel := if x = .a then 3 else 12 }

/-- FUNCTION_READY. -/
def execFunctionReady (fn : ReadyFn) (s : State) : Answer :=
  .next (
    if s.pwr.held then s
    else
      match fn with
      | .bank b => if s.pwr.dev = .dormant then s else s.bankReady b true
      | .engine e => if s.pwr.dev = .dormant then s else s.engineReady e true
      | .bit b =>
        if s.pwr.dev = .dormant ∧ dormantReady.getLsbD b.val = false then s
        else if b = rdyDistaff then s.distaffUp
        else if b = rdyMailboxes then s.mailboxesUp
        else if b = rdyRecovery then s.enterRecovery
        else if b = rdyCal then s.checkCal
        else if b = rdySafA ∨ b = rdySafB then (if bitReady b s then (s.setReady b true).tpUp (if b = rdySafA then .a else .b) else s)
        else if bitReady b s then s.setReady b true
        else s)

end Sys2Proof.Machine
end

