-- ==== Sys2Proof/Machine/Ports.lean ====
section
/-! DEFINITION. The service ports: USB with MB4 and DFU (R357 to R361), Ethernet with MB5 (R362 to R366). -/

namespace Sys2Proof.Machine

/-! What both ports share. -/

/-- Free request slots of a mailbox. -/
def ringRoom (m : Mailbox) : Nat := 64 - (m.reqPi - m.reqCi).toNat

/-- The hardware places a request slot in a ring and advances req_pi. -/
def State.enterSlot (s : State) (mb : MbId) (w : SlotWord) : State :=
  s.modMb mb fun m => { m with req := m.req.set (Fin.ofNat 64 m.reqPi.toNat) w, reqPi := m.reqPi + 1 }

def State.enterSlots (s : State) (mb : MbId) (ws : List SlotWord) : State := ws.foldl (fun s w => s.enterSlot mb w) s

/-- The response slots not yet collected, oldest first, from the `skip`th on. -/
def uncollected (m : Mailbox) (skip : Nat) : List SlotWord :=
  (List.range (rspLevel m - skip)).map fun i => m.rsp[(Fin.ofNat 64 (m.rspCi.toNat + skip + i))]

/-- The tag and flags of a slot. -/
def slotTag (w : SlotWord) : Fin 32 := Fin.ofNat 32 (fieldU (slotBytes w) 2 1)
def slotFinal (w : SlotWord) : Bool := bit (fieldU (slotBytes w) 3 1) 0
def slotReject (w : SlotWord) : Bool := bit (fieldU (slotBytes w) 3 1) 1

/-- A counter of eight bits that saturates. -/
def sat8 (n : Nat) : Nat := min 255 (n + 1)

/-- A stage transfer acts as STAGE_WRITE (0x4011) under its tag: the checks of R48 in their order, then the write. -/
def State.stageTransfer (s : State) (mb : MbId) (header : BitVec 128) (data : List Byte) : State :=
  let h := bytesOf header
  let tag : Fin 32 := Fin.ofNat 32 (fieldU h 15 1)
  let answer := fun (s : State) (st : Half) (reject : Bool) => s.pushCmpl mb ⟨0x4011, tag, true, reject, false, st, 0, noCycle, [], none⟩
  if s.dist.st ≠ .running then answer s stBusySwitch true
  else if tagHeld s mb tag then answer s stTagInUse true
  else if 32 ≤ fieldU h 15 1 ∨ 0x100000 < fieldU h 12 3 ∨ fieldU h 12 3 ≠ data.length then answer s stBadArg true
  else if !s.isReady rdyBanks then answer s stNotReady true
  else
    let r := putStage (fieldU h 4 4) (fieldU h 8 4) data (s.holdTag mb tag)
    answer r.1 r.2.1 false

/-- The magic of a stage header. -/
def stageMagic (header : BitVec 128) : Bool := fieldU (bytesOf header) 0 4 == 0x47534B53

/-! USB (R357 to R361). -/

/-- Is the port connected to a host? -/
def usbUp (s : State) : Bool := s.usb.speed != 0 && !s.pwr.held && s.pwr.dev != .dormant

/-- Does interface 0 carry MB4 now? In recovery the DFU interface is the only one. -/
def usbBulk (s : State) : Bool := usbUp s && s.usb.configured && !s.usb.dfuOnly && s.isReady rdyMailboxes

/-- The port leaves its configuration. -/
def State.usbDown (s : State) : State := (s.modUsb fun u => { u with configured := false, status := none }).setReady rdyUsb false

/-- USB_VBUS_DETECT. -/
def execUsbVbusDetect (present highSpeed : Bool) (s : State) : Answer :=
  .next (
    if s.pwr.held || s.pwr.dev == .dormant then s
    else if present then s.modUsb fun u => { u with speed := if highSpeed then 2 else 1 }
    else s.usbDown.modUsb fun u => { u with speed := 0 })

/-- USB_SET_CONFIGURATION: completions that wait are offered on the IN endpoint. -/
def execUsbSetConfiguration (s : State) : Answer :=
  .next (
    if !usbUp s then s
    else
      let s := (s.modUsb fun u => { u with configured := true }).setReady rdyUsb true
      if s.usb.dfuOnly then s else (uncollected s.mb[(4 : MbId)] 0).foldl (fun s w => s.emit (.usbIn (slotBytes w))) s)

/-- Any other OUT transfer is discarded and counted. -/
def State.badOut (s : State) : State := s.modUsb fun u => { u with badOut := sat8 u.badOut }

/-- USB_BULK_OUT: the slots that have room enter the ring; the endpoint answers NAK to the rest. -/
def execUsbBulkOut (slots : List SlotWord) (length : Nat) (s : State) : Answer :=
  .next (
    if !usbBulk s then s
    else if length % 64 ≠ 0 ∨ length ≠ 64 * slots.length then s.badOut
    else s.enterSlots 4 (slots.take (ringRoom s.mb[(4 : MbId)])))

/-- USB_STAGE_TRANSFER. -/
def execUsbStageTransfer (header : BitVec 128) (data : List Byte) (s : State) : Answer :=
  .next (if !usbBulk s then s else if stageMagic header then s.stageTransfer 4 header data else s.badOut)

/-- Does a tag stay held after the host has collected a slot: the command still runs, or a later slot ends it? -/
def lateStays (s : State) (tag : Fin 32) : Bool :=
  let m := s.mb[(4 : MbId)]
  let rest := uncollected m 0
  let own := fun (w : SlotWord) => slotTag w == tag && slotFinal w
  m.held.getLsbD tag || (rest.take s.usb.discardable).any own || rest.any (fun w => own w && !slotReject w) ||
    m.pend.any fun c => c.tag == tag && c.final && !c.reject

/-- The oldest response slot of MB4 leaves the ring, collected or discarded, and a tag held for it is freed (R48, R360). -/
def State.dropResponse (s : State) : State :=
  let m := s.mb[(4 : MbId)]
  let w := m.rsp[(Fin.ofNat 64 m.rspCi.toNat)]
  let tag := slotTag w
  let s := (s.modMb 4 fun m => { m with rspCi := m.rspCi + 1 }).modUsb fun u => { u with discardable := u.discardable - 1 }
  let s := if slotFinal w && !lateStays s tag then s.modMb 4 fun m => { m with lateHeld := setBit m.lateHeld tag.val false } else s
  s.mbLevel 4

/-- USB_IN_ACK. -/
def execUsbInAck (s : State) : Answer := .next (if usbBulk s && rspLevel s.mb[(4 : MbId)] != 0 then s.dropResponse else s)

/-- USB_CONTROL_REQUEST: the slot enters the ring and the status stage waits for the command's final completion. -/
def execUsbControlRequest (slot : SlotWord) (s : State) : Answer :=
  .next (
    if !usbBulk s || s.usb.status.isSome || ringRoom s.mb[(4 : MbId)] == 0 then s
    else (s.enterSlot 4 slot).modUsb fun u => { u with status := some (slotTag slot) })

/-- USB_STATUS_STAGE_TIMEOUT: 50 ms have passed. -/
def execUsbStatusStageTimeout (s : State) : Answer :=
  .next (if s.usb.status.isSome then (s.modUsb fun u => { u with status := none }).emit (.usbStatus true) else s)

/-- The tags a bus reset leaves held: those of completions not collected, and those of running commands (R360). -/
def lateTags (s : State) : BitVec 32 :=
  let m := s.mb[(4 : MbId)]
  (uncollected m 0).foldl (fun b w => setBit b (slotTag w).val true) (m.lateHeld ||| m.held)

/-- USB_BUS_RESET: what is unfinished is discarded; the response ring survives. -/
def execUsbBusReset (stage : UsbStage) (s : State) : Answer :=
  .next (
    if !usbUp s then s
    else
      let late := lateTags s
      let n := rspLevel s.mb[(4 : MbId)]
      let s := (s.modMb 4 fun m => { m with lateHeld := late }).usbDown
      s.modUsb fun u => { u with
        resetEvent := true, discardable := n, badSetup := if stage = .setupOrData then sat8 u.badSetup else u.badSetup })

/-- USB_COMPLETION_DISCARD: 10 s have passed for the oldest completion a reset left. -/
def execUsbCompletionDiscard (s : State) : Answer :=
  .next (
    let m := s.mb[(4 : MbId)]
    let tag := slotTag m.rsp[(Fin.ofNat 64 m.rspCi.toNat)]
    if rspLevel m ≠ 0 ∧ (s.usb.discardable ≠ 0 ∨ m.lateHeld.getLsbD tag = true) then s.dropResponse.logEvent 9 0 0 1 else s)

/-! DFU (R361). -/

/-- DFU_DOWNLOAD: block n of an image holds its bytes 4,096 n onward; block 0 begins a new image. -/
def execDfuDownload (image : Bool) (block : Half) (data : List Byte) (s : State) : Answer :=
  .next (
    if !usbUp s || !s.usb.dfuOnly || s.dist.st != .recovery then s
    else
      let off := 4096 * block.toNat
      let bs := data.take 4096
      let s := (s.modRec fun r => { r with fw := modAt r.fw (imgIx image) fun f => { f with
        bytes := putImage off bs (if off = 0 then [] else f.bytes), valid := false, verified := false } }).modUsb fun u => { u with dfuErr := false }
      s.mramWrite (0x200000 * b2n image + off) bs.length)

/-- DFU_MANIFESTATION: a verified image is selected and booted; otherwise errVERIFY. -/
def execDfuManifestation (image : Bool) (sigOk : Bool) (s : State) : Answer :=
  .next (
    if !usbUp s || !s.usb.dfuOnly || s.dist.st != .recovery then s
    else if !sigOk then (s.modUsb fun u => { u with dfuErr := true }).emit (.usbStatus false)
    else
      let s := (s.modRec fun r => { passImage (imgIx image) r with boot := image, restoreDue := true }).mramWrite 0xE10000 1
      let s := (s.modDist fun d => { d with st := .restarting }).usbDown
      (s.modUsb fun u => { u with dfuOnly := false, dfuErr := false }).setReady rdyRecovery false)

/-! Ethernet (R362 to R366). -/

/-- Does the port take frames? A frame wakes the MAC (R35). -/
def ethUp (s : State) : Bool := s.eth.link && !s.pwr.held && s.pwr.dev != .dormant

/-- ETH_LINK_CHANGE. -/
def execEthLinkChange (up : Bool) (speed : BitVec 2) (s : State) : Answer :=
  .next (
    if s.pwr.held || s.pwr.dev == .dormant then s
    else
      let s := s.modEth fun e => { e with link := up, speed := speed }
      s.setReady rdyEth (up && s.eth.address.isSome && s.eth.key.isSome && s.isReady rdyMailboxes))

/-- ETH_ARP_ICMP: the reply, from the request and the module serial the MAC address is made of. -/
def execEthArpIcmp (icmp : Bool) (request : List Byte) (s : State) : Answer :=
  .next (
    match s.eth.address with
    | none => s
    | some a =>
      if !ethUp s then s
      else (s.wakeFn 0x0700).emit (.eth (Config.layout (if icmp then 0x0800 else 0x0806) (s.id.serial.toNat % 2 ^ 40 :: a.toNat :: request.map (·.toNat)))))

/-- ETH_HELLO: the challenge carries the device nonce and a new session identifier, both drawn by the device. -/
def execEthHello (hostNonce deviceNonce : BitVec 128) (session : Word) (s : State) : Answer :=
  .next (
    if !ethUp s || !s.isReady rdyEth then s
    else
      let s := (s.wakeFn 0x0700).modEth fun e => { e with challenge := some (hostNonce, deviceNonce, session) }
      s.emit (.eth (dgHead 2 0 session.toNat 0 ++ bytesOf deviceNonce)))

/-- "OPEN" in ASCII. -/
def openText : List Byte := [0x4F, 0x50, 0x45, 0x4E]

/-- Response slots in datagrams of up to sixteen. -/
def State.sendInParts : Nat → State → List SlotWord → State
  | 0, s, _ => s
  | n + 1, s, ws => if ws.isEmpty then s else sendInParts n (s.sendResponses (ws.take 16)) (ws.drop 16)

/-- Every completion not acknowledged, in new datagrams. -/
def State.resendAll (s : State) : State :=
  State.sendInParts 4 (s.modEth fun e => { e with unacked := [] }) (uncollected s.mb[(5 : MbId)] 0)

/-- ETH_OPEN: a correct proof opens a session, which replaces one that runs; a wrong one is answered by close. -/
def execEthOpen (proof : Rec32) (s : State) : Answer :=
  .next (
    match s.eth.challenge, s.eth.key with
    | some (hn, dn, sid), some k =>
      if !ethUp s || !s.isReady rdyEth then s
      else
        let s := s.wakeFn 0x0700
        let tail := bytesOf hn ++ bytesOf dn ++ leBytes 4 sid.toNat
        let key : BitVec 256 := recOf (hmac (bytesOf k) tail)
        if recBytes32 proof = hmac (bytesOf k) (openText ++ tail) then
          (s.modEth fun e => { e with challenge := none, session := some sid, sessionKey := key, rxSeq := 0, txSeq := 1, unacked := [] }).resendAll
        else
          let body := dgHead 6 0 sid.toNat 0 ++ leBytes 2 stAuthFail.toNat
          (s.modEth fun e => { e with macFail := sat8 e.macFail, challenge := none }).emit (.eth (body ++ hmac (bytesOf key) body))
    | _, _ => s)

/-- The bytes of a datagram before its mac. -/
def dgBody (type_ : Nat) (dg : Datagram) (payload : List Byte) : List Byte :=
  dgHead type_ dg.ack.toNat dg.session.toNat dg.seq.toNat ++ payload

/-- Does an acknowledgement cover a seq, by its low 16 bits? -/
def ackCovers (ack : Half) (seq : Word) : Bool := decide ((ack - seq.truncate 16).toNat < 0x8000)

/-- The acknowledged completions leave MB5's ring. -/
def State.takeAck (s : State) (ack : Half) : State :=
  let got := s.eth.unacked.takeWhile fun x => ackCovers ack x.1
  let n := (got.map (·.2)).sum
  ((s.modEth fun e => { e with unacked := e.unacked.drop got.length }).modMb 5 fun m => { m with rspCi := m.rspCi + BitVec.ofNat 7 n }).mbLevel 5

/-- Check a datagram of the session (R366): a wrong mac or seq drops it and counts. -/
def dgAccept (type_ : Nat) (dg : Datagram) (payload : List Byte) (s : State) : State × Bool :=
  let s := s.wakeFn 0x0700
  if s.eth.session ≠ some dg.session ∨ recBytes32 dg.mac ≠ hmac (bytesOf s.eth.sessionKey) (dgBody type_ dg payload) then
    (s.modEth fun e => { e with macFail := sat8 e.macFail }, false)
  else if dg.seq ≠ s.eth.rxSeq + 1 then (s.modEth fun e => { e with seqDrop := sat8 e.seqDrop }, false)
  else (s, true)

/-- ETH_REQUEST_DATAGRAM: one to sixteen slots; a datagram for whose slots the ring has no room is dropped unaccepted. -/
def execEthRequestDatagram (dg : Datagram) (slots : List SlotWord) (s : State) : Answer :=
  .next (
    if !ethUp s || !s.isReady rdyEth || slots.isEmpty || decide (16 < slots.length) then s
    else
      match dgAccept 4 dg (slots.flatMap slotBytes) s with
      | (s, false) => s
      | (s, true) =>
        if ringRoom s.mb[(5 : MbId)] < slots.length then s
        else ((s.modEth fun e => { e with rxSeq := dg.seq }).takeAck dg.ack).enterSlots 5 slots)

/-- ETH_STAGE_DATAGRAM: up to 1,360 bytes. -/
def execEthStageDatagram (dg : Datagram) (header : BitVec 128) (data : List Byte) (s : State) : Answer :=
  .next (
    if !ethUp s || !s.isReady rdyEth || decide (1360 < data.length) || !stageMagic header then s
    else
      match dgAccept 7 dg (bytesOf header ++ data) s with
      | (s, false) => s
      | (s, true) => (s.modEth fun e => { e with rxSeq := dg.seq }).stageTransfer 5 header data)

/-- The session ends; commands keep their tags and completions stay in the ring. -/
def State.endSession (s : State) : State := s.modEth fun e => { e with session := none, unacked := [] }

/-- ETH_CLOSE. -/
def execEthClose (dg : Datagram) (status : Half) (s : State) : Answer :=
  .next (
    if !ethUp s || !s.isReady rdyEth then s
    else
      match dgAccept 6 dg (leBytes 2 status.toNat) s with
      | (s, false) => s
      | (s, true) => s.endSession)

/-- ETH_SESSION_IDLE_TIMEOUT: 60 s without a datagram. -/
def execEthSessionIdleTimeout (s : State) : Answer := .next s.endSession

/-- ETH_COMPLETION_RESEND: 20 ms without an ack. -/
def execEthCompletionResend (s : State) : Answer :=
  .next (if ethUp s && s.eth.session.isSome && !s.eth.unacked.isEmpty then s.resendAll else s)

end Sys2Proof.Machine
end

