-- ==== Sys2Proof/Machine/Sets.lean ====
section
/-! DEFINITION. C-class sets (R20, R67 to R69): the state conditions of each command, its effect at a cycle start, the
armed view that judges it, and the way from its copy to its arming. -/

namespace Sys2Proof.Machine

/-- The bytes of a command's descriptor, read before its set is staged. -/
def setBytes (i : Instr) : List Byte := ((descOf i).map Desc.bytes).getD []

/-- STOP_NOW, REG_TRIM and the like have no state condition. -/
def always : Half := stOk

/-- The state conditions of a set in a state. -/
def checkSet (i : Instr) (s : State) : Half :=
  let bs := setBytes i
  match i with
  | .strandBind _ st kind target fb => checkBind (strandIx st) (bindingOf kind target) (fbArg fb) s
  | .strandConfig _ st dS _ kP dP _ _ => checkConfig (strandIx st) dS kP dP s
  | .plyCoeff _ st ply _ => checkCoeff (strandIx st) ply.toNat bs s
  | .strandArm _ st => checkArm (strandIx st) s
  | .strandEnable _ st => checkEnable (strandIx st) s
  | .strandDisable _ st => allowIf (s.strands[strandIx st].within [.run, .hold])
  | .stop _ st _ _ => allowIf (s.strands[strandIx st].within [.run, .hold, .stopping])
  | .faultReset _ st => checkFaultReset (strandIx st) s
  | .setTransfer _ st _ _ => checkTransfer (strandIx st) s
  | .setSource _ st source index ratio offset => checkSource (strandIx st) (sourceOf source index ratio offset) s
  | .strandHold _ st _ => allowIf (s.strands[strandIx st].within [.run, .hold])
  | .profileSet _ st _ => allowIf (s.strands[strandIx st].within coeffStates)
  | .moveAbs _ st _ => checkMove (strandIx st) s
  | .moveRel _ st _ => checkMove (strandIx st) s
  | .jog _ st _ => checkMove (strandIx st) s
  | .groupDefine _ _ _ members => checkGroup members s
  | .pathStart _ g => checkPathStart g s
  | .camSwap _ table => checkCamSwap table s
  | .skeinDefine _ k master coupling _ => checkSkeinDefine k master coupling bs s
  | .skeinEngage _ k st _ => checkEngage k st s
  | .skeinDisengage _ k st _ => checkDisengage k st s
  | .quadConfig _ q mix carrier period dbl phase => checkQuadConfig (quadIx q) mix carrier period dbl phase s
  | .deadtimeSet _ q p _ => checkDeadtime (quadIx q) (pairArg p) s
  | .sdfConfig _ q fMod osr3 osr2 => checkSdf (quadIx q) fMod osr3 osr2 s
  | .tripConfig _ q _ _ _ => checkTrip (quadIx q) s
  | .auxCurve _ st hysteresis _ => checkAuxCurve st hysteresis bs s
  | .auxCommand _ st speed => checkAuxCommand st speed s
  | .stepperConfig _ slot _ _ _ => checkStepperConfig slot s
  | .microstepTable _ q _ => checkMicrostep (quadIx q) bs s
  | .enlargerSet _ st _ _ _ => checkEnlarger st s
  | .stepgenConfig _ g _ _ => checkStepgen (stgIx g) s
  | .tableStep _ st _ _ => checkTableStep st s
  | .fbConfig _ u _ _ _ _ => checkFbConfig (fbIx u) s
  | .compareLoad _ _ source width _ => checkCompare source width bs
  | .flyerAssign _ e p => checkAssign e p s
  | .engineRetire _ e => checkRetire e s
  | .domainLeave _ => checkLeave s
  | .setCycle _ t => checkSetCycle t s
  | .hostSubscribe _ _ => checkSubs bs s
  | _ => always

/-- What a set does at its cycle start. -/
def applySet (i : Instr) (s : State) : State :=
  let bs := setBytes i
  match i with
  | .strandBind _ st kind target fb => applyBind (strandIx st) (bindingOf kind target) (fbArg fb) s
  | .strandConfig _ st dS phase kP dP reaction limit => applyConfig (strandIx st) dS phase kP dP reaction limit s
  | .plyCoeff _ st ply _ => applyCoeff (strandIx st) ply.toNat bs s
  | .strandArm _ st => applyArm (strandIx st) s
  | .strandEnable _ st => applyEnable (strandIx st) s
  | .strandDisable _ st => applyDisable (strandIx st) s
  | .stop _ st kind decel => applyStop (strandIx st) (kind == 1) decel.toNat s
  | .stopNow _ st => applyStopNow st s
  | .faultReset _ st => applyFaultReset (strandIx st) s
  | .setTransfer _ st mode output => applyTransfer (strandIx st) (mode == 1) output s
  | .setSource _ st source index ratio offset => applySource (strandIx st) (sourceOf source index ratio offset) s
  | .strandHold _ st release => applyHold (strandIx st) (release == 1) s
  | .profileSet _ st p => applyProfile (strandIx st) p s
  | .moveAbs _ st target => applyMove (strandIx st) (.abs target.toInt) i s
  | .moveRel _ st distance => applyMove (strandIx st) (.rel distance.toInt) i s
  | .jog _ st velocity => applyMove (strandIx st) (.jog velocity.toInt) i s
  | .groupDefine _ g _ members => applyGroup (groupIx g) members s
  | .pathStart _ g => applyPathStart g s
  | .pathStop _ g decel => applyPathStop g decel s
  | .camSwap _ table => applyCamSwap table s
  | .skeinDefine _ k master coupling _ => applySkeinDefine k master coupling bs s
  | .skeinEngage _ k st ramp => applyEngage k st ramp s
  | .skeinDisengage _ _ st decel => applyDisengage st decel s
  | .regTrim _ k probe gain limit ramp => applyRegTrim k probe gain limit ramp s
  | .routeEpoch _ => s.dropMapCaches
  | .setHoldCycles _ st hold => applyHoldCycles st hold s
  | .quadConfig _ q mix carrier period dbl phase => applyQuadConfig (quadIx q) mix carrier period dbl phase s
  | .deadtimeSet _ q p dead => applyDeadtime (quadIx q) (pairArg p) dead s
  | .sdfConfig _ q fMod osr3 osr2 => applySdf (quadIx q) fMod osr3 osr2 s
  | .tripConfig _ q input limit gf => applyTrip (quadIx q) input limit gf s
  | .auxCurve _ st hysteresis _ => applyAuxCurve st hysteresis bs s
  | .auxCommand _ st speed => applyAuxCommand st speed s
  | .stepperConfig _ slot offTime split current => applyStepperConfig slot offTime split current s
  | .microstepTable _ q _ => applyMicrostep (quadIx q) bs s
  | .enlargerSet _ st fb num den => applyEnlarger st fb num den s
  | .stepgenConfig _ g width dirSetup => applyStepgen (stgIx g) width dirSetup s
  | .tableStep _ st address scale => applyTableStep st address scale s
  | .fbConfig _ u mode filter nbits bandwidth => applyFbConfig (fbIx u) (fbCfgOf mode filter nbits bandwidth) s
  | .probeArm _ p edge mode _ mask => applyProbeArm (probeIx p) edge mode mask s
  | .compareLoad _ u source width _ => applyCompare (cmpIx u) source width bs s
  | .flyerAssign _ e p => applyAssign e p s
  | .engineRetire _ e => applyRetire e s
  | .domainLeave _ => applyLeave s
  | .setCycle _ t => applySetCycle t i s
  | .publishDefine _ index source kind => applyPublish index source kind s
  | .hostSubscribe _ _ => applySubs bs s
  | _ => s

/-- A set in a view: it acts where its conditions hold. -/
def viewSet (s : State) (i : Instr) : State := if checkSet i s = stOk then applySet i s else s

/-- The armed view (R68): every set accepted before, as if it had acted. -/
def armedView (s : State) : State := (s.dist.orphan ++ s.dist.armed ++ s.dist.staged).foldl viewSet s

/-- The command with the data of its descriptor, or the status it ends with (R64, R65). -/
def fetchData (i : Instr) (s : State) : Except (Half × List Byte) Instr :=
  match descOf i with
  | none => .ok i
  | some d => (readDesc s d).map fun bs => withDesc { d with data := some bs } i

/-- Run a C-class command (R20, R67, R68): its data is read, its conditions are judged against the armed view, and its set is
staged; its completion comes with the cycle it takes effect in. -/
def runCyclic (i : Instr) (o : Origin) (s : State) : State :=
  match claim i o s with
  | .idle => s
  | .answered s' => s'
  | .runs s' =>
    if originRefuses o.mb ((opcodeOf i).getD 0).toNat then s'.finish i o stRefused []
    else
      match fetchData i s' with
      | .error (st, res) => s'.finish i o st res
      | .ok j =>
        let st := checkSet j (armedView s')
        if st = stOk then s'.modDist fun d => { d with staged := d.staged ++ [j] } else s'.finish j o st []

/-- C_SET_ARM: the distaff arms the oldest staged set. -/
def execCSetArm (s : State) : Answer :=
  .next (
    match s.dist.staged with
    | [] => s
    | i :: r => if s.dist.st = .running then s.modDist fun d => { d with staged := r, armed := d.armed ++ [i] } else s)

/-- Does a command end only at a later cycle than its set's: a move that waits for the end of a ramp (R101), and SET_CYCLE? -/
def endsLater (i : Instr) (s : State) : Bool :=
  match i with
  | .moveAbs _ st _ => decide ((s.strands[strandIx st].deferred.map (·.2)) = some i)
  | .moveRel _ st _ => decide ((s.strands[strandIx st].deferred.map (·.2)) = some i)
  | .jog _ st _ => decide ((s.strands[strandIx st].deferred.map (·.2)) = some i)
  | .setCycle _ _ => true
  | _ => false

/-- What a set that is dropped takes with it: the records queued for a group it would have defined (R68, R69). -/
def dropSet (i : Instr) (s : State) : State :=
  match i with
  | .groupDefine _ g _ _ => s.modGroup (groupIx g) fun x => { x with next := [] }
  | _ => s

/-- One armed set at a cycle start (R69): checked again, applied or dropped whole, and completed. -/
def State.takeSet (s : State) (i : Instr) : State :=
  match originOf i with
  | none => s
  | some o =>
    if checkSet i s = stOk then
      let s := applySet i s
      if endsLater i s then s else s.finishAt i o stOk s.seq.cycle
    else (dropSet i s).finishAt i o stRefused noCycle

/-- Is a command STOP_NOW? -/
def isStopNow : Instr → Bool
  | .stopNow .. => true
  | _ => false

/-- Every armed set with what has happened to the strands `upd` that update in this cycle: SAFE and causes of category 0 first,
then STOP_NOW, then the other causes, then the other commands in arming order (R69, R93, log entry 163). -/
def State.takeSets (upd : List StrandId) (s : State) : State :=
  let sets := s.dist.orphan ++ s.dist.armed
  let s := upd.foldl State.graveEvents (s.modDist fun d => { d with orphan := [], armed := [] })
  let s := upd.foldl State.otherEvents ((sets.filter isStopNow).foldl State.takeSet s)
  (sets.filter fun c => !isStopNow c).foldl State.takeSet s

end Sys2Proof.Machine
end

