-- ==== Sys2Proof/Machine/Armed.lean ====
section
/-! DEFINITION. The S- and L-class commands whose state conditions name strands: like every command's they are judged on the
armed view (R68, R72). -/

namespace Sys2Proof.Machine

/-- SYSTEM_RESET is refused while a strand is in RUN, HOLD or STOPPING. -/
def execSystemReset (o : Origin) (flags : Byte) (s : State) : Answer :=
  .next (runShort (.systemReset o flags) o (fun s =>
    if anyMoving (armedView s) then refuse s stRefused else (s.modPwr fun p => { p with coldAsked := true }, stOk, [])) s)

/-- SET_DEVICE_STATE (R36, R37). -/
def runDeviceState (o : Origin) (state : Byte) (s : State) : CmdResult :=
  if state != 0 && anyMoving (armedView s) then refuse s stRefused
  else if state = 0 then ((s.modPwr fun p => { p with dev := .run }).wakeAll, stOk, [])
  else if state = 1 then
    (allFunctions.foldl (fun s f => s.enterPwr f (standbyState f)) (s.modPwr fun p => { p with dev := .standby }), stOk, [])
  else (s.goDormant o, stOk, [])

def execSetDeviceState (o : Origin) (state : Byte) (s : State) : Answer :=
  .next (runShort (.setDeviceState o state) o (runDeviceState o state) s)

/-- SAFETY_WRITE (R309): its steps are in Safety.lean. -/
def execSafetyWrite (o : Origin) (password : Rec32) (desc : Desc) (s : State) : Answer :=
  .next (runLong (.safetyWrite o password desc) o (fun s => allowIf (!anyMoving (armedView s))) s)

/-- SELF_TEST: its steps are in Long.lean. -/
def execSelfTest (o : Origin) (function : Half) (level : Byte) (s : State) : Answer :=
  .next (runLong (.selfTest o function level) o (fun s => checkSelfTest function (armedView s)) s)

/-- CAN_CONFIG (R344). -/
def runCanConfig (ctl : Byte) (bs : List Byte) (s : State) : CmdResult :=
  let c := canIx ctl
  match canCfg? bs with
  | none => refuse s stBadArg
  | some g =>
    if busOn s.cans[c] || canAreaTaken s c g.base || canBound (armedView s) c then refuse s stRefused
    else (s.configCan c g, stOk, [])

def execCanConfig (o : Origin) (ctl : Byte) (desc : Desc) (s : State) : Answer :=
  .next (runShortIn (.canConfig o ctl desc) o desc (runCanConfig ctl) s)

/-! PATH_QUEUE (R105). -/

/-- Does a set that waits define the group anew? -/
def definesGroup (k : Fin 32) : Instr → Bool
  | .groupDefine _ g _ _ => groupIx g == k
  | _ => false

/-- PATH_QUEUE: the records, the free entries, then the append; a group with no members takes none. Records for a group
that an armed GROUP_DEFINE defines wait for it. -/
def runPathQueue (group : Byte) (bs : List Byte) (s : State) : CmdResult :=
  let k := groupIx group
  let view := armedView s
  let g := view.groups[k]
  if g.members.isEmpty then refuse s stRefused
  else
    match pathRecs? g.members.length (bs.length / 96) bs with
    | none => refuse s stBadArg
    | some rs =>
      if !arcsOk (pathEnd view g) rs then refuse s stBadArg
      else if 1024 < g.queue.length + rs.length then refuse s stRefused
      else
        (s.modGroup k fun x =>
          if (s.dist.orphan ++ s.dist.armed ++ s.dist.staged).any (definesGroup k) then { x with next := x.next ++ rs } else appendRecs rs x,
          stOk, leBytes 4 (1024 - (g.queue.length + rs.length)))

def execPathQueue (o : Origin) (group : Byte) (desc : Desc) (s : State) : Answer :=
  .next (runShortIn (.pathQueue o group desc) o desc (runPathQueue group) s)

end Sys2Proof.Machine
end

