-- ==== Sys2Proof/Machine/Drive.lean ====
section
/-! DEFINITION. Reads and other S-class commands of the drive (R72), and the events of the power stage (R132 to R151),
of steppers and step generators (R157 to R162), of feedback units, probes and compare units (R170 to R186), and of
a strand's stops and faults (R86 to R92, R125, R147 to R150, R166). -/

namespace Sys2Proof.Machine

/-- Are the cyclic blocks powered and out of reset? -/
def coreUp (s : State) : Bool := !s.pwr.held && s.pwr.dev != .dormant

/-! S-class commands of the drive. -/

/-- The code of a state (R94). -/
def stNum : StrandSt → Nat
  | .off => 0
  | .ready => 1
  | .run => 2
  | .hold => 3
  | .stopping => 4
  | .fault => 5
  | .safe => 6

/-- The kind and target of a binding as STRAND_BIND numbers them (R76). -/
def bindNums : Binding → List Nat
  | .unbound => [0xFF, 0]
  | .virt => [0, 0]
  | .servo q k => [1, 4 * q.val + k.val]
  | .stepper q p => [1, 256 + 8 * q.val + p.val]
  | .stepgen g => [2, g.val]
  | .can c n => [3, 256 * c.val + n]

/-- The result of STRAND_READ: state, fault word, binding and rates in bytes 39:0 (log entry 6), then the skein status. -/
def strandBytes (s : State) (i : StrandId) : List Byte :=
  let x := s.strands[i]
  slice (Config.layout 0x100D ([stNum x.st, x.fault.toNat] ++ bindNums x.cfg.binding ++
    [(x.cfg.fb.map (·.val)).getD 0xFF, x.cfg.dS, x.cfg.phase, x.cfg.kP, x.cfg.dP])) 0 40 ++ skeinStatus (s.key i) s i

/-- STRAND_READ: reg_limit and reg_miss of the strand's skein clear (R129). -/
def runStrandRead (strand : Half) (s : State) : CmdResult :=
  let i := strandIx strand
  let t := match s.strands[i].engage with
    | some e => s.modSkein e.skein fun k => { k with regLimitFlag := false, regMiss := false }
    | none => s
  (t.tick, stOk, strandBytes s i)

def execStrandRead (o : Origin) (strand : Half) (s : State) : Answer :=
  .next (runShort (.strandRead o strand) o (runStrandRead strand) s)

def execCamEdit (o : Origin) (table : Half) (first : Word) (desc : Desc) (s : State) : Answer :=
  .next (
    let i : Instr := .camEdit o table first desc
    match claim i o s with
    | .idle => s
    | .answered s' => s'
    | .runs s' =>
      if originRefuses o.mb ((opcodeOf i).getD 0).toNat then s'.finish i o stRefused []
      else
        match readDesc s' desc with
        | .error (st, res) => s'.finish i o st res
        | .ok bs => runCamEdit i o table first bs s')

def execPubmapWrite (o : Origin) (endpoint index : Word) (s : State) : Answer :=
  .next (runShort (.pubmapWrite o endpoint index) o (runPubmap endpoint index) s)

def execFbRead (o : Origin) (unit : Byte) (s : State) : Answer :=
  .next (runShort (.fbRead o unit) o (fun s => (if unit.toNat < 48 then s.wakeFn (fbFn (fbIx unit)) else s, stOk, fbReadBytes s unit)) s)

def execFlyerDebug (o : Origin) (engine action : Byte) (s : State) : Answer :=
  .next (runShort (.flyerDebug o engine action) o (runDebug engine action) s)

/-! The power stage (R132 to R145). -/

/-- PWM_BOUNDARY: the shadows of R134 apply; a valley or wrap starts the conversions that wait for it (R337). -/
def execPwmBoundary (quad : QuadId) (peak : Bool) (s : State) : Answer :=
  .next (
    if !coreUp s || !quadEnabled s quad then s
    else
      let runs := s.quads[quad].cfg.run && !s.quads[quad].frozen
      let s := s.modQuad quad (pwmBoundary peak)
      if runs && !peak then s.modFio (convBoundary quad) else s)

/-- SAMPLE_READY: the bound units latch at the sample instant, and the comb is evaluated once for each update boundary, over the last 3 × OSR bits of each data line. -/
def execSampleReady (quad : QuadId) (at_ : SampleInstant) (data : List (List Bool)) (s : State) : Answer :=
  .next (
    let c := s.quads[quad].cfg
    if !coreUp s || !quadEnabled s quad || !c.run || !c.clkEn || (at_.peak && (!c.dbl || c.saw)) then s else s.quadReady quad at_ data)

/-- OVERCURRENT_TRIP: a new sinc2 value, from the last 2 × OSR₂ bits of the input's data line (R142). -/
def execOvercurrentTrip (quad : QuadId) (input : PairId) (data : List Bool) (s : State) : Answer :=
  .next (if coreUp s then s.fastValue quad input (fastOf s.quads[quad].cfg data) else s)

def execSddStuck (quad : QuadId) (input : PairId) (stuck : Bool) (s : State) : Answer :=
  .next (if coreUp s then s.stuckInput quad input stuck else s)

def execGateFaultInput (quad : QuadId) (g : SlotId) (level : Bool) (s : State) : Answer :=
  .next (if coreUp s then s.gatePin quad g level else s)

def execPwmForceWrite (quad : QuadId) (value : Word) (s : State) : Answer :=
  .next (if coreUp s then s.modQuad quad (writeForce value) else s)

def execPwmForcePairWrite (quad : QuadId) (value : Word) (s : State) : Answer :=
  .next (if coreUp s then s.modQuad quad (writeForcePair value) else s)

def execPwmTripClear (quad : QuadId) (value : Word) (s : State) : Answer :=
  .next (if coreUp s then s.writeTrip quad value else s)

/-! Choppers (R157, R158). -/

/-- A chopper event on the winding of a pair. -/
def modWinding (p : PairId) (f : Nat → Winding → Winding) (x : Quad) : Quad :=
  { x with windings := modAt x.windings p (f (splitOf x p)) }

/-- Has the winding's current reached its reference: sign(ref) × sinc2 ≥ |ref| (R158)? -/
def driveOver (x : Quad) (p : PairId) : Bool :=
  let r := x.windings[p].ref
  decide (|r| ≤ r.sign * x.fast[p].toInt)

def execChopperDriveEnd (quad : QuadId) (pair : PairId) (s : State) : Answer :=
  .next (if coreUp s && driveOver s.quads[quad] pair then s.modQuad quad (modWinding pair chopDriveEnd) else s)

def execChopperFastDecayEnd (quad : QuadId) (pair : PairId) (s : State) : Answer :=
  .next (if coreUp s then s.modQuad quad (modWinding pair chopFastEnd) else s)

def execChopperOffTimeEnd (quad : QuadId) (pair : PairId) (s : State) : Answer :=
  .next (if coreUp s then s.modQuad quad (modWinding pair chopOffEnd) else s)

/-- Has a stepper strand's reference velocity been 0 for hold_delay? -/
def holdDue (x : Strand) : Bool :=
  match x.cfg.step with
  | some b => isStepper x.cfg.binding && x.moving && b.holdFrac != 0 && x.refVel == 0 && decide (b.holdDelay * 1000000 ≤ x.stillNs)
  | none => false

/-- STEPPER_HOLD_CURRENT: the references are scaled by hold_frac. -/
def execStepperHoldCurrent (strand : StrandId) (s : State) : Answer :=
  .next (
    if holdDue s.strands[strand] then ((s.modStrand strand fun x => { x with holdCur := true }).windings strand).tick else s)

/-! Step generators and the enlarger (R160 to R162). -/

/-- STEP_EMIT: the step of the entry the timer runs on, with the level of STGnn_DIR. -/
def execStepEmit (stg : StgId) (s : State) : Answer :=
  .next (
    match s.stgs[stg].current with
    | none => s
    | some e => (s.modStg stg emitStep).emit (.stepPulse stg (e.dir != s.stgs[stg].cfg.dirPol)))

def execStgPushWrite (stg : StgId) (value : Word) (s : State) : Answer :=
  .next (if coreUp s then s.modStg stg (pushStep (stgEntryOf value.toNat)) else s)

/-- ENLARGER_TIMEOUT: no step within twice the last interval; the remaining distance completes at the rate that stands, so
nothing changes. -/
def execEnlargerTimeout (_strand : StrandId) (s : State) : Answer := .next s

/-! Feedback units (R170 to R177, R185). -/

/-- The steps a unit's count took between two states, for enlargers, and the level change of its A line, for duty inputs. -/
def State.afterEdge (s t : State) (u : FbId) : State :=
  (t.enlargeAll u (toSigned 32 (wrapNat 32 ((t.fbs[u].count.toNat : Int) - s.fbs[u].count.toNat)))).dutyAll u s.fbs[u].a t.fbs[u].a

def execQuadratureEdge (unit : FbId) (a b : Bool) (samples : Nat) (s : State) : Answer :=
  .next (
    if !coreUp s || s.fbs[unit].cfg.mode != 1 then s
    else s.afterEdge (s.lineEvent unit samples (fun u => lineBits a b (u.hall.getLsbD 2)) (quadEdge · a b)) unit)

def execHallCodeChange (unit : FbId) (code : BitVec 3) (samples : Nat) (s : State) : Answer :=
  .next (
    if !coreUp s || s.fbs[unit].cfg.mode != 2 then s
    else s.afterEdge (s.lineEvent unit samples (fun _ => code) fun t u => hallChange t code { u with a := code.getLsbD 0, b := code.getLsbD 1 }) unit)

def execPulseEdge (unit : FbId) (a b : Bool) (samples : Nat) (s : State) : Answer :=
  .next (
    let m := s.fbs[unit].cfg.mode
    if !coreUp s || m == 1 || m == 2 then s
    else if m == 5 || m == 6 then s.afterEdge (s.lineEvent unit samples (fun u => lineBits a b (u.hall.getLsbD 2)) fun t u => (pulseEdge t a b u, false)) unit
    else s.afterEdge (s.lineEvent unit samples (fun u => lineBits a b (u.hall.getLsbD 2)) fun _ u => ({ u with a := a, b := b }, false)) unit)

/-- SERIAL_FRAME_START: p̂ is latched for the word to come (R174, R178). -/
def execSerialFrameStart (unit : FbId) (samples : Nat) (s : State) : Answer :=
  .next (
    if !coreUp s then s
    else
      let t := s.fbEvent unit samples fun _ u => (u, false)
      if frameMayStart (s.tNs / 5) t.fbs[unit] then
        (t.modFb unit fun u => { u with frameOpen := true, frameAt := u.clock, latchP := u.pHat }).emit (.serialClock unit)
      else t)

def execSerialFrameEnd (unit : FbId) (word : BitVec 40) (check : SerialCheck) (samples : Nat) (s : State) : Answer :=
  .next (if !coreUp s || !s.fbs[unit].frameOpen then s else s.fbEvent unit samples (frameEnd (s.key unit) (Config.encoderTimeout unit) · word check))

def execSerialFrameTimeout (unit : FbId) (samples : Nat) (s : State) : Answer :=
  .next (if !coreUp s || !s.fbs[unit].frameOpen then s else s.fbEvent unit samples (frameTimeout (Config.encoderTimeout unit)))

def execCountExtension (unit : FbId) (s : State) : Answer := .next (if coreUp s then s.modFb unit extend else s)

/-- INDEX_EDGE: an accepted rising edge of the C line in quadrature mode. -/
def execIndexEdge (unit : FbId) (s : State) : Answer :=
  .next (
    if !coreUp s || s.fbs[unit].cfg.mode != 1 then s
    else s.modFb unit fun u => flag 9 { u with index := u.count })

/-! Probes and compare units (R180 to R183). -/

def execProbeEdge (probe : ProbeId) (falling : Bool) (stamp : BitVec 64) (s : State) : Answer :=
  .next (if coreUp s then s.probeEdge probe falling (if sinceStart s stamp < s.tNs then stamp else s.time.dev) else s)

/-- COMPARE_FIRE: the source unit goes on by `samples`, and the compare unit sees its p_i in each of them. -/
def execCompareFire (unit : CmpId) (samples : Nat) (s : State) : Answer :=
  .next (
    if !coreUp s then s
    else
      let s := s.runFb (cmpSource s.cmps[unit]) samples
      s.compareOn unit s.fbs[cmpSource s.cmps[unit]])

def execComparePulseEnd (unit : CmpId) (s : State) : Answer :=
  .next (if s.cmps[unit].out then (s.modCmp unit fun c => { c with out := false }).emit (.comparePulse unit false) else s)

/-! Stops and causes (R86, R91, R92). -/

/-- STANDSTILL: the end of the stop takes place at the strand's next update (R90). -/
def execStandstill (strand : StrandId) (s : State) : Answer :=
  .next (
    if coreUp s && s.strands[strand].stop.isSome && s.strands[strand].atStandstill then
      s.modStrand strand fun x => { x with restDue := true }
    else s)

/-- Has a stop run 100 ms past its planned time, in ticks of 250 ns, without standstill? -/
def stopLate (x : Strand) : Bool :=
  match x.stop with
  | some r => decide (r.planned + 400000 < r.plan.t) && !x.atStandstill
  | none => false

def execStopTimeout (strand : StrandId) (s : State) : Answer :=
  .next (if coreUp s && stopLate s.strands[strand] then s.raiseCause strand causeStopTimeout else s)

/-- Has |ferr| exceeded ferr_limit in ferr_time consecutive updates? -/
def ferrDue (x : Strand) : Bool :=
  match x.cfg.pos with
  | some b => b.ferrLimit != 0 && x.ply.ferrCount != 0 && decide (b.ferrTime ≤ x.ply.ferrCount)
  | none => false

def execFollowingError (strand : StrandId) (s : State) : Answer :=
  .next (if coreUp s && ferrDue s.strands[strand] then s.raiseCause strand causeFollowing else s)

/-- The overrun limit of a strand (R17). -/
def overrunLimitOf (s : State) (x : Strand) : Nat := if x.cfg.overrunLimit = 0 then s.seq.overrun.toNat else x.cfg.overrunLimit

def execCycleOverrun (strand : StrandId) (s : State) : Answer :=
  .next (
    let x := s.strands[strand]
    if coreUp s && x.skipped != 0 && decide (overrunLimitOf s x ≤ x.skipped) then s.raiseCause strand causeOverrun else s)

/-- Has the master been missing beyond hold_cycles? -/
def pubGone (x : Strand) : Bool :=
  match x.engage with
  | some e => decide (x.cfg.holdCycles < e.missing)
  | none => false

def execPubMissing (strand : StrandId) (s : State) : Answer :=
  .next (if coreUp s && pubGone s.strands[strand] then s.raiseCause strand causePubMissing else s)

/-- Has the deviation exceeded the window for stall_time consecutive updates? -/
def stallDue (x : Strand) : Bool :=
  match x.cfg.step with
  | some b => b.window != 0 && x.ply.stallTime != 0 && decide (b.stallTime ≤ x.ply.stallTime)
  | none => false

def execStall (strand : StrandId) (s : State) : Answer :=
  .next (if coreUp s && stallDue s.strands[strand] then s.raiseCause strand causeStall else s)

def execCurrentSum (strand : StrandId) (s : State) : Answer :=
  .next (if coreUp s && decide (3 ≤ s.strands[strand].ply.sumCount) then s.raiseCause strand causeCurrentSum else s)

/-! Auxiliary strands (R147 to R150). -/

/-- Is the loop lost: one of R150's conditions has held for los_time, or the handover speed is reached and the estimate lies
more than 25 % away (R148)? -/
def auxLost (x : Strand) : Bool :=
  match x.cfg.aux with
  | none => false
  | some c =>
    x.isAux && x.moving &&
      match x.aux.phase with
      | .closed => x.aux.los.any fun t => decide (t ≠ 0) && decide (c.losTime * 1000000 ≤ t)
      | .openUp => decide (x.aux.speed = (c.handover : Rat)) && decide (x.aux.speed / 4 < |x.aux.along - x.aux.speed|)
      | _ => false

def execAuxSyncLoss (strand : StrandId) (s : State) : Answer :=
  .next (if coreUp s && auxLost s.strands[strand] then s.raiseCause strand causeAuxSync else s)

/-- AUX_ALIGNMENT_END: align_time is over and the angle begins to turn. -/
def execAuxAlignmentEnd (strand : StrandId) (s : State) : Answer :=
  .next (
    let x := s.strands[strand]
    if coreUp s && x.isAux && x.aux.phase == .align && x.aux.alignLeft == 0 then
      s.modStrand strand fun x => { x with aux := { x.aux with phase := .openUp } }
    else s)

/-- Has the duty input of an auxiliary strand shown no edge for 100 ms, `time` ns into the cycle, on the clock of the bound unit
whose A line it is (R147)? -/
def dutyStale (s : State) (time : Nat) (x : Strand) : Bool :=
  x.isAux && (x.cfg.aux.map (·.dutyInput)).getD false &&
    x.cfg.fb.any fun u => decide (x.aux.edgeAt + 100000000 ≤ 5 * (s.fbs[u].clock + (time / 5 - s.fbs[u].now)))

/-- AUX_DUTY_TIMEOUT: no edge for 100 ms; the input reads as the level of the bound unit's A line. -/
def execAuxDutyTimeout (strand : StrandId) (time : Nat) (s : State) : Answer :=
  .next (
    let x := s.strands[strand]
    if coreUp s && dutyStale s time x then
      let level := (x.cfg.fb.map fun u => s.fbs[u].a).getD false
      s.modStrand strand fun x => { x with aux := { x.aux with duty := if level then 65535 else 0, rise := 0 } }
    else s)

end Sys2Proof.Machine
end

