-- ==== Sys2Proof/Machine/Cycle.lean ====
section
/-! DEFINITION. The cycle start (R9 to R13, R16, R17, R20, R24, R54 to R56, R69, R127, R241, R246), the position and velocity
plies (R13), and the contact sheet (R18, R54). -/

namespace Sys2Proof.Machine

/-! The cycle that ends. -/

/-- The record of last good payloads ages where nothing came in the cycle. -/
def ageGood (l : Link) : Link :=
  { l with lastGood := l.lastGood.map fun e => if l.stored.contains e.1 || e.2.2 == 63 then e else (e.1, e.2.1, e.2.2 + 1) }

/-- Own publications reach the receive area, and the bursts of the cycle are counted. -/
def State.endCycle (s : State) : State :=
  let s := ((s.storeOwn).modLink ageGood).countBursts
  s.modLink fun l => { l with
    ports := l.ports.map fun p =>
      let n := s.tNs * 100 / 128
      { p with busy := p.busy - n, fwd := (p.fwd.filter fun w => decide (n < w.2)).map fun w => (w.1 - n, w.2 - n) }
    lateSeen := l.lateSeen.filter fun e => decide ((s.seq.cycle.truncate 16 - e.2.2.1 + 256).toNat < 512) }

/-- `ns` nanoseconds pass for everything that runs on its own: time, plans, observers and settling filters. -/
def State.passTime (s : State) (ns : Nat) : State :=
  let key := s.key 0
  { s with
    saf := { s.saf with tpLow := s.saf.tpLow.map fun n => n - ns, slNs := if (s.isle .a).safelight then s.saf.slNs + ns else 0 }
    time := s.time.cycle key ns
    strands := s.strands.map fun (x : Strand) => ({ x with
      pubAge := x.pubAge + 1, plan := x.plan.map fun p => p.advance (ns / 250)
      stop := x.stop.map fun r => { r with plan := r.plan.advance (ns / 250) } } : Strand)
    fbs := s.fbs.map fun (u : Fb) => fbCycle key (ns / 5) u
    quads := s.quads.map fun (q : Quad) => ({ q with
      settling := q.settling - ns, valley := q.valley - ns * 64 / 5, holdTo := q.holdTo - ns * 64 / 5
      wait := q.wait.map fun w => (w.1 - ns * 64 / 5, w.2 - ns * 64 / 5) } : Quad) }

/-! Registers with a shadow (R4, R151, R152, R162, R185, R186, R261). -/

/-- PWM_CTL's mix and run, PWM_GF_CFG and the filter registers; run's rise takes the carrier too, and its fall stops the
counter at 0 (R134). -/
def landQuad (at_ : Int) (x : Quad) : Quad :=
  let c := { x.cfg with
    mix := x.sh.mix, run := x.sh.run, gfEnable := x.sh.gfEnable, gfLevel := x.sh.gfLevel
    div := x.sh.div, osr3 := x.sh.osr3, osr2 := x.sh.osr2, clkEn := x.sh.clkEn, capDly := x.sh.capDly, limit := x.sh.limit }
  let c := if c.run && !x.cfg.run then withCarrier c x.sh.saw x.sh.dbl x.sh.period x.sh.phase else c
  let y := { x with
    cfg := c, settling := if filterChanges x.cfg c then settleNs c else x.settling
    cnt := if c.run then x.cnt else 0, down := c.run && x.down }
  if c.run && !x.cfg.run then startCarrier at_ y else y

def landFb (u : Fb) : Fb :=
  if u.sh = u.cfg then u
  else if u.cfg.mode = u.sh.mode ∧ u.cfg.invert = u.sh.invert then { u with cfg := u.sh } else clearUnit u u.sh

/-- A generator that is not enabled is flushed (R162). -/
def landStg (x : Stg) : Stg := if x.sh.enable then { x with cfg := x.sh } else flushStg { x with cfg := x.sh }

def landSeq (q : Seq) : Seq := { q with sheetPoint := q.sheetPointSh, overrun := q.overrunSh }

/-- The shadows take effect. -/
def State.landShadows (s : State) : State :=
  let s := (List.finRange 12).foldl (fun t q => s.gateNews t q) { s with quads := s.quads.map (landQuad (domainUnits s)) }
  let s := { s with
    fbs := s.fbs.map landFb, stgs := s.stgs.map landStg
    cmps := s.cmps.map landCmp, probes := s.probes.map landProbe, seq := landSeq s.seq, link := landLink s.link }
  (allPorts.foldl (fun s p => (s.modPort p fun x => let r := legalRole (isRing p) x.roleSh
    { x with role := r, lock := if r = 0 then 0 else x.lock, lockEvent := x.lockEvent || (r == 0 && x.lock != 0) }).checkPort p) s)

/-! Intake and freeze (R10, R11, R241, R246). -/

/-- Is a record's sequence word odd? -/
def tornRec (r : Rec32) : Bool := r.getLsbD 0

/-- The latch of all 256 records; one with an odd word stays, and is counted. -/
def State.latchIntake (s : State) : State :=
  let n := (s.host.intake.toList.filter tornRec).length
  (s.modHost fun h => { h with
    latched := Vector.ofFn fun (i : StrandId) => if tornRec h.intake[i] then h.latched[i] else h.intake[i] }).modSeq fun q => { q with
    torn := satAdd 255 q.torn n }

/-- A port that is ready again ends its wrap, and a lane that has held lock ends the degrade (R236, R241). -/
def State.mendPort (s : State) (p : Port) : State :=
  let x := s.port p
  let s := if x.laneBack then s.modPort p fun x => { x with degraded := false, laneBack := false } else s
  if x.wrapped && x.ready then (s.modPort p fun x => { x with wrapped := false }).raise 13 else s

/-- The tree bursts of the last cycle's publications, under the schedule in force from now on (R246). -/
def State.treeBursts (s : State) (old : Schedule) : State :=
  if s.link.member && s.link.hasSched then (s.treeBurst old .t0).treeBurst old .t1 else s

/-- The swap of the two areas, and the ports that are whole again. -/
def State.freeze (s : State) : State :=
  let s := s.modLink fun l => { l with area := !l.area }
  let s := if s.link.member && s.link.hasSched then
      s.wakeRange (8 * areaBase s.link false) (8 * (areaBase s.link false + 2 * areaUnits s.link * 18432))
    else s
  allPorts.foldl State.mendPort s

/-! Engines (R10, R16, R207, R215, R216, R279). -/

/-- Does an engine hold strand or ply work? -/
def holdsWork (s : State) (e : EngineId) : Bool :=
  s.roles[e].inService && (!(strandsOfEngine s e).isEmpty || s.roles[e].slots.toList.any (·.isSome))

/-- One engine at a cycle start: its watchdog count, a load that is over, a move that is due, and the signal. -/
def State.startEngine (s : State) (e : EngineId) : State :=
  let run := s.engines[e].run
  let s := s.modRole e fun r => { r with
    loading := false, busy := if run == .halted then 0 else if run == .debug then r.busy else r.busy + 1 }
  let s := match s.roles[e].moveTo with
    | some dst => s.migrate e dst (if s.roles[e].byFault then .fault else .second)
    | none => s
  if holdsWork s e && run != .faulted then (s.wakeFn (engineFn e)).modEngine e signalCycle else s

/-- The runtime of every engine takes up what the cycle start has given it (R211). -/
def State.runtimes (s : State) : State := (List.finRange 17).foldl State.runtime s

def State.startEngines (s : State) : State :=
  (List.finRange 17).foldl State.startEngine { s with roles := s.roles.map fun r => { r with tookOver := false } }

/-! The host's subscriptions (R55, R56). -/

/-- The index of an endpoint: in the schedule, or in the publication map. -/
def indexOf (s : State) (e : BitVec 24) : Option Nat :=
  match s.link.sched.pubs.find? fun p => p.2.endpoint == e with
  | some p => some p.2.index
  | none => (mapFind s.mem.pubmap e).map (·.toNat)

/-- An entry of the page: the frozen one, or the last good payload, marked missing. -/
def subEntry (s : State) (e : BitVec 24) : SubEntry :=
  match indexOf s e with
  | none => ⟨e, 63, true, 0⟩
  | some i =>
    let f := frozen s i
    if f.here && !f.poisoned then ⟨e, f.age, false, f.payload⟩
    else
      match s.link.lastGood.find? fun g => g.1 == i with
      | some g => ⟨e, g.2.2, true, g.2.1⟩
      | none => ⟨e, 63, true, 0⟩

/-- The page of a cycle. -/
def pageOf (c : BitVec 48) : Fin 2 := Fin.ofNat 2 c.toNat

/-- The copy of the frozen entries into page n mod 2, then vector 19. -/
def State.copySubs (s : State) : State :=
  if s.host.subList.isEmpty then s
  else
    let l := s.host.subList.map (subEntry s)
    let p := pageOf s.seq.cycle
    (s.modHost fun h => { h with
      subs := h.subs.set p ⟨h.subs[p].seq + 2, s.seq.cycle, l⟩, subPage := p == 1 }).raise 19

/-! Strand updates (R12, R13, R17). -/

/-- Does a strand update in a cycle? -/
def updateDue (c : StrandCfg) (cycle : Nat) : Bool := decide (((cycle : Int) - c.phase) % (max 1 c.dS : Nat) = 0)

/-- Can an engine do strand work: it is not faulted, not halted for debugging and not loading? -/
def engineWorks (s : State) (e : EngineId) : Bool :=
  s.engines[e].run != .faulted && s.engines[e].run != .debug && !s.roles[e].loading

/-- A skipped update counts, but not on an engine that is faulted or loads its program (R215, R279). -/
def skipCounts (s : State) (e : EngineId) : Bool := s.engines[e].run != .faulted && !s.roles[e].loading && !s.roles[e].tookOver

/-- The strands that update in this cycle and to which something may have happened. -/
def strandsDue (skipped : List StrandId) (s : State) : List StrandId :=
  (List.finRange 256).filter fun i =>
    let x := s.strands[i]
    (x.st != .off || x.raised != 0) && updateDue x.cfg s.seq.cycle.toNat && !skipped.contains i && engineWorks s x.engine

/-- One strand in a cycle: its update, or one skip more. -/
def State.strandTurn (skipped : List StrandId) (s : State) (i : StrandId) : State :=
  let x := s.strands[i]
  if !updateDue x.cfg s.seq.cycle.toNat then s
  else if !skipped.contains i && engineWorks s x.engine then s.strandUpdate i
  else if skipCounts s x.engine then s.modStrand i fun x => { x with skipped := x.skipped + 1 }
  else s

/-- Is the strand member 0 of a running group? Its update writes the references of the others (R109). -/
def headsGroup (s : State) (i : StrandId) : Bool := s.groups.toList.any fun g => g.running && g.members.head? == some i

/-- The strand work of a cycle, the strands that lead a path before the others, and the overrun count. -/
def State.strandWork (skipped : List StrandId) (s : State) : State :=
  let due := fun (i : StrandId) => updateDue s.strands[i].cfg s.seq.cycle.toNat && skipCounts s s.strands[i].engine
  let late := skipped.any due || (List.finRange 256).any fun i =>
    s.strands[i].cfg.binding != .unbound && s.engines[s.strands[i].engine].run == .debug && due i
  let heads := (List.finRange 256).filter (headsGroup s)
  let s := (heads ++ (List.finRange 256).filter fun i => !heads.contains i).foldl (State.strandTurn skipped) s
  if late then s.modSeq fun q => { q with overCnt := satAdd 255 q.overCnt 1 } else s

/-! CYCLE_START. -/

/-- The compare units see their sources through the rest of the cycle (R183). -/
def State.compareCycle (s : State) : State :=
  (List.finRange 24).foldl (fun t c =>
    let i := cmpSource t.cmps[c]
    if (compareUnits t i).contains c then t.compareRun c (t.tNs / 5 - t.fbs[i].now) else t) s

/-- The cycle number and the time go on; the first cycle start after bring-up takes the number that stands. -/
def State.nextCycle (s : State) : State :=
  if s.seq.running then ((s.editOn.endCycle.compareCycle.passTime s.tNs).stepSequencers s.tNs).modSeq fun q => { q with cycle := q.cycle + 1 }
  else
    let s := s.modSeq fun q => { q with running := true }
    if s.link.numbered then s.setReady rdyDomain true else s

/-- The automatic epoch flush (R127). -/
def State.epochFlush (s : State) : State := if s.seq.cycle.toNat % 1024 = 0 then s.dropMapCaches else s

/-- A cycle start up to its armed sets: the cycle before ends; then the intake latch, the freeze, the switches, the field inputs as
they stand (R327) and the signals (R10). -/
def State.beforeSets (s : State) : State :=
  let s := s.nextCycle.latchIntake.latchOutputs.freeze
  let s := (s.switchSchedule.treeBursts s.link.sched).landShadows.placeCarriers
  (s.modFio fun f => { f with inputsAt := f.inputs }).startEngines

/-- A cycle start after its armed sets: the strand work but for the strands an overrun leaves out (R17). -/
def State.afterSets (skipped : List StrandId) (s : State) : State :=
  ((s.epochFlush.copySubs.strandWork skipped).runtimes.modLink fun l => { l with joining := false }).tick

/-- CYCLE_START: the armed sets come after what the cycle brings and the events that go before them (R10, R93). -/
def execCycleStart (skipped : List StrandId) (s : State) : Answer :=
  .next (
    if !coreUp s then s
    else (s.beforeSets.takeSets (strandsDue skipped s.beforeSets)).afterSets skipped)

/-! PLY_UPDATE. -/

def execPlyUpdate (strand : StrandId) (j : Byte) (s : State) : Answer :=
  .next (
    let x := s.strands[strand]
    if coreUp s && s.seq.running && plyDue x.cfg s.seq.cycle.toNat j.toNat && engineWorks s x.engine then (s.plyStep strand j.toNat).runtime x.engine else s)

/-! SHEET_PUBLISH (R18, R54, R94). -/

/-- The state word (R94). -/
def stateWord (x : Strand) : Half :=
  BitVec.ofNat 16 (pack [(stNum x.st, 3), (b2n x.reacting, 1), (b2n x.manual, 1), (x.source.toNat, 2), (b2n x.standstill, 1),
    (b2n x.atTarget, 1), (b2n x.outLimit, 1), (b2n x.fwActive, 1), (b2n x.uncertain, 1), (b2n x.srcRange, 1), (b2n x.rearm, 1), (b2n x.stopHeld, 1)])

/-- A strand's entry: the outputs of its latest update, with the current and the following error of this moment. -/
def sheetEntry (x : Strand) : SheetEntry :=
  ⟨BitVec.ofInt 64 x.actPos, BitVec.ofInt 32 x.actVel, BitVec.ofInt 32 x.iq, BitVec.ofInt 32 x.ferr, stateWord x, x.fault,
    x.updCycle.truncate 32⟩

/-- The page of cycle n mod 2, SYS_PAGE_LATEST and vector 1. -/
def execSheetPublish (s : State) : Answer :=
  .next (
    if !coreUp s || !s.seq.running then s
    else
      let p := pageOf s.seq.cycle
      (s.modHost fun h => { h with
        sheets := h.sheets.set p ⟨h.sheets[p].seq + 2, s.seq.cycle, s.strands.map sheetEntry, s.fio.inputsAt, bankFaults s.fio⟩
        sheetPage := p == 1, sheetCycle := s.seq.cycle.truncate 16 }).raise 1)

end Sys2Proof.Machine
end

