-- ==== Sys2Proof/Machine/Cyclic.lean ====
section
/-! DEFINITION. The C-class commands (R67, R72): each is staged as a set whose conditions and effect Sets.lean gives. -/

namespace Sys2Proof.Machine

/-- STRAND_BIND (R76). -/
def execStrandBind (o : Origin) (strand : Half) (kind : Byte) (target : Half) (fb : Byte) (s : State) : Answer :=
  .next (runCyclic (.strandBind o strand kind target fb) o s)

/-- STRAND_CONFIG (R13). -/
def execStrandConfig (o : Origin) (strand : Half) (dS phase kP dP reaction overrunLimit : Byte) (s : State) : Answer :=
  .next (runCyclic (.strandConfig o strand dS phase kP dP reaction overrunLimit) o s)

/-- PLY_COEFF (R83). -/
def execPlyCoeff (o : Origin) (strand : Half) (ply : Byte) (desc : Desc) (s : State) : Answer :=
  .next (runCyclic (.plyCoeff o strand ply desc) o s)

/-- STRAND_ARM (R90). -/
def execStrandArm (o : Origin) (strand : Half) (s : State) : Answer :=
  .next (runCyclic (.strandArm o strand) o s)

/-- STRAND_ENABLE (R90). -/
def execStrandEnable (o : Origin) (strand : Half) (s : State) : Answer :=
  .next (runCyclic (.strandEnable o strand) o s)

/-- STRAND_DISABLE (R90). -/
def execStrandDisable (o : Origin) (strand : Half) (s : State) : Answer :=
  .next (runCyclic (.strandDisable o strand) o s)

/-- STOP (R103). -/
def execStop (o : Origin) (strand : Half) (kind : Byte) (decel : Word) (s : State) : Answer :=
  .next (runCyclic (.stop o strand kind decel) o s)

/-- STOP_NOW (R90). -/
def execStopNow (o : Origin) (strand : Half) (s : State) : Answer :=
  .next (runCyclic (.stopNow o strand) o s)

/-- FAULT_RESET (R93). -/
def execFaultReset (o : Origin) (strand : Half) (s : State) : Answer :=
  .next (runCyclic (.faultReset o strand) o s)

/-- SET_TRANSFER (R88). -/
def execSetTransfer (o : Origin) (strand : Half) (mode : Byte) (output : Word) (s : State) : Answer :=
  .next (runCyclic (.setTransfer o strand mode output) o s)

/-- SET_SOURCE (R89). -/
def execSetSource (o : Origin) (strand : Half) (source index : Byte) (ratio offset : Word) (s : State) : Answer :=
  .next (runCyclic (.setSource o strand source index ratio offset) o s)

/-- STRAND_HOLD (R90). -/
def execStrandHold (o : Origin) (strand : Half) (release : Byte) (s : State) : Answer :=
  .next (runCyclic (.strandHold o strand release) o s)

/-- PROFILE_SET (R96). -/
def execProfileSet (o : Origin) (strand : Half) (prof : ProfileArgs) (s : State) : Answer :=
  .next (runCyclic (.profileSet o strand prof) o s)

/-- MOVE_ABS (R98). -/
def execMoveAbs (o : Origin) (strand : Half) (target : BitVec 64) (s : State) : Answer :=
  .next (runCyclic (.moveAbs o strand target) o s)

/-- MOVE_REL (R98). -/
def execMoveRel (o : Origin) (strand : Half) (distance : BitVec 64) (s : State) : Answer :=
  .next (runCyclic (.moveRel o strand distance) o s)

/-- JOG (R102). -/
def execJog (o : Origin) (strand : Half) (velocity : Word) (s : State) : Answer :=
  .next (runCyclic (.jog o strand velocity) o s)

/-- GROUP_DEFINE (R104). -/
def execGroupDefine (o : Origin) (group count : Byte) (members : List Half) (s : State) : Answer :=
  .next (runCyclic (.groupDefine o group count members) o s)

/-- PATH_START (R109). -/
def execPathStart (o : Origin) (group : Byte) (s : State) : Answer :=
  .next (runCyclic (.pathStart o group) o s)

/-- PATH_STOP (R110). -/
def execPathStop (o : Origin) (group : Byte) (decel : Word) (s : State) : Answer :=
  .next (runCyclic (.pathStop o group decel) o s)

/-- CAM_SWAP (R114). -/
def execCamSwap (o : Origin) (table : Half) (s : State) : Answer :=
  .next (runCyclic (.camSwap o table) o s)

/-- SKEIN_DEFINE (R120). -/
def execSkeinDefine (o : Origin) (skein : Byte) (master : Word) (coupling : Byte) (desc : Desc) (s : State) : Answer :=
  .next (runCyclic (.skeinDefine o skein master coupling desc) o s)

/-- SKEIN_ENGAGE (R122). -/
def execSkeinEngage (o : Origin) (skein : Byte) (strand : Half) (ramp : Word) (s : State) : Answer :=
  .next (runCyclic (.skeinEngage o skein strand ramp) o s)

/-- SKEIN_DISENGAGE (R122). -/
def execSkeinDisengage (o : Origin) (skein : Byte) (strand : Half) (decel : Word) (s : State) : Answer :=
  .next (runCyclic (.skeinDisengage o skein strand decel) o s)

/-- REG_TRIM (R124). -/
def execRegTrim (o : Origin) (skein probe : Byte) (gain limit ramp : Word) (s : State) : Answer :=
  .next (runCyclic (.regTrim o skein probe gain limit ramp) o s)

/-- ROUTE_EPOCH (R127). -/
def execRouteEpoch (o : Origin) (s : State) : Answer :=
  .next (runCyclic (.routeEpoch o) o s)

/-- SET_HOLD_CYCLES (R125). -/
def execSetHoldCycles (o : Origin) (strand : Half) (hold : Byte) (s : State) : Answer :=
  .next (runCyclic (.setHoldCycles o strand hold) o s)

/-- QUAD_CONFIG (R130). -/
def execQuadConfig (o : Origin) (quad mix carrier : Byte) (period : Word) (double : Byte) (phase : Word) (s : State) : Answer :=
  .next (runCyclic (.quadConfig o quad mix carrier period double phase) o s)

/-- DEADTIME_SET (R135). -/
def execDeadtimeSet (o : Origin) (quad pair : Byte) (dead : Half) (s : State) : Answer :=
  .next (runCyclic (.deadtimeSet o quad pair dead) o s)

/-- SDF_CONFIG (R139). -/
def execSdfConfig (o : Origin) (quad : Byte) (fMod : Word) (osr3 : Half) (osr2 : Byte) (s : State) : Answer :=
  .next (runCyclic (.sdfConfig o quad fMod osr3 osr2) o s)

/-- TRIP_CONFIG (R142). -/
def execTripConfig (o : Origin) (quad input : Byte) (limit : Word) (gateFault : Byte) (s : State) : Answer :=
  .next (runCyclic (.tripConfig o quad input limit gateFault) o s)

/-- AUX_CURVE (R146). -/
def execAuxCurve (o : Origin) (strand : Half) (hysteresis : Word) (desc : Desc) (s : State) : Answer :=
  .next (runCyclic (.auxCurve o strand hysteresis desc) o s)

/-- AUX_COMMAND (R149). -/
def execAuxCommand (o : Origin) (strand : Half) (speed : Word) (s : State) : Answer :=
  .next (runCyclic (.auxCommand o strand speed) o s)

/-- STEPPER_CONFIG (R158). -/
def execStepperConfig (o : Origin) (slot : Byte) (offTime : Half) (split : Byte) (current : Word) (s : State) : Answer :=
  .next (runCyclic (.stepperConfig o slot offTime split current) o s)

/-- MICROSTEP_TABLE (R156). -/
def execMicrostepTable (o : Origin) (quad : Byte) (desc : Desc) (s : State) : Answer :=
  .next (runCyclic (.microstepTable o quad desc) o s)

/-- ENLARGER_SET (R160). -/
def execEnlargerSet (o : Origin) (strand : Half) (fb : Byte) (num den : Word) (s : State) : Answer :=
  .next (runCyclic (.enlargerSet o strand fb num den) o s)

/-- STEPGEN_CONFIG (R161). -/
def execStepgenConfig (o : Origin) (stg : Byte) (width dirSetup : Word) (s : State) : Answer :=
  .next (runCyclic (.stepgenConfig o stg width dirSetup) o s)

/-- TABLE_STEP (R163). -/
def execTableStep (o : Origin) (strand address scale : Half) (s : State) : Answer :=
  .next (runCyclic (.tableStep o strand address scale) o s)

/-- FB_CONFIG (R168). -/
def execFbConfig (o : Origin) (unit mode : Byte) (filter : Half) (bits : Byte) (bandwidth : Word) (s : State) : Answer :=
  .next (runCyclic (.fbConfig o unit mode filter bits bandwidth) o s)

/-- PROBE_ARM (R180). -/
def execProbeArm (o : Origin) (probe edge mode zero : Byte) (mask : Rec32) (s : State) : Answer :=
  .next (runCyclic (.probeArm o probe edge mode zero mask) o s)

/-- COMPARE_LOAD (R182). -/
def execCompareLoad (o : Origin) (unit : Byte) (source : Half) (width : Word) (desc : Desc) (s : State) : Answer :=
  .next (runCyclic (.compareLoad o unit source width desc) o s)

/-- FLYER_ASSIGN (R215). -/
def execFlyerAssign (o : Origin) (engine program : Byte) (s : State) : Answer :=
  .next (runCyclic (.flyerAssign o engine program) o s)

/-- ENGINE_RETIRE (R216). -/
def execEngineRetire (o : Origin) (engine : Byte) (s : State) : Answer :=
  .next (runCyclic (.engineRetire o engine) o s)

/-- DOMAIN_LEAVE (R254). -/
def execDomainLeave (o : Origin) (s : State) : Answer :=
  .next (runCyclic (.domainLeave o) o s)

/-- SET_CYCLE (R257). -/
def execSetCycle (o : Origin) (t : Half) (s : State) : Answer :=
  .next (runCyclic (.setCycle o t) o s)

/-- PUBLISH_DEFINE (R116). -/
def execPublishDefine (o : Origin) (index : Half) (source : Word) (kind : Byte) (s : State) : Answer :=
  .next (runCyclic (.publishDefine o index source kind) o s)

/-- HOST_SUBSCRIBE (R56). -/
def execHostSubscribe (o : Origin) (desc : Desc) (s : State) : Answer :=
  .next (runCyclic (.hostSubscribe o desc) o s)

end Sys2Proof.Machine
end

