-- ==== Sys2Proof/Machine/Dispatch.lean ====
section
/-! DEFINITION. One arm per command: its meaning, or its rejection by name. -/

namespace Sys2Proof.Machine

/-- What a command does to everything but the queue. -/
def exec (i : Instr) (s : State) : Host.Outcome State Fault Refusal :=
  match i with
  | .identify o => Sys2Proof.Machine.execIdentify o s
  | .systemReset o flags => Sys2Proof.Machine.execSystemReset o flags s
  | .distaffRestart o => Sys2Proof.Machine.execDistaffRestart o s
  | .setClockSources o pri0 pri1 pri2 revert => Sys2Proof.Machine.execSetClockSources o pri0 pri1 pri2 revert s
  | .setWatermark o source mark hyst => Sys2Proof.Machine.execSetWatermark o source mark hyst s
  | .cancel o mailbox tag => Sys2Proof.Machine.execCancel o mailbox tag s
  | .getCounters o clear => Sys2Proof.Machine.execGetCounters o clear s
  | .ping o bytes => Sys2Proof.Machine.execPing o bytes s
  | .logRead o first count desc => Sys2Proof.Machine.execLogRead o first count desc s
  | .mbTags o mailbox => Sys2Proof.Machine.execMbTags o mailbox s
  | .setLatencyTolerance o function ns => Sys2Proof.Machine.execSetLatencyTolerance o function ns s
  | .setDeviceState o state => Sys2Proof.Machine.execSetDeviceState o state s
  | .getPower o => Sys2Proof.Machine.execGetPower o s
  | .strandBind o strand kind target fb => Sys2Proof.Machine.execStrandBind o strand kind target fb s
  | .strandConfig o strand dS phase kP dP reaction overrunLimit => Sys2Proof.Machine.execStrandConfig o strand dS phase kP dP reaction overrunLimit s
  | .plyCoeff o strand ply desc => Sys2Proof.Machine.execPlyCoeff o strand ply desc s
  | .strandArm o strand => Sys2Proof.Machine.execStrandArm o strand s
  | .strandEnable o strand => Sys2Proof.Machine.execStrandEnable o strand s
  | .strandDisable o strand => Sys2Proof.Machine.execStrandDisable o strand s
  | .stop o strand kind decel => Sys2Proof.Machine.execStop o strand kind decel s
  | .stopNow o strand => Sys2Proof.Machine.execStopNow o strand s
  | .faultReset o strand => Sys2Proof.Machine.execFaultReset o strand s
  | .setTransfer o strand mode output => Sys2Proof.Machine.execSetTransfer o strand mode output s
  | .setSource o strand source index ratio offset => Sys2Proof.Machine.execSetSource o strand source index ratio offset s
  | .strandHold o strand release => Sys2Proof.Machine.execStrandHold o strand release s
  | .strandRead o strand => Sys2Proof.Machine.execStrandRead o strand s
  | .profileSet o strand prof => Sys2Proof.Machine.execProfileSet o strand prof s
  | .moveAbs o strand target => Sys2Proof.Machine.execMoveAbs o strand target s
  | .moveRel o strand distance => Sys2Proof.Machine.execMoveRel o strand distance s
  | .jog o strand velocity => Sys2Proof.Machine.execJog o strand velocity s
  | .groupDefine o group count members => Sys2Proof.Machine.execGroupDefine o group count members s
  | .pathQueue o group desc => Sys2Proof.Machine.execPathQueue o group desc s
  | .pathStart o group => Sys2Proof.Machine.execPathStart o group s
  | .pathStop o group decel => Sys2Proof.Machine.execPathStop o group decel s
  | .camLoad o table points desc => Sys2Proof.Machine.execCamLoad o table points desc s
  | .camSwap o table => Sys2Proof.Machine.execCamSwap o table s
  | .camEdit o table first desc => Sys2Proof.Machine.execCamEdit o table first desc s
  | .camRead o table buffer desc => Sys2Proof.Machine.execCamRead o table buffer desc s
  | .skeinDefine o skein master coupling desc => Sys2Proof.Machine.execSkeinDefine o skein master coupling desc s
  | .skeinEngage o skein strand ramp => Sys2Proof.Machine.execSkeinEngage o skein strand ramp s
  | .skeinDisengage o skein strand decel => Sys2Proof.Machine.execSkeinDisengage o skein strand decel s
  | .regTrim o skein probe gain limit ramp => Sys2Proof.Machine.execRegTrim o skein probe gain limit ramp s
  | .pubmapWrite o endpoint index => Sys2Proof.Machine.execPubmapWrite o endpoint index s
  | .routeEpoch o => Sys2Proof.Machine.execRouteEpoch o s
  | .setHoldCycles o strand hold => Sys2Proof.Machine.execSetHoldCycles o strand hold s
  | .quadConfig o quad mix carrier period double phase => Sys2Proof.Machine.execQuadConfig o quad mix carrier period double phase s
  | .deadtimeSet o quad pair dead => Sys2Proof.Machine.execDeadtimeSet o quad pair dead s
  | .sdfConfig o quad fMod osr3 osr2 => Sys2Proof.Machine.execSdfConfig o quad fMod osr3 osr2 s
  | .tripConfig o quad input limit gateFault => Sys2Proof.Machine.execTripConfig o quad input limit gateFault s
  | .auxCurve o strand hysteresis desc => Sys2Proof.Machine.execAuxCurve o strand hysteresis desc s
  | .auxCommand o strand speed => Sys2Proof.Machine.execAuxCommand o strand speed s
  | .stepperConfig o slot offTime split current => Sys2Proof.Machine.execStepperConfig o slot offTime split current s
  | .microstepTable o quad desc => Sys2Proof.Machine.execMicrostepTable o quad desc s
  | .enlargerSet o strand fb num den => Sys2Proof.Machine.execEnlargerSet o strand fb num den s
  | .stepgenConfig o stg width dirSetup => Sys2Proof.Machine.execStepgenConfig o stg width dirSetup s
  | .tableStep o strand address scale => Sys2Proof.Machine.execTableStep o strand address scale s
  | .fbConfig o unit mode filter bits bandwidth => Sys2Proof.Machine.execFbConfig o unit mode filter bits bandwidth s
  | .probeArm o probe edge mode zero mask => Sys2Proof.Machine.execProbeArm o probe edge mode zero mask s
  | .compareLoad o unit source width desc => Sys2Proof.Machine.execCompareLoad o unit source width desc s
  | .fbRead o unit => Sys2Proof.Machine.execFbRead o unit s
  | .flyerLoad o program desc sigOk => Sys2Proof.Machine.execFlyerLoad o program desc sigOk s
  | .flyerAssign o engine program => Sys2Proof.Machine.execFlyerAssign o engine program s
  | .engineRetire o engine => Sys2Proof.Machine.execEngineRetire o engine s
  | .flyerDebug o engine action => Sys2Proof.Machine.execFlyerDebug o engine action s
  | .benchMode o on password => Sys2Proof.Machine.execBenchMode o on password s
  | .regAccess o address write value => Sys2Proof.Machine.execRegAccess o address write value s
  | .memRead o address desc => Sys2Proof.Machine.execMemRead o address desc s
  | .memWrite o address desc => Sys2Proof.Machine.execMemWrite o address desc s
  | .memRepair o bank row => Sys2Proof.Machine.execMemRepair o bank row s
  | .bankPower o bank mode => Sys2Proof.Machine.execBankPower o bank mode s
  | .stageOpen o length => Sys2Proof.Machine.execStageOpen o length s
  | .stageWrite o handle offset count zero data => Sys2Proof.Machine.execStageWrite o handle offset count zero data s
  | .stageClose o handle => Sys2Proof.Machine.execStageClose o handle s
  | .stageRead o handle offset count => Sys2Proof.Machine.execStageRead o handle offset count s
  | .linkStatus o port => Sys2Proof.Machine.execLinkStatus o port s
  | .domainLeave o => Sys2Proof.Machine.execDomainLeave o s
  | .scheduleWrite o first count desc => Sys2Proof.Machine.execScheduleWrite o first count desc s
  | .setCycle o t => Sys2Proof.Machine.execSetCycle o t s
  | .negativeSave o => Sys2Proof.Machine.execNegativeSave o s
  | .publishDefine o index source kind => Sys2Proof.Machine.execPublishDefine o index source kind s
  | .hostSubscribe o desc => Sys2Proof.Machine.execHostSubscribe o desc s
  | .timeRead o => Sys2Proof.Machine.execTimeRead o s
  | .timeSelect o domain => Sys2Proof.Machine.execTimeSelect o domain s
  | .timePriority o domain priority => Sys2Proof.Machine.execTimePriority o domain priority s
  | .ptpConfig o args => Sys2Proof.Machine.execPtpConfig o args s
  | .safetyRead o desc => Sys2Proof.Machine.execSafetyRead o desc s
  | .safetyWrite o password desc => Sys2Proof.Machine.execSafetyWrite o password desc s
  | .safetyConfirm o password user => Sys2Proof.Machine.execSafetyConfirm o password user s
  | .safetyPassword o old new user salt => Sys2Proof.Machine.execSafetyPassword o old new user salt s
  | .safetyLogRead o desc => Sys2Proof.Machine.execSafetyLogRead o desc s
  | .safetyReset o => Sys2Proof.Machine.execSafetyReset o s
  | .expConfig o unit desc => Sys2Proof.Machine.execExpConfig o unit desc s
  | .expArm o unit => Sys2Proof.Machine.execExpArm o unit s
  | .expRead o unit desc => Sys2Proof.Machine.execExpRead o unit desc s
  | .expDisarm o unit => Sys2Proof.Machine.execExpDisarm o unit s
  | .ioConfig o desc => Sys2Proof.Machine.execIoConfig o desc s
  | .ioDiag o => Sys2Proof.Machine.execIoDiag o s
  | .watchdogSet o ms => Sys2Proof.Machine.execWatchdogSet o ms s
  | .convTable o converter desc => Sys2Proof.Machine.execConvTable o converter desc s
  | .convRead o converter => Sys2Proof.Machine.execConvRead o converter s
  | .crosscheckSet o channel limit safety => Sys2Proof.Machine.execCrosscheckSet o channel limit safety s
  | .canConfig o ctl desc => Sys2Proof.Machine.execCanConfig o ctl desc s
  | .canFilter o ctl desc => Sys2Proof.Machine.execCanFilter o ctl desc s
  | .canBus o ctl mode => Sys2Proof.Machine.execCanBus o ctl mode s
  | .canSend o ctl buffer desc => Sys2Proof.Machine.execCanSend o ctl buffer desc s
  | .fwWrite o image offset last desc sigOk => Sys2Proof.Machine.execFwWrite o image offset last desc sigOk s
  | .fwSwitch o => Sys2Proof.Machine.execFwSwitch o s
  | .fwStatus o => Sys2Proof.Machine.execFwStatus o s
  | .calRead o desc => Sys2Proof.Machine.execCalRead o desc s
  | .calWrite o desc => Sys2Proof.Machine.execCalWrite o desc s
  | .selfTest o function level => Sys2Proof.Machine.execSelfTest o function level s
  | .flParallel e m0 m1 m => Sys2Proof.Machine.execFlParallel e m0 m1 m s
  | .flAdd e dst s1 s2 m => Sys2Proof.Machine.execFlAdd e dst s1 s2 m s
  | .flSub e dst s1 s2 m => Sys2Proof.Machine.execFlSub e dst s1 s2 m s
  | .flNeg e dst s1 m => Sys2Proof.Machine.execFlNeg e dst s1 m s
  | .flAbs e dst s1 m => Sys2Proof.Machine.execFlAbs e dst s1 m s
  | .flAnd e dst s1 s2 m => Sys2Proof.Machine.execFlAnd e dst s1 s2 m s
  | .flOr e dst s1 s2 m => Sys2Proof.Machine.execFlOr e dst s1 s2 m s
  | .flXor e dst s1 s2 m => Sys2Proof.Machine.execFlXor e dst s1 s2 m s
  | .flNot e dst s1 m => Sys2Proof.Machine.execFlNot e dst s1 m s
  | .flShl e dst s1 s2 m => Sys2Proof.Machine.execFlShl e dst s1 s2 m s
  | .flShr e dst s1 s2 m => Sys2Proof.Machine.execFlShr e dst s1 s2 m s
  | .flAsr e dst s1 s2 m => Sys2Proof.Machine.execFlAsr e dst s1 s2 m s
  | .flMov e dst s1 m => Sys2Proof.Machine.execFlMov e dst s1 m s
  | .flCmp e dst s1 s2 m => Sys2Proof.Machine.execFlCmp e dst s1 s2 m s
  | .flMin e dst s1 s2 m => Sys2Proof.Machine.execFlMin e dst s1 s2 m s
  | .flMax e dst s1 s2 m => Sys2Proof.Machine.execFlMax e dst s1 s2 m s
  | .flMaxi e dst s1 s2 m => Sys2Proof.Machine.execFlMaxi e dst s1 s2 m s
  | .flMini e dst s1 s2 m => Sys2Proof.Machine.execFlMini e dst s1 s2 m s
  | .flWrap e dst s1 s2 m => Sys2Proof.Machine.execFlWrap e dst s1 s2 m s
  | .flSincos e dst s1 m => Sys2Proof.Machine.execFlSincos e dst s1 m s
  | .flClarke e dst s1 m => Sys2Proof.Machine.execFlClarke e dst s1 m s
  | .flPark e dst s1 s2 m => Sys2Proof.Machine.execFlPark e dst s1 s2 m s
  | .flIpark e dst s1 s2 m => Sys2Proof.Machine.execFlIpark e dst s1 s2 m s
  | .flDivs e dst s1 m => Sys2Proof.Machine.execFlDivs e dst s1 m s
  | .flRda e dst s1 m => Sys2Proof.Machine.execFlRda e dst s1 m s
  | .flRdal e dst s1 m => Sys2Proof.Machine.execFlRdal e dst s1 m s
  | .flRdam e dst s1 m => Sys2Proof.Machine.execFlRdam e dst s1 m s
  | .flRdah e dst s1 m => Sys2Proof.Machine.execFlRdah e dst s1 m s
  | .flWra e dst s1 m => Sys2Proof.Machine.execFlWra e dst s1 m s
  | .flClra e dst m => Sys2Proof.Machine.execFlClra e dst m s
  | .flAdda e dst s1 m => Sys2Proof.Machine.execFlAdda e dst s1 m s
  | .flSuba e dst s1 m => Sys2Proof.Machine.execFlSuba e dst s1 m s
  | .flMova e dst s1 m => Sys2Proof.Machine.execFlMova e dst s1 m s
  | .flMovd e dst s1 m => Sys2Proof.Machine.execFlMovd e dst s1 m s
  | .flAadd e dst s1 m => Sys2Proof.Machine.execFlAadd e dst s1 m s
  | .flMovc e dst s1 s2 m => Sys2Proof.Machine.execFlMovc e dst s1 s2 m s
  | .flMovtc e dst s1 s2 m => Sys2Proof.Machine.execFlMovtc e dst s1 s2 m s
  | .flBr e cond target => Sys2Proof.Machine.execFlBr e cond target s
  | .flCall e cond target => Sys2Proof.Machine.execFlCall e cond target s
  | .flRet e cond => Sys2Proof.Machine.execFlRet e cond s
  | .flLoopr e level reg le => Sys2Proof.Machine.execFlLoopr e level reg le s
  | .flMode e imm => Sys2Proof.Machine.execFlMode e imm s
  | .flGrp e n => Sys2Proof.Machine.execFlGrp e n s
  | .flHalt e => Sys2Proof.Machine.execFlHalt e s
  | .flReti e => Sys2Proof.Machine.execFlReti e s
  | .flRetx e => Sys2Proof.Machine.execFlRetx e s
  | .flSig e n => Sys2Proof.Machine.execFlSig e n s
  | .flWaitf e n => Sys2Proof.Machine.execFlWaitf e n s
  | .flBrk e => Sys2Proof.Machine.execFlBrk e s
  | .flMovi e reg imm => Sys2Proof.Machine.execFlMovi e reg imm s
  | .flMovia e reg imm => Sys2Proof.Machine.execFlMovia e reg imm s
  | .flMovx e k imm => Sys2Proof.Machine.execFlMovx e k imm s
  | .flLoop e level count le => Sys2Proof.Machine.execFlLoop e level count le s
  | .flFmv e reg k toBanks lines offset ecc => Sys2Proof.Machine.execFlFmv e reg k toBanks lines offset ecc s
  | .flFatm e reg k swap old offset ecc => Sys2Proof.Machine.execFlFatm e reg k swap old offset ecc s
  | .flXac e reg k read ac offset => Sys2Proof.Machine.execFlXac e reg k read ac offset s
  | .fabricOpComplete e k => Sys2Proof.Machine.execFabricOpComplete e k s
  | .flyerWatchdogExpiry e handler => Sys2Proof.Machine.execFlyerWatchdogExpiry e handler s
  | .cycleStart skipped => Sys2Proof.Machine.execCycleStart skipped s
  | .plyUpdate strand j => Sys2Proof.Machine.execPlyUpdate strand j s
  | .sheetPublish => Sys2Proof.Machine.execSheetPublish s
  | .pwmBoundary quad peak => Sys2Proof.Machine.execPwmBoundary quad peak s
  | .sampleReady quad peak raw => Sys2Proof.Machine.execSampleReady quad peak raw s
  | .overcurrentTrip quad input value => Sys2Proof.Machine.execOvercurrentTrip quad input value s
  | .sddStuck quad input stuck => Sys2Proof.Machine.execSddStuck quad input stuck s
  | .gateFaultInput quad g level => Sys2Proof.Machine.execGateFaultInput quad g level s
  | .pwmForceWrite quad value => Sys2Proof.Machine.execPwmForceWrite quad value s
  | .pwmForcePairWrite quad value => Sys2Proof.Machine.execPwmForcePairWrite quad value s
  | .pwmTripClear quad value => Sys2Proof.Machine.execPwmTripClear quad value s
  | .chopperDriveEnd quad pair => Sys2Proof.Machine.execChopperDriveEnd quad pair s
  | .chopperFastDecayEnd quad pair => Sys2Proof.Machine.execChopperFastDecayEnd quad pair s
  | .chopperOffTimeEnd quad pair => Sys2Proof.Machine.execChopperOffTimeEnd quad pair s
  | .stepperHoldCurrent strand => Sys2Proof.Machine.execStepperHoldCurrent strand s
  | .stepEmit stg => Sys2Proof.Machine.execStepEmit stg s
  | .stgPushWrite stg value => Sys2Proof.Machine.execStgPushWrite stg value s
  | .enlargerTimeout strand => Sys2Proof.Machine.execEnlargerTimeout strand s
  | .quadratureEdge unit a b samples => Sys2Proof.Machine.execQuadratureEdge unit a b samples s
  | .hallCodeChange unit code samples => Sys2Proof.Machine.execHallCodeChange unit code samples s
  | .pulseEdge unit a b samples => Sys2Proof.Machine.execPulseEdge unit a b samples s
  | .serialFrameStart unit samples => Sys2Proof.Machine.execSerialFrameStart unit samples s
  | .serialFrameEnd unit word check samples => Sys2Proof.Machine.execSerialFrameEnd unit word check samples s
  | .countExtension unit => Sys2Proof.Machine.execCountExtension unit s
  | .probeEdge probe falling stamp => Sys2Proof.Machine.execProbeEdge probe falling stamp s
  | .compareFire unit position => Sys2Proof.Machine.execCompareFire unit position s
  | .comparePulseEnd unit => Sys2Proof.Machine.execComparePulseEnd unit s
  | .standstill strand => Sys2Proof.Machine.execStandstill strand s
  | .stopTimeout strand => Sys2Proof.Machine.execStopTimeout strand s
  | .followingError strand => Sys2Proof.Machine.execFollowingError strand s
  | .cycleOverrun strand => Sys2Proof.Machine.execCycleOverrun strand s
  | .pubMissing strand => Sys2Proof.Machine.execPubMissing strand s
  | .stall strand => Sys2Proof.Machine.execStall strand s
  | .currentSum strand => Sys2Proof.Machine.execCurrentSum strand s
  | .auxSyncLoss strand => Sys2Proof.Machine.execAuxSyncLoss strand s
  | .auxAlignmentEnd strand => Sys2Proof.Machine.execAuxAlignmentEnd strand s
  | .auxDutyTimeout strand time => Sys2Proof.Machine.execAuxDutyTimeout strand time s
  | .driveStatusTimeout strand => Sys2Proof.Machine.execDriveStatusTimeout strand s
  | .burstTransmit kind late ecc => Sys2Proof.Machine.execBurstTransmit kind late ecc s
  | .burstReceive port burst arrival => Sys2Proof.Machine.execBurstReceive port burst arrival s
  | .helloSend port => Sys2Proof.Machine.execHelloSend port s
  | .helloReceive port device valid serial master => Sys2Proof.Machine.execHelloReceive port device valid serial master s
  | .helloTimeout port => Sys2Proof.Machine.execHelloTimeout port s
  | .blockLockLoss port => Sys2Proof.Machine.execBlockLockLoss port s
  | .portDegrade port lane lost => Sys2Proof.Machine.execPortDegrade port lane lost s
  | .laneRestore port => Sys2Proof.Machine.execLaneRestore port s
  | .asyncFrameTransmit port turn promoted => Sys2Proof.Machine.execAsyncFrameTransmit port turn promoted s
  | .asyncFrameReceive port frame crc => Sys2Proof.Machine.execAsyncFrameReceive port frame crc s
  | .ackReceive port hseq => Sys2Proof.Machine.execAckReceive port hseq s
  | .nakReceive port hseq => Sys2Proof.Machine.execNakReceive port hseq s
  | .releaseReceive port hseq => Sys2Proof.Machine.execReleaseReceive port hseq s
  | .retransmitTimeout port hseq => Sys2Proof.Machine.execRetransmitTimeout port hseq s
  | .heldFrameTimeout port hseq => Sys2Proof.Machine.execHeldFrameTimeout port hseq s
  | .unreachableReport rseq => Sys2Proof.Machine.execUnreachableReport rseq s
  | .deliveryReport rseq => Sys2Proof.Machine.execDeliveryReport rseq s
  | .deliveryAssumed rseq => Sys2Proof.Machine.execDeliveryAssumed rseq s
  | .remoteRequestReceive src key slot => Sys2Proof.Machine.execRemoteRequestReceive src key slot s
  | .remoteCompletionReceive src key slot => Sys2Proof.Machine.execRemoteCompletionReceive src key slot s
  | .remoteTimerExpiry rseq => Sys2Proof.Machine.execRemoteTimerExpiry rseq s
  | .beaconSend => Sys2Proof.Machine.execBeaconSend s
  | .beaconLoss candidates => Sys2Proof.Machine.execBeaconLoss candidates s
  | .enumeration found links degraded => Sys2Proof.Machine.execEnumeration found links degraded s
  | .printApply neg => Sys2Proof.Machine.execPrintApply neg s
  | .domainJoin time cycle => Sys2Proof.Machine.execDomainJoin time cycle s
  | .scheduleConfirmTimeout refusal => Sys2Proof.Machine.execScheduleConfirmTimeout refusal s
  | .scheduleSwitch entries => Sys2Proof.Machine.execScheduleSwitch entries s
  | .syncSend port dom => Sys2Proof.Machine.execSyncSend port dom s
  | .delayRequestSend port => Sys2Proof.Machine.execDelayRequestSend port s
  | .timeEventReceive port payload stamp => Sys2Proof.Machine.execTimeEventReceive port payload stamp s
  | .domainLock dom => Sys2Proof.Machine.execDomainLock dom s
  | .timeAnnounceSend dom => Sys2Proof.Machine.execTimeAnnounceSend dom s
  | .timeAnnounceLoss dom candidates => Sys2Proof.Machine.execTimeAnnounceLoss dom candidates s
  | .upstreamPortLoss dom => Sys2Proof.Machine.execUpstreamPortLoss dom s
  | .slewEnd => Sys2Proof.Machine.execSlewEnd s
  | .timeHoldover => Sys2Proof.Machine.execTimeHoldover s
  | .timeLockClear => Sys2Proof.Machine.execTimeLockClear s
  | .ptpEventMessage msg => Sys2Proof.Machine.execPtpEventMessage msg s
  | .plantValidTimeout => Sys2Proof.Machine.execPlantValidTimeout s
  | .refclkFail source => Sys2Proof.Machine.execRefclkFail source s
  | .refclkRevert => Sys2Proof.Machine.execRefclkRevert s
  | .refclkMismatch => Sys2Proof.Machine.execRefclkMismatch s
  | .keeperVote countC countF => Sys2Proof.Machine.execKeeperVote countC countF s
  | .safetyInputDemand island fn ch => Sys2Proof.Machine.execSafetyInputDemand island fn ch s
  | .safetyInputRest island fn ch => Sys2Proof.Machine.execSafetyInputRest island fn ch s
  | .testPulseStart k => Sys2Proof.Machine.execTestPulseStart k s
  | .pulseCheck input response => Sys2Proof.Machine.execPulseCheck input response s
  | .tpReadbackMismatch k => Sys2Proof.Machine.execTpReadbackMismatch k s
  | .ss1TimerExpiry island fn quad => Sys2Proof.Machine.execSs1TimerExpiry island fn quad s
  | .discrepancyTimeout island fn => Sys2Proof.Machine.execDiscrepancyTimeout island fn s
  | .twoHandTimeout island fn => Sys2Proof.Machine.execTwoHandTimeout island fn s
  | .safelightMinute => Sys2Proof.Machine.execSafelightMinute s
  | .safelightLimitExpiry => Sys2Proof.Machine.execSafelightLimitExpiry s
  | .switchTest island quad pass => Sys2Proof.Machine.execSwitchTest island quad pass s
  | .crossLinkSilent failed => Sys2Proof.Machine.execCrossLinkSilent failed s
  | .islandSelfTest island pass => Sys2Proof.Machine.execIslandSelfTest island pass s
  | .passwordLockoutEnd => Sys2Proof.Machine.execPasswordLockoutEnd s
  | .thermalWarning die tj => Sys2Proof.Machine.execThermalWarning die tj s
  | .thermalTrip die tj => Sys2Proof.Machine.execThermalTrip die tj s
  | .powerOnReset rail => Sys2Proof.Machine.execPowerOnReset rail s
  | .resetNLow => Sys2Proof.Machine.execResetNLow s
  | .perstAssert => Sys2Proof.Machine.execPerstAssert s
  | .pcieLinkUp busMaster msixEnable => Sys2Proof.Machine.execPcieLinkUp busMaster msixEnable s
  | .distaffWatchdogExpiry => Sys2Proof.Machine.execDistaffWatchdogExpiry s
  | .fwSwitchFallback => Sys2Proof.Machine.execFwSwitchFallback s
  | .dormantWake => Sys2Proof.Machine.execDormantWake s
  | .functionReady fn => Sys2Proof.Machine.execFunctionReady fn s
  | .powerStateEntry function => Sys2Proof.Machine.execPowerStateEntry function s
  | .mailboxRequestCopy mb dma => Sys2Proof.Machine.execMailboxRequestCopy mb dma s
  | .busySwitchAnswer mb => Sys2Proof.Machine.execBusySwitchAnswer mb s
  | .cSetArm => Sys2Proof.Machine.execCSetArm s
  | .longOperationStep mb tag input => Sys2Proof.Machine.execLongOperationStep mb tag input s
  | .completionWrite mb => Sys2Proof.Machine.execCompletionWrite mb s
  | .reqPiWrite mb value => Sys2Proof.Machine.execReqPiWrite mb value s
  | .rspCiWrite mb value => Sys2Proof.Machine.execRspCiWrite mb value s
  | .sysIntStatusClear value => Sys2Proof.Machine.execSysIntStatusClear value s
  | .sysIntMaskWrite value => Sys2Proof.Machine.execSysIntMaskWrite value s
  | .sysWmNoticeClear value => Sys2Proof.Machine.execSysWmNoticeClear value s
  | .sysCycleLoRead => Sys2Proof.Machine.execSysCycleLoRead s
  | .timNowLoRead => Sys2Proof.Machine.execTimNowLoRead s
  | .timPlantLoRead => Sys2Proof.Machine.execTimPlantLoRead s
  | .lnkSeqCntClear => Sys2Proof.Machine.execLnkSeqCntClear s
  | .fbQerrCntClear unit => Sys2Proof.Machine.execFbQerrCntClear unit s
  | .stgStatClear stg value => Sys2Proof.Machine.execStgStatClear stg value s
  | .bnkErrClear bank value => Sys2Proof.Machine.execBnkErrClear bank value s
  | .bnkCollCntClear bank => Sys2Proof.Machine.execBnkCollCntClear bank s
  | .bnkPoolEnable => Sys2Proof.Machine.execBnkPoolEnable s
  | .bnkPoolCntClear => Sys2Proof.Machine.execBnkPoolCntClear s
  | .lnkPcntCntClear port => Sys2Proof.Machine.execLnkPcntCntClear port s
  | .lnkDomCntClear => Sys2Proof.Machine.execLnkDomCntClear s
  | .canCntClear ctl => Sys2Proof.Machine.execCanCntClear ctl s
  | .canTakeWrite ctl value => Sys2Proof.Machine.execCanTakeWrite ctl value s
  | .registerWrite bus address size value => Sys2Proof.Machine.execRegisterWrite bus address size value s
  | .bar2Access offset size write portA ecc => Sys2Proof.Machine.execBar2Access offset size write portA ecc s
  | .bobbinAllocate requester => Sys2Proof.Machine.execBobbinAllocate requester s
  | .bobbinRelease index => Sys2Proof.Machine.execBobbinRelease index s
  | .scrubPass bank ecc => Sys2Proof.Machine.execScrubPass bank ecc s
  | .bankClearDone bank => Sys2Proof.Machine.execBankClearDone bank s
  | .expFrame unit samples stamp room poison => Sys2Proof.Machine.execExpFrame unit samples stamp room poison s
  | .expPreFilled unit => Sys2Proof.Machine.execExpPreFilled unit s
  | .expTrigger unit samples stamp => Sys2Proof.Machine.execExpTrigger unit samples stamp s
  | .expHoldoffEnd unit => Sys2Proof.Machine.execExpHoldoffEnd unit s
  | .expPostComplete unit stamp => Sys2Proof.Machine.execExpPostComplete unit stamp s
  | .fieldInputAccept input level => Sys2Proof.Machine.execFieldInputAccept input level s
  | .inputOvervoltage input present => Sys2Proof.Machine.execInputOvervoltage input present s
  | .outputShort output present => Sys2Proof.Machine.execOutputShort output present s
  | .outputOvertemp output => Sys2Proof.Machine.execOutputOvertemp output s
  | .outputOvertempRecover output => Sys2Proof.Machine.execOutputOvertempRecover output s
  | .outputOpenLoad output present => Sys2Proof.Machine.execOutputOpenLoad output present s
  | .outputShortSupply output present => Sys2Proof.Machine.execOutputShortSupply output present s
  | .vfieldReverse reading => Sys2Proof.Machine.execVfieldReverse reading s
  | .vfieldLow reading => Sys2Proof.Machine.execVfieldLow reading s
  | .vfieldRecover reading => Sys2Proof.Machine.execVfieldRecover reading s
  | .vfieldHigh reading present => Sys2Proof.Machine.execVfieldHigh reading present s
  | .outputWatchdogExpiry => Sys2Proof.Machine.execOutputWatchdogExpiry s
  | .conversionEnd conv result overRange stamp => Sys2Proof.Machine.execConversionEnd conv result overRange stamp s
  | .canFrameReceive ctl frame => Sys2Proof.Machine.execCanFrameReceive ctl frame s
  | .canFrameTransmit ctl stamp sent => Sys2Proof.Machine.execCanFrameTransmit ctl stamp sent s
  | .canError ctl transmit amount => Sys2Proof.Machine.execCanError ctl transmit amount s
  | .canRecoveryComplete ctl => Sys2Proof.Machine.execCanRecoveryComplete ctl s
  | .canModeApply ctl => Sys2Proof.Machine.execCanModeApply ctl s
  | .usbVbusDetect present highSpeed => Sys2Proof.Machine.execUsbVbusDetect present highSpeed s
  | .usbBulkOut slots length => Sys2Proof.Machine.execUsbBulkOut slots length s
  | .usbStageTransfer header data => Sys2Proof.Machine.execUsbStageTransfer header data s
  | .usbInAck => Sys2Proof.Machine.execUsbInAck s
  | .usbControlRequest slot => Sys2Proof.Machine.execUsbControlRequest slot s
  | .usbStatusStageTimeout => Sys2Proof.Machine.execUsbStatusStageTimeout s
  | .usbBusReset stage => Sys2Proof.Machine.execUsbBusReset stage s
  | .usbCompletionDiscard => Sys2Proof.Machine.execUsbCompletionDiscard s
  | .dfuManifestation image sigOk => Sys2Proof.Machine.execDfuManifestation image sigOk s
  | .ethHello hostNonce deviceNonce session => Sys2Proof.Machine.execEthHello hostNonce deviceNonce session s
  | .ethOpen proof => Sys2Proof.Machine.execEthOpen proof s
  | .ethRequestDatagram dg slots => Sys2Proof.Machine.execEthRequestDatagram dg slots s
  | .ethStageDatagram dg header data => Sys2Proof.Machine.execEthStageDatagram dg header data s
  | .ethClose dg status => Sys2Proof.Machine.execEthClose dg status s
  | .ethSessionIdleTimeout => Sys2Proof.Machine.execEthSessionIdleTimeout s
  | .ethCompletionResend => Sys2Proof.Machine.execEthCompletionResend s
  | .ethArpIcmp icmp request => Sys2Proof.Machine.execEthArpIcmp icmp request s
  | .resetRelease => Sys2Proof.Machine.execResetRelease s
  | .refclkRecover source => Sys2Proof.Machine.execRefclkRecover source s
  | .blockLock port lane => Sys2Proof.Machine.execBlockLock port lane s
  | .indexEdge unit => Sys2Proof.Machine.execIndexEdge unit s
  | .serialFrameTimeout unit samples => Sys2Proof.Machine.execSerialFrameTimeout unit samples s
  | .remoteKeyExpiry src key => Sys2Proof.Machine.execRemoteKeyExpiry src key s
  | .ethLinkChange up speed => Sys2Proof.Machine.execEthLinkChange up speed s
  | .usbSetConfiguration => Sys2Proof.Machine.execUsbSetConfiguration s
  | .dfuDownload image block data => Sys2Proof.Machine.execDfuDownload image block data s
  | .ptpDelayReqSend => Sys2Proof.Machine.execPtpDelayReqSend s
  | .conversionStart conv => Sys2Proof.Machine.execConversionStart conv s
  | .bar0MemoryWrite offset data => Sys2Proof.Machine.execBar0MemoryWrite offset data s

end Sys2Proof.Machine
end

