-- ==== Sys2Proof/Machine/Encode.lean ====
section
/-! DEFINITION. The request slot that spells a command: the fields of a slot (03_host_interface.md, R45) and the argument bytes of R72
in order, packed with no padding (R62). A host writes such a slot; the device reads it back with `requestOf`. -/

namespace Sys2Proof.Machine

/-- A descriptor's 16 bytes (R64). -/
def descBytes (d : Desc) : List Byte :=
  leBytes 8 d.addr.toNat ++ leBytes 4 d.len.toNat ++ leBytes 1 d.kind.toNat ++ leBytes 1 d.dir.toNat ++ leBytes 2 d.rsv.toNat

/-- The argument bytes of a command (R62, R72); none for what is no command. -/
def encodeArgs : Instr → List Byte
  | .identify .. => []
  | .systemReset _ flags => leBytes 1 flags.toNat
  | .distaffRestart .. => []
  | .setClockSources _ pri0 pri1 pri2 revert => leBytes 1 pri0.toNat ++ leBytes 1 pri1.toNat ++ leBytes 1 pri2.toNat ++ leBytes 1 revert.toNat
  | .setWatermark _ source mark hyst => leBytes 1 source.toNat ++ leBytes 4 mark.toNat ++ leBytes 4 hyst.toNat
  | .cancel _ mailbox tag => leBytes 1 mailbox.toNat ++ leBytes 1 tag.toNat
  | .getCounters _ clear => leBytes 1 clear.toNat
  | .ping _ bytes => bytes
  | .logRead _ first count desc => leBytes 4 first.toNat ++ leBytes 4 count.toNat ++ descBytes desc
  | .mbTags _ mailbox => leBytes 1 mailbox.toNat
  | .setLatencyTolerance _ function ns => (leBytes 2 function.toNat) ++ leBytes 4 ns.toNat
  | .setDeviceState _ state => leBytes 1 state.toNat
  | .getPower .. => []
  | .strandBind _ strand kind target fb => leBytes 2 strand.toNat ++ leBytes 1 kind.toNat ++ leBytes 2 target.toNat ++ leBytes 1 fb.toNat
  | .strandConfig _ strand dS phase kP dP reaction overrunLimit => leBytes 2 strand.toNat ++ leBytes 1 dS.toNat ++ leBytes 1 phase.toNat ++ leBytes 1 kP.toNat ++ leBytes 1 dP.toNat ++ leBytes 1 reaction.toNat ++ leBytes 1 overrunLimit.toNat
  | .plyCoeff _ strand ply desc => leBytes 2 strand.toNat ++ leBytes 1 ply.toNat ++ descBytes desc
  | .strandArm _ strand => leBytes 2 strand.toNat
  | .strandEnable _ strand => leBytes 2 strand.toNat
  | .strandDisable _ strand => leBytes 2 strand.toNat
  | .stop _ strand kind decel => leBytes 2 strand.toNat ++ leBytes 1 kind.toNat ++ leBytes 4 decel.toNat
  | .stopNow _ strand => leBytes 2 strand.toNat
  | .faultReset _ strand => leBytes 2 strand.toNat
  | .setTransfer _ strand mode output => leBytes 2 strand.toNat ++ leBytes 1 mode.toNat ++ leBytes 4 output.toNat
  | .setSource _ strand source index ratio offset => leBytes 2 strand.toNat ++ leBytes 1 source.toNat ++ leBytes 1 index.toNat ++ leBytes 4 ratio.toNat ++ leBytes 4 offset.toNat
  | .strandHold _ strand release => leBytes 2 strand.toNat ++ leBytes 1 release.toNat
  | .strandRead _ strand => leBytes 2 strand.toNat
  | .profileSet _ strand prof => leBytes 2 strand.toNat ++ leBytes 1 prof.shape.toNat ++ leBytes 4 prof.vStart.toNat ++ leBytes 4 prof.vCorner.toNat ++ leBytes 4 prof.vMax.toNat ++ leBytes 4 prof.vStop.toNat ++ leBytes 4 prof.a1.toNat ++ leBytes 4 prof.a2.toNat ++ leBytes 4 prof.d2.toNat ++ leBytes 4 prof.d1.toNat
  | .moveAbs _ strand target => leBytes 2 strand.toNat ++ leBytes 8 target.toNat
  | .moveRel _ strand distance => leBytes 2 strand.toNat ++ leBytes 8 distance.toNat
  | .jog _ strand velocity => leBytes 2 strand.toNat ++ leBytes 4 velocity.toNat
  | .groupDefine _ group count members => leBytes 1 group.toNat ++ leBytes 1 count.toNat ++ (members.flatMap fun m => leBytes 2 m.toNat)
  | .pathQueue _ group desc => leBytes 1 group.toNat ++ descBytes desc
  | .pathStart _ group => leBytes 1 group.toNat
  | .pathStop _ group decel => leBytes 1 group.toNat ++ leBytes 4 decel.toNat
  | .camLoad _ table points desc => leBytes 2 table.toNat ++ leBytes 4 points.toNat ++ descBytes desc
  | .camSwap _ table => leBytes 2 table.toNat
  | .camEdit _ table first desc => leBytes 2 table.toNat ++ leBytes 4 first.toNat ++ descBytes desc
  | .camRead _ table buffer desc => leBytes 2 table.toNat ++ leBytes 1 buffer.toNat ++ descBytes desc
  | .skeinDefine _ skein master coupling desc => leBytes 1 skein.toNat ++ leBytes 4 master.toNat ++ leBytes 1 coupling.toNat ++ descBytes desc
  | .skeinEngage _ skein strand ramp => leBytes 1 skein.toNat ++ leBytes 2 strand.toNat ++ leBytes 4 ramp.toNat
  | .skeinDisengage _ skein strand decel => leBytes 1 skein.toNat ++ leBytes 2 strand.toNat ++ leBytes 4 decel.toNat
  | .regTrim _ skein probe gain limit ramp => leBytes 1 skein.toNat ++ leBytes 1 probe.toNat ++ leBytes 4 gain.toNat ++ leBytes 4 limit.toNat ++ leBytes 4 ramp.toNat
  | .pubmapWrite _ endpoint index => leBytes 4 endpoint.toNat ++ leBytes 4 index.toNat
  | .routeEpoch .. => []
  | .setHoldCycles _ strand hold => leBytes 2 strand.toNat ++ leBytes 1 hold.toNat
  | .quadConfig _ quad mix carrier period double phase => leBytes 1 quad.toNat ++ leBytes 1 mix.toNat ++ leBytes 1 carrier.toNat ++ leBytes 4 period.toNat ++ leBytes 1 double.toNat ++ leBytes 4 phase.toNat
  | .deadtimeSet _ quad pair dead => leBytes 1 quad.toNat ++ leBytes 1 pair.toNat ++ leBytes 2 dead.toNat
  | .sdfConfig _ quad fMod osr3 osr2 => leBytes 1 quad.toNat ++ leBytes 4 fMod.toNat ++ leBytes 2 osr3.toNat ++ leBytes 1 osr2.toNat
  | .tripConfig _ quad input limit gateFault => leBytes 1 quad.toNat ++ leBytes 1 input.toNat ++ leBytes 4 limit.toNat ++ leBytes 1 gateFault.toNat
  | .auxCurve _ strand hysteresis desc => leBytes 2 strand.toNat ++ leBytes 4 hysteresis.toNat ++ descBytes desc
  | .auxCommand _ strand speed => leBytes 2 strand.toNat ++ leBytes 4 speed.toNat
  | .stepperConfig _ slot offTime split current => leBytes 1 slot.toNat ++ leBytes 2 offTime.toNat ++ leBytes 1 split.toNat ++ leBytes 4 current.toNat
  | .microstepTable _ quad desc => leBytes 1 quad.toNat ++ descBytes desc
  | .enlargerSet _ strand fb num den => leBytes 2 strand.toNat ++ leBytes 1 fb.toNat ++ leBytes 4 num.toNat ++ leBytes 4 den.toNat
  | .stepgenConfig _ stg width dirSetup => leBytes 1 stg.toNat ++ leBytes 4 width.toNat ++ leBytes 4 dirSetup.toNat
  | .tableStep _ strand address scale => leBytes 2 strand.toNat ++ leBytes 2 address.toNat ++ leBytes 2 scale.toNat
  | .fbConfig _ unit mode filter bits bandwidth => leBytes 1 unit.toNat ++ leBytes 1 mode.toNat ++ leBytes 2 filter.toNat ++ leBytes 1 bits.toNat ++ leBytes 4 bandwidth.toNat
  | .probeArm _ probe edge mode zero mask => leBytes 1 probe.toNat ++ leBytes 1 edge.toNat ++ leBytes 1 mode.toNat ++ leBytes 1 zero.toNat ++ leBytes 32 mask.toNat
  | .compareLoad _ unit source width desc => leBytes 1 unit.toNat ++ leBytes 2 source.toNat ++ leBytes 4 width.toNat ++ descBytes desc
  | .fbRead _ unit => leBytes 1 unit.toNat
  | .flyerLoad _ program desc _ => leBytes 1 program.toNat ++ descBytes desc
  | .flyerAssign _ engine program => leBytes 1 engine.toNat ++ leBytes 1 program.toNat
  | .engineRetire _ engine => leBytes 1 engine.toNat
  | .flyerDebug _ engine action => leBytes 1 engine.toNat ++ leBytes 1 action.toNat
  | .benchMode _ on password => leBytes 1 on.toNat ++ leBytes 32 password.toNat
  | .regAccess _ address write value => leBytes 4 address.toNat ++ leBytes 1 write.toNat ++ leBytes 4 value.toNat
  | .memRead _ address desc => leBytes 4 address.toNat ++ descBytes desc
  | .memWrite _ address desc => leBytes 4 address.toNat ++ descBytes desc
  | .memRepair _ bank row => leBytes 1 bank.toNat ++ leBytes 2 row.toNat
  | .bankPower _ bank mode => leBytes 1 bank.toNat ++ leBytes 1 mode.toNat
  | .stageOpen _ length => leBytes 4 length.toNat
  | .stageWrite _ handle offset count zero data => leBytes 4 handle.toNat ++ leBytes 4 offset.toNat ++ leBytes 2 count.toNat ++ leBytes 2 zero.toNat ++ data
  | .stageClose _ handle => leBytes 4 handle.toNat
  | .stageRead _ handle offset count => leBytes 4 handle.toNat ++ leBytes 4 offset.toNat ++ leBytes 2 count.toNat
  | .linkStatus _ port => leBytes 1 port.toNat
  | .domainLeave .. => []
  | .scheduleWrite _ first count desc => leBytes 4 first.toNat ++ leBytes 4 count.toNat ++ descBytes desc
  | .setCycle _ t => leBytes 2 t.toNat
  | .negativeSave .. => []
  | .publishDefine _ index source kind => leBytes 2 index.toNat ++ leBytes 4 source.toNat ++ leBytes 1 kind.toNat
  | .hostSubscribe _ desc => descBytes desc
  | .timeRead .. => []
  | .timeSelect _ domain => leBytes 1 domain.toNat
  | .timePriority _ domain priority => leBytes 1 domain.toNat ++ leBytes 1 priority.toNat
  | .ptpConfig _ args => leBytes 1 args.enable.toNat ++ leBytes 1 args.domain.toNat ++ leBytes 1 args.interval.toNat ++ leBytes 1 args.set.toNat ++ leBytes 4 args.ip.toNat ++ leBytes 4 args.mask.toNat ++ leBytes 4 args.gateway.toNat ++ leBytes 32 args.key.toNat
  | .safetyRead _ desc => descBytes desc
  | .safetyWrite _ password desc => leBytes 32 password.toNat ++ descBytes desc
  | .safetyConfirm _ password user => leBytes 32 password.toNat ++ leBytes 8 user.toNat
  | .safetyPassword _ old new user _ => leBytes 24 old.toNat ++ leBytes 24 new.toNat ++ leBytes 8 user.toNat
  | .safetyLogRead _ desc => descBytes desc
  | .safetyReset .. => []
  | .expConfig _ unit desc => leBytes 1 unit.toNat ++ descBytes desc
  | .expArm _ unit => leBytes 1 unit.toNat
  | .expRead _ unit desc => leBytes 1 unit.toNat ++ descBytes desc
  | .expDisarm _ unit => leBytes 1 unit.toNat
  | .ioConfig _ desc => descBytes desc
  | .ioDiag .. => []
  | .watchdogSet _ ms => leBytes 2 ms.toNat
  | .convTable _ converter desc => leBytes 1 converter.toNat ++ descBytes desc
  | .convRead _ converter => leBytes 1 converter.toNat
  | .crosscheckSet _ channel limit safety => leBytes 1 channel.toNat ++ leBytes 4 limit.toNat ++ leBytes 1 safety.toNat
  | .canConfig _ ctl desc => leBytes 1 ctl.toNat ++ descBytes desc
  | .canFilter _ ctl desc => leBytes 1 ctl.toNat ++ descBytes desc
  | .canBus _ ctl mode => leBytes 1 ctl.toNat ++ leBytes 1 mode.toNat
  | .canSend _ ctl buffer desc => leBytes 1 ctl.toNat ++ leBytes 1 buffer.toNat ++ descBytes desc
  | .fwWrite _ image offset last desc _ => leBytes 1 image.toNat ++ leBytes 4 offset.toNat ++ leBytes 1 last.toNat ++ descBytes desc
  | .fwSwitch .. => []
  | .fwStatus .. => []
  | .calRead _ desc => descBytes desc
  | .calWrite _ desc => descBytes desc
  | .selfTest _ function level => (leBytes 2 function.toNat) ++ leBytes 1 level.toNat
  | _ => []

/-- The request slot of a command for this device (03_host_interface.md): opcode, tag, flags (bit 0 irq), target 0, arg_len and
the 56 argument bytes. -/
def requestSlot (i : Instr) (o : Origin) : SlotWord :=
  let a := encodeArgs i
  slotOf (leBytes 2 ((opcodeOf i).getD 0).toNat ++ leBytes 1 o.tag.val ++ leBytes 1 (b2n o.irq) ++ leBytes 2 0 ++ leBytes 2 a.length ++ slice a 0 56)

/-- What the outside supplies beside the slot's own bits: the data of the descriptor's read, the salt of a new password, and the
outcome of a signature check. -/
def suppliedOf (i : Instr) : DmaInput where
  data := (descOf i).bind (·.data)
  salt := match i with
    | .safetyPassword _ _ _ _ salt => salt
    | _ => 0
  sigOk := match i with
    | .flyerLoad _ _ _ sigOk => sigOk
    | .fwWrite _ _ _ _ _ sigOk => sigOk
    | _ => false

end Sys2Proof.Machine
end

