-- ==== Sys2Proof/Machine/Scan.lean ====
section
/-! DEFINITION. The boundary scan port (R381): which instruction acts, what it reads and which balls it can drive. No row of
the opcode table moves the port (log entry 174). -/

namespace Sys2Proof.Machine

/-- IDCODE. -/
def idcode : Word := 0x19600C4F

/-- The balls boundary scan tells apart. -/
inductive Ball
  | pwm (q : QuadId) (k : Fin 12)
  | genA (q : QuadId)
  | genB (q : QuadId)
  | fout (k : Fin 16)
  | safTp (k : Fin 4)
  | other
deriving DecidableEq, Repr

/-- Balls whose cells observe only. -/
def Ball.observed : Ball → Bool
  | .other => false
  | _ => true

/-- Instructions that act only while RESET_N is low. -/
def ScanInstr.limited : ScanInstr → Bool
  | .extest | .intest | .clamp => true
  | _ => false

/-- The instruction that acts: with TRST_N low the port rests on IDCODE, and a limited instruction is BYPASS while RESET_N is
high. -/
def State.scanActs (s : State) : ScanInstr :=
  if s.scan.trstLow then .idcode
  else if s.scan.ir.limited && !s.pwr.resetLow then .bypass
  else s.scan.ir

/-- What the selected register holds when it is captured, where the manual gives it. -/
def State.scanReads (s : State) : Option Word :=
  match s.scanActs with
  | .idcode => some idcode
  | _ => none

/-- May boundary scan drive this ball? -/
def State.scanDrives (s : State) (b : Ball) : Bool := s.scanActs.limited && !b.observed

end Sys2Proof.Machine
end

