-- ==== Sys2Proof/WellFormed.lean ====
section
/-! DEFINITION. Well-formed commands: the values the manual calls wrong in themselves (R63) are out; the ranges stand
in Machine/Args.lean. -/

namespace Sys2Proof

/-- The command's operands are values the manual admits. -/
def WellFormed (i : Instr) : Bool := Machine.wellFormed i

end Sys2Proof
end

