-- ==== Sys2Proof/Safety.lean ====
section
/-! DEFINITION. The terms the claims use: when a command is served, what its service leaves, when a flyer instruction
issues, and the canonical forms a safe run keeps. -/

namespace Sys2Proof.Machine

/-! Commands (R48, R67, R70). -/

/-- The command is taken up: the distaff runs, the mailboxes serve, the response ring has room, no earlier request of the
mailbox is in hand and its turn has come (R49), no check of R48 fails, the origin is allowed the opcode (R70), and no restart
owes its end (R53). -/
abbrev Served (i : Instr) (o : Origin) (s : State) : Prop :=
  originOf i = some o ∧ s.dist.st = .running ∧ s.isReady rdyMailboxes = true ∧ s.mb[o.mb].full = false ∧
    firstOf o.mb s.dist.inHand = none ∧ turnOpen s o.mb = true ∧ acceptStatus i o s = stOk ∧
    originRefuses o.mb ((opcodeOf i).getD 0).toNat = false ∧ s.owedFor i = none

/-- A final completion waits in the mailbox, and the command's tag is held until it is written (R46, R48). -/
def State.ended (s : State) (i : Instr) (o : Origin) (st : Half) (res : List Byte) : State :=
  s.pushCmpl o.mb (finalCmpl i o st noCycle res)

/-- An S-class command has run: its effect on the state that holds its tag, then its completion OK (R67). -/
def RanShort (i : Instr) (o : Origin) (s : State) (effect : State → State) (res : List Byte) : Prop :=
  exec i s = .next ((effect (s.holdTag o.mb o.tag)).ended i o stOk res)

/-- An S-class command has run and changed nothing but its mailbox. -/
def RanRead (i : Instr) (o : Origin) (s : State) (res : List Byte) : Prop := RanShort i o s id res

/-- A long operation has begun: its tag is held and it has joined the running ones, with its data read; it frees no step of the
others (R51, R65). -/
def Started (i : Instr) (o : Origin) (s : State) (j : Instr) : Prop :=
  exec i s = .next (((s.holdTag o.mb o.tag).startLong o j).keepStepped s.dist.stepped)

/-- The next step of the distaff is one of the long operation `g` of the tag: the distaff runs, no short command is owed its
turn first, and the others have had theirs (R51). -/
abbrev MayStep (mb : MbId) (tag : Fin 32) (g : LongOp) (o : Origin) (s : State) : Prop :=
  s.dist.st = .running ∧ (s.dist.stepped = false ∨ shortWaits s = false) ∧ longAt s mb tag = some (g, o) ∧ s.dist.longs.head? = some g

/-- A set whose conditions hold at its cycle start makes the state `t`, and its command ends with that cycle (R69). -/
def SetActs (i : Instr) (o : Origin) (s t : State) : Prop := s.takeSet i = t.finishAt i o stOk t.seq.cycle

/-! Flyer instructions (R195 to R199). -/

/-- The engine is at work: it runs, or steps once for FLYER_DEBUG. -/
abbrev Runs (e : EngineId) (s : State) : Prop := s.engines[e].run = .running ∨ s.engines[e].run = .stepping

/-- The word at pc has good parity and spells an instruction (R201, R209). -/
abbrev GoodWord (e : EngineId) (s : State) : Prop :=
  s.engines[e].badParity.contains s.engines[e].pc.toNat = false ∧ s.engines[e].legalHere = true

/-- The engine issues the instruction at its pc. -/
abbrev Issues (e : EngineId) (s : State) : Prop := Runs e s ∧ GoodWord e s

/-- The instruction's memory slot is legal, and its load meets no double-bit error (R201, R207). -/
abbrev SlotLegal (m : MemSlot) : Prop := ¬(m.op = 1 ∧ m.ecc = some true) ∧ ¬(m.op = 3 ∧ 4 ≤ m.reg.toNat)

/-- Engine `e` has issued an instruction that makes it `y`: the program counter moves on by `flow`, due writes land, a
waiting halt or interrupt is taken, and the runtime goes on where the engine has come back to it. -/
def State.issued (s : State) (e : EngineId) (cycles : Nat) (flow : Flow) (y : Engine) : State :=
  ((s.setEngine e (finishIssue cycles flow { y with divs := none })).afterIssue e).tick

/-- An A-format instruction without a program flow of its own has issued with its memory slot. -/
def RanSlot (i : Instr) (e : EngineId) (m : MemSlot) (s : State) (y : Engine) : Prop :=
  exec i s = .next ((s.corrected e m).issued e 1 .next (slotOn (s.key e) s.engines[e] m y))

/-- An instruction of one or two words without a memory slot has issued. -/
def RanPlain (i : Instr) (e : EngineId) (cycles : Nat) (flow : Flow) (s : State) (y : Engine) : Prop :=
  exec i s = .next (s.issued e cycles flow y)

/-- The engine runs at an ordinary point of its program, with the user's code after it: no write, interrupt, halt, delay slot,
mode shadow, group or loop is under way, and the engine does not retire. -/
abbrev Ordinary (e : EngineId) (s : State) : Prop :=
  GoodWord e s ∧ 4096 ≤ (s.engines[e].pc + 1).toNat ∧ s.engines[e].run = .running ∧ s.engines[e].pend = [] ∧ s.engines[e].order = [] ∧ s.engines[e].delay = none ∧
    s.engines[e].shadow = false ∧ s.engines[e].gr = 0 ∧ s.engines[e].lc[(0 : Fin 2)] = 0 ∧ s.engines[e].lc[(1 : Fin 2)] = 0 ∧
    s.roles[e].haltDue = false ∧ s.roles[e].retiring = none

/-- A memory slot that does nothing (R201). -/
abbrev NoSlot (m : MemSlot) : Prop := m.op = 0 ∧ m.upd = 0

/-- The 18 bits an ALU operation stores for an exact result: saturated or wrapped as mode.sat says (R189). -/
def aluStored (x : Engine) (exact : Int) : Sample :=
  if x.mode.getLsbD 0 = true then (if exact < -131072 then 0x20000 else if 131071 < exact then 0x1FFFF else BitVec.ofInt 18 exact)
  else BitVec.ofInt 18 exact

/-- Engine `e` alone goes on by one word: the d register `dst` holds the stored result at once, z, n, v and c are as the
exact result gives them, sv is `sv`, and the flags that conditions read change one issue cycle later (R189, R190, R195). -/
def AluGives (i : Instr) (e : EngineId) (s : State) (dst : Option (BitVec 4)) (exact : Int) (carry sv : Bool) : Prop :=
  ∃ y : Engine, exec i s = .next { s.setEngine e y with free := s.free + 1 } ∧
    (∀ r : BitVec 4, y.d r.toNat = if dst = some r then aluStored s.engines[e] exact else s.engines[e].d r.toNat) ∧
    y.status.getLsbD 0 = decide (aluStored s.engines[e] exact = 0) ∧ y.status.getLsbD 1 = (aluStored s.engines[e] exact).msb ∧
    y.status.getLsbD 2 = decide (exact < -131072 ∨ 131071 < exact) ∧ y.status.getLsbD 3 = carry ∧ y.status.getLsbD 4 = sv ∧
    (∀ b : Nat, 5 ≤ b → y.status.getLsbD b = s.engines[e].status.getLsbD b) ∧ y.pc = s.engines[e].pc + 1 ∧
    y.pend = [⟨1, .flags (y.status.getLsbD 0) (y.status.getLsbD 1) (y.status.getLsbD 2) (y.status.getLsbD 3)⟩] ∧
    y = { s.engines[e] with bg := { s.engines[e].bg with d := y.bg.d }, irq := { s.engines[e].irq with d := y.irq.d }, status := y.status, pc := y.pc,
                            pend := y.pend, divs := none } ∧
    if s.engines[e].lvl = true then y.bg = s.engines[e].bg else y.irq = s.engines[e].irq

/-- The overflow sets sv where the mode saturates (R190). -/
def aluSv (x : Engine) (exact : Int) : Bool :=
  x.status.getLsbD 4 || (x.mode.getLsbD 0 && decide (exact < -131072 ∨ 131071 < exact))

/-- A d register holds `v` at once, sv is `sv`, and the engine alone goes on by one word (R195). -/
def DataGives (i : Instr) (e : EngineId) (s : State) (dst : BitVec 4) (v : Sample) (sv : Bool) : Prop :=
  ∃ y : Engine, exec i s = .next { s.setEngine e y with free := s.free + 1 } ∧
    (∀ r : BitVec 4, y.d r.toNat = if r = dst then v else s.engines[e].d r.toNat) ∧ y.pc = s.engines[e].pc + 1 ∧
    y.status.getLsbD 4 = sv ∧ (∀ b : Nat, b ≠ 4 → y.status.getLsbD b = s.engines[e].status.getLsbD b) ∧
    y = { s.engines[e] with bg := { s.engines[e].bg with d := y.bg.d }, irq := { s.engines[e].irq with d := y.irq.d }, status := y.status, pc := y.pc,
                            divs := none } ∧
    if s.engines[e].lvl = true then y.bg = s.engines[e].bg else y.irq = s.engines[e].irq

/-- Where the candidate `c` is better, it and the index stand in dst and dst + 1 at once; the slot's own update follows, and
the engine alone goes on by one word (R200, R203). -/
def ExtremeGives (i : Instr) (e : EngineId) (s : State) (dst c k : BitVec 4) (m : MemSlot) (better : Prop) : Prop :=
  ∃ y : Engine, exec i s = .next { s.setEngine e y with free := s.free + 1 } ∧
    (better → y.d dst.toNat = s.engines[e].d c.toNat ∧
      y.d (dst + 1).toNat = BitVec.ofNat 18 s.engines[e].a[(Fin.ofNat 8 k.toNat)].toNat) ∧
    (∀ r : BitVec 4, (better → r ≠ dst ∧ r ≠ dst + 1) → y.d r.toNat = s.engines[e].d r.toNat) ∧
    (∀ r : Fin 8, y.a[r] = if m.upd ≠ 0 ∧ r.val = m.a.toNat then slotAddr (s.key e) s.engines[e] r m.upd else s.engines[e].a[r]) ∧
    y.pc = s.engines[e].pc + 1 ∧
    y = { s.engines[e] with bg := { s.engines[e].bg with d := y.bg.d }, irq := { s.engines[e].irq with d := y.irq.d }, a := y.a, pc := y.pc, divs := none } ∧
    if s.engines[e].lvl = true then y.bg = s.engines[e].bg else y.irq = s.engines[e].irq

/-! Canonical stores. -/

/-- Equal contents are equal data: the banks' cells and the MRAM's write counts are listed in rising order with no entry
equal to what an unlisted one reads as. -/
abbrev Canonical (s : State) : Prop := s.mem.wf = true ∧ swf 0 s.rec_.wear = true

/-- A run of `n` steps that meets neither fault nor refusal, with the state it ends in. -/
def safeRun : Nat → State → Option State
  | 0, s => some s
  | n + 1, s =>
    match step s with
    | .next t => safeRun n t
    | _ => none

end Sys2Proof.Machine
end

