-- ==== Sys2Proof/Certificates/Slice0/Obligations.lean ====
section
/-! DEFINITION. The statements for the provers. Each docstring says what the statement claims; OBLIGATIONS.json names the rules it rests on. -/

open Sys2Proof Sys2Proof.Machine

/-- For every state and command: with the command at the front of the queue, step is exec of it on the state with the
queue's rest; on an empty queue step answers the state itself. The queue and the idle step are the model's own (log
entry 1), not the manual's. -/
def Obligations.StepRunsTheFrontCommand : Prop :=
  (∀ (s : State) (c : Instr) (rest : List Instr), s.pending = c :: rest → step s = exec c { s with pending := rest }) ∧
    ∀ s : State, s.pending = [] → step s = .next s

/-- opcode_table.json gives no row a bit encoding: decodeTableWord answers none on every word, and withFetchWord
leaves every state as it is. -/
def Obligations.NoWordSpellsACommand : Prop :=
  (∀ nbits w : Nat, decodeTableWord nbits w = none) ∧ ∀ (s : State) (nbits w : Nat), s.withFetchWord nbits w = s

/-- After reset: no ready bit is set (R28); the cycle is 125 x 250 ns (R9) and the cycle number 0; every mailbox ring
is empty with phase 1 (R47); the interrupt bits are 0 and every vector is masked (R58); every engine's mode is 0x3
(R189); the output watchdog is 100 ms, the outputs are off and in_safe is set (R333); both converters hold the one-
entry table channel 16, range 4, repeat 1, delay 0 (R336); every strand is UNBOUND and OFF (R76, R90). -/
def Obligations.ResetLeavesTheStatedValues : Prop :=
  State.reset.pwr.ready = 0 ∧ State.reset.link.sched.t = 125 ∧ State.reset.seq.cycle = 0 ∧
    (∀ m : MbId, State.reset.mb[m].reqPi = 0 ∧ State.reset.mb[m].reqCi = 0 ∧ State.reset.mb[m].rspPi = 0 ∧ State.reset.mb[m].rspCi = 0 ∧
      State.reset.mb[m].phase = true ∧ State.reset.mb[m].held = 0) ∧
    State.reset.host.intStatus = 0 ∧ State.reset.host.intMask = 0xFFFFFFFF ∧
    (∀ e : EngineId, State.reset.engines[e].mode = 3) ∧ State.reset.fio.wdgMs = 100 ∧ State.reset.fio.inSafe = true ∧
    State.reset.fio.outCmd = 0 ∧
    State.reset.fio.x.table.entries = [⟨16, 4, 1, 0⟩] ∧ State.reset.fio.y.table.entries = [⟨16, 4, 1, 0⟩] ∧
    ∀ i : StrandId, State.reset.strands[i].st = .off ∧ State.reset.strands[i].cfg.binding = .unbound

/-- State.reset lists no bank cell and no MRAM write count, so both stores are canonical; the canonical form is the
model's own way to hold memory. -/
def Obligations.ResetIsCanonical : Prop :=
  Canonical State.reset ∧ State.reset.mem.cells = [] ∧ State.reset.rec_.wear = []

/-- For every state whose bank cells and MRAM write counts are listed in rising order with no entry equal to what an
unlisted one reads as, the state after any step has the same form: whatever command ran, equal contents stay equal
data. -/
def Obligations.StepsKeepTheStoresCanonical : Prop :=
  ∀ s t : State, Canonical s → step s = .next t → Canonical t

/-- For every command and every state, exec answers a next state, and that state has the same waiting commands; a
reset keeps them too. No command of the table stops the machine. The queue is the model's own (log entry 1). -/
def Obligations.CommandsLeaveTheQueueAlone : Prop :=
  ∀ (c : Instr) (s : State), ∃ t : State, exec c s = .next t ∧ t.pending = s.pending

/-- For every distaff command i with origin o whose values the manual admits: the 64-byte slot that holds its opcode,
tag, irq flag, target 0, arg_len and its arguments packed in the order of R72 (R62) is read by the device as exactly
i, with the same opcode, tag and irq flag, not remote, and not malformed. The data of a descriptor, a new password's
salt and a signature's outcome come from outside the slot. -/
def Obligations.RequestSlotsSpellTheirCommands : Prop :=
  ∀ (i : Instr) (o : Origin), originOf i = some o → WellFormed i = true →
    (requestOf (requestSlot i o)).command o (suppliedOf i) = some i ∧
      opcodeOf i = some (BitVec.ofNat 16 (requestOf (requestSlot i o)).opcode) ∧
      (requestOf (requestSlot i o)).tag = o.tag ∧ (requestOf (requestSlot i o)).irq = o.irq ∧
      (requestOf (requestSlot i o)).remote = false ∧ (requestOf (requestSlot i o)).bad = false

/-- For every distaff command that the distaff takes up: with its tag held it is TAG_IN_USE; else with a value wrong
in itself BAD_ARG; else with a ready bit it needs clear NOT_READY; else a long operation beside 16 running ones
LONG_LIMIT. Such a request changes nothing but its mailbox's waiting completions and their order, and the turn its mailbox
has used (R49), and neither takes nor frees the tag. While the distaff is stopped the answer is BUSY_SWITCH whatever the
request. A request that passes and whose opcode its mailbox refuses ends REFUSED with reject clear. -/
def Obligations.ARequestEndsAtTheFirstCheckThatFails : Prop :=
  (∀ (i : Instr) (o : Origin) (s : State), originOf i = some o → s.dist.st = .running → s.isReady rdyMailboxes = true →
      s.mb[o.mb].full = false → firstOf o.mb s.dist.inHand = none → turnOpen s o.mb = true → acceptStatus i o s ≠ stOk →
      exec i s = .next ((s.takeRequest o.mb o.tag true).pushCmpl o.mb
        { finalCmpl i o (acceptStatus i o s) noCycle [] with reject := true })) ∧
    (∀ (i : Instr) (o : Origin) (s : State),
      acceptStatus i o s =
        if s.mb[o.mb].held.getLsbD o.tag = true ∨ s.mb[o.mb].lateHeld.getLsbD o.tag = true then 0x0013
        else if WellFormed i = false then 0x0010
        else if readyOk i s = false then 0x0011
        else if classOf i = .l ∧ 16 ≤ s.dist.longs.length + (s.dist.inHand.filter fun j => decide (classOf j = .l)).length then 0x0014
        else 0x0000) ∧
    (∀ (i : Instr) (o : Origin) (s : State), originOf i = some o → s.dist.st ≠ .running → s.isReady rdyMailboxes = true →
      s.mb[o.mb].full = false →
      exec i s = .next (s.pushCmpl o.mb { finalCmpl i o 0x0016 noCycle [] with reject := true })) ∧
    ∀ (i : Instr) (o : Origin) (s : State), originOf i = some o → s.dist.st = .running → s.isReady rdyMailboxes = true →
      s.mb[o.mb].full = false → firstOf o.mb s.dist.inHand = none → turnOpen s o.mb = true → acceptStatus i o s = stOk →
      s.owedFor i = none → originRefuses o.mb ((opcodeOf i).getD 0).toNat = true →
      exec i s = .next ((s.holdTag o.mb o.tag).pushCmpl o.mb (finalCmpl i o 0x0012 noCycle []))

/-- With the PCIe endpoint up and the mailboxes bit clear, a write of req_pi of MB0 to MB3 changes db_err of that
mailbox and nothing else: req_pi keeps its value. In the state it leaves, and in any state whose req_pi equals req_ci,
the copy of a request takes no slot; after the bit is set a doorbell for the slots that stand beyond req_ci moves
req_pi to it, and the copy then takes the slot at req_ci and moves req_ci on. -/
def Obligations.ADoorbellBeforeTheMailboxesIsIgnored : Prop :=
  (∀ (mb : MbId) (value : Word) (s : State), s.host.pcieUp = true → mb.val < 4 → s.isReady rdyMailboxes = false →
      exec (.reqPiWrite mb value) s = .next (s.modMb mb fun m => { m with dbErr := true })) ∧
    (∀ (mb : MbId) (dma : DmaInput) (s : State), (s.isReady rdyMailboxes = false ∨ s.mb[mb].reqPi = s.mb[mb].reqCi) →
      exec (.mailboxRequestCopy mb dma) s = .next s) ∧
    (∀ (mb : MbId) (value : Word) (s : State), s.host.pcieUp = true → mb.val < 4 → s.isReady rdyMailboxes = true →
      ((value.truncate 7 : BitVec 7) - s.mb[mb].reqCi).toNat ≤ 64 →
      (s.mb[mb].reqPi - s.mb[mb].reqCi).toNat ≤ ((value.truncate 7 : BitVec 7) - s.mb[mb].reqCi).toNat →
      exec (.reqPiWrite mb value) s = .next (s.modMb mb fun m => { m with reqPi := value.truncate 7 })) ∧
    ∀ (mb : MbId) (dma : DmaInput) (s : State), s.dist.st = .running → s.isReady rdyMailboxes = true →
      s.mb[mb].reqPi ≠ s.mb[mb].reqCi → s.mb[mb].full = false → turnOpen s mb = true →
      ∃ t : State, exec (.mailboxRequestCopy mb dma) s = .next t ∧ t.mb[mb].reqCi = s.mb[mb].reqCi + 1 ∧ t.mb[mb].reqPi = s.mb[mb].reqPi

/-- While the distaff runs, the mailboxes serve, a request stands at req_ci of MB0 to MB5, its mailbox's turn has come and
the response ring has room: a local request that spells command i and passes every check has its tag held and stands last in the distaff's
hands; one that fails a check has only its refusal waiting; req_ci moves on by one in each case. With the tag already
held the refusal is TAG_IN_USE. rsp_ci moves on to a value no further than rsp_pi, and any other value sets db_err
alone. -/
def Obligations.RequestsAreCopiedInRingOrder : Prop :=
  (∀ (mb : MbId) (dma : DmaInput) (s : State) (i : Instr), s.dist.st = .running → s.isReady rdyMailboxes = true →
      mb.val < 6 → s.mb[mb].reqPi ≠ s.mb[mb].reqCi → s.mb[mb].full = false → turnOpen s mb = true →
      (requestOf s.mb[mb].req[(Fin.ofNat 64 s.mb[mb].reqCi.toNat)]).remote = false →
      let r := requestOf s.mb[mb].req[(Fin.ofNat 64 s.mb[mb].reqCi.toNat)]
      let o : Origin := ⟨mb, r.tag, r.irq, none⟩
      let u := (s.wakeFn distaffFn).modMb mb fun m => { m with reqCi := m.reqCi + 1 }
      r.command o dma = some i → tagHeld s mb r.tag = false →
      exec (.mailboxRequestCopy mb dma) s = .next (
        if acceptStatus i o u = stOk then
          ((u.takeRequest mb r.tag false).modMb mb fun m => { m with held := setBit m.held r.tag true }).modDist fun d => { d with
            inHand := d.inHand ++ [i], stepped := s.dist.stepped }
        else (u.takeRequest mb r.tag true).pushCmpl mb { finalCmpl i o (acceptStatus i o u) noCycle [] with reject := true })) ∧
    (∀ (mb : MbId) (dma : DmaInput) (s : State), s.dist.st = .running → s.isReady rdyMailboxes = true →
      mb.val < 6 → s.mb[mb].reqPi ≠ s.mb[mb].reqCi → s.mb[mb].full = false → turnOpen s mb = true →
      let r := requestOf s.mb[mb].req[(Fin.ofNat 64 s.mb[mb].reqCi.toNat)]
      r.remote = false → tagHeld s mb r.tag = true →
      exec (.mailboxRequestCopy mb dma) s = .next ((((s.wakeFn distaffFn).modMb mb fun m => { m with reqCi := m.reqCi + 1 }).takeRequest mb r.tag true).pushCmpl mb
        ⟨BitVec.ofNat 16 r.opcode, r.tag, true, true, r.irq, stTagInUse, 0, noCycle, [], none⟩)) ∧
    (∀ (mb : MbId) (value : Word) (s : State), s.host.pcieUp = true → mb.val < 4 →
      exec (.rspCiWrite mb value) s = .next (
        if ((value.truncate 7 : BitVec 7) - s.mb[mb].rspCi).toNat ≤ (s.mb[mb].rspPi - s.mb[mb].rspCi).toNat then
          (s.modMb mb fun m => { m with rspCi := value.truncate 7 }).mbLevel mb
        else s.modMb mb fun m => { m with dbErr := true })) ∧
    ∀ (mb : MbId) (s : State), s.dist.st ≠ .running → s.isReady rdyMailboxes = true → mb.val < 6 →
      s.mb[mb].reqPi ≠ s.mb[mb].reqCi → s.mb[mb].full = false →
      let r := requestOf s.mb[mb].req[(Fin.ofNat 64 s.mb[mb].reqCi.toNat)]
      exec (.busySwitchAnswer mb) s = .next ((s.modMb mb fun m => { m with reqCi := m.reqCi + 1 }).pushCmpl mb
        ⟨BitVec.ofNat 16 r.opcode, r.tag, true, true, r.irq, stBusySwitch, 0, noCycle, [], none⟩)

/-- With a free response slot and a completion that may be written (a final one waits for those of earlier requests of its
mailbox, R49): the slot at rsp_pi mod 64 takes the completion's opcode, tag,
flags with the phase in bit 7, status, progress, effective cycle and result; rsp_pi moves on by one; the phase turns
over exactly when the last slot of a pass has been written; every other slot of the ring stays as it was. In a mailbox
of MB0 to MB3 whose command stops nothing, a final completion without reject frees its tag. With the ring full, or
with none waiting, nothing changes. -/
def Obligations.CompletionsAreWrittenWithThePhase : Prop :=
  (∀ (mb : MbId) (c : Cmpl) (s : State), nextCmpl s.mb[mb] = some c → s.mb[mb].full = false →
      s.dist.stopAfter = none → mb.val < 4 →
      ∃ t : State, exec (.completionWrite mb) s = .next t ∧
        t.mb[mb].rsp[(Fin.ofNat 64 s.mb[mb].rspPi.toNat)] = rspSlot c s.mb[mb].phase ∧
        (rspSlot c s.mb[mb].phase).getLsbD 31 = s.mb[mb].phase ∧
        (∀ k : Fin 64, k ≠ Fin.ofNat 64 s.mb[mb].rspPi.toNat → t.mb[mb].rsp[k] = s.mb[mb].rsp[k]) ∧
        t.mb[mb].rspPi = s.mb[mb].rspPi + 1 ∧ t.mb[mb].rspCi = s.mb[mb].rspCi ∧ t.mb[mb].pend = s.mb[mb].pend.erase c ∧
        t.mb[mb].phase = (if s.mb[mb].rspPi.toNat % 64 = 63 then !s.mb[mb].phase else s.mb[mb].phase) ∧
        t.mb[mb].held.getLsbD c.tag = (s.mb[mb].held.getLsbD c.tag && !(c.final && (!c.reject || c.remote.isSome))) ∧
        (∀ k : MbId, k ≠ mb → t.mb[k] = s.mb[k])) ∧
    ∀ (mb : MbId) (s : State), (s.mb[mb].full = true ∨ nextCmpl s.mb[mb] = none) → exec (.completionWrite mb) s = .next s

/-- The phase a completion carries is the mailbox's own: it is 1 in every mailbox after the reset state, after
POWER_ON_RESET, RESET_N_LOW and a RESET_RELEASE that ends a complete reset; a completion written to a slot before the
last leaves it, one written to slot 63 turns it over; the slot written carries the phase that stood before. The first two
rows hold the device in reset with every engine stopped, and a release of a device that is not held changes nothing.
PERST_ASSERT ends the endpoint, bench mode and the pcie bit and leaves every mailbox, rings and phase included, and every strand
as it was. -/
def Obligations.PhaseStartsAtOneAndTurnsEachPass : Prop :=
  (∀ m : MbId, State.reset.mb[m].phase = true) ∧
    (∀ (rail : Fin 8) (s : State), ∃ t : State, exec (.powerOnReset rail) s = .next t ∧ t.pwr.held = true ∧
      t.pwr.railsBad.getLsbD rail.val = true ∧ (∀ e : EngineId, t.engines[e].run = .halted) ∧
      ∀ m : MbId, t.mb[m].phase = true ∧ t.mb[m].rspPi = 0) ∧
    (∀ s : State, ∃ t : State, exec .resetNLow s = .next t ∧ t.pwr.held = true ∧ t.pwr.resetLow = true ∧
      (∀ e : EngineId, t.engines[e].run = .halted) ∧ ∀ m : MbId, t.mb[m].phase = true ∧ t.mb[m].rspPi = 0) ∧
    (∀ s : State, (s.pwr.held = true ∨ s.pwr.coldDue = true) → ∃ t : State, exec .resetRelease s = .next t ∧ t.pwr.held = false ∧
      t.rec_.log = s.rec_.log ∧ t.strands = State.reset.strands ∧ ∀ m : MbId, t.mb[m].phase = true ∧ t.mb[m].rspPi = 0) ∧
    (∀ s : State, s.pwr.held = false → s.pwr.coldDue = false → exec .resetRelease s = .next s) ∧
    (∀ s : State, ∃ t : State, exec .perstAssert s = .next t ∧ t.host.pcieUp = false ∧ t.host.bench = false ∧ t.isReady rdyPcie = false ∧
      t.mb = s.mb ∧ t.strands = s.strands) ∧
    (∀ (mb : MbId) (c : Cmpl) (s : State), mb.val < 4 → s.dist.stopAfter = none → nextCmpl s.mb[mb] = some c →
      s.mb[mb].full = false → ∃ t : State, exec (.completionWrite mb) s = .next t ∧
      (t.mb[mb].rsp[(Fin.ofNat 64 s.mb[mb].rspPi.toNat)]).getLsbD 31 = s.mb[mb].phase ∧
        t.mb[mb].phase = (s.mb[mb].phase ^^ decide (s.mb[mb].rspPi.toNat % 64 = 63)))

/-- A request from a device whose key is new enters MB6's ring while the mailboxes serve, the ring has room and fewer
than 8,192 keys are kept, and is reported delivered; a duplicate whose completion is known is answered with it again,
and one still running is dropped. A final completion closes the command it answers and waits in its mailbox; a
progress report restarts the timer; a completion of a command no longer open leaves a record alone. A delivery report
and an assumed delivery start the timer; an expired key is forgotten; an unreachable report ends a command that has
not been delivered and the timer one that has. -/
def Obligations.RemoteCommandsCrossTheLinkOnce : Prop :=
  (∀ (src : BitVec 14) (key : RemoteKey) (slot : SlotWord) (s : State),
      (s.rec_.keys.find? fun k => k.src == src && k.key == key) = none → s.rec_.keys.length < 8192 → s.isReady rdyMailboxes = true →
      (s.mb[(6 : MbId)].reqPi - s.mb[(6 : MbId)].reqCi).toNat < 64 →
      exec (.remoteRequestReceive src key slot) s = .next
        (((s.modMb 6 fun m => { m with req := m.req.set (Fin.ofNat 64 m.reqPi.toNat) slot, reqPi := m.reqPi + 1 }).modRec fun c => { c with
          keys := c.keys ++ [⟨src, key, none⟩], arrivals := c.arrivals ++ [(src, key)] }).sendFrame src kindDelivery [keyBlock key])) ∧
    (∀ (src : BitVec 14) (key : RemoteKey) (slot : SlotWord) (s : State) (k : KeptKey),
      (s.rec_.keys.find? fun k => k.src == src && k.key == key) = some k →
      exec (.remoteRequestReceive src key slot) s = .next (match k.done with
        | none => s
        | some w => s.sendFrame src kindCompletion (keyBlock key :: slotBlocks w))) ∧
    (∀ (src : BitVec 14) (key : RemoteKey) (slot : SlotWord) (s : State) (r : RemoteCmd),
      (s.rec_.remotes.find? fun r => r.rseq == key.rseq && r.target == src) = some r →
      exec (.remoteCompletionReceive src key slot) s = .next (
        if (cmplOf r src key slot).final then (s.modRec fun q => { q with remotes := q.remotes.erase r }).pushCmpl r.mb (cmplOf r src key slot)
        else ((s.startTimer r.rseq).dropReports r.mb r.tag).pushCmpl r.mb (cmplOf r src key slot))) ∧
    (∀ (src : BitVec 14) (key : RemoteKey) (slot : SlotWord) (s : State),
      (s.rec_.remotes.find? fun r => r.rseq == key.rseq && r.target == src) = none →
      exec (.remoteCompletionReceive src key slot) s = .next (s.logEvent 10 60 src.toNat key.rseq.toNat)) ∧
    (∀ (src : BitVec 14) (key : RemoteKey) (s : State), exec (.remoteKeyExpiry src key) s = .next (s.modRec fun c => { c with
      keys := c.keys.filter fun k => !(k.src == src && k.key == key) })) ∧
    (∀ (rseq : Word) (s : State), exec (.deliveryReport rseq) s = .next (s.startTimer rseq) ∧
      exec (.deliveryAssumed rseq) s = .next (s.startTimer rseq)) ∧
    (∀ (rseq : Word) (s : State), s.rec_.remotes.any (fun r => r.rseq == rseq && !r.timer) = true →
      exec (.unreachableReport rseq) s = .next (s.endRemote rseq 0x0030)) ∧
    ∀ (rseq : Word) (s : State), s.rec_.remotes.any (fun r => r.rseq == rseq && r.timer) = true →
      exec (.remoteTimerExpiry rseq) s = .next (s.endRemote rseq 0x0031)

/-- When the command is served it ends OK with its result, and nothing changes but the mailbox, whose tag is held and whose
completion waits, and the distaff's turn; FB_READ wakes the unit it reads (R35). PING returns its bytes; MB_TAGS the held tags with tag 0 in bit 0; IDENTIFY, GET_COUNTERS without
clearing, FW_STATUS, FB_READ, CONV_READ, TIME_READ and LINK_STATUS the values of the state that stands. -/
def Obligations.ReportingCommandsAnswerAndChangeNothing : Prop :=
  (∀ (o : Origin) (s : State), Served (.identify o) o s → RanRead (.identify o) o s (identityBytes s)) ∧
    (∀ (o : Origin) (bytes : List Byte) (s : State), Served (.ping o bytes) o s → RanRead (.ping o bytes) o s bytes) ∧
    (∀ (o : Origin) (mailbox : Byte) (s : State), Served (.mbTags o mailbox) o s → RanRead (.mbTags o mailbox) o s
      (leBytes 4 ((s.holdTag o.mb o.tag).mb[(Fin.ofNat 8 mailbox.toNat)].held |||
        s.mb[(Fin.ofNat 8 mailbox.toNat)].lateHeld).toNat)) ∧
    (∀ (o : Origin) (s : State), Served (.getCounters o 0) o s → RanRead (.getCounters o 0) o s (counterBytes s)) ∧
    (∀ (o : Origin) (s : State), Served (.fwStatus o) o s → RanRead (.fwStatus o) o s (fwBytes s)) ∧
    (∀ (o : Origin) (unit : Byte) (s : State), Served (.fbRead o unit) o s → RanShort (.fbRead o unit) o s
      (fun u => if unit.toNat < 48 then u.wakeFn (BitVec.ofNat 16 (0x400 + unit.toNat)) else u) (fbReadBytes s unit)) ∧
    (∀ (o : Origin) (converter : Byte) (s : State), Served (.convRead o converter) o s → RanRead (.convRead o converter) o s
      (Config.layout 0x8011 ((convOf s.fio (convArg converter)).results.toList.flatMap fun r =>
        [r.value.toNat, b2n r.over_, b2n r.uncal, r.stamp.toNat, r.count.toNat]))) ∧
    (∀ (o : Origin) (s : State), Served (.timeRead o) o s → RanRead (.timeRead o) o s
      (Config.layout 0x5101 [s.time.td1.ns.toNat, s.time.td2.ns.toNat, domIx s.time.sel, s.seq.cycle.toNat])) ∧
    ∀ (o : Origin) (port : Byte) (s : State), Served (.linkStatus o port) o s → RanRead (.linkStatus o port) o s
      (leBytes 4 (readPort s.link.ports[(Fin.ofNat 4 port.toNat)] 4) ++ leBytes 4 (readPort s.link.ports[(Fin.ofNat 4 port.toNat)] 8) ++
        leBytes 4 (readPort s.link.ports[(Fin.ofNat 4 port.toNat)] 0xC))

/-- GET_COUNTERS with clear answers the counters and then clears them; STRAND_READ answers the strand and clears the
limit and missed flags of its skein; IO_DIAG answers the diagnosis and clears what has ended; SAFETY_READ,
SAFETY_LOG_READ and CAL_READ write their descriptor's buffer from its start and end OK. Open values of GET_POWER and
STRAND_READ move the model's counter on (log entry 3). -/
def Obligations.ReadsThatClearOrWriteTheirBuffer : Prop :=
  (∀ (o : Origin) (s : State), Served (.getCounters o 1) o s → RanShort (.getCounters o 1) o s
      (fun u => allPorts.foldl (fun s p => s.modPort p fun x => { x with single := 0, missing := 0 }) (u.modSeq clearSeqCnt)) (counterBytes s)) ∧
    (∀ (o : Origin) (s : State), Served (.getPower o) o s → RanShort (.getPower o) o s State.tick (powerBytes s)) ∧
    (∀ (o : Origin) (strand : Half) (s : State), Served (.strandRead o strand) o s → RanShort (.strandRead o strand) o s
      (fun u => (match u.strands[strandIx strand].engage with
        | some e => u.modSkein e.skein fun k => { k with regLimitFlag := false, regMiss := false }
        | none => u).tick) (strandBytes s (strandIx strand))) ∧
    (∀ (o : Origin) (s : State), Served (.ioDiag o) o s → RanShort (.ioDiag o) o s (fun u => u.fio_ clearCauses) (diagBytes s.fio)) ∧
    (∀ (o : Origin) (desc : Desc) (s t : State), Served (.safetyRead o desc) o s →
      writeDesc (s.holdTag o.mb o.tag) desc 0 (storedBytes s.saf.stored.1 ++ List.replicate 48 0) = .ok t →
      exec (.safetyRead o desc) s = .next (t.ended (.safetyRead o desc) o stOk
        (leBytes 4 (readIsle t .a 0) ++ leBytes 4 (readIsle t .b 0) ++ leBytes 4 (readIsle t .a 4) ++
          leBytes 4 (SafetyCfg.inForce t.saf.stored.1).toNat ++ leBytes 2 (readIsle t .a 0xC)))) ∧
    (∀ (o : Origin) (desc : Desc) (s t : State), Served (.safetyLogRead o desc) o s →
      writeDesc (s.holdTag o.mb o.tag) desc 0 ((s.saf.log.take (desc.len.toNat / 32)).flatMap changeBytes) = .ok t →
      exec (.safetyLogRead o desc) s = .next (t.ended (.safetyLogRead o desc) o stOk
        (leBytes 2 (s.saf.log.take (desc.len.toNat / 32)).length))) ∧
    ∀ (o : Origin) (desc : Desc) (s t : State), Served (.calRead o desc) o s →
      writeDesc (s.holdTag o.mb o.tag) desc 0 (calBytes s.rec_) = .ok t →
      exec (.calRead o desc) s = .next (t.ended (.calRead o desc) o stOk [])

/-- Served, each ends OK with its effect: SYSTEM_RESET with no strand in RUN, HOLD or STOPPING asks for the complete
reset that follows its completion; DISTAFF_RESTART and FW_SWITCH (other image valid and verified) stop the distaff
after their completion; SET_CLOCK_SOURCES stores the priorities and the revert bit and the PLL selects; SET_WATERMARK
stores mark and hysteresis, and a mark the level already meets counts as a crossing; SET_LATENCY_TOLERANCE stores the
tolerance; SET_DEVICE_STATE wakes every function but the spare engine for RUN and, with nothing moving, sends them to their
standby states or makes the device dormant. With a strand moving in the armed view (R68), SYSTEM_RESET and the two low states
are REFUSED and change nothing. -/
def Obligations.SystemAndPowerCommandsAct : Prop :=
  (∀ (o : Origin) (flags : Byte) (s : State), Served (.systemReset o flags) o s →
      exec (.systemReset o flags) s = .next (
        if anyMoving (armedView (s.holdTag o.mb o.tag)) = true then (s.holdTag o.mb o.tag).ended (.systemReset o flags) o stRefused []
        else ((s.holdTag o.mb o.tag).modPwr fun p => { p with coldAsked := true }).ended (.systemReset o flags) o stOk [])) ∧
    (∀ (o : Origin) (s : State), Served (.distaffRestart o) o s → RanShort (.distaffRestart o) o s
      (fun u => u.modDist fun d => { d with stopAfter := some (o.mb, o.tag, .restarting) }) []) ∧
    (∀ (o : Origin) (s : State), Served (.fwSwitch o) o s →
      exec (.fwSwitch o) s = .next (
        if s.rec_.fw[imgIx (!s.dist.image)].valid = true ∧ s.rec_.fw[imgIx (!s.dist.image)].verified = true then
          ((s.holdTag o.mb o.tag).modDist fun d => { d with stopAfter := some (o.mb, o.tag, .switching) }).ended (.fwSwitch o) o stOk []
        else (s.holdTag o.mb o.tag).ended (.fwSwitch o) o stRefused [])) ∧
    (∀ (o : Origin) (pri0 pri1 pri2 revert : Byte) (s : State), Served (.setClockSources o pri0 pri1 pri2 revert) o s →
      RanShort (.setClockSources o pri0 pri1 pri2 revert) o s (fun u => u.modClk fun c => selectSource { c with
        pri0 := pri0.truncate 2, pri1 := pri1.truncate 2, pri2 := pri2.truncate 2, revert := revert == 1 }) []) ∧
    (∀ (o : Origin) (source : Byte) (mark hyst : Word) (s : State), Served (.setWatermark o source mark hyst) o s →
      RanShort (.setWatermark o source mark hyst) o s (setMark source mark hyst) []) ∧
    (∀ (o : Origin) (function : Half) (ns : Word) (s : State), Served (.setLatencyTolerance o function ns) o s →
      RanShort (.setLatencyTolerance o function ns) o s (setTolerance function ns) []) ∧
    (∀ (o : Origin) (s : State), Served (.setDeviceState o 0) o s → RanShort (.setDeviceState o 0) o s
      (fun u => (u.modPwr fun p => { p with dev := .run }).wakeAll) []) ∧
    (∀ (o : Origin) (s : State), Served (.setDeviceState o 1) o s → anyMoving (armedView (s.holdTag o.mb o.tag)) = false → RanShort (.setDeviceState o 1) o s
      (fun u => allFunctions.foldl (fun s f => s.enterPwr f (standbyState f)) (u.modPwr fun p => { p with dev := .standby })) []) ∧
    (∀ (o : Origin) (s : State), Served (.setDeviceState o 2) o s → anyMoving (armedView (s.holdTag o.mb o.tag)) = false → RanShort (.setDeviceState o 2) o s
      (fun u => u.goDormant o) []) ∧
    ∀ (o : Origin) (state : Byte) (s : State), Served (.setDeviceState o state) o s → state ≠ 0 → anyMoving (armedView (s.holdTag o.mb o.tag)) = true →
      exec (.setDeviceState o state) s = .next ((s.holdTag o.mb o.tag).ended (.setDeviceState o state) o stRefused [])

/-- BENCH_MODE off leaves bench mode; on with the password (or its first setting) enters it and clears bar2_denied,
and with a wrong one it is AUTH_FAIL. Outside bench mode REG_ACCESS and FLYER_DEBUG are REFUSED and change nothing but
their mailbox; in bench mode a REG_ACCESS write outside the islands is the bus write of that address, with the banks it touches woken, a read
answers the value there, or POISONED with the address of a poisoned word, and FLYER_DEBUG halts, steps or resumes the engine it names, and its quads go on but those another halted engine holds. A REG_ACCESS write into an
island's range is SAFETY_LOCKED and changes nothing, in bench mode too. -/
def Obligations.BenchAndDebugCommandsAct : Prop :=
  (∀ (o : Origin) (password : Rec32) (s : State), Served (.benchMode o 0 password) o s →
      RanShort (.benchMode o 0 password) o s (fun u => u.modHost fun h => { h with bench := false }) []) ∧
    (∀ (o : Origin) (on : Byte) (password : Rec32) (s t : State), Served (.benchMode o on password) o s → on ≠ 0 →
      (s.holdTag o.mb o.tag).checkPassword o 0 (bytesOf password) = (t, true) →
      exec (.benchMode o on password) s = .next
        ((t.modHost fun h => { h with bench := true, bar2Denied := 0 }).ended (.benchMode o on password) o stOk [])) ∧
    (∀ (o : Origin) (on : Byte) (password : Rec32) (s t : State), Served (.benchMode o on password) o s → on ≠ 0 →
      (s.holdTag o.mb o.tag).checkPassword o 0 (bytesOf password) = (t, false) →
      exec (.benchMode o on password) s = .next (t.ended (.benchMode o on password) o stAuthFail [])) ∧
    (∀ (o : Origin) (address : Word) (write : Byte) (value : Word) (s : State), Served (.regAccess o address write value) o s →
      s.host.bench = false →
      exec (.regAccess o address write value) s = .next ((s.holdTag o.mb o.tag).ended (.regAccess o address write value) o stRefused [])) ∧
    (∀ (o : Origin) (address : Word) (write : Byte) (value : Word) (s : State), Served (.regAccess o address write value) o s →
      s.host.bench = true → write ≠ 0 → islandAddr address.toNat = true →
      exec (.regAccess o address write value) s = .next ((s.holdTag o.mb o.tag).ended (.regAccess o address write value) o stSafetyLocked [])) ∧
    (∀ (o : Origin) (address : Word) (write : Byte) (value : Word) (s : State), Served (.regAccess o address write value) o s →
      s.host.bench = true → write ≠ 0 → islandAddr address.toNat = false →
      (touchedWords address.toNat = none →
        RanShort (.regAccess o address write value) o s (fun u => (u.busWrite address.toNat value).tick) []) ∧
      ∀ lo hi : Nat, touchedWords address.toNat = some (lo, hi) →
        RanShort (.regAccess o address write value) o s (fun u => ((u.wakeRange (8 * lo) (8 * hi)).busWrite address.toNat value).tick) []) ∧
    (∀ (o : Origin) (address : Word) (value : Word) (s : State), Served (.regAccess o address 0 value) o s →
      s.host.bench = true →
      (touchedWords address.toNat = none →
        RanShort (.regAccess o address 0 value) o s (fun u => (u.afterRead address.toNat).tick)
          (leBytes 4 (readInternal (s.holdTag o.mb o.tag) address.toNat).toNat)) ∧
      ∀ lo hi : Nat, touchedWords address.toNat = some (lo, hi) →
        let u := (s.holdTag o.mb o.tag).wakeRange (8 * lo) (8 * hi)
        (firstPoison u.mem (8 * lo) (8 * hi) = none → exec (.regAccess o address 0 value) s = .next
          ((u.afterRead address.toNat).tick.ended (.regAccess o address 0 value) o stOk (leBytes 4 (readInternal u address.toNat).toNat))) ∧
        ∀ g : Nat, firstPoison u.mem (8 * lo) (8 * hi) = some g → exec (.regAccess o address 0 value) s = .next
          (u.ended (.regAccess o address 0 value) o stPoisoned (leBytes 4 (8 * g)))) ∧
    (∀ (o : Origin) (engine action : Byte) (s : State), Served (.flyerDebug o engine action) o s → s.host.bench = false →
      exec (.flyerDebug o engine action) s = .next ((s.holdTag o.mb o.tag).ended (.flyerDebug o engine action) o stRefused [])) ∧
    (∀ (o : Origin) (engine : Byte) (s : State), Served (.flyerDebug o engine 0) o s → s.host.bench = true →
      RanShort (.flyerDebug o engine 0) o s (fun u =>
        (u.modRole (engineIx engine) fun r => { r with attached := true, haltDue := true }).haltIfDue (engineIx engine)) []) ∧
    (∀ (o : Origin) (engine : Byte) (s : State), Served (.flyerDebug o engine 1) o s → s.host.bench = true →
      s.engines[engineIx engine].run = .debug →
      RanShort (.flyerDebug o engine 1) o s (fun u => u.debugStep (engineIx engine)) [] ∧
        (4096 ≤ s.engines[engineIx engine].pc.toNat →
          RanShort (.flyerDebug o engine 1) o s (fun u => u.modEngine (engineIx engine) fun x => { x with run := .stepping }) [])) ∧
    ∀ (o : Origin) (engine : Byte) (s : State), Served (.flyerDebug o engine 2) o s → s.host.bench = true →
      (s.engines[engineIx engine].run = .debug → RanShort (.flyerDebug o engine 2) o s (fun u =>
        (quadsOfEngine u (engineIx engine)).foldl (fun s q =>
          if ((slotsOfQuad s q).any fun t => s.engines[t.1].run == .debug) = true then s else s.modQuad q unfreeze)
          ((u.modEngine (engineIx engine) fun x => takeInterrupt { x with run := .running }).runtime (engineIx engine))) []) ∧
      (s.engines[engineIx engine].run ≠ .debug →
        RanShort (.flyerDebug o engine 2) o s (fun u => u.modRole (engineIx engine) fun r => { r with haltDue := false }) [])

/-- STAGE_OPEN with fewer than 16 buffers open and enough bobbins takes the rounded-up length over 256 bobbins and
answers the first one's index; with 16 open it is REFUSED, and with the pool short NO_BOBBIN, the pool as it was.
STAGE_WRITE and STAGE_READ inside an open buffer wake its banks, write its bytes and answer them; past its end, and with a handle not
open, they are BAD_ARG.
STAGE_CLOSE frees the chain: the handle is then open no more; it too is BAD_ARG on a handle not open. A read that meets a poisoned word ends POISONED with the
word's address. BANK_POWER of a bank that holds none of the data R72 names stores the mode; else it is REFUSED. -/
def Obligations.StagingAndPoolCommandsAct : Prop :=
  (∀ (o : Origin) (length : Word) (s t : State) (l : List Nat), Served (.stageOpen o length) o s →
      s.mem.stages.length < 16 → s.mem.poolEn = true → (s.holdTag o.mb o.tag).grabN ((length.toNat + 255) / 256) = some (t, l) →
      exec (.stageOpen o length) s = .next ((t.modMem fun m => { m with stages := m.stages ++ [(l.headD 0, length.toNat, l)] }).ended
        (.stageOpen o length) o stOk (leBytes 4 (l.headD 0))) ∧
      l.length = (length.toNat + 255) / 256 ∧ t.mem.stages = s.mem.stages ∧ t.mem.freeCount = s.mem.freeCount - l.length) ∧
    (∀ (o : Origin) (length : Word) (s : State), Served (.stageOpen o length) o s →
      (16 ≤ s.mem.stages.length ∨ s.mem.poolEn = false ∨ (s.holdTag o.mb o.tag).grabN ((length.toNat + 255) / 256) = none) →
      exec (.stageOpen o length) s = .next ((s.holdTag o.mb o.tag).ended (.stageOpen o length) o
        (if 16 ≤ s.mem.stages.length then stRefused else stNoBobbin) [])) ∧
    (∀ (o : Origin) (handle offset : Word) (count zero : Half) (data : List Byte) (s : State) (len : Nat) (chain : List Nat),
      Served (.stageWrite o handle offset count zero data) o s → s.mem.stage handle.toNat = some (len, chain) →
      offset.toNat + data.length ≤ len →
      RanShort (.stageWrite o handle offset count zero data) o s
        (fun u => (u.wakeChain (stagePart chain offset.toNat data.length)).modMem fun m => stageWrite m chain offset.toNat data) []) ∧
    (∀ (o : Origin) (handle offset : Word) (count : Half) (s : State) (len : Nat) (chain : List Nat),
      Served (.stageRead o handle offset count) o s → s.mem.stage handle.toNat = some (len, chain) →
      offset.toNat + count.toNat ≤ len →
      let u := (s.holdTag o.mb o.tag).wakeChain (stagePart chain offset.toNat count.toNat)
      (∀ k a : Nat, k < count.toNat → stageAddr u.mem chain (offset.toNat + k) = some a → u.mem.isPoisoned (a / 8) = false) →
      exec (.stageRead o handle offset count) s = .next (u.ended (.stageRead o handle offset count) o stOk
        (stageRead u.mem chain offset.toNat count.toNat))) ∧
    (∀ (o : Origin) (handle offset : Word) (count : Half) (s : State) (len a : Nat) (chain : List Nat),
      Served (.stageRead o handle offset count) o s → s.mem.stage handle.toNat = some (len, chain) →
      offset.toNat + count.toNat ≤ len →
      let u := (s.holdTag o.mb o.tag).wakeChain (stagePart chain offset.toNat count.toNat)
      stagePoison u.mem chain offset.toNat count.toNat = some a →
      exec (.stageRead o handle offset count) s = .next (u.ended (.stageRead o handle offset count) o stPoisoned (leBytes 4 a))) ∧
    (∀ (o : Origin) (handle offset : Word) (count zero : Half) (data : List Byte) (s : State),
      (Served (.stageWrite o handle offset count zero data) o s →
        (∀ (len : Nat) (chain : List Nat), s.mem.stage handle.toNat = some (len, chain) → len < offset.toNat + data.length) →
        exec (.stageWrite o handle offset count zero data) s =
          .next ((s.holdTag o.mb o.tag).ended (.stageWrite o handle offset count zero data) o stBadArg [])) ∧
      (Served (.stageRead o handle offset count) o s →
        (∀ (len : Nat) (chain : List Nat), s.mem.stage handle.toNat = some (len, chain) → len < offset.toNat + count.toNat) →
        exec (.stageRead o handle offset count) s =
          .next ((s.holdTag o.mb o.tag).ended (.stageRead o handle offset count) o stBadArg []))) ∧
    (∀ (o : Origin) (handle : Word) (s : State) (x : Nat × List Nat),
      Served (.stageClose o handle) o s → s.mem.stage handle.toNat = some x →
      RanShort (.stageClose o handle) o s (fun u => u.closeStage handle.toNat) [] ∧
        (s.closeStage handle.toNat).mem.stage handle.toNat = none) ∧
    (∀ (o : Origin) (handle : Word) (s : State), Served (.stageClose o handle) o s → s.mem.stage handle.toNat = none →
      exec (.stageClose o handle) s = .next ((s.holdTag o.mb o.tag).ended (.stageClose o handle) o stBadArg [])) ∧
    ∀ (o : Origin) (bank mode : Byte) (s : State), Served (.bankPower o bank mode) o s →
      (bankInUse (s.holdTag o.mb o.tag) bank.toNat = false → RanShort (.bankPower o bank mode) o s
        (fun u => u.modMem fun m => m.modBank (Fin.ofNat 32 bank.toNat) fun c => { c with pmode := mode.truncate 2 }) []) ∧
      (bankInUse (s.holdTag o.mb o.tag) bank.toNat = true →
        exec (.bankPower o bank mode) s = .next ((s.holdTag o.mb o.tag).ended (.bankPower o bank mode) o stRefused []))

/-- PATH_QUEUE on a group with members in the armed view (R68) appends well-formed segments that fit the queue and answers
the free entries; records for a group that a waiting GROUP_DEFINE defines wait for it; a longer list than fits is REFUSED
and nothing is appended. CAM_EDIT of points inside the active buffer writes them in its chain in order, all of them before
it ends OK, and no table's head and no strand changes; while cycles run, points may be left for the next cycle start, at
a pace the model leaves open (log entry 165), and the command has then not ended. Past the table's end, or with no active
buffer, it is BAD_ARG. PUBMAP_WRITE replaces the entry of its endpoint, or adds one, in a new bobbin where the last is
full, or deletes it, or finds none to delete, and the banks it searches are woken; with no bobbin it ends NO_BOBBIN with the
map as it was, and at a poisoned word POISONED with its address. -/
def Obligations.TablesPathsAndMapsAreEdited : Prop :=
  (∀ (o : Origin) (group : Byte) (desc : Desc) (bs : List Byte) (rs : List PathRec) (s : State), Served (.pathQueue o group desc) o s →
      readDesc (s.holdTag o.mb o.tag) desc = .ok bs →
      let view := armedView (s.holdTag o.mb o.tag)
      let g := view.groups[groupIx group]
      g.members ≠ [] → pathRecs? g.members.length (bs.length / 96) bs = some rs → arcsOk (pathEnd view g) rs = true →
      (g.queue.length + rs.length ≤ 1024 →
        ((s.dist.orphan ++ s.dist.armed ++ s.dist.staged).any (definesGroup (groupIx group)) = false →
          RanShort (.pathQueue o group desc) o s (fun u => u.modGroup (groupIx group) (appendRecs rs))
            (leBytes 4 (1024 - (g.queue.length + rs.length)))) ∧
        ((s.dist.orphan ++ s.dist.armed ++ s.dist.staged).any (definesGroup (groupIx group)) = true →
          RanShort (.pathQueue o group desc) o s (fun u => u.modGroup (groupIx group) fun x => { x with next := x.next ++ rs })
            (leBytes 4 (1024 - (g.queue.length + rs.length)))) ∧
        ∀ x : Group, (appendRecs rs x).queue = x.queue ++ rs) ∧
      (1024 < g.queue.length + rs.length →
        exec (.pathQueue o group desc) s = .next ((s.holdTag o.mb o.tag).ended (.pathQueue o group desc) o stRefused []))) ∧
    (∀ (o : Origin) (table : Half) (first : Word) (desc : Desc) (bs : List Byte) (c : CamHead) (s : State),
      Served (.camEdit o table first desc) o s → readDesc (s.holdTag o.mb o.tag) desc = .ok bs →
      s.cams[camIx table].active = some c → first.toNat + bs.length / 8 ≤ c.count →
      let chain := s.cams[camIx table].chainActive
      let points := camPoints bs (bs.length / 8) 0
      let n := editNow s (bs.length / 8)
      ∃ t : State, exec (.camEdit o table first desc) s = .next t ∧
        t.mem = ((s.holdTag o.mb o.tag).wakeChain chain).mem.putPoints chain first.toNat (points.take n) ∧
        t.cams = s.cams ∧ t.strands = s.strands ∧
        (bs.length / 8 ≤ n → t.dist.edit = none ∧ t.mb[o.mb].pend = s.mb[o.mb].pend ++ [finalCmpl (.camEdit o table first desc) o stOk noCycle []]) ∧
        (n < bs.length / 8 → t.mb[o.mb].pend = s.mb[o.mb].pend ∧
          t.dist.edit = some ⟨.camEdit o table first desc, chain, first.toNat + n, points.drop n⟩)) ∧
    (∀ (o : Origin) (table : Half) (first : Word) (desc : Desc) (bs : List Byte) (s : State),
      Served (.camEdit o table first desc) o s → readDesc (s.holdTag o.mb o.tag) desc = .ok bs →
      (∀ c : CamHead, s.cams[camIx table].active = some c → c.count < first.toNat + bs.length / 8) →
      exec (.camEdit o table first desc) s = .next ((s.holdTag o.mb o.tag).ended (.camEdit o table first desc) o stBadArg [])) ∧
    (∀ (o : Origin) (endpoint index : Word) (s : State), Served (.pubmapWrite o endpoint index) o s → index.getLsbD 31 = false →
      let u := (s.holdTag o.mb o.tag).wakeChain s.mem.mapChain
      mapBad u.mem (endpoint.truncate 24) = none →
      (∀ j : Nat, u.mem.mapIndex (endpoint.truncate 24) = some j →
        exec (.pubmapWrite o endpoint index) s = .next ((u.modMem fun m => m.putEntry j (endpoint.truncate 24) (index.truncate 18)).ended
          (.pubmapWrite o endpoint index) o stOk [])) ∧
      (u.mem.mapIndex (endpoint.truncate 24) = none → s.mem.mapCount % 32 ≠ 0 →
        exec (.pubmapWrite o endpoint index) s = .next ((u.modMem fun m =>
          { m with mapCount := m.mapCount + 1 }.putEntry s.mem.mapCount (endpoint.truncate 24) (index.truncate 18)).ended
            (.pubmapWrite o endpoint index) o stOk [])) ∧
      (∀ (t : State) (b : Nat), u.mem.mapIndex (endpoint.truncate 24) = none → s.mem.mapCount % 32 = 0 → u.grab = (t, some b) →
        exec (.pubmapWrite o endpoint index) s = .next ((t.modMem fun q =>
          { q with mapCount := q.mapCount + 1, mapChain := q.mapChain ++ [b] }.putEntry s.mem.mapCount (endpoint.truncate 24) (index.truncate 18)).ended
            (.pubmapWrite o endpoint index) o stOk [])) ∧
      (u.mem.mapIndex (endpoint.truncate 24) = none → s.mem.mapCount % 32 = 0 → s.mem.head = 0x3FFFF →
        exec (.pubmapWrite o endpoint index) s = .next (u.ended (.pubmapWrite o endpoint index) o stNoBobbin []))) ∧
    ∀ (o : Origin) (endpoint index : Word) (s : State), Served (.pubmapWrite o endpoint index) o s →
      let u := (s.holdTag o.mb o.tag).wakeChain s.mem.mapChain
      (∀ a : Nat, mapBad u.mem (endpoint.truncate 24) = some a →
        exec (.pubmapWrite o endpoint index) s = .next (u.ended (.pubmapWrite o endpoint index) o stPoisoned (leBytes 4 a))) ∧
      (mapBad u.mem (endpoint.truncate 24) = none → index.getLsbD 31 = true →
        (∀ j : Nat, u.mem.mapIndex (endpoint.truncate 24) = some j →
          exec (.pubmapWrite o endpoint index) s = .next ((u.dropEntry j).ended (.pubmapWrite o endpoint index) o stOk [])) ∧
        (u.mem.mapIndex (endpoint.truncate 24) = none →
          exec (.pubmapWrite o endpoint index) s = .next (u.ended (.pubmapWrite o endpoint index) o stOk [])))

/-- SAFETY_CONFIRM with no unconfirmed print is REFUSED; with one, a password other than the waiting part's is AUTH_FAIL
and the right one brings the part into force, which the islands check before they evaluate, and writes the change log. SAFETY_PASSWORD replaces the password with a salted hash when
the old one is right, or when none is set and old is 0, and logs it; otherwise AUTH_FAIL. SAFETY_RESET is REFUSED
while a stopping input is still active and otherwise ends OK with no restart left waiting and no discrepancy or
channel fault on either island. -/
def Obligations.SafetyCommandsNeedTheirPassword : Prop :=
  (∀ (o : Origin) (password : Rec32) (user : BitVec 64) (s : State), Served (.safetyConfirm o password user) o s →
      s.saf.confirmed = true →
      exec (.safetyConfirm o password user) s = .next ((s.holdTag o.mb o.tag).ended (.safetyConfirm o password user) o stRefused [])) ∧
    (∀ (o : Origin) (password : Rec32) (user : BitVec 64) (s t : State) (ok : Bool), Served (.safetyConfirm o password user) o s →
      s.saf.confirmed = false → (s.holdTag o.mb o.tag).checkAgainst s.saf.stored.2 o user (bytesOf password) = (t, ok) →
      exec (.safetyConfirm o password user) s = .next (
        if ok = true then
          ((t.confirmPrint.logChange 2 o user).keepItems).ended (.safetyConfirm o password user) o stOk []
        else t.ended (.safetyConfirm o password user) o stAuthFail [])) ∧
    (∀ (o : Origin) (old new : BitVec 192) (user : BitVec 64) (salt : BitVec 128) (s : State),
      Served (.safetyPassword o old new user salt) o s → s.saf.password = none →
      exec (.safetyPassword o old new user salt) s = .next (
        if old = 0 then
          (((s.holdTag o.mb o.tag).modSaf fun q => { q with password := some ⟨salt, passwordHash salt (bytesOf new)⟩ }).keepItems.logChange
            3 o user).ended (.safetyPassword o old new user salt) o stOk []
        else (s.holdTag o.mb o.tag).ended (.safetyPassword o old new user salt) o stAuthFail [])) ∧
    (∀ (o : Origin) (old new : BitVec 192) (user : BitVec 64) (salt : BitVec 128) (s t : State) (p : Password) (ok : Bool),
      Served (.safetyPassword o old new user salt) o s → s.saf.password = some p →
      (s.holdTag o.mb o.tag).checkPassword o user (bytesOf old) = (t, ok) →
      exec (.safetyPassword o old new user salt) s = .next (
        if ok = true then
          ((t.modSaf fun q => { q with password := some ⟨salt, passwordHash salt (bytesOf new)⟩ }).keepItems.logChange 3 o user).ended
            (.safetyPassword o old new user salt) o stOk []
        else t.ended (.safetyPassword o old new user salt) o stAuthFail [])) ∧
    (∀ (o : Origin) (s : State), Served (.safetyReset o) o s → resetBlocked s = true →
      exec (.safetyReset o) s = .next ((s.holdTag o.mb o.tag).ended (.safetyReset o) o stRefused [])) ∧
    ∀ (o : Origin) (s : State), Served (.safetyReset o) o s → resetBlocked s = false →
      ∃ t : State, exec (.safetyReset o) s = .next (t.ended (.safetyReset o) o stOk []) ∧ t.saf.cfg = s.saf.cfg ∧
        ∀ (x : Island) (f : Fin 4), (t.isle x).fns[f].waitReset = false ∧ (t.isle x).fns[f].discrepancy = false ∧
          (t.isle x).fns[f].chFault = 0

/-- TIME_SELECT of a domain that is tracked selects it and switches device time to it, raising the time vector where
it was not the active one or a slew runs; of one that is not tracked it is REFUSED. TIME_PRIORITY stores the election
priority of the domain it names, of that domain alone. PTP_CONFIG from MB0 to MB4 stores the bridge's settings and, as
its set bits say, the address and the key. -/
def Obligations.TimeCommandsAct : Prop :=
  (∀ (o : Origin) (domain : Byte) (s : State), Served (.timeSelect o domain) o s →
      exec (.timeSelect o domain) s = .next (
        if (s.dom (if domain = 1 then .td1 else .td2)).lock = false then (s.holdTag o.mb o.tag).ended (.timeSelect o domain) o stRefused []
        else if s.time.active = (if domain = 1 then Dom.td1 else .td2) ∧ s.time.slewing = false then
          ((s.holdTag o.mb o.tag).modTime fun t => { t with sel := if domain = 1 then .td1 else .td2 }).ended (.timeSelect o domain) o stOk []
        else ((s.holdTag o.mb o.tag).switchTo (if domain = 1 then .td1 else .td2)).ended (.timeSelect o domain) o stOk [])) ∧
    (∀ (o : Origin) (domain priority : Byte) (s : State), Served (.timePriority o domain priority) o s →
      exec (.timePriority o domain priority) s = .next ((((s.holdTag o.mb o.tag).modDom (if domain = 1 then .td1 else .td2) fun x =>
        { x with prio := priority.truncate 4 }).keepItems).ended (.timePriority o domain priority) o stOk [])) ∧
    (∀ (o : Origin) (args : PtpArgs) (s : State), Served (.ptpConfig o args) o s → 5 ≤ o.mb.val → args.set.getLsbD 1 = true →
      exec (.ptpConfig o args) s = .next ((s.holdTag o.mb o.tag).ended (.ptpConfig o args) o stRefused [])) ∧
    ∀ (o : Origin) (args : PtpArgs) (s : State), Served (.ptpConfig o args) o s → (o.mb.val < 5 ∨ args.set.getLsbD 1 = false) →
      ∃ t : State, exec (.ptpConfig o args) s = .next (t.ended (.ptpConfig o args) o stOk []) ∧
        t.time.ptpOn = (args.enable == 1) ∧ t.time.ptpDomain = args.domain.toNat ∧ t.time.ptpInterval = args.interval.toInt ∧
        t.eth.key = (if args.set.getLsbD 1 then some args.key else s.eth.key) ∧
        (args.set.getLsbD 0 = false → t.eth.address = s.eth.address) ∧
        (args.set.getLsbD 0 = true → t.eth.address = some (args.gateway ++ args.mask ++ args.ip)) ∧ t.time.td1 = s.time.td1 ∧ t.time.td2 = s.time.td2

/-- EXP_CONFIG of a unit that is not armed, with a legal configuration whose record area overlaps no other unit's,
replaces the unit's configuration and sets its watermark mark to three quarters of the area in segments; on an armed
unit or a taken area it is REFUSED. EXP_ARM of a configured unit starts it filling (armed at once with no pre-
exposure), with every counter, pointer and flag of the record at 0; of one not configured it is REFUSED. EXP_DISARM
closes a record that is open and otherwise changes nothing. -/
def Obligations.ExposureCommandsAct : Prop :=
  (∀ (o : Origin) (unit : Byte) (desc : Desc) (bs : List Byte) (x : Exp) (s : State), Served (.expConfig o unit desc) o s →
      readDesc (s.holdTag o.mb o.tag) desc = .ok bs → exp? (s.holdTag o.mb o.tag) bs = some x →
      exec (.expConfig o unit desc) s = .next (
        if s.exps[expIx unit].busy = true ∨ areaTaken s (expIx unit) x.base x.size = true then
          (s.holdTag o.mb o.tag).ended (.expConfig o unit desc) o stRefused []
        else ((((s.holdTag o.mb o.tag).modExp (expIx unit) fun _ => x).modHost fun h => { h with
          wm := modAt h.wm (Fin.ofNat 25 (16 + (expIx unit).val)) fun w => { w with mark := x.size / 128 * 3 / 4 } }).expLevel
            (expIx unit)).ended (.expConfig o unit desc) o stOk [])) ∧
    (∀ (o : Origin) (unit : Byte) (s : State), Served (.expArm o unit) o s → s.exps[expIx unit].configured = true →
      ∃ t : State, exec (.expArm o unit) s = .next (t.ended (.expArm o unit) o stOk []) ∧
        t.exps[expIx unit].st = (if s.exps[expIx unit].pre = 0 then .armed else .filling) ∧ t.exps[expIx unit].triggers = 0 ∧
        t.exps[expIx unit].wr = 0 ∧ t.exps[expIx unit].rd = 0 ∧ t.exps[expIx unit].unread = 0 ∧ t.exps[expIx unit].dropped = 0 ∧
        t.exps[expIx unit].poisoned = false ∧ t.exps[expIx unit].trigLost = false ∧ t.exps[expIx unit].base = s.exps[expIx unit].base ∧
        (∀ u : ExpId, u ≠ expIx unit → t.exps[u] = s.exps[u]) ∧ t.strands = s.strands) ∧
    (∀ (o : Origin) (unit : Byte) (s : State), Served (.expArm o unit) o s → s.exps[expIx unit].configured = false →
      exec (.expArm o unit) s = .next ((s.holdTag o.mb o.tag).ended (.expArm o unit) o stRefused [])) ∧
    ∀ (o : Origin) (unit : Byte) (s : State), Served (.expDisarm o unit) o s → RanShort (.expDisarm o unit) o s
      (fun u => if s.exps[expIx unit].busy = true then u.closeExp (expIx unit) 2 s.stamp else u) []

/-- WATCHDOG_SET stores t_w; IO_CONFIG applies filters and safe states; CONV_TABLE holds a legal table for the
converter's next pass and is REFUSED where it would drive an excitation output for two channels; CROSSCHECK_SET stores
the check, and one with the safety bit that another would change is SAFETY_LOCKED; CAN_CONFIG and CAN_FILTER take a
legal configuration or rule list of a controller that is not bus-on and are REFUSED otherwise; CAN_BUS stores the mode
for its boundary; CAN_SEND queues a frame in a transmit buffer and is REFUSED on a receive buffer, bus-off or listen-
only. -/
def Obligations.FieldIoAndCanCommandsAct : Prop :=
  (∀ (o : Origin) (ms : Half) (s : State), Served (.watchdogSet o ms) o s →
      exec (.watchdogSet o ms) s = .next (((s.holdTag o.mb o.tag).modFio fun f => { f with wdgMs := ms.toNat }).ended (.watchdogSet o ms) o stOk [])) ∧
    (∀ (o : Origin) (desc : Desc) (bs : List Byte) (s : State), Served (.ioConfig o desc) o s →
      readDesc (s.holdTag o.mb o.tag) desc = .ok bs →
      (∀ (a : Word) (b : Half) (c d : Byte), ioConfig? bs = some (a, b, c, d) →
        exec (.ioConfig o desc) s = .next (((s.holdTag o.mb o.tag).fio_ (applyIo a b c d)).ended (.ioConfig o desc) o stOk [])) ∧
      (ioConfig? bs = none → exec (.ioConfig o desc) s = .next ((s.holdTag o.mb o.tag).ended (.ioConfig o desc) o stBadArg []))) ∧
    (∀ (o : Origin) (converter : Byte) (desc : Desc) (bs : List Byte) (t : ConvTable) (s : State), Served (.convTable o converter desc) o s →
      readDesc (s.holdTag o.mb o.tag) desc = .ok bs → convTable? (s.holdTag o.mb o.tag) bs = some t →
      exec (.convTable o converter desc) s = .next (
        if exciteClash t (convOf s.fio (otherConv (convArg converter))) = true then
          (s.holdTag o.mb o.tag).ended (.convTable o converter desc) o stRefused []
        else ((s.holdTag o.mb o.tag).modFio (modConv (convArg converter) fun c => { c with next := some t })).ended
          (.convTable o converter desc) o stOk [])) ∧
    (∀ (o : Origin) (channel : Byte) (limit : Word) (safety : Byte) (s : State), Served (.crosscheckSet o channel limit safety) o s →
      let same := decide (s.fio.xchk.channel = fin? 17 channel.toNat)
      let u := (s.holdTag o.mb o.tag).modFio fun f => { f with
        xchk := ⟨fin? 17 channel.toNat, limit.truncate 18, safety == 1, same && f.xchk.fault, if same = true then f.xchk.bad else 0,
          if same = true then f.xchk.good else 0⟩ }
      (s.fio.xchk.safety = true → (safety = 0 ∨ same = false) → exec (.crosscheckSet o channel limit safety) s = .next
        ((s.holdTag o.mb o.tag).ended (.crosscheckSet o channel limit safety) o stSafetyLocked [])) ∧
      ((s.fio.xchk.safety = false ∨ safety ≠ 0 ∧ same = true) → exec (.crosscheckSet o channel limit safety) s = .next
        ((if safety = 1 ∧ same = true ∧ s.fio.xchk.fault = true then u.xchkSafety else u).ended
          (.crosscheckSet o channel limit safety) o stOk []))) ∧
    (∀ (o : Origin) (ctl : Byte) (desc : Desc) (bs : List Byte) (g : CanCfg) (s : State), Served (.canConfig o ctl desc) o s →
      readDesc (s.holdTag o.mb o.tag) desc = .ok bs → canCfg? bs = some g →
      (busOn s.cans[canIx ctl] = true ∨ canAreaTaken s (canIx ctl) g.base = true ∨ canBound s (canIx ctl) = true →
        exec (.canConfig o ctl desc) s = .next ((s.holdTag o.mb o.tag).ended (.canConfig o ctl desc) o stRefused [])) ∧
      (busOn s.cans[canIx ctl] = false → canAreaTaken s (canIx ctl) g.base = false → canBound s (canIx ctl) = false →
        ∃ t : State, exec (.canConfig o ctl desc) s = .next (t.ended (.canConfig o ctl desc) o stOk []) ∧
          t.cans = (s.modCan (canIx ctl) (takeCanCfg g)).cans)) ∧
    (∀ (o : Origin) (ctl : Byte) (desc : Desc) (bs : List Byte) (l : List CanRule) (s : State), Served (.canFilter o ctl desc) o s →
      readDesc (s.holdTag o.mb o.tag) desc = .ok bs → canRules? (bs.length / 16) bs = some l →
      (busOn s.cans[canIx ctl] = false → (∀ r ∈ l, r.dest = 3 → s.cans[canIx ctl].cfg.rxMask.getLsbD r.buffer.val = true) →
        exec (.canFilter o ctl desc) s = .next ((((s.holdTag o.mb o.tag).modCan (canIx ctl) fun x => { x with rules := l }).storeRules
          (canIx ctl)).ended (.canFilter o ctl desc) o stOk [])) ∧
      ((busOn s.cans[canIx ctl] = true ∨ ∃ r ∈ l, r.dest = 3 ∧ s.cans[canIx ctl].cfg.rxMask.getLsbD r.buffer.val = false) →
        exec (.canFilter o ctl desc) s = .next ((s.holdTag o.mb o.tag).ended (.canFilter o ctl desc) o stRefused []))) ∧
    (∀ (o : Origin) (ctl mode : Byte) (s : State), Served (.canBus o ctl mode) o s →
      exec (.canBus o ctl mode) s = .next (((s.holdTag o.mb o.tag).modCan (canIx ctl) fun x =>
        { x with modeNext := some (mode.truncate 2) }).ended (.canBus o ctl mode) o stOk [])) ∧
    (∀ (o : Origin) (converter ctl buffer : Byte) (desc : Desc) (bs : List Byte) (s : State), readDesc (s.holdTag o.mb o.tag) desc = .ok bs →
      (Served (.convTable o converter desc) o s → convTable? (s.holdTag o.mb o.tag) bs = none →
        exec (.convTable o converter desc) s = .next ((s.holdTag o.mb o.tag).ended (.convTable o converter desc) o stBadArg [])) ∧
      (Served (.canConfig o ctl desc) o s → canCfg? bs = none →
        exec (.canConfig o ctl desc) s = .next ((s.holdTag o.mb o.tag).ended (.canConfig o ctl desc) o stBadArg [])) ∧
      (Served (.canFilter o ctl desc) o s → canRules? (bs.length / 16) bs = none →
        exec (.canFilter o ctl desc) s = .next ((s.holdTag o.mb o.tag).ended (.canFilter o ctl desc) o stBadArg [])) ∧
      (Served (.canSend o ctl buffer desc) o s → txRec? bs = none →
        exec (.canSend o ctl buffer desc) s = .next ((s.holdTag o.mb o.tag).ended (.canSend o ctl buffer desc) o stBadArg []))) ∧
    ∀ (o : Origin) (ctl buffer : Byte) (desc : Desc) (bs : List Byte) (f : CanFrame) (s : State), Served (.canSend o ctl buffer desc) o s →
      readDesc (s.holdTag o.mb o.tag) desc = .ok bs → txRec? bs = some f →
      exec (.canSend o ctl buffer desc) s = .next (
        if s.cans[canIx ctl].cfg.rxMask.getLsbD (Fin.ofNat 64 buffer.toNat).val = true ∨ (f.fdf = true ∧ s.cans[canIx ctl].cfg.fd = false) ∨
            (f.brs = true ∧ s.cans[canIx ctl].cfg.brs = false) ∨ s.cans[canIx ctl].st = .busOff ∨ s.cans[canIx ctl].mode = 2 then
          (s.holdTag o.mb o.tag).ended (.canSend o ctl buffer desc) o stRefused []
        else (((s.holdTag o.mb o.tag).canBytes (canIx ctl) (bufOff (Fin.ofNat 64 buffer.toNat))
            (recBytes ⟨f, 0, s.cans[canIx ctl].bufs[(Fin.ofNat 64 buffer.toNat)].count, 0⟩)).modCan (canIx ctl) fun x => { x with
          bufs := modAt x.bufs (Fin.ofNat 64 buffer.toNat) fun b => { b with
            record := ⟨f, 0, s.cans[canIx ctl].bufs[(Fin.ofNat 64 buffer.toNat)].count, 0⟩, pending := true } }).ended
            (.canSend o ctl buffer desc) o stOk [])

/-- For each of the 46 C-class commands of R72 (STRAND_BIND to STRAND_HOLD, PROFILE_SET, the moves, GROUP_DEFINE,
PATH_START, PATH_STOP, CAM_SWAP, the skein and map commands, QUAD_CONFIG to TABLE_STEP, FB_CONFIG, PROBE_ARM,
COMPARE_LOAD, FLYER_ASSIGN, ENGINE_RETIRE, DOMAIN_LEAVE, SET_CYCLE, PUBLISH_DEFINE, HOST_SUBSCRIBE): served, with its
descriptor's data read, and its state conditions holding in the armed view, it holds its tag and its set is staged
last, and nothing else changes; with a condition that fails it ends with that status and its set is not staged. That
staged sets count in the view is the model's reading (log entry 61). -/
def Obligations.EveryCyclicCommandIsStaged : Prop :=
  (∀ (i j : Instr) (o : Origin) (s : State), classOf i = .c → Served i o s → fetchData i (s.holdTag o.mb o.tag) = .ok j →
      checkSet j (armedView (s.holdTag o.mb o.tag)) = stOk →
      exec i s = .next ((s.holdTag o.mb o.tag).modDist fun d => { d with staged := d.staged ++ [j] })) ∧
    (∀ (i j : Instr) (o : Origin) (s : State), classOf i = .c → Served i o s → fetchData i (s.holdTag o.mb o.tag) = .ok j →
      checkSet j (armedView (s.holdTag o.mb o.tag)) ≠ stOk → s.owedFor j = none →
      exec i s = .next ((s.holdTag o.mb o.tag).pushCmpl o.mb
        (finalCmpl j o (checkSet j (armedView (s.holdTag o.mb o.tag))) noCycle []))) ∧
    ∀ (i : Instr) (o : Origin) (st : Half) (res : List Byte) (s : State), classOf i = .c → Served i o s →
      fetchData i (s.holdTag o.mb o.tag) = .error (st, res) →
      exec i s = .next ((s.holdTag o.mb o.tag).pushCmpl o.mb (finalCmpl i o st noCycle res))

/-- With a set staged and the distaff running, C_SET_ARM moves the oldest staged set to the end of the armed ones and
changes nothing else; with none staged it changes nothing. The sets armed at a cycle start act in arming order, a STOP_NOW
among them before the others, and none stays armed; what a cycle start does before them leaves the list as it is. A set
whose conditions fail there is dropped whole: its command ends REFUSED with effective_cycle 0xFFFFFFFFFFFF and the state is otherwise
as it was, but that a dropped GROUP_DEFINE takes with it the records queued for its group (R69). A set whose conditions
hold acts, and its command ends OK with the cycle of that start, except a move that waits for a ramp and SET_CYCLE,
which end later. A cycle start after the first moves the cycle number on by one. -/
def Obligations.ArmedSetsActInOrderAtACycleStart : Prop :=
  (∀ (s : State) (i : Instr) (r : List Instr), s.dist.st = .running → s.dist.staged = i :: r →
      exec .cSetArm s = .next (s.modDist fun d => { d with staged := r, armed := d.armed ++ [i] })) ∧
    (∀ s : State, s.dist.staged = [] → exec .cSetArm s = .next s) ∧
    (∀ (i : Instr) (o : Origin) (s : State), originOf i = some o → checkSet i s ≠ stOk →
      (∀ k : Fin 32, definesGroup k i = false) → s.takeSet i = s.finishAt i o stRefused noCycle) ∧
    (∀ (o : Origin) (g n : Byte) (members : List Half) (s : State), checkSet (.groupDefine o g n members) s ≠ stOk →
      s.takeSet (.groupDefine o g n members) = (s.modGroup (groupIx g) fun x => { x with next := [] }).finishAt
        (.groupDefine o g n members) o stRefused noCycle) ∧
    (∀ (i : Instr) (o : Origin) (s : State), originOf i = some o → checkSet i s = stOk →
      s.takeSet i = if endsLater i (applySet i s) = true then applySet i s
        else (applySet i s).finishAt i o stOk (applySet i s).seq.cycle) ∧
    (∀ (l : List Instr) (s : State), s.dist.orphan = [] → s.dist.armed = l → (∀ i ∈ l, isStopNow i = false) →
      s.takeSets [] = l.foldl State.takeSet (s.modDist fun d => { d with armed := [] })) ∧
    (∀ (a b : List Instr) (o : Origin) (st : Half) (s : State), s.dist.orphan = [] → s.dist.armed = a ++ .stopNow o st :: b →
      (∀ i ∈ a ++ b, isStopNow i = false) →
      s.takeSets [] = (a ++ b).foldl State.takeSet ((s.modDist fun d => { d with armed := [] }).takeSet (.stopNow o st))) ∧
    ∀ (skipped : List StrandId) (s : State), s.pwr.held = false → s.pwr.dev ≠ .dormant →
      s.beforeSets.dist.armed = s.dist.armed ∧ s.beforeSets.dist.orphan = s.dist.orphan ∧
      ∃ t : State, exec (.cycleStart skipped) s = .next t ∧
        t = (s.beforeSets.takeSets (strandsDue skipped s.beforeSets)).afterSets skipped ∧ t.dist.armed = [] ∧ t.dist.orphan = [] ∧
        t.seq.cycle = (if s.seq.running = true then s.seq.cycle + 1 else s.seq.cycle) ∧ t.seq.running = true

/-- For each strand command and each state of the strand: outside the states of R74's row the set's check is not OK,
so that it is refused on arming and dropped at the boundary. STRAND_BIND and STRAND_ARM need OFF; STRAND_CONFIG,
AUX_CURVE and ENLARGER_SET OFF, READY, FAULT or SAFE; PLY_COEFF, SET_TRANSFER, SET_SOURCE and PROFILE_SET any but
STOPPING; STRAND_ENABLE and TABLE_STEP READY; STRAND_DISABLE and STRAND_HOLD RUN or HOLD; the moves, AUX_COMMAND and
SKEIN_ENGAGE RUN; STOP RUN, HOLD or STOPPING; FAULT_RESET FAULT. STOP_NOW is refused in none. QUAD_CONFIG, SDF_CONFIG
and TRIP_CONFIG hold every strand of the quad to the row of STRAND_CONFIG, FB_CONFIG every strand of the unit. -/
def Obligations.StrandCommandsRespectTheMatrix : Prop :=
  (∀ (s : State) (o : Origin) (st : Half), s.strands[strandIx st].st ≠ .off →
      (∀ (kind : Byte) (target : Half) (fb : Byte), checkSet (.strandBind o st kind target fb) s = stRefused) ∧
        checkSet (.strandArm o st) s = stRefused) ∧
    (∀ (s : State) (o : Origin) (st : Half),
      (s.strands[strandIx st].st = .run ∨ s.strands[strandIx st].st = .hold ∨ s.strands[strandIx st].st = .stopping) →
      (∀ dS phase kP dP reaction limit : Byte, checkSet (.strandConfig o st dS phase kP dP reaction limit) s = stRefused) ∧
        (∀ (h : Word) (d : Desc), checkSet (.auxCurve o st h d) s ≠ stOk) ∧
        ∀ (fb : Byte) (num den : Word), checkSet (.enlargerSet o st fb num den) s = stRefused) ∧
    (∀ (s : State) (o : Origin) (st : Half), s.strands[strandIx st].st = .stopping →
      (∀ (ply : Byte) (d : Desc), checkSet (.plyCoeff o st ply d) s ≠ stOk) ∧
        (∀ (mode : Byte) (output : Word), checkSet (.setTransfer o st mode output) s = stRefused) ∧
        (∀ (source index : Byte) (ratio offset : Word), checkSet (.setSource o st source index ratio offset) s = stRefused) ∧
        ∀ p : ProfileArgs, checkSet (.profileSet o st p) s = stRefused) ∧
    (∀ (s : State) (o : Origin) (st : Half), s.strands[strandIx st].st ≠ .ready →
      checkSet (.strandEnable o st) s = stRefused ∧ ∀ address scale : Half, checkSet (.tableStep o st address scale) s = stRefused) ∧
    (∀ (s : State) (o : Origin) (st : Half), s.strands[strandIx st].st ≠ .run → s.strands[strandIx st].st ≠ .hold →
      checkSet (.strandDisable o st) s = stRefused ∧ ∀ release : Byte, checkSet (.strandHold o st release) s = stRefused) ∧
    (∀ (s : State) (o : Origin) (st : Half), s.strands[strandIx st].st ≠ .run →
      (∀ x : BitVec 64, checkSet (.moveAbs o st x) s = stRefused ∧ checkSet (.moveRel o st x) s = stRefused) ∧
        (∀ v : Word, checkSet (.jog o st v) s = stRefused ∧ checkSet (.auxCommand o st v) s = stRefused) ∧
        ∀ (k : Byte) (ramp : Word), checkSet (.skeinEngage o k st ramp) s = stRefused) ∧
    (∀ (s : State) (o : Origin) (st : Half) (kind : Byte) (decel : Word), s.strands[strandIx st].st ≠ .run →
      s.strands[strandIx st].st ≠ .hold → s.strands[strandIx st].st ≠ .stopping → checkSet (.stop o st kind decel) s = stRefused) ∧
    (∀ (s : State) (o : Origin) (st : Half), s.strands[strandIx st].st ≠ .fault → checkSet (.faultReset o st) s = stRefused) ∧
    (∀ (s : State) (o : Origin) (st : Half), checkSet (.stopNow o st) s = stOk) ∧
    ∀ (s : State) (o : Origin) (i : StrandId),
      (s.strands[i].st = .run ∨ s.strands[i].st = .hold ∨ s.strands[i].st = .stopping) →
      (∀ (q mix carrier : Byte) (period : Word) (double : Byte) (phase : Word), i ∈ s.strandsOfQuad (quadIx q) →
          checkSet (.quadConfig o q mix carrier period double phase) s = stRefused) ∧
        (∀ (q : Byte) (f : Word) (o3 : Half) (o2 : Byte), i ∈ s.strandsOfQuad (quadIx q) →
          checkSet (.sdfConfig o q f o3 o2) s = stRefused) ∧
        (∀ (q input : Byte) (limit : Word) (gf : Byte), i ∈ s.strandsOfQuad (quadIx q) →
          checkSet (.tripConfig o q input limit gf) s = stRefused) ∧
        ∀ (u mode : Byte) (filter : Half) (bits : Byte) (bw : Word), i ∈ s.strandsOfFb (fbIx u) →
          checkSet (.fbConfig o u mode filter bits bw) s = stRefused

/-- When its set acts at a cycle start: STRAND_ARM leaves the strand in READY with its reference on the actual
position and rearm_needed clear; STRAND_ENABLE in RUN; STRAND_DISABLE and STOP in STOPPING with a stop running;
STOP_NOW on a strand in RUN, HOLD or STOPPING in READY; STRAND_HOLD on a strand in RUN in HOLD with the hold command
set; its release on one in HOLD whose ctl.hold is 0 back in RUN; FAULT_RESET clears the fault word and leaves READY,
or OFF where rearm_needed is 1. Each such set changes the state of no other strand. -/
def Obligations.StrandStatesMoveAsTheTableGives : Prop :=
  (∀ (s : State) (o : Origin) (st : Half), checkSet (.strandArm o st) s = stOk →
      ∃ t : State, SetActs (.strandArm o st) o s t ∧ t.strands[strandIx st].st = .ready ∧ t.strands[strandIx st].rearm = false ∧
        t.strands[strandIx st].refPos = t.strands[strandIx st].actPos ∧ ∀ j : StrandId, j ≠ strandIx st → t.strands[j] = s.strands[j]) ∧
    (∀ (s : State) (o : Origin) (st : Half), checkSet (.strandEnable o st) s = stOk →
      ∃ t : State, SetActs (.strandEnable o st) o s t ∧ t.strands[strandIx st].st = .run ∧ t.strands[strandIx st].plan = none ∧
        t.strands[strandIx st].refPos = t.strands[strandIx st].actPos ∧ ∀ j : StrandId, j ≠ strandIx st → t.strands[j] = s.strands[j]) ∧
    (∀ (s : State) (o : Origin) (st : Half), checkSet (.strandDisable o st) s = stOk →
      ∃ t : State, SetActs (.strandDisable o st) o s t ∧ t.strands[strandIx st].st = .stopping ∧
        t.strands[strandIx st].stop.isSome = true ∧ ∀ j : StrandId, j ≠ strandIx st → t.strands[j] = s.strands[j]) ∧
    (∀ (s : State) (o : Origin) (st : Half) (kind : Byte) (decel : Word), checkSet (.stop o st kind decel) s = stOk →
      ∃ t : State, SetActs (.stop o st kind decel) o s t ∧ t.strands[strandIx st].st = .stopping ∧
        t.strands[strandIx st].stop.isSome = true ∧ ∀ j : StrandId, j ≠ strandIx st → t.strands[j] = s.strands[j]) ∧
    (∀ (s : State) (o : Origin) (st : Half), st ≠ 0xFFFF →
      (s.strands[strandIx st].st = .run ∨ s.strands[strandIx st].st = .hold ∨ s.strands[strandIx st].st = .stopping) →
      ∃ t : State, SetActs (.stopNow o st) o s t ∧ t.strands[strandIx st].st = .ready ∧
        ∀ j : StrandId, j ≠ strandIx st → t.strands[j].st = s.strands[j].st) ∧
    (∀ (s : State) (o : Origin) (st : Half), st ≠ 0xFFFF → (s.strands[strandIx st].st = .off ∨ s.strands[strandIx st].st = .ready ∨
      s.strands[strandIx st].st = .safe) → SetActs (.stopNow o st) o s s) ∧
    (∀ (s : State) (o : Origin) (st : Half) (release : Byte), s.strands[strandIx st].st = .run → release ≠ 1 →
      ∃ t : State, SetActs (.strandHold o st release) o s t ∧ t.strands[strandIx st].st = .hold ∧ t.strands[strandIx st].holdCmd = true ∧
        ∀ j : StrandId, j ≠ strandIx st → t.strands[j] = s.strands[j]) ∧
    (∀ (s : State) (o : Origin) (st : Half), s.strands[strandIx st].st = .hold → s.strands[strandIx st].holdCtl = false →
      ∃ t : State, SetActs (.strandHold o st 1) o s t ∧ t.strands[strandIx st].st = .run ∧ t.strands[strandIx st].holdCmd = false ∧
        ∀ j : StrandId, j ≠ strandIx st → t.strands[j] = s.strands[j]) ∧
    ∀ (s : State) (o : Origin) (st : Half), checkSet (.faultReset o st) s = stOk →
      ∃ t : State, SetActs (.faultReset o st) o s t ∧ t.strands[strandIx st].fault = 0 ∧
        t.strands[strandIx st].st = (if s.strands[strandIx st].rearm = true then .off else .ready) ∧
        ∀ j : StrandId, j ≠ strandIx st → t.strands[j] = s.strands[j]

/-- When its set acts: STRAND_BIND leaves the strand in OFF with the binding and feedback unit given, and where
STRAND_CONFIG has been received with all its other settings but the quick-stop deceleration; STRAND_CONFIG stores rates,
phase, reaction and overrun limit, and a strand in READY goes to OFF; PLY_COEFF stores a legal block of the ply it names
and no other, and a stepper block as ply 0 of a stepper or generator strand; SET_TRANSFER to manual holds the output
given, or the present one for 0x80000000, leaves a path and drops the plan and the stored move (the last three are the
model's choice, log entry 162), and to auto clears manual; SET_SOURCE stores the source; PROFILE_SET the limits, and the
quick-stop deceleration that follows from them unless a STOP has given one; SET_HOLD_CYCLES the hold. No other strand
changes. -/
def Obligations.StrandSettingsTakeEffect : Prop :=
  (∀ (s : State) (o : Origin) (st : Half) (kind : Byte) (target : Half) (fb : Byte),
      checkSet (.strandBind o st kind target fb) s = stOk →
      ∃ t : State, SetActs (.strandBind o st kind target fb) o s t ∧ t.strands[strandIx st].cfg.binding = bindingOf kind target ∧
        t.strands[strandIx st].cfg.fb = fbArg fb ∧ t.strands[strandIx st].st = .off ∧
        (s.strands[strandIx st].cfg.configured = true → t.strands[strandIx st].cfg =
          { s.strands[strandIx st].cfg with binding := bindingOf kind target, fb := fbArg fb, dq := t.strands[strandIx st].cfg.dq, dqStop := false }) ∧
        ∀ j : StrandId, j ≠ strandIx st → t.strands[j] = s.strands[j]) ∧
    (∀ (s : State) (o : Origin) (st : Half) (dS phase kP dP reaction limit : Byte),
      checkSet (.strandConfig o st dS phase kP dP reaction limit) s = stOk →
      ∃ t : State, SetActs (.strandConfig o st dS phase kP dP reaction limit) o s t ∧ t.strands[strandIx st].cfg.dS = dS.toNat ∧
        t.strands[strandIx st].cfg.kP = kP.toNat ∧ t.strands[strandIx st].cfg.dP = dP.toNat ∧
        t.strands[strandIx st].cfg.reaction = reaction.toNat ∧ t.strands[strandIx st].cfg.overrunLimit = limit.toNat ∧
        (phase ≠ 0xFF → t.strands[strandIx st].cfg.phase = phase.toNat) ∧ t.strands[strandIx st].cfg.configured = true ∧
        t.strands[strandIx st].st = (if s.strands[strandIx st].st = .ready then .off else s.strands[strandIx st].st) ∧
        ∀ j : StrandId, j ≠ strandIx st → t.strands[j] = s.strands[j]) ∧
    (∀ (s : State) (o : Origin) (st : Half) (ply : Byte) (d : Desc) (b : PlyBlock),
      (isStepLike s.strands[strandIx st].cfg.binding = false ∨ ply ≠ 0) → plyBlock? ply.toNat (Desc.bytes d) = some b → checkSet (.plyCoeff o st ply d) s = stOk →
      ∃ t : State, SetActs (.plyCoeff o st ply d) o s t ∧
        (ply = 0 → t.strands[strandIx st].cfg.cur = some b ∧ t.strands[strandIx st].cfg.vel = s.strands[strandIx st].cfg.vel ∧
          t.strands[strandIx st].cfg.pos = s.strands[strandIx st].cfg.pos) ∧
        (ply = 1 → t.strands[strandIx st].cfg.vel = some b ∧ t.strands[strandIx st].cfg.cur = s.strands[strandIx st].cfg.cur ∧
          t.strands[strandIx st].cfg.pos = s.strands[strandIx st].cfg.pos) ∧
        (ply = 2 → t.strands[strandIx st].cfg.pos = some b ∧ t.strands[strandIx st].cfg.cur = s.strands[strandIx st].cfg.cur ∧
          t.strands[strandIx st].cfg.vel = s.strands[strandIx st].cfg.vel) ∧
        ∀ j : StrandId, j ≠ strandIx st → t.strands[j] = s.strands[j]) ∧
    (∀ (s : State) (o : Origin) (st : Half) (d : Desc) (b : StepperBlock), isStepLike s.strands[strandIx st].cfg.binding = true →
      stepperBlock? (needsFs s.strands[strandIx st].cfg) (Desc.bytes d) = some b → checkSet (.plyCoeff o st 0 d) s = stOk →
      SetActs (.plyCoeff o st 0 d) o s (s.modStrand (strandIx st) fun x => { x with cfg := { x.cfg with step := some b } })) ∧
    (∀ (s : State) (o : Origin) (st : Half) (output : Word), checkSet (.setTransfer o st 1 output) s = stOk →
      SetActs (.setTransfer o st 1 output) o s ((s.leavePath (strandIx st)).modStrand (strandIx st) fun x => { x with
        manual := true, plan := none, stored := none, moveEnded := false
        ply := { x.ply with manualOut := if output = 0x80000000 then x.ply.iqRef else satInt 18 output.toInt } })) ∧
    (∀ (s : State) (o : Origin) (st : Half) (output : Word), checkSet (.setTransfer o st 0 output) s = stOk →
      SetActs (.setTransfer o st 0 output) o s (s.modStrand (strandIx st) fun x => { x with manual := false })) ∧
    (∀ (s : State) (o : Origin) (st : Half) (source index : Byte) (ratio offset : Word),
      checkSet (.setSource o st source index ratio offset) s = stOk →
      SetActs (.setSource o st source index ratio offset) o s (s.modStrand (strandIx st) fun x => { x with
        cfg := { x.cfg with source := sourceOf source index ratio offset }, extOn := false, srcRange := false })) ∧
    (∀ (s : State) (o : Origin) (st : Half) (p : ProfileArgs), checkSet (.profileSet o st p) s = stOk →
      SetActs (.profileSet o st p) o s (s.modStrand (strandIx st) fun x => { x with
        cfg := { x.cfg with profile := some (profileArg p), dq := if x.cfg.dqStop = true then x.cfg.dq else quickDecel (profileArg p) } })) ∧
    ∀ (s : State) (o : Origin) (st : Half) (hold : Byte),
      SetActs (.setHoldCycles o st hold) o s (s.modStrand (strandIx st) fun x => { x with cfg := { x.cfg with holdCycles := hold.toNat } })

/-- When its set acts: a move with no ramp running, no hold and the strand's own source plans from the present
reference with the limits that stand and ends its command; held, in manual or with another source it is stored with them;
in a jerk-limited ramp it waits, and its command ends later. GROUP_DEFINE gives the group its members, with the records queued for it, and takes them out
of every other; PATH_START runs an idle group from its members' references; PATH_STOP on a running group stops it on the
path, a harder stop that runs going on, and on an idle one discards its queue. CAM_SWAP exchanges active and shadow; SKEIN_DEFINE stores the coupling; SKEIN_ENGAGE couples the
strand with its plan dropped; SKEIN_DISENGAGE uncouples it with a stop planned; REG_TRIM stores the loop; ROUTE_EPOCH
drops every engine's map cache. -/
def Obligations.MovesPathsCamsAndSkeinsTakeEffect : Prop :=
  (∀ (s : State) (o : Origin) (st : Half), s.strands[strandIx st].deferred = none → ownReference s (strandIx st) = true →
      inRamp s (strandIx st) = false →
      (∀ target : BitVec 64, checkSet (.moveAbs o st target) s = stOk →
        SetActs (.moveAbs o st target) o s (s.startMove (strandIx st) ⟨.abs target.toInt, profileOf s.strands[strandIx st].cfg⟩)) ∧
      (∀ d : BitVec 64, checkSet (.moveRel o st d) s = stOk →
        SetActs (.moveRel o st d) o s (s.startMove (strandIx st) ⟨.rel d.toInt, profileOf s.strands[strandIx st].cfg⟩)) ∧
      ∀ v : Word, checkSet (.jog o st v) s = stOk →
        SetActs (.jog o st v) o s (s.startMove (strandIx st) ⟨.jog v.toInt, profileOf s.strands[strandIx st].cfg⟩)) ∧
    (∀ (s : State) (o : Origin) (st : Half), s.strands[strandIx st].deferred = none → ownReference s (strandIx st) = false →
      (∀ target : BitVec 64, checkSet (.moveAbs o st target) s = stOk →
        SetActs (.moveAbs o st target) o s (s.modStrand (strandIx st) fun x => { x with stored := some ⟨.abs target.toInt, profileOf x.cfg⟩ })) ∧
      (∀ d : BitVec 64, checkSet (.moveRel o st d) s = stOk →
        SetActs (.moveRel o st d) o s (s.modStrand (strandIx st) fun x => { x with stored := some ⟨.rel d.toInt, profileOf x.cfg⟩ })) ∧
      ∀ v : Word, checkSet (.jog o st v) s = stOk →
        SetActs (.jog o st v) o s (s.modStrand (strandIx st) fun x => { x with stored := some ⟨.jog v.toInt, profileOf x.cfg⟩ })) ∧
    (∀ (s : State) (o : Origin) (st : Half), s.strands[strandIx st].deferred = none → ownReference s (strandIx st) = true →
      inRamp s (strandIx st) = true →
      (∀ target : BitVec 64, checkSet (.moveAbs o st target) s = stOk → s.takeSet (.moveAbs o st target) = s.modStrand (strandIx st) fun x =>
        { x with deferred := some (⟨.abs target.toInt, profileOf x.cfg⟩, .moveAbs o st target) }) ∧
      (∀ d : BitVec 64, checkSet (.moveRel o st d) s = stOk → s.takeSet (.moveRel o st d) = s.modStrand (strandIx st) fun x =>
        { x with deferred := some (⟨.rel d.toInt, profileOf x.cfg⟩, .moveRel o st d) }) ∧
      ∀ v : Word, checkSet (.jog o st v) s = stOk → s.takeSet (.jog o st v) = s.modStrand (strandIx st) fun x =>
        { x with deferred := some (⟨.jog v.toInt, profileOf x.cfg⟩, .jog o st v) }) ∧
    (∀ (s : State) (o : Origin) (g n : Byte) (members : List Half), checkSet (.groupDefine o g n members) s = stOk →
      ∃ t : State, SetActs (.groupDefine o g n members) o s t ∧ t.groups[groupIx g].members = members.map strandIx ∧
        t.groups[groupIx g].queue = s.groups[groupIx g].next ∧ t.groups[groupIx g].running = false ∧ t.strands = s.strands ∧
        ∀ k : Fin 32, k ≠ groupIx g → ∀ i ∈ members.map strandIx, i ∉ t.groups[k].members) ∧
    (∀ (s : State) (o : Origin) (g : Byte), checkSet (.pathStart o g) s = stOk → s.groups[groupIx g].running = false →
      ∃ t : State, SetActs (.pathStart o g) o s t ∧ t.groups[groupIx g].running = true ∧ t.groups[groupIx g].s = 0 ∧
        t.groups[groupIx g].queue = s.groups[groupIx g].queue ∧
        t.groups[groupIx g].starts = s.groups[groupIx g].members.map fun i => (refNow s i).1) ∧
    (∀ (s : State) (o : Origin) (g : Byte) (decel : Word),
      ∃ t : State, SetActs (.pathStop o g decel) o s t ∧
        (s.groups[groupIx g].running = false → t.groups[groupIx g].queue = [] ∧ t.groups[groupIx g].running = false) ∧
        (s.groups[groupIx g].running = true → decel ≠ 0 →
          (s.groups[groupIx g].stopping = none → t.groups[groupIx g].stopping = some (decel.toNat : Rat)) ∧
          ∀ d : Rat, s.groups[groupIx g].stopping = some d → t.groups[groupIx g].stopping = some (max (decel.toNat : Rat) d)) ∧
        (∀ k : Fin 32, k ≠ groupIx g → t.groups[k] = s.groups[k]) ∧ t.strands = s.strands) ∧
    (∀ (s : State) (o : Origin) (table : Half), s.cams[camIx table].complete = true →
      SetActs (.camSwap o table) o s (s.modCam (camIx table) fun c => { c with
        active := c.shadow, shadow := c.active, complete := c.active.isSome
        chainActive := c.chainShadow, chainShadow := c.chainActive, epoch := c.epoch + 1 })) ∧
    (∀ (s : State) (o : Origin) (k : Byte) (master : Word) (coupling : Byte) (d : Desc) (c : SkeinCfg),
      skein? master coupling.toNat (Desc.bytes d) = some c → engagedIn s (skeinIx k) = false →
      SetActs (.skeinDefine o k master coupling d) o s (s.modSkein (skeinIx k) fun x => { x with
        cfg := some c, phiTo := 0 })) ∧
    (∀ (s : State) (o : Origin) (k : Byte) (st : Half) (ramp : Word), checkSet (.skeinEngage o k st ramp) s = stOk →
      ∃ t : State, SetActs (.skeinEngage o k st ramp) o s t ∧ (t.strands[strandIx st].engage.map (·.skein)) = some (skeinIx k) ∧
        t.strands[strandIx st].plan = none ∧ ∀ j : StrandId, j ≠ strandIx st → t.strands[j] = s.strands[j]) ∧
    (∀ (s : State) (o : Origin) (k : Byte) (st : Half) (decel : Word),
      (s.strands[strandIx st].engage.map (·.skein)) = some (skeinIx k) →
      ∃ t : State, SetActs (.skeinDisengage o k st decel) o s t ∧ t.strands[strandIx st].engage = none ∧
        t.strands[strandIx st].stop.isSome = true ∧ ∀ j : StrandId, j ≠ strandIx st → t.strands[j] = s.strands[j]) ∧
    (∀ (s : State) (o : Origin) (k probe : Byte) (gain limit ramp : Word),
      SetActs (.regTrim o k probe gain limit ramp) o s (s.modSkein (skeinIx k) fun x => { x with
        regProbe := Fin.ofNat 16 probe.toNat, regGain := gain.toInt, regLimit := limit.toNat, regRamp := ramp.toNat, regOn := true })) ∧
    ∀ (s : State) (o : Origin), ∃ t : State, SetActs (.routeEpoch o) o s t ∧ (∀ e : EngineId, t.roles[e].mapCache = []) ∧
      t.mem.pubmap = s.mem.pubmap ∧ t.strands = s.strands

/-- When its set acts: QUAD_CONFIG sets the mix and run of its quad at once and its carrier in the shadow, or at once
where the carrier did not run; DEADTIME_SET one pair's shadow dead time; SDF_CONFIG the filters; TRIP_CONFIG one limit,
or a gate-fault setting, whose input latches its event where that makes it active; STEPPER_CONFIG one chopper, and
MICROSTEP_TABLE the quad's table, with the windings of a position under TABLE_STEP driven anew; AUX_CURVE and AUX_COMMAND the
strand's curve and override; ENLARGER_SET the strand's enlarger, none for num 0; STEPGEN_CONFIG width and set-up in 5
ns units, enabled; TABLE_STEP drives the windings at the address, and scale 0 switches off; FB_CONFIG the unit,
cleared where mode or invert changes; PROBE_ARM arms; COMPARE_LOAD loads the list from its first entry. No other quad,
unit or generator changes. -/
def Obligations.DriveAndFeedbackSettingsTakeEffect : Prop :=
  (∀ (s : State) (o : Origin) (q mix carrier : Byte) (period : Word) (double : Byte) (phase : Word),
      checkSet (.quadConfig o q mix carrier period double phase) s = stOk →
      ∃ t : State, SetActs (.quadConfig o q mix carrier period double phase) o s t ∧ t.quads[quadIx q].cfg.mix = mix.truncate 2 ∧
        t.quads[quadIx q].cfg.run = true ∧ t.quads[quadIx q].sh.period = period.truncate 24 ∧
        (s.quads[quadIx q].cfg.run = false → t.quads[quadIx q].cfg.period = period.truncate 24) ∧
        (s.quads[quadIx q].cfg.run = true → t.quads[quadIx q].cfg.period = s.quads[quadIx q].cfg.period) ∧
        ∀ k : QuadId, k ≠ quadIx q → t.quads[k] = s.quads[k]) ∧
    (∀ (s : State) (o : Origin) (q p : Byte) (dead : Half), checkSet (.deadtimeSet o q p dead) s = stOk →
      SetActs (.deadtimeSet o q p dead) o s (s.modQuad (quadIx q) fun x => { x with sh := { x.sh with dead := x.sh.dead.set (pairArg p) dead } })) ∧
    (∀ (s : State) (o : Origin) (q : Byte) (f : Word) (o3 : Half) (o2 : Byte), checkSet (.sdfConfig o q f o3 o2) s = stOk →
      ∃ t : State, SetActs (.sdfConfig o q f o3 o2) o s t ∧ t.quads[quadIx q].cfg = withFilter s.quads[quadIx q].cfg f o3 o2 ∧
        t.quads[quadIx q].cfg.clkEn = true ∧ ∀ k : QuadId, k ≠ quadIx q → t.quads[k] = s.quads[k]) ∧
    (∀ (s : State) (o : Origin) (q input : Byte) (limit : Word) (gf : Byte), checkSet (.tripConfig o q input limit gf) s = stOk →
      (input.toNat < 12 → SetActs (.tripConfig o q input limit gf) o s (s.modQuad (quadIx q) fun x => { x with
        cfg := tripFields input limit gf x.cfg, sh := tripFields input limit gf x.sh })) ∧
      ∀ g : SlotId, input.toNat = 16 + g.val → ∃ t : State, SetActs (.tripConfig o q input limit gf) o s t ∧
        t.quads[quadIx q].cfg = tripFields input limit gf s.quads[quadIx q].cfg ∧ t.quads[quadIx q].sh = tripFields input limit gf s.quads[quadIx q].sh ∧
        (quadEnabled s (quadIx q) = true → gateActive s.quads[quadIx q] g = false → gateActive t.quads[quadIx q] g = true →
          t.quads[quadIx q].gfEvent.getLsbD g.val = true) ∧ ∀ k : QuadId, k ≠ quadIx q → t.quads[k] = s.quads[k]) ∧
    (∀ (s : State) (o : Origin) (slot : Byte) (off : Half) (split : Byte) (cur : Word), checkSet (.stepperConfig o slot off split cur) s = stOk →
      SetActs (.stepperConfig o slot off split cur) o s (s.modQuad (positionIx slot).1 fun x =>
        redriveTable (s.key 0) (positionIx slot).2 { x with
          choppers := x.choppers.set (positionIx slot).2 (some ⟨off.toNat, split.toNat, cur.toNat⟩) })) ∧
    (∀ (s : State) (o : Origin) (q : Byte) (d : Desc), checkSet (.microstepTable o q d) s = stOk →
      ∃ t : State, SetActs (.microstepTable o q d) o s t ∧ t.quads[quadIx q].cfg.microstep = microstepTable? (Desc.bytes d) ∧
        (microstepTable? (Desc.bytes d)).isSome = true ∧
        ((∀ p : Fin 6, s.quads[quadIx q].tableDrive[p] = none) → t.quads[quadIx q].windings = s.quads[quadIx q].windings) ∧
        ∀ k : QuadId, k ≠ quadIx q → t.quads[k] = s.quads[k]) ∧
    (∀ (s : State) (o : Origin) (st : Half) (h : Word) (d : Desc), checkSet (.auxCurve o st h d) s = stOk →
      SetActs (.auxCurve o st h d) o s (s.modStrand (strandIx st) fun x => { x with cfg := { x.cfg with aux := auxCurve? h.toNat (Desc.bytes d) } })) ∧
    (∀ (s : State) (o : Origin) (st : Half) (speed : Word), checkSet (.auxCommand o st speed) s = stOk →
      SetActs (.auxCommand o st speed) o s (s.modStrand (strandIx st) fun x => { x with
        aux := { x.aux with override := if speed = 0x80000000 then none else some speed.toInt } })) ∧
    (∀ (s : State) (o : Origin) (st : Half) (fb : Byte) (num den : Word), checkSet (.enlargerSet o st fb num den) s = stOk →
      ∃ t : State, SetActs (.enlargerSet o st fb num den) o s t ∧ t.strands[strandIx st].cfg.enlarger =
          (if num = 0 then none else some ⟨Fin.ofNat 48 fb.toNat, num.toNat, den.toNat⟩) ∧
        ∀ j : StrandId, j ≠ strandIx st → t.strands[j] = s.strands[j]) ∧
    (∀ (s : State) (o : Origin) (g : Byte) (w d : Word), checkSet (.stepgenConfig o g w d) s = stOk →
      SetActs (.stepgenConfig o g w d) o s (s.modStg (stgIx g) fun x => { x with
        cfg := { x.cfg with width := BitVec.ofNat 15 (to5ns w.toNat), dirSetup := BitVec.ofNat 15 (to5ns d.toNat), enable := true }
        sh := { x.cfg with width := BitVec.ofNat 15 (to5ns w.toNat), dirSetup := BitVec.ofNat 15 (to5ns d.toNat), enable := true } })) ∧
    (∀ (s : State) (o : Origin) (st address scale : Half) (q : QuadId) (p : Fin 6), checkSet (.tableStep o st address scale) s = stOk →
      s.strands[strandIx st].cfg.binding = .stepper q p → scale ≠ 0 →
      ∃ t : State, SetActs (.tableStep o st address scale) o s t ∧ t.quads[q].tableDrive[p] = some (address.toNat, scale.toNat) ∧
        t.strands[strandIx st].msAddr = address.toNat ∧ t.strands[strandIx st].st = s.strands[strandIx st].st) ∧
    (∀ (s : State) (o : Origin) (st address : Half) (q : QuadId) (p : Fin 6), checkSet (.tableStep o st address 0) s = stOk →
      s.strands[strandIx st].cfg.binding = .stepper q p →
      ∃ t : State, SetActs (.tableStep o st address 0) o s t ∧ t.quads[q].tableDrive[p] = none ∧ t.strands = s.strands ∧
        t.quads[q].force = forceBits s.quads[q].force (ownedPairs (.stepper q p)) 3) ∧
    (∀ (s : State) (o : Origin) (u mode : Byte) (filter : Half) (bits : Byte) (bw : Word), checkSet (.fbConfig o u mode filter bits bw) s = stOk →
      ∃ t : State, SetActs (.fbConfig o u mode filter bits bw) o s t ∧ t.fbs[fbIx u].cfg = fbCfgOf mode filter bits bw ∧
        t.fbs[fbIx u].sh = fbCfgOf mode filter bits bw ∧
        (s.fbs[fbIx u].cfg.mode = (fbCfgOf mode filter bits bw).mode → s.fbs[fbIx u].cfg.invert = (fbCfgOf mode filter bits bw).invert →
          t.fbs[fbIx u].count = s.fbs[fbIx u].count) ∧
        (s.fbs[fbIx u].cfg.mode ≠ (fbCfgOf mode filter bits bw).mode ∨ s.fbs[fbIx u].cfg.invert ≠ (fbCfgOf mode filter bits bw).invert →
          t.fbs[fbIx u].count = 0 ∧ t.fbs[fbIx u].qerr = 0) ∧ ∀ k : FbId, k ≠ fbIx u → t.fbs[k] = s.fbs[k]) ∧
    (∀ (s : State) (o : Origin) (p edge mode zero : Byte) (mask : Rec32),
      SetActs (.probeArm o p edge mode zero mask) o s (s.modProbe (probeIx p) fun x => { x with
        cfg := ⟨edge.truncate 2, mode == 1, mask⟩, armed := true })) ∧
    ∀ (s : State) (o : Origin) (u : Byte) (src : Half) (w : Word) (d : Desc) (c : CompareCfg), compare? src w (Desc.bytes d) = some c →
      ∃ t : State, SetActs (.compareLoad o u src w d) o s t ∧ t.cmps[cmpIx u].cfg = some c ∧ t.cmps[cmpIx u].enable = true ∧
        t.cmps[cmpIx u].pointer = 0 ∧ t.cmps[cmpIx u].idle = false ∧ ∀ k : CmpId, k ≠ cmpIx u → t.cmps[k] = s.cmps[k]

/-- When its set acts: FLYER_ASSIGN gives the engine the program, marks it loading, keeps its mode, sets its data,
accumulator and address registers and its status to 0, and calls the program's first entry where it has one, with the
return to the runtime in lr; ENGINE_RETIRE moves the strands the engine works for and its program to the spare, which is
then spare no more; DOMAIN_LEAVE ends the device's membership; SET_CYCLE distributes the schedule with the new T and keeps
its command open, or ends it REFUSED where this device refuses, with the device and the strand in its result; PUBLISH_DEFINE stores the user publication in place of an earlier one of its index; HOST_SUBSCRIBE
stores the list. -/
def Obligations.EngineAndDomainSetsTakeEffect : Prop :=
  (∀ (s : State) (o : Origin) (e p : Byte), checkSet (.flyerAssign o e p) s = stOk →
      ∃ t : State, SetActs (.flyerAssign o e p) o s t ∧ t.roles[engineIx e].program = fin? 16 p.toNat ∧
        t.roles[engineIx e].image = ((fin? 16 p.toNat).bind fun k => s.progs[k]) ∧
        t.roles[engineIx e].loading = true ∧ t.engines[engineIx e].mode = s.engines[engineIx e].mode ∧
        (∀ r : Fin 16, t.engines[engineIx e].bg.d[r] = 0 ∧ t.engines[engineIx e].irq.d[r] = 0) ∧
        (∀ r : Fin 4, t.engines[engineIx e].bg.ac[r] = 0 ∧ t.engines[engineIx e].irq.ac[r] = 0) ∧
        (∀ r : Fin 8, t.engines[engineIx e].a[r] = 0) ∧ t.engines[engineIx e].status = 0 ∧
        (∀ (k : Fin 16) (im : FlyerImage), fin? 16 p.toNat = some k → s.progs[k] = some im → im.entries.getD 0 0 ≠ 0 →
          t.engines[engineIx e].pc = BitVec.ofNat 14 (im.entries.getD 0 0) ∧ t.engines[engineIx e].lr = retAddr .dispatch) ∧
        ∀ k : EngineId, k ≠ engineIx e → t.engines[k] = s.engines[k]) ∧
    (∀ (s : State) (o : Origin) (e : Byte) (sp : EngineId), checkSet (.engineRetire o e) s = stOk → spareOf s = some sp → sp ≠ engineIx e →
      ∃ t : State, SetActs (.engineRetire o e) o s t ∧ t.roles[sp].spare = false ∧ t.roles[sp].program = s.roles[engineIx e].program ∧
        ∀ i : StrandId, t.strands[i] = (if s.strands[i].engine = engineIx e ∧ s.strands[i].cfg.binding ≠ .unbound then
          { s.strands[i] with engine := sp } else s.strands[i])) ∧
    (∀ (s : State) (o : Origin), checkSet (.domainLeave o) s = stOk →
      SetActs (.domainLeave o) o s (s.modLink fun l => { l with member := false, joining := false })) ∧
    (∀ (s : State) (o : Origin) (t : Half) (r : SchedRefusal), checkSet (.setCycle o t) s = stOk → ownRefusal s t.toNat = some r →
      s.takeSet (.setCycle o t) = s.finish (.setCycle o t) o stRefused (refusalBytes r)) ∧
    (∀ (s : State) (o : Origin) (t : Half), checkSet (.setCycle o t) s = stOk → ownRefusal s t.toNat = none →
      s.takeSet (.setCycle o t) = (s.modLink fun l => { l with
        next := some (agreed s (cycleSchedule s t)), setCycle := some (.setCycle o t) }).emit (.schedule (agreed s (cycleSchedule s t)).gen)) ∧
    (∀ (s : State) (o : Origin) (index : Half) (source : Word) (kind : Byte),
      SetActs (.publishDefine o index source kind) o s
        { s with userPubs := (s.userPubs.filter fun u => u.index != index.toNat) ++ [⟨index.toNat, source, kind⟩] }) ∧
    ∀ (s : State) (o : Origin) (d : Desc) (l : List (BitVec 24)), checkSet (.hostSubscribe o d) s = stOk → subs? ((Desc.bytes d).length / 4) (Desc.bytes d) = some l →
      SetActs (.hostSubscribe o d) o s (s.modHost fun h => { h with subList := l })

/-- Served, with its descriptor's data read or its staging buffer long enough: LOG_READ, FLYER_LOAD, NEGATIVE_SAVE,
EXP_READ, CAL_WRITE and MEM_READ start; CAM_LOAD starts with a well-formed descriptor, CAM_READ where the table fits
the descriptor, MEM_WRITE in bench mode, MEM_REPAIR with a spare row left, SCHEDULE_WRITE on the domain master,
FW_WRITE on the image that does not run, and, in the armed view (R68), SAFETY_WRITE with no strand moving and SELF_TEST with
every strand of the function in OFF. Each holds its tag and joins the long operations; nothing else changes. -/
def Obligations.LongCommandsStart : Prop :=
  (∀ (o : Origin) (first count : Word) (d : Desc) (s : State), Served (.logRead o first count d) o s → outDescOk (s.holdTag o.mb o.tag) d = true →
      Started (.logRead o first count d) o s (.logRead o first count d)) ∧
    (∀ (o : Origin) (table : Half) (points : Word) (d : Desc) (bs : List Byte) (c : CamBuf) (s : State), Served (.camLoad o table points d) o s →
      readDesc (s.holdTag o.mb o.tag) d = .ok bs → camBuf? bs points.toNat = some c →
      Started (.camLoad o table points d) o s (.camLoad o table points { d with data := some bs })) ∧
    (∀ (o : Origin) (table : Half) (buffer : Byte) (d : Desc) (s : State), Served (.camRead o table buffer d) o s → outDescOk (s.holdTag o.mb o.tag) d = true →
      camSize (camBuffer table buffer s) ≤ d.len.toNat → Started (.camRead o table buffer d) o s (.camRead o table buffer d)) ∧
    (∀ (o : Origin) (program : Byte) (d : Desc) (sig : Bool) (bs : List Byte) (s : State), Served (.flyerLoad o program d sig) o s →
      readDesc (s.holdTag o.mb o.tag) d = .ok bs →
      Started (.flyerLoad o program d sig) o s (.flyerLoad o program { d with data := some bs } sig)) ∧
    (∀ (o : Origin) (address : Word) (d : Desc) (s : State), Served (.memRead o address d) o s → outDescOk (s.holdTag o.mb o.tag) d = true →
      Started (.memRead o address d) o s (.memRead o address d)) ∧
    (∀ (o : Origin) (address : Word) (d : Desc) (bs : List Byte) (s : State), Served (.memWrite o address d) o s →
      readDesc (s.holdTag o.mb o.tag) d = .ok bs → s.host.bench = true →
      Started (.memWrite o address d) o s (.memWrite o address { d with data := some bs })) ∧
    (∀ (o : Origin) (bank : Byte) (row : Half) (s : State), Served (.memRepair o bank row) o s →
      s.mem.banks[(Fin.ofNat 32 bank.toNat)].spares < 64 → Started (.memRepair o bank row) o s (.memRepair o bank row)) ∧
    (∀ (o : Origin) (first count : Word) (d : Desc) (bs : List Byte) (s : State), Served (.scheduleWrite o first count d) o s →
      readDesc (s.holdTag o.mb o.tag) d = .ok bs → s.link.master = true →
      Started (.scheduleWrite o first count d) o s (.scheduleWrite o first count { d with data := some bs })) ∧
    (∀ (o : Origin) (s : State), Served (.negativeSave o) o s → Started (.negativeSave o) o s (.negativeSave o)) ∧
    (∀ (o : Origin) (password : Rec32) (d : Desc) (bs : List Byte) (s : State), Served (.safetyWrite o password d) o s →
      readDesc (s.holdTag o.mb o.tag) d = .ok bs → anyMoving (armedView (s.holdTag o.mb o.tag)) = false →
      Started (.safetyWrite o password d) o s (.safetyWrite o password { d with data := some bs })) ∧
    (∀ (o : Origin) (unit : Byte) (d : Desc) (s : State), Served (.expRead o unit d) o s → outDescOk (s.holdTag o.mb o.tag) d = true →
      Started (.expRead o unit d) o s (.expRead o unit d)) ∧
    (∀ (o : Origin) (image : Byte) (offset : Word) (last : Byte) (d : Desc) (sig : Bool) (bs : List Byte) (s : State),
      Served (.fwWrite o image offset last d sig) o s → readDesc (s.holdTag o.mb o.tag) d = .ok bs → (image == 1) ≠ s.dist.image →
      Started (.fwWrite o image offset last d sig) o s (.fwWrite o image offset last { d with data := some bs } sig)) ∧
    (∀ (o : Origin) (d : Desc) (bs : List Byte) (s : State), Served (.calWrite o d) o s → readDesc (s.holdTag o.mb o.tag) d = .ok bs →
      Started (.calWrite o d) o s (.calWrite o { d with data := some bs })) ∧
    ∀ (o : Origin) (f : Half) (level : Byte) (s : State), Served (.selfTest o f level) o s →
      checkSelfTest f (armedView (s.holdTag o.mb o.tag)) = stOk → Started (.selfTest o f level) o s (.selfTest o f level)

/-- A step of a tag that holds no long operation, or out of the operation's turn (R51), changes nothing. In its turn, while
the distaff runs, a step that does not end the operation moves it behind the others, with an IN_PROGRESS completion where one
is asked for or due; and of the steps that end one: the last step of CAM_LOAD puts the table into the shadow buffer, complete, the active one as it was; the last
of FLYER_LOAD stores a program that passes its checks and the policy in its slot; MEM_WRITE of one step merges its
bytes into the banks; the last of FW_WRITE with a good signature makes its image valid and verified; the second of
CAL_WRITE replaces the set, which holds from the next boot on, so that no ready bit changes (log entry 76); the end of SELF_TEST returns the function to service. Each then ends
its command OK. -/
def Obligations.LongOperationsStepToTheirEnd : Prop :=
  (∀ (mb : MbId) (tag : Fin 32) (x : StepInput) (s : State), longAt s mb tag = none → exec (.longOperationStep mb tag x) s = .next s) ∧
    (∀ (mb : MbId) (tag : Fin 32) (x : StepInput) (g : LongOp) (o : Origin) (s t : State) (phase progress : Nat), MayStep mb tag g o s → g.cancel = false → longStep g x s = .goOn t phase progress →
      exec (.longOperationStep mb tag x) s = .next (
        if x.report = true ∨ reportDue t g = true then
          (t.modDist (nextTurn g { g with phase := phase, progress := progress, told := t.time.dev })).report g.cmd o progress
        else t.modDist (nextTurn g { g with phase := phase, progress := progress }))) ∧
    (∀ (mb : MbId) (tag : Fin 32) (x : StepInput) (g : LongOp) (o : Origin) (s : State), longAt s mb tag = some (g, o) →
      s.dist.longs.head? ≠ some g ∨ (s.dist.stepped = true ∧ shortWaits s = true) → exec (.longOperationStep mb tag x) s = .next s) ∧
    (∀ (mb : MbId) (tag : Fin 32) (x : StepInput) (g : LongOp) (o : Origin) (table : Half) (points : Word) (d : Desc) (k : Nat) (s : State),
      MayStep mb tag g o s → g.cancel = false → g.cmd = .camLoad o table points d → g.phase = k + 1 →
      points.toNat ≤ (k + 1) * 512 →
      ∃ t : State, exec (.longOperationStep mb tag x) s = .next ((t.endLong g).finish g.cmd o stOk []) ∧
        t.cams[camIx table].shadow = (camBuf? (Desc.bytes d) points.toNat).map CamBuf.head ∧
        t.cams[camIx table].chainShadow = s.cams[camIx table].chainNew ∧ t.cams[camIx table].complete = true ∧
        t.cams[camIx table].active = s.cams[camIx table].active ∧ ∀ j : Fin 64, j ≠ camIx table → t.cams[j] = s.cams[j]) ∧
    (∀ (mb : MbId) (tag : Fin 32) (x : StepInput) (g : LongOp) (o : Origin) (program : Byte) (d : Desc) (sig : Bool) (im : FlyerImage) (s : State),
      MayStep mb tag g o s → g.cancel = false → g.cmd = .flyerLoad o program d sig → 0 < g.phase →
      flyerImage? (Desc.bytes d) = some im → policyAdmits s.saf.cfg im sig = true →
      exec (.longOperationStep mb tag x) s = .next (({ s with
        progs := s.progs.set (Fin.ofNat 16 program.toNat) (some im) }.endLong g).finish g.cmd o stOk [])) ∧
    (∀ (mb : MbId) (tag : Fin 32) (x : StepInput) (g : LongOp) (o : Origin) (address : Word) (d : Desc) (s : State),
      MayStep mb tag g o s → g.cancel = false → g.cmd = .memWrite o address d → g.phase = 0 →
      d.len.toNat ≤ stepBytes →
      exec (.longOperationStep mb tag x) s = .next
        (((s.mergeWrite address.toNat (slice (Desc.bytes d) 0 d.len.toNat) x.ecc x.portA reqDistaff).endLong g).finish g.cmd o stOk [])) ∧
    (∀ (mb : MbId) (tag : Fin 32) (x : StepInput) (g : LongOp) (o : Origin) (image : Byte) (offset : Word) (last : Byte) (d : Desc) (s : State),
      MayStep mb tag g o s → g.cancel = false → g.cmd = .fwWrite o image offset last d true → last ≠ 0 →
      (Desc.bytes d).length ≤ g.phase → (image == 1) ≠ s.dist.image →
      ∃ t : State, exec (.longOperationStep mb tag x) s = .next ((t.endLong g).finish g.cmd o stOk []) ∧
        t.rec_.fw[fwIx image].valid = true ∧ t.rec_.fw[fwIx image].verified = true ∧ t.rec_.fw[fwIx image].bytes = s.rec_.fw[fwIx image].bytes) ∧
    (∀ (mb : MbId) (tag : Fin 32) (x : StepInput) (g : LongOp) (o : Origin) (d : Desc) (s : State),
      MayStep mb tag g o s → g.cancel = false → g.cmd = .calWrite o d → 0 < g.phase →
      ∃ t : State, exec (.longOperationStep mb tag x) s = .next ((t.endLong g).finish g.cmd o stOk []) ∧
        t.rec_.calUser = true ∧ t.pwr.ready = s.pwr.ready ∧ t.mem = s.mem ∧ t.strands = s.strands) ∧
    ∀ (mb : MbId) (tag : Fin 32) (x : StepInput) (g : LongOp) (o : Origin) (f : Half) (level : Byte) (s : State),
      MayStep mb tag g o s → g.cancel = false → g.cmd = .selfTest o f level → 0 < g.phase →
      exec (.longOperationStep mb tag x) s = .next (((s.service f true).endLong g).finish g.cmd o stOk
        (Config.layout 0x9020 [f.toNat, level.toNat, b2n x.pass]))

/-- CANCEL, served, with the mailbox and tag of a long operation ends OK and only marks that operation; in its turn
(R51), the next step of an operation so marked does not go on with it but leaves what R75 gives for its opcode,
takes it off the long operations and ends its command with ABORTED. One that has not begun ends ABORTED at once. If the tag holds no long operation, CANCEL ends
BAD_ARG and changes nothing but its mailbox. -/
def Obligations.CancelEndsAnOperationAtItsNextStep : Prop :=
  (∀ (o : Origin) (mailbox tag : Byte) (g : LongOp) (q : Origin) (s : State), Served (.cancel o mailbox tag) o s →
      longAt s (Fin.ofNat 8 mailbox.toNat) (Fin.ofNat 32 tag.toNat) = some (g, q) →
      RanShort (.cancel o mailbox tag) o s (fun u => u.modDist (putLong g { g with cancel := true })) []) ∧
    (∀ (o : Origin) (mailbox tag : Byte) (s : State), Served (.cancel o mailbox tag) o s →
      longAt s (Fin.ofNat 8 mailbox.toNat) (Fin.ofNat 32 tag.toNat) = none →
      longInHand s (Fin.ofNat 8 mailbox.toNat) (Fin.ofNat 32 tag.toNat) = none →
      exec (.cancel o mailbox tag) s = .next ((s.holdTag o.mb o.tag).pushCmpl o.mb (finalCmpl (.cancel o mailbox tag) o 0x0010 noCycle []))) ∧
    (∀ (o : Origin) (mailbox tag : Byte) (i : Instr) (q : Origin) (s : State), Served (.cancel o mailbox tag) o s →
      longAt s (Fin.ofNat 8 mailbox.toNat) (Fin.ofNat 32 tag.toNat) = none →
      longInHand s (Fin.ofNat 8 mailbox.toNat) (Fin.ofNat 32 tag.toNat) = some (i, q) → s.owedFor i = none →
      RanShort (.cancel o mailbox tag) o s
        (fun u => ((abortLong ⟨i, 0, 0, true, s.time.dev⟩ u).modDist fun d => { d with inHand := d.inHand.erase i }).pushCmpl q.mb
          (finalCmpl i q 0x0017 noCycle [])) []) ∧
    ∀ (mb : MbId) (tag : Fin 32) (x : StepInput) (g : LongOp) (o : Origin) (s : State), MayStep mb tag g o s → g.cancel = true →
      exec (.longOperationStep mb tag x) s = .next (((abortLong g s).endLong g).finish g.cmd o 0x0017 [])

/-- On a running engine at an ordinary point, with a memory slot of zeros: ADD, SUB, NEG, ABS, AND, OR, XOR, NOT, SHL,
SHR, ASR, MOV, MIN, MAX and WRAP leave in dst the exact result, saturated to 18 bits where mode.sat is 1 and wrapped
where it is 0; CMP writes no register. z and n are those of the stored value, v tells that the exact result does not
fit, c is the carry out of bit 17, sv becomes 1 on saturation and is never cleared (CMP leaves it). The flags
conditions read change one issue cycle later. The pc moves on by one. Every other register of the engine, its other
bank, its local memory, every other engine and every other part of the device is unchanged (the counter of free values
moves on). Where no sum leaves bit 17 (ABS and the bitwise, shift and move operations), c is the model's choice (log
entry 8), as is the saturation of CMP. -/
def Obligations.AluInstructionsSetTheirResultAndFlags : Prop :=
  ∀ (e : EngineId) (s : State) (dst a b : BitVec 4) (m : MemSlot), Ordinary e s → NoSlot m →
      AluGives (.flAdd e dst a b m) e s (some dst) ((s.engines[e].d a.toNat).toInt + (s.engines[e].d b.toNat).toInt) (decide (2 ^ 18 ≤ (s.engines[e].d a.toNat).toNat + (s.engines[e].d b.toNat).toNat)) (aluSv s.engines[e] ((s.engines[e].d a.toNat).toInt + (s.engines[e].d b.toNat).toInt)) ∧
      AluGives (.flSub e dst a b m) e s (some dst) ((s.engines[e].d a.toNat).toInt - (s.engines[e].d b.toNat).toInt) (decide ((s.engines[e].d b.toNat).toNat ≤ (s.engines[e].d a.toNat).toNat)) (aluSv s.engines[e] ((s.engines[e].d a.toNat).toInt - (s.engines[e].d b.toNat).toInt)) ∧
      AluGives (.flNeg e dst a m) e s (some dst) (-(s.engines[e].d a.toNat).toInt) (decide ((s.engines[e].d a.toNat) = 0)) (aluSv s.engines[e] (-(s.engines[e].d a.toNat).toInt)) ∧
      AluGives (.flAbs e dst a m) e s (some dst) (|(s.engines[e].d a.toNat).toInt|) (false) (aluSv s.engines[e] (|(s.engines[e].d a.toNat).toInt|)) ∧
      AluGives (.flAnd e dst a b m) e s (some dst) (((s.engines[e].d a.toNat) &&& (s.engines[e].d b.toNat)).toInt) (false) (aluSv s.engines[e] (((s.engines[e].d a.toNat) &&& (s.engines[e].d b.toNat)).toInt)) ∧
      AluGives (.flOr e dst a b m) e s (some dst) (((s.engines[e].d a.toNat) ||| (s.engines[e].d b.toNat)).toInt) (false) (aluSv s.engines[e] (((s.engines[e].d a.toNat) ||| (s.engines[e].d b.toNat)).toInt)) ∧
      AluGives (.flXor e dst a b m) e s (some dst) (((s.engines[e].d a.toNat) ^^^ (s.engines[e].d b.toNat)).toInt) (false) (aluSv s.engines[e] (((s.engines[e].d a.toNat) ^^^ (s.engines[e].d b.toNat)).toInt)) ∧
      AluGives (.flNot e dst a m) e s (some dst) ((~~~(s.engines[e].d a.toNat)).toInt) (false) (aluSv s.engines[e] ((~~~(s.engines[e].d a.toNat)).toInt)) ∧
      AluGives (.flShl e dst a b m) e s (some dst) ((s.engines[e].d a.toNat).toInt * (2 ^ (((s.engines[e].d b.toNat)).toNat % 32) : Nat)) (((s.engines[e].d a.toNat).toNat * 2 ^ (((s.engines[e].d b.toNat)).toNat % 32)).testBit 18) (aluSv s.engines[e] ((s.engines[e].d a.toNat).toInt * (2 ^ (((s.engines[e].d b.toNat)).toNat % 32) : Nat))) ∧
      AluGives (.flShr e dst a b m) e s (some dst) (((s.engines[e].d a.toNat) >>> (((s.engines[e].d b.toNat)).toNat % 32)).toInt) (false) (aluSv s.engines[e] (((s.engines[e].d a.toNat) >>> (((s.engines[e].d b.toNat)).toNat % 32)).toInt)) ∧
      AluGives (.flAsr e dst a b m) e s (some dst) (((s.engines[e].d a.toNat).sshiftRight (((s.engines[e].d b.toNat)).toNat % 32)).toInt) (false) (aluSv s.engines[e] (((s.engines[e].d a.toNat).sshiftRight (((s.engines[e].d b.toNat)).toNat % 32)).toInt)) ∧
      AluGives (.flMov e dst a m) e s (some dst) ((s.engines[e].d a.toNat).toInt) (false) (aluSv s.engines[e] ((s.engines[e].d a.toNat).toInt)) ∧
      AluGives (.flCmp e dst a b m) e s none ((s.engines[e].d a.toNat).toInt - (s.engines[e].d b.toNat).toInt) (decide ((s.engines[e].d b.toNat).toNat ≤ (s.engines[e].d a.toNat).toNat)) (s.engines[e].status.getLsbD 4) ∧
      AluGives (.flMin e dst a b m) e s (some dst) (if (s.engines[e].d a.toNat).toInt ≤ (s.engines[e].d b.toNat).toInt then (s.engines[e].d a.toNat).toInt else (s.engines[e].d b.toNat).toInt) (false) (aluSv s.engines[e] (if (s.engines[e].d a.toNat).toInt ≤ (s.engines[e].d b.toNat).toInt then (s.engines[e].d a.toNat).toInt else (s.engines[e].d b.toNat).toInt)) ∧
      AluGives (.flMax e dst a b m) e s (some dst) (if (s.engines[e].d a.toNat).toInt ≤ (s.engines[e].d b.toNat).toInt then (s.engines[e].d b.toNat).toInt else (s.engines[e].d a.toNat).toInt) (false) (aluSv s.engines[e] (if (s.engines[e].d a.toNat).toInt ≤ (s.engines[e].d b.toNat).toInt then (s.engines[e].d b.toNat).toInt else (s.engines[e].d a.toNat).toInt)) ∧
      AluGives (.flWrap e dst a b m) e s (some dst) (((s.engines[e].d a.toNat) - (s.engines[e].d b.toNat)).toInt) (decide ((s.engines[e].d b.toNat).toNat ≤ (s.engines[e].d a.toNat).toNat)) (aluSv s.engines[e] (((s.engines[e].d a.toNat) - (s.engines[e].d b.toNat)).toInt))

/-- On a running engine at an ordinary point, with a memory slot that only updates an address register: MAXI with an
even dst and s1 > dst, strictly, leaves s1 in dst and bits 17:0 of the a register that s2 bits 2:0 name, as it stood
before the instruction's own update, in dst + 1, and both are seen by the next instruction; otherwise no d register
changes. MINI does the same with <. Other d registers, status, accumulators, local memory, other engines and the rest
of the device are unchanged; the a register that the slot updates is as R200 gives it. With dst odd the instruction is
illegal, and the runtime takes up the exception (R210). -/
def Obligations.MaxiAndMiniKeepTheFirstExtreme : Prop :=
  (∀ (e : EngineId) (s : State) (dst c k : BitVec 4) (m : MemSlot), Ordinary e s → m.op = 0 → dst.getLsbD 0 = false →
      ExtremeGives (.flMaxi e dst c k m) e s dst c k m ((s.engines[e].d dst.toNat).toInt < (s.engines[e].d c.toNat).toInt) ∧
        ExtremeGives (.flMini e dst c k m) e s dst c k m ((s.engines[e].d c.toNat).toInt < (s.engines[e].d dst.toNat).toInt)) ∧
    ∀ (e : EngineId) (s : State) (dst c k : BitVec 4) (m : MemSlot), Issues e s → SlotLegal m → dst.getLsbD 0 = true →
      exec (.flMaxi e dst c k m) s = .next ((s.trap e 1 (BitVec.ofNat 32 s.engines[e].pc.toNat)).runtime e) ∧
        exec (.flMini e dst c k m) s = .next ((s.trap e 1 (BitVec.ofNat 32 s.engines[e].pc.toNat)).runtime e)

/-- On a running engine at an ordinary point, with a memory slot of zeros: RDAL, RDAM and RDAH leave bits 17:0, 35:18
and 47:36 (sign-extended) of the accumulator in dst; RDA the accumulator rounded by mode.rnd at its output shift and
saturated, with sv set where it saturated; MOVD bits 17:0 of the a register; MOVC the control register named (other
than ipend, whose lost bits a read clears). No other register, no flag, nothing else of the device changes. -/
def Obligations.AccumulatorsAreReadAsFields : Prop :=
  (∀ (e : EngineId) (s : State) (dst a : BitVec 4) (m : MemSlot), Ordinary e s → NoSlot m →
      DataGives (.flRdal e dst a m) e s dst (BitVec.ofNat 18 (s.engines[e].ac (acc4 a)).toNat) (s.engines[e].status.getLsbD 4) ∧
      DataGives (.flRdam e dst a m) e s dst (BitVec.ofNat 18 ((s.engines[e].ac (acc4 a)).toNat / 2 ^ 18)) (s.engines[e].status.getLsbD 4) ∧
      DataGives (.flRdah e dst a m) e s dst (BitVec.ofInt 18 ((s.engines[e].ac (acc4 a)).toInt / 2 ^ 36)) (s.engines[e].status.getLsbD 4) ∧
      DataGives (.flRda e dst a m) e s dst (s.engines[e].readOut (acc4 a)).1
        (s.engines[e].status.getLsbD 4 || (s.engines[e].readOut (acc4 a)).2) ∧
      DataGives (.flMovd e dst a m) e s dst (BitVec.ofNat 18 s.engines[e].a[(Fin.ofNat 8 a.toNat)].toNat) (s.engines[e].status.getLsbD 4)) ∧
    ∀ (e : EngineId) (s : State) (dst a page : BitVec 4) (m : MemSlot) (v : Sample), Ordinary e s → NoSlot m →
      ¬(page.toNat % 2 = 1 ∧ a = 3) → s.engines[e].control (page.toNat % 2) a.toNat = some v →
      DataGives (.flMovc e dst a page m) e s dst v (s.engines[e].status.getLsbD 4)

/-- On an engine that issues, with a memory slot that is legal and meets no double-bit error: PARALLEL does MAC slot
0, then slot 1; SINCOS (dst ≤ 14), CLARKE (dst and s1 ≤ 13), PARK and IPARK give their saturated results at their
distances; WRA and CLRA set an accumulator, ADDA and SUBA add and subtract accumulators, a DIVS that does not overflow
takes one divide step; MOVA and AADD write an a register the slot does not also write, MOVTC a control register; MOVI,
MOVIA and MOVX, of two words, write a d, an a and an xb register. The results are those the model's operations of the
same names give; each is the engine's next state, with the pc moved on and due writes landed. -/
def Obligations.HelpersAndAccumulatorsTakeTheirWrites : Prop :=
  (∀ (e : EngineId) (s : State) (m0 m1 : MacSlot) (m : MemSlot), Issues e s → SlotLegal m →
      RanSlot (.flParallel e m0 m1 m) e m s (macSlot s.engines[e] m1 (macSlot s.engines[e] m0 s.engines[e]))) ∧
    (∀ (e : EngineId) (s : State) (dst a : BitVec 4) (m : MemSlot), Issues e s → SlotLegal m → dst ≠ 15 →
      RanSlot (.flSincos e dst a m) e m s (s.engines[e].helperOut 3 dst.toNat
        [sin18 (s.key e) (s.engines[e].d a.toNat).toNat, cos18 (s.key e) (s.engines[e].d a.toNat).toNat])) ∧
    (∀ (e : EngineId) (s : State) (dst a : BitVec 4) (m : MemSlot), Issues e s → SlotLegal m → dst.toNat ≤ 13 → a.toNat ≤ 13 →
      RanSlot (.flClarke e dst a m) e m s (s.engines[e].helperOut 2 dst.toNat
        [(clarkeRaw (s.key e) (s.engines[e].d a.toNat).toInt (s.engines[e].d (a.toNat + 1)).toInt (s.engines[e].d (a.toNat + 2)).toInt).1,
         (clarkeRaw (s.key e) (s.engines[e].d a.toNat).toInt (s.engines[e].d (a.toNat + 1)).toInt (s.engines[e].d (a.toNat + 2)).toInt).2.1,
         (clarkeRaw (s.key e) (s.engines[e].d a.toNat).toInt (s.engines[e].d (a.toNat + 1)).toInt (s.engines[e].d (a.toNat + 2)).toInt).2.2])) ∧
    (∀ (e : EngineId) (s : State) (dst a b : BitVec 4) (m : MemSlot), Issues e s → SlotLegal m →
      RanSlot (.flPark e dst a b m) e m s (s.engines[e].helperOut 3 dst.toNat
        [(parkRaw (s.key e) (s.engines[e].d a.toNat).toInt (s.engines[e].dOpen (s.key e) (a.toNat + 1)) (s.engines[e].d b.toNat).toNat).1,
         (parkRaw (s.key e) (s.engines[e].d a.toNat).toInt (s.engines[e].dOpen (s.key e) (a.toNat + 1)) (s.engines[e].d b.toNat).toNat).2]) ∧
      RanSlot (.flIpark e dst a b m) e m s (s.engines[e].helperOut 3 dst.toNat
        [(iParkRaw (s.key e) (s.engines[e].d a.toNat).toInt (s.engines[e].dOpen (s.key e) (a.toNat + 1)) (s.engines[e].d b.toNat).toNat).1,
         (iParkRaw (s.key e) (s.engines[e].d a.toNat).toInt (s.engines[e].dOpen (s.key e) (a.toNat + 1)) (s.engines[e].d b.toNat).toNat).2])) ∧
    (∀ (e : EngineId) (s : State) (dst a : BitVec 4) (m : MemSlot), Issues e s → SlotLegal m →
      RanSlot (.flWra e dst a m) e m s (s.engines[e].putAc (acc4 dst) ((s.engines[e].d a.toNat).signExtend 48 <<< s.engines[e].outShift)) ∧
      RanSlot (.flClra e dst m) e m s (s.engines[e].putAc (acc4 dst) 0) ∧
      RanSlot (.flAdda e dst a m) e m s (s.engines[e].putAc (acc4 dst) (s.engines[e].acNew (acc4 dst) + s.engines[e].acNew (acc4 a))) ∧
      RanSlot (.flSuba e dst a m) e m s (s.engines[e].putAc (acc4 dst) (s.engines[e].acNew (acc4 dst) - s.engines[e].acNew (acc4 a))) ∧
      (∀ y : Engine, divStep (s.key e) s.engines[e] (acc4 dst) (s.engines[e].d a.toNat) = .inr y →
        exec (.flDivs e dst a m) s =
          .next ((((s.corrected e m).setEngine e (finishIssue 1 .next (slotOn (s.key e) s.engines[e] m y))).afterIssue e).tick)) ∧
      (¬(m.upd ≠ 0 ∧ m.a.toNat = dst.toNat % 8) →
        RanSlot (.flMova e dst a m) e m s
          { s.engines[e] with a := s.engines[e].a.set (addr8 dst) ((s.engines[e].d a.toNat).setWidth 20) } ∧
        RanSlot (.flAadd e dst a m) e m s
          { s.engines[e] with a := s.engines[e].a.set (addr8 dst) (s.engines[e].a[addr8 dst] + (s.engines[e].d a.toNat).signExtend 20) })) ∧
    (∀ (e : EngineId) (s : State) (dst a page : BitVec 4) (m : MemSlot), Issues e s → SlotLegal m →
      (s.engines[e].control (page.toNat % 2) dst.toNat).isSome = true →
      exec (.flMovtc e dst a page m) s = .next ((s.corrected e m).issued e 1 (if page.toNat % 2 = 0 ∧ dst = 0 then .shadow else .next)
        (slotOn (s.key e) s.engines[e] m (s.engines[e].setControl (page.toNat % 2) dst.toNat (s.engines[e].d a.toNat))))) ∧
    ∀ (e : EngineId) (s : State), Issues e s →
      (∀ (r : BitVec 4) (v : Sample), RanPlain (.flMovi e r v) e 2 .next s (s.engines[e].putD 1 (reg16 r) v)) ∧
      (∀ (r : BitVec 3) (v : BitVec 20), RanPlain (.flMovia e r v) e 2 .next s
        { s.engines[e] with a := s.engines[e].a.set (Fin.ofNat 8 r.toNat) v }) ∧
      ∀ (k : BitVec 2) (v : Word), RanPlain (.flMovx e k v) e 2 .next s
        { s.engines[e] with xb := s.engines[e].xb.set (Fin.ofNat 4 k.toNat) v }

/-- On a running engine at an ordinary point, for a legal condition: BR, CALL and RET move the pc on by one and wait
for their delay slot. A MOV in the delay slot has its effect whether or not the branch is taken, and the pc is then
the target (imm16 for BR and CALL, lr for RET) where the condition holds and the address after the delay slot where it
does not. CALL writes lr with the address after its delay slot where the condition holds, and otherwise leaves it; BR
and RET leave it. The addresses are those of a user's code, program memory from 4,096 on, where the runtime does nothing
between two instructions. With condition 13, 14 or 15 each is illegal, and the runtime takes up the exception. -/
def Obligations.BranchesHaveOneDelaySlot : Prop :=
  (∀ (e : EngineId) (s : State) (c : BitVec 4) (target : BitVec 14) (dst a : BitVec 4) (m : MemSlot) (taken : Bool), Ordinary e s → SlotLegal m →
      GoodWord e (s.setEngine e { s.engines[e] with pc := s.engines[e].pc + 1 }) → s.engines[e].cond c = some taken →
      4096 ≤ (s.engines[e].pc + 2).toNat → 4096 ≤ target.toNat → 4096 ≤ s.engines[e].lr.toNat →
      (∃ s1 s2 : State, exec (.flBr e c target) s = .next s1 ∧ exec (.flMov e dst a m) s1 = .next s2 ∧
        s1.engines[e].pc = s.engines[e].pc + 1 ∧ s1.engines[e].lr = s.engines[e].lr ∧
        s2.engines[e].pc = (if taken = true then target else s.engines[e].pc + 2) ∧
        (m.op = 0 → s2.engines[e].d dst.toNat = s.engines[e].d a.toNat)) ∧
      (∃ s1 s2 : State, exec (.flCall e c target) s = .next s1 ∧ exec (.flMov e dst a m) s1 = .next s2 ∧
        s1.engines[e].pc = s.engines[e].pc + 1 ∧
        s1.engines[e].lr = (if taken = true then s.engines[e].afterDelay else s.engines[e].lr) ∧
        s2.engines[e].pc = (if taken = true then target else s.engines[e].pc + 2) ∧
        (m.op = 0 → s2.engines[e].d dst.toNat = s.engines[e].d a.toNat)) ∧
      ∃ s1 s2 : State, exec (.flRet e c) s = .next s1 ∧ exec (.flMov e dst a m) s1 = .next s2 ∧
        s1.engines[e].pc = s.engines[e].pc + 1 ∧ s1.engines[e].lr = s.engines[e].lr ∧
        s2.engines[e].pc = (if taken = true then s.engines[e].lr else s.engines[e].pc + 2) ∧
        (m.op = 0 → s2.engines[e].d dst.toNat = s.engines[e].d a.toNat)) ∧
    ∀ (e : EngineId) (s : State) (c : BitVec 4) (target : BitVec 14), Issues e s → 13 ≤ c.toNat →
      exec (.flBr e c target) s = .next ((s.trap e 1 (BitVec.ofNat 32 s.engines[e].pc.toNat)).runtime e) ∧
        exec (.flCall e c target) s = .next ((s.trap e 1 (BitVec.ofNat 32 s.engines[e].pc.toNat)).runtime e) ∧
        exec (.flRet e c) s = .next ((s.trap e 1 (BitVec.ofNat 32 s.engines[e].pc.toNat)).runtime e)

/-- LOOP and LOOPR on an engine that issues set ls to the address after themselves, le and lc of their level and
record the present level, and go on after themselves, or at le + 1 for a count of 0. In a user's code, at an instruction of one word at
le of level 0, with no level-1 loop, its level and no exception handler: a count over 1 goes down by one and the pc
becomes ls; a count of 1 becomes 0 and the pc falls through. An instruction elsewhere leaves the counts. -/
def Obligations.LoopsRunTheirBodyTheCountGiven : Prop :=
  (∀ (e : EngineId) (s : State) (k : Fin 2) (r : BitVec 4) (count : Sample) (le : BitVec 14), Issues e s →
      RanPlain (.flLoop e (decide (k = 1)) count le) e 2 (if count = 0 then .jump (le + 1) else .next) s
        { s.engines[e] with
          ls := s.engines[e].ls.set k (s.engines[e].pc + 2), le := s.engines[e].le.set k le
          lc := s.engines[e].lc.set k count
          status := setBit s.engines[e].status (16 + k.val) s.engines[e].lvl } ∧
      RanPlain (.flLoopr e (decide (k = 1)) r le) e 1 (if s.engines[e].d r.toNat = 0 then .jump (le + 1) else .next) s
        { s.engines[e] with
          ls := s.engines[e].ls.set k (s.engines[e].pc + 1), le := s.engines[e].le.set k le
          lc := s.engines[e].lc.set k (s.engines[e].d r.toNat)
          status := setBit s.engines[e].status (16 + k.val) s.engines[e].lvl }) ∧
    ∀ (e : EngineId) (s : State) (dst a : BitVec 4) (m : MemSlot), GoodWord e s → s.engines[e].run = .running → s.engines[e].delay = none →
      4096 ≤ (s.engines[e].pc + 1).toNat → 4096 ≤ s.engines[e].ls[(0 : Fin 2)].toNat →
      s.engines[e].order = [] → s.roles[e].haltDue = false → s.roles[e].retiring = none → SlotLegal m → s.engines[e].lc[(1 : Fin 2)] = 0 → s.engines[e].xl = false →
      s.engines[e].status.getLsbD 16 = s.engines[e].lvl →
      ∃ t : State, exec (.flMov e dst a m) s = .next t ∧
        (s.engines[e].pc = s.engines[e].le[(0 : Fin 2)] → 1 < s.engines[e].lc[(0 : Fin 2)].toNat →
          t.engines[e].pc = s.engines[e].ls[(0 : Fin 2)] ∧ t.engines[e].lc[(0 : Fin 2)] = s.engines[e].lc[(0 : Fin 2)] - 1) ∧
        (s.engines[e].pc = s.engines[e].le[(0 : Fin 2)] → s.engines[e].lc[(0 : Fin 2)] = 1 →
          t.engines[e].pc = s.engines[e].pc + 1 ∧ t.engines[e].lc[(0 : Fin 2)] = 0) ∧
        (s.engines[e].pc ≠ s.engines[e].le[(0 : Fin 2)] →
          t.engines[e].pc = s.engines[e].pc + 1 ∧ t.engines[e].lc = s.engines[e].lc)

/-- On an engine that issues: MODE changes the masked bits of mode, seen at distance 2, and its shadow follows; GRP
with 1 to 6 opens a group; HALT with no poisoned word met clears cs and goes on where cs is set, and otherwise stops
the clock (or ends a debug step), the pc on HALT; SIG raises vector 20 + n; WAITF goes on where at most n operations
are outstanding and no poisoned word was met, and otherwise waits; BRK waits for a halt in bench mode with FLYER_DEBUG
attached and otherwise does nothing; RETI brings back pc and status, but for fcnt, which always reads the
operations outstanding (R190), and the slot whose handler ends goes over from a retiring engine, before an interrupt is taken; RETX brings back the pc, the
status so, with xl, ds and ms cleared, and the mode the exception saved, and a mode shadow where ms was 1. -/
def Obligations.ControlInstructionsAct : Prop :=
  (∀ (e : EngineId) (s : State), Issues e s →
      (∀ imm : Half, RanPlain (.flMode e imm) e 1 .shadow s (s.engines[e].put 2 (.mode
        ((s.engines[e].mode &&& ~~~(BitVec.ofNat 18 (imm.toNat / 256))) |||
          (BitVec.ofNat 18 (imm.toNat % 256) &&& BitVec.ofNat 18 (imm.toNat / 256)))))) ∧
      (∀ n : Half, 1 ≤ n.toNat → n.toNat ≤ 6 → RanPlain (.flGrp e n) e 1 (.group n.toNat) s s.engines[e]) ∧
      (s.engines[e].poison = none → s.engines[e].status.getLsbD 12 = true →
        RanPlain (.flHalt e) e 1 .next s (s.engines[e].setStatus 12 false)) ∧
      (s.engines[e].poison = none → s.engines[e].status.getLsbD 12 = false →
        exec (.flHalt e) s = .next (s.modEngine e fun x => { x with run := if x.run = .stepping then .debug else .halted })) ∧
      (∀ n : BitVec 3, exec (.flSig e n) s = .next ((s.raise (20 + n.toNat)).issued e 1 .next s.engines[e])) ∧
      (∀ n : BitVec 2, s.engines[e].poison = none → s.engines[e].fab.length ≤ n.toNat → RanPlain (.flWaitf e n) e 1 .next s s.engines[e]) ∧
      (∀ n : BitVec 2, n.toNat < s.engines[e].fab.length →
        exec (.flWaitf e n) s = .next (s.modEngine e fun x => { x with run := .stalled n.toNat (decide (x.run = .stepping)) })) ∧
      (s.host.bench = false ∨ s.roles[e].attached = false → RanPlain (.flBrk e) e 1 .next s s.engines[e]) ∧
      (s.host.bench = true → s.roles[e].attached = true →
        exec (.flBrk e) s = .next ((s.modRole e fun r => { r with haltDue := true }).issued e 1 .next s.engines[e]))) ∧
    (∀ (e : EngineId) (s : State), Issues e s →
      (s.engines[e].slotHandled = none → RanPlain (.flReti e) e 1 (.resume s.engines[e].epc false) s s.engines[e].reti) ∧
      (∀ k : Fin 4, s.engines[e].slotHandled = some k →
        exec (.flReti e) s = .next ((s.reroute e k).issued e 1 (.resume s.engines[e].epc false) (s.reroute e k).engines[e].reti)) ∧
      RanPlain (.flRetx e) e 1 (.resume s.engines[e].bank.xpc s.engines[e].retx.2) s s.engines[e].retx.1) ∧
    (∀ (e : EngineId) (s : State), GoodWord e s → s.engines[e].run = .running → s.roles[e].haltDue = false → s.roles[e].retiring = none →
      s.engines[e].order = [] → s.engines[e].pend = [] → s.engines[e].slotHandled = none → 4096 ≤ s.engines[e].epc.toNat →
      ∃ t : State, exec (.flReti e) s = .next t ∧ t.engines[e].pc = s.engines[e].epc ∧
        t.engines[e].status = s.engines[e].estat &&& ~~~0xE000 ∧
        t.engines[e].handling = none ∧ t.engines[e].delay = none ∧ t.engines[e].local_ = s.engines[e].local_ ∧
        ∀ j : EngineId, j ≠ e → t.engines[j] = s.engines[j]) ∧
    ∀ (e : EngineId) (s : State), GoodWord e s → s.engines[e].run = .running → s.roles[e].haltDue = false → s.roles[e].retiring = none →
      s.engines[e].order = [] → s.engines[e].pend = [] → 4096 ≤ s.engines[e].bank.xpc.toNat →
      ∃ t : State, exec (.flRetx e) s = .next t ∧ t.engines[e].pc = s.engines[e].bank.xpc ∧
        (∀ b : Nat, t.engines[e].status.getLsbD b =
          if b = 6 ∨ b = 7 ∨ b = 8 ∨ 13 ≤ b ∧ b ≤ 15 then false else s.engines[e].bank.xstat.getLsbD b) ∧
        t.engines[e].mode = BitVec.ofNat 18 (if s.engines[e].bank.xstat.getLsbD 8 = true then s.engines[e].bank.xmode.toNat % 256
          else s.engines[e].bank.xmode.toNat / 256) ∧
        t.engines[e].shadow = s.engines[e].bank.xstat.getLsbD 8 ∧ t.engines[e].delay = none ∧
        ∀ j : EngineId, j ≠ e → t.engines[j] = s.engines[j]

/-- On an engine that issues, FMV and FATM with legal addresses, a local word of an FMV free of double-bit errors, add one
outstanding operation and go on, and single-bit errors of the local words read are counted (R191); where four are outstanding
already the engine stalls with the fifth, which an operation's completion, here an addition of 0 to sample 0, lets in, and
the engine goes on. The completion of an atomic operation on a sample whose word
is not poisoned stores old + operand, or the operand for a swap, in the sample, puts the old value in the local word,
and takes the operation off the list; an outstanding number that does not exist changes nothing. XAC at a legal,
aligned address writes the register with the d register sign-extended or with bits 31:0 of the accumulator, or reads
bits 17:0 of the register into a d register, or all of it into bits 31:0 of an accumulator whose other bits are open (log
entry 8). The memory statement holds in canonical memory with the bobbin pool off. -/
def Obligations.FabricAndExternalAccessesAct : Prop :=
  (∀ (e : EngineId) (s : State) (r : BitVec 3) (k : BitVec 2) (out : Bool) (lines : BitVec 7) (off : BitVec 24) (ecc : List EccErr), Issues e s →
      1 ≤ lines.toNat → lines.toNat ≤ 64 → s.engines[e].a[(Fin.ofNat 8 r.toNat)].toNat % 16 = 0 →
      (s.engines[e].xb[(Fin.ofNat 4 k.toNat)] + off.setWidth 32).toNat % 16 = 0 →
      0x10000000 ≤ (s.engines[e].xb[(Fin.ofNat 4 k.toNat)] + off.setWidth 32).toNat →
      (s.engines[e].xb[(Fin.ofNat 4 k.toNat)] + off.setWidth 32).toNat + 16 * lines.toNat ≤ 0x11000000 →
      let at_ := s.engines[e].a[(Fin.ofNat 8 r.toNat)].toNat % 32768
      let read := if out = true then ecc.filter fun x => decide (at_ ≤ x.word) && decide (x.word < at_ + 16 * lines.toNat) else []
      let op := FabOp.fmv at_ ((s.engines[e].xb[(Fin.ofNat 4 k.toNat)] + off.setWidth 32).toNat - 0x10000000) out lines.toNat ecc
      read.find? (·.double) = none →
      (s.engines[e].fab.length < 4 → exec (.flFmv e r k out lines off ecc) s =
        .next ((s.countLocal e read.length).issued e 2 .next { s.engines[e] with fab := s.engines[e].fab ++ [op] })) ∧
      (4 ≤ s.engines[e].fab.length → exec (.flFmv e r k out lines off ecc) s =
        .next (s.setEngine e { s.engines[e] with run := .stalled 3 (decide (s.engines[e].run = .stepping)), held := some op }))) ∧
    (∀ (e : EngineId) (s : State) (r : BitVec 4) (k : BitVec 2) (swap : Bool) (old : BitVec 15) (off : BitVec 24) (ecc : List EccErr), Issues e s →
      0x10000000 ≤ (s.engines[e].xb[(Fin.ofNat 4 k.toNat)] + off.setWidth 32).toNat →
      (s.engines[e].xb[(Fin.ofNat 4 k.toNat)] + off.setWidth 32).toNat < 0x11000000 →
      let op := FabOp.fatm old.toNat ((s.engines[e].xb[(Fin.ofNat 4 k.toNat)] + off.setWidth 32).toNat - 0x10000000) swap
        (s.engines[e].d r.toNat) ecc
      (s.engines[e].fab.length < 4 →
        RanPlain (.flFatm e r k swap old off ecc) e 2 .next s { s.engines[e] with fab := s.engines[e].fab ++ [op] }) ∧
      (4 ≤ s.engines[e].fab.length → exec (.flFatm e r k swap old off ecc) s =
        .next (s.setEngine e { s.engines[e] with run := .stalled 3 (decide (s.engines[e].run = .stepping)), held := some op }))) ∧
    (∀ (e : EngineId) (s : State) (k : Fin 4) (op : FabOp), s.engines[e].run = .stalled 3 false → s.roles[e].retiring = none → s.engines[e].fab.length = 4 →
      s.engines[e].held = some op → s.engines[e].fab[k.val]? = some (.fatm 0 0 false 0 []) → s.mem.isPoisoned 0 = false →
      s.engines[e].order = [] → s.roles[e].haltDue = false → 4096 ≤ (s.engines[e].pc + 2).toNat → s.engines[e].delay = none →
      s.engines[e].lc[(0 : Fin 2)] = 0 → s.engines[e].lc[(1 : Fin 2)] = 0 →
      ∃ t : State, exec (.fabricOpComplete e k) s = .next t ∧ t.engines[e].fab = s.engines[e].fab.eraseIdx k.val ++ [op] ∧
        t.engines[e].run = .running ∧ t.engines[e].pc = s.engines[e].pc + 2) ∧
    (∀ (e : EngineId) (s : State) (k : Fin 4) (at_ sample : Nat) (swap : Bool) (v : Sample), s.engines[e].fab[k.val]? = some (.fatm at_ sample swap v []) →
      s.engines[e].run = .running → sample < 2 ^ 24 → Canonical s → (∀ b : BankId, s.pwr.banks[b].st = .run) → s.mem.isPoisoned (sample / 4) = false →
      ∃ t : State, exec (.fabricOpComplete e k) s = .next t ∧
        t.mem.sample sample = (if swap = true then v else s.mem.sample sample + v) ∧
        (∀ j : Nat, j < 2 ^ 24 → j ≠ sample → t.mem.sample j = s.mem.sample j) ∧
        t.engines[e] = { s.engines[e].store at_ (s.mem.sample sample) with fab := s.engines[e].fab.eraseIdx k.val } ∧
        ∀ j : EngineId, j ≠ e → t.engines[j] = s.engines[j]) ∧
    (∀ (e : EngineId) (s : State) (k : Fin 4), s.engines[e].fab[k.val]? = none → exec (.fabricOpComplete e k) s = .next s) ∧
    (∀ (e : EngineId) (s : State) (r : BitVec 4) (k : BitVec 2) (ac : Bool) (off : Word), Issues e s →
      (xacAddr s.engines[e] k off).toNat % 4 = 0 → xacWrites (xacAddr s.engines[e] k off).toNat = true →
      exec (.flXac e r k false ac off) s = .next ((s.writeReg (xacAddr s.engines[e] k off).toNat
        (if ac = true then (s.engines[e].ac (acc4 r)).truncate 32 else (s.engines[e].d r.toNat).signExtend 32)).issued e 2 .next s.engines[e])) ∧
    ∀ (e : EngineId) (s : State) (r : BitVec 4) (k : BitVec 2) (off : Word), Issues e s →
      (xacAddr s.engines[e] k off).toNat % 4 = 0 → xacReads (xacAddr s.engines[e] k off).toNat = true →
      exec (.flXac e r k true false off) s = .next ((s.afterRead (xacAddr s.engines[e] k off).toNat).issued e 2 .next
        (s.engines[e].putD 1 (reg16 r) (BitVec.ofNat 18 (readReg s (xacAddr s.engines[e] k off).toNat).toNat))) ∧
      ∃ v : BitVec 48, v.truncate 32 = readReg s (xacAddr s.engines[e] k off).toNat ∧
        exec (.flXac e r k true true off) s = .next ((s.afterRead (xacAddr s.engines[e] k off).toNat).issued e 2 .next
          (s.engines[e].put 1 (.ac s.engines[e].lvl (acc4 r) v)))

/-- On an engine that issues: DIVS by 0 raises a divide step overflow; SINCOS into d15 and GRP 0 are illegal
instructions; an XAC write to an address engines may not write and an FATM outside the banks raise a misaligned
fabric access with that address; HALT after a poisoned word raises poisoned data; a load that meets a double-bit error
raises exception 4; each exception is entered, and the runtime takes it up (R210). Exceptions 4 and 6 and one in an exception
handler stop the engine as they are entered. On an engine in no exception handler, at background level and with no pending
write, an exception of cause 1, 2 or 5 leaves the pc at 8, xcause and xinfo with cause and information, xpc on the
instruction, or on its branch if it stood in a delay slot, and xl set, and no d or a register changes. The watchdog row
raises exception 6 on an engine in service that 16 cycle starts found not halted, and on one in a handler as it expires
there; before 16 it does nothing. -/
def Obligations.FaultyInstructionsTrapWithoutEffect : Prop :=
  (∀ (e : EngineId) (s : State) (dst a : BitVec 4) (m : MemSlot), Issues e s → SlotLegal m →
      (s.engines[e].d a.toNat = 0 → exec (.flDivs e dst a m) s = .next ((s.trap e 5 0).runtime e)) ∧
      exec (.flSincos e 15 a m) s = .next ((s.trap e 1 (BitVec.ofNat 32 s.engines[e].pc.toNat)).runtime e) ∧
      exec (.flGrp e 0) s = .next ((s.trap e 1 (BitVec.ofNat 32 s.engines[e].pc.toNat)).runtime e) ∧
      (∀ p : Word, s.engines[e].poison = some p →
        exec (.flHalt e) s = .next (((s.modEngine e fun x => { x with poison := none }).trap e 3 p).runtime e))) ∧
    (∀ (e : EngineId) (s : State) (dst a : BitVec 4) (m : MemSlot), Issues e s → m.op = 1 → m.ecc = some true →
      exec (.flMov e dst a m) s = .next ((s.trap e 4 (BitVec.ofNat 32 (s.engines[e].a[(Fin.ofNat 8 m.a.toNat)].toNat % 32768))).runtime e)) ∧
    (∀ (e : EngineId) (s : State) (cause : Nat) (info : Word), cause = 4 ∨ cause = 6 ∨ s.engines[e].xl = true →
      s.trap e cause info = (s.setEngine e (s.engines[e].except cause info)).engineFault e) ∧
    (∀ (e : EngineId) (s : State) (r : BitVec 4) (k : BitVec 2) (ac : Bool) (off : Word), Issues e s →
      xacWrites (xacAddr s.engines[e] k off).toNat = false →
      exec (.flXac e r k false ac off) s = .next ((s.trap e 2 (xacAddr s.engines[e] k off)).runtime e)) ∧
    (∀ (e : EngineId) (s : State) (r : BitVec 4) (k : BitVec 2) (swap : Bool) (old : BitVec 15) (off : BitVec 24) (ecc : List EccErr), Issues e s →
      (xacAddr s.engines[e] k (off.setWidth 32)).toNat < 0x10000000 →
      exec (.flFatm e r k swap old off ecc) s = .next ((s.trap e 2 (xacAddr s.engines[e] k (off.setWidth 32))).runtime e)) ∧
    (∀ (e : EngineId) (s : State) (cause : Nat) (info : Word), (cause = 1 ∨ cause = 2 ∨ cause = 5) → s.engines[e].xl = false →
      s.engines[e].lvl = false → s.engines[e].pend = [] →
      (s.trap e cause info).engines[e].pc = 8 ∧ (s.trap e cause info).engines[e].xl = true ∧
        (s.trap e cause info).engines[e].bg.xcause = BitVec.ofNat 3 cause ∧ (s.trap e cause info).engines[e].bg.xinfo = info ∧
        (s.trap e cause info).engines[e].bg.xpc = (match s.engines[e].delay with | some (b, _) => b | none => s.engines[e].pc) ∧
        (s.trap e cause info).engines[e].bg.d = s.engines[e].bg.d ∧ (s.trap e cause info).engines[e].a = s.engines[e].a) ∧
    (∀ (e : EngineId) (s : State), s.roles[e].inService = true → s.engines[e].run ≠ .debug → 16 ≤ s.roles[e].busy →
      exec (.flyerWatchdogExpiry e false) s = .next (s.trap e 6 0)) ∧
    (∀ (e : EngineId) (s : State), s.roles[e].busy < 16 → exec (.flyerWatchdogExpiry e false) s = .next s) ∧
    ∀ (e : EngineId) (s : State), s.roles[e].inService = true → s.engines[e].run ≠ .debug → s.engines[e].lvl = true →
      exec (.flyerWatchdogExpiry e true) s = .next (s.trap e 6 1)

/-- With the PCIe endpoint up: a write of SYS_INT_STATUS clears the bits written as 1 and no others; of SYS_INT_MASK
sets the mask, and sends the message of a bit that is set, was masked and is unmasked now, where MSI-X is enabled and
the table entry is unmasked; of SYS_WM_NOTICE clears the notices written as 1 and no others; a read of SYS_CYCLE_LO
answers the low word and latches the high part. A four-byte BAR0 write at 0x20 is that of SYS_INT_STATUS, and one byte
in a read-only area sets acc_err alone. With the endpoint down these rows change nothing. An aligned 32-bit internal
write acts on its register; one of another size changes nothing. The clear rows of LNK_SEQ_CNT, FB_QERR_CNT and
STG_STAT clear their counts and no other field. -/
def Obligations.HostWritesActOnTheirRegisters : Prop :=
  (∀ (v : Word) (s : State), s.host.pcieUp = true →
      exec (.sysIntStatusClear v) s = .next (s.modHost fun h => { h with intStatus := h.intStatus &&& ~~~v })) ∧
    (∀ (v : Word) (s : State), s.host.pcieUp = true → ∃ t : State, exec (.sysIntMaskWrite v) s = .next t ∧ t.host.intMask = v ∧
      t.host.intStatus = s.host.intStatus ∧ t.mb = s.mb ∧ t.strands = s.strands ∧
      ∀ k : Nat, k < 32 → s.host.intMask.getLsbD k = true → v.getLsbD k = false → s.host.intStatus.getLsbD k = true →
        s.host.msixEnable = true → entryMasked s.host k = false → Out.msix k ∈ t.out) ∧
    (∀ (v : Word) (s : State), s.host.pcieUp = true → ∃ t : State, exec (.sysWmNoticeClear v) s = .next t ∧
      (∀ k : Nat, k < 25 → t.host.notice.getLsbD k = (s.host.notice.getLsbD k && !v.getLsbD k)) ∧
      t.host.intStatus = s.host.intStatus ∧ t.mb = s.mb) ∧
    (∀ s : State, s.host.pcieUp = true → exec .sysCycleLoRead s = .next ((s.modHost fun h => { h with
      cycleHi := BitVec.ofNat 16 (s.seq.cycle.toNat / 2 ^ 32) }).emit (.busRead (leBytes 4 (s.seq.cycle.toNat % 2 ^ 32)) false))) ∧
    (∀ (s : State) (v : Word), s.host.pcieUp = true → exec (.bar0MemoryWrite 0x20 (leBytes 4 v.toNat)) s = exec (.sysIntStatusClear v) s) ∧
    (∀ (s : State) (a : BitVec 24) (b : Byte), s.host.pcieUp = true → areaOf a.toNat = .readOnly →
      exec (.bar0MemoryWrite a [b]) s = .next (s.modHost fun h => { h with accErr := true })) ∧
    (∀ (s : State) (v : Word) (a : BitVec 24) (bs : List Byte), s.host.pcieUp = false → exec (.sysIntStatusClear v) s = .next s ∧
      exec (.sysIntMaskWrite v) s = .next s ∧ exec (.sysWmNoticeClear v) s = .next s ∧ exec .sysCycleLoRead s = .next s ∧
      exec (.bar0MemoryWrite a bs) s = .next s) ∧
    (∀ (a : Word) (v : BitVec 64) (s : State), a.toNat % 4 = 0 → 0x80000000 ≤ a.toNat →
      exec (.registerWrite .internal a 4 v) s = .next (s.busWrite a.toNat (v.truncate 32)) ∧
        exec (.registerWrite .internal a 8 v) s = .next s) ∧
    ∀ (s : State) (u : FbId) (g : StgId),
      exec .lnkSeqCntClear s = .next (s.modSeq fun q => { q with torn := 0, late := 0, overCnt := 0 }) ∧
        exec (.fbQerrCntClear u) s = .next (s.modFb u fun x => { x with qerr := 0 }) ∧
        exec (.stgStatClear g 0x300) s = .next (s.modStg g fun x => { x with underrun := false, overflow := false, stretch := 0, dirDelay := 0 })

/-- A source that fails or recovers is marked so; afterwards, where some listed source is good, the PLL runs on a good
source out of holdover, and where none is, it holds over. A revert takes the first good choice where revert is 1 and
no holdover is on. The mismatch row sets ref_mismatch alone. A keeper vote with both counts near the reference clears
the votes; a first one where no two sources agree counts against all three, makes a common fault on both islands and fails the reference; the second
window in which the C keeper alone disagrees marks it failed. PCIe link-up sets the endpoint up with its enables and
the pcie bit. A function whose target is deeper enters it, another keeps its state. The watchdog of a running distaff
stops it; a switch that fails goes back and is logged. A bit of SYS_READY whose function is usable sets. DORMANT_WAKE
leaves DORMANT. -/
def Obligations.ClocksAndPowerEventsAct : Prop :=
  (∀ (src : BitVec 2) (s : State), ∃ t u : State, exec (.refclkFail src) s = .next t ∧ exec (.refclkRecover src) s = .next u ∧
      t = { s with clk := t.clk } ∧ u = { s with clk := u.clk } ∧
      (src = 0 → t.clk.goodA = false ∧ u.clk.goodA = true) ∧ (src = 1 → t.clk.goodB = false ∧ u.clk.goodB = true) ∧
      (src = 2 → t.clk.goodLink = false ∧ u.clk.goodLink = true) ∧
      ((∃ x : BitVec 2, x ∈ [t.clk.pri0, t.clk.pri1, t.clk.pri2] ∧ sourceGood t.clk x = true) →
        t.clk.holdover = false ∧ sourceGood t.clk t.clk.active = true) ∧
      ((∀ x : BitVec 2, x ∈ [t.clk.pri0, t.clk.pri1, t.clk.pri2] → sourceGood t.clk x = false) →
        t.clk.holdover = true ∧ t.clk.active = s.clk.active)) ∧
    (∀ (s : State) (x : BitVec 2), s.clk.revert = true → s.clk.holdover = false →
      [s.clk.pri0, s.clk.pri1, s.clk.pri2].find? (sourceGood s.clk) = some x →
      exec .refclkRevert s = .next (s.modClk fun c => { c with active := x })) ∧
    (∀ s : State, (s.clk.revert = false ∨ s.clk.holdover = true) → exec .refclkRevert s = .next s) ∧
    (∀ s : State, exec .refclkMismatch s = .next (s.modClk fun c => { c with mismatch := true })) ∧
    (∀ (s : State) (a b : Nat), 1987 ≤ a → a ≤ 2109 → 1987 ≤ b → b ≤ 2109 →
      exec (.keeperVote a b) s = .next (s.modClk fun c => { c with badC := 0, badF := 0, badRef := 0 })) ∧
    (∀ (s : State) (a b : Nat), a < 1987 → 2109 < b → s.clk.badC = 0 → s.clk.badF = 0 → exec (.keeperVote a b) s =
      .next (((s.modClk fun c => { c with badC := 1, badF := 1, badRef := s.clk.badRef + 1 }).commonFault 2 0).referenceFails)) ∧
    (∀ (s : State) (a b : Nat), a < 1900 → 1987 ≤ b → b ≤ 2109 → s.clk.badC = 1 → s.clk.keeperCFault = false →
      ∃ t : State, exec (.keeperVote a b) s = .next t ∧ t.clk.keeperCFault = true ∧ t.isReady rdyKeeperC = false ∧
        t.clk.keeperFFault = s.clk.keeperFFault) ∧
    (∀ (bm en : Bool) (s : State), s.pwr.held = false → s.pwr.dev ≠ .dormant →
      ∃ t : State, exec (.pcieLinkUp bm en) s = .next t ∧ t.host.pcieUp = true ∧ t.host.busMaster = bm ∧ t.host.msixEnable = en ∧
        t.isReady rdyPcie = true) ∧
    (∀ (f : Half) (x : PwrFn) (s : State), pwrFn s.pwr f = some x → pwrDepth x.st < pwrDepth (targetState s f x.tol.toNat) →
      exec (.powerStateEntry f) s = .next (s.enterPwr f (targetState s f x.tol.toNat))) ∧
    (∀ (f : Half) (x : PwrFn) (s : State), pwrFn s.pwr f = some x → pwrDepth (targetState s f x.tol.toNat) ≤ pwrDepth x.st →
      exec (.powerStateEntry f) s = .next s) ∧
    (∀ (f : Half) (s : State), pwrFn s.pwr f = none → exec (.powerStateEntry f) s = .next s) ∧
    (∀ s : State, s.pwr.dev = .dormant → ∃ t : State, exec .dormantWake s = .next t ∧ t.pwr.dev = .run ∧ t.rec_.restoreDue = true) ∧
    (∀ s : State, s.pwr.dev ≠ .dormant → exec .dormantWake s = .next s) ∧
    (∀ s : State, s.dist.st = .running → exec .distaffWatchdogExpiry s = .next (s.stopDistaff .restarting)) ∧
    (∀ s : State, s.dist.st = .switching → exec .fwSwitchFallback s =
      .next ((s.modDist fun d => { d with st := .restarting }).logEvent 5 1 (if s.dist.image = true then 0 else 1) 0)) ∧
    (∀ (b : Fin 24) (s : State), s.pwr.held = false → s.pwr.dev ≠ .dormant → b ≠ rdyDistaff → b ≠ rdyMailboxes → b ≠ rdyRecovery → b ≠ rdyCal →
      b ≠ rdySafA → b ≠ rdySafB →
      exec (.functionReady (.bit b)) s = .next (if bitReady b s = true then s.setReady b true else s)) ∧
    ∀ (x : Island) (s : State), s.pwr.held = false → s.pwr.dev ≠ .dormant → (s.isle x).failed = false →
      exec (.functionReady (.bit (if x = .a then rdySafA else rdySafB))) s =
        .next ((s.setReady (if x = .a then rdySafA else rdySafB) true).tpUp x)

/-- While interface 0 serves: an OUT transfer of n slots that fit leaves them in the ring of MB4 in order, req_pi
moved on by n and no other mailbox changed; a length that is no multiple of 64 only increments bad_out; a stage transfer with the magic
acts as STAGE_WRITE under its tag; an acknowledged IN packet takes the oldest response; a control request enters the
ring and holds the status stage under its tag, and its timeout completes that stage. A bus reset leaves the port
unconfigured with reset_event set and every tag of an uncollected completion or running command held, and counts
bad_setup only in a setup or data stage; the ring survives. A completion a reset left is discarded with a log record
of class 9. Configuration by a host sets the usb bit, and VBUS with a host
the port's speed. In recovery a DFU block 0 starts the image it names with its
bytes; a manifestation without a correct signature reports an error and changes nothing but dfu state, and one with a correct signature selects the image and boots. -/
def Obligations.UsbCarriesMailboxFour : Prop :=
  (∀ (slots : List SlotWord) (s : State), usbBulk s = true → slots.length ≤ 64 - (s.mb[(4 : MbId)].reqPi - s.mb[(4 : MbId)].reqCi).toNat →
      ∃ t : State, exec (.usbBulkOut slots (64 * slots.length)) s = .next t ∧
        t.mb[(4 : MbId)].reqPi = s.mb[(4 : MbId)].reqPi + BitVec.ofNat 7 slots.length ∧
        (∀ k : Nat, k < slots.length →
          t.mb[(4 : MbId)].req[(Fin.ofNat 64 (s.mb[(4 : MbId)].reqPi.toNat + k))] = slots.getD k 0) ∧
        (∀ m : MbId, m ≠ 4 → t.mb[m] = s.mb[m]) ∧ t.usb = s.usb ∧ t.strands = s.strands) ∧
    (∀ (slots : List SlotWord) (n : Nat) (s : State), usbBulk s = true → n % 64 ≠ 0 → exec (.usbBulkOut slots n) s =
      .next (s.modUsb fun u => { u with badOut := min 255 (u.badOut + 1) })) ∧
    (∀ (h : BitVec 128) (data : List Byte) (s : State), usbBulk s = true →
      exec (.usbStageTransfer h data) s = .next (if fieldU (bytesOf h) 0 4 = 0x47534B53 then s.stageTransfer 4 h data
        else s.modUsb fun u => { u with badOut := min 255 (u.badOut + 1) })) ∧
    (∀ s : State, usbBulk s = true → s.mb[(4 : MbId)].rspPi ≠ s.mb[(4 : MbId)].rspCi →
      ∃ t : State, exec .usbInAck s = .next t ∧ t.mb[(4 : MbId)].rspCi = s.mb[(4 : MbId)].rspCi + 1 ∧
        t.mb[(4 : MbId)].rspPi = s.mb[(4 : MbId)].rspPi ∧ t.mb[(4 : MbId)].rsp = s.mb[(4 : MbId)].rsp) ∧
    (∀ (w : SlotWord) (s : State), usbBulk s = true → s.usb.status = none → (s.mb[(4 : MbId)].reqPi - s.mb[(4 : MbId)].reqCi).toNat < 64 →
      exec (.usbControlRequest w) s = .next ((s.enterSlot 4 w).modUsb fun u => { u with status := some (slotTag w) })) ∧
    (∀ (s : State) (tag : Fin 32), s.usb.status = some tag →
      exec .usbStatusStageTimeout s = .next ((s.modUsb fun u => { u with status := none }).emit (.usbStatus true))) ∧
    (∀ (stage : UsbStage) (s : State), usbUp s = true → ∃ t : State, exec (.usbBusReset stage) s = .next t ∧
      t.usb.configured = false ∧ t.usb.resetEvent = true ∧ t.usb.status = none ∧ t.isReady rdyUsb = false ∧
      t.usb.badSetup = (if stage = .setupOrData then min 255 (s.usb.badSetup + 1) else s.usb.badSetup) ∧
      t.mb[(4 : MbId)].rsp = s.mb[(4 : MbId)].rsp ∧ t.mb[(4 : MbId)].rspPi = s.mb[(4 : MbId)].rspPi ∧
      (∀ k : Nat, s.mb[(4 : MbId)].held.getLsbD k = true → t.mb[(4 : MbId)].lateHeld.getLsbD k = true) ∧
      ∀ w : SlotWord, w ∈ uncollected s.mb[(4 : MbId)] 0 → t.mb[(4 : MbId)].lateHeld.getLsbD (slotTag w).val = true) ∧
    (∀ s : State, s.mb[(4 : MbId)].rspPi ≠ s.mb[(4 : MbId)].rspCi → s.usb.discardable ≠ 0 →
      exec .usbCompletionDiscard s = .next (s.dropResponse.logEvent 9 0 0 1)) ∧
    (∀ s : State, usbUp s = true → ∃ t : State, exec .usbSetConfiguration s = .next t ∧ t.usb.configured = true ∧ t.isReady rdyUsb = true) ∧
    (∀ (hs : Bool) (s : State), s.pwr.held = false → s.pwr.dev ≠ .dormant →
      exec (.usbVbusDetect true hs) s = .next (s.modUsb fun u => { u with speed := if hs = true then 2 else 1 })) ∧
    (∀ (image : Bool) (data : List Byte) (s : State), usbUp s = true → s.usb.dfuOnly = true → s.dist.st = .recovery → data.length ≤ 4096 →
      ∃ t : State, exec (.dfuDownload image 0 data) s = .next t ∧ (∀ k : Nat, k < data.length → sget 0xFF t.rec_.fw[imgIx image].bytes k = data.getD k 0) ∧ t.rec_.fw[imgIx image].verified = false ∧
        t.usb.dfuErr = false ∧ t.dist.st = .recovery) ∧
    (∀ (image : Bool) (s : State), usbUp s = true → s.usb.dfuOnly = true → s.dist.st = .recovery →
      exec (.dfuManifestation image false) s = .next ((s.modUsb fun u => { u with dfuErr := true }).emit (.usbStatus false)) ∧
        ∃ t : State, exec (.dfuManifestation image true) s = .next t ∧ t.dist.st = .restarting ∧ t.rec_.boot = image ∧ t.usb.dfuOnly = false)

/-- Link change sets the link, and the eth bit where address and key are held and the mailboxes serve. While the port
serves: hello leaves a challenge and sends it; an open with the right proof makes the session of the challenge with
its key, the last accepted seq 0; a wrong proof counts mac_fail, ends the challenge and leaves the session. A request
datagram whose session, mac and seq are right and whose slots fit puts them in the ring of MB5 and becomes the last
accepted seq; a stage datagram likewise acts as STAGE_WRITE; one with a wrong mac counts mac_fail alone and one out of
order seq_drop alone, and nothing enters the ring. Close ends the session. The idle timeout ends it. Resend sends
every unacknowledged completion. ARP and echo are answered where an address is held. -/
def Obligations.EthernetCarriesMailboxFive : Prop :=
  (∀ (up : Bool) (speed : BitVec 2) (s : State), s.pwr.held = false → s.pwr.dev ≠ .dormant → ∃ t : State,
      exec (.ethLinkChange up speed) s = .next t ∧ t.eth.link = up ∧ t.eth.speed = speed ∧
      t.isReady rdyEth = (up && s.eth.address.isSome && s.eth.key.isSome && s.isReady rdyMailboxes)) ∧
    (∀ (hn dn : BitVec 128) (sid : Word) (s : State), ethUp s = true → s.isReady rdyEth = true →
      ∃ t : State, exec (.ethHello hn dn sid) s = .next t ∧ t.eth.challenge = some (hn, dn, sid) ∧ t.eth.session = s.eth.session ∧
        t.out = s.out ++ [.eth (dgHead 2 0 sid.toNat 0 ++ bytesOf dn)]) ∧
    (∀ (proof : Rec32) (hn dn : BitVec 128) (sid : Word) (k : BitVec 256) (s : State), ethUp s = true → s.isReady rdyEth = true →
      s.eth.challenge = some (hn, dn, sid) → s.eth.key = some k →
      ∃ t : State, exec (.ethOpen proof) s = .next t ∧ t.eth.challenge = none ∧
        (recBytes32 proof = hmac (bytesOf k) (openText ++ bytesOf hn ++ bytesOf dn ++ leBytes 4 sid.toNat) →
          t.eth.session = some sid ∧ t.eth.sessionKey = recOf (hmac (bytesOf k) (bytesOf hn ++ bytesOf dn ++ leBytes 4 sid.toNat)) ∧
            t.eth.rxSeq = 0) ∧
        (recBytes32 proof ≠ hmac (bytesOf k) (openText ++ bytesOf hn ++ bytesOf dn ++ leBytes 4 sid.toNat) →
          t.eth.session = s.eth.session ∧ t.eth.macFail = min 255 (s.eth.macFail + 1))) ∧
    (∀ (dg : Datagram) (slots : List SlotWord) (s : State), ethUp s = true → s.isReady rdyEth = true → 1 ≤ slots.length → slots.length ≤ 16 →
      s.eth.session = some dg.session → recBytes32 dg.mac = hmac (bytesOf s.eth.sessionKey) (dgBody 4 dg (slots.flatMap slotBytes)) →
      (dg.seq = s.eth.rxSeq + 1 → slots.length ≤ 64 - (s.mb[(5 : MbId)].reqPi - s.mb[(5 : MbId)].reqCi).toNat →
        ∃ t : State, exec (.ethRequestDatagram dg slots) s = .next t ∧ t.eth.rxSeq = dg.seq ∧
          t.mb[(5 : MbId)].reqPi = s.mb[(5 : MbId)].reqPi + BitVec.ofNat 7 slots.length ∧
          ∀ k : Nat, k < slots.length →
            t.mb[(5 : MbId)].req[(Fin.ofNat 64 (s.mb[(5 : MbId)].reqPi.toNat + k))] = slots.getD k 0) ∧
      (dg.seq ≠ s.eth.rxSeq + 1 → exec (.ethRequestDatagram dg slots) s =
        .next ((s.wakeFn 0x0700).modEth fun e => { e with seqDrop := min 255 (e.seqDrop + 1) }))) ∧
    (∀ (dg : Datagram) (slots : List SlotWord) (s : State), ethUp s = true → s.isReady rdyEth = true → 1 ≤ slots.length → slots.length ≤ 16 →
      (s.eth.session ≠ some dg.session ∨ recBytes32 dg.mac ≠ hmac (bytesOf s.eth.sessionKey) (dgBody 4 dg (slots.flatMap slotBytes))) →
      exec (.ethRequestDatagram dg slots) s = .next ((s.wakeFn 0x0700).modEth fun e => { e with macFail := min 255 (e.macFail + 1) })) ∧
    (∀ (dg : Datagram) (h : BitVec 128) (data : List Byte) (s : State), ethUp s = true → s.isReady rdyEth = true → data.length ≤ 1360 →
      stageMagic h = true → s.eth.session = some dg.session → dg.seq = s.eth.rxSeq + 1 →
      recBytes32 dg.mac = hmac (bytesOf s.eth.sessionKey) (dgBody 7 dg (bytesOf h ++ data)) →
      exec (.ethStageDatagram dg h data) s = .next (((s.wakeFn 0x0700).modEth fun e => { e with rxSeq := dg.seq }).stageTransfer 5 h data)) ∧
    (∀ (dg : Datagram) (st : Half) (s : State), ethUp s = true → s.isReady rdyEth = true → s.eth.session = some dg.session →
      dg.seq = s.eth.rxSeq + 1 → recBytes32 dg.mac = hmac (bytesOf s.eth.sessionKey) (dgBody 6 dg (leBytes 2 st.toNat)) →
      exec (.ethClose dg st) s = .next ((s.wakeFn 0x0700).modEth fun e => { e with session := none, unacked := [] })) ∧
    (∀ s : State, exec .ethSessionIdleTimeout s = .next (s.modEth fun e => { e with session := none, unacked := [] })) ∧
    (∀ (s : State) (sid : Word), ethUp s = true → s.eth.session = some sid → s.eth.unacked ≠ [] → exec .ethCompletionResend s = .next s.resendAll) ∧
    ∀ (icmp : Bool) (rq : List Byte) (a : BitVec 96) (s : State), ethUp s = true → s.eth.address = some a →
      ∃ (t : State) (reply : List Byte), exec (.ethArpIcmp icmp rq) s = .next t ∧ t.out = s.out ++ [.eth reply]

/-- With the endpoint up and bench mode off, a BAR2 access only counts in bar2_denied, and a read answers all ones; in
bench mode a write that no port-A write meets and that meets no bit error stores its bytes, and a read of up to the
end of the banks answers what stands there, marked where a word is poisoned. With the pool enabled: an allocation
gives out the head of the free list, which takes that bobbin's link; a release of a taken bobbin puts it at the head with the
old head as its link, one of a bad or free index only counts in rel_err; with the list empty the link row counts a drop, the command row changes nothing and the distaff's
own request waits. The clear rows clear their counters. A finished clear and enabling the pool act once; enabling links every bobbin of the pool to the next. A scrub pass
on a bank that runs, is not in mode 1 and is not clearing reports a single-bit error as corrected and remembers the
word. -/
def Obligations.BanksAndPoolEventsAct : Prop :=
  (∀ (off : BitVec 25) (n : Nat) (portA : List Nat) (ecc : List EccErr) (bs : List Byte) (s : State), s.host.pcieUp = true → s.host.bench = false →
      exec (.bar2Access off n (some bs) portA ecc) s = .next (s.modHost fun h => { h with bar2Denied := min 255 (h.bar2Denied + 1) }) ∧
      exec (.bar2Access off n none portA ecc) s =
        .next ((s.modHost fun h => { h with bar2Denied := min 255 (h.bar2Denied + 1) }).emit (.busRead (List.replicate n 0xFF) false))) ∧
    (∀ (off : BitVec 25) (n : Nat) (bs : List Byte) (s : State), s.host.pcieUp = true → s.host.bench = true →
      off.toNat + bs.length ≤ 0x02000000 → off.toNat + n ≤ 0x02000000 →
      exec (.bar2Access off n (some bs) [] []) s =
        .next ((s.wakeRange off.toNat (off.toNat + bs.length)).modMem fun m => m.mergeBytes off.toNat bs).tick ∧
      exec (.bar2Access off n none [] []) s =
        .next ((s.wakeRange off.toNat (off.toNat + n)).emit (.busRead ((s.wakeRange off.toNat (off.toNat + n)).mem.readBytes off.toNat n)
          (firstPoison (s.wakeRange off.toNat (off.toNat + n)).mem off.toNat (off.toNat + n)).isSome))) ∧
    (∀ (s : State) (u : PoolUser), s.mem.poolEn = true → s.mem.head ≠ 0x3FFFF → (∀ b : BankId, s.pwr.banks[b].st = .run) →
      ∃ t : State, exec (.bobbinAllocate u) s = .next t ∧ t.mem.head = s.mem.linkOf s.mem.head ∧ t.mem.freeCount = s.mem.freeCount - 1 ∧
        t.mem.handed = s.mem.handed ++ [(u, s.mem.head)] ∧ t.mem.cells = s.mem.cells ∧ t.mem.linkDrop = s.mem.linkDrop ∧
        t.mem.relErr = s.mem.relErr ∧ t.mem.waiters = (if u = .own then 0 else s.mem.waiters)) ∧
    (∀ s : State, s.mem.poolEn = true → s.mem.head = 0x3FFFF →
      exec (.bobbinAllocate .link) s = .next (s.modMem fun m => { m with linkDrop := min 255 (m.linkDrop + 1) }) ∧
        exec (.bobbinAllocate .command) s = .next s ∧
        exec (.bobbinAllocate .own) s = .next (s.modMem fun m => { m with waiters := 1 })) ∧
    (∀ (i : Sample) (s : State), s.mem.poolEn = true → i.toNat < s.mem.poolSize → i.toNat ∈ s.mem.used → s.mem.head < 2 ^ 18 → Canonical s →
      ∃ t : State, exec (.bobbinRelease i) s = .next t ∧ t.mem.head = i.toNat ∧ t.mem.linkOf i.toNat = s.mem.head ∧
        t.mem.freeCount = s.mem.freeCount + 1 ∧ t.mem.relErr = s.mem.relErr ∧ (s.mem.freeCount = 0 → t.mem.notice = true)) ∧
    (∀ (i : Sample) (s : State), s.mem.poolEn = true → i.toNat ∉ s.mem.used →
      exec (.bobbinRelease i) s = .next (s.modMem fun m => { m with relErr := min 255 (m.relErr + 1) })) ∧
    (∀ s : State, s.mem.poolEn = true → exec .bnkPoolEnable s = .next s) ∧
    (∀ s : State, s.mem.poolEn = false → ∃ t : State, exec .bnkPoolEnable s = .next t ∧ t.mem.poolEn = true ∧
      t.mem.poolBase = s.mem.poolBase ∧ t.mem.poolCount = s.mem.poolCount ∧ t.mem.head = 0 ∧ t.mem.freeCount = s.mem.poolSize ∧
      ∀ i : Nat, i < s.mem.poolSize → t.mem.linkOf i = if i + 1 < s.mem.poolSize then i + 1 else 0x3FFFF) ∧
    (∀ s : State, ∃ t : State, exec .bnkPoolCntClear s = .next t ∧ t.mem.linkDrop = 0 ∧ t.mem.relErr = 0 ∧ t.mem.head = s.mem.head ∧ t.mem.freeCount = s.mem.freeCount) ∧
    (∀ (b : BankId) (s : State), exec (.bnkCollCntClear b) s = .next (s.modMem fun m => m.modBank b fun c => { c with coll := 0 }) ∧
      exec (.bnkErrClear b 0x10001) s = .next (s.modMem fun m => m.modBank b fun c => { c with ce := 0, ue := 0 })) ∧
    (∀ (b : BankId) (s : State), s.mem.banks[b].clearing = true →
      exec (.bankClearDone b) s = .next (s.modMem fun m => m.modBank b fun c => { c with clearing := false })) ∧
    (∀ (b : BankId) (s : State), s.mem.banks[b].clearing = false → exec (.bankClearDone b) s = .next s) ∧
    ∀ (b : BankId) (s : State), s.pwr.banks[b].st = .run → s.mem.banks[b].pmode ≠ 1 → s.mem.banks[b].clearing = false →
      (∃ t : State, exec (.scrubPass b []) s = .next t ∧ t.mem.banks[b].lastFixed = [] ∧ t.mem.cells = s.mem.cells) ∧
        ((∀ g : Nat, g ∈ s.mem.poison → g / 131072 ≠ b.val) → s.mem.banks[b].lastFixed = [] →
          ∃ t : State, exec (.scrubPass b [⟨b.val * 131072, false⟩]) s = .next t ∧ t.mem.banks[b].lastFixed = [b.val * 131072] ∧
            t.mem.banks[b].ce = satAdd 65535 s.mem.banks[b].ce 1 ∧
            t.mem.banks[b].rows = s.mem.banks[b].rows)

/-- While the cyclic blocks run: a ply update that falls due on an engine that works is the step of its plies, then the
runtime; on an engine at rest under the standard laws it changes only its own strand (and the counter of free values), whose
out_limit tells the saturation of its plies, and nothing of a strand in OFF; one that does not fall due changes nothing; the
contact sheet gets the page of its parity with its seq up by two, the cycle and every strand's entry, and vector 1's bit sets.
Standstill of a stopping strand ends its stop at the strand's next update, in READY or in RUN as the stop says. A cause that
occurs on a strand not in OFF waits for its next update (R90): that of a stop 100 ms late, a following error that has lasted
ferr_time, too many skipped updates, a master missing beyond hold_cycles, a stall that has lasted, a current sum over its bound
and a lost auxiliary loop; and nothing happens where the condition does not hold. A finished alignment begins the turn, and a
duty input silent for 100 ms reads as its level. -/
def Obligations.CycleAndStrandEventsAct : Prop :=
  (∀ (i : StrandId) (j : Byte) (s : State), coreUp s = true → s.seq.running = true → plyDue s.strands[i].cfg s.seq.cycle.toNat j.toNat = true →
      engineWorks s s.strands[i].engine = true →
      exec (.plyUpdate i j) s = .next ((s.plyStep i j.toNat).runtime s.strands[i].engine) ∧
      (userEntry s s.strands[i].engine 3 = false → s.engines[s.strands[i].engine].run = .halted →
        ∃ t : State, exec (.plyUpdate i j) s = .next t ∧ (∀ k : StrandId, k ≠ i → t.strands[k] = s.strands[k]) ∧
          t = { s with strands := t.strands, free := t.free } ∧
          (s.strands[i].st = .off → t = s) ∧ t.strands[i].st = s.strands[i].st ∧ t.strands[i].cfg = s.strands[i].cfg ∧
          (s.strands[i].hasPlies = true → s.strands[i].st = .run → s.strands[i].abandoned ≠ some s.seq.cycle →
            t.free = s.free + 1 ∧
              t.strands[i].outLimit = (t.strands[i].ply.satCur || t.strands[i].ply.satVel || t.strands[i].ply.satPos)))) ∧
    (∀ (i : StrandId) (j : Byte) (s : State), plyDue s.strands[i].cfg s.seq.cycle.toNat j.toNat = false → exec (.plyUpdate i j) s = .next s) ∧
    (∀ s : State, coreUp s = true → s.seq.running = true → ∃ t : State, exec .sheetPublish s = .next t ∧
      t.host.sheets[(Fin.ofNat 2 s.seq.cycle.toNat)].cycle = s.seq.cycle ∧
      t.host.sheets[(Fin.ofNat 2 s.seq.cycle.toNat)].seq = s.host.sheets[(Fin.ofNat 2 s.seq.cycle.toNat)].seq + 2 ∧
      (∀ i : StrandId, t.host.sheets[(Fin.ofNat 2 s.seq.cycle.toNat)].entries[i] = sheetEntry s.strands[i]) ∧
      t.host.sheets[(Fin.ofNat 2 (s.seq.cycle.toNat + 1))] = s.host.sheets[(Fin.ofNat 2 (s.seq.cycle.toNat + 1))] ∧
      t.host.intStatus.getLsbD 1 = true ∧ t.strands = s.strands) ∧
    (∀ (i : StrandId) (c : Nat) (s : State), s.strands[i].st ≠ .off →
      s.raiseCause i c = s.modStrand i fun x => { x with raised := setBit x.raised c true }) ∧
    (∀ (i : StrandId) (s : State), coreUp s = true → s.strands[i].stop.isSome = true → s.strands[i].atStandstill = true →
      exec (.standstill i) s = .next (s.modStrand i fun x => { x with restDue := true })) ∧
    (∀ (i : StrandId) (r : StopRun) (s : State), s.strands[i].stop = some r → s.strands[i].restDue = true → s.strands[i].raised = 0 →
      s.strands[i].atStandstill = true → r.after = .toReady ∨ r.after = .toRun →
      (s.otherEvents i).strands[i].stop = none ∧ (s.otherEvents i).strands[i].st = if r.after = .toReady then .ready else .run) ∧
    (∀ (i : StrandId) (s : State), s.strands[i].stop = none → exec (.standstill i) s = .next s ∧ exec (.stopTimeout i) s = .next s) ∧
    (∀ (i : StrandId) (r : StopRun) (s : State), coreUp s = true → s.strands[i].stop = some r → r.planned + 400000 < r.plan.t →
      s.strands[i].atStandstill = false → exec (.stopTimeout i) s = .next (s.raiseCause i causeStopTimeout)) ∧
    (∀ (i : StrandId) (b : PlyBlock) (s : State), s.strands[i].cfg.pos = some b → coreUp s = true →
      (b.ferrLimit ≠ 0 → s.strands[i].ply.ferrCount ≠ 0 → b.ferrTime ≤ s.strands[i].ply.ferrCount →
        exec (.followingError i) s = .next (s.raiseCause i causeFollowing)) ∧
      (b.ferrLimit = 0 ∨ s.strands[i].ply.ferrCount = 0 ∨ s.strands[i].ply.ferrCount < b.ferrTime → exec (.followingError i) s = .next s)) ∧
    (∀ (i : StrandId) (s : State), coreUp s = true →
      (s.strands[i].skipped ≠ 0 → overrunLimitOf s s.strands[i] ≤ s.strands[i].skipped →
        exec (.cycleOverrun i) s = .next (s.raiseCause i causeOverrun)) ∧
      (s.strands[i].skipped = 0 ∨ s.strands[i].skipped < overrunLimitOf s s.strands[i] → exec (.cycleOverrun i) s = .next s)) ∧
    (∀ (i : StrandId) (e : Engage) (s : State), coreUp s = true → s.strands[i].engage = some e →
      (s.strands[i].cfg.holdCycles < e.missing → exec (.pubMissing i) s = .next (s.raiseCause i causePubMissing)) ∧
      (e.missing ≤ s.strands[i].cfg.holdCycles → exec (.pubMissing i) s = .next s)) ∧
    (∀ (i : StrandId) (b : StepperBlock) (s : State), coreUp s = true → s.strands[i].cfg.step = some b →
      (b.window ≠ 0 → s.strands[i].ply.stallTime ≠ 0 → b.stallTime ≤ s.strands[i].ply.stallTime →
        exec (.stall i) s = .next (s.raiseCause i causeStall)) ∧
      (b.window = 0 ∨ s.strands[i].ply.stallTime = 0 ∨ s.strands[i].ply.stallTime < b.stallTime → exec (.stall i) s = .next s)) ∧
    (∀ (i : StrandId) (s : State), coreUp s = true → s.strands[i].cfg.step = none → exec (.stall i) s = .next s) ∧
    (∀ (i : StrandId) (s : State), coreUp s = true →
      (3 ≤ s.strands[i].ply.sumCount → exec (.currentSum i) s = .next (s.raiseCause i causeCurrentSum)) ∧
      (s.strands[i].ply.sumCount < 3 → exec (.currentSum i) s = .next s)) ∧
    (∀ (i : StrandId) (s : State), coreUp s = true →
      (auxLost s.strands[i] = true → exec (.auxSyncLoss i) s = .next (s.raiseCause i causeAuxSync)) ∧
      (auxLost s.strands[i] = false → exec (.auxSyncLoss i) s = .next s)) ∧
    (∀ (i : StrandId) (s : State), coreUp s = true → s.strands[i].isAux = true → s.strands[i].aux.phase = .align → s.strands[i].aux.alignLeft = 0 →
      exec (.auxAlignmentEnd i) s = .next (s.modStrand i fun x => { x with aux := { x.aux with phase := .openUp } })) ∧
    ∀ (i : StrandId) (time : Nat) (u : FbId) (s : State), coreUp s = true → dutyStale s time s.strands[i] = true → s.strands[i].cfg.fb = some u →
      exec (.auxDutyTimeout i time) s =
        .next (s.modStrand i fun x => { x with aux := { x.aux with duty := if s.fbs[u].a = true then 65535 else 0, rise := 0 } })

/-- While the cyclic blocks run: at a valley of a running, unfrozen carrier the duty, period and dead-time
shadows apply and the counter is 0, at a peak the duties do only with double update on an up-down carrier; a frozen or
stopped carrier takes nothing, and one that waits for its valley after a freeze no peak. A force write sets the whole register, a pair write the two bits of pairs 0 to 11 and
nothing for 12 to 15. A trip latch clears only where no cause is present, of its pair or of another input of its axis. A sinc2 value over a limit that is not 0
latches every pair of the owning axis and makes OVERCURRENT wait for the strand's next update, unless it is in OFF, and so does a
stuck input; one at the limit, or of an input no axis owns,
changes only the value. An active enabled gate-fault input latches its event and the owned pairs it guards, and GATE_FAULT
waits on their strands; an active one that is not enabled only its event, and any other level changes only the pin. A sample-ready at an update boundary hands the quad its new samples, unless its filters settle. Each
chopper row moves its phase on, the end of a drive where the current has reached its reference; a winding it does not fit
stays. A strand whose hold delay is over takes the hold current. A step generator emits the step of its entry, counts it in its
direction, takes the next entry, or
idles with underrun where the last lacked end; a push into a full queue sets overflow, one with room joins the queue.
ENLARGER_TIMEOUT leaves the
state: the pending distance completes at the present rate. -/
def Obligations.PowerStageEventsAct : Prop :=
  (∀ (q : QuadId) (s : State), coreUp s = true → quadEnabled s q = true → s.quads[q].cfg.run = true → s.quads[q].frozen = false →
      (∃ t : State, exec (.pwmBoundary q false) s = .next t ∧ t.quads[q].duty = s.quads[q].dutySh ∧ t.quads[q].cnt = 0 ∧
        t.quads[q].cfg.period = s.quads[q].sh.period ∧ t.quads[q].cfg.dead = s.quads[q].sh.dead ∧ t.strands = s.strands ∧
        ∀ k : QuadId, k ≠ q → t.quads[k] = s.quads[k]) ∧
      (s.quads[q].cfg.dbl = true → s.quads[q].cfg.saw = false → s.quads[q].waitValley = false → exec (.pwmBoundary q true) s =
        .next (s.modQuad q fun x => { x with duty := x.dutySh, was := levelsAt true x, cnt := x.cfg.period >>> 1, down := true }))) ∧
    (∀ (q : QuadId) (s : State), s.quads[q].waitValley = true → exec (.pwmBoundary q true) s = .next s) ∧
    (∀ (q : QuadId) (p : Bool) (s : State), (s.quads[q].cfg.run = false ∨ s.quads[q].frozen = true) →
      exec (.pwmBoundary q p) s = .next s) ∧
    (∀ (q : QuadId) (v : Word) (s : State), coreUp s = true →
      ∃ t : State, exec (.pwmForceWrite q v) s = .next t ∧ t = { s with quads := t.quads } ∧ t.quads[q].force = v.truncate 24 ∧
        t.quads[q] = { s.quads[q] with force := t.quads[q].force, wait := t.quads[q].wait } ∧ ∀ k : QuadId, k ≠ q → t.quads[k] = s.quads[k]) ∧
    (∀ (q : QuadId) (v : Word) (s : State), coreUp s = true → ∃ t : State, exec (.pwmForcePairWrite q v) s = .next t ∧
      (12 ≤ v.toNat % 16 → t = s) ∧
      (v.toNat % 16 < 12 → ∀ k : Nat, k < 24 → t.quads[q].force.getLsbD k =
        if k / 2 = v.toNat % 16 then v.getLsbD (4 + k % 2) else s.quads[q].force.getLsbD k)) ∧
    (∀ (q : QuadId) (v : Word) (s : State), coreUp s = true → ∃ t : State, exec (.pwmTripClear q v) s = .next t ∧
      ∀ p : PairId, t.quads[q].trip.getLsbD p.val =
        (s.quads[q].trip.getLsbD p.val && !(v.getLsbD p.val && !latchCause s q p))) ∧
    (∀ (q : QuadId) (p : PairId) (data : List Bool) (i : StrandId) (s : State), coreUp s = true → quadEnabled s q = true →
      s.quads[q].cfg.clkEn = true → s.ownerOf q p = some i → s.strands[i].st ≠ .off →
      s.quads[q].cfg.limit[p] ≠ 0 → (s.quads[q].cfg.limit[p].toNat : Int) < |(fastOf s.quads[q].cfg data).toInt| →
      exec (.overcurrentTrip q p data) s = .next ((s.modQuad q fun x => { x with
        fast := x.fast.set p (fastOf s.quads[q].cfg data), trip := setTrips x.trip (ownedPairs s.strands[i].cfg.binding)
        tripped := setBit x.tripped p.val true }).modStrand i fun x => { x with raised := setBit x.raised causeOvercurrent true })) ∧
    (∀ (q : QuadId) (p : PairId) (data : List Bool) (s : State), coreUp s = true → quadEnabled s q = true → s.quads[q].cfg.clkEn = true →
      (s.quads[q].cfg.limit[p] = 0 ∨ |(fastOf s.quads[q].cfg data).toInt| ≤ (s.quads[q].cfg.limit[p].toNat : Int) ∨ s.ownerOf q p = none) →
      exec (.overcurrentTrip q p data) s = .next (s.modQuad q fun x => { x with fast := x.fast.set p (fastOf s.quads[q].cfg data) })) ∧
    (∀ (q : QuadId) (p : PairId) (i : StrandId) (s : State), coreUp s = true → quadEnabled s q = true → s.quads[q].cfg.clkEn = true →
      s.ownerOf q p = some i → s.strands[i].st ≠ .off →
      exec (.sddStuck q p true) s = .next ((s.modQuad q fun x => { x with
        stuck := setBit x.stuck p.val true, trip := setTrips x.trip (ownedPairs s.strands[i].cfg.binding)
        tripped := setBit x.tripped p.val true }).modStrand i fun x => { x with raised := setBit x.raised causeOvercurrent true })) ∧
    (∀ (q : QuadId) (g : SlotId) (level : Bool) (s : State), coreUp s = true → quadEnabled s q = true →
      level ≠ s.quads[q].cfg.gfLevel.getLsbD g.val →
      exec (.gateFaultInput q g level) s = .next (s.modQuad q fun x => { x with gfPin := setBit x.gfPin g.val level })) ∧
    (∀ (q : QuadId) (g : SlotId) (level : Bool) (s : State), coreUp s = true → quadEnabled s q = true →
      s.quads[q].cfg.gfEnable.getLsbD g.val = false → level = s.quads[q].cfg.gfLevel.getLsbD g.val →
      exec (.gateFaultInput q g level) s = .next (s.modQuad q fun x => { x with
        gfPin := setBit x.gfPin g.val level, gfEvent := setBit x.gfEvent g.val true })) ∧
    (∀ (q : QuadId) (g : SlotId) (level : Bool) (s : State), coreUp s = true → quadEnabled s q = true →
      s.quads[q].cfg.gfEnable.getLsbD g.val = true → level = s.quads[q].cfg.gfLevel.getLsbD g.val →
      ∃ t : State, exec (.gateFaultInput q g level) s = .next t ∧ t.quads[q].gfEvent.getLsbD g.val = true ∧
        (∀ p : PairId, t.quads[q].trip.getLsbD p.val =
          (s.quads[q].trip.getLsbD p.val || (decide (p ∈ guardedPairs g) && (s.ownerOf q p).isSome))) ∧
        ∀ i ∈ s.strandsOfQuad q, (∃ p ∈ guardedPairs g, p ∈ ownedPairs s.strands[i].cfg.binding) → s.strands[i].st ≠ .off →
          t.strands[i].raised.getLsbD causeGateFault = true) ∧
    (∀ (q : QuadId) (at_ : SampleInstant) (data : List (List Bool)) (s : State), coreUp s = true → quadEnabled s q = true →
      s.quads[q].cfg.run = true → s.quads[q].cfg.clkEn = true →
      (at_.peak = false ∨ (s.quads[q].cfg.dbl = true ∧ s.quads[q].cfg.saw = false)) →
      exec (.sampleReady q at_ data) s = .next (s.quadReady q at_ data)) ∧
    (∀ (data : List (List Bool)) (x : Quad), (x.settling ≠ 0 → takeSamples data x = x) ∧ (x.settling = 0 → ∀ i : Fin 12,
      (takeSamples data x).data[i] = BitVec.ofInt 18 (sampleOf (osr3Of x.cfg.osr3) (sinc3 (osr3Of x.cfg.osr3) (data.getD i.val []))))) ∧
    (∀ (q : QuadId) (p : PairId) (s : State), coreUp s = true → s.quads[q].windings[p].phase = .drive → driveOver s.quads[q] p = true →
      ∃ t : State, exec (.chopperDriveEnd q p) s = .next t ∧
        t.quads[q].windings[p].phase = (if splitOf s.quads[q] p = 0 then .slow else .fast)) ∧
    (∀ (q : QuadId) (p : PairId) (s : State), coreUp s = true → driveOver s.quads[q] p = false → exec (.chopperDriveEnd q p) s = .next s) ∧
    (∀ (q : QuadId) (p : PairId) (s : State), coreUp s = true → s.quads[q].windings[p].phase = .slow →
      ∃ t : State, exec (.chopperOffTimeEnd q p) s = .next t ∧ t.quads[q].windings[p].phase = .drive ∧ t.strands = s.strands) ∧
    (∀ (q : QuadId) (p : PairId) (s : State), coreUp s = true → s.quads[q].windings[p].phase = .fast →
      ∃ t u : State, exec (.chopperFastDecayEnd q p) s = .next t ∧ exec (.chopperOffTimeEnd q p) s = .next u ∧
        t.quads[q].windings[p].phase = (if splitOf s.quads[q] p < 16 then .slow else .fast) ∧
        u.quads[q].windings[p].phase = (if splitOf s.quads[q] p = 16 then .drive else .fast)) ∧
    (∀ (i : StrandId) (s : State), holdDue s.strands[i] = true →
      ∃ t : State, exec (.stepperHoldCurrent i) s = .next t ∧ t.strands[i] = { s.strands[i] with holdCur := true }) ∧
    (∀ (g : StgId) (e : StgEntry) (s : State), s.stgs[g].current = some e → ∃ t : State, exec (.stepEmit g) s = .next t ∧
      t.out = s.out ++ [.stepPulse g (e.dir != s.stgs[g].cfg.dirPol)] ∧ t.stgs[g].count = (if e.dir = true then s.stgs[g].count - 1 else s.stgs[g].count + 1) ∧
      (s.stgs[g].queue = [] → t.stgs[g].idle = true ∧ t.stgs[g].current = none ∧ t.stgs[g].underrun = (s.stgs[g].underrun || !e.last)) ∧
      ∀ (n : StgEntry) (r : List StgEntry), s.stgs[g].queue = n :: r →
        t.stgs[g].queue = r ∧ t.stgs[g].current = some n ∧ t.stgs[g].underrun = s.stgs[g].underrun) ∧
    (∀ (g : StgId) (v : Word) (s : State), coreUp s = true → s.stgs[g].cfg.enable = true → s.stgs[g].queue.length = 64 →
      exec (.stgPushWrite g v) s = .next (s.modStg g fun x => { x with overflow := true })) ∧
    (∀ (g : StgId) (v : Word) (s : State), coreUp s = true → s.stgs[g].cfg.enable = true → s.stgs[g].queue.length < 64 → s.stgs[g].idle = false →
      exec (.stgPushWrite g v) s = .next (s.modStg g fun x => { x with queue := x.queue ++ [⟨v.truncate 27, v.getLsbD 30, v.getLsbD 31⟩] })) ∧
    ∀ (i : StrandId) (s : State), exec (.enlargerTimeout i) s = .next s

/-- On a unit in quadrature mode whose direction is not inverted, when lines change that have stood for the filter time
(R169): each of the four
forward transitions adds 1, each of the four reverse ones takes 1, lines that stay leave the count; a double change
moves the count by 2 in the observer's direction where the speed magnitude is at least 0.25 count a sample (50,000,000
counts/s, held in units of 2^-32) and leaves it otherwise, and in both cases sets qerr in FB_STAT and increments the
counter. A single change leaves qerr and the counter. The count wraps at 32 bits. A change of the A line before its level has stood
for the filter time is not accepted: lines, count and qerr stay. -/
def Obligations.QuadratureCountsFollowTheTable : Prop :=
  (∀ (i : FbId) (a b : Bool) (n : Nat) (s : State), coreUp s = true → s.fbs[i].cfg.mode = 1 → s.fbs[i].a ≠ a →
      lineSteady (s.fbs[i].clock + n) s.fbs[i] 0 = false →
      ∃ t : State, exec (.quadratureEdge i a b n) s = .next t ∧ t.fbs[i].a = s.fbs[i].a ∧ t.fbs[i].b = s.fbs[i].b ∧
        t.fbs[i].count = s.fbs[i].count ∧ t.fbs[i].qerr = s.fbs[i].qerr) ∧
    ∀ (i : FbId) (a b : Bool) (n : Nat) (s : State), coreUp s = true → s.fbs[i].cfg.mode = 1 → s.fbs[i].cfg.invert = false →
      (∀ l : Fin 3, lineSteady (s.fbs[i].clock + n) s.fbs[i] l = true) →
      ∃ t : State, exec (.quadratureEdge i a b n) s = .next t ∧ t.fbs[i].a = a ∧ t.fbs[i].b = b ∧
        ((s.fbs[i].a, s.fbs[i].b, a, b) ∈ [(false, false, true, false), (true, false, true, true), (true, true, false, true), (false, true, false, false)] →
          t.fbs[i].count = s.fbs[i].count + 1) ∧
        ((s.fbs[i].a, s.fbs[i].b, a, b) ∈ [(true, false, false, false), (true, true, true, false), (false, true, true, true), (false, false, false, true)] →
          t.fbs[i].count = s.fbs[i].count - 1) ∧
        ((s.fbs[i].a, s.fbs[i].b) = (a, b) → t.fbs[i].count = s.fbs[i].count) ∧
        (s.fbs[i].a = a ∨ s.fbs[i].b = b → t.fbs[i].qerr = s.fbs[i].qerr ∧ t.fbs[i].stat.getLsbD 0 = s.fbs[i].stat.getLsbD 0) ∧
        (s.fbs[i].a ≠ a → s.fbs[i].b ≠ b →
          t.fbs[i].stat.getLsbD 0 = true ∧ t.fbs[i].qerr = min 65535 (s.fbs[i].qerr + 1) ∧
          (50000000 * 2 ^ 32 ≤ (advanceFb (s.key i) n s.fbs[i]).vHat → t.fbs[i].count = s.fbs[i].count + 2) ∧
          ((advanceFb (s.key i) n s.fbs[i]).vHat ≤ -(50000000 * 2 ^ 32) → t.fbs[i].count = s.fbs[i].count - 2) ∧
          (|(advanceFb (s.key i) n s.fbs[i]).vHat| < 50000000 * 2 ^ 32 → t.fbs[i].count = s.fbs[i].count))

/-- While the cyclic blocks run: in Hall mode a code of 000 or 111 holds sector and count, sets its flag and counts
qerr unless it follows another; a step to an adjacent sector moves the count by one, a skip by the shorter way with hall_skip and qerr. In
up/down mode an up edge alone adds 1, a down edge alone takes 1, both together nothing; outside the counting modes the row's levels
are followed without a count. All this of lines that have stood for the filter time (R169). A serial frame starts only
where the grid allows and opens the frame; its end closes it with the word as the position, and a BiSS-C word with a bad CRC or an SSI word with the
line low is not used, sets its flag and counts; a timeout, 20 µs after the frame's start, likewise closes it and counts, and sooner it does
not. Without a frame, or an event of another mode, nothing changes. The
extension follows the count without a wrong branch. An index edge captures the count. A probe edge the arming does not
want changes nothing, one within 1 us of the last only counts an overrun, and another is taken as the next record; a stamp outside the
present cycle is taken as that of its start. A compare pulse ends; COMPARE_FIRE lets its source go on by its samples; a unit without an
active list fires nothing, and a position that passes the one entry of a list fires the pulse and ends the list. -/
def Obligations.FeedbackEventsAct : Prop :=
  (∀ (i : FbId) (code : BitVec 3) (n : Nat) (s : State), coreUp s = true → s.fbs[i].cfg.mode = 2 → (code = 0 ∨ code = 7) →
      (∀ l : Fin 3, lineSteady (s.fbs[i].clock + n) s.fbs[i] l = true) →
      ∃ t : State, exec (.hallCodeChange i code n) s = .next t ∧ t.fbs[i].sector = s.fbs[i].sector ∧ t.fbs[i].count = s.fbs[i].count ∧
        t.fbs[i].stat.getLsbD 1 = true ∧
        t.fbs[i].qerr = if s.fbs[i].hall = 0 ∨ s.fbs[i].hall = 7 then s.fbs[i].qerr else min 65535 (s.fbs[i].qerr + 1)) ∧
    (∀ (i : FbId) (code : BitVec 3) (m : Nat) (o n : Fin 6) (s : State), coreUp s = true → s.fbs[i].cfg.mode = 2 → s.fbs[i].cfg.invert = false →
      s.fbs[i].sector = some o → hallSector code = some n →
      (∀ l : Fin 3, lineSteady (s.fbs[i].clock + m) s.fbs[i] l = true) →
      ∃ t : State, exec (.hallCodeChange i code m) s = .next t ∧ t.fbs[i].sector = some n ∧
        ((n.val + 6 - o.val) % 6 = 1 → t.fbs[i].count = s.fbs[i].count + 1 ∧ t.fbs[i].qerr = s.fbs[i].qerr) ∧
        ((n.val + 6 - o.val) % 6 = 5 → t.fbs[i].count = s.fbs[i].count - 1 ∧ t.fbs[i].qerr = s.fbs[i].qerr) ∧
        ((n.val + 6 - o.val) % 6 = 2 → t.fbs[i].count = s.fbs[i].count + 2 ∧ t.fbs[i].stat.getLsbD 2 = true ∧ t.fbs[i].qerr = min 65535 (s.fbs[i].qerr + 1)) ∧
        ((n.val + 6 - o.val) % 6 = 3 → t.fbs[i].count = s.fbs[i].count + 3 ∧ t.fbs[i].stat.getLsbD 2 = true) ∧
        ((n.val + 6 - o.val) % 6 = 4 → t.fbs[i].count = s.fbs[i].count - 2 ∧ t.fbs[i].stat.getLsbD 2 = true)) ∧
    (∀ (i : FbId) (a b : Bool) (n : Nat) (s : State), coreUp s = true → s.fbs[i].cfg.mode = 6 → s.fbs[i].cfg.invert = false →
      (∀ l : Fin 3, lineSteady (s.fbs[i].clock + n) s.fbs[i] l = true) →
      ∃ t : State, exec (.pulseEdge i a b n) s = .next t ∧ t.fbs[i].qerr = s.fbs[i].qerr ∧
        t.fbs[i].count = s.fbs[i].count + (if a = true ∧ s.fbs[i].a = false then 1 else 0) - (if b = true ∧ s.fbs[i].b = false then 1 else 0)) ∧
    (∀ (i : FbId) (a b : Bool) (code : BitVec 3) (n : Nat) (s : State), s.fbs[i].cfg.mode = 0 →
      exec (.quadratureEdge i a b n) s = .next s ∧ exec (.hallCodeChange i code n) s = .next s ∧ exec (.indexEdge i) s = .next s) ∧
    (∀ (i : FbId) (a b : Bool) (n : Nat) (s : State), (s.fbs[i].cfg.mode = 1 ∨ s.fbs[i].cfg.mode = 2) → exec (.pulseEdge i a b n) s = .next s) ∧
    (∀ (i : FbId) (a b : Bool) (n : Nat) (s : State), coreUp s = true → (s.fbs[i].cfg.mode = 0 ∨ s.fbs[i].cfg.mode = 3 ∨ s.fbs[i].cfg.mode = 4) →
      (∀ l : Fin 3, lineSteady (s.fbs[i].clock + n) s.fbs[i] l = true) →
      ∃ t : State, exec (.pulseEdge i a b n) s = .next t ∧ t.fbs[i].a = a ∧ t.fbs[i].b = b ∧ t.fbs[i].count = s.fbs[i].count) ∧
    (∀ (i : FbId) (n : Nat) (s : State), coreUp s = true → s.fbs[i].frameOpen = true →
      ∃ t : State, exec (.serialFrameStart i n) s = .next t ∧ t.fbs[i].frameOpen = true ∧ (compareUnits s i = [] → t.out = s.out)) ∧
    (∀ (i : FbId) (n : Nat) (s : State), coreUp s = true →
      frameMayStart (s.tNs / 5) (advanceFb (s.key i) n s.fbs[i]) = true →
      ∃ t : State, exec (.serialFrameStart i n) s = .next t ∧ t.fbs[i].frameOpen = true ∧
        (compareUnits s i = [] → t.out = s.out ++ [.serialClock i])) ∧
    (∀ (i : FbId) (w : BitVec 40) (c : SerialCheck) (n : Nat) (s : State), coreUp s = true → s.fbs[i].frameOpen = true →
      ((s.fbs[i].cfg.mode = 3 ∧ crcFits s.fbs[i].cfg w c = false) ∨ (s.fbs[i].cfg.mode = 4 ∧ c.startHigh = false)) →
      ∃ t : State, exec (.serialFrameEnd i w c n) s = .next t ∧ t.fbs[i].frameOpen = false ∧ t.fbs[i].raw = s.fbs[i].raw ∧
        t.fbs[i].count = s.fbs[i].count ∧ t.fbs[i].qerr = min 65535 (s.fbs[i].qerr + 1) ∧
        t.fbs[i].stat.getLsbD (if s.fbs[i].cfg.mode = 3 then 3 else 4) = true) ∧
    (∀ (i : FbId) (w : BitVec 40) (c : SerialCheck) (n : Nat) (s : State), coreUp s = true → s.fbs[i].frameOpen = true →
      ((s.fbs[i].cfg.mode = 3 ∧ crcFits s.fbs[i].cfg w c = true ∧ c.nE = true) ∨ (s.fbs[i].cfg.mode = 4 ∧ c.startHigh = true)) →
      ∃ t : State, exec (.serialFrameEnd i w c n) s = .next t ∧ t.fbs[i].frameOpen = false ∧ t.fbs[i].hasWord = true ∧
        t.fbs[i].raw = BitVec.ofNat 40 (serialPos s.fbs[i].cfg w) ∧ t.fbs[i].count = BitVec.ofNat 32 (serialPos s.fbs[i].cfg w) ∧
        t.fbs[i].qerr = s.fbs[i].qerr) ∧
    (∀ (i : FbId) (n : Nat) (s : State), coreUp s = true → s.fbs[i].frameOpen = true →
      (s.fbs[i].frameAt + 4000 ≤ s.fbs[i].clock + n →
        ∃ t : State, exec (.serialFrameTimeout i n) s = .next t ∧ t.fbs[i].frameOpen = false ∧ t.fbs[i].stat.getLsbD 4 = true ∧
          t.fbs[i].qerr = min 65535 (s.fbs[i].qerr + 1)) ∧
      (s.fbs[i].clock + n < s.fbs[i].frameAt + 4000 →
        ∃ t : State, exec (.serialFrameTimeout i n) s = .next t ∧ t.fbs[i].frameOpen = true ∧ t.fbs[i].qerr = s.fbs[i].qerr)) ∧
    (∀ (i : FbId) (s : State), s.fbs[i].frameOpen = false → (∀ (w : BitVec 40) (c : SerialCheck), exec (.serialFrameEnd i w c 0) s = .next s) ∧
      exec (.serialFrameTimeout i 0) s = .next s) ∧
    (∀ (i : FbId) (d : Int) (s : State), coreUp s = true → s.fbs[i].cfg.mode = 1 → -2 ^ 31 ≤ d → d < 2 ^ 31 → -2 ^ 47 ≤ s.fbs[i].ext + d →
      s.fbs[i].ext + d < 2 ^ 47 → s.fbs[i].count = BitVec.ofInt 32 (s.fbs[i].ext + d) →
      exec (.countExtension i) s = .next (s.modFb i fun u => { u with ext := s.fbs[i].ext + d })) ∧
    (∀ (i : FbId) (s : State), coreUp s = true → s.fbs[i].cfg.mode = 1 →
      exec (.indexEdge i) s = .next (s.modFb i fun u => { u with index := u.count, stat := setBit u.stat 9 true })) ∧
    (∀ (p : ProbeId) (falling : Bool) (at_ : BitVec 64) (s : State), s.probes[p].armed = false → exec (.probeEdge p falling at_) s = .next s) ∧
    (∀ (p : ProbeId) (falling : Bool) (at_ last : BitVec 64) (s : State), coreUp s = true → s.probes[p].armed = true → s.probes[p].cfg.edge = 2 →
      s.probes[p].last = some last → (at_ - last).toNat < 1000 → sinceStart s at_ < s.tNs →
      exec (.probeEdge p falling at_) s = .next (s.modProbe p fun x => { x with overrun := min 65535 (x.overrun + 1) })) ∧
    (∀ (p : ProbeId) (falling : Bool) (at_ : BitVec 64) (s : State), coreUp s = true → s.probes[p].armed = true → s.probes[p].cfg.edge = 2 →
      s.probes[p].last = none → sinceStart s at_ < s.tNs → ∃ t : State, exec (.probeEdge p falling at_) s = .next t ∧ t.probes[p].last = some at_ ∧
        t.probes[p].seq = s.probes[p].seq + 1 ∧ t.probes[p].armed = s.probes[p].cfg.continuous) ∧
    (∀ (u : CmpId) (s : State), s.cmps[u].out = true →
      exec (.comparePulseEnd u) s = .next ((s.modCmp u fun c => { c with out := false }).emit (.comparePulse u false))) ∧
    (∀ (p : ProbeId) (falling : Bool) (at_ : BitVec 64) (s : State), s.tNs ≤ sinceStart s at_ →
      exec (.probeEdge p falling at_) s = exec (.probeEdge p falling s.time.dev) s) ∧
    (∀ (u : CmpId) (n : Nat) (s : State), coreUp s = true → ∃ t : State, exec (.compareFire u n) s = .next t ∧
      t.fbs[cmpSource s.cmps[u]] = advanceFb (s.key (cmpSource s.cmps[u])) n s.fbs[cmpSource s.cmps[u]]) ∧
    (∀ (u : CmpId) (c : CompareCfg) (e : CmpEntry) (s : State), coreUp s = true → s.cmps[u].cfg = some c → c.entries = [e] → e.dir = 0 →
      s.cmps[u].enable = true → s.cmps[u].idle = false → s.cmps[u].repeatOn = false → s.cmps[u].pointer = 0 → s.cmps[u].offset = 0 →
      let f := cmpSource s.cmps[u]
      let q := piOf (s.key f) (advanceFb (s.key f) 0 s.fbs[f])
      0 < diff40 q s.cmps[u].prev → 0 < diff40 e.pos s.cmps[u].prev → diff40 e.pos q ≤ 0 →
      ∃ t : State, exec (.compareFire u 0) s = .next t ∧ t.cmps[u].out = true ∧ t.cmps[u].idle = true ∧
        t.cmps[u].fired = (s.cmps[u].fired + 1) % 2 ^ 32 ∧ t.out = s.out ++ [.comparePulse u true]) ∧
    ∀ (u : CmpId) (n : Nat) (s : State), coreUp s = true → (s.cmps[u].cfg = none ∨ s.cmps[u].enable = false ∨ s.cmps[u].idle = true) →
      ∃ t : State, exec (.compareFire u n) s = .next t ∧ (compareUnits s (cmpSource s.cmps[u]) = [] → t.out = s.out) ∧ t.cmps[u].fired = s.cmps[u].fired ∧ t.cmps[u].out = s.cmps[u].out

/-- On a configured port of a device that is not dormant: a hello is sent with number, serial and master mark; one
received, with lock held, records the neighbour and makes the port ready; lock on an enabled lane makes a port ready
that has seen a hello. A ready port that misses hellos or loses lock goes down, its ring port wrapped, with vector 13.
Two locked lanes degrade with their event, vector and log record, and a port that is degraded degrades no further, though a lane that
had locked again may be lost again; a lane that is back waits for the next cycle.
The port and domain counters clear. A usable port that is free and has room before the next burst sends the next frame of its queue under the next hop number and
keeps it; a busy one and one with nothing to send do not. A frame that is too long or fails its CRC is answered NAK and counted; a good one of a listed kind takes a bobbin, is held and
acknowledged, or, with no bobbin, is dropped and counted; a resend of a held one is only acknowledged. An
acknowledgement frees the bobbin and answers release; a held frame's timeout frees it, and so does a release of a frame
for this device that is no beacon and holds blocks of a command. A fourth failure gives the frame up. An answer or a timeout that names no frame the
port keeps changes nothing. -/
def Obligations.LinkPortsAndFramesAct : Prop :=
  (∀ (p : Port) (s : State), portOn (s.port p) = true → s.pwr.dev ≠ .dormant →
      exec (.helloSend p) s = .next (s.emit (.hello p s.link.device s.link.numbered (s.id.serial.truncate 16) s.link.master))) ∧
    (∀ (p : Port) (dev : BitVec 14) (v m : Bool) (ser : Half) (s : State), portOn (s.port p) = true → (s.port p).lock ≠ 0 → s.pwr.dev ≠ .dormant →
      ∃ t : State, exec (.helloReceive p dev v ser m) s = .next t ∧ (t.port p).ready = true ∧ (t.port p).nbrDevice = dev ∧
        (t.port p).nbrValid = v ∧ (t.port p).helloSeen = true ∧ ((s.port p).ready = false → t.isReady (rdyLink p) = true)) ∧
    (∀ (p : Port) (lane : Bool) (s : State), portOn (s.port p) = true → (s.port p).lanes.getLsbD (if lane = true then 1 else 0) = true →
      s.pwr.dev ≠ .dormant → ∃ t : State, exec (.blockLock p lane) s = .next t ∧ (t.port p).lock.getLsbD (if lane = true then 1 else 0) = true ∧
        ((s.port p).helloSeen = true → (t.port p).ready = true)) ∧
    (∀ (p : Port) (s : State), (s.port p).ready = true → (s.port p).lock ≠ 0 → ∃ t u : State, exec (.helloTimeout p) s = .next t ∧
      exec (.blockLockLoss p) s = .next u ∧ (t.port p).ready = false ∧ (u.port p).ready = false ∧ (u.port p).lock = 0 ∧ (u.port p).lockEvent = true ∧
      t.isReady (rdyLink p) = false ∧ t.host.intStatus.getLsbD 13 = true ∧ u.host.intStatus.getLsbD 13 = true ∧
      (isRing p = true → (t.port p).wrapped = true ∧ (u.port p).wrapped = true)) ∧
    (∀ (p : Port) (lane lost : Bool) (s : State), (s.port p).degraded = false → (s.port p).lanes = 3 → (s.port p).lock = 3 →
      ∃ t : State, exec (.portDegrade p lane lost) s = .next t ∧ (t.port p).degraded = true ∧ (t.port p).degradeEvent = true ∧
        (t.port p).ready = (s.port p).ready ∧ t.host.intStatus.getLsbD 13 = true ∧ t.rec_.logNext = s.rec_.logNext + 1) ∧
    (∀ (p : Port) (lane lost : Bool) (s : State), (s.port p).degraded = true → (lost = false ∨ (s.port p).lock ≠ 3) →
      exec (.portDegrade p lane lost) s = .next s) ∧
    (∀ (p : Port) (lane : Bool) (s : State), (s.port p).degraded = true → (s.port p).lanes = 3 → (s.port p).lock = 3 →
      exec (.portDegrade p lane true) s = .next (s.modPort p fun x => { x with
        lock := setBit x.lock (if lane = true then 1 else 0) false, lockEvent := true, laneBack := false })) ∧
    (∀ (p : Port) (s : State), (s.port p).degraded = true → (s.port p).lock = 3 →
      exec (.laneRestore p) s = .next (s.modPort p fun x => { x with laneBack := true })) ∧
    (∀ (p : Port) (s : State), exec (.lnkPcntCntClear p) s = .next (s.modPort p fun x => { x with
        single := 0, missing := 0, crcErr := 0, retry := 0, unreach := 0, ownLate := 0 }) ∧
      exec .lnkDomCntClear s = .next (s.modLink fun l => { l with schedErr := 0, idxOver := 0 })) ∧
    (∀ (p : Port) (m : SendTurn) (pr : Bool) (e : Nat × Frame) (s : State), usable s p = true → nextFrame m.masked pr (s.port p).queue = some e →
      (s.port p).busy ≤ m.time →
      frameFits s.link p (s.tNs * 100 / 128) m.time (m.time + frameTimes (s.port p) e.2 + 2 * blockTime (s.port p)) = true →
      ∃ t : State, exec (.asyncFrameTransmit p m pr) s = .next t ∧ (t.port p).queue = (s.port p).queue.erase e ∧
        (t.port p).busy = m.time + frameTimes (s.port p) e.2 ∧
        (t.port p).nextHseq = (s.port p).nextHseq + 1 ∧
        (t.port p).sent = (s.port p).sent ++ [⟨(s.port p).nextHseq, e.1, { e.2 with hseq := (s.port p).nextHseq }, 0⟩] ∧
        t.out = s.out ++ [.frame p { e.2 with hseq := (s.port p).nextHseq }]) ∧
    (∀ (p : Port) (m : SendTurn) (pr : Bool) (s : State), (m.time < (s.port p).busy ∨ nextFrame m.masked pr (s.port p).queue = none) →
      exec (.asyncFrameTransmit p m pr) s = .next s) ∧
    (∀ (p : Port) (f : Frame) (crc : Word) (s : State), (s.port p).ready = true → (crc ≠ frameCrc f ∨ 32 < f.data.length) →
      exec (.asyncFrameReceive p f crc) s = .next ((s.emit (.nak p f.hseq)).modPort p fun x => { x with crcErr := min 255 (x.crcErr + 1) })) ∧
    (∀ (p : Port) (f : Frame) (s : State), (s.port p).ready = true → f.data.length ≤ 32 → f.kind.toNat < 8 →
      (∀ e : Sent, e ∈ (s.port p).held → e.hseq ≠ f.hseq) →
      (s.mem.head ≠ 0x3FFFF → ∃ t : State, exec (.asyncFrameReceive p f (frameCrc f)) s = .next t ∧ t.mem.used.contains s.mem.head = true ∧
        t.mem.freeCount = s.mem.freeCount - 1 ∧ (t.port p).held = (s.port p).held ++ [⟨f.hseq, s.mem.head, f, 0⟩] ∧ t.out = s.out ++ [.ack p f.hseq]) ∧
      (s.mem.head = 0x3FFFF → exec (.asyncFrameReceive p f (frameCrc f)) s = .next (s.modMem fun m => { m with linkDrop := min 255 (m.linkDrop + 1) }))) ∧
    (∀ (p : Port) (f : Frame) (s : State), (s.port p).ready = true → f.data.length ≤ 32 → f.kind.toNat < 8 →
      (∃ e : Sent, e ∈ (s.port p).held ∧ e.hseq = f.hseq) → exec (.asyncFrameReceive p f (frameCrc f)) s = .next (s.emit (.ack p f.hseq))) ∧
    (∀ (p : Port) (h : Byte) (s : State), (∀ e : Sent, e ∈ (s.port p).sent → e.hseq ≠ h) → (∀ e : Sent, e ∈ (s.port p).held → e.hseq ≠ h) →
      exec (.ackReceive p h) s = .next s ∧ exec (.nakReceive p h) s = .next s ∧ exec (.retransmitTimeout p h) s = .next s ∧
        exec (.releaseReceive p h) s = .next s ∧ exec (.heldFrameTimeout p h) s = .next s) ∧
    (∀ (p : Port) (e : Sent) (rest : List Sent) (s : State), (s.port p).sent = e :: rest →
      exec (.ackReceive p e.hseq) s = .next (((s.modPort p fun x => { x with sent := rest }).freeChain [e.bobbin]).emit (.release p e.hseq)) ∧
      (3 ≤ e.retries → exec (.nakReceive p e.hseq) s = .next ((s.modPort p fun x => { x with sent := rest }).giveUpFrame p e)) ∧
      exec (.retransmitTimeout p e.hseq) s = exec (.nakReceive p e.hseq) s) ∧
    ∀ (p : Port) (e : Sent) (rest : List Sent) (s : State), (s.port p).held = e :: rest →
      exec (.heldFrameTimeout p e.hseq) s = .next ((s.modPort p fun x => { x with held := rest }).freeChain [e.bobbin]) ∧
      (e.frame.dst ≠ broadcastDst → s.link.numbered = true → e.frame.dst = s.link.device → e.frame.kind ≠ kindBeacon → e.frame.body = .blocks →
        exec (.releaseReceive p e.hseq) s = .next ((s.modPort p fun x => { x with held := rest }).freeChain [e.bobbin]))

/-- A device that is no member, or has no schedule, or no slot, or has joined in this cycle, sends no burst; a member with a
home slot sends its home burst. A received burst on a port that is down changes nothing; a tree burst that is stomped, empty or fails its CRC counts crc_err and stores nothing;
a good burst of the present cycle and generation goes on in its direction, unless a tree burst, and stores its publication
where the schedule has it; a burst of another cycle counts its publications as late once, and stores nothing. At its switch cycle the pending schedule is in force, and the pending one and a waiting
SET_CYCLE are gone, but a SCHEDULE_WRITE that has been cancelled leaves the schedule in force; before it nothing changes. A refusal of a waiting SET_CYCLE ends it REFUSED with the device that
refused. A master sends its beacon, and no other device does. Beacon loss leaves the elected device master. A
topology that breaks R237 clears the domain bit, with vector 13. A device that is enumerated alone takes its number, in segment 0. A negative that a replacement was
sent is applied and kept, its safety part unconfirmed, with vector 13; any other device ignores it. Joining takes time and cycle, makes the device a member and sets the domain
bit, and waits while a print is being received. -/
def Obligations.BurstsScheduleAndDomainAct : Prop :=
  (∀ (k : BurstKind) (late : List Port) (ecc : List EccErr) (s : State), (s.link.member = false ∨ s.link.hasSched = false ∨ s.link.joining = true ∨
      slotsOf s.link.sched s.link.device k = []) → exec (.burstTransmit k late ecc) s = .next s) ∧
    (∀ (late : List Port) (s : State), s.link.member = true → s.link.hasSched = true → s.link.joining = false → slotsOf s.link.sched s.link.device .home ≠ [] →
      exec (.burstTransmit .home late []) s = .next (s.homeBurst late [])) ∧
    (∀ (p : Port) (b : Burst) (a : Arrival) (s : State), (s.port p).ready = false → exec (.burstReceive p b a) s = .next s) ∧
    (∀ (p : Port) (b : Burst) (a : Arrival) (s : State), (s.port p).ready = true → b.kind = .tree →
      (a.stomped = true ∨ a.crc ≠ burstCrc b ∨ b.pubs = []) → exec (.burstReceive p b a) s = .next ((s.modLink fun l => { l with seen := ⟨b.source, b.kind, p, false, burstHead b⟩ :: l.seen }).modPort p
        fun x => { x with crcErr := min 255 (x.crcErr + 1) })) ∧
    (∀ (p : Port) (b : Burst) (time : Nat) (s : State), (s.port p).ready = true → 1 ≤ b.pubs.length → b.pubs.length ≤ 16384 →
      b.cycle ≠ s.seq.cycle.truncate 16 → ∃ t : State, exec (.burstReceive p b ⟨burstCrc b, false, time⟩) s = .next t ∧ t.mem = s.mem ∧ t.link.stored = s.link.stored ∧
        (s.link.lateSeen = [] → t.seq.late = min 255 (s.seq.late + b.pubs.length)) ∧
        ((b.source, kindCode b.kind, b.cycle, burstHead b) ∈ s.link.lateSeen → t.seq.late = s.seq.late) ∧ t.seq.cycle = s.seq.cycle) ∧
    (∀ (p : Port) (b : Burst) (x : Pub) (e : SchedPub) (time : Nat) (s : State), (s.port p).ready = true →
      b.cycle = s.seq.cycle.truncate 16 → s.link.hasSched = true → b.gen = s.link.sched.gen → s.link.seen = [] → b.pubs = [x] →
      burstOrder s p b = [e] → e.endpoint = x.endpoint → e.index ∉ s.link.stored →
      exec (.burstReceive p b ⟨burstCrc b, false, time⟩) s = .next (((if b.kind = .tree then s else s.forward p b true time).modLink fun l =>
        { l with seen := [⟨b.source, b.kind, p, true, x.endpoint⟩] }).storePub e.index x.payload x.age)) ∧
    (∀ (c : Schedule) (g : LongOp) (s : State), s.link.next = some c → c.switchCycle.toNat ≤ s.seq.cycle.toNat → s.link.setCycle = none →
      switching s = some g → g.cancel = true → exec (.scheduleSwitch []) s = .next (s.modLink fun l => { l with next := none })) ∧
    (∀ (c : Schedule) (s : State), s.link.next = some c → c.switchCycle.toNat ≤ s.seq.cycle.toNat →
      (s.link.setCycle.isSome = true ∨ ∀ g : LongOp, switching s = some g → g.cancel = false) →
      ∃ t : State, exec (.scheduleSwitch []) s = .next t ∧ t.link.sched = c ∧ t.link.hasSched = true ∧ t.link.next = none ∧
        t.link.setCycle = none) ∧
    (∀ (c : Schedule) (s : State), s.link.next = some c → s.seq.cycle.toNat < c.switchCycle.toNat → exec (.scheduleSwitch []) s = .next s) ∧
    (∀ s : State, s.link.next = none → exec (.scheduleSwitch []) s = .next s) ∧
    (∀ (r : SchedRefusal) (c : Instr) (o : Origin) (s : State), s.link.setCycle = some c → originOf c = some o → s.owedFor c = none →
      exec (.scheduleConfirmTimeout r) s = .next ((s.modLink fun l => { l with setCycle := none, next := none }).ended c o stRefused
        (leBytes 4 0 ++ leBytes 2 r.device.toNat ++ leBytes 2 ((r.strand.map (·.toNat)).getD 0)))) ∧
    (∀ s : State, s.link.master = false → exec .beaconSend s = .next s) ∧
    (∀ s : State, s.link.master = true → ∃ t : State, exec .beaconSend s = .next t ∧ t.link.oseq = s.link.oseq + 1) ∧
    (∀ (cs : List Candidate) (c : Candidate) (s : State), s.link.master = false → elect (s.asSelf s.link.masterPrio cs) = some c → ∃ t : State,
      exec (.beaconLoss cs) s = .next t ∧ t.link.master = c.self ∧ t.link.masterSeen = false) ∧
    (∀ (found : List FoundDevice) (links : List FoundLink) (deg : List (Nat × Port)) (s : State),
      (topologyOf found links deg (enumerate s found)).legal = false → ∃ t : State, exec (.enumeration found links deg) s = .next t ∧
      t.isReady rdyDomain = false ∧ t.link = s.link ∧ t.host.intStatus.getLsbD 13 = true) ∧
    (∀ (d : FoundDevice) (n : BitVec 14) (s : State), d.self = true → d.held = some n → s.link.master = false →
      ∃ t : State, exec (.enumeration [d] [] []) s = .next t ∧ t.link.device = n ∧ t.link.numbered = true ∧ t.link.ring = false ∧
        t.link.segment = 0) ∧
    (∀ (neg : Negative) (s : State), s.rec_.printing = true → ∃ t : State, exec (.printApply neg) s = .next t ∧ t.rec_.printing = false ∧
      t.rec_.negative = some neg ∧ t.saf.confirmed = false ∧ t.host.intStatus.getLsbD 13 = true) ∧
    (∀ (neg : Negative) (s : State), s.rec_.printing = false → exec (.printApply neg) s = .next s) ∧
    (∀ (time : BitVec 64) (cycle : BitVec 48) (s : State), s.rec_.printing = true → exec (.domainJoin time cycle) s = .next s) ∧
    ∀ (time : BitVec 64) (cycle : BitVec 48) (s : State), s.link.member = false → s.rec_.printing = false → s.link.numbered = true → s.link.hasSched = true →
      timeTracked s = true → (s.port .s).ready = true → ∃ t : State, exec (.domainJoin time cycle) s = .next t ∧ t.link.member = true ∧
        t.seq.cycle = cycle ∧ t.seq.running = true ∧ t.time.dev = time ∧ t.isReady rdyDomain = true

/-- A ready port that leads away from a master sends a sync and its follow-up under the next sequence, each on lane 0 of a port on two
lanes, after a slack block where one is needed, and else on the lane that has lock; a delay request
is sent and remembered; a request is answered; a sync from the upstream port is kept, and a response of the remembered
sequence ends the request with a new delay, half the round trip, where a follow-up has come. A domain with a master locks on the master itself, and elsewhere
with 100 good syncs on a ready upstream port, ending holdover, with the time bit; slewing ends within 1 ns. With both
domains unlocked holdover starts once, with vector 14, and the lock clear then drops the time bit. A lost upstream port
gives way to the ready port with the fewest hops, S where none has told its hops, and with none the lock drops. A first announcement names
the master and sets the time, with vector 14. A master sends its announcement, and announce loss changes nothing there; elsewhere
it makes TD1's one candidate the master, with its event and vector 14. The bridge takes the messages of its PTP domain while it runs: a Sync, or one with its Follow_Up, gives the time from the master,
and the response to its request, which goes out once in the interval, the offset, half the difference of both ways. Plant time is then
valid, and no more ten seconds after. TIM_NOW_LO and TIM_PLANT_LO answer the low word and latch the high one. -/
def Obligations.TimeEventsAct : Prop :=
  (∀ (p : Port) (d : Dom) (s : State), (s.port p).ready = true → (s.dom d).hasMaster = true → leadsAway s p d = true →
      exec (.syncSend p d) s = .next (((s.modTime fun t => { t with syncSeq := t.syncSeq + 1 }).sendTime p
        (timePayload 0 d s.time.syncSeq 0)).sendTime p (timePayload 1 d s.time.syncSeq (domValue (s.dom d))))) ∧
    (∀ (p : Port) (v : BitVec 56) (s : State),
      (blockTime (s.port p) = 1 → s.sendTime p v =
        (if Config.laneOne s.free (portIx p).val = true then s.emit (.slack p) else s).emit (.timeBlock p false v)) ∧
      (blockTime (s.port p) = 2 → s.sendTime p v = s.emit (.timeBlock p ((s.port p).lock == 2) v))) ∧
    (∀ (p : Port) (d : Dom) (s : State), (s.port p).ready = false → exec (.syncSend p d) s = .next s ∧ exec (.delayRequestSend p) s = .next s ∧
      ∀ (v : BitVec 56) (at_ : BitVec 64), exec (.timeEventReceive p v at_) s = .next s) ∧
    (∀ (p : Port) (s : State), (s.port p).ready = true → ∃ t : State, exec (.delayRequestSend p) s = .next t ∧
      t.time.requests[portIx p] = some (s.time.syncSeq, s.time.dev) ∧ t.time.syncSeq = s.time.syncSeq + 1) ∧
    (∀ (p : Port) (v : BitVec 56) (at_ : BitVec 64) (d : Dom) (s : State), (s.port p).ready = true → d = (if v.getLsbD 2 = true then .td2 else .td1) →
      (v.toNat % 4 = 0 → (s.dom d).isMaster = false → (s.dom d).up = p → exec (.timeEventReceive p v at_) s =
        .next (s.modDom d fun x => { x with sync := some (p, BitVec.ofNat 5 (v.toNat / 8), at_), up := p })) ∧
      (v.toNat % 4 = 2 → exec (.timeEventReceive p v at_) s =
        .next (s.sendTime p (timePayload 3 d (BitVec.ofNat 5 (v.toNat / 8)) (wrapNat 48 (domAt s.time d at_))))) ∧
      (∀ t0 : BitVec 64, v.toNat % 4 = 3 → s.time.requests[portIx p] = some (BitVec.ofNat 5 (v.toNat / 8), t0) → ∃ t : State,
        exec (.timeEventReceive p v at_) s = .next t ∧ t.time.requests[portIx p] = none ∧ t.time.td1 = s.time.td1 ∧ t.time.td2 = s.time.td2 ∧
        (∀ f : Int, (s.dom d).forwards[portIx p] = some f →
          t.time.delays[portIx p] = ((f + near48 ((v.toNat / 256 : Nat) - domAt s.time d t0)) / 2).toNat) ∧
        ((s.dom d).forwards[portIx p] = none → t.time.delays = s.time.delays))) ∧
    (∀ (d : Dom) (s : State), (s.dom d).lock = false → (s.dom d).hasMaster = true →
      ((s.dom d).isMaster = true ∨ (s.port (s.dom d).up).ready = true ∧ 100 ≤ (s.dom d).goodSyncs) → ∃ t : State, exec (.domainLock d) s = .next t ∧ (t.dom d).lock = true ∧ t.time.holdover = false ∧ t.isReady rdyTimeLock = true) ∧
    (∀ (d : Dom) (s : State), (s.dom d).isMaster = false → (s.dom d).goodSyncs < 100 → exec (.domainLock d) s = .next s) ∧
    (∀ s : State, s.time.slewing = true → |slewLeft s.time| < 2 ^ 24 → exec .slewEnd s = .next (s.modTime fun t => { t with slewing := false })) ∧
    (∀ s : State, s.time.td1.lock = false → s.time.td2.lock = false → s.time.holdover = false →
      exec .timeHoldover s = .next ((s.modTime fun t => { t with holdover := true }).raise 14)) ∧
    (∀ s : State, (s.time.td1.lock = true ∨ s.time.td2.lock = true ∨ s.time.holdover = true) → exec .timeHoldover s = .next s) ∧
    (∀ s : State, (s.time.holdover = true → exec .timeLockClear s = .next (s.setReady rdyTimeLock false)) ∧
      (s.time.holdover = false → exec .timeLockClear s = .next s)) ∧
    (∀ (d : Dom) (s : State), (s.dom d).isMaster = false → (s.dom d).hasMaster = true → (s.port (s.dom d).up).ready = false →
      (∀ p : Port, upstream s d = some p → exec (.upstreamPortLoss d) s = .next (s.modDom d fun x => { x with up := p, sync := none })) ∧
      (upstream s d = none → exec (.upstreamPortLoss d) s = .next (s.dropLock d))) ∧
    (∀ (d : Dom) (s : State),
      (∀ p : Port, upstream s d = some p → timePort s p = true ∧ ∀ q : Port, timePort s q = true →
        ((s.dom d).hops[portIx p]).getD (2 ^ 32) ≤ ((s.dom d).hops[portIx q]).getD (2 ^ 32)) ∧
      (upstream s d = none → ∀ q : Port, timePort s q = false) ∧
      (timePort s .s = true → (∀ q : Port, (s.dom d).hops[portIx q] = none) → upstream s d = some .s)) ∧
    (∀ (p : Port) (a : Announcement) (s : State), a.master = true → a.serial ≠ s.id.serial → (s.dom a.dom).isMaster = false →
      (s.dom a.dom).hasMaster = false → ((s.heed p a).dom a.dom).hasMaster = true ∧ ((s.heed p a).dom a.dom).masterSerial = a.serial ∧
        ((s.heed p a).dom a.dom).ns = a.time ∧ (s.heed p a).time.masterEvent = true ∧ (s.heed p a).host.intStatus.getLsbD 14 = true) ∧
    (∀ (d : Dom) (s : State), (s.dom d).isMaster = true → ∃ t : State, exec (.timeAnnounceSend d) s = .next t ∧ t.link.oseq = s.link.oseq + 1) ∧
    (∀ (d : Dom) (s : State), (s.dom d).isMaster = true → ∀ cs : List Candidate, exec (.timeAnnounceLoss d cs) s = .next s) ∧
    (∀ (d : Dom) (c : Candidate) (s : State), (s.dom d).isMaster = false → c.self = false → c.prio ≠ 0 → d = .td1 →
      ∃ t : State, exec (.timeAnnounceLoss d [c]) s = .next t ∧ (t.dom d).hasMaster = true ∧ (t.dom d).masterSerial = c.serial ∧
        (t.dom d).isMaster = false ∧ t.time.masterEvent = true ∧ t.host.intStatus.getLsbD 14 = true) ∧
    (∀ (q : Half) (time arrived : BitVec 64) (d : Byte) (s : State), ptpRuns s = true → d.toNat = s.time.ptpDomain →
      exec (.ptpEventMessage (.sync d q arrived (some time))) s = .next (s.modTime fun t => { t with
        ptpSync := none, ptpDown := some ((time.toNat : Int) - arrived.toNat) }) ∧
      (∃ t u : State, exec (.ptpEventMessage (.sync d q arrived none)) s = .next t ∧ exec (.ptpEventMessage (.followUp d q time)) t = .next u ∧
        u.time.ptpDown = some ((time.toNat : Int) - arrived.toNat) ∧ u.time.ptpSync = none) ∧
      ∀ (left : BitVec 64) (down : Int), s.time.ptpReq = some (q, left) → s.time.ptpDown = some down → ∃ t : State,
        exec (.ptpEventMessage (.delayResp d q time)) s = .next t ∧ t.time.plantValid = true ∧ t.time.ptpReq = none ∧
        t.time.ptpOffsets.getLast? = some ((down + ((time.toNat : Int) - left.toNat)) / 2) ∧ t.time.ptpOffsets.length ≤ 16 ∧
        t.time.plant = Config.plantFilter t.time.ptpOffsets ∧
        t.time.dev = s.time.dev ∧ t.time.td1 = s.time.td1 ∧ t.time.td2 = s.time.td2) ∧
    (∀ (msg : PtpMessage) (s : State), (ptpRuns s = false ∨ (ptpDomainOf msg).toNat ≠ s.time.ptpDomain) →
      exec (.ptpEventMessage msg) s = .next s) ∧
    (∀ s : State, (ptpRuns s = false ∨ 10000000000 ≤ (s.time.dev - s.time.ptpAt).toNat →
        exec .plantValidTimeout s = .next (s.modTime fun t => { t with plantValid := false })) ∧
      (ptpRuns s = true → (s.time.dev - s.time.ptpAt).toNat < 10000000000 → exec .plantValidTimeout s = .next s)) ∧
    (∀ s : State, (ptpRuns s = true → (∀ l : BitVec 64, s.time.ptpLast = some l → ptpGap s.time ≤ (s.time.dev - l).toNat) →
        exec .ptpDelayReqSend s = .next ((s.modTime fun t => { t with
          ptpReq := some (t.ptpSeq, t.dev), ptpSeq := t.ptpSeq + 1, ptpLast := some t.dev }).emit .ptpDelayReq)) ∧
      (ptpRuns s = false ∨ (∃ l : BitVec 64, s.time.ptpLast = some l ∧ (s.time.dev - l).toNat < ptpGap s.time) →
        exec .ptpDelayReqSend s = .next s)) ∧
    ∀ s : State, exec .timNowLoRead s = .next ((s.modTime fun t => { t with nowHi := BitVec.ofNat 32 (s.time.dev.toNat / 2 ^ 32) }).emit
        (.busRead (leBytes 4 (s.time.dev.toNat % 2 ^ 32)) false)) ∧
      exec .timPlantLoRead s = .next ((s.modTime fun t => { t with
        plantHi := BitVec.ofNat 32 (s.time.plant.toNat / 2 ^ 32 + (if s.time.plantValid = true then 2 ^ 31 else 0)) }).emit
        (.busRead (leBytes 4 (s.time.plant.toNat % 2 ^ 32)) false))

/-- A demand on a used channel sets the channel's demand in that island's view, and the rest row takes it back, in
that island alone; where the island evaluates and the function is an STO function of type 1, it drops its gate enable
on every quad of the zone; an unused channel changes nothing. A test that fails, and a silent cross-link, make an
island fault once: the island is failed and evaluates no more, its peer knows, and with a limit and no safelight yet safelight begins with
the limit loaded and vector 12; in safelight a fault is a common fault, after which neither island drives. A test that
passes changes nothing. Safelight counts whole minutes down with vector 12, and goes on with the vector after its limit; at its limit the rest is 0 in both
islands, and with no safelight neither row acts. An SS1 timer that expires stops. A temperature warning is recorded
with its reading; a trip is a common fault. A discrepancy of an evaluating island latches in both; a two-hand timeout with one
button pressed after a full release misses in that island alone. A test pulse takes its output low for 250 µs, a readback mismatch
faults it. A returned pulse counts toward the check of its input and clears no fault; a missing one faults the channel in
the view of the island that checks it; an open input is not checked. The lockout ends. -/
def Obligations.SafetyEventsAct : Prop :=
  (∀ (x : Island) (fn ch : Fin 4) (s : State), ch.val < chanCount s.saf.cfg.fns[fn].type → (s.isle x).eval = false → ∃ t u : State,
      exec (.safetyInputDemand x fn ch) s = .next t ∧ exec (.safetyInputRest x fn ch) s = .next u ∧
      (t.isle x).fns[fn].chDemand.getLsbD ch.val = true ∧ (u.isle x).fns[fn].chDemand.getLsbD ch.val = false ∧
      t.isle (otherIsle x) = s.isle (otherIsle x) ∧ t.strands = s.strands ∧ t.quads = s.quads) ∧
    (∀ (x : Island) (fn ch : Fin 4) (q : QuadId) (s : State), s.saf.cfg.fns[fn].type = 1 → s.saf.cfg.fns[fn].ss1 = false → ch.val < 2 →
      s.saf.cfg.fns[fn].zone.getLsbD q.val = true → (s.isle x).eval = true → (s.isle x).failed = false → (s.isle x).ss1[(Fin.ofNat 5 fn.val)] = 0 →
      (s.isle x).fns[fn].chFault = 0 → ∃ t : State, exec (.safetyInputDemand x fn ch) s = .next t ∧
        (t.isle x).fns[fn].demand = true ∧ (t.isle x).gen.getLsbD q.val = false) ∧
    (∀ (x : Island) (fn ch : Fin 4) (s : State), chanCount s.saf.cfg.fns[fn].type ≤ ch.val →
      exec (.safetyInputDemand x fn ch) s = .next s ∧ exec (.safetyInputRest x fn ch) s = .next s) ∧
    (∀ (x : Island) (q : QuadId) (s : State), exec (.switchTest x q true) s = .next s ∧ exec (.islandSelfTest x true) s = .next s ∧
      exec (.switchTest x q false) s = .next (s.islandFault x 5) ∧ exec (.islandSelfTest x false) s = .next (s.islandFault x 7) ∧
      exec (.crossLinkSilent x) s = .next (s.islandFault x 6)) ∧
    (∀ (x : Island) (s : State), (s.isle x).failed = true → exec (.crossLinkSilent x) s = .next s) ∧
    (∀ (x : Island) (s : State), (s.isle x).failed = false → s.saf.cfg.safelight ≠ 0 → inSafelight s = false →
      ∃ t : State, exec (.crossLinkSilent x) s = .next t ∧ (t.isle x).failed = true ∧ (t.isle x).eval = false ∧ (t.isle (otherIsle x)).peerFailed = true ∧
        (t.isle .a).safelight = true ∧ (t.isle .b).safelight = true ∧ (t.isle .a).remaining = s.saf.cfg.safelight ∧
        t.host.intStatus.getLsbD 12 = true) ∧
    (∀ (x : Island) (s : State), (s.isle x).failed = false → (s.saf.cfg.safelight = 0 ∨ inSafelight s = true) →
      ∃ t : State, exec (.crossLinkSilent x) s = .next t ∧ (t.isle .a).common = true ∧ (t.isle .b).common = true ∧
        (t.isle .a).gen = 0 ∧ (t.isle .b).gen = 0) ∧
    (∀ s : State, inSafelight s = true → ∃ t : State, exec .safelightMinute s = .next t ∧
      (t.isle .a).remaining = (s.isle .a).remaining - 60 ∧ (t.isle .b).remaining = (s.isle .b).remaining - 60 ∧
      t.host.intStatus.getLsbD 12 = true ∧ t.strands = s.strands) ∧
    (∀ s : State, inSafelight s = true → (s.isle .a).limitOver = false → ∃ u : State, exec .safelightLimitExpiry s = .next u ∧
      (u.isle .a).remaining = 0 ∧ (u.isle .b).remaining = 0 ∧ (u.isle .a).limitOver = true ∧ (u.isle .b).limitOver = true) ∧
    (∀ s : State, inSafelight s = false → exec .safelightMinute s = .next s ∧ exec .safelightLimitExpiry s = .next s) ∧
    (∀ (x : Island) (fn : Fin 5) (q : QuadId) (s : State), (s.isle x).ss1[fn].getLsbD q.val = false → exec (.ss1TimerExpiry x fn q) s = .next s) ∧
    (∀ (x : Island) (fn : Fin 5) (q : QuadId) (s : State), (s.isle x).ss1[fn].getLsbD q.val = true → ∃ t : State,
      exec (.ss1TimerExpiry x fn q) s = .next t ∧ (t.isle x).ss1[fn].getLsbD q.val = false ∧ t.host.intStatus.getLsbD 12 = true) ∧
    (∀ (x : Island) (fn : Fin 4) (s : State), s.saf.cfg.fns[fn].type = 0 → exec (.discrepancyTimeout x fn) s = .next s) ∧
    (∀ (x : Island) (fn : Fin 4) (s : State), s.saf.cfg.fns[fn].type ≠ 0 → (s.isle x).eval = true →
      (s.isle x).fns[fn].differs s.saf.cfg.fns[fn].type = true → ∃ t : State, exec (.discrepancyTimeout x fn) s = .next t ∧
        (t.isle .a).fns[fn].discrepancy = true ∧ (t.isle .b).fns[fn].discrepancy = true) ∧
    (∀ (x : Island) (fn : Fin 4) (s : State), s.saf.cfg.fns[fn].type ≠ 4 → exec (.twoHandTimeout x fn) s = .next s) ∧
    (∀ (x : Island) (fn : Fin 4) (s : State), s.saf.cfg.fns[fn].type = 4 → (s.isle x).fns[fn].oneButton = true →
      (s.isle x).fns[fn].released = true → ∃ t : State, exec (.twoHandTimeout x fn) s = .next t ∧ (t.isle x).fns[fn].missed = true ∧
        (t.isle x).fns[fn].released = false ∧ t.isle (otherIsle x) = s.isle (otherIsle x) ∧ t.quads = s.quads) ∧
    (∀ (k : Fin 4) (s : State), s.isReady (if k.val < 2 then rdySafA else rdySafB) = true → s.saf.settling = false → ∃ t : State,
      exec (.testPulseStart k) s = .next t ∧ t.saf.tpLow[k] = 250000 ∧ t.saf.isles = s.saf.isles ∧
      ((s.isle (if k.val < 2 then .a else .b)).tpFault.getLsbD k.val = false →
        (tpBack t.saf (t.isle (if k.val < 2 then .a else .b))).getLsbD k.val = false)) ∧
    (∀ (n : Fin 8) (s : State), channelOf s.saf.cfg n.val = none → ∀ r : PulseResponse, exec (.pulseCheck n r) s = .next s) ∧
    (∀ (n : Fin 8) (f : Fin 4) (c : Nat) (s : State), channelOf s.saf.cfg n.val = some (f, c) → s.saf.cfg.fns[f].supply.getD c 255 < 4 →
      ((s.isle (if s.saf.cfg.fns[f].supply.getD c 255 < 2 then .a else .b)).level.getLsbD n.val = false →
        ∀ r : PulseResponse, exec (.pulseCheck n r) s = .next s) ∧
      ((s.isle (if s.saf.cfg.fns[f].supply.getD c 255 < 2 then .a else .b)).level.getLsbD n.val = true →
        (∃ t : State, exec (.pulseCheck n ⟨true, true⟩) s = .next t ∧ t.saf.absent.getLsbD n.val = true ∧
          t.saf.checked.getLsbD n.val = s.saf.absent.getLsbD n.val ∧ t.fio = s.fio ∧ t.quads = s.quads) ∧
        ∀ back : Bool, ∃ t : State, exec (.pulseCheck n ⟨false, back⟩) s = .next t ∧ 
          (t.isle (if s.saf.cfg.fns[f].supply.getD c 255 < 2 then .a else .b)).fns[f].chFault.getLsbD c = true ∧
          (t.isle (if s.saf.cfg.fns[f].supply.getD c 255 < 2 then .a else .b)).pulseFault.getLsbD n.val = true)) ∧
    (∀ (k : Fin 4) (s : State), ∃ t : State, exec (.tpReadbackMismatch k) s = .next t ∧
      (t.isle (if k.val < 2 then .a else .b)).tpFault.getLsbD k.val = true) ∧
    (∀ (tj : BitVec 11) (s : State), ∃ t u : State, exec (.thermalWarning .c tj) s = .next t ∧ exec (.thermalTrip .f tj) s = .next u ∧
      t.saf.tjC = tj ∧ t.saf.warnC = true ∧ t.rec_.logNext = s.rec_.logNext + 1 ∧ u.saf.tjF = tj ∧ u.saf.tripF = true ∧
      (u.isle .a).common = true ∧ (u.isle .b).common = true) ∧
    ∀ s : State, exec .passwordLockoutEnd s = .next (s.modSaf fun q => { q with lockout := false })

/-- A frame of an armed unit that meets no trigger and finds no room is dropped: the dropped count goes up, the gap
grows, and no word is written; where it finds room it joins the open segment whole,
its last sample with the values of the sources the state holds (R317); one of a unit that is not armed, or with the wrong number of samples, changes nothing.
A unit whose pre-trigger frames are stored is armed. A trigger of a unit that records once counts, is
stamped, raises vector 16, begins the hold-off and, where the unit is armed, the post-trigger part with its frames; one
where the unit takes no triggers, in hold-off too, changes nothing. Hold-off
ends once its frames have gone. A post-trigger part with no frame left closes the record with vector 16. -/
def Obligations.ExposureEventsAct : Prop :=
  (∀ (u : ExpId) (samples : List (List Sample)) (stamp : Word) (room poison : Bool) (s : State), s.exps[u].busy = false →
      exec (.expFrame u samples stamp room poison) s = .next s) ∧
    (∀ (u : ExpId) (samples : List (List Sample)) (stamp : Word) (room poison : Bool) (s : State), samples.length ≠ 2 ^ s.exps[u].rate →
      exec (.expFrame u samples stamp room poison) s = .next s) ∧
    (∀ (u : ExpId) (samples : List (List Sample)) (stamp : Word) (s : State), s.exps[u].busy = true → samples.length = 2 ^ s.exps[u].rate →
      s.exps[u].slots = [] → s.exps[u].run.seen = 0 →
      ∃ t : State, exec (.expFrame u samples stamp false false) s = .next t ∧ t.exps[u].dropped = min (2 ^ 32 - 1) (s.exps[u].dropped + 1) ∧
        t.exps[u].run.gap = s.exps[u].run.gap + 1 ∧ t.exps[u].run.stored = s.exps[u].run.stored ∧ t.mem = s.mem ∧
        ∀ j : ExpId, j ≠ u → t.exps[j] = s.exps[j]) ∧
    (∀ (u : ExpId) (samples : List (List Sample)) (stamp : Word) (poison : Bool) (s : State), s.exps[u].busy = true →
      samples.length = 2 ^ s.exps[u].rate → s.exps[u].slots = [] → s.exps[u].run.seen = 0 → s.exps[u].run.gap = 0 → s.exps[u].roomFor = true →
      s.exps[u].run.frames.length < 255 → ∃ t : State, exec (.expFrame u samples stamp true poison) s = .next t ∧
        t.exps[u].run.frames = s.exps[u].run.frames ++ [frameWords s.exps[u] (s.heldIn u samples)] ∧ t.exps[u].run.stored = s.exps[u].run.stored + 1 ∧
        t.exps[u].dropped = s.exps[u].dropped ∧
        t.exps[u].poisoned = (s.exps[u].poisoned || poison || readsPoison s s.exps[u]) ∧
        ∀ j : ExpId, j ≠ u → t.exps[j] = s.exps[j]) ∧
    (∀ (u : ExpId) (s : State), s.exps[u].st = .filling → s.exps[u].pre ≤ s.exps[u].run.stored →
      exec (.expPreFilled u) s = .next (s.modExp u fun x => { x with st := .armed })) ∧
    (∀ (u : ExpId) (s : State), (s.exps[u].st ≠ .filling ∨ s.exps[u].run.stored < s.exps[u].pre) → exec (.expPreFilled u) s = .next s) ∧
    (∀ (u : ExpId) (samples : List (List Sample)) (stamp : Word) (s : State), s.exps[u].listens = false →
      exec (.expTrigger u samples stamp) s = .next s) ∧
    (∀ (u : ExpId) (samples : List (List Sample)) (stamp : Word) (w : Nat) (s : State), s.exps[u].listens = true → s.exps[u].stream = false →
      (s.exps[u].takeSamples (s.heldIn u samples)).2.1 = 0 → lowestSlot (s.exps[u].takeSamples (s.heldIn u samples)).2.2 = some w →
      s.exps[u].run.seen + samples.length ≤ 2 ^ s.exps[u].rate → ∃ t : State, exec (.expTrigger u samples stamp) s = .next t ∧
        t.exps[u].triggers = min 65535 (s.exps[u].triggers + 1) ∧ ((stamp - s.stamp).toNat < s.tNs → t.exps[u].trigStamp = stamp) ∧ t.host.intStatus.getLsbD 16 = true ∧
        t.exps[u].run.inHoldoff = decide (0 < s.exps[u].holdoff) ∧ t.exps[u].run.holdLeft = s.exps[u].holdoff ∧
        (s.exps[u].st = .armed → t.exps[u].st = .post ∧ t.exps[u].run.postLeft = s.exps[u].post)) ∧
    (∀ (u : ExpId) (s : State), s.exps[u].run.inHoldoff = true → s.exps[u].run.holdLeft = 0 →
      exec (.expHoldoffEnd u) s = .next (s.modExp u fun x => { x with run := { x.run with inHoldoff := false } })) ∧
    (∀ (u : ExpId) (s : State), (s.exps[u].run.inHoldoff = false ∨ s.exps[u].run.holdLeft ≠ 0) → exec (.expHoldoffEnd u) s = .next s) ∧
    (∀ (u : ExpId) (stamp : Word) (s : State), s.exps[u].st = .post → s.exps[u].run.postLeft = 0 → ∃ t : State,
      exec (.expPostComplete u stamp) s = .next t ∧ t.exps[u].st = .closed ∧ t.host.intStatus.getLsbD 16 = true) ∧
    ∀ (u : ExpId) (stamp : Word) (s : State), s.exps[u].st ≠ .post → exec (.expPostComplete u stamp) s = .next s

/-- An accepted input level and an overvoltage show in their bits, the latch staying after the cause is gone; no other
input changes. A short needs its output driven, an open load the output driven or open_off, a short to supply the
output off with open_off; otherwise the row changes nothing. A cause is present and latched, and stays latched when it
goes. Overtemperature turns the output off whatever is commanded until it has cooled. With the supply reversed or low
every output is off; a reading outside the row's range changes nothing. The watchdog's expiry puts the outputs in
their safe states with vector 17 and a log record. A conversion of X that is due starts, or waits for its PWM
boundary; one that
ends stores its value, or the nearest full-scale code beyond full scale or below what its range allows, for its channel alone,
with its over_range flag and its count up, and sets
the converter's ready bit. -/
def Obligations.FieldIoEventsAct : Prop :=
  (∀ (i : Fin 32) (level : Bool) (s : State), ∃ t : State, exec (.fieldInputAccept i level) s = .next t ∧ t.fio.inputs.getLsbD i.val = level ∧
      (∀ k : Nat, k ≠ i.val → t.fio.inputs.getLsbD k = s.fio.inputs.getLsbD k) ∧ t.fio.outCmd = s.fio.outCmd ∧ t.strands = s.strands) ∧
    (∀ (i : Fin 32) (p : Bool) (s : State), ∃ t : State, exec (.inputOvervoltage i p) s = .next t ∧ t.fio.overNow.getLsbD i.val = p ∧
      t.fio.overLatched.getLsbD i.val = (s.fio.overLatched.getLsbD i.val || p) ∧ t.fio.inputs = s.fio.inputs) ∧
    (∀ (o : Fin 16) (s : State), driven s.fio o = false → exec (.outputShort o true) s = .next s) ∧
    (∀ (o : Fin 16) (s : State), driven s.fio o = false → s.fio.openOff.getLsbD o.val = false →
      exec (.outputOpenLoad o true) s = .next s ∧ exec (.outputShortSupply o true) s = .next s) ∧
    (∀ (o : Fin 16) (s : State), driven s.fio o = true → exec (.outputShortSupply o true) s = .next s ∧
      ∃ t u : State, exec (.outputShort o true) s = .next t ∧ exec (.outputOpenLoad o true) s = .next u ∧
        t.fio.causeNow[o].getLsbD 0 = true ∧ t.fio.causeLatched[o].getLsbD 0 = true ∧
        u.fio.causeNow[o].getLsbD 1 = true ∧ u.fio.causeLatched[o].getLsbD 1 = true) ∧
    (∀ (o : Fin 16) (s : State), driven s.fio o = false → s.fio.openOff.getLsbD o.val = true → ∃ t u : State,
      exec (.outputShortSupply o true) s = .next t ∧ exec (.outputOpenLoad o true) s = .next u ∧
      t.fio.causeNow[o].getLsbD 3 = true ∧ t.fio.causeLatched[o].getLsbD 3 = true ∧
      u.fio.causeNow[o].getLsbD 1 = true ∧ u.fio.causeLatched[o].getLsbD 1 = true) ∧
    (∀ (o : Fin 16) (s : State), ∃ t u v : State, exec (.outputShort o false) s = .next t ∧ exec (.outputOpenLoad o false) s = .next u ∧
      exec (.outputShortSupply o false) s = .next v ∧ t.fio.causeNow[o].getLsbD 0 = false ∧ u.fio.causeNow[o].getLsbD 1 = false ∧
      v.fio.causeNow[o].getLsbD 3 = false ∧ t.fio.causeLatched[o] = s.fio.causeLatched[o] ∧ u.fio.causeLatched[o] = s.fio.causeLatched[o] ∧
      v.fio.causeLatched[o] = s.fio.causeLatched[o]) ∧
    (∀ (o : Fin 16) (s : State), ∃ t u : State, exec (.outputOvertemp o) s = .next t ∧ exec (.outputOvertempRecover o) s = .next u ∧
      t.fio.shut.getLsbD o.val = true ∧ driven t.fio o = false ∧ t.fio.causeLatched[o].getLsbD 2 = true ∧ t.fio.outCmd = s.fio.outCmd ∧
      u.fio.shut.getLsbD o.val = false ∧ u.fio.causeNow[o].getLsbD 2 = false ∧ u.fio.causeLatched[o] = s.fio.causeLatched[o]) ∧
    (∀ (r : Half) (s : State), (r.toInt < -50 → ∃ t : State, exec (.vfieldReverse r) s = .next t ∧ ∀ o : Fin 16, driven t.fio o = false) ∧
      (-50 ≤ r.toInt → exec (.vfieldReverse r) s = .next s) ∧
      (0 ≤ r.toInt → r.toInt ≤ 1800 → ∃ t : State, exec (.vfieldLow r) s = .next t ∧ ∀ o : Fin 16, driven t.fio o = false) ∧
      (1800 < r.toInt → exec (.vfieldLow r) s = .next s) ∧
      (1920 < r.toInt → ∃ t : State, exec (.vfieldRecover r) s = .next t ∧ t.fio.supplyNow = s.fio.supplyNow &&& 4 ∧ t.fio.vfield = r) ∧
      (r.toInt ≤ 1920 → exec (.vfieldRecover r) s = .next s) ∧
      (3050 < r.toInt → ∃ t : State, exec (.vfieldHigh r true) s = .next t ∧ t.fio.supplyNow.getLsbD 2 = true ∧ t.fio.supplyLatched.getLsbD 2 = true) ∧
      (r.toInt ≤ 3050 → exec (.vfieldHigh r true) s = .next s) ∧
      ∃ t : State, exec (.vfieldHigh r false) s = .next t ∧ t.fio.supplyNow.getLsbD 2 = false ∧ t.fio.vfield = r ∧
        t.fio.supplyLatched.getLsbD 2 = s.fio.supplyLatched.getLsbD 2) ∧
    (∀ s : State, ∃ t : State, exec .outputWatchdogExpiry s = .next t ∧ t.fio.expired = true ∧ t.fio.inSafe = true ∧
      t.host.intStatus.getLsbD 17 = true ∧ t.rec_.logNext = s.rec_.logNext + 1 ∧
      ∀ o : Fin 16, (s.fio.safe.getLsbD (2 * o.val) = false → s.fio.safe.getLsbD (2 * o.val + 1) = false → driven t.fio o = false)) ∧
    (∀ (c : Conv) (s : State), (s.isReady rdyFdie = false ∨ (convOf s.fio c).busy = true ∨ (convOf s.fio c).waiting = true ∨
      (convOf s.fio c).left ≠ 0) → exec (.conversionStart c) s = .next s) ∧
    (∀ (c : Conv) (s : State), s.isReady rdyFdie = true → (convOf s.fio c).busy = false → (convOf s.fio c).waiting = false →
      (convOf s.fio c).left = 0 → ∃ t : State, exec (.conversionStart c) s = .next t ∧
        (convOf t.fio c).busy = !(convOf s.fio c).table.pwm ∧ (convOf t.fio c).waiting = (convOf s.fio c).table.pwm ∧
        convOf t.fio (otherConv c) = convOf s.fio (otherConv c)) ∧
    (∀ (c : Conv) (v : Sample) (over_ : Bool) (stamp : Word) (s : State), (convOf s.fio c).busy = false → exec (.conversionEnd c v over_ stamp) s = .next s) ∧
    ∀ (c : Conv) (v : Sample) (over_ : Bool) (stamp : Word) (n : Fin 17) (s : State), (convOf s.fio c).busy = true →
      (convEntry (convOf s.fio c)).channel = n.val → ∃ t : State, exec (.conversionEnd c v over_ stamp) s = .next t ∧
        (convOf t.fio c).results[n].value =
          (if overRange (convEntry (convOf s.fio c)).range v over_ = true then (if v.msb = true then 0x20000 else 0x1FFFF) else v) ∧
        (convOf t.fio c).results[n].over_ = overRange (convEntry (convOf s.fio c)).range v over_ ∧
        (convOf t.fio c).results[n].stamp = s.pastStamp stamp ∧ (convOf t.fio c).results[n].count = (convOf s.fio c).results[n].count + 1 ∧
        (∀ k : Fin 17, k ≠ n → (convOf t.fio c).results[k] = (convOf s.fio c).results[k]) ∧
        (convOf t.fio (otherConv c)).results = (convOf s.fio (otherConv c)).results ∧
        (c = .x → t.isReady rdyConvX = true) ∧ (c = .y → t.isReady rdyConvY = true)

/-- A pending mode applies and the bus state follows; with none pending nothing changes. On a live controller in mode
1 an error adds to its count, and the state is bus-off above 255, passive from 128, active below; a change of state or
warn raises vector 15; a controller off the bus, or listening only, counts nothing. A recovery that completes clears
both counts. A live controller in mode 1 acknowledges what it receives. A frame that no drive sends and no rule takes, missed to nowhere, changes no storage; one a rule sends to
a buffer becomes its record with new data; to a FIFO with room it goes last, and to a full one that does not overwrite
only the lost count goes up. A sent frame of a buffer is on the bus, and the buffer is no longer pending; one that
fails without one_shot stays. The counters clear. A drive silent for eight updates raises the cause EXT_DRIVE, which its strand's next update
acts on; before that nothing changes. -/
def Obligations.CanEventsAct : Prop :=
  (∀ (c : CanId) (s : State), s.cans[c].modeNext = none → exec (.canModeApply c) s = .next s) ∧
    (∀ (c : CanId) (m : BitVec 2) (s : State), s.cans[c].modeNext = some m → ∃ t : State, exec (.canModeApply c) s = .next t ∧
      t.cans[c].mode = m ∧ t.cans[c].modeNext = none ∧ t.cans[c].st = (if m = 0 then .off else if 255 < s.cans[c].tec then .busOff
        else if 128 ≤ s.cans[c].tec ∨ 128 ≤ s.cans[c].rec_ then .passive else .active) ∧ ∀ k : CanId, k ≠ c → t.cans[k] = s.cans[k]) ∧
    (∀ (c : CanId) (tx : Bool) (n : Nat) (s : State), s.cans[c].mode = 1 → canLive s.cans[c] = true → ∃ t : State,
      exec (.canError c tx n) s = .next t ∧ t.cans[c].tec = s.cans[c].tec + (if tx = true then n else 0) ∧
      t.cans[c].rec_ = s.cans[c].rec_ + (if tx = true then 0 else n) ∧
      t.cans[c].st = (if 255 < t.cans[c].tec then .busOff else if 128 ≤ t.cans[c].tec ∨ 128 ≤ t.cans[c].rec_ then .passive else .active) ∧
      t.cans[c].warn = decide (96 ≤ t.cans[c].tec ∨ 96 ≤ t.cans[c].rec_) ∧
      (t.cans[c].st ≠ s.cans[c].st → t.host.intStatus.getLsbD 15 = true)) ∧
    (∀ (c : CanId) (tx : Bool) (n : Nat) (s : State), (s.cans[c].mode ≠ 1 ∨ canLive s.cans[c] = false) →
      exec (.canError c tx n) s = .next s) ∧
    (∀ (c : CanId) (s : State), s.cans[c].st = .busOff → s.cans[c].recovering = true → ∃ t : State, exec (.canRecoveryComplete c) s = .next t ∧
      t.cans[c].tec = 0 ∧ t.cans[c].rec_ = 0 ∧ t.cans[c].recovering = false ∧ (s.cans[c].mode ≠ 0 → t.cans[c].st = .active)) ∧
    (∀ (c : CanId) (f : CanFrame) (s : State), canLive s.cans[c] = false → exec (.canFrameReceive c f) s = .next s) ∧
    (∀ (c : CanId) (f : CanFrame) (s : State), canLive s.cans[c] = true → statusStrand s c f = none →
      (routeFrame s.cans[c] f).1 = 0 → ∃ t : State, exec (.canFrameReceive c f) s = .next t ∧
        (s.cans[c].mode = 1 → Out.canAck c ∈ t.out) ∧ t.cans[c].fifo0 = s.cans[c].fifo0 ∧
        t.cans[c].fifo1 = s.cans[c].fifo1 ∧ t.cans[c].bufs = s.cans[c].bufs ∧ t.mem = s.mem) ∧
    (∀ (c : CanId) (f : CanFrame) (k : Fin 64) (n : Half) (s : State), canLive s.cans[c] = true → statusStrand s c f = none →
      routeFrame s.cans[c] f = (3, k, n) → ∃ t : State, exec (.canFrameReceive c f) s = .next t ∧ 
        t.cans[c].bufs[k].record.frame = { f with stamp := s.eventStamp f.stamp } ∧
        t.cans[c].bufs[k].nd = true ∧ t.cans[c].bufs[k].ovr = (s.cans[c].bufs[k].ovr || s.cans[c].bufs[k].nd) ∧
        ∀ j : Fin 64, j ≠ k → t.cans[c].bufs[j] = s.cans[c].bufs[j]) ∧
    (∀ (c : CanId) (f : CanFrame) (k : Fin 64) (n : Half) (s : State), canLive s.cans[c] = true → statusStrand s c f = none →
      routeFrame s.cans[c] f = (1, k, n) →
      (s.cans[c].fifo0.length < s.cans[c].cfg.f0Size → ∃ t : State, exec (.canFrameReceive c f) s = .next t ∧
        (∃ r : CanRec, t.cans[c].fifo0 = s.cans[c].fifo0 ++ [r] ∧ r.frame = { f with stamp := s.eventStamp f.stamp } ∧ r.rule = n) ∧ t.cans[c].lost0 = s.cans[c].lost0) ∧
      (s.cans[c].cfg.f0Size ≤ s.cans[c].fifo0.length → s.cans[c].cfg.over0 = false → ∃ t : State, exec (.canFrameReceive c f) s = .next t ∧
        t.cans[c].fifo0 = s.cans[c].fifo0 ∧ t.cans[c].lost0 = min 255 (s.cans[c].lost0 + 1))) ∧
    (∀ (c : CanId) (k : Fin 64) (f : CanFrame) (stamp : Word) (s : State), canLive s.cans[c] = true → s.cans[c].mode = 1 →
      nextTx s.cans[c] = some (.buffer k, f) → (∃ t : State, exec (.canFrameTransmit c stamp true) s = .next t ∧
        Out.canFrame c f ∈ t.out ∧ t.cans[c].bufs[k].pending = false ∧ t.cans[c].bufs[k].record.stamp = s.eventStamp stamp ∧
        t.cans[c].tec = s.cans[c].tec - 1) ∧
      (s.cans[c].cfg.oneShot = false → exec (.canFrameTransmit c stamp false) s = .next s)) ∧
    (∀ (c : CanId) (s : State), nextTx s.cans[c] = none → ∀ (stamp : Word) (sent : Bool), exec (.canFrameTransmit c stamp sent) s = .next s) ∧
    (∀ (c : CanId) (s : State), exec (.canCntClear c) s = .next (s.modCan c fun x => { x with lost0 := 0, lost1 := 0, txFail := 0, driveLate := 0 })) ∧
    (∀ (c : CanId) (v : Word) (s : State), exec (.canTakeWrite c v) s = .next (s.modCan c (takeBuffer v.toNat))) ∧
    ∀ (i : StrandId) (c : CanId) (n : Nat) (s : State), s.strands[i].cfg.binding = .can c n →
      (8 ≤ keyed 0 i s.cans[c].silent → s.strands[i].st ≠ .off → exec (.driveStatusTimeout i) s =
        .next (s.modStrand i fun x => { x with raised := setBit x.raised causeExtDrive true })) ∧
      (keyed 0 i s.cans[c].silent < 8 → exec (.driveStatusTimeout i) s = .next s)

/-- What boundary scan may drive, it drives with EXTEST, INTEST or CLAMP, out of test reset and with RESET_N low, and it
is no PWM, GEN, FOUT or SAF_TP ball; with RESET_N high those three act as BYPASS. With TRST_N low, as in operation, the
port reads IDCODE 0x1960_0C4F and drives nothing. RESET_N going low is noted, pulls the PHY reset low again, and leaves
the port as it is. -/
def Obligations.BoundaryScanKeepsItsLimits : Prop :=
  (∀ (s : State) (b : Ball), s.scanDrives b = true → s.pwr.resetLow = true ∧ s.scan.trstLow = false ∧
      (s.scan.ir = .extest ∨ s.scan.ir = .intest ∨ s.scan.ir = .clamp) ∧
      ∀ (q : QuadId) (k : Fin 12) (f : Fin 16) (n : Fin 4), b ≠ .pwm q k ∧ b ≠ .genA q ∧ b ≠ .genB q ∧ b ≠ .fout f ∧ b ≠ .safTp n) ∧
    (∀ s : State, s.pwr.resetLow = false → s.scan.trstLow = false →
      (s.scan.ir = .extest ∨ s.scan.ir = .intest ∨ s.scan.ir = .clamp) → s.scanActs = .bypass) ∧
    (∀ s : State, s.scan.trstLow = true → s.scanReads = some 0x19600C4F ∧ ∀ b : Ball, s.scanDrives b = false) ∧
    ∀ s : State, ∃ t : State, exec .resetNLow s = .next t ∧ t.pwr.resetLow = true ∧ t.eth.phyRun = false ∧ t.scan = s.scan
end

