-- ==== Sys2Proof/Laws/State.lean ====
section
/-! SUPPORT. For each update of State and each of its fields, what the field is afterwards: true by rfl, so that no proof
unfolds a record update. -/

namespace Sys2Proof.Machine

variable (s : State)

@[simp] theorem State.setStrand_id (i : StrandId) (x : Strand) : (s.setStrand i x).id = s.id := rfl
@[simp] theorem State.setStrand_pwr (i : StrandId) (x : Strand) : (s.setStrand i x).pwr = s.pwr := rfl
@[simp] theorem State.setStrand_clk (i : StrandId) (x : Strand) : (s.setStrand i x).clk = s.clk := rfl
@[simp] theorem State.setStrand_host (i : StrandId) (x : Strand) : (s.setStrand i x).host = s.host := rfl
@[simp] theorem State.setStrand_mb (i : StrandId) (x : Strand) : (s.setStrand i x).mb = s.mb := rfl
@[simp] theorem State.setStrand_dist (i : StrandId) (x : Strand) : (s.setStrand i x).dist = s.dist := rfl
@[simp] theorem State.setStrand_seq (i : StrandId) (x : Strand) : (s.setStrand i x).seq = s.seq := rfl
@[simp] theorem State.setStrand_strands (i : StrandId) (x : Strand) : (s.setStrand i x).strands = s.strands.set i x := rfl
@[simp] theorem State.setStrand_groups (i : StrandId) (x : Strand) : (s.setStrand i x).groups = s.groups := rfl
@[simp] theorem State.setStrand_cams (i : StrandId) (x : Strand) : (s.setStrand i x).cams = s.cams := rfl
@[simp] theorem State.setStrand_skeins (i : StrandId) (x : Strand) : (s.setStrand i x).skeins = s.skeins := rfl
@[simp] theorem State.setStrand_quads (i : StrandId) (x : Strand) : (s.setStrand i x).quads = s.quads := rfl
@[simp] theorem State.setStrand_stgs (i : StrandId) (x : Strand) : (s.setStrand i x).stgs = s.stgs := rfl
@[simp] theorem State.setStrand_fbs (i : StrandId) (x : Strand) : (s.setStrand i x).fbs = s.fbs := rfl
@[simp] theorem State.setStrand_probes (i : StrandId) (x : Strand) : (s.setStrand i x).probes = s.probes := rfl
@[simp] theorem State.setStrand_cmps (i : StrandId) (x : Strand) : (s.setStrand i x).cmps = s.cmps := rfl
@[simp] theorem State.setStrand_engines (i : StrandId) (x : Strand) : (s.setStrand i x).engines = s.engines := rfl
@[simp] theorem State.setStrand_roles (i : StrandId) (x : Strand) : (s.setStrand i x).roles = s.roles := rfl
@[simp] theorem State.setStrand_progs (i : StrandId) (x : Strand) : (s.setStrand i x).progs = s.progs := rfl
@[simp] theorem State.setStrand_mem (i : StrandId) (x : Strand) : (s.setStrand i x).mem = s.mem := rfl
@[simp] theorem State.setStrand_link (i : StrandId) (x : Strand) : (s.setStrand i x).link = s.link := rfl
@[simp] theorem State.setStrand_time (i : StrandId) (x : Strand) : (s.setStrand i x).time = s.time := rfl
@[simp] theorem State.setStrand_rec_ (i : StrandId) (x : Strand) : (s.setStrand i x).rec_ = s.rec_ := rfl
@[simp] theorem State.setStrand_saf (i : StrandId) (x : Strand) : (s.setStrand i x).saf = s.saf := rfl
@[simp] theorem State.setStrand_exps (i : StrandId) (x : Strand) : (s.setStrand i x).exps = s.exps := rfl
@[simp] theorem State.setStrand_fio (i : StrandId) (x : Strand) : (s.setStrand i x).fio = s.fio := rfl
@[simp] theorem State.setStrand_cans (i : StrandId) (x : Strand) : (s.setStrand i x).cans = s.cans := rfl
@[simp] theorem State.setStrand_usb (i : StrandId) (x : Strand) : (s.setStrand i x).usb = s.usb := rfl
@[simp] theorem State.setStrand_eth (i : StrandId) (x : Strand) : (s.setStrand i x).eth = s.eth := rfl
@[simp] theorem State.setStrand_scan (i : StrandId) (x : Strand) : (s.setStrand i x).scan = s.scan := rfl
@[simp] theorem State.setStrand_userPubs (i : StrandId) (x : Strand) : (s.setStrand i x).userPubs = s.userPubs := rfl
@[simp] theorem State.setStrand_free (i : StrandId) (x : Strand) : (s.setStrand i x).free = s.free := rfl
@[simp] theorem State.setStrand_out (i : StrandId) (x : Strand) : (s.setStrand i x).out = s.out := rfl
@[simp] theorem State.setStrand_pending (i : StrandId) (x : Strand) : (s.setStrand i x).pending = s.pending := rfl

@[simp] theorem State.setQuad_id (i : QuadId) (x : Quad) : (s.setQuad i x).id = s.id := rfl
@[simp] theorem State.setQuad_pwr (i : QuadId) (x : Quad) : (s.setQuad i x).pwr = s.pwr := rfl
@[simp] theorem State.setQuad_clk (i : QuadId) (x : Quad) : (s.setQuad i x).clk = s.clk := rfl
@[simp] theorem State.setQuad_host (i : QuadId) (x : Quad) : (s.setQuad i x).host = s.host := rfl
@[simp] theorem State.setQuad_mb (i : QuadId) (x : Quad) : (s.setQuad i x).mb = s.mb := rfl
@[simp] theorem State.setQuad_dist (i : QuadId) (x : Quad) : (s.setQuad i x).dist = s.dist := rfl
@[simp] theorem State.setQuad_seq (i : QuadId) (x : Quad) : (s.setQuad i x).seq = s.seq := rfl
@[simp] theorem State.setQuad_strands (i : QuadId) (x : Quad) : (s.setQuad i x).strands = s.strands := rfl
@[simp] theorem State.setQuad_groups (i : QuadId) (x : Quad) : (s.setQuad i x).groups = s.groups := rfl
@[simp] theorem State.setQuad_cams (i : QuadId) (x : Quad) : (s.setQuad i x).cams = s.cams := rfl
@[simp] theorem State.setQuad_skeins (i : QuadId) (x : Quad) : (s.setQuad i x).skeins = s.skeins := rfl
@[simp] theorem State.setQuad_quads (i : QuadId) (x : Quad) : (s.setQuad i x).quads = s.quads.set i x := rfl
@[simp] theorem State.setQuad_stgs (i : QuadId) (x : Quad) : (s.setQuad i x).stgs = s.stgs := rfl
@[simp] theorem State.setQuad_fbs (i : QuadId) (x : Quad) : (s.setQuad i x).fbs = s.fbs := rfl
@[simp] theorem State.setQuad_probes (i : QuadId) (x : Quad) : (s.setQuad i x).probes = s.probes := rfl
@[simp] theorem State.setQuad_cmps (i : QuadId) (x : Quad) : (s.setQuad i x).cmps = s.cmps := rfl
@[simp] theorem State.setQuad_engines (i : QuadId) (x : Quad) : (s.setQuad i x).engines = s.engines := rfl
@[simp] theorem State.setQuad_roles (i : QuadId) (x : Quad) : (s.setQuad i x).roles = s.roles := rfl
@[simp] theorem State.setQuad_progs (i : QuadId) (x : Quad) : (s.setQuad i x).progs = s.progs := rfl
@[simp] theorem State.setQuad_mem (i : QuadId) (x : Quad) : (s.setQuad i x).mem = s.mem := rfl
@[simp] theorem State.setQuad_link (i : QuadId) (x : Quad) : (s.setQuad i x).link = s.link := rfl
@[simp] theorem State.setQuad_time (i : QuadId) (x : Quad) : (s.setQuad i x).time = s.time := rfl
@[simp] theorem State.setQuad_rec_ (i : QuadId) (x : Quad) : (s.setQuad i x).rec_ = s.rec_ := rfl
@[simp] theorem State.setQuad_saf (i : QuadId) (x : Quad) : (s.setQuad i x).saf = s.saf := rfl
@[simp] theorem State.setQuad_exps (i : QuadId) (x : Quad) : (s.setQuad i x).exps = s.exps := rfl
@[simp] theorem State.setQuad_fio (i : QuadId) (x : Quad) : (s.setQuad i x).fio = s.fio := rfl
@[simp] theorem State.setQuad_cans (i : QuadId) (x : Quad) : (s.setQuad i x).cans = s.cans := rfl
@[simp] theorem State.setQuad_usb (i : QuadId) (x : Quad) : (s.setQuad i x).usb = s.usb := rfl
@[simp] theorem State.setQuad_eth (i : QuadId) (x : Quad) : (s.setQuad i x).eth = s.eth := rfl
@[simp] theorem State.setQuad_scan (i : QuadId) (x : Quad) : (s.setQuad i x).scan = s.scan := rfl
@[simp] theorem State.setQuad_userPubs (i : QuadId) (x : Quad) : (s.setQuad i x).userPubs = s.userPubs := rfl
@[simp] theorem State.setQuad_free (i : QuadId) (x : Quad) : (s.setQuad i x).free = s.free := rfl
@[simp] theorem State.setQuad_out (i : QuadId) (x : Quad) : (s.setQuad i x).out = s.out := rfl
@[simp] theorem State.setQuad_pending (i : QuadId) (x : Quad) : (s.setQuad i x).pending = s.pending := rfl

@[simp] theorem State.setFb_id (i : FbId) (x : Fb) : (s.setFb i x).id = s.id := rfl
@[simp] theorem State.setFb_pwr (i : FbId) (x : Fb) : (s.setFb i x).pwr = s.pwr := rfl
@[simp] theorem State.setFb_clk (i : FbId) (x : Fb) : (s.setFb i x).clk = s.clk := rfl
@[simp] theorem State.setFb_host (i : FbId) (x : Fb) : (s.setFb i x).host = s.host := rfl
@[simp] theorem State.setFb_mb (i : FbId) (x : Fb) : (s.setFb i x).mb = s.mb := rfl
@[simp] theorem State.setFb_dist (i : FbId) (x : Fb) : (s.setFb i x).dist = s.dist := rfl
@[simp] theorem State.setFb_seq (i : FbId) (x : Fb) : (s.setFb i x).seq = s.seq := rfl
@[simp] theorem State.setFb_strands (i : FbId) (x : Fb) : (s.setFb i x).strands = s.strands := rfl
@[simp] theorem State.setFb_groups (i : FbId) (x : Fb) : (s.setFb i x).groups = s.groups := rfl
@[simp] theorem State.setFb_cams (i : FbId) (x : Fb) : (s.setFb i x).cams = s.cams := rfl
@[simp] theorem State.setFb_skeins (i : FbId) (x : Fb) : (s.setFb i x).skeins = s.skeins := rfl
@[simp] theorem State.setFb_quads (i : FbId) (x : Fb) : (s.setFb i x).quads = s.quads := rfl
@[simp] theorem State.setFb_stgs (i : FbId) (x : Fb) : (s.setFb i x).stgs = s.stgs := rfl
@[simp] theorem State.setFb_fbs (i : FbId) (x : Fb) : (s.setFb i x).fbs = s.fbs.set i x := rfl
@[simp] theorem State.setFb_probes (i : FbId) (x : Fb) : (s.setFb i x).probes = s.probes := rfl
@[simp] theorem State.setFb_cmps (i : FbId) (x : Fb) : (s.setFb i x).cmps = s.cmps := rfl
@[simp] theorem State.setFb_engines (i : FbId) (x : Fb) : (s.setFb i x).engines = s.engines := rfl
@[simp] theorem State.setFb_roles (i : FbId) (x : Fb) : (s.setFb i x).roles = s.roles := rfl
@[simp] theorem State.setFb_progs (i : FbId) (x : Fb) : (s.setFb i x).progs = s.progs := rfl
@[simp] theorem State.setFb_mem (i : FbId) (x : Fb) : (s.setFb i x).mem = s.mem := rfl
@[simp] theorem State.setFb_link (i : FbId) (x : Fb) : (s.setFb i x).link = s.link := rfl
@[simp] theorem State.setFb_time (i : FbId) (x : Fb) : (s.setFb i x).time = s.time := rfl
@[simp] theorem State.setFb_rec_ (i : FbId) (x : Fb) : (s.setFb i x).rec_ = s.rec_ := rfl
@[simp] theorem State.setFb_saf (i : FbId) (x : Fb) : (s.setFb i x).saf = s.saf := rfl
@[simp] theorem State.setFb_exps (i : FbId) (x : Fb) : (s.setFb i x).exps = s.exps := rfl
@[simp] theorem State.setFb_fio (i : FbId) (x : Fb) : (s.setFb i x).fio = s.fio := rfl
@[simp] theorem State.setFb_cans (i : FbId) (x : Fb) : (s.setFb i x).cans = s.cans := rfl
@[simp] theorem State.setFb_usb (i : FbId) (x : Fb) : (s.setFb i x).usb = s.usb := rfl
@[simp] theorem State.setFb_eth (i : FbId) (x : Fb) : (s.setFb i x).eth = s.eth := rfl
@[simp] theorem State.setFb_scan (i : FbId) (x : Fb) : (s.setFb i x).scan = s.scan := rfl
@[simp] theorem State.setFb_userPubs (i : FbId) (x : Fb) : (s.setFb i x).userPubs = s.userPubs := rfl
@[simp] theorem State.setFb_free (i : FbId) (x : Fb) : (s.setFb i x).free = s.free := rfl
@[simp] theorem State.setFb_out (i : FbId) (x : Fb) : (s.setFb i x).out = s.out := rfl
@[simp] theorem State.setFb_pending (i : FbId) (x : Fb) : (s.setFb i x).pending = s.pending := rfl

@[simp] theorem State.setMb_id (i : MbId) (x : Mailbox) : (s.setMb i x).id = s.id := rfl
@[simp] theorem State.setMb_pwr (i : MbId) (x : Mailbox) : (s.setMb i x).pwr = s.pwr := rfl
@[simp] theorem State.setMb_clk (i : MbId) (x : Mailbox) : (s.setMb i x).clk = s.clk := rfl
@[simp] theorem State.setMb_host (i : MbId) (x : Mailbox) : (s.setMb i x).host = s.host := rfl
@[simp] theorem State.setMb_mb (i : MbId) (x : Mailbox) : (s.setMb i x).mb = s.mb.set i x := rfl
@[simp] theorem State.setMb_dist (i : MbId) (x : Mailbox) : (s.setMb i x).dist = s.dist := rfl
@[simp] theorem State.setMb_seq (i : MbId) (x : Mailbox) : (s.setMb i x).seq = s.seq := rfl
@[simp] theorem State.setMb_strands (i : MbId) (x : Mailbox) : (s.setMb i x).strands = s.strands := rfl
@[simp] theorem State.setMb_groups (i : MbId) (x : Mailbox) : (s.setMb i x).groups = s.groups := rfl
@[simp] theorem State.setMb_cams (i : MbId) (x : Mailbox) : (s.setMb i x).cams = s.cams := rfl
@[simp] theorem State.setMb_skeins (i : MbId) (x : Mailbox) : (s.setMb i x).skeins = s.skeins := rfl
@[simp] theorem State.setMb_quads (i : MbId) (x : Mailbox) : (s.setMb i x).quads = s.quads := rfl
@[simp] theorem State.setMb_stgs (i : MbId) (x : Mailbox) : (s.setMb i x).stgs = s.stgs := rfl
@[simp] theorem State.setMb_fbs (i : MbId) (x : Mailbox) : (s.setMb i x).fbs = s.fbs := rfl
@[simp] theorem State.setMb_probes (i : MbId) (x : Mailbox) : (s.setMb i x).probes = s.probes := rfl
@[simp] theorem State.setMb_cmps (i : MbId) (x : Mailbox) : (s.setMb i x).cmps = s.cmps := rfl
@[simp] theorem State.setMb_engines (i : MbId) (x : Mailbox) : (s.setMb i x).engines = s.engines := rfl
@[simp] theorem State.setMb_roles (i : MbId) (x : Mailbox) : (s.setMb i x).roles = s.roles := rfl
@[simp] theorem State.setMb_progs (i : MbId) (x : Mailbox) : (s.setMb i x).progs = s.progs := rfl
@[simp] theorem State.setMb_mem (i : MbId) (x : Mailbox) : (s.setMb i x).mem = s.mem := rfl
@[simp] theorem State.setMb_link (i : MbId) (x : Mailbox) : (s.setMb i x).link = s.link := rfl
@[simp] theorem State.setMb_time (i : MbId) (x : Mailbox) : (s.setMb i x).time = s.time := rfl
@[simp] theorem State.setMb_rec_ (i : MbId) (x : Mailbox) : (s.setMb i x).rec_ = s.rec_ := rfl
@[simp] theorem State.setMb_saf (i : MbId) (x : Mailbox) : (s.setMb i x).saf = s.saf := rfl
@[simp] theorem State.setMb_exps (i : MbId) (x : Mailbox) : (s.setMb i x).exps = s.exps := rfl
@[simp] theorem State.setMb_fio (i : MbId) (x : Mailbox) : (s.setMb i x).fio = s.fio := rfl
@[simp] theorem State.setMb_cans (i : MbId) (x : Mailbox) : (s.setMb i x).cans = s.cans := rfl
@[simp] theorem State.setMb_usb (i : MbId) (x : Mailbox) : (s.setMb i x).usb = s.usb := rfl
@[simp] theorem State.setMb_eth (i : MbId) (x : Mailbox) : (s.setMb i x).eth = s.eth := rfl
@[simp] theorem State.setMb_scan (i : MbId) (x : Mailbox) : (s.setMb i x).scan = s.scan := rfl
@[simp] theorem State.setMb_userPubs (i : MbId) (x : Mailbox) : (s.setMb i x).userPubs = s.userPubs := rfl
@[simp] theorem State.setMb_free (i : MbId) (x : Mailbox) : (s.setMb i x).free = s.free := rfl
@[simp] theorem State.setMb_out (i : MbId) (x : Mailbox) : (s.setMb i x).out = s.out := rfl
@[simp] theorem State.setMb_pending (i : MbId) (x : Mailbox) : (s.setMb i x).pending = s.pending := rfl

@[simp] theorem State.setEngine_id (i : EngineId) (x : Engine) : (s.setEngine i x).id = s.id := rfl
@[simp] theorem State.setEngine_pwr (i : EngineId) (x : Engine) : (s.setEngine i x).pwr = s.pwr := rfl
@[simp] theorem State.setEngine_clk (i : EngineId) (x : Engine) : (s.setEngine i x).clk = s.clk := rfl
@[simp] theorem State.setEngine_host (i : EngineId) (x : Engine) : (s.setEngine i x).host = s.host := rfl
@[simp] theorem State.setEngine_mb (i : EngineId) (x : Engine) : (s.setEngine i x).mb = s.mb := rfl
@[simp] theorem State.setEngine_dist (i : EngineId) (x : Engine) : (s.setEngine i x).dist = s.dist := rfl
@[simp] theorem State.setEngine_seq (i : EngineId) (x : Engine) : (s.setEngine i x).seq = s.seq := rfl
@[simp] theorem State.setEngine_strands (i : EngineId) (x : Engine) : (s.setEngine i x).strands = s.strands := rfl
@[simp] theorem State.setEngine_groups (i : EngineId) (x : Engine) : (s.setEngine i x).groups = s.groups := rfl
@[simp] theorem State.setEngine_cams (i : EngineId) (x : Engine) : (s.setEngine i x).cams = s.cams := rfl
@[simp] theorem State.setEngine_skeins (i : EngineId) (x : Engine) : (s.setEngine i x).skeins = s.skeins := rfl
@[simp] theorem State.setEngine_quads (i : EngineId) (x : Engine) : (s.setEngine i x).quads = s.quads := rfl
@[simp] theorem State.setEngine_stgs (i : EngineId) (x : Engine) : (s.setEngine i x).stgs = s.stgs := rfl
@[simp] theorem State.setEngine_fbs (i : EngineId) (x : Engine) : (s.setEngine i x).fbs = s.fbs := rfl
@[simp] theorem State.setEngine_probes (i : EngineId) (x : Engine) : (s.setEngine i x).probes = s.probes := rfl
@[simp] theorem State.setEngine_cmps (i : EngineId) (x : Engine) : (s.setEngine i x).cmps = s.cmps := rfl
@[simp] theorem State.setEngine_engines (i : EngineId) (x : Engine) : (s.setEngine i x).engines = s.engines.set i x := rfl
@[simp] theorem State.setEngine_roles (i : EngineId) (x : Engine) : (s.setEngine i x).roles = s.roles := rfl
@[simp] theorem State.setEngine_progs (i : EngineId) (x : Engine) : (s.setEngine i x).progs = s.progs := rfl
@[simp] theorem State.setEngine_mem (i : EngineId) (x : Engine) : (s.setEngine i x).mem = s.mem := rfl
@[simp] theorem State.setEngine_link (i : EngineId) (x : Engine) : (s.setEngine i x).link = s.link := rfl
@[simp] theorem State.setEngine_time (i : EngineId) (x : Engine) : (s.setEngine i x).time = s.time := rfl
@[simp] theorem State.setEngine_rec_ (i : EngineId) (x : Engine) : (s.setEngine i x).rec_ = s.rec_ := rfl
@[simp] theorem State.setEngine_saf (i : EngineId) (x : Engine) : (s.setEngine i x).saf = s.saf := rfl
@[simp] theorem State.setEngine_exps (i : EngineId) (x : Engine) : (s.setEngine i x).exps = s.exps := rfl
@[simp] theorem State.setEngine_fio (i : EngineId) (x : Engine) : (s.setEngine i x).fio = s.fio := rfl
@[simp] theorem State.setEngine_cans (i : EngineId) (x : Engine) : (s.setEngine i x).cans = s.cans := rfl
@[simp] theorem State.setEngine_usb (i : EngineId) (x : Engine) : (s.setEngine i x).usb = s.usb := rfl
@[simp] theorem State.setEngine_eth (i : EngineId) (x : Engine) : (s.setEngine i x).eth = s.eth := rfl
@[simp] theorem State.setEngine_scan (i : EngineId) (x : Engine) : (s.setEngine i x).scan = s.scan := rfl
@[simp] theorem State.setEngine_userPubs (i : EngineId) (x : Engine) : (s.setEngine i x).userPubs = s.userPubs := rfl
@[simp] theorem State.setEngine_free (i : EngineId) (x : Engine) : (s.setEngine i x).free = s.free := rfl
@[simp] theorem State.setEngine_out (i : EngineId) (x : Engine) : (s.setEngine i x).out = s.out := rfl
@[simp] theorem State.setEngine_pending (i : EngineId) (x : Engine) : (s.setEngine i x).pending = s.pending := rfl

@[simp] theorem State.modStrand_id (i : StrandId) (f : Strand → Strand) : (s.modStrand i f).id = s.id := rfl
@[simp] theorem State.modStrand_pwr (i : StrandId) (f : Strand → Strand) : (s.modStrand i f).pwr = s.pwr := rfl
@[simp] theorem State.modStrand_clk (i : StrandId) (f : Strand → Strand) : (s.modStrand i f).clk = s.clk := rfl
@[simp] theorem State.modStrand_host (i : StrandId) (f : Strand → Strand) : (s.modStrand i f).host = s.host := rfl
@[simp] theorem State.modStrand_mb (i : StrandId) (f : Strand → Strand) : (s.modStrand i f).mb = s.mb := rfl
@[simp] theorem State.modStrand_dist (i : StrandId) (f : Strand → Strand) : (s.modStrand i f).dist = s.dist := rfl
@[simp] theorem State.modStrand_seq (i : StrandId) (f : Strand → Strand) : (s.modStrand i f).seq = s.seq := rfl
@[simp] theorem State.modStrand_strands (i : StrandId) (f : Strand → Strand) : (s.modStrand i f).strands = s.strands.set i (f s.strands[i]) := rfl
@[simp] theorem State.modStrand_groups (i : StrandId) (f : Strand → Strand) : (s.modStrand i f).groups = s.groups := rfl
@[simp] theorem State.modStrand_cams (i : StrandId) (f : Strand → Strand) : (s.modStrand i f).cams = s.cams := rfl
@[simp] theorem State.modStrand_skeins (i : StrandId) (f : Strand → Strand) : (s.modStrand i f).skeins = s.skeins := rfl
@[simp] theorem State.modStrand_quads (i : StrandId) (f : Strand → Strand) : (s.modStrand i f).quads = s.quads := rfl
@[simp] theorem State.modStrand_stgs (i : StrandId) (f : Strand → Strand) : (s.modStrand i f).stgs = s.stgs := rfl
@[simp] theorem State.modStrand_fbs (i : StrandId) (f : Strand → Strand) : (s.modStrand i f).fbs = s.fbs := rfl
@[simp] theorem State.modStrand_probes (i : StrandId) (f : Strand → Strand) : (s.modStrand i f).probes = s.probes := rfl
@[simp] theorem State.modStrand_cmps (i : StrandId) (f : Strand → Strand) : (s.modStrand i f).cmps = s.cmps := rfl
@[simp] theorem State.modStrand_engines (i : StrandId) (f : Strand → Strand) : (s.modStrand i f).engines = s.engines := rfl
@[simp] theorem State.modStrand_roles (i : StrandId) (f : Strand → Strand) : (s.modStrand i f).roles = s.roles := rfl
@[simp] theorem State.modStrand_progs (i : StrandId) (f : Strand → Strand) : (s.modStrand i f).progs = s.progs := rfl
@[simp] theorem State.modStrand_mem (i : StrandId) (f : Strand → Strand) : (s.modStrand i f).mem = s.mem := rfl
@[simp] theorem State.modStrand_link (i : StrandId) (f : Strand → Strand) : (s.modStrand i f).link = s.link := rfl
@[simp] theorem State.modStrand_time (i : StrandId) (f : Strand → Strand) : (s.modStrand i f).time = s.time := rfl
@[simp] theorem State.modStrand_rec_ (i : StrandId) (f : Strand → Strand) : (s.modStrand i f).rec_ = s.rec_ := rfl
@[simp] theorem State.modStrand_saf (i : StrandId) (f : Strand → Strand) : (s.modStrand i f).saf = s.saf := rfl
@[simp] theorem State.modStrand_exps (i : StrandId) (f : Strand → Strand) : (s.modStrand i f).exps = s.exps := rfl
@[simp] theorem State.modStrand_fio (i : StrandId) (f : Strand → Strand) : (s.modStrand i f).fio = s.fio := rfl
@[simp] theorem State.modStrand_cans (i : StrandId) (f : Strand → Strand) : (s.modStrand i f).cans = s.cans := rfl
@[simp] theorem State.modStrand_usb (i : StrandId) (f : Strand → Strand) : (s.modStrand i f).usb = s.usb := rfl
@[simp] theorem State.modStrand_eth (i : StrandId) (f : Strand → Strand) : (s.modStrand i f).eth = s.eth := rfl
@[simp] theorem State.modStrand_scan (i : StrandId) (f : Strand → Strand) : (s.modStrand i f).scan = s.scan := rfl
@[simp] theorem State.modStrand_userPubs (i : StrandId) (f : Strand → Strand) : (s.modStrand i f).userPubs = s.userPubs := rfl
@[simp] theorem State.modStrand_free (i : StrandId) (f : Strand → Strand) : (s.modStrand i f).free = s.free := rfl
@[simp] theorem State.modStrand_out (i : StrandId) (f : Strand → Strand) : (s.modStrand i f).out = s.out := rfl
@[simp] theorem State.modStrand_pending (i : StrandId) (f : Strand → Strand) : (s.modStrand i f).pending = s.pending := rfl

@[simp] theorem State.modQuad_id (i : QuadId) (f : Quad → Quad) : (s.modQuad i f).id = s.id := rfl
@[simp] theorem State.modQuad_pwr (i : QuadId) (f : Quad → Quad) : (s.modQuad i f).pwr = s.pwr := rfl
@[simp] theorem State.modQuad_clk (i : QuadId) (f : Quad → Quad) : (s.modQuad i f).clk = s.clk := rfl
@[simp] theorem State.modQuad_host (i : QuadId) (f : Quad → Quad) : (s.modQuad i f).host = s.host := rfl
@[simp] theorem State.modQuad_mb (i : QuadId) (f : Quad → Quad) : (s.modQuad i f).mb = s.mb := rfl
@[simp] theorem State.modQuad_dist (i : QuadId) (f : Quad → Quad) : (s.modQuad i f).dist = s.dist := rfl
@[simp] theorem State.modQuad_seq (i : QuadId) (f : Quad → Quad) : (s.modQuad i f).seq = s.seq := rfl
@[simp] theorem State.modQuad_strands (i : QuadId) (f : Quad → Quad) : (s.modQuad i f).strands = s.strands := rfl
@[simp] theorem State.modQuad_groups (i : QuadId) (f : Quad → Quad) : (s.modQuad i f).groups = s.groups := rfl
@[simp] theorem State.modQuad_cams (i : QuadId) (f : Quad → Quad) : (s.modQuad i f).cams = s.cams := rfl
@[simp] theorem State.modQuad_skeins (i : QuadId) (f : Quad → Quad) : (s.modQuad i f).skeins = s.skeins := rfl
@[simp] theorem State.modQuad_quads (i : QuadId) (f : Quad → Quad) : (s.modQuad i f).quads = s.quads.set i (f s.quads[i]) := rfl
@[simp] theorem State.modQuad_stgs (i : QuadId) (f : Quad → Quad) : (s.modQuad i f).stgs = s.stgs := rfl
@[simp] theorem State.modQuad_fbs (i : QuadId) (f : Quad → Quad) : (s.modQuad i f).fbs = s.fbs := rfl
@[simp] theorem State.modQuad_probes (i : QuadId) (f : Quad → Quad) : (s.modQuad i f).probes = s.probes := rfl
@[simp] theorem State.modQuad_cmps (i : QuadId) (f : Quad → Quad) : (s.modQuad i f).cmps = s.cmps := rfl
@[simp] theorem State.modQuad_engines (i : QuadId) (f : Quad → Quad) : (s.modQuad i f).engines = s.engines := rfl
@[simp] theorem State.modQuad_roles (i : QuadId) (f : Quad → Quad) : (s.modQuad i f).roles = s.roles := rfl
@[simp] theorem State.modQuad_progs (i : QuadId) (f : Quad → Quad) : (s.modQuad i f).progs = s.progs := rfl
@[simp] theorem State.modQuad_mem (i : QuadId) (f : Quad → Quad) : (s.modQuad i f).mem = s.mem := rfl
@[simp] theorem State.modQuad_link (i : QuadId) (f : Quad → Quad) : (s.modQuad i f).link = s.link := rfl
@[simp] theorem State.modQuad_time (i : QuadId) (f : Quad → Quad) : (s.modQuad i f).time = s.time := rfl
@[simp] theorem State.modQuad_rec_ (i : QuadId) (f : Quad → Quad) : (s.modQuad i f).rec_ = s.rec_ := rfl
@[simp] theorem State.modQuad_saf (i : QuadId) (f : Quad → Quad) : (s.modQuad i f).saf = s.saf := rfl
@[simp] theorem State.modQuad_exps (i : QuadId) (f : Quad → Quad) : (s.modQuad i f).exps = s.exps := rfl
@[simp] theorem State.modQuad_fio (i : QuadId) (f : Quad → Quad) : (s.modQuad i f).fio = s.fio := rfl
@[simp] theorem State.modQuad_cans (i : QuadId) (f : Quad → Quad) : (s.modQuad i f).cans = s.cans := rfl
@[simp] theorem State.modQuad_usb (i : QuadId) (f : Quad → Quad) : (s.modQuad i f).usb = s.usb := rfl
@[simp] theorem State.modQuad_eth (i : QuadId) (f : Quad → Quad) : (s.modQuad i f).eth = s.eth := rfl
@[simp] theorem State.modQuad_scan (i : QuadId) (f : Quad → Quad) : (s.modQuad i f).scan = s.scan := rfl
@[simp] theorem State.modQuad_userPubs (i : QuadId) (f : Quad → Quad) : (s.modQuad i f).userPubs = s.userPubs := rfl
@[simp] theorem State.modQuad_free (i : QuadId) (f : Quad → Quad) : (s.modQuad i f).free = s.free := rfl
@[simp] theorem State.modQuad_out (i : QuadId) (f : Quad → Quad) : (s.modQuad i f).out = s.out := rfl
@[simp] theorem State.modQuad_pending (i : QuadId) (f : Quad → Quad) : (s.modQuad i f).pending = s.pending := rfl

@[simp] theorem State.modFb_id (i : FbId) (f : Fb → Fb) : (s.modFb i f).id = s.id := rfl
@[simp] theorem State.modFb_pwr (i : FbId) (f : Fb → Fb) : (s.modFb i f).pwr = s.pwr := rfl
@[simp] theorem State.modFb_clk (i : FbId) (f : Fb → Fb) : (s.modFb i f).clk = s.clk := rfl
@[simp] theorem State.modFb_host (i : FbId) (f : Fb → Fb) : (s.modFb i f).host = s.host := rfl
@[simp] theorem State.modFb_mb (i : FbId) (f : Fb → Fb) : (s.modFb i f).mb = s.mb := rfl
@[simp] theorem State.modFb_dist (i : FbId) (f : Fb → Fb) : (s.modFb i f).dist = s.dist := rfl
@[simp] theorem State.modFb_seq (i : FbId) (f : Fb → Fb) : (s.modFb i f).seq = s.seq := rfl
@[simp] theorem State.modFb_strands (i : FbId) (f : Fb → Fb) : (s.modFb i f).strands = s.strands := rfl
@[simp] theorem State.modFb_groups (i : FbId) (f : Fb → Fb) : (s.modFb i f).groups = s.groups := rfl
@[simp] theorem State.modFb_cams (i : FbId) (f : Fb → Fb) : (s.modFb i f).cams = s.cams := rfl
@[simp] theorem State.modFb_skeins (i : FbId) (f : Fb → Fb) : (s.modFb i f).skeins = s.skeins := rfl
@[simp] theorem State.modFb_quads (i : FbId) (f : Fb → Fb) : (s.modFb i f).quads = s.quads := rfl
@[simp] theorem State.modFb_stgs (i : FbId) (f : Fb → Fb) : (s.modFb i f).stgs = s.stgs := rfl
@[simp] theorem State.modFb_fbs (i : FbId) (f : Fb → Fb) : (s.modFb i f).fbs = s.fbs.set i (f s.fbs[i]) := rfl
@[simp] theorem State.modFb_probes (i : FbId) (f : Fb → Fb) : (s.modFb i f).probes = s.probes := rfl
@[simp] theorem State.modFb_cmps (i : FbId) (f : Fb → Fb) : (s.modFb i f).cmps = s.cmps := rfl
@[simp] theorem State.modFb_engines (i : FbId) (f : Fb → Fb) : (s.modFb i f).engines = s.engines := rfl
@[simp] theorem State.modFb_roles (i : FbId) (f : Fb → Fb) : (s.modFb i f).roles = s.roles := rfl
@[simp] theorem State.modFb_progs (i : FbId) (f : Fb → Fb) : (s.modFb i f).progs = s.progs := rfl
@[simp] theorem State.modFb_mem (i : FbId) (f : Fb → Fb) : (s.modFb i f).mem = s.mem := rfl
@[simp] theorem State.modFb_link (i : FbId) (f : Fb → Fb) : (s.modFb i f).link = s.link := rfl
@[simp] theorem State.modFb_time (i : FbId) (f : Fb → Fb) : (s.modFb i f).time = s.time := rfl
@[simp] theorem State.modFb_rec_ (i : FbId) (f : Fb → Fb) : (s.modFb i f).rec_ = s.rec_ := rfl
@[simp] theorem State.modFb_saf (i : FbId) (f : Fb → Fb) : (s.modFb i f).saf = s.saf := rfl
@[simp] theorem State.modFb_exps (i : FbId) (f : Fb → Fb) : (s.modFb i f).exps = s.exps := rfl
@[simp] theorem State.modFb_fio (i : FbId) (f : Fb → Fb) : (s.modFb i f).fio = s.fio := rfl
@[simp] theorem State.modFb_cans (i : FbId) (f : Fb → Fb) : (s.modFb i f).cans = s.cans := rfl
@[simp] theorem State.modFb_usb (i : FbId) (f : Fb → Fb) : (s.modFb i f).usb = s.usb := rfl
@[simp] theorem State.modFb_eth (i : FbId) (f : Fb → Fb) : (s.modFb i f).eth = s.eth := rfl
@[simp] theorem State.modFb_scan (i : FbId) (f : Fb → Fb) : (s.modFb i f).scan = s.scan := rfl
@[simp] theorem State.modFb_userPubs (i : FbId) (f : Fb → Fb) : (s.modFb i f).userPubs = s.userPubs := rfl
@[simp] theorem State.modFb_free (i : FbId) (f : Fb → Fb) : (s.modFb i f).free = s.free := rfl
@[simp] theorem State.modFb_out (i : FbId) (f : Fb → Fb) : (s.modFb i f).out = s.out := rfl
@[simp] theorem State.modFb_pending (i : FbId) (f : Fb → Fb) : (s.modFb i f).pending = s.pending := rfl

@[simp] theorem State.modMb_id (i : MbId) (f : Mailbox → Mailbox) : (s.modMb i f).id = s.id := rfl
@[simp] theorem State.modMb_pwr (i : MbId) (f : Mailbox → Mailbox) : (s.modMb i f).pwr = s.pwr := rfl
@[simp] theorem State.modMb_clk (i : MbId) (f : Mailbox → Mailbox) : (s.modMb i f).clk = s.clk := rfl
@[simp] theorem State.modMb_host (i : MbId) (f : Mailbox → Mailbox) : (s.modMb i f).host = s.host := rfl
@[simp] theorem State.modMb_mb (i : MbId) (f : Mailbox → Mailbox) : (s.modMb i f).mb = s.mb.set i (f s.mb[i]) := rfl
@[simp] theorem State.modMb_dist (i : MbId) (f : Mailbox → Mailbox) : (s.modMb i f).dist = s.dist := rfl
@[simp] theorem State.modMb_seq (i : MbId) (f : Mailbox → Mailbox) : (s.modMb i f).seq = s.seq := rfl
@[simp] theorem State.modMb_strands (i : MbId) (f : Mailbox → Mailbox) : (s.modMb i f).strands = s.strands := rfl
@[simp] theorem State.modMb_groups (i : MbId) (f : Mailbox → Mailbox) : (s.modMb i f).groups = s.groups := rfl
@[simp] theorem State.modMb_cams (i : MbId) (f : Mailbox → Mailbox) : (s.modMb i f).cams = s.cams := rfl
@[simp] theorem State.modMb_skeins (i : MbId) (f : Mailbox → Mailbox) : (s.modMb i f).skeins = s.skeins := rfl
@[simp] theorem State.modMb_quads (i : MbId) (f : Mailbox → Mailbox) : (s.modMb i f).quads = s.quads := rfl
@[simp] theorem State.modMb_stgs (i : MbId) (f : Mailbox → Mailbox) : (s.modMb i f).stgs = s.stgs := rfl
@[simp] theorem State.modMb_fbs (i : MbId) (f : Mailbox → Mailbox) : (s.modMb i f).fbs = s.fbs := rfl
@[simp] theorem State.modMb_probes (i : MbId) (f : Mailbox → Mailbox) : (s.modMb i f).probes = s.probes := rfl
@[simp] theorem State.modMb_cmps (i : MbId) (f : Mailbox → Mailbox) : (s.modMb i f).cmps = s.cmps := rfl
@[simp] theorem State.modMb_engines (i : MbId) (f : Mailbox → Mailbox) : (s.modMb i f).engines = s.engines := rfl
@[simp] theorem State.modMb_roles (i : MbId) (f : Mailbox → Mailbox) : (s.modMb i f).roles = s.roles := rfl
@[simp] theorem State.modMb_progs (i : MbId) (f : Mailbox → Mailbox) : (s.modMb i f).progs = s.progs := rfl
@[simp] theorem State.modMb_mem (i : MbId) (f : Mailbox → Mailbox) : (s.modMb i f).mem = s.mem := rfl
@[simp] theorem State.modMb_link (i : MbId) (f : Mailbox → Mailbox) : (s.modMb i f).link = s.link := rfl
@[simp] theorem State.modMb_time (i : MbId) (f : Mailbox → Mailbox) : (s.modMb i f).time = s.time := rfl
@[simp] theorem State.modMb_rec_ (i : MbId) (f : Mailbox → Mailbox) : (s.modMb i f).rec_ = s.rec_ := rfl
@[simp] theorem State.modMb_saf (i : MbId) (f : Mailbox → Mailbox) : (s.modMb i f).saf = s.saf := rfl
@[simp] theorem State.modMb_exps (i : MbId) (f : Mailbox → Mailbox) : (s.modMb i f).exps = s.exps := rfl
@[simp] theorem State.modMb_fio (i : MbId) (f : Mailbox → Mailbox) : (s.modMb i f).fio = s.fio := rfl
@[simp] theorem State.modMb_cans (i : MbId) (f : Mailbox → Mailbox) : (s.modMb i f).cans = s.cans := rfl
@[simp] theorem State.modMb_usb (i : MbId) (f : Mailbox → Mailbox) : (s.modMb i f).usb = s.usb := rfl
@[simp] theorem State.modMb_eth (i : MbId) (f : Mailbox → Mailbox) : (s.modMb i f).eth = s.eth := rfl
@[simp] theorem State.modMb_scan (i : MbId) (f : Mailbox → Mailbox) : (s.modMb i f).scan = s.scan := rfl
@[simp] theorem State.modMb_userPubs (i : MbId) (f : Mailbox → Mailbox) : (s.modMb i f).userPubs = s.userPubs := rfl
@[simp] theorem State.modMb_free (i : MbId) (f : Mailbox → Mailbox) : (s.modMb i f).free = s.free := rfl
@[simp] theorem State.modMb_out (i : MbId) (f : Mailbox → Mailbox) : (s.modMb i f).out = s.out := rfl
@[simp] theorem State.modMb_pending (i : MbId) (f : Mailbox → Mailbox) : (s.modMb i f).pending = s.pending := rfl

@[simp] theorem State.modEngine_id (i : EngineId) (f : Engine → Engine) : (s.modEngine i f).id = s.id := rfl
@[simp] theorem State.modEngine_pwr (i : EngineId) (f : Engine → Engine) : (s.modEngine i f).pwr = s.pwr := rfl
@[simp] theorem State.modEngine_clk (i : EngineId) (f : Engine → Engine) : (s.modEngine i f).clk = s.clk := rfl
@[simp] theorem State.modEngine_host (i : EngineId) (f : Engine → Engine) : (s.modEngine i f).host = s.host := rfl
@[simp] theorem State.modEngine_mb (i : EngineId) (f : Engine → Engine) : (s.modEngine i f).mb = s.mb := rfl
@[simp] theorem State.modEngine_dist (i : EngineId) (f : Engine → Engine) : (s.modEngine i f).dist = s.dist := rfl
@[simp] theorem State.modEngine_seq (i : EngineId) (f : Engine → Engine) : (s.modEngine i f).seq = s.seq := rfl
@[simp] theorem State.modEngine_strands (i : EngineId) (f : Engine → Engine) : (s.modEngine i f).strands = s.strands := rfl
@[simp] theorem State.modEngine_groups (i : EngineId) (f : Engine → Engine) : (s.modEngine i f).groups = s.groups := rfl
@[simp] theorem State.modEngine_cams (i : EngineId) (f : Engine → Engine) : (s.modEngine i f).cams = s.cams := rfl
@[simp] theorem State.modEngine_skeins (i : EngineId) (f : Engine → Engine) : (s.modEngine i f).skeins = s.skeins := rfl
@[simp] theorem State.modEngine_quads (i : EngineId) (f : Engine → Engine) : (s.modEngine i f).quads = s.quads := rfl
@[simp] theorem State.modEngine_stgs (i : EngineId) (f : Engine → Engine) : (s.modEngine i f).stgs = s.stgs := rfl
@[simp] theorem State.modEngine_fbs (i : EngineId) (f : Engine → Engine) : (s.modEngine i f).fbs = s.fbs := rfl
@[simp] theorem State.modEngine_probes (i : EngineId) (f : Engine → Engine) : (s.modEngine i f).probes = s.probes := rfl
@[simp] theorem State.modEngine_cmps (i : EngineId) (f : Engine → Engine) : (s.modEngine i f).cmps = s.cmps := rfl
@[simp] theorem State.modEngine_engines (i : EngineId) (f : Engine → Engine) : (s.modEngine i f).engines = s.engines.set i (f s.engines[i]) := rfl
@[simp] theorem State.modEngine_roles (i : EngineId) (f : Engine → Engine) : (s.modEngine i f).roles = s.roles := rfl
@[simp] theorem State.modEngine_progs (i : EngineId) (f : Engine → Engine) : (s.modEngine i f).progs = s.progs := rfl
@[simp] theorem State.modEngine_mem (i : EngineId) (f : Engine → Engine) : (s.modEngine i f).mem = s.mem := rfl
@[simp] theorem State.modEngine_link (i : EngineId) (f : Engine → Engine) : (s.modEngine i f).link = s.link := rfl
@[simp] theorem State.modEngine_time (i : EngineId) (f : Engine → Engine) : (s.modEngine i f).time = s.time := rfl
@[simp] theorem State.modEngine_rec_ (i : EngineId) (f : Engine → Engine) : (s.modEngine i f).rec_ = s.rec_ := rfl
@[simp] theorem State.modEngine_saf (i : EngineId) (f : Engine → Engine) : (s.modEngine i f).saf = s.saf := rfl
@[simp] theorem State.modEngine_exps (i : EngineId) (f : Engine → Engine) : (s.modEngine i f).exps = s.exps := rfl
@[simp] theorem State.modEngine_fio (i : EngineId) (f : Engine → Engine) : (s.modEngine i f).fio = s.fio := rfl
@[simp] theorem State.modEngine_cans (i : EngineId) (f : Engine → Engine) : (s.modEngine i f).cans = s.cans := rfl
@[simp] theorem State.modEngine_usb (i : EngineId) (f : Engine → Engine) : (s.modEngine i f).usb = s.usb := rfl
@[simp] theorem State.modEngine_eth (i : EngineId) (f : Engine → Engine) : (s.modEngine i f).eth = s.eth := rfl
@[simp] theorem State.modEngine_scan (i : EngineId) (f : Engine → Engine) : (s.modEngine i f).scan = s.scan := rfl
@[simp] theorem State.modEngine_userPubs (i : EngineId) (f : Engine → Engine) : (s.modEngine i f).userPubs = s.userPubs := rfl
@[simp] theorem State.modEngine_free (i : EngineId) (f : Engine → Engine) : (s.modEngine i f).free = s.free := rfl
@[simp] theorem State.modEngine_out (i : EngineId) (f : Engine → Engine) : (s.modEngine i f).out = s.out := rfl
@[simp] theorem State.modEngine_pending (i : EngineId) (f : Engine → Engine) : (s.modEngine i f).pending = s.pending := rfl

@[simp] theorem State.modRole_id (i : EngineId) (f : EngineRole → EngineRole) : (s.modRole i f).id = s.id := rfl
@[simp] theorem State.modRole_pwr (i : EngineId) (f : EngineRole → EngineRole) : (s.modRole i f).pwr = s.pwr := rfl
@[simp] theorem State.modRole_clk (i : EngineId) (f : EngineRole → EngineRole) : (s.modRole i f).clk = s.clk := rfl
@[simp] theorem State.modRole_host (i : EngineId) (f : EngineRole → EngineRole) : (s.modRole i f).host = s.host := rfl
@[simp] theorem State.modRole_mb (i : EngineId) (f : EngineRole → EngineRole) : (s.modRole i f).mb = s.mb := rfl
@[simp] theorem State.modRole_dist (i : EngineId) (f : EngineRole → EngineRole) : (s.modRole i f).dist = s.dist := rfl
@[simp] theorem State.modRole_seq (i : EngineId) (f : EngineRole → EngineRole) : (s.modRole i f).seq = s.seq := rfl
@[simp] theorem State.modRole_strands (i : EngineId) (f : EngineRole → EngineRole) : (s.modRole i f).strands = s.strands := rfl
@[simp] theorem State.modRole_groups (i : EngineId) (f : EngineRole → EngineRole) : (s.modRole i f).groups = s.groups := rfl
@[simp] theorem State.modRole_cams (i : EngineId) (f : EngineRole → EngineRole) : (s.modRole i f).cams = s.cams := rfl
@[simp] theorem State.modRole_skeins (i : EngineId) (f : EngineRole → EngineRole) : (s.modRole i f).skeins = s.skeins := rfl
@[simp] theorem State.modRole_quads (i : EngineId) (f : EngineRole → EngineRole) : (s.modRole i f).quads = s.quads := rfl
@[simp] theorem State.modRole_stgs (i : EngineId) (f : EngineRole → EngineRole) : (s.modRole i f).stgs = s.stgs := rfl
@[simp] theorem State.modRole_fbs (i : EngineId) (f : EngineRole → EngineRole) : (s.modRole i f).fbs = s.fbs := rfl
@[simp] theorem State.modRole_probes (i : EngineId) (f : EngineRole → EngineRole) : (s.modRole i f).probes = s.probes := rfl
@[simp] theorem State.modRole_cmps (i : EngineId) (f : EngineRole → EngineRole) : (s.modRole i f).cmps = s.cmps := rfl
@[simp] theorem State.modRole_engines (i : EngineId) (f : EngineRole → EngineRole) : (s.modRole i f).engines = s.engines := rfl
@[simp] theorem State.modRole_roles (i : EngineId) (f : EngineRole → EngineRole) : (s.modRole i f).roles = s.roles.set i (f s.roles[i]) := rfl
@[simp] theorem State.modRole_progs (i : EngineId) (f : EngineRole → EngineRole) : (s.modRole i f).progs = s.progs := rfl
@[simp] theorem State.modRole_mem (i : EngineId) (f : EngineRole → EngineRole) : (s.modRole i f).mem = s.mem := rfl
@[simp] theorem State.modRole_link (i : EngineId) (f : EngineRole → EngineRole) : (s.modRole i f).link = s.link := rfl
@[simp] theorem State.modRole_time (i : EngineId) (f : EngineRole → EngineRole) : (s.modRole i f).time = s.time := rfl
@[simp] theorem State.modRole_rec_ (i : EngineId) (f : EngineRole → EngineRole) : (s.modRole i f).rec_ = s.rec_ := rfl
@[simp] theorem State.modRole_saf (i : EngineId) (f : EngineRole → EngineRole) : (s.modRole i f).saf = s.saf := rfl
@[simp] theorem State.modRole_exps (i : EngineId) (f : EngineRole → EngineRole) : (s.modRole i f).exps = s.exps := rfl
@[simp] theorem State.modRole_fio (i : EngineId) (f : EngineRole → EngineRole) : (s.modRole i f).fio = s.fio := rfl
@[simp] theorem State.modRole_cans (i : EngineId) (f : EngineRole → EngineRole) : (s.modRole i f).cans = s.cans := rfl
@[simp] theorem State.modRole_usb (i : EngineId) (f : EngineRole → EngineRole) : (s.modRole i f).usb = s.usb := rfl
@[simp] theorem State.modRole_eth (i : EngineId) (f : EngineRole → EngineRole) : (s.modRole i f).eth = s.eth := rfl
@[simp] theorem State.modRole_scan (i : EngineId) (f : EngineRole → EngineRole) : (s.modRole i f).scan = s.scan := rfl
@[simp] theorem State.modRole_userPubs (i : EngineId) (f : EngineRole → EngineRole) : (s.modRole i f).userPubs = s.userPubs := rfl
@[simp] theorem State.modRole_free (i : EngineId) (f : EngineRole → EngineRole) : (s.modRole i f).free = s.free := rfl
@[simp] theorem State.modRole_out (i : EngineId) (f : EngineRole → EngineRole) : (s.modRole i f).out = s.out := rfl
@[simp] theorem State.modRole_pending (i : EngineId) (f : EngineRole → EngineRole) : (s.modRole i f).pending = s.pending := rfl

@[simp] theorem State.modCan_id (i : CanId) (f : Can → Can) : (s.modCan i f).id = s.id := rfl
@[simp] theorem State.modCan_pwr (i : CanId) (f : Can → Can) : (s.modCan i f).pwr = s.pwr := rfl
@[simp] theorem State.modCan_clk (i : CanId) (f : Can → Can) : (s.modCan i f).clk = s.clk := rfl
@[simp] theorem State.modCan_host (i : CanId) (f : Can → Can) : (s.modCan i f).host = s.host := rfl
@[simp] theorem State.modCan_mb (i : CanId) (f : Can → Can) : (s.modCan i f).mb = s.mb := rfl
@[simp] theorem State.modCan_dist (i : CanId) (f : Can → Can) : (s.modCan i f).dist = s.dist := rfl
@[simp] theorem State.modCan_seq (i : CanId) (f : Can → Can) : (s.modCan i f).seq = s.seq := rfl
@[simp] theorem State.modCan_strands (i : CanId) (f : Can → Can) : (s.modCan i f).strands = s.strands := rfl
@[simp] theorem State.modCan_groups (i : CanId) (f : Can → Can) : (s.modCan i f).groups = s.groups := rfl
@[simp] theorem State.modCan_cams (i : CanId) (f : Can → Can) : (s.modCan i f).cams = s.cams := rfl
@[simp] theorem State.modCan_skeins (i : CanId) (f : Can → Can) : (s.modCan i f).skeins = s.skeins := rfl
@[simp] theorem State.modCan_quads (i : CanId) (f : Can → Can) : (s.modCan i f).quads = s.quads := rfl
@[simp] theorem State.modCan_stgs (i : CanId) (f : Can → Can) : (s.modCan i f).stgs = s.stgs := rfl
@[simp] theorem State.modCan_fbs (i : CanId) (f : Can → Can) : (s.modCan i f).fbs = s.fbs := rfl
@[simp] theorem State.modCan_probes (i : CanId) (f : Can → Can) : (s.modCan i f).probes = s.probes := rfl
@[simp] theorem State.modCan_cmps (i : CanId) (f : Can → Can) : (s.modCan i f).cmps = s.cmps := rfl
@[simp] theorem State.modCan_engines (i : CanId) (f : Can → Can) : (s.modCan i f).engines = s.engines := rfl
@[simp] theorem State.modCan_roles (i : CanId) (f : Can → Can) : (s.modCan i f).roles = s.roles := rfl
@[simp] theorem State.modCan_progs (i : CanId) (f : Can → Can) : (s.modCan i f).progs = s.progs := rfl
@[simp] theorem State.modCan_mem (i : CanId) (f : Can → Can) : (s.modCan i f).mem = s.mem := rfl
@[simp] theorem State.modCan_link (i : CanId) (f : Can → Can) : (s.modCan i f).link = s.link := rfl
@[simp] theorem State.modCan_time (i : CanId) (f : Can → Can) : (s.modCan i f).time = s.time := rfl
@[simp] theorem State.modCan_rec_ (i : CanId) (f : Can → Can) : (s.modCan i f).rec_ = s.rec_ := rfl
@[simp] theorem State.modCan_saf (i : CanId) (f : Can → Can) : (s.modCan i f).saf = s.saf := rfl
@[simp] theorem State.modCan_exps (i : CanId) (f : Can → Can) : (s.modCan i f).exps = s.exps := rfl
@[simp] theorem State.modCan_fio (i : CanId) (f : Can → Can) : (s.modCan i f).fio = s.fio := rfl
@[simp] theorem State.modCan_cans (i : CanId) (f : Can → Can) : (s.modCan i f).cans = s.cans.set i (f s.cans[i]) := rfl
@[simp] theorem State.modCan_usb (i : CanId) (f : Can → Can) : (s.modCan i f).usb = s.usb := rfl
@[simp] theorem State.modCan_eth (i : CanId) (f : Can → Can) : (s.modCan i f).eth = s.eth := rfl
@[simp] theorem State.modCan_scan (i : CanId) (f : Can → Can) : (s.modCan i f).scan = s.scan := rfl
@[simp] theorem State.modCan_userPubs (i : CanId) (f : Can → Can) : (s.modCan i f).userPubs = s.userPubs := rfl
@[simp] theorem State.modCan_free (i : CanId) (f : Can → Can) : (s.modCan i f).free = s.free := rfl
@[simp] theorem State.modCan_out (i : CanId) (f : Can → Can) : (s.modCan i f).out = s.out := rfl
@[simp] theorem State.modCan_pending (i : CanId) (f : Can → Can) : (s.modCan i f).pending = s.pending := rfl

@[simp] theorem State.modStg_id (i : StgId) (f : Stg → Stg) : (s.modStg i f).id = s.id := rfl
@[simp] theorem State.modStg_pwr (i : StgId) (f : Stg → Stg) : (s.modStg i f).pwr = s.pwr := rfl
@[simp] theorem State.modStg_clk (i : StgId) (f : Stg → Stg) : (s.modStg i f).clk = s.clk := rfl
@[simp] theorem State.modStg_host (i : StgId) (f : Stg → Stg) : (s.modStg i f).host = s.host := rfl
@[simp] theorem State.modStg_mb (i : StgId) (f : Stg → Stg) : (s.modStg i f).mb = s.mb := rfl
@[simp] theorem State.modStg_dist (i : StgId) (f : Stg → Stg) : (s.modStg i f).dist = s.dist := rfl
@[simp] theorem State.modStg_seq (i : StgId) (f : Stg → Stg) : (s.modStg i f).seq = s.seq := rfl
@[simp] theorem State.modStg_strands (i : StgId) (f : Stg → Stg) : (s.modStg i f).strands = s.strands := rfl
@[simp] theorem State.modStg_groups (i : StgId) (f : Stg → Stg) : (s.modStg i f).groups = s.groups := rfl
@[simp] theorem State.modStg_cams (i : StgId) (f : Stg → Stg) : (s.modStg i f).cams = s.cams := rfl
@[simp] theorem State.modStg_skeins (i : StgId) (f : Stg → Stg) : (s.modStg i f).skeins = s.skeins := rfl
@[simp] theorem State.modStg_quads (i : StgId) (f : Stg → Stg) : (s.modStg i f).quads = s.quads := rfl
@[simp] theorem State.modStg_stgs (i : StgId) (f : Stg → Stg) : (s.modStg i f).stgs = s.stgs.set i (f s.stgs[i]) := rfl
@[simp] theorem State.modStg_fbs (i : StgId) (f : Stg → Stg) : (s.modStg i f).fbs = s.fbs := rfl
@[simp] theorem State.modStg_probes (i : StgId) (f : Stg → Stg) : (s.modStg i f).probes = s.probes := rfl
@[simp] theorem State.modStg_cmps (i : StgId) (f : Stg → Stg) : (s.modStg i f).cmps = s.cmps := rfl
@[simp] theorem State.modStg_engines (i : StgId) (f : Stg → Stg) : (s.modStg i f).engines = s.engines := rfl
@[simp] theorem State.modStg_roles (i : StgId) (f : Stg → Stg) : (s.modStg i f).roles = s.roles := rfl
@[simp] theorem State.modStg_progs (i : StgId) (f : Stg → Stg) : (s.modStg i f).progs = s.progs := rfl
@[simp] theorem State.modStg_mem (i : StgId) (f : Stg → Stg) : (s.modStg i f).mem = s.mem := rfl
@[simp] theorem State.modStg_link (i : StgId) (f : Stg → Stg) : (s.modStg i f).link = s.link := rfl
@[simp] theorem State.modStg_time (i : StgId) (f : Stg → Stg) : (s.modStg i f).time = s.time := rfl
@[simp] theorem State.modStg_rec_ (i : StgId) (f : Stg → Stg) : (s.modStg i f).rec_ = s.rec_ := rfl
@[simp] theorem State.modStg_saf (i : StgId) (f : Stg → Stg) : (s.modStg i f).saf = s.saf := rfl
@[simp] theorem State.modStg_exps (i : StgId) (f : Stg → Stg) : (s.modStg i f).exps = s.exps := rfl
@[simp] theorem State.modStg_fio (i : StgId) (f : Stg → Stg) : (s.modStg i f).fio = s.fio := rfl
@[simp] theorem State.modStg_cans (i : StgId) (f : Stg → Stg) : (s.modStg i f).cans = s.cans := rfl
@[simp] theorem State.modStg_usb (i : StgId) (f : Stg → Stg) : (s.modStg i f).usb = s.usb := rfl
@[simp] theorem State.modStg_eth (i : StgId) (f : Stg → Stg) : (s.modStg i f).eth = s.eth := rfl
@[simp] theorem State.modStg_scan (i : StgId) (f : Stg → Stg) : (s.modStg i f).scan = s.scan := rfl
@[simp] theorem State.modStg_userPubs (i : StgId) (f : Stg → Stg) : (s.modStg i f).userPubs = s.userPubs := rfl
@[simp] theorem State.modStg_free (i : StgId) (f : Stg → Stg) : (s.modStg i f).free = s.free := rfl
@[simp] theorem State.modStg_out (i : StgId) (f : Stg → Stg) : (s.modStg i f).out = s.out := rfl
@[simp] theorem State.modStg_pending (i : StgId) (f : Stg → Stg) : (s.modStg i f).pending = s.pending := rfl

@[simp] theorem State.modProbe_id (i : ProbeId) (f : Probe → Probe) : (s.modProbe i f).id = s.id := rfl
@[simp] theorem State.modProbe_pwr (i : ProbeId) (f : Probe → Probe) : (s.modProbe i f).pwr = s.pwr := rfl
@[simp] theorem State.modProbe_clk (i : ProbeId) (f : Probe → Probe) : (s.modProbe i f).clk = s.clk := rfl
@[simp] theorem State.modProbe_host (i : ProbeId) (f : Probe → Probe) : (s.modProbe i f).host = s.host := rfl
@[simp] theorem State.modProbe_mb (i : ProbeId) (f : Probe → Probe) : (s.modProbe i f).mb = s.mb := rfl
@[simp] theorem State.modProbe_dist (i : ProbeId) (f : Probe → Probe) : (s.modProbe i f).dist = s.dist := rfl
@[simp] theorem State.modProbe_seq (i : ProbeId) (f : Probe → Probe) : (s.modProbe i f).seq = s.seq := rfl
@[simp] theorem State.modProbe_strands (i : ProbeId) (f : Probe → Probe) : (s.modProbe i f).strands = s.strands := rfl
@[simp] theorem State.modProbe_groups (i : ProbeId) (f : Probe → Probe) : (s.modProbe i f).groups = s.groups := rfl
@[simp] theorem State.modProbe_cams (i : ProbeId) (f : Probe → Probe) : (s.modProbe i f).cams = s.cams := rfl
@[simp] theorem State.modProbe_skeins (i : ProbeId) (f : Probe → Probe) : (s.modProbe i f).skeins = s.skeins := rfl
@[simp] theorem State.modProbe_quads (i : ProbeId) (f : Probe → Probe) : (s.modProbe i f).quads = s.quads := rfl
@[simp] theorem State.modProbe_stgs (i : ProbeId) (f : Probe → Probe) : (s.modProbe i f).stgs = s.stgs := rfl
@[simp] theorem State.modProbe_fbs (i : ProbeId) (f : Probe → Probe) : (s.modProbe i f).fbs = s.fbs := rfl
@[simp] theorem State.modProbe_probes (i : ProbeId) (f : Probe → Probe) : (s.modProbe i f).probes = s.probes.set i (f s.probes[i]) := rfl
@[simp] theorem State.modProbe_cmps (i : ProbeId) (f : Probe → Probe) : (s.modProbe i f).cmps = s.cmps := rfl
@[simp] theorem State.modProbe_engines (i : ProbeId) (f : Probe → Probe) : (s.modProbe i f).engines = s.engines := rfl
@[simp] theorem State.modProbe_roles (i : ProbeId) (f : Probe → Probe) : (s.modProbe i f).roles = s.roles := rfl
@[simp] theorem State.modProbe_progs (i : ProbeId) (f : Probe → Probe) : (s.modProbe i f).progs = s.progs := rfl
@[simp] theorem State.modProbe_mem (i : ProbeId) (f : Probe → Probe) : (s.modProbe i f).mem = s.mem := rfl
@[simp] theorem State.modProbe_link (i : ProbeId) (f : Probe → Probe) : (s.modProbe i f).link = s.link := rfl
@[simp] theorem State.modProbe_time (i : ProbeId) (f : Probe → Probe) : (s.modProbe i f).time = s.time := rfl
@[simp] theorem State.modProbe_rec_ (i : ProbeId) (f : Probe → Probe) : (s.modProbe i f).rec_ = s.rec_ := rfl
@[simp] theorem State.modProbe_saf (i : ProbeId) (f : Probe → Probe) : (s.modProbe i f).saf = s.saf := rfl
@[simp] theorem State.modProbe_exps (i : ProbeId) (f : Probe → Probe) : (s.modProbe i f).exps = s.exps := rfl
@[simp] theorem State.modProbe_fio (i : ProbeId) (f : Probe → Probe) : (s.modProbe i f).fio = s.fio := rfl
@[simp] theorem State.modProbe_cans (i : ProbeId) (f : Probe → Probe) : (s.modProbe i f).cans = s.cans := rfl
@[simp] theorem State.modProbe_usb (i : ProbeId) (f : Probe → Probe) : (s.modProbe i f).usb = s.usb := rfl
@[simp] theorem State.modProbe_eth (i : ProbeId) (f : Probe → Probe) : (s.modProbe i f).eth = s.eth := rfl
@[simp] theorem State.modProbe_scan (i : ProbeId) (f : Probe → Probe) : (s.modProbe i f).scan = s.scan := rfl
@[simp] theorem State.modProbe_userPubs (i : ProbeId) (f : Probe → Probe) : (s.modProbe i f).userPubs = s.userPubs := rfl
@[simp] theorem State.modProbe_free (i : ProbeId) (f : Probe → Probe) : (s.modProbe i f).free = s.free := rfl
@[simp] theorem State.modProbe_out (i : ProbeId) (f : Probe → Probe) : (s.modProbe i f).out = s.out := rfl
@[simp] theorem State.modProbe_pending (i : ProbeId) (f : Probe → Probe) : (s.modProbe i f).pending = s.pending := rfl

@[simp] theorem State.modCmp_id (i : CmpId) (f : Compare → Compare) : (s.modCmp i f).id = s.id := rfl
@[simp] theorem State.modCmp_pwr (i : CmpId) (f : Compare → Compare) : (s.modCmp i f).pwr = s.pwr := rfl
@[simp] theorem State.modCmp_clk (i : CmpId) (f : Compare → Compare) : (s.modCmp i f).clk = s.clk := rfl
@[simp] theorem State.modCmp_host (i : CmpId) (f : Compare → Compare) : (s.modCmp i f).host = s.host := rfl
@[simp] theorem State.modCmp_mb (i : CmpId) (f : Compare → Compare) : (s.modCmp i f).mb = s.mb := rfl
@[simp] theorem State.modCmp_dist (i : CmpId) (f : Compare → Compare) : (s.modCmp i f).dist = s.dist := rfl
@[simp] theorem State.modCmp_seq (i : CmpId) (f : Compare → Compare) : (s.modCmp i f).seq = s.seq := rfl
@[simp] theorem State.modCmp_strands (i : CmpId) (f : Compare → Compare) : (s.modCmp i f).strands = s.strands := rfl
@[simp] theorem State.modCmp_groups (i : CmpId) (f : Compare → Compare) : (s.modCmp i f).groups = s.groups := rfl
@[simp] theorem State.modCmp_cams (i : CmpId) (f : Compare → Compare) : (s.modCmp i f).cams = s.cams := rfl
@[simp] theorem State.modCmp_skeins (i : CmpId) (f : Compare → Compare) : (s.modCmp i f).skeins = s.skeins := rfl
@[simp] theorem State.modCmp_quads (i : CmpId) (f : Compare → Compare) : (s.modCmp i f).quads = s.quads := rfl
@[simp] theorem State.modCmp_stgs (i : CmpId) (f : Compare → Compare) : (s.modCmp i f).stgs = s.stgs := rfl
@[simp] theorem State.modCmp_fbs (i : CmpId) (f : Compare → Compare) : (s.modCmp i f).fbs = s.fbs := rfl
@[simp] theorem State.modCmp_probes (i : CmpId) (f : Compare → Compare) : (s.modCmp i f).probes = s.probes := rfl
@[simp] theorem State.modCmp_cmps (i : CmpId) (f : Compare → Compare) : (s.modCmp i f).cmps = s.cmps.set i (f s.cmps[i]) := rfl
@[simp] theorem State.modCmp_engines (i : CmpId) (f : Compare → Compare) : (s.modCmp i f).engines = s.engines := rfl
@[simp] theorem State.modCmp_roles (i : CmpId) (f : Compare → Compare) : (s.modCmp i f).roles = s.roles := rfl
@[simp] theorem State.modCmp_progs (i : CmpId) (f : Compare → Compare) : (s.modCmp i f).progs = s.progs := rfl
@[simp] theorem State.modCmp_mem (i : CmpId) (f : Compare → Compare) : (s.modCmp i f).mem = s.mem := rfl
@[simp] theorem State.modCmp_link (i : CmpId) (f : Compare → Compare) : (s.modCmp i f).link = s.link := rfl
@[simp] theorem State.modCmp_time (i : CmpId) (f : Compare → Compare) : (s.modCmp i f).time = s.time := rfl
@[simp] theorem State.modCmp_rec_ (i : CmpId) (f : Compare → Compare) : (s.modCmp i f).rec_ = s.rec_ := rfl
@[simp] theorem State.modCmp_saf (i : CmpId) (f : Compare → Compare) : (s.modCmp i f).saf = s.saf := rfl
@[simp] theorem State.modCmp_exps (i : CmpId) (f : Compare → Compare) : (s.modCmp i f).exps = s.exps := rfl
@[simp] theorem State.modCmp_fio (i : CmpId) (f : Compare → Compare) : (s.modCmp i f).fio = s.fio := rfl
@[simp] theorem State.modCmp_cans (i : CmpId) (f : Compare → Compare) : (s.modCmp i f).cans = s.cans := rfl
@[simp] theorem State.modCmp_usb (i : CmpId) (f : Compare → Compare) : (s.modCmp i f).usb = s.usb := rfl
@[simp] theorem State.modCmp_eth (i : CmpId) (f : Compare → Compare) : (s.modCmp i f).eth = s.eth := rfl
@[simp] theorem State.modCmp_scan (i : CmpId) (f : Compare → Compare) : (s.modCmp i f).scan = s.scan := rfl
@[simp] theorem State.modCmp_userPubs (i : CmpId) (f : Compare → Compare) : (s.modCmp i f).userPubs = s.userPubs := rfl
@[simp] theorem State.modCmp_free (i : CmpId) (f : Compare → Compare) : (s.modCmp i f).free = s.free := rfl
@[simp] theorem State.modCmp_out (i : CmpId) (f : Compare → Compare) : (s.modCmp i f).out = s.out := rfl
@[simp] theorem State.modCmp_pending (i : CmpId) (f : Compare → Compare) : (s.modCmp i f).pending = s.pending := rfl

@[simp] theorem State.modGroup_id (i : Fin 32) (f : Group → Group) : (s.modGroup i f).id = s.id := rfl
@[simp] theorem State.modGroup_pwr (i : Fin 32) (f : Group → Group) : (s.modGroup i f).pwr = s.pwr := rfl
@[simp] theorem State.modGroup_clk (i : Fin 32) (f : Group → Group) : (s.modGroup i f).clk = s.clk := rfl
@[simp] theorem State.modGroup_host (i : Fin 32) (f : Group → Group) : (s.modGroup i f).host = s.host := rfl
@[simp] theorem State.modGroup_mb (i : Fin 32) (f : Group → Group) : (s.modGroup i f).mb = s.mb := rfl
@[simp] theorem State.modGroup_dist (i : Fin 32) (f : Group → Group) : (s.modGroup i f).dist = s.dist := rfl
@[simp] theorem State.modGroup_seq (i : Fin 32) (f : Group → Group) : (s.modGroup i f).seq = s.seq := rfl
@[simp] theorem State.modGroup_strands (i : Fin 32) (f : Group → Group) : (s.modGroup i f).strands = s.strands := rfl
@[simp] theorem State.modGroup_groups (i : Fin 32) (f : Group → Group) : (s.modGroup i f).groups = s.groups.set i (f s.groups[i]) := rfl
@[simp] theorem State.modGroup_cams (i : Fin 32) (f : Group → Group) : (s.modGroup i f).cams = s.cams := rfl
@[simp] theorem State.modGroup_skeins (i : Fin 32) (f : Group → Group) : (s.modGroup i f).skeins = s.skeins := rfl
@[simp] theorem State.modGroup_quads (i : Fin 32) (f : Group → Group) : (s.modGroup i f).quads = s.quads := rfl
@[simp] theorem State.modGroup_stgs (i : Fin 32) (f : Group → Group) : (s.modGroup i f).stgs = s.stgs := rfl
@[simp] theorem State.modGroup_fbs (i : Fin 32) (f : Group → Group) : (s.modGroup i f).fbs = s.fbs := rfl
@[simp] theorem State.modGroup_probes (i : Fin 32) (f : Group → Group) : (s.modGroup i f).probes = s.probes := rfl
@[simp] theorem State.modGroup_cmps (i : Fin 32) (f : Group → Group) : (s.modGroup i f).cmps = s.cmps := rfl
@[simp] theorem State.modGroup_engines (i : Fin 32) (f : Group → Group) : (s.modGroup i f).engines = s.engines := rfl
@[simp] theorem State.modGroup_roles (i : Fin 32) (f : Group → Group) : (s.modGroup i f).roles = s.roles := rfl
@[simp] theorem State.modGroup_progs (i : Fin 32) (f : Group → Group) : (s.modGroup i f).progs = s.progs := rfl
@[simp] theorem State.modGroup_mem (i : Fin 32) (f : Group → Group) : (s.modGroup i f).mem = s.mem := rfl
@[simp] theorem State.modGroup_link (i : Fin 32) (f : Group → Group) : (s.modGroup i f).link = s.link := rfl
@[simp] theorem State.modGroup_time (i : Fin 32) (f : Group → Group) : (s.modGroup i f).time = s.time := rfl
@[simp] theorem State.modGroup_rec_ (i : Fin 32) (f : Group → Group) : (s.modGroup i f).rec_ = s.rec_ := rfl
@[simp] theorem State.modGroup_saf (i : Fin 32) (f : Group → Group) : (s.modGroup i f).saf = s.saf := rfl
@[simp] theorem State.modGroup_exps (i : Fin 32) (f : Group → Group) : (s.modGroup i f).exps = s.exps := rfl
@[simp] theorem State.modGroup_fio (i : Fin 32) (f : Group → Group) : (s.modGroup i f).fio = s.fio := rfl
@[simp] theorem State.modGroup_cans (i : Fin 32) (f : Group → Group) : (s.modGroup i f).cans = s.cans := rfl
@[simp] theorem State.modGroup_usb (i : Fin 32) (f : Group → Group) : (s.modGroup i f).usb = s.usb := rfl
@[simp] theorem State.modGroup_eth (i : Fin 32) (f : Group → Group) : (s.modGroup i f).eth = s.eth := rfl
@[simp] theorem State.modGroup_scan (i : Fin 32) (f : Group → Group) : (s.modGroup i f).scan = s.scan := rfl
@[simp] theorem State.modGroup_userPubs (i : Fin 32) (f : Group → Group) : (s.modGroup i f).userPubs = s.userPubs := rfl
@[simp] theorem State.modGroup_free (i : Fin 32) (f : Group → Group) : (s.modGroup i f).free = s.free := rfl
@[simp] theorem State.modGroup_out (i : Fin 32) (f : Group → Group) : (s.modGroup i f).out = s.out := rfl
@[simp] theorem State.modGroup_pending (i : Fin 32) (f : Group → Group) : (s.modGroup i f).pending = s.pending := rfl

@[simp] theorem State.modCam_id (i : Fin 64) (f : CamTable → CamTable) : (s.modCam i f).id = s.id := rfl
@[simp] theorem State.modCam_pwr (i : Fin 64) (f : CamTable → CamTable) : (s.modCam i f).pwr = s.pwr := rfl
@[simp] theorem State.modCam_clk (i : Fin 64) (f : CamTable → CamTable) : (s.modCam i f).clk = s.clk := rfl
@[simp] theorem State.modCam_host (i : Fin 64) (f : CamTable → CamTable) : (s.modCam i f).host = s.host := rfl
@[simp] theorem State.modCam_mb (i : Fin 64) (f : CamTable → CamTable) : (s.modCam i f).mb = s.mb := rfl
@[simp] theorem State.modCam_dist (i : Fin 64) (f : CamTable → CamTable) : (s.modCam i f).dist = s.dist := rfl
@[simp] theorem State.modCam_seq (i : Fin 64) (f : CamTable → CamTable) : (s.modCam i f).seq = s.seq := rfl
@[simp] theorem State.modCam_strands (i : Fin 64) (f : CamTable → CamTable) : (s.modCam i f).strands = s.strands := rfl
@[simp] theorem State.modCam_groups (i : Fin 64) (f : CamTable → CamTable) : (s.modCam i f).groups = s.groups := rfl
@[simp] theorem State.modCam_cams (i : Fin 64) (f : CamTable → CamTable) : (s.modCam i f).cams = s.cams.set i (f s.cams[i]) := rfl
@[simp] theorem State.modCam_skeins (i : Fin 64) (f : CamTable → CamTable) : (s.modCam i f).skeins = s.skeins := rfl
@[simp] theorem State.modCam_quads (i : Fin 64) (f : CamTable → CamTable) : (s.modCam i f).quads = s.quads := rfl
@[simp] theorem State.modCam_stgs (i : Fin 64) (f : CamTable → CamTable) : (s.modCam i f).stgs = s.stgs := rfl
@[simp] theorem State.modCam_fbs (i : Fin 64) (f : CamTable → CamTable) : (s.modCam i f).fbs = s.fbs := rfl
@[simp] theorem State.modCam_probes (i : Fin 64) (f : CamTable → CamTable) : (s.modCam i f).probes = s.probes := rfl
@[simp] theorem State.modCam_cmps (i : Fin 64) (f : CamTable → CamTable) : (s.modCam i f).cmps = s.cmps := rfl
@[simp] theorem State.modCam_engines (i : Fin 64) (f : CamTable → CamTable) : (s.modCam i f).engines = s.engines := rfl
@[simp] theorem State.modCam_roles (i : Fin 64) (f : CamTable → CamTable) : (s.modCam i f).roles = s.roles := rfl
@[simp] theorem State.modCam_progs (i : Fin 64) (f : CamTable → CamTable) : (s.modCam i f).progs = s.progs := rfl
@[simp] theorem State.modCam_mem (i : Fin 64) (f : CamTable → CamTable) : (s.modCam i f).mem = s.mem := rfl
@[simp] theorem State.modCam_link (i : Fin 64) (f : CamTable → CamTable) : (s.modCam i f).link = s.link := rfl
@[simp] theorem State.modCam_time (i : Fin 64) (f : CamTable → CamTable) : (s.modCam i f).time = s.time := rfl
@[simp] theorem State.modCam_rec_ (i : Fin 64) (f : CamTable → CamTable) : (s.modCam i f).rec_ = s.rec_ := rfl
@[simp] theorem State.modCam_saf (i : Fin 64) (f : CamTable → CamTable) : (s.modCam i f).saf = s.saf := rfl
@[simp] theorem State.modCam_exps (i : Fin 64) (f : CamTable → CamTable) : (s.modCam i f).exps = s.exps := rfl
@[simp] theorem State.modCam_fio (i : Fin 64) (f : CamTable → CamTable) : (s.modCam i f).fio = s.fio := rfl
@[simp] theorem State.modCam_cans (i : Fin 64) (f : CamTable → CamTable) : (s.modCam i f).cans = s.cans := rfl
@[simp] theorem State.modCam_usb (i : Fin 64) (f : CamTable → CamTable) : (s.modCam i f).usb = s.usb := rfl
@[simp] theorem State.modCam_eth (i : Fin 64) (f : CamTable → CamTable) : (s.modCam i f).eth = s.eth := rfl
@[simp] theorem State.modCam_scan (i : Fin 64) (f : CamTable → CamTable) : (s.modCam i f).scan = s.scan := rfl
@[simp] theorem State.modCam_userPubs (i : Fin 64) (f : CamTable → CamTable) : (s.modCam i f).userPubs = s.userPubs := rfl
@[simp] theorem State.modCam_free (i : Fin 64) (f : CamTable → CamTable) : (s.modCam i f).free = s.free := rfl
@[simp] theorem State.modCam_out (i : Fin 64) (f : CamTable → CamTable) : (s.modCam i f).out = s.out := rfl
@[simp] theorem State.modCam_pending (i : Fin 64) (f : CamTable → CamTable) : (s.modCam i f).pending = s.pending := rfl

@[simp] theorem State.modSkein_id (i : Fin 64) (f : Skein → Skein) : (s.modSkein i f).id = s.id := rfl
@[simp] theorem State.modSkein_pwr (i : Fin 64) (f : Skein → Skein) : (s.modSkein i f).pwr = s.pwr := rfl
@[simp] theorem State.modSkein_clk (i : Fin 64) (f : Skein → Skein) : (s.modSkein i f).clk = s.clk := rfl
@[simp] theorem State.modSkein_host (i : Fin 64) (f : Skein → Skein) : (s.modSkein i f).host = s.host := rfl
@[simp] theorem State.modSkein_mb (i : Fin 64) (f : Skein → Skein) : (s.modSkein i f).mb = s.mb := rfl
@[simp] theorem State.modSkein_dist (i : Fin 64) (f : Skein → Skein) : (s.modSkein i f).dist = s.dist := rfl
@[simp] theorem State.modSkein_seq (i : Fin 64) (f : Skein → Skein) : (s.modSkein i f).seq = s.seq := rfl
@[simp] theorem State.modSkein_strands (i : Fin 64) (f : Skein → Skein) : (s.modSkein i f).strands = s.strands := rfl
@[simp] theorem State.modSkein_groups (i : Fin 64) (f : Skein → Skein) : (s.modSkein i f).groups = s.groups := rfl
@[simp] theorem State.modSkein_cams (i : Fin 64) (f : Skein → Skein) : (s.modSkein i f).cams = s.cams := rfl
@[simp] theorem State.modSkein_skeins (i : Fin 64) (f : Skein → Skein) : (s.modSkein i f).skeins = s.skeins.set i (f s.skeins[i]) := rfl
@[simp] theorem State.modSkein_quads (i : Fin 64) (f : Skein → Skein) : (s.modSkein i f).quads = s.quads := rfl
@[simp] theorem State.modSkein_stgs (i : Fin 64) (f : Skein → Skein) : (s.modSkein i f).stgs = s.stgs := rfl
@[simp] theorem State.modSkein_fbs (i : Fin 64) (f : Skein → Skein) : (s.modSkein i f).fbs = s.fbs := rfl
@[simp] theorem State.modSkein_probes (i : Fin 64) (f : Skein → Skein) : (s.modSkein i f).probes = s.probes := rfl
@[simp] theorem State.modSkein_cmps (i : Fin 64) (f : Skein → Skein) : (s.modSkein i f).cmps = s.cmps := rfl
@[simp] theorem State.modSkein_engines (i : Fin 64) (f : Skein → Skein) : (s.modSkein i f).engines = s.engines := rfl
@[simp] theorem State.modSkein_roles (i : Fin 64) (f : Skein → Skein) : (s.modSkein i f).roles = s.roles := rfl
@[simp] theorem State.modSkein_progs (i : Fin 64) (f : Skein → Skein) : (s.modSkein i f).progs = s.progs := rfl
@[simp] theorem State.modSkein_mem (i : Fin 64) (f : Skein → Skein) : (s.modSkein i f).mem = s.mem := rfl
@[simp] theorem State.modSkein_link (i : Fin 64) (f : Skein → Skein) : (s.modSkein i f).link = s.link := rfl
@[simp] theorem State.modSkein_time (i : Fin 64) (f : Skein → Skein) : (s.modSkein i f).time = s.time := rfl
@[simp] theorem State.modSkein_rec_ (i : Fin 64) (f : Skein → Skein) : (s.modSkein i f).rec_ = s.rec_ := rfl
@[simp] theorem State.modSkein_saf (i : Fin 64) (f : Skein → Skein) : (s.modSkein i f).saf = s.saf := rfl
@[simp] theorem State.modSkein_exps (i : Fin 64) (f : Skein → Skein) : (s.modSkein i f).exps = s.exps := rfl
@[simp] theorem State.modSkein_fio (i : Fin 64) (f : Skein → Skein) : (s.modSkein i f).fio = s.fio := rfl
@[simp] theorem State.modSkein_cans (i : Fin 64) (f : Skein → Skein) : (s.modSkein i f).cans = s.cans := rfl
@[simp] theorem State.modSkein_usb (i : Fin 64) (f : Skein → Skein) : (s.modSkein i f).usb = s.usb := rfl
@[simp] theorem State.modSkein_eth (i : Fin 64) (f : Skein → Skein) : (s.modSkein i f).eth = s.eth := rfl
@[simp] theorem State.modSkein_scan (i : Fin 64) (f : Skein → Skein) : (s.modSkein i f).scan = s.scan := rfl
@[simp] theorem State.modSkein_userPubs (i : Fin 64) (f : Skein → Skein) : (s.modSkein i f).userPubs = s.userPubs := rfl
@[simp] theorem State.modSkein_free (i : Fin 64) (f : Skein → Skein) : (s.modSkein i f).free = s.free := rfl
@[simp] theorem State.modSkein_out (i : Fin 64) (f : Skein → Skein) : (s.modSkein i f).out = s.out := rfl
@[simp] theorem State.modSkein_pending (i : Fin 64) (f : Skein → Skein) : (s.modSkein i f).pending = s.pending := rfl

@[simp] theorem State.modExp_id (i : ExpId) (f : Exp → Exp) : (s.modExp i f).id = s.id := rfl
@[simp] theorem State.modExp_pwr (i : ExpId) (f : Exp → Exp) : (s.modExp i f).pwr = s.pwr := rfl
@[simp] theorem State.modExp_clk (i : ExpId) (f : Exp → Exp) : (s.modExp i f).clk = s.clk := rfl
@[simp] theorem State.modExp_host (i : ExpId) (f : Exp → Exp) : (s.modExp i f).host = s.host := rfl
@[simp] theorem State.modExp_mb (i : ExpId) (f : Exp → Exp) : (s.modExp i f).mb = s.mb := rfl
@[simp] theorem State.modExp_dist (i : ExpId) (f : Exp → Exp) : (s.modExp i f).dist = s.dist := rfl
@[simp] theorem State.modExp_seq (i : ExpId) (f : Exp → Exp) : (s.modExp i f).seq = s.seq := rfl
@[simp] theorem State.modExp_strands (i : ExpId) (f : Exp → Exp) : (s.modExp i f).strands = s.strands := rfl
@[simp] theorem State.modExp_groups (i : ExpId) (f : Exp → Exp) : (s.modExp i f).groups = s.groups := rfl
@[simp] theorem State.modExp_cams (i : ExpId) (f : Exp → Exp) : (s.modExp i f).cams = s.cams := rfl
@[simp] theorem State.modExp_skeins (i : ExpId) (f : Exp → Exp) : (s.modExp i f).skeins = s.skeins := rfl
@[simp] theorem State.modExp_quads (i : ExpId) (f : Exp → Exp) : (s.modExp i f).quads = s.quads := rfl
@[simp] theorem State.modExp_stgs (i : ExpId) (f : Exp → Exp) : (s.modExp i f).stgs = s.stgs := rfl
@[simp] theorem State.modExp_fbs (i : ExpId) (f : Exp → Exp) : (s.modExp i f).fbs = s.fbs := rfl
@[simp] theorem State.modExp_probes (i : ExpId) (f : Exp → Exp) : (s.modExp i f).probes = s.probes := rfl
@[simp] theorem State.modExp_cmps (i : ExpId) (f : Exp → Exp) : (s.modExp i f).cmps = s.cmps := rfl
@[simp] theorem State.modExp_engines (i : ExpId) (f : Exp → Exp) : (s.modExp i f).engines = s.engines := rfl
@[simp] theorem State.modExp_roles (i : ExpId) (f : Exp → Exp) : (s.modExp i f).roles = s.roles := rfl
@[simp] theorem State.modExp_progs (i : ExpId) (f : Exp → Exp) : (s.modExp i f).progs = s.progs := rfl
@[simp] theorem State.modExp_mem (i : ExpId) (f : Exp → Exp) : (s.modExp i f).mem = s.mem := rfl
@[simp] theorem State.modExp_link (i : ExpId) (f : Exp → Exp) : (s.modExp i f).link = s.link := rfl
@[simp] theorem State.modExp_time (i : ExpId) (f : Exp → Exp) : (s.modExp i f).time = s.time := rfl
@[simp] theorem State.modExp_rec_ (i : ExpId) (f : Exp → Exp) : (s.modExp i f).rec_ = s.rec_ := rfl
@[simp] theorem State.modExp_saf (i : ExpId) (f : Exp → Exp) : (s.modExp i f).saf = s.saf := rfl
@[simp] theorem State.modExp_exps (i : ExpId) (f : Exp → Exp) : (s.modExp i f).exps = s.exps.set i (f s.exps[i]) := rfl
@[simp] theorem State.modExp_fio (i : ExpId) (f : Exp → Exp) : (s.modExp i f).fio = s.fio := rfl
@[simp] theorem State.modExp_cans (i : ExpId) (f : Exp → Exp) : (s.modExp i f).cans = s.cans := rfl
@[simp] theorem State.modExp_usb (i : ExpId) (f : Exp → Exp) : (s.modExp i f).usb = s.usb := rfl
@[simp] theorem State.modExp_eth (i : ExpId) (f : Exp → Exp) : (s.modExp i f).eth = s.eth := rfl
@[simp] theorem State.modExp_scan (i : ExpId) (f : Exp → Exp) : (s.modExp i f).scan = s.scan := rfl
@[simp] theorem State.modExp_userPubs (i : ExpId) (f : Exp → Exp) : (s.modExp i f).userPubs = s.userPubs := rfl
@[simp] theorem State.modExp_free (i : ExpId) (f : Exp → Exp) : (s.modExp i f).free = s.free := rfl
@[simp] theorem State.modExp_out (i : ExpId) (f : Exp → Exp) : (s.modExp i f).out = s.out := rfl
@[simp] theorem State.modExp_pending (i : ExpId) (f : Exp → Exp) : (s.modExp i f).pending = s.pending := rfl

@[simp] theorem State.modHost_id (f : HostIf → HostIf) : (s.modHost f).id = s.id := rfl
@[simp] theorem State.modHost_pwr (f : HostIf → HostIf) : (s.modHost f).pwr = s.pwr := rfl
@[simp] theorem State.modHost_clk (f : HostIf → HostIf) : (s.modHost f).clk = s.clk := rfl
@[simp] theorem State.modHost_host (f : HostIf → HostIf) : (s.modHost f).host = f s.host := rfl
@[simp] theorem State.modHost_mb (f : HostIf → HostIf) : (s.modHost f).mb = s.mb := rfl
@[simp] theorem State.modHost_dist (f : HostIf → HostIf) : (s.modHost f).dist = s.dist := rfl
@[simp] theorem State.modHost_seq (f : HostIf → HostIf) : (s.modHost f).seq = s.seq := rfl
@[simp] theorem State.modHost_strands (f : HostIf → HostIf) : (s.modHost f).strands = s.strands := rfl
@[simp] theorem State.modHost_groups (f : HostIf → HostIf) : (s.modHost f).groups = s.groups := rfl
@[simp] theorem State.modHost_cams (f : HostIf → HostIf) : (s.modHost f).cams = s.cams := rfl
@[simp] theorem State.modHost_skeins (f : HostIf → HostIf) : (s.modHost f).skeins = s.skeins := rfl
@[simp] theorem State.modHost_quads (f : HostIf → HostIf) : (s.modHost f).quads = s.quads := rfl
@[simp] theorem State.modHost_stgs (f : HostIf → HostIf) : (s.modHost f).stgs = s.stgs := rfl
@[simp] theorem State.modHost_fbs (f : HostIf → HostIf) : (s.modHost f).fbs = s.fbs := rfl
@[simp] theorem State.modHost_probes (f : HostIf → HostIf) : (s.modHost f).probes = s.probes := rfl
@[simp] theorem State.modHost_cmps (f : HostIf → HostIf) : (s.modHost f).cmps = s.cmps := rfl
@[simp] theorem State.modHost_engines (f : HostIf → HostIf) : (s.modHost f).engines = s.engines := rfl
@[simp] theorem State.modHost_roles (f : HostIf → HostIf) : (s.modHost f).roles = s.roles := rfl
@[simp] theorem State.modHost_progs (f : HostIf → HostIf) : (s.modHost f).progs = s.progs := rfl
@[simp] theorem State.modHost_mem (f : HostIf → HostIf) : (s.modHost f).mem = s.mem := rfl
@[simp] theorem State.modHost_link (f : HostIf → HostIf) : (s.modHost f).link = s.link := rfl
@[simp] theorem State.modHost_time (f : HostIf → HostIf) : (s.modHost f).time = s.time := rfl
@[simp] theorem State.modHost_rec_ (f : HostIf → HostIf) : (s.modHost f).rec_ = s.rec_ := rfl
@[simp] theorem State.modHost_saf (f : HostIf → HostIf) : (s.modHost f).saf = s.saf := rfl
@[simp] theorem State.modHost_exps (f : HostIf → HostIf) : (s.modHost f).exps = s.exps := rfl
@[simp] theorem State.modHost_fio (f : HostIf → HostIf) : (s.modHost f).fio = s.fio := rfl
@[simp] theorem State.modHost_cans (f : HostIf → HostIf) : (s.modHost f).cans = s.cans := rfl
@[simp] theorem State.modHost_usb (f : HostIf → HostIf) : (s.modHost f).usb = s.usb := rfl
@[simp] theorem State.modHost_eth (f : HostIf → HostIf) : (s.modHost f).eth = s.eth := rfl
@[simp] theorem State.modHost_scan (f : HostIf → HostIf) : (s.modHost f).scan = s.scan := rfl
@[simp] theorem State.modHost_userPubs (f : HostIf → HostIf) : (s.modHost f).userPubs = s.userPubs := rfl
@[simp] theorem State.modHost_free (f : HostIf → HostIf) : (s.modHost f).free = s.free := rfl
@[simp] theorem State.modHost_out (f : HostIf → HostIf) : (s.modHost f).out = s.out := rfl
@[simp] theorem State.modHost_pending (f : HostIf → HostIf) : (s.modHost f).pending = s.pending := rfl

@[simp] theorem State.modDist_id (f : Distaff → Distaff) : (s.modDist f).id = s.id := rfl
@[simp] theorem State.modDist_pwr (f : Distaff → Distaff) : (s.modDist f).pwr = s.pwr := rfl
@[simp] theorem State.modDist_clk (f : Distaff → Distaff) : (s.modDist f).clk = s.clk := rfl
@[simp] theorem State.modDist_host (f : Distaff → Distaff) : (s.modDist f).host = s.host := rfl
@[simp] theorem State.modDist_mb (f : Distaff → Distaff) : (s.modDist f).mb = s.mb := rfl
@[simp] theorem State.modDist_dist (f : Distaff → Distaff) : (s.modDist f).dist = f s.dist := rfl
@[simp] theorem State.modDist_seq (f : Distaff → Distaff) : (s.modDist f).seq = s.seq := rfl
@[simp] theorem State.modDist_strands (f : Distaff → Distaff) : (s.modDist f).strands = s.strands := rfl
@[simp] theorem State.modDist_groups (f : Distaff → Distaff) : (s.modDist f).groups = s.groups := rfl
@[simp] theorem State.modDist_cams (f : Distaff → Distaff) : (s.modDist f).cams = s.cams := rfl
@[simp] theorem State.modDist_skeins (f : Distaff → Distaff) : (s.modDist f).skeins = s.skeins := rfl
@[simp] theorem State.modDist_quads (f : Distaff → Distaff) : (s.modDist f).quads = s.quads := rfl
@[simp] theorem State.modDist_stgs (f : Distaff → Distaff) : (s.modDist f).stgs = s.stgs := rfl
@[simp] theorem State.modDist_fbs (f : Distaff → Distaff) : (s.modDist f).fbs = s.fbs := rfl
@[simp] theorem State.modDist_probes (f : Distaff → Distaff) : (s.modDist f).probes = s.probes := rfl
@[simp] theorem State.modDist_cmps (f : Distaff → Distaff) : (s.modDist f).cmps = s.cmps := rfl
@[simp] theorem State.modDist_engines (f : Distaff → Distaff) : (s.modDist f).engines = s.engines := rfl
@[simp] theorem State.modDist_roles (f : Distaff → Distaff) : (s.modDist f).roles = s.roles := rfl
@[simp] theorem State.modDist_progs (f : Distaff → Distaff) : (s.modDist f).progs = s.progs := rfl
@[simp] theorem State.modDist_mem (f : Distaff → Distaff) : (s.modDist f).mem = s.mem := rfl
@[simp] theorem State.modDist_link (f : Distaff → Distaff) : (s.modDist f).link = s.link := rfl
@[simp] theorem State.modDist_time (f : Distaff → Distaff) : (s.modDist f).time = s.time := rfl
@[simp] theorem State.modDist_rec_ (f : Distaff → Distaff) : (s.modDist f).rec_ = s.rec_ := rfl
@[simp] theorem State.modDist_saf (f : Distaff → Distaff) : (s.modDist f).saf = s.saf := rfl
@[simp] theorem State.modDist_exps (f : Distaff → Distaff) : (s.modDist f).exps = s.exps := rfl
@[simp] theorem State.modDist_fio (f : Distaff → Distaff) : (s.modDist f).fio = s.fio := rfl
@[simp] theorem State.modDist_cans (f : Distaff → Distaff) : (s.modDist f).cans = s.cans := rfl
@[simp] theorem State.modDist_usb (f : Distaff → Distaff) : (s.modDist f).usb = s.usb := rfl
@[simp] theorem State.modDist_eth (f : Distaff → Distaff) : (s.modDist f).eth = s.eth := rfl
@[simp] theorem State.modDist_scan (f : Distaff → Distaff) : (s.modDist f).scan = s.scan := rfl
@[simp] theorem State.modDist_userPubs (f : Distaff → Distaff) : (s.modDist f).userPubs = s.userPubs := rfl
@[simp] theorem State.modDist_free (f : Distaff → Distaff) : (s.modDist f).free = s.free := rfl
@[simp] theorem State.modDist_out (f : Distaff → Distaff) : (s.modDist f).out = s.out := rfl
@[simp] theorem State.modDist_pending (f : Distaff → Distaff) : (s.modDist f).pending = s.pending := rfl

@[simp] theorem State.modSeq_id (f : Seq → Seq) : (s.modSeq f).id = s.id := rfl
@[simp] theorem State.modSeq_pwr (f : Seq → Seq) : (s.modSeq f).pwr = s.pwr := rfl
@[simp] theorem State.modSeq_clk (f : Seq → Seq) : (s.modSeq f).clk = s.clk := rfl
@[simp] theorem State.modSeq_host (f : Seq → Seq) : (s.modSeq f).host = s.host := rfl
@[simp] theorem State.modSeq_mb (f : Seq → Seq) : (s.modSeq f).mb = s.mb := rfl
@[simp] theorem State.modSeq_dist (f : Seq → Seq) : (s.modSeq f).dist = s.dist := rfl
@[simp] theorem State.modSeq_seq (f : Seq → Seq) : (s.modSeq f).seq = f s.seq := rfl
@[simp] theorem State.modSeq_strands (f : Seq → Seq) : (s.modSeq f).strands = s.strands := rfl
@[simp] theorem State.modSeq_groups (f : Seq → Seq) : (s.modSeq f).groups = s.groups := rfl
@[simp] theorem State.modSeq_cams (f : Seq → Seq) : (s.modSeq f).cams = s.cams := rfl
@[simp] theorem State.modSeq_skeins (f : Seq → Seq) : (s.modSeq f).skeins = s.skeins := rfl
@[simp] theorem State.modSeq_quads (f : Seq → Seq) : (s.modSeq f).quads = s.quads := rfl
@[simp] theorem State.modSeq_stgs (f : Seq → Seq) : (s.modSeq f).stgs = s.stgs := rfl
@[simp] theorem State.modSeq_fbs (f : Seq → Seq) : (s.modSeq f).fbs = s.fbs := rfl
@[simp] theorem State.modSeq_probes (f : Seq → Seq) : (s.modSeq f).probes = s.probes := rfl
@[simp] theorem State.modSeq_cmps (f : Seq → Seq) : (s.modSeq f).cmps = s.cmps := rfl
@[simp] theorem State.modSeq_engines (f : Seq → Seq) : (s.modSeq f).engines = s.engines := rfl
@[simp] theorem State.modSeq_roles (f : Seq → Seq) : (s.modSeq f).roles = s.roles := rfl
@[simp] theorem State.modSeq_progs (f : Seq → Seq) : (s.modSeq f).progs = s.progs := rfl
@[simp] theorem State.modSeq_mem (f : Seq → Seq) : (s.modSeq f).mem = s.mem := rfl
@[simp] theorem State.modSeq_link (f : Seq → Seq) : (s.modSeq f).link = s.link := rfl
@[simp] theorem State.modSeq_time (f : Seq → Seq) : (s.modSeq f).time = s.time := rfl
@[simp] theorem State.modSeq_rec_ (f : Seq → Seq) : (s.modSeq f).rec_ = s.rec_ := rfl
@[simp] theorem State.modSeq_saf (f : Seq → Seq) : (s.modSeq f).saf = s.saf := rfl
@[simp] theorem State.modSeq_exps (f : Seq → Seq) : (s.modSeq f).exps = s.exps := rfl
@[simp] theorem State.modSeq_fio (f : Seq → Seq) : (s.modSeq f).fio = s.fio := rfl
@[simp] theorem State.modSeq_cans (f : Seq → Seq) : (s.modSeq f).cans = s.cans := rfl
@[simp] theorem State.modSeq_usb (f : Seq → Seq) : (s.modSeq f).usb = s.usb := rfl
@[simp] theorem State.modSeq_eth (f : Seq → Seq) : (s.modSeq f).eth = s.eth := rfl
@[simp] theorem State.modSeq_scan (f : Seq → Seq) : (s.modSeq f).scan = s.scan := rfl
@[simp] theorem State.modSeq_userPubs (f : Seq → Seq) : (s.modSeq f).userPubs = s.userPubs := rfl
@[simp] theorem State.modSeq_free (f : Seq → Seq) : (s.modSeq f).free = s.free := rfl
@[simp] theorem State.modSeq_out (f : Seq → Seq) : (s.modSeq f).out = s.out := rfl
@[simp] theorem State.modSeq_pending (f : Seq → Seq) : (s.modSeq f).pending = s.pending := rfl

@[simp] theorem State.modPwr_id (f : Power → Power) : (s.modPwr f).id = s.id := rfl
@[simp] theorem State.modPwr_pwr (f : Power → Power) : (s.modPwr f).pwr = f s.pwr := rfl
@[simp] theorem State.modPwr_clk (f : Power → Power) : (s.modPwr f).clk = s.clk := rfl
@[simp] theorem State.modPwr_host (f : Power → Power) : (s.modPwr f).host = s.host := rfl
@[simp] theorem State.modPwr_mb (f : Power → Power) : (s.modPwr f).mb = s.mb := rfl
@[simp] theorem State.modPwr_dist (f : Power → Power) : (s.modPwr f).dist = s.dist := rfl
@[simp] theorem State.modPwr_seq (f : Power → Power) : (s.modPwr f).seq = s.seq := rfl
@[simp] theorem State.modPwr_strands (f : Power → Power) : (s.modPwr f).strands = s.strands := rfl
@[simp] theorem State.modPwr_groups (f : Power → Power) : (s.modPwr f).groups = s.groups := rfl
@[simp] theorem State.modPwr_cams (f : Power → Power) : (s.modPwr f).cams = s.cams := rfl
@[simp] theorem State.modPwr_skeins (f : Power → Power) : (s.modPwr f).skeins = s.skeins := rfl
@[simp] theorem State.modPwr_quads (f : Power → Power) : (s.modPwr f).quads = s.quads := rfl
@[simp] theorem State.modPwr_stgs (f : Power → Power) : (s.modPwr f).stgs = s.stgs := rfl
@[simp] theorem State.modPwr_fbs (f : Power → Power) : (s.modPwr f).fbs = s.fbs := rfl
@[simp] theorem State.modPwr_probes (f : Power → Power) : (s.modPwr f).probes = s.probes := rfl
@[simp] theorem State.modPwr_cmps (f : Power → Power) : (s.modPwr f).cmps = s.cmps := rfl
@[simp] theorem State.modPwr_engines (f : Power → Power) : (s.modPwr f).engines = s.engines := rfl
@[simp] theorem State.modPwr_roles (f : Power → Power) : (s.modPwr f).roles = s.roles := rfl
@[simp] theorem State.modPwr_progs (f : Power → Power) : (s.modPwr f).progs = s.progs := rfl
@[simp] theorem State.modPwr_mem (f : Power → Power) : (s.modPwr f).mem = s.mem := rfl
@[simp] theorem State.modPwr_link (f : Power → Power) : (s.modPwr f).link = s.link := rfl
@[simp] theorem State.modPwr_time (f : Power → Power) : (s.modPwr f).time = s.time := rfl
@[simp] theorem State.modPwr_rec_ (f : Power → Power) : (s.modPwr f).rec_ = s.rec_ := rfl
@[simp] theorem State.modPwr_saf (f : Power → Power) : (s.modPwr f).saf = s.saf := rfl
@[simp] theorem State.modPwr_exps (f : Power → Power) : (s.modPwr f).exps = s.exps := rfl
@[simp] theorem State.modPwr_fio (f : Power → Power) : (s.modPwr f).fio = s.fio := rfl
@[simp] theorem State.modPwr_cans (f : Power → Power) : (s.modPwr f).cans = s.cans := rfl
@[simp] theorem State.modPwr_usb (f : Power → Power) : (s.modPwr f).usb = s.usb := rfl
@[simp] theorem State.modPwr_eth (f : Power → Power) : (s.modPwr f).eth = s.eth := rfl
@[simp] theorem State.modPwr_scan (f : Power → Power) : (s.modPwr f).scan = s.scan := rfl
@[simp] theorem State.modPwr_userPubs (f : Power → Power) : (s.modPwr f).userPubs = s.userPubs := rfl
@[simp] theorem State.modPwr_free (f : Power → Power) : (s.modPwr f).free = s.free := rfl
@[simp] theorem State.modPwr_out (f : Power → Power) : (s.modPwr f).out = s.out := rfl
@[simp] theorem State.modPwr_pending (f : Power → Power) : (s.modPwr f).pending = s.pending := rfl

@[simp] theorem State.modClk_id (f : Clock → Clock) : (s.modClk f).id = s.id := rfl
@[simp] theorem State.modClk_pwr (f : Clock → Clock) : (s.modClk f).pwr = s.pwr := rfl
@[simp] theorem State.modClk_clk (f : Clock → Clock) : (s.modClk f).clk = f s.clk := rfl
@[simp] theorem State.modClk_host (f : Clock → Clock) : (s.modClk f).host = s.host := rfl
@[simp] theorem State.modClk_mb (f : Clock → Clock) : (s.modClk f).mb = s.mb := rfl
@[simp] theorem State.modClk_dist (f : Clock → Clock) : (s.modClk f).dist = s.dist := rfl
@[simp] theorem State.modClk_seq (f : Clock → Clock) : (s.modClk f).seq = s.seq := rfl
@[simp] theorem State.modClk_strands (f : Clock → Clock) : (s.modClk f).strands = s.strands := rfl
@[simp] theorem State.modClk_groups (f : Clock → Clock) : (s.modClk f).groups = s.groups := rfl
@[simp] theorem State.modClk_cams (f : Clock → Clock) : (s.modClk f).cams = s.cams := rfl
@[simp] theorem State.modClk_skeins (f : Clock → Clock) : (s.modClk f).skeins = s.skeins := rfl
@[simp] theorem State.modClk_quads (f : Clock → Clock) : (s.modClk f).quads = s.quads := rfl
@[simp] theorem State.modClk_stgs (f : Clock → Clock) : (s.modClk f).stgs = s.stgs := rfl
@[simp] theorem State.modClk_fbs (f : Clock → Clock) : (s.modClk f).fbs = s.fbs := rfl
@[simp] theorem State.modClk_probes (f : Clock → Clock) : (s.modClk f).probes = s.probes := rfl
@[simp] theorem State.modClk_cmps (f : Clock → Clock) : (s.modClk f).cmps = s.cmps := rfl
@[simp] theorem State.modClk_engines (f : Clock → Clock) : (s.modClk f).engines = s.engines := rfl
@[simp] theorem State.modClk_roles (f : Clock → Clock) : (s.modClk f).roles = s.roles := rfl
@[simp] theorem State.modClk_progs (f : Clock → Clock) : (s.modClk f).progs = s.progs := rfl
@[simp] theorem State.modClk_mem (f : Clock → Clock) : (s.modClk f).mem = s.mem := rfl
@[simp] theorem State.modClk_link (f : Clock → Clock) : (s.modClk f).link = s.link := rfl
@[simp] theorem State.modClk_time (f : Clock → Clock) : (s.modClk f).time = s.time := rfl
@[simp] theorem State.modClk_rec_ (f : Clock → Clock) : (s.modClk f).rec_ = s.rec_ := rfl
@[simp] theorem State.modClk_saf (f : Clock → Clock) : (s.modClk f).saf = s.saf := rfl
@[simp] theorem State.modClk_exps (f : Clock → Clock) : (s.modClk f).exps = s.exps := rfl
@[simp] theorem State.modClk_fio (f : Clock → Clock) : (s.modClk f).fio = s.fio := rfl
@[simp] theorem State.modClk_cans (f : Clock → Clock) : (s.modClk f).cans = s.cans := rfl
@[simp] theorem State.modClk_usb (f : Clock → Clock) : (s.modClk f).usb = s.usb := rfl
@[simp] theorem State.modClk_eth (f : Clock → Clock) : (s.modClk f).eth = s.eth := rfl
@[simp] theorem State.modClk_scan (f : Clock → Clock) : (s.modClk f).scan = s.scan := rfl
@[simp] theorem State.modClk_userPubs (f : Clock → Clock) : (s.modClk f).userPubs = s.userPubs := rfl
@[simp] theorem State.modClk_free (f : Clock → Clock) : (s.modClk f).free = s.free := rfl
@[simp] theorem State.modClk_out (f : Clock → Clock) : (s.modClk f).out = s.out := rfl
@[simp] theorem State.modClk_pending (f : Clock → Clock) : (s.modClk f).pending = s.pending := rfl

@[simp] theorem State.modMem_id (f : Mem → Mem) : (s.modMem f).id = s.id := rfl
@[simp] theorem State.modMem_pwr (f : Mem → Mem) : (s.modMem f).pwr = s.pwr := rfl
@[simp] theorem State.modMem_clk (f : Mem → Mem) : (s.modMem f).clk = s.clk := rfl
@[simp] theorem State.modMem_host (f : Mem → Mem) : (s.modMem f).host = s.host := rfl
@[simp] theorem State.modMem_mb (f : Mem → Mem) : (s.modMem f).mb = s.mb := rfl
@[simp] theorem State.modMem_dist (f : Mem → Mem) : (s.modMem f).dist = s.dist := rfl
@[simp] theorem State.modMem_seq (f : Mem → Mem) : (s.modMem f).seq = s.seq := rfl
@[simp] theorem State.modMem_strands (f : Mem → Mem) : (s.modMem f).strands = s.strands := rfl
@[simp] theorem State.modMem_groups (f : Mem → Mem) : (s.modMem f).groups = s.groups := rfl
@[simp] theorem State.modMem_cams (f : Mem → Mem) : (s.modMem f).cams = s.cams := rfl
@[simp] theorem State.modMem_skeins (f : Mem → Mem) : (s.modMem f).skeins = s.skeins := rfl
@[simp] theorem State.modMem_quads (f : Mem → Mem) : (s.modMem f).quads = s.quads := rfl
@[simp] theorem State.modMem_stgs (f : Mem → Mem) : (s.modMem f).stgs = s.stgs := rfl
@[simp] theorem State.modMem_fbs (f : Mem → Mem) : (s.modMem f).fbs = s.fbs := rfl
@[simp] theorem State.modMem_probes (f : Mem → Mem) : (s.modMem f).probes = s.probes := rfl
@[simp] theorem State.modMem_cmps (f : Mem → Mem) : (s.modMem f).cmps = s.cmps := rfl
@[simp] theorem State.modMem_engines (f : Mem → Mem) : (s.modMem f).engines = s.engines := rfl
@[simp] theorem State.modMem_roles (f : Mem → Mem) : (s.modMem f).roles = s.roles := rfl
@[simp] theorem State.modMem_progs (f : Mem → Mem) : (s.modMem f).progs = s.progs := rfl
@[simp] theorem State.modMem_mem (f : Mem → Mem) : (s.modMem f).mem = f s.mem := rfl
@[simp] theorem State.modMem_link (f : Mem → Mem) : (s.modMem f).link = s.link := rfl
@[simp] theorem State.modMem_time (f : Mem → Mem) : (s.modMem f).time = s.time := rfl
@[simp] theorem State.modMem_rec_ (f : Mem → Mem) : (s.modMem f).rec_ = s.rec_ := rfl
@[simp] theorem State.modMem_saf (f : Mem → Mem) : (s.modMem f).saf = s.saf := rfl
@[simp] theorem State.modMem_exps (f : Mem → Mem) : (s.modMem f).exps = s.exps := rfl
@[simp] theorem State.modMem_fio (f : Mem → Mem) : (s.modMem f).fio = s.fio := rfl
@[simp] theorem State.modMem_cans (f : Mem → Mem) : (s.modMem f).cans = s.cans := rfl
@[simp] theorem State.modMem_usb (f : Mem → Mem) : (s.modMem f).usb = s.usb := rfl
@[simp] theorem State.modMem_eth (f : Mem → Mem) : (s.modMem f).eth = s.eth := rfl
@[simp] theorem State.modMem_scan (f : Mem → Mem) : (s.modMem f).scan = s.scan := rfl
@[simp] theorem State.modMem_userPubs (f : Mem → Mem) : (s.modMem f).userPubs = s.userPubs := rfl
@[simp] theorem State.modMem_free (f : Mem → Mem) : (s.modMem f).free = s.free := rfl
@[simp] theorem State.modMem_out (f : Mem → Mem) : (s.modMem f).out = s.out := rfl
@[simp] theorem State.modMem_pending (f : Mem → Mem) : (s.modMem f).pending = s.pending := rfl

@[simp] theorem State.modLink_id (f : Link → Link) : (s.modLink f).id = s.id := rfl
@[simp] theorem State.modLink_pwr (f : Link → Link) : (s.modLink f).pwr = s.pwr := rfl
@[simp] theorem State.modLink_clk (f : Link → Link) : (s.modLink f).clk = s.clk := rfl
@[simp] theorem State.modLink_host (f : Link → Link) : (s.modLink f).host = s.host := rfl
@[simp] theorem State.modLink_mb (f : Link → Link) : (s.modLink f).mb = s.mb := rfl
@[simp] theorem State.modLink_dist (f : Link → Link) : (s.modLink f).dist = s.dist := rfl
@[simp] theorem State.modLink_seq (f : Link → Link) : (s.modLink f).seq = s.seq := rfl
@[simp] theorem State.modLink_strands (f : Link → Link) : (s.modLink f).strands = s.strands := rfl
@[simp] theorem State.modLink_groups (f : Link → Link) : (s.modLink f).groups = s.groups := rfl
@[simp] theorem State.modLink_cams (f : Link → Link) : (s.modLink f).cams = s.cams := rfl
@[simp] theorem State.modLink_skeins (f : Link → Link) : (s.modLink f).skeins = s.skeins := rfl
@[simp] theorem State.modLink_quads (f : Link → Link) : (s.modLink f).quads = s.quads := rfl
@[simp] theorem State.modLink_stgs (f : Link → Link) : (s.modLink f).stgs = s.stgs := rfl
@[simp] theorem State.modLink_fbs (f : Link → Link) : (s.modLink f).fbs = s.fbs := rfl
@[simp] theorem State.modLink_probes (f : Link → Link) : (s.modLink f).probes = s.probes := rfl
@[simp] theorem State.modLink_cmps (f : Link → Link) : (s.modLink f).cmps = s.cmps := rfl
@[simp] theorem State.modLink_engines (f : Link → Link) : (s.modLink f).engines = s.engines := rfl
@[simp] theorem State.modLink_roles (f : Link → Link) : (s.modLink f).roles = s.roles := rfl
@[simp] theorem State.modLink_progs (f : Link → Link) : (s.modLink f).progs = s.progs := rfl
@[simp] theorem State.modLink_mem (f : Link → Link) : (s.modLink f).mem = s.mem := rfl
@[simp] theorem State.modLink_link (f : Link → Link) : (s.modLink f).link = f s.link := rfl
@[simp] theorem State.modLink_time (f : Link → Link) : (s.modLink f).time = s.time := rfl
@[simp] theorem State.modLink_rec_ (f : Link → Link) : (s.modLink f).rec_ = s.rec_ := rfl
@[simp] theorem State.modLink_saf (f : Link → Link) : (s.modLink f).saf = s.saf := rfl
@[simp] theorem State.modLink_exps (f : Link → Link) : (s.modLink f).exps = s.exps := rfl
@[simp] theorem State.modLink_fio (f : Link → Link) : (s.modLink f).fio = s.fio := rfl
@[simp] theorem State.modLink_cans (f : Link → Link) : (s.modLink f).cans = s.cans := rfl
@[simp] theorem State.modLink_usb (f : Link → Link) : (s.modLink f).usb = s.usb := rfl
@[simp] theorem State.modLink_eth (f : Link → Link) : (s.modLink f).eth = s.eth := rfl
@[simp] theorem State.modLink_scan (f : Link → Link) : (s.modLink f).scan = s.scan := rfl
@[simp] theorem State.modLink_userPubs (f : Link → Link) : (s.modLink f).userPubs = s.userPubs := rfl
@[simp] theorem State.modLink_free (f : Link → Link) : (s.modLink f).free = s.free := rfl
@[simp] theorem State.modLink_out (f : Link → Link) : (s.modLink f).out = s.out := rfl
@[simp] theorem State.modLink_pending (f : Link → Link) : (s.modLink f).pending = s.pending := rfl

@[simp] theorem State.modTime_id (f : Time → Time) : (s.modTime f).id = s.id := rfl
@[simp] theorem State.modTime_pwr (f : Time → Time) : (s.modTime f).pwr = s.pwr := rfl
@[simp] theorem State.modTime_clk (f : Time → Time) : (s.modTime f).clk = s.clk := rfl
@[simp] theorem State.modTime_host (f : Time → Time) : (s.modTime f).host = s.host := rfl
@[simp] theorem State.modTime_mb (f : Time → Time) : (s.modTime f).mb = s.mb := rfl
@[simp] theorem State.modTime_dist (f : Time → Time) : (s.modTime f).dist = s.dist := rfl
@[simp] theorem State.modTime_seq (f : Time → Time) : (s.modTime f).seq = s.seq := rfl
@[simp] theorem State.modTime_strands (f : Time → Time) : (s.modTime f).strands = s.strands := rfl
@[simp] theorem State.modTime_groups (f : Time → Time) : (s.modTime f).groups = s.groups := rfl
@[simp] theorem State.modTime_cams (f : Time → Time) : (s.modTime f).cams = s.cams := rfl
@[simp] theorem State.modTime_skeins (f : Time → Time) : (s.modTime f).skeins = s.skeins := rfl
@[simp] theorem State.modTime_quads (f : Time → Time) : (s.modTime f).quads = s.quads := rfl
@[simp] theorem State.modTime_stgs (f : Time → Time) : (s.modTime f).stgs = s.stgs := rfl
@[simp] theorem State.modTime_fbs (f : Time → Time) : (s.modTime f).fbs = s.fbs := rfl
@[simp] theorem State.modTime_probes (f : Time → Time) : (s.modTime f).probes = s.probes := rfl
@[simp] theorem State.modTime_cmps (f : Time → Time) : (s.modTime f).cmps = s.cmps := rfl
@[simp] theorem State.modTime_engines (f : Time → Time) : (s.modTime f).engines = s.engines := rfl
@[simp] theorem State.modTime_roles (f : Time → Time) : (s.modTime f).roles = s.roles := rfl
@[simp] theorem State.modTime_progs (f : Time → Time) : (s.modTime f).progs = s.progs := rfl
@[simp] theorem State.modTime_mem (f : Time → Time) : (s.modTime f).mem = s.mem := rfl
@[simp] theorem State.modTime_link (f : Time → Time) : (s.modTime f).link = s.link := rfl
@[simp] theorem State.modTime_time (f : Time → Time) : (s.modTime f).time = f s.time := rfl
@[simp] theorem State.modTime_rec_ (f : Time → Time) : (s.modTime f).rec_ = s.rec_ := rfl
@[simp] theorem State.modTime_saf (f : Time → Time) : (s.modTime f).saf = s.saf := rfl
@[simp] theorem State.modTime_exps (f : Time → Time) : (s.modTime f).exps = s.exps := rfl
@[simp] theorem State.modTime_fio (f : Time → Time) : (s.modTime f).fio = s.fio := rfl
@[simp] theorem State.modTime_cans (f : Time → Time) : (s.modTime f).cans = s.cans := rfl
@[simp] theorem State.modTime_usb (f : Time → Time) : (s.modTime f).usb = s.usb := rfl
@[simp] theorem State.modTime_eth (f : Time → Time) : (s.modTime f).eth = s.eth := rfl
@[simp] theorem State.modTime_scan (f : Time → Time) : (s.modTime f).scan = s.scan := rfl
@[simp] theorem State.modTime_userPubs (f : Time → Time) : (s.modTime f).userPubs = s.userPubs := rfl
@[simp] theorem State.modTime_free (f : Time → Time) : (s.modTime f).free = s.free := rfl
@[simp] theorem State.modTime_out (f : Time → Time) : (s.modTime f).out = s.out := rfl
@[simp] theorem State.modTime_pending (f : Time → Time) : (s.modTime f).pending = s.pending := rfl

@[simp] theorem State.modRec_id (f : Recovery → Recovery) : (s.modRec f).id = s.id := rfl
@[simp] theorem State.modRec_pwr (f : Recovery → Recovery) : (s.modRec f).pwr = s.pwr := rfl
@[simp] theorem State.modRec_clk (f : Recovery → Recovery) : (s.modRec f).clk = s.clk := rfl
@[simp] theorem State.modRec_host (f : Recovery → Recovery) : (s.modRec f).host = s.host := rfl
@[simp] theorem State.modRec_mb (f : Recovery → Recovery) : (s.modRec f).mb = s.mb := rfl
@[simp] theorem State.modRec_dist (f : Recovery → Recovery) : (s.modRec f).dist = s.dist := rfl
@[simp] theorem State.modRec_seq (f : Recovery → Recovery) : (s.modRec f).seq = s.seq := rfl
@[simp] theorem State.modRec_strands (f : Recovery → Recovery) : (s.modRec f).strands = s.strands := rfl
@[simp] theorem State.modRec_groups (f : Recovery → Recovery) : (s.modRec f).groups = s.groups := rfl
@[simp] theorem State.modRec_cams (f : Recovery → Recovery) : (s.modRec f).cams = s.cams := rfl
@[simp] theorem State.modRec_skeins (f : Recovery → Recovery) : (s.modRec f).skeins = s.skeins := rfl
@[simp] theorem State.modRec_quads (f : Recovery → Recovery) : (s.modRec f).quads = s.quads := rfl
@[simp] theorem State.modRec_stgs (f : Recovery → Recovery) : (s.modRec f).stgs = s.stgs := rfl
@[simp] theorem State.modRec_fbs (f : Recovery → Recovery) : (s.modRec f).fbs = s.fbs := rfl
@[simp] theorem State.modRec_probes (f : Recovery → Recovery) : (s.modRec f).probes = s.probes := rfl
@[simp] theorem State.modRec_cmps (f : Recovery → Recovery) : (s.modRec f).cmps = s.cmps := rfl
@[simp] theorem State.modRec_engines (f : Recovery → Recovery) : (s.modRec f).engines = s.engines := rfl
@[simp] theorem State.modRec_roles (f : Recovery → Recovery) : (s.modRec f).roles = s.roles := rfl
@[simp] theorem State.modRec_progs (f : Recovery → Recovery) : (s.modRec f).progs = s.progs := rfl
@[simp] theorem State.modRec_mem (f : Recovery → Recovery) : (s.modRec f).mem = s.mem := rfl
@[simp] theorem State.modRec_link (f : Recovery → Recovery) : (s.modRec f).link = s.link := rfl
@[simp] theorem State.modRec_time (f : Recovery → Recovery) : (s.modRec f).time = s.time := rfl
@[simp] theorem State.modRec_rec_ (f : Recovery → Recovery) : (s.modRec f).rec_ = f s.rec_ := rfl
@[simp] theorem State.modRec_saf (f : Recovery → Recovery) : (s.modRec f).saf = s.saf := rfl
@[simp] theorem State.modRec_exps (f : Recovery → Recovery) : (s.modRec f).exps = s.exps := rfl
@[simp] theorem State.modRec_fio (f : Recovery → Recovery) : (s.modRec f).fio = s.fio := rfl
@[simp] theorem State.modRec_cans (f : Recovery → Recovery) : (s.modRec f).cans = s.cans := rfl
@[simp] theorem State.modRec_usb (f : Recovery → Recovery) : (s.modRec f).usb = s.usb := rfl
@[simp] theorem State.modRec_eth (f : Recovery → Recovery) : (s.modRec f).eth = s.eth := rfl
@[simp] theorem State.modRec_scan (f : Recovery → Recovery) : (s.modRec f).scan = s.scan := rfl
@[simp] theorem State.modRec_userPubs (f : Recovery → Recovery) : (s.modRec f).userPubs = s.userPubs := rfl
@[simp] theorem State.modRec_free (f : Recovery → Recovery) : (s.modRec f).free = s.free := rfl
@[simp] theorem State.modRec_out (f : Recovery → Recovery) : (s.modRec f).out = s.out := rfl
@[simp] theorem State.modRec_pending (f : Recovery → Recovery) : (s.modRec f).pending = s.pending := rfl

@[simp] theorem State.modSaf_id (f : Safety → Safety) : (s.modSaf f).id = s.id := rfl
@[simp] theorem State.modSaf_pwr (f : Safety → Safety) : (s.modSaf f).pwr = s.pwr := rfl
@[simp] theorem State.modSaf_clk (f : Safety → Safety) : (s.modSaf f).clk = s.clk := rfl
@[simp] theorem State.modSaf_host (f : Safety → Safety) : (s.modSaf f).host = s.host := rfl
@[simp] theorem State.modSaf_mb (f : Safety → Safety) : (s.modSaf f).mb = s.mb := rfl
@[simp] theorem State.modSaf_dist (f : Safety → Safety) : (s.modSaf f).dist = s.dist := rfl
@[simp] theorem State.modSaf_seq (f : Safety → Safety) : (s.modSaf f).seq = s.seq := rfl
@[simp] theorem State.modSaf_strands (f : Safety → Safety) : (s.modSaf f).strands = s.strands := rfl
@[simp] theorem State.modSaf_groups (f : Safety → Safety) : (s.modSaf f).groups = s.groups := rfl
@[simp] theorem State.modSaf_cams (f : Safety → Safety) : (s.modSaf f).cams = s.cams := rfl
@[simp] theorem State.modSaf_skeins (f : Safety → Safety) : (s.modSaf f).skeins = s.skeins := rfl
@[simp] theorem State.modSaf_quads (f : Safety → Safety) : (s.modSaf f).quads = s.quads := rfl
@[simp] theorem State.modSaf_stgs (f : Safety → Safety) : (s.modSaf f).stgs = s.stgs := rfl
@[simp] theorem State.modSaf_fbs (f : Safety → Safety) : (s.modSaf f).fbs = s.fbs := rfl
@[simp] theorem State.modSaf_probes (f : Safety → Safety) : (s.modSaf f).probes = s.probes := rfl
@[simp] theorem State.modSaf_cmps (f : Safety → Safety) : (s.modSaf f).cmps = s.cmps := rfl
@[simp] theorem State.modSaf_engines (f : Safety → Safety) : (s.modSaf f).engines = s.engines := rfl
@[simp] theorem State.modSaf_roles (f : Safety → Safety) : (s.modSaf f).roles = s.roles := rfl
@[simp] theorem State.modSaf_progs (f : Safety → Safety) : (s.modSaf f).progs = s.progs := rfl
@[simp] theorem State.modSaf_mem (f : Safety → Safety) : (s.modSaf f).mem = s.mem := rfl
@[simp] theorem State.modSaf_link (f : Safety → Safety) : (s.modSaf f).link = s.link := rfl
@[simp] theorem State.modSaf_time (f : Safety → Safety) : (s.modSaf f).time = s.time := rfl
@[simp] theorem State.modSaf_rec_ (f : Safety → Safety) : (s.modSaf f).rec_ = s.rec_ := rfl
@[simp] theorem State.modSaf_saf (f : Safety → Safety) : (s.modSaf f).saf = f s.saf := rfl
@[simp] theorem State.modSaf_exps (f : Safety → Safety) : (s.modSaf f).exps = s.exps := rfl
@[simp] theorem State.modSaf_fio (f : Safety → Safety) : (s.modSaf f).fio = s.fio := rfl
@[simp] theorem State.modSaf_cans (f : Safety → Safety) : (s.modSaf f).cans = s.cans := rfl
@[simp] theorem State.modSaf_usb (f : Safety → Safety) : (s.modSaf f).usb = s.usb := rfl
@[simp] theorem State.modSaf_eth (f : Safety → Safety) : (s.modSaf f).eth = s.eth := rfl
@[simp] theorem State.modSaf_scan (f : Safety → Safety) : (s.modSaf f).scan = s.scan := rfl
@[simp] theorem State.modSaf_userPubs (f : Safety → Safety) : (s.modSaf f).userPubs = s.userPubs := rfl
@[simp] theorem State.modSaf_free (f : Safety → Safety) : (s.modSaf f).free = s.free := rfl
@[simp] theorem State.modSaf_out (f : Safety → Safety) : (s.modSaf f).out = s.out := rfl
@[simp] theorem State.modSaf_pending (f : Safety → Safety) : (s.modSaf f).pending = s.pending := rfl

@[simp] theorem State.modFio_id (f : FieldIo → FieldIo) : (s.modFio f).id = s.id := rfl
@[simp] theorem State.modFio_pwr (f : FieldIo → FieldIo) : (s.modFio f).pwr = s.pwr := rfl
@[simp] theorem State.modFio_clk (f : FieldIo → FieldIo) : (s.modFio f).clk = s.clk := rfl
@[simp] theorem State.modFio_host (f : FieldIo → FieldIo) : (s.modFio f).host = s.host := rfl
@[simp] theorem State.modFio_mb (f : FieldIo → FieldIo) : (s.modFio f).mb = s.mb := rfl
@[simp] theorem State.modFio_dist (f : FieldIo → FieldIo) : (s.modFio f).dist = s.dist := rfl
@[simp] theorem State.modFio_seq (f : FieldIo → FieldIo) : (s.modFio f).seq = s.seq := rfl
@[simp] theorem State.modFio_strands (f : FieldIo → FieldIo) : (s.modFio f).strands = s.strands := rfl
@[simp] theorem State.modFio_groups (f : FieldIo → FieldIo) : (s.modFio f).groups = s.groups := rfl
@[simp] theorem State.modFio_cams (f : FieldIo → FieldIo) : (s.modFio f).cams = s.cams := rfl
@[simp] theorem State.modFio_skeins (f : FieldIo → FieldIo) : (s.modFio f).skeins = s.skeins := rfl
@[simp] theorem State.modFio_quads (f : FieldIo → FieldIo) : (s.modFio f).quads = s.quads := rfl
@[simp] theorem State.modFio_stgs (f : FieldIo → FieldIo) : (s.modFio f).stgs = s.stgs := rfl
@[simp] theorem State.modFio_fbs (f : FieldIo → FieldIo) : (s.modFio f).fbs = s.fbs := rfl
@[simp] theorem State.modFio_probes (f : FieldIo → FieldIo) : (s.modFio f).probes = s.probes := rfl
@[simp] theorem State.modFio_cmps (f : FieldIo → FieldIo) : (s.modFio f).cmps = s.cmps := rfl
@[simp] theorem State.modFio_engines (f : FieldIo → FieldIo) : (s.modFio f).engines = s.engines := rfl
@[simp] theorem State.modFio_roles (f : FieldIo → FieldIo) : (s.modFio f).roles = s.roles := rfl
@[simp] theorem State.modFio_progs (f : FieldIo → FieldIo) : (s.modFio f).progs = s.progs := rfl
@[simp] theorem State.modFio_mem (f : FieldIo → FieldIo) : (s.modFio f).mem = s.mem := rfl
@[simp] theorem State.modFio_link (f : FieldIo → FieldIo) : (s.modFio f).link = s.link := rfl
@[simp] theorem State.modFio_time (f : FieldIo → FieldIo) : (s.modFio f).time = s.time := rfl
@[simp] theorem State.modFio_rec_ (f : FieldIo → FieldIo) : (s.modFio f).rec_ = s.rec_ := rfl
@[simp] theorem State.modFio_saf (f : FieldIo → FieldIo) : (s.modFio f).saf = s.saf := rfl
@[simp] theorem State.modFio_exps (f : FieldIo → FieldIo) : (s.modFio f).exps = s.exps := rfl
@[simp] theorem State.modFio_fio (f : FieldIo → FieldIo) : (s.modFio f).fio = f s.fio := rfl
@[simp] theorem State.modFio_cans (f : FieldIo → FieldIo) : (s.modFio f).cans = s.cans := rfl
@[simp] theorem State.modFio_usb (f : FieldIo → FieldIo) : (s.modFio f).usb = s.usb := rfl
@[simp] theorem State.modFio_eth (f : FieldIo → FieldIo) : (s.modFio f).eth = s.eth := rfl
@[simp] theorem State.modFio_scan (f : FieldIo → FieldIo) : (s.modFio f).scan = s.scan := rfl
@[simp] theorem State.modFio_userPubs (f : FieldIo → FieldIo) : (s.modFio f).userPubs = s.userPubs := rfl
@[simp] theorem State.modFio_free (f : FieldIo → FieldIo) : (s.modFio f).free = s.free := rfl
@[simp] theorem State.modFio_out (f : FieldIo → FieldIo) : (s.modFio f).out = s.out := rfl
@[simp] theorem State.modFio_pending (f : FieldIo → FieldIo) : (s.modFio f).pending = s.pending := rfl

@[simp] theorem State.modUsb_id (f : Usb → Usb) : (s.modUsb f).id = s.id := rfl
@[simp] theorem State.modUsb_pwr (f : Usb → Usb) : (s.modUsb f).pwr = s.pwr := rfl
@[simp] theorem State.modUsb_clk (f : Usb → Usb) : (s.modUsb f).clk = s.clk := rfl
@[simp] theorem State.modUsb_host (f : Usb → Usb) : (s.modUsb f).host = s.host := rfl
@[simp] theorem State.modUsb_mb (f : Usb → Usb) : (s.modUsb f).mb = s.mb := rfl
@[simp] theorem State.modUsb_dist (f : Usb → Usb) : (s.modUsb f).dist = s.dist := rfl
@[simp] theorem State.modUsb_seq (f : Usb → Usb) : (s.modUsb f).seq = s.seq := rfl
@[simp] theorem State.modUsb_strands (f : Usb → Usb) : (s.modUsb f).strands = s.strands := rfl
@[simp] theorem State.modUsb_groups (f : Usb → Usb) : (s.modUsb f).groups = s.groups := rfl
@[simp] theorem State.modUsb_cams (f : Usb → Usb) : (s.modUsb f).cams = s.cams := rfl
@[simp] theorem State.modUsb_skeins (f : Usb → Usb) : (s.modUsb f).skeins = s.skeins := rfl
@[simp] theorem State.modUsb_quads (f : Usb → Usb) : (s.modUsb f).quads = s.quads := rfl
@[simp] theorem State.modUsb_stgs (f : Usb → Usb) : (s.modUsb f).stgs = s.stgs := rfl
@[simp] theorem State.modUsb_fbs (f : Usb → Usb) : (s.modUsb f).fbs = s.fbs := rfl
@[simp] theorem State.modUsb_probes (f : Usb → Usb) : (s.modUsb f).probes = s.probes := rfl
@[simp] theorem State.modUsb_cmps (f : Usb → Usb) : (s.modUsb f).cmps = s.cmps := rfl
@[simp] theorem State.modUsb_engines (f : Usb → Usb) : (s.modUsb f).engines = s.engines := rfl
@[simp] theorem State.modUsb_roles (f : Usb → Usb) : (s.modUsb f).roles = s.roles := rfl
@[simp] theorem State.modUsb_progs (f : Usb → Usb) : (s.modUsb f).progs = s.progs := rfl
@[simp] theorem State.modUsb_mem (f : Usb → Usb) : (s.modUsb f).mem = s.mem := rfl
@[simp] theorem State.modUsb_link (f : Usb → Usb) : (s.modUsb f).link = s.link := rfl
@[simp] theorem State.modUsb_time (f : Usb → Usb) : (s.modUsb f).time = s.time := rfl
@[simp] theorem State.modUsb_rec_ (f : Usb → Usb) : (s.modUsb f).rec_ = s.rec_ := rfl
@[simp] theorem State.modUsb_saf (f : Usb → Usb) : (s.modUsb f).saf = s.saf := rfl
@[simp] theorem State.modUsb_exps (f : Usb → Usb) : (s.modUsb f).exps = s.exps := rfl
@[simp] theorem State.modUsb_fio (f : Usb → Usb) : (s.modUsb f).fio = s.fio := rfl
@[simp] theorem State.modUsb_cans (f : Usb → Usb) : (s.modUsb f).cans = s.cans := rfl
@[simp] theorem State.modUsb_usb (f : Usb → Usb) : (s.modUsb f).usb = f s.usb := rfl
@[simp] theorem State.modUsb_eth (f : Usb → Usb) : (s.modUsb f).eth = s.eth := rfl
@[simp] theorem State.modUsb_scan (f : Usb → Usb) : (s.modUsb f).scan = s.scan := rfl
@[simp] theorem State.modUsb_userPubs (f : Usb → Usb) : (s.modUsb f).userPubs = s.userPubs := rfl
@[simp] theorem State.modUsb_free (f : Usb → Usb) : (s.modUsb f).free = s.free := rfl
@[simp] theorem State.modUsb_out (f : Usb → Usb) : (s.modUsb f).out = s.out := rfl
@[simp] theorem State.modUsb_pending (f : Usb → Usb) : (s.modUsb f).pending = s.pending := rfl

@[simp] theorem State.modEth_id (f : Eth → Eth) : (s.modEth f).id = s.id := rfl
@[simp] theorem State.modEth_pwr (f : Eth → Eth) : (s.modEth f).pwr = s.pwr := rfl
@[simp] theorem State.modEth_clk (f : Eth → Eth) : (s.modEth f).clk = s.clk := rfl
@[simp] theorem State.modEth_host (f : Eth → Eth) : (s.modEth f).host = s.host := rfl
@[simp] theorem State.modEth_mb (f : Eth → Eth) : (s.modEth f).mb = s.mb := rfl
@[simp] theorem State.modEth_dist (f : Eth → Eth) : (s.modEth f).dist = s.dist := rfl
@[simp] theorem State.modEth_seq (f : Eth → Eth) : (s.modEth f).seq = s.seq := rfl
@[simp] theorem State.modEth_strands (f : Eth → Eth) : (s.modEth f).strands = s.strands := rfl
@[simp] theorem State.modEth_groups (f : Eth → Eth) : (s.modEth f).groups = s.groups := rfl
@[simp] theorem State.modEth_cams (f : Eth → Eth) : (s.modEth f).cams = s.cams := rfl
@[simp] theorem State.modEth_skeins (f : Eth → Eth) : (s.modEth f).skeins = s.skeins := rfl
@[simp] theorem State.modEth_quads (f : Eth → Eth) : (s.modEth f).quads = s.quads := rfl
@[simp] theorem State.modEth_stgs (f : Eth → Eth) : (s.modEth f).stgs = s.stgs := rfl
@[simp] theorem State.modEth_fbs (f : Eth → Eth) : (s.modEth f).fbs = s.fbs := rfl
@[simp] theorem State.modEth_probes (f : Eth → Eth) : (s.modEth f).probes = s.probes := rfl
@[simp] theorem State.modEth_cmps (f : Eth → Eth) : (s.modEth f).cmps = s.cmps := rfl
@[simp] theorem State.modEth_engines (f : Eth → Eth) : (s.modEth f).engines = s.engines := rfl
@[simp] theorem State.modEth_roles (f : Eth → Eth) : (s.modEth f).roles = s.roles := rfl
@[simp] theorem State.modEth_progs (f : Eth → Eth) : (s.modEth f).progs = s.progs := rfl
@[simp] theorem State.modEth_mem (f : Eth → Eth) : (s.modEth f).mem = s.mem := rfl
@[simp] theorem State.modEth_link (f : Eth → Eth) : (s.modEth f).link = s.link := rfl
@[simp] theorem State.modEth_time (f : Eth → Eth) : (s.modEth f).time = s.time := rfl
@[simp] theorem State.modEth_rec_ (f : Eth → Eth) : (s.modEth f).rec_ = s.rec_ := rfl
@[simp] theorem State.modEth_saf (f : Eth → Eth) : (s.modEth f).saf = s.saf := rfl
@[simp] theorem State.modEth_exps (f : Eth → Eth) : (s.modEth f).exps = s.exps := rfl
@[simp] theorem State.modEth_fio (f : Eth → Eth) : (s.modEth f).fio = s.fio := rfl
@[simp] theorem State.modEth_cans (f : Eth → Eth) : (s.modEth f).cans = s.cans := rfl
@[simp] theorem State.modEth_usb (f : Eth → Eth) : (s.modEth f).usb = s.usb := rfl
@[simp] theorem State.modEth_eth (f : Eth → Eth) : (s.modEth f).eth = f s.eth := rfl
@[simp] theorem State.modEth_scan (f : Eth → Eth) : (s.modEth f).scan = s.scan := rfl
@[simp] theorem State.modEth_userPubs (f : Eth → Eth) : (s.modEth f).userPubs = s.userPubs := rfl
@[simp] theorem State.modEth_free (f : Eth → Eth) : (s.modEth f).free = s.free := rfl
@[simp] theorem State.modEth_out (f : Eth → Eth) : (s.modEth f).out = s.out := rfl
@[simp] theorem State.modEth_pending (f : Eth → Eth) : (s.modEth f).pending = s.pending := rfl

@[simp] theorem State.emit_id (o : Out) : (s.emit o).id = s.id := rfl
@[simp] theorem State.emit_pwr (o : Out) : (s.emit o).pwr = s.pwr := rfl
@[simp] theorem State.emit_clk (o : Out) : (s.emit o).clk = s.clk := rfl
@[simp] theorem State.emit_host (o : Out) : (s.emit o).host = s.host := rfl
@[simp] theorem State.emit_mb (o : Out) : (s.emit o).mb = s.mb := rfl
@[simp] theorem State.emit_dist (o : Out) : (s.emit o).dist = s.dist := rfl
@[simp] theorem State.emit_seq (o : Out) : (s.emit o).seq = s.seq := rfl
@[simp] theorem State.emit_strands (o : Out) : (s.emit o).strands = s.strands := rfl
@[simp] theorem State.emit_groups (o : Out) : (s.emit o).groups = s.groups := rfl
@[simp] theorem State.emit_cams (o : Out) : (s.emit o).cams = s.cams := rfl
@[simp] theorem State.emit_skeins (o : Out) : (s.emit o).skeins = s.skeins := rfl
@[simp] theorem State.emit_quads (o : Out) : (s.emit o).quads = s.quads := rfl
@[simp] theorem State.emit_stgs (o : Out) : (s.emit o).stgs = s.stgs := rfl
@[simp] theorem State.emit_fbs (o : Out) : (s.emit o).fbs = s.fbs := rfl
@[simp] theorem State.emit_probes (o : Out) : (s.emit o).probes = s.probes := rfl
@[simp] theorem State.emit_cmps (o : Out) : (s.emit o).cmps = s.cmps := rfl
@[simp] theorem State.emit_engines (o : Out) : (s.emit o).engines = s.engines := rfl
@[simp] theorem State.emit_roles (o : Out) : (s.emit o).roles = s.roles := rfl
@[simp] theorem State.emit_progs (o : Out) : (s.emit o).progs = s.progs := rfl
@[simp] theorem State.emit_mem (o : Out) : (s.emit o).mem = s.mem := rfl
@[simp] theorem State.emit_link (o : Out) : (s.emit o).link = s.link := rfl
@[simp] theorem State.emit_time (o : Out) : (s.emit o).time = s.time := rfl
@[simp] theorem State.emit_rec_ (o : Out) : (s.emit o).rec_ = s.rec_ := rfl
@[simp] theorem State.emit_saf (o : Out) : (s.emit o).saf = s.saf := rfl
@[simp] theorem State.emit_exps (o : Out) : (s.emit o).exps = s.exps := rfl
@[simp] theorem State.emit_fio (o : Out) : (s.emit o).fio = s.fio := rfl
@[simp] theorem State.emit_cans (o : Out) : (s.emit o).cans = s.cans := rfl
@[simp] theorem State.emit_usb (o : Out) : (s.emit o).usb = s.usb := rfl
@[simp] theorem State.emit_eth (o : Out) : (s.emit o).eth = s.eth := rfl
@[simp] theorem State.emit_scan (o : Out) : (s.emit o).scan = s.scan := rfl
@[simp] theorem State.emit_userPubs (o : Out) : (s.emit o).userPubs = s.userPubs := rfl
@[simp] theorem State.emit_free (o : Out) : (s.emit o).free = s.free := rfl
@[simp] theorem State.emit_out (o : Out) : (s.emit o).out = s.out ++ [o] := rfl
@[simp] theorem State.emit_pending (o : Out) : (s.emit o).pending = s.pending := rfl

@[simp] theorem State.tick_id : s.tick.id = s.id := rfl
@[simp] theorem State.tick_pwr : s.tick.pwr = s.pwr := rfl
@[simp] theorem State.tick_clk : s.tick.clk = s.clk := rfl
@[simp] theorem State.tick_host : s.tick.host = s.host := rfl
@[simp] theorem State.tick_mb : s.tick.mb = s.mb := rfl
@[simp] theorem State.tick_dist : s.tick.dist = s.dist := rfl
@[simp] theorem State.tick_seq : s.tick.seq = s.seq := rfl
@[simp] theorem State.tick_strands : s.tick.strands = s.strands := rfl
@[simp] theorem State.tick_groups : s.tick.groups = s.groups := rfl
@[simp] theorem State.tick_cams : s.tick.cams = s.cams := rfl
@[simp] theorem State.tick_skeins : s.tick.skeins = s.skeins := rfl
@[simp] theorem State.tick_quads : s.tick.quads = s.quads := rfl
@[simp] theorem State.tick_stgs : s.tick.stgs = s.stgs := rfl
@[simp] theorem State.tick_fbs : s.tick.fbs = s.fbs := rfl
@[simp] theorem State.tick_probes : s.tick.probes = s.probes := rfl
@[simp] theorem State.tick_cmps : s.tick.cmps = s.cmps := rfl
@[simp] theorem State.tick_engines : s.tick.engines = s.engines := rfl
@[simp] theorem State.tick_roles : s.tick.roles = s.roles := rfl
@[simp] theorem State.tick_progs : s.tick.progs = s.progs := rfl
@[simp] theorem State.tick_mem : s.tick.mem = s.mem := rfl
@[simp] theorem State.tick_link : s.tick.link = s.link := rfl
@[simp] theorem State.tick_time : s.tick.time = s.time := rfl
@[simp] theorem State.tick_rec_ : s.tick.rec_ = s.rec_ := rfl
@[simp] theorem State.tick_saf : s.tick.saf = s.saf := rfl
@[simp] theorem State.tick_exps : s.tick.exps = s.exps := rfl
@[simp] theorem State.tick_fio : s.tick.fio = s.fio := rfl
@[simp] theorem State.tick_cans : s.tick.cans = s.cans := rfl
@[simp] theorem State.tick_usb : s.tick.usb = s.usb := rfl
@[simp] theorem State.tick_eth : s.tick.eth = s.eth := rfl
@[simp] theorem State.tick_scan : s.tick.scan = s.scan := rfl
@[simp] theorem State.tick_userPubs : s.tick.userPubs = s.userPubs := rfl
@[simp] theorem State.tick_free : s.tick.free = s.free + 1 := rfl
@[simp] theorem State.tick_out : s.tick.out = s.out := rfl
@[simp] theorem State.tick_pending : s.tick.pending = s.pending := rfl

/-! What a port or an island of the state is after an update of one. -/

@[simp] theorem State.modPort_port (p : Port) (f : LinkPort → LinkPort) : (s.modPort p f).port p = f (s.port p) := by
  simp [State.modPort, State.port]

theorem State.modPort_port_ne {p q : Port} (h : q ≠ p) (f : LinkPort → LinkPort) : (s.modPort p f).port q = s.port q := by
  cases p <;> cases q <;> first | exact absurd rfl h | simp [State.modPort, State.port, portIx]

@[simp] theorem State.modIsle_isle (x : Island) (f : IslandState → IslandState) : (s.modIsle x f).isle x = f (s.isle x) := by
  simp [State.modIsle, State.isle]

theorem State.modIsle_isle_ne {x y : Island} (h : y ≠ x) (f : IslandState → IslandState) : (s.modIsle x f).isle y = s.isle y := by
  cases x <;> cases y <;> first | exact absurd rfl h | simp [State.modIsle, State.isle, isleIx]

end Sys2Proof.Machine
end

