-- ==== Sys2Proof/Laws/Commands.lean ====
section
/-! SUPPORT. What the wrappers of the distaff commands do with a command that is served (R48, R51, R67, R70), said once, so
that no later proof unfolds them. -/

namespace Sys2Proof.Machine

variable {i : Instr} {o : Origin} {s : State}

theorem not_inHand (h : originOf i = some o) (hf : firstOf o.mb s.dist.inHand = none) : i ∉ s.dist.inHand := by
  intro hm
  have h1 := List.find?_eq_none.mp hf i hm
  simp [h] at h1

/-- A served command runs in the state that holds its tag. -/
theorem claim_served (h : Served i o s) : claim i o s = .runs (s.holdTag o.mb o.tag) := by
  obtain ⟨ho, hr, hm, hf, hn, ht, ha, -, -⟩ := h
  have hc : s.dist.inHand.contains i = false := by simpa using not_inHand ho hn
  simp only [claim, hr, hc, hm, hf, hn, ht, ha, ne_eq, not_true_eq_false, if_false, if_true, Bool.false_eq_true, Bool.not_true, Bool.not_false, Bool.and_true, Bool.or_false, Option.isSome_none]

/-- Nothing of the mailbox happens while it serves nothing or its response ring is full (R30, R46). -/
theorem claim_idle (hs : s.dist.st ≠ .running) (h : s.isReady rdyMailboxes = false ∨ s.mb[o.mb].full = true) :
    claim i o s = .idle := by
  rcases h with h | h <;> simp only [claim, hs, h, ne_eq, not_false_eq_true, if_false, if_true, Bool.false_eq_true, Bool.not_true, Bool.not_false, Bool.and_false, Bool.false_and]

/-- While the distaff is stopped the mailbox hardware answers BUSY_SWITCH (R19). -/
theorem claim_stopped (hs : s.dist.st ≠ .running) (hm : s.isReady rdyMailboxes = true) (hf : s.mb[o.mb].full = false) :
    claim i o s = .answered (s.pushCmpl o.mb (rejectCmpl i o stBusySwitch)) := by
  simp only [claim, hs, hm, hf, ne_eq, not_false_eq_true, if_true, Bool.not_true, Bool.not_false, Bool.and_true, Bool.or_false, Bool.false_or]

/-- A request that fails a check of R48 is answered at once and takes no tag. -/
theorem claim_refused (hr : s.dist.st = .running) (hm : s.isReady rdyMailboxes = true) (hf : s.mb[o.mb].full = false)
    (ho : originOf i = some o) (hn : firstOf o.mb s.dist.inHand = none) (ht : turnOpen s o.mb = true) (ha : acceptStatus i o s ≠ stOk) :
    claim i o s = .answered (s.reject i o (acceptStatus i o s)) := by
  have hc : s.dist.inHand.contains i = false := by simpa using not_inHand ho hn
  simp only [claim, hr, hc, hm, hf, hn, ht, ha, ne_eq, not_true_eq_false, if_false, if_true, Bool.false_eq_true, Bool.not_true, Bool.not_false, Bool.and_true, Bool.or_false, Option.isSome_none]

@[simp] theorem holdTag_dist (mb : MbId) (tag : Fin 32) : (s.holdTag mb tag).dist =
    { s.dist with stepped := false, turn := if s.dist.turn.getLsbD mb then setBit 0 mb true else setBit s.dist.turn mb true } := rfl

@[simp] theorem holdTag_owedFor (mb : MbId) (tag : Fin 32) : (s.holdTag mb tag).owedFor i = s.owedFor i := rfl

/-- With nothing owed, a command ends by its completion joining those that wait (R46). -/
theorem finish_ended (h : s.owedFor i = none) (st : Half) (res : List Byte) : s.finish i o st res = s.ended i o st res := by
  simp [State.finish, State.ended, h]

/-- A served S-class command: its body runs in the state that holds its tag, and its completion waits. -/
theorem runShort_served (h : Served i o s) (body : State → CmdResult)
    (hb : (body (s.holdTag o.mb o.tag)).1.owedFor i = none) :
    runShort i o body s = (body (s.holdTag o.mb o.tag)).1.ended i o (body (s.holdTag o.mb o.tag)).2.1 (body (s.holdTag o.mb o.tag)).2.2 := by
  have hc := claim_served h
  obtain ⟨-, -, -, -, -, -, -, hr, -⟩ := h
  simp only [runShort, hc, hr, finish_ended hb, Bool.false_eq_true, if_false]

/-- The same for one that reads its descriptor's data first (R65). -/
theorem runShortIn_served (h : Served i o s) (d : Desc) {bs : List Byte} (hd : readDesc (s.holdTag o.mb o.tag) d = .ok bs)
    (body : List Byte → State → CmdResult) (hb : (body bs (s.holdTag o.mb o.tag)).1.owedFor i = none) :
    runShortIn i o d body s =
      (body bs (s.holdTag o.mb o.tag)).1.ended i o (body bs (s.holdTag o.mb o.tag)).2.1 (body bs (s.holdTag o.mb o.tag)).2.2 := by
  have hc := claim_served h
  obtain ⟨-, -, -, -, -, -, -, hr, -⟩ := h
  simp only [runShortIn, runShort, hc, hr, hd, finish_ended hb, Bool.false_eq_true, if_false]

/-- A served L-class command without a descriptor whose check passes joins the long operations (R51). -/
theorem runLong_served (h : Served i o s) (hd : descOf i = none) (check : State → Half)
    (hc : check (s.holdTag o.mb o.tag) = stOk) :
    runLong i o check s = ((s.holdTag o.mb o.tag).startLong o i).keepStepped s.dist.stepped := by
  have hl := claim_served h
  obtain ⟨-, -, -, -, -, -, -, hr, -⟩ := h
  simp only [runLong, hl, hr, hd, hc, Bool.false_eq_true, if_false, if_true]

/-- One whose descriptor carries data out joins as it is; its buffer is checked first (R64, R66). -/
theorem runLong_served_out (h : Served i o s) {d : Desc} (hd : descOf i = some d) (hout : descOut i = true)
    (hok : outDescOk (s.holdTag o.mb o.tag) d = true) (check : State → Half) (hc : check (s.holdTag o.mb o.tag) = stOk) :
    runLong i o check s = ((s.holdTag o.mb o.tag).startLong o i).keepStepped s.dist.stepped := by
  have hl := claim_served h
  obtain ⟨-, -, -, -, -, -, -, hr, -⟩ := h
  simp only [runLong, hl, hr, hd, hout, hok, hc, Bool.false_eq_true, if_false, if_true]

/-- One whose descriptor carries data in joins with that data (R65). -/
theorem runLong_served_in (h : Served i o s) {d : Desc} (hd : descOf i = some d) (hout : descOut i = false) {bs : List Byte}
    (hok : readDesc (s.holdTag o.mb o.tag) d = .ok bs) (check : State → Half) (hc : check (s.holdTag o.mb o.tag) = stOk) :
    runLong i o check s =
      ((s.holdTag o.mb o.tag).startLong o (withDesc { d with data := some bs } i)).keepStepped s.dist.stepped := by
  have hl := claim_served h
  obtain ⟨-, -, -, -, -, -, -, hr, -⟩ := h
  simp only [runLong, hl, hr, hd, hout, hok, hc, Except.map, Bool.false_eq_true, if_false, if_true]

/-- A served C-class command whose set passes its check stages it; nothing else changes (R20, R67). -/
theorem runCyclic_staged (h : Served i o s) {j : Instr} (hj : fetchData i (s.holdTag o.mb o.tag) = .ok j)
    (hc : checkSet j (armedView (s.holdTag o.mb o.tag)) = stOk) :
    runCyclic i o s = (s.holdTag o.mb o.tag).modDist fun d => { d with staged := d.staged ++ [j] } := by
  have hl := claim_served h
  obtain ⟨-, -, -, -, -, -, -, hr, -⟩ := h
  simp only [runCyclic, hl, hr, hj, hc, Bool.false_eq_true, if_false, if_true]

/-- One whose set does not pass ends with the check's status (R67, R68). -/
theorem runCyclic_refused (h : Served i o s) {j : Instr} (hj : fetchData i (s.holdTag o.mb o.tag) = .ok j)
    (hc : checkSet j (armedView (s.holdTag o.mb o.tag)) ≠ stOk) (hw : s.owedFor j = none) :
    runCyclic i o s = (s.holdTag o.mb o.tag).ended j o (checkSet j (armedView (s.holdTag o.mb o.tag))) [] := by
  have hl := claim_served h
  obtain ⟨-, -, -, -, -, -, -, hr, -⟩ := h
  simp only [runCyclic, hl, hr, hj, hc, finish_ended (i := j) (s := s.holdTag o.mb o.tag) (by simpa using hw), Bool.false_eq_true, if_false]

/-- One whose data cannot be read ends with that status (R65). -/
theorem runCyclic_unread (h : Served i o s) {st : Half} {res : List Byte} (hj : fetchData i (s.holdTag o.mb o.tag) = .error (st, res)) :
    runCyclic i o s = (s.holdTag o.mb o.tag).ended i o st res := by
  have hl := claim_served h
  obtain ⟨-, -, -, -, -, -, -, hr, hw⟩ := h
  simp only [runCyclic, hl, hr, hj, finish_ended (i := i) (s := s.holdTag o.mb o.tag) (by simpa using hw), Bool.false_eq_true, if_false]

/-! What a completion, a refusal and a vector change. -/

/-- A completion changes its mailbox alone. -/
theorem pushCmpl_eq (mb : MbId) (c : Cmpl) :
    s.pushCmpl mb c = { s with mb := s.mb.set mb { s.mb[mb] with pend := s.mb[mb].pend ++ [c] } } := rfl

/-- A vector's cause that recurs while its bit is set does nothing (R58). -/
theorem raise_again (v : Nat) (h : s.host.intStatus.getLsbD v = true) : s.raise v = s := by simp [State.raise, h]

/-- While the vector is masked its cause sets its bit alone (R58). -/
theorem raise_masked (v : Nat) (h : s.host.intStatus.getLsbD v = false) (hm : s.host.intMask.getLsbD v = true) :
    s.raise v = s.modHost fun h => { h with intStatus := setBit h.intStatus v true } := by
  simp [State.raise, h, hm]

/-- A message that falls due while the endpoint is up, MSI-X is enabled and the table entry is unmasked leaves (R58). -/
theorem sendMsix_sent (v : Nat) (hp : s.host.pcieUp = true) (he : s.host.msixEnable = true)
    (ht : entryMasked s.host v = false) : s.sendMsix v = s.emit (.msix v) := by
  simp [State.sendMsix, hp, he, ht]

/-- While the vector is unmasked, its cause sets its bit and its message falls due (R58). -/
theorem raise_sent (v : Nat) (h : s.host.intStatus.getLsbD v = false) (hm : s.host.intMask.getLsbD v = false)
    (hp : s.host.pcieUp = true) (he : s.host.msixEnable = true) (ht : entryMasked s.host v = false) :
    s.raise v = (s.modHost fun h => { h with intStatus := setBit h.intStatus v true }).emit (.msix v) := by
  unfold State.raise
  rw [if_neg (by simp [h])]
  dsimp only
  rw [if_neg (by simp [hm])]
  exact sendMsix_sent v hp he ht

/-- Raising a vector changes the host's interrupt words and what has left, nothing else. -/
theorem raise_frame (v : Nat) : ∃ h out, s.raise v = { s with host := h, out := out } ∧
    h = { s.host with intStatus := h.intStatus, msixPending := h.msixPending } := by
  unfold State.raise State.sendMsix
  split
  · exact ⟨s.host, s.out, rfl, rfl⟩
  · dsimp only
    split
    · exact ⟨_, s.out, rfl, rfl⟩
    · split
      · split
        · exact ⟨_, s.out, rfl, rfl⟩
        · exact ⟨_, _, rfl, rfl⟩
      · exact ⟨_, s.out, rfl, rfl⟩

/-- A level changes its watermark, and where it crosses, a notice and vector 10 (R57). -/
theorem setLevel_frame (src : Fin 25) (lvl : Nat) : ∃ h out, s.setLevel src lvl = { s with host := h, out := out } ∧
    h = { s.host with wm := h.wm, notice := h.notice, intStatus := h.intStatus, msixPending := h.msixPending } := by
  unfold State.setLevel
  dsimp only
  split
  · obtain ⟨h, out, e, hh⟩ := raise_frame (s := s.modHost fun h => { h with
      wm := h.wm.set src { s.host.wm[src] with level := lvl, armed := false }, notice := setBit h.notice src true }) 10
    refine ⟨h, out, e, ?_⟩
    rw [hh]; rfl
  · exact ⟨_, s.out, rfl, rfl⟩

end Sys2Proof.Machine
end

