-- ==== Sys2Proof/Laws/Flyer.lean ====
section
/-! SUPPORT. What the issue of a flyer instruction does (R195 to R201, R207), said once for the issue and the memory slot, so
that no later proof unfolds them. -/

namespace Sys2Proof.Machine

variable {e : EngineId} {s : State} {m : MemSlot}

/-- An engine that is not issuing is left alone. -/
theorem issue_idle (cycles : Nat) (keep : Bool) (body : State → Engine → Issue) (h : ¬ Runs e s) :
    issue e cycles keep body s = s := by
  obtain ⟨h1, h2⟩ := not_or.mp h
  simp only [issue, ne_eq, h1, h2, not_false_eq_true, and_self, if_true]

/-- A word of bad parity stops the engine before anything of the instruction happens (R209). -/
theorem issue_parity (cycles : Nat) (keep : Bool) (body : State → Engine → Issue) (h : Runs e s)
    (hp : s.engines[e].badParity.contains s.engines[e].pc.toNat = true) : issue e cycles keep body s = s.engineFault e := by
  have hn : ¬ (s.engines[e].run ≠ .running ∧ s.engines[e].run ≠ .stepping) := fun hc => h.elim hc.1 hc.2
  simp only [issue, hn, if_false, hp, if_true]

/-- A word that spells an instruction does what the instruction does. -/
theorem judged_legal {x : Engine} (h : x.legalHere = true) (r : Issue) : judged x r = r := by
  unfold judged
  split <;> simp [h]

/-- A word that spells nothing is illegal, unless its slot meets a local memory error (R207). -/
theorem judged_illegal {x : Engine} (h : x.legalHere = false) {r : Issue} (hr : ∀ info, r ≠ .trap 4 info) : judged x r = illegal x := by
  unfold judged
  split
  · exact absurd rfl (hr _)
  · simp [h]

/-- A word that spells nothing is illegal (R201, R207). -/
theorem issue_illegal (cycles : Nat) (keep : Bool) {body : State → Engine → Issue} (h : Runs e s)
    (hp : s.engines[e].badParity.contains s.engines[e].pc.toNat = false) (hl : s.engines[e].legalHere = false)
    (hb : ∀ info, body s s.engines[e] ≠ .trap 4 info) :
    issue e cycles keep body s = (s.trap e 1 (BitVec.ofNat 32 s.engines[e].pc.toNat)).runtime e := by
  have hn : ¬ (s.engines[e].run ≠ .running ∧ s.engines[e].run ≠ .stepping) := fun hc => h.elim hc.1 hc.2
  simp only [issue, hn, if_false, hp, Bool.false_eq_true, judged_illegal hl hb]
  rfl

/-- An instruction that issues does what its body says. -/
theorem issue_body (cycles : Nat) (keep : Bool) (body : State → Engine → Issue) (h : Issues e s) :
    issue e cycles keep body s = match body s s.engines[e] with
      | .trap c info =>
        ((if c = 3 then s.modEngine e fun x => { x with poison := none } else s).trap e c (BitVec.ofNat 32 info)).runtime e
      | .stay y => s.setEngine e y
      | .done t y fl => ((t.setEngine e (finishIssue cycles fl (if keep then y else { y with divs := none }))).afterIssue e).tick := by
  have hn : ¬ (s.engines[e].run ≠ .running ∧ s.engines[e].run ≠ .stepping) := fun hc => h.1.elim hc.1 hc.2
  simp only [issue, hn, if_false, h.2.1, judged_legal h.2.2, Bool.false_eq_true]
  all_goals (cases body s s.engines[e] <;> rfl)

/-- The runtime has nothing to do while an engine is in a user's code (R211). -/
theorem runtimeStep_user (h : 4096 ≤ s.engines[e].pc.toNat) : s.runtimeStep e = none := by
  unfold State.runtimeStep
  exact if_pos (.inr (.inr h))

/-- So it leaves that engine alone. -/
theorem runtime_user (h : 4096 ≤ s.engines[e].pc.toNat) : s.runtime e = s := by
  simp only [State.runtime, State.runtimeRun, runtimeStep_user h]

/-- And an engine that does not retire leaves every other alone as well (R216). -/
theorem runtimes2_user (h : 4096 ≤ s.engines[e].pc.toNat) (hr : s.roles[e].retiring = none) : s.runtimes2 e = s := by
  simp only [State.runtimes2, hr, runtime_user h]

/-- An instruction that completes: its engine goes on by `flow`, the runtime follows, and a waiting halt is taken. -/
theorem issue_done (cycles : Nat) (keep : Bool) {body : State → Engine → Issue} (h : Issues e s) {t : State} {y : Engine} {fl : Flow}
    (hb : body s s.engines[e] = .done t y fl) :
    issue e cycles keep body s =
      ((t.setEngine e (finishIssue cycles fl (if keep then y else { y with divs := none }))).afterIssue e).tick := by
  rw [issue_body _ _ _ h, hb]

/-- The same in the words of the claims. -/
theorem issue_issued (cycles : Nat) {body : State → Engine → Issue} (h : Issues e s) {t : State} {y : Engine} {fl : Flow}
    (hb : body s s.engines[e] = .done t y fl) : issue e cycles false body s = t.issued e cycles fl y := by
  rw [issue_done cycles false h hb]; rfl

/-- An instruction that raises an exception has no effect of its own (R207). -/
theorem issue_trap (cycles : Nat) (keep : Bool) {body : State → Engine → Issue} (h : Issues e s) {c info : Nat} (hc : c ≠ 3)
    (hb : body s s.engines[e] = .trap c info) : issue e cycles keep body s = (s.trap e c (BitVec.ofNat 32 info)).runtime e := by
  rw [issue_body _ _ _ h, hb]; simp only [hc, if_false]

/-- A poisoned word is reported once (R207). -/
theorem issue_poison (cycles : Nat) (keep : Bool) {body : State → Engine → Issue} (h : Issues e s) {info : Nat}
    (hb : body s s.engines[e] = .trap 3 info) :
    issue e cycles keep body s = ((s.modEngine e fun x => { x with poison := none }).trap e 3 (BitVec.ofNat 32 info)).runtime e := by
  rw [issue_body _ _ _ h, hb]; rfl

/-- An instruction that waits changes its engine alone (R194). -/
theorem issue_stay (cycles : Nat) (keep : Bool) {body : State → Engine → Issue} (h : Issues e s) {y : Engine}
    (hb : body s s.engines[e] = .stay y) : issue e cycles keep body s = s.setEngine e y := by
  rw [issue_body _ _ _ h, hb]

/-- A legal slot accompanies an instruction that completes (R201). -/
theorem withSlot_done {body : State → Engine → Issue} {x : Engine} (h : SlotLegal m) {t : State} {y : Engine} {fl : Flow}
    (hb : body s x = .done t y fl) : withSlot e m body s x = .done (t.corrected e m) (slotOn (s.key e) x m y) fl := by
  simp only [withSlot, h.1, h.2, if_false, hb]

/-- Beside a legal slot an exception is the instruction's own (R207). -/
theorem withSlot_trap {body : State → Engine → Issue} {x : Engine} (h : SlotLegal m) {c info : Nat}
    (hb : body s x = .trap c info) : withSlot e m body s x = .trap c info := by
  simp only [withSlot, h.1, h.2, if_false, hb]

/-- A slot's load that meets a double-bit error is exception 4, whatever the instruction (R191, R207). -/
theorem withSlot_ecc {body : State → Engine → Issue} {x : Engine} (h : m.op = 1 ∧ m.ecc = some true) :
    withSlot e m body s x = .trap 4 (x.a[(Fin.ofNat 8 m.a.toNat)].toNat % 32768) := by
  simp only [withSlot, h, and_self, if_true]

/-- An A-format instruction beside a legal slot (R195, R201). -/
theorem issueA_issued (h : Issues e s) (hm : SlotLegal m) (f : Nat → Engine → Engine) :
    issueA e m f s = (s.corrected e m).issued e 1 .next (slotOn (s.key e) s.engines[e] m (f (s.key e) s.engines[e])) :=
  issue_issued 1 h (withSlot_done hm rfl)

/-- A slot without a load corrects nothing (R191). -/
theorem corrected_same (h : m.op ≠ 1 ∨ m.ecc ≠ some false) : s.corrected e m = s := by
  have : ¬ (m.op = 1 ∧ m.ecc = some false) := fun hc => h.elim (· hc.1) (· hc.2)
  simp only [State.corrected, this, if_false, State.countLocal, if_true]

/-- A slot that does nothing leaves the instruction as it is (R201). -/
theorem slotOn_none (key : Nat) (x y : Engine) (h : NoSlot m) : slotOn key x m y = y := by
  simp [slotOn, h.1, h.2]

end Sys2Proof.Machine
end

