-- ==== Sys2Proof/Laws/Memory.lean ====
section
/-! SUPPORT. Sparse lists and the banks (R218 to R234): every memory operation keeps the canonical form, a read after a
write gives the value written, and a write leaves every other cell alone. -/

namespace Sys2Proof.Machine

section Sparse

variable {α : Type} [DecidableEq α] {d : α}

theorem swfFrom_le {l : List (Nat × α)} {lo hi : Nat} (h : lo ≤ hi) (hw : swfFrom d hi l = true) : swfFrom d lo l = true := by
  cases l with
  | nil => rfl
  | cons e r =>
    simp only [swfFrom, Bool.and_eq_true, decide_eq_true_eq] at hw ⊢
    exact ⟨⟨by omega, hw.1.2⟩, hw.2⟩

theorem swfFrom_sset {l : List (Nat × α)} {lo a : Nat} (x : α) (ha : lo ≤ a) (hw : swfFrom d lo l = true) :
    swfFrom d lo (sset d l a x) = true := by
  induction l generalizing lo with
  | nil =>
    by_cases hx : x = d <;> simp [sset, swfFrom, hx, ha]
  | cons e r ih =>
    obtain ⟨k, v⟩ := e
    simp only [swfFrom, Bool.and_eq_true, decide_eq_true_eq] at hw
    obtain ⟨⟨h1, h2⟩, h3⟩ := hw
    simp only [sset]
    split
    · split
      · simp [swfFrom, h1, h2, h3]
      · rename_i hx
        simp only [swfFrom, Bool.and_eq_true, decide_eq_true_eq]
        exact ⟨⟨ha, hx⟩, ⟨by omega, h2⟩, h3⟩
    · split
      · split
        · exact swfFrom_le (by omega) h3
        · rename_i hk hx
          subst hk
          simp [swfFrom, ha, hx, h3]
      · simp only [swfFrom, Bool.and_eq_true, decide_eq_true_eq]
        exact ⟨⟨h1, h2⟩, ih (by omega) h3⟩

/-- A write of a sparse list keeps its canonical form. -/
theorem swf_sset {l : List (Nat × α)} (a : Nat) (x : α) (h : swf d l = true) : swf d (sset d l a x) = true :=
  swfFrom_sset x (Nat.zero_le a) h

theorem sget_of_lt {l : List (Nat × α)} {lo a : Nat} (hw : swfFrom d lo l = true) (h : a < lo) : sget d l a = d := by
  cases l with
  | nil => rfl
  | cons e r =>
    obtain ⟨k, v⟩ := e
    simp only [swfFrom, Bool.and_eq_true, decide_eq_true_eq] at hw
    have h1 : a ≠ k := by omega
    have h2 : a < k := by omega
    simp [sget, h1, h2]

theorem sget_sset_self {l : List (Nat × α)} {lo : Nat} (a : Nat) (x : α) (hw : swfFrom d lo l = true) :
    sget d (sset d l a x) a = x := by
  induction l generalizing lo with
  | nil => by_cases hx : x = d <;> simp [sset, sget, hx]
  | cons e r ih =>
    obtain ⟨k, v⟩ := e
    simp only [swfFrom, Bool.and_eq_true, decide_eq_true_eq] at hw
    simp only [sset]
    split
    · rename_i h
      split
      · rename_i hx; simp [sget, h, hx, Nat.ne_of_lt h]
      · simp [sget]
    · split
      · rename_i h
        split
        · rename_i hx
          rw [sget_of_lt hw.2 (by omega)]; exact hx.symm
        · simp [sget]
      · rename_i h1 h2
        simp only [sget, if_neg h2, if_neg h1]
        exact ih hw.2

theorem sget_sset_ne {l : List (Nat × α)} {lo : Nat} {a b : Nat} (x : α) (h : b ≠ a) (hw : swfFrom d lo l = true) :
    sget d (sset d l a x) b = sget d l b := by
  induction l generalizing lo with
  | nil =>
    by_cases hx : x = d
    · simp [sset, hx]
    · simp [sset, sget, hx, h]
  | cons e r ih =>
    obtain ⟨k, v⟩ := e
    simp only [swfFrom, Bool.and_eq_true, decide_eq_true_eq] at hw
    simp only [sset]
    split
    · rename_i hk
      split
      · rfl
      · by_cases hb : b < a
        · have h1 : b ≠ k := by omega
          have h2 : b < k := by omega
          simp [sget, h, hb, h1, h2]
        · simp [sget, h, hb]
    · split
      · rename_i hk
        subst hk
        split
        · by_cases hb : b < a
          · rw [sget_of_lt hw.2 (by omega)]
            simp [sget, h, hb]
          · simp [sget, h, hb]
        · simp [sget, h]
      · by_cases hb : b = k
        · subst hb; simp [sget]
        · by_cases hb2 : b < k
          · simp [sget, hb, hb2]
          · simp only [sget, if_neg hb, if_neg hb2]
            exact ih hw.2

theorem swfFrom_filter {l : List (Nat × α)} {lo : Nat} (p : Nat × α → Bool) (hw : swfFrom d lo l = true) :
    swfFrom d lo (l.filter p) = true := by
  induction l generalizing lo with
  | nil => rfl
  | cons e r ih =>
    obtain ⟨k, v⟩ := e
    simp only [swfFrom, Bool.and_eq_true, decide_eq_true_eq] at hw
    simp only [List.filter]
    split
    · simp only [swfFrom, Bool.and_eq_true, decide_eq_true_eq]
      exact ⟨hw.1, ih hw.2⟩
    · exact swfFrom_le (by omega) (ih hw.2)

end Sparse

/-! The banks' contents keep their canonical form. -/

variable {m : Mem}

theorem Mem.reset_wf : Mem.reset.wf = true := rfl

theorem Mem.setByte_wf (a : Nat) (b : Byte) (h : m.wf = true) : (m.setByte a b).wf = true := swf_sset a _ h

theorem Mem.setWordBytes_wf (g mask : Nat) (w : Word72) (h : m.wf = true) : (m.setWordBytes g mask w).wf = true := by
  unfold Mem.setWordBytes
  generalize List.range 9 = l
  induction l generalizing m with
  | nil => exact h
  | cons k r ih =>
    simp only [List.foldl_cons]
    split
    · exact ih (Mem.setByte_wf _ _ h)
    · exact ih h

theorem Mem.writeWord_wf (g : Nat) (w : Word72) (h : m.wf = true) : (m.writeWord g w).wf = true := Mem.setWordBytes_wf g _ w h

theorem Mem.mergeByte_wf (a : Nat) (b : Byte) (h : m.wf = true) : (m.mergeByte a b).wf = true := Mem.setByte_wf a b h

theorem Mem.mergeBytes_wf (a : Nat) (bs : List Byte) (h : m.wf = true) : (m.mergeBytes a bs).wf = true := by
  induction bs generalizing m a with
  | nil => exact h
  | cons b r ih => exact ih (a + 1) (Mem.mergeByte_wf a b h)

theorem Mem.setSample_wf (i : Nat) (v : Sample) (h : m.wf = true) : (m.setSample i v).wf = true := Mem.setWordBytes_wf _ _ _ h

theorem Mem.modBank_wf (b : BankId) (f : BankCtl → BankCtl) (h : m.wf = true) : (m.modBank b f).wf = true := h

theorem Mem.mergeWord_wf (g : Nat) (w : Word72) (h : m.wf = true) : (m.mergeWord g w).wf = true := Mem.setWordBytes_wf g _ w h

theorem Mem.alloc_wf (h : m.wf = true) : m.alloc.1.wf = true := by
  unfold Mem.alloc
  generalize nullBobbin = z, m.linkOf m.head = k, insertNat m.head m.used = l
  by_cases h0 : m.head = z
  · rw [if_pos h0]; exact h
  · rw [if_neg h0]; exact h

/-- What a release can do to the cells: nothing, or the merge of the link. -/
theorem Mem.release_cells (i : Nat) : (m.release i).cells = m.cells ∨
    (m.release i).cells = (m.setSample (4 * m.bobbinWord i) (BitVec.ofNat 18 m.head)).cells := by
  unfold Mem.release
  generalize m.setSample (4 * m.bobbinWord i) (BitVec.ofNat 18 m.head) = n
  split
  · exact .inl rfl
  · exact .inr rfl

theorem Mem.release_wf (i : Nat) (h : m.wf = true) : (m.release i).wf = true := by
  have h2 : (m.setSample (4 * m.bobbinWord i) (BitVec.ofNat 18 m.head)).wf = true := Mem.setSample_wf _ _ h
  unfold Mem.wf at *
  rcases m.release_cells i with e | e <;> rw [e] <;> assumption

theorem buildCells_swf {l : List Host.Cell} {at_ : Nat} (lo hi : Nat) (h : swfFrom emptyCell at_ l = true) :
    swfFrom emptyCell at_ (buildCells lo hi l) = true := by
  induction l generalizing at_ with
  | nil => rfl
  | cons e r ih =>
    obtain ⟨a, x⟩ := e
    simp only [swfFrom, Bool.and_eq_true, decide_eq_true_eq] at h
    simp only [buildCells]
    split
    · split
      · exact swfFrom_le (by omega) (ih h.2)
      · rename_i hx
        simp only [swfFrom, Bool.and_eq_true, decide_eq_true_eq]
        exact ⟨⟨h.1.1, hx⟩, ih h.2⟩
    · simp only [swfFrom, Bool.and_eq_true, decide_eq_true_eq]
      exact ⟨h.1, ih h.2⟩

theorem Mem.build_wf (h : m.wf = true) : m.build.wf = true := buildCells_swf _ _ h

theorem Mem.releaseAll_wf (l : List Nat) (h : m.wf = true) : (m.releaseAll l).wf = true := by
  unfold Mem.releaseAll
  induction l generalizing m with
  | nil => exact h
  | cons i r ih => exact ih (Mem.release_wf i h)

theorem bankOff_wf (key : Nat) (b : BankId) (h : m.wf = true) : (bankOff key b m).wf = true := by
  exact swfFrom_filter _ (swfFrom_filter _ h)

/-! Reading after a write. -/

theorem Mem.setByte_byte (a : Nat) (b : Byte) (h : m.wf = true) : (m.setByte a b).byte a = b := by
  have h1 : sget emptyCell (sset emptyCell m.cells a (b ^^^ m.mask a)) a = b ^^^ m.mask a := sget_sset_self a _ h
  change sget emptyCell (sset emptyCell m.cells a (b ^^^ m.mask a)) a ^^^ m.mask a = b
  rw [h1, BitVec.xor_assoc, BitVec.xor_self, BitVec.xor_zero]

theorem Mem.setByte_byte_ne {a c : Nat} (b : Byte) (hc : c ≠ a) (h : m.wf = true) : (m.setByte a b).byte c = m.byte c := by
  have h1 : sget emptyCell (sset emptyCell m.cells a (b ^^^ m.mask a)) c = sget emptyCell m.cells c := sget_sset_ne _ hc h
  change sget emptyCell (sset emptyCell m.cells a (b ^^^ m.mask a)) c ^^^ m.mask c = sget emptyCell m.cells c ^^^ m.mask c
  rw [h1]

/-- Bytes written from an address on leave every cell outside them alone. -/
theorem Mem.mergeBytes_byte_out {a c : Nat} (bs : List Byte) (hc : c < a ∨ a + bs.length ≤ c) (h : m.wf = true) :
    (m.mergeBytes a bs).byte c = m.byte c := by
  induction bs generalizing m a with
  | nil => rfl
  | cons b r ih =>
    simp only [List.length_cons] at hc
    change ((m.mergeByte a b).mergeBytes (a + 1) r).byte c = m.byte c
    rw [ih (by omega) (Mem.mergeByte_wf a b h)]
    exact Mem.setByte_byte_ne b (by omega) h

/-! The MRAM's write counts. -/

theorem wearBlock_swf (b : Nat) {r : Recovery} (h : swf 0 r.wear = true) : swf 0 (wearBlock b r).1.wear = true := by
  unfold wearBlock
  dsimp only
  split
  · exact swf_sset _ _ h
  · split <;> exact swf_sset _ _ h

end Sys2Proof.Machine
end

