-- ==== Sys2Proof/Laws/PerInstr.lean ====
section
/-! SUPPORT. Laws stated command by command. Family `Origin`: a command that comes through a mailbox has an opcode
and an origin, and an event or a flyer instruction has neither; an opcode that is listed has its class in the same
table, and only such a command carries a descriptor. -/

namespace Sys2Proof.Laws.Origin

open Sys2Proof.Machine

/-- An opcode and an origin come together (R48, R72), and a descriptor comes with neither missing (R64). -/
def Statement (i : Instr) : Prop :=
  (opcodeOf i).isSome = (originOf i).isSome ∧ ((descOf i).isSome = true → (originOf i).isSome = true)

theorem identify (x0 : Origin) : Statement (Instr.identify x0) := ⟨rfl, fun _ => rfl⟩
theorem systemReset (x0 : Origin) (x1 : Byte) : Statement (Instr.systemReset x0 x1) := ⟨rfl, fun _ => rfl⟩
theorem distaffRestart (x0 : Origin) : Statement (Instr.distaffRestart x0) := ⟨rfl, fun _ => rfl⟩
theorem setClockSources (x0 : Origin) (x1 x2 x3 x4 : Byte) : Statement (Instr.setClockSources x0 x1 x2 x3 x4) := ⟨rfl, fun _ => rfl⟩
theorem setWatermark (x0 : Origin) (x1 : Byte) (x2 x3 : Word) : Statement (Instr.setWatermark x0 x1 x2 x3) := ⟨rfl, fun _ => rfl⟩
theorem cancel (x0 : Origin) (x1 x2 : Byte) : Statement (Instr.cancel x0 x1 x2) := ⟨rfl, fun _ => rfl⟩
theorem getCounters (x0 : Origin) (x1 : Byte) : Statement (Instr.getCounters x0 x1) := ⟨rfl, fun _ => rfl⟩
theorem ping (x0 : Origin) (x1 : List Byte) : Statement (Instr.ping x0 x1) := ⟨rfl, fun _ => rfl⟩
theorem logRead (x0 : Origin) (x1 x2 : Word) (x3 : Desc) : Statement (Instr.logRead x0 x1 x2 x3) := ⟨rfl, fun _ => rfl⟩
theorem mbTags (x0 : Origin) (x1 : Byte) : Statement (Instr.mbTags x0 x1) := ⟨rfl, fun _ => rfl⟩
theorem setLatencyTolerance (x0 : Origin) (x1 : Half) (x2 : Word) : Statement (Instr.setLatencyTolerance x0 x1 x2) := ⟨rfl, fun _ => rfl⟩
theorem setDeviceState (x0 : Origin) (x1 : Byte) : Statement (Instr.setDeviceState x0 x1) := ⟨rfl, fun _ => rfl⟩
theorem getPower (x0 : Origin) : Statement (Instr.getPower x0) := ⟨rfl, fun _ => rfl⟩
theorem strandBind (x0 : Origin) (x1 : Half) (x2 : Byte) (x3 : Half) (x4 : Byte) : Statement (Instr.strandBind x0 x1 x2 x3 x4) := ⟨rfl, fun _ => rfl⟩
theorem strandConfig (x0 : Origin) (x1 : Half) (x2 x3 x4 x5 x6 x7 : Byte) : Statement (Instr.strandConfig x0 x1 x2 x3 x4 x5 x6 x7) := ⟨rfl, fun _ => rfl⟩
theorem plyCoeff (x0 : Origin) (x1 : Half) (x2 : Byte) (x3 : Desc) : Statement (Instr.plyCoeff x0 x1 x2 x3) := ⟨rfl, fun _ => rfl⟩
theorem strandArm (x0 : Origin) (x1 : Half) : Statement (Instr.strandArm x0 x1) := ⟨rfl, fun _ => rfl⟩
theorem strandEnable (x0 : Origin) (x1 : Half) : Statement (Instr.strandEnable x0 x1) := ⟨rfl, fun _ => rfl⟩
theorem strandDisable (x0 : Origin) (x1 : Half) : Statement (Instr.strandDisable x0 x1) := ⟨rfl, fun _ => rfl⟩
theorem stop (x0 : Origin) (x1 : Half) (x2 : Byte) (x3 : Word) : Statement (Instr.stop x0 x1 x2 x3) := ⟨rfl, fun _ => rfl⟩
theorem stopNow (x0 : Origin) (x1 : Half) : Statement (Instr.stopNow x0 x1) := ⟨rfl, fun _ => rfl⟩
theorem faultReset (x0 : Origin) (x1 : Half) : Statement (Instr.faultReset x0 x1) := ⟨rfl, fun _ => rfl⟩
theorem setTransfer (x0 : Origin) (x1 : Half) (x2 : Byte) (x3 : Word) : Statement (Instr.setTransfer x0 x1 x2 x3) := ⟨rfl, fun _ => rfl⟩
theorem setSource (x0 : Origin) (x1 : Half) (x2 x3 : Byte) (x4 x5 : Word) : Statement (Instr.setSource x0 x1 x2 x3 x4 x5) := ⟨rfl, fun _ => rfl⟩
theorem strandHold (x0 : Origin) (x1 : Half) (x2 : Byte) : Statement (Instr.strandHold x0 x1 x2) := ⟨rfl, fun _ => rfl⟩
theorem strandRead (x0 : Origin) (x1 : Half) : Statement (Instr.strandRead x0 x1) := ⟨rfl, fun _ => rfl⟩
theorem profileSet (x0 : Origin) (x1 : Half) (x2 : ProfileArgs) : Statement (Instr.profileSet x0 x1 x2) := ⟨rfl, fun _ => rfl⟩
theorem moveAbs (x0 : Origin) (x1 : Half) (x2 : BitVec 64) : Statement (Instr.moveAbs x0 x1 x2) := ⟨rfl, fun _ => rfl⟩
theorem moveRel (x0 : Origin) (x1 : Half) (x2 : BitVec 64) : Statement (Instr.moveRel x0 x1 x2) := ⟨rfl, fun _ => rfl⟩
theorem jog (x0 : Origin) (x1 : Half) (x2 : Word) : Statement (Instr.jog x0 x1 x2) := ⟨rfl, fun _ => rfl⟩
theorem groupDefine (x0 : Origin) (x1 x2 : Byte) (x3 : List Half) : Statement (Instr.groupDefine x0 x1 x2 x3) := ⟨rfl, fun _ => rfl⟩
theorem pathQueue (x0 : Origin) (x1 : Byte) (x2 : Desc) : Statement (Instr.pathQueue x0 x1 x2) := ⟨rfl, fun _ => rfl⟩
theorem pathStart (x0 : Origin) (x1 : Byte) : Statement (Instr.pathStart x0 x1) := ⟨rfl, fun _ => rfl⟩
theorem pathStop (x0 : Origin) (x1 : Byte) (x2 : Word) : Statement (Instr.pathStop x0 x1 x2) := ⟨rfl, fun _ => rfl⟩
theorem camLoad (x0 : Origin) (x1 : Half) (x2 : Word) (x3 : Desc) : Statement (Instr.camLoad x0 x1 x2 x3) := ⟨rfl, fun _ => rfl⟩
theorem camSwap (x0 : Origin) (x1 : Half) : Statement (Instr.camSwap x0 x1) := ⟨rfl, fun _ => rfl⟩
theorem camEdit (x0 : Origin) (x1 : Half) (x2 : Word) (x3 : Desc) : Statement (Instr.camEdit x0 x1 x2 x3) := ⟨rfl, fun _ => rfl⟩
theorem camRead (x0 : Origin) (x1 : Half) (x2 : Byte) (x3 : Desc) : Statement (Instr.camRead x0 x1 x2 x3) := ⟨rfl, fun _ => rfl⟩
theorem skeinDefine (x0 : Origin) (x1 : Byte) (x2 : Word) (x3 : Byte) (x4 : Desc) : Statement (Instr.skeinDefine x0 x1 x2 x3 x4) := ⟨rfl, fun _ => rfl⟩
theorem skeinEngage (x0 : Origin) (x1 : Byte) (x2 : Half) (x3 : Word) : Statement (Instr.skeinEngage x0 x1 x2 x3) := ⟨rfl, fun _ => rfl⟩
theorem skeinDisengage (x0 : Origin) (x1 : Byte) (x2 : Half) (x3 : Word) : Statement (Instr.skeinDisengage x0 x1 x2 x3) := ⟨rfl, fun _ => rfl⟩
theorem regTrim (x0 : Origin) (x1 x2 : Byte) (x3 x4 x5 : Word) : Statement (Instr.regTrim x0 x1 x2 x3 x4 x5) := ⟨rfl, fun _ => rfl⟩
theorem pubmapWrite (x0 : Origin) (x1 x2 : Word) : Statement (Instr.pubmapWrite x0 x1 x2) := ⟨rfl, fun _ => rfl⟩
theorem routeEpoch (x0 : Origin) : Statement (Instr.routeEpoch x0) := ⟨rfl, fun _ => rfl⟩
theorem setHoldCycles (x0 : Origin) (x1 : Half) (x2 : Byte) : Statement (Instr.setHoldCycles x0 x1 x2) := ⟨rfl, fun _ => rfl⟩
theorem quadConfig (x0 : Origin) (x1 x2 x3 : Byte) (x4 : Word) (x5 : Byte) (x6 : Word) : Statement (Instr.quadConfig x0 x1 x2 x3 x4 x5 x6) := ⟨rfl, fun _ => rfl⟩
theorem deadtimeSet (x0 : Origin) (x1 x2 : Byte) (x3 : Half) : Statement (Instr.deadtimeSet x0 x1 x2 x3) := ⟨rfl, fun _ => rfl⟩
theorem sdfConfig (x0 : Origin) (x1 : Byte) (x2 : Word) (x3 : Half) (x4 : Byte) : Statement (Instr.sdfConfig x0 x1 x2 x3 x4) := ⟨rfl, fun _ => rfl⟩
theorem tripConfig (x0 : Origin) (x1 x2 : Byte) (x3 : Word) (x4 : Byte) : Statement (Instr.tripConfig x0 x1 x2 x3 x4) := ⟨rfl, fun _ => rfl⟩
theorem auxCurve (x0 : Origin) (x1 : Half) (x2 : Word) (x3 : Desc) : Statement (Instr.auxCurve x0 x1 x2 x3) := ⟨rfl, fun _ => rfl⟩
theorem auxCommand (x0 : Origin) (x1 : Half) (x2 : Word) : Statement (Instr.auxCommand x0 x1 x2) := ⟨rfl, fun _ => rfl⟩
theorem stepperConfig (x0 : Origin) (x1 : Byte) (x2 : Half) (x3 : Byte) (x4 : Word) : Statement (Instr.stepperConfig x0 x1 x2 x3 x4) := ⟨rfl, fun _ => rfl⟩
theorem microstepTable (x0 : Origin) (x1 : Byte) (x2 : Desc) : Statement (Instr.microstepTable x0 x1 x2) := ⟨rfl, fun _ => rfl⟩
theorem enlargerSet (x0 : Origin) (x1 : Half) (x2 : Byte) (x3 x4 : Word) : Statement (Instr.enlargerSet x0 x1 x2 x3 x4) := ⟨rfl, fun _ => rfl⟩
theorem stepgenConfig (x0 : Origin) (x1 : Byte) (x2 x3 : Word) : Statement (Instr.stepgenConfig x0 x1 x2 x3) := ⟨rfl, fun _ => rfl⟩
theorem tableStep (x0 : Origin) (x1 x2 x3 : Half) : Statement (Instr.tableStep x0 x1 x2 x3) := ⟨rfl, fun _ => rfl⟩
theorem fbConfig (x0 : Origin) (x1 x2 : Byte) (x3 : Half) (x4 : Byte) (x5 : Word) : Statement (Instr.fbConfig x0 x1 x2 x3 x4 x5) := ⟨rfl, fun _ => rfl⟩
theorem probeArm (x0 : Origin) (x1 x2 x3 x4 : Byte) (x5 : Rec32) : Statement (Instr.probeArm x0 x1 x2 x3 x4 x5) := ⟨rfl, fun _ => rfl⟩
theorem compareLoad (x0 : Origin) (x1 : Byte) (x2 : Half) (x3 : Word) (x4 : Desc) : Statement (Instr.compareLoad x0 x1 x2 x3 x4) := ⟨rfl, fun _ => rfl⟩
theorem fbRead (x0 : Origin) (x1 : Byte) : Statement (Instr.fbRead x0 x1) := ⟨rfl, fun _ => rfl⟩
theorem flyerLoad (x0 : Origin) (x1 : Byte) (x2 : Desc) (x3 : Bool) : Statement (Instr.flyerLoad x0 x1 x2 x3) := ⟨rfl, fun _ => rfl⟩
theorem flyerAssign (x0 : Origin) (x1 x2 : Byte) : Statement (Instr.flyerAssign x0 x1 x2) := ⟨rfl, fun _ => rfl⟩
theorem engineRetire (x0 : Origin) (x1 : Byte) : Statement (Instr.engineRetire x0 x1) := ⟨rfl, fun _ => rfl⟩
theorem flyerDebug (x0 : Origin) (x1 x2 : Byte) : Statement (Instr.flyerDebug x0 x1 x2) := ⟨rfl, fun _ => rfl⟩
theorem benchMode (x0 : Origin) (x1 : Byte) (x2 : Rec32) : Statement (Instr.benchMode x0 x1 x2) := ⟨rfl, fun _ => rfl⟩
theorem regAccess (x0 : Origin) (x1 : Word) (x2 : Byte) (x3 : Word) : Statement (Instr.regAccess x0 x1 x2 x3) := ⟨rfl, fun _ => rfl⟩
theorem memRead (x0 : Origin) (x1 : Word) (x2 : Desc) : Statement (Instr.memRead x0 x1 x2) := ⟨rfl, fun _ => rfl⟩
theorem memWrite (x0 : Origin) (x1 : Word) (x2 : Desc) : Statement (Instr.memWrite x0 x1 x2) := ⟨rfl, fun _ => rfl⟩
theorem memRepair (x0 : Origin) (x1 : Byte) (x2 : Half) : Statement (Instr.memRepair x0 x1 x2) := ⟨rfl, fun _ => rfl⟩
theorem bankPower (x0 : Origin) (x1 x2 : Byte) : Statement (Instr.bankPower x0 x1 x2) := ⟨rfl, fun _ => rfl⟩
theorem stageOpen (x0 : Origin) (x1 : Word) : Statement (Instr.stageOpen x0 x1) := ⟨rfl, fun _ => rfl⟩
theorem stageWrite (x0 : Origin) (x1 x2 : Word) (x3 x4 : Half) (x5 : List Byte) : Statement (Instr.stageWrite x0 x1 x2 x3 x4 x5) := ⟨rfl, fun _ => rfl⟩
theorem stageClose (x0 : Origin) (x1 : Word) : Statement (Instr.stageClose x0 x1) := ⟨rfl, fun _ => rfl⟩
theorem stageRead (x0 : Origin) (x1 x2 : Word) (x3 : Half) : Statement (Instr.stageRead x0 x1 x2 x3) := ⟨rfl, fun _ => rfl⟩
theorem linkStatus (x0 : Origin) (x1 : Byte) : Statement (Instr.linkStatus x0 x1) := ⟨rfl, fun _ => rfl⟩
theorem domainLeave (x0 : Origin) : Statement (Instr.domainLeave x0) := ⟨rfl, fun _ => rfl⟩
theorem scheduleWrite (x0 : Origin) (x1 x2 : Word) (x3 : Desc) : Statement (Instr.scheduleWrite x0 x1 x2 x3) := ⟨rfl, fun _ => rfl⟩
theorem setCycle (x0 : Origin) (x1 : Half) : Statement (Instr.setCycle x0 x1) := ⟨rfl, fun _ => rfl⟩
theorem negativeSave (x0 : Origin) : Statement (Instr.negativeSave x0) := ⟨rfl, fun _ => rfl⟩
theorem publishDefine (x0 : Origin) (x1 : Half) (x2 : Word) (x3 : Byte) : Statement (Instr.publishDefine x0 x1 x2 x3) := ⟨rfl, fun _ => rfl⟩
theorem hostSubscribe (x0 : Origin) (x1 : Desc) : Statement (Instr.hostSubscribe x0 x1) := ⟨rfl, fun _ => rfl⟩
theorem timeRead (x0 : Origin) : Statement (Instr.timeRead x0) := ⟨rfl, fun _ => rfl⟩
theorem timeSelect (x0 : Origin) (x1 : Byte) : Statement (Instr.timeSelect x0 x1) := ⟨rfl, fun _ => rfl⟩
theorem timePriority (x0 : Origin) (x1 x2 : Byte) : Statement (Instr.timePriority x0 x1 x2) := ⟨rfl, fun _ => rfl⟩
theorem ptpConfig (x0 : Origin) (x1 : PtpArgs) : Statement (Instr.ptpConfig x0 x1) := ⟨rfl, fun _ => rfl⟩
theorem safetyRead (x0 : Origin) (x1 : Desc) : Statement (Instr.safetyRead x0 x1) := ⟨rfl, fun _ => rfl⟩
theorem safetyWrite (x0 : Origin) (x1 : Rec32) (x2 : Desc) : Statement (Instr.safetyWrite x0 x1 x2) := ⟨rfl, fun _ => rfl⟩
theorem safetyConfirm (x0 : Origin) (x1 : Rec32) (x2 : BitVec 64) : Statement (Instr.safetyConfirm x0 x1 x2) := ⟨rfl, fun _ => rfl⟩
theorem safetyPassword (x0 : Origin) (x1 x2 : BitVec 192) (x3 : BitVec 64) (x4 : BitVec 128) : Statement (Instr.safetyPassword x0 x1 x2 x3 x4) := ⟨rfl, fun _ => rfl⟩
theorem safetyLogRead (x0 : Origin) (x1 : Desc) : Statement (Instr.safetyLogRead x0 x1) := ⟨rfl, fun _ => rfl⟩
theorem safetyReset (x0 : Origin) : Statement (Instr.safetyReset x0) := ⟨rfl, fun _ => rfl⟩
theorem expConfig (x0 : Origin) (x1 : Byte) (x2 : Desc) : Statement (Instr.expConfig x0 x1 x2) := ⟨rfl, fun _ => rfl⟩
theorem expArm (x0 : Origin) (x1 : Byte) : Statement (Instr.expArm x0 x1) := ⟨rfl, fun _ => rfl⟩
theorem expRead (x0 : Origin) (x1 : Byte) (x2 : Desc) : Statement (Instr.expRead x0 x1 x2) := ⟨rfl, fun _ => rfl⟩
theorem expDisarm (x0 : Origin) (x1 : Byte) : Statement (Instr.expDisarm x0 x1) := ⟨rfl, fun _ => rfl⟩
theorem ioConfig (x0 : Origin) (x1 : Desc) : Statement (Instr.ioConfig x0 x1) := ⟨rfl, fun _ => rfl⟩
theorem ioDiag (x0 : Origin) : Statement (Instr.ioDiag x0) := ⟨rfl, fun _ => rfl⟩
theorem watchdogSet (x0 : Origin) (x1 : Half) : Statement (Instr.watchdogSet x0 x1) := ⟨rfl, fun _ => rfl⟩
theorem convTable (x0 : Origin) (x1 : Byte) (x2 : Desc) : Statement (Instr.convTable x0 x1 x2) := ⟨rfl, fun _ => rfl⟩
theorem convRead (x0 : Origin) (x1 : Byte) : Statement (Instr.convRead x0 x1) := ⟨rfl, fun _ => rfl⟩
theorem crosscheckSet (x0 : Origin) (x1 : Byte) (x2 : Word) (x3 : Byte) : Statement (Instr.crosscheckSet x0 x1 x2 x3) := ⟨rfl, fun _ => rfl⟩
theorem canConfig (x0 : Origin) (x1 : Byte) (x2 : Desc) : Statement (Instr.canConfig x0 x1 x2) := ⟨rfl, fun _ => rfl⟩
theorem canFilter (x0 : Origin) (x1 : Byte) (x2 : Desc) : Statement (Instr.canFilter x0 x1 x2) := ⟨rfl, fun _ => rfl⟩
theorem canBus (x0 : Origin) (x1 x2 : Byte) : Statement (Instr.canBus x0 x1 x2) := ⟨rfl, fun _ => rfl⟩
theorem canSend (x0 : Origin) (x1 x2 : Byte) (x3 : Desc) : Statement (Instr.canSend x0 x1 x2 x3) := ⟨rfl, fun _ => rfl⟩
theorem fwWrite (x0 : Origin) (x1 : Byte) (x2 : Word) (x3 : Byte) (x4 : Desc) (x5 : Bool) : Statement (Instr.fwWrite x0 x1 x2 x3 x4 x5) := ⟨rfl, fun _ => rfl⟩
theorem fwSwitch (x0 : Origin) : Statement (Instr.fwSwitch x0) := ⟨rfl, fun _ => rfl⟩
theorem fwStatus (x0 : Origin) : Statement (Instr.fwStatus x0) := ⟨rfl, fun _ => rfl⟩
theorem calRead (x0 : Origin) (x1 : Desc) : Statement (Instr.calRead x0 x1) := ⟨rfl, fun _ => rfl⟩
theorem calWrite (x0 : Origin) (x1 : Desc) : Statement (Instr.calWrite x0 x1) := ⟨rfl, fun _ => rfl⟩
theorem selfTest (x0 : Origin) (x1 : Half) (x2 : Byte) : Statement (Instr.selfTest x0 x1 x2) := ⟨rfl, fun _ => rfl⟩
theorem flParallel (x0 : EngineId) (x1 x2 : MacSlot) (x3 : MemSlot) : Statement (Instr.flParallel x0 x1 x2 x3) := ⟨rfl, Bool.noConfusion⟩
theorem flAdd (x0 : EngineId) (x1 x2 x3 : BitVec 4) (x4 : MemSlot) : Statement (Instr.flAdd x0 x1 x2 x3 x4) := ⟨rfl, Bool.noConfusion⟩
theorem flSub (x0 : EngineId) (x1 x2 x3 : BitVec 4) (x4 : MemSlot) : Statement (Instr.flSub x0 x1 x2 x3 x4) := ⟨rfl, Bool.noConfusion⟩
theorem flNeg (x0 : EngineId) (x1 x2 : BitVec 4) (x3 : MemSlot) : Statement (Instr.flNeg x0 x1 x2 x3) := ⟨rfl, Bool.noConfusion⟩
theorem flAbs (x0 : EngineId) (x1 x2 : BitVec 4) (x3 : MemSlot) : Statement (Instr.flAbs x0 x1 x2 x3) := ⟨rfl, Bool.noConfusion⟩
theorem flAnd (x0 : EngineId) (x1 x2 x3 : BitVec 4) (x4 : MemSlot) : Statement (Instr.flAnd x0 x1 x2 x3 x4) := ⟨rfl, Bool.noConfusion⟩
theorem flOr (x0 : EngineId) (x1 x2 x3 : BitVec 4) (x4 : MemSlot) : Statement (Instr.flOr x0 x1 x2 x3 x4) := ⟨rfl, Bool.noConfusion⟩
theorem flXor (x0 : EngineId) (x1 x2 x3 : BitVec 4) (x4 : MemSlot) : Statement (Instr.flXor x0 x1 x2 x3 x4) := ⟨rfl, Bool.noConfusion⟩
theorem flNot (x0 : EngineId) (x1 x2 : BitVec 4) (x3 : MemSlot) : Statement (Instr.flNot x0 x1 x2 x3) := ⟨rfl, Bool.noConfusion⟩
theorem flShl (x0 : EngineId) (x1 x2 x3 : BitVec 4) (x4 : MemSlot) : Statement (Instr.flShl x0 x1 x2 x3 x4) := ⟨rfl, Bool.noConfusion⟩
theorem flShr (x0 : EngineId) (x1 x2 x3 : BitVec 4) (x4 : MemSlot) : Statement (Instr.flShr x0 x1 x2 x3 x4) := ⟨rfl, Bool.noConfusion⟩
theorem flAsr (x0 : EngineId) (x1 x2 x3 : BitVec 4) (x4 : MemSlot) : Statement (Instr.flAsr x0 x1 x2 x3 x4) := ⟨rfl, Bool.noConfusion⟩
theorem flMov (x0 : EngineId) (x1 x2 : BitVec 4) (x3 : MemSlot) : Statement (Instr.flMov x0 x1 x2 x3) := ⟨rfl, Bool.noConfusion⟩
theorem flCmp (x0 : EngineId) (x1 x2 x3 : BitVec 4) (x4 : MemSlot) : Statement (Instr.flCmp x0 x1 x2 x3 x4) := ⟨rfl, Bool.noConfusion⟩
theorem flMin (x0 : EngineId) (x1 x2 x3 : BitVec 4) (x4 : MemSlot) : Statement (Instr.flMin x0 x1 x2 x3 x4) := ⟨rfl, Bool.noConfusion⟩
theorem flMax (x0 : EngineId) (x1 x2 x3 : BitVec 4) (x4 : MemSlot) : Statement (Instr.flMax x0 x1 x2 x3 x4) := ⟨rfl, Bool.noConfusion⟩
theorem flMaxi (x0 : EngineId) (x1 x2 x3 : BitVec 4) (x4 : MemSlot) : Statement (Instr.flMaxi x0 x1 x2 x3 x4) := ⟨rfl, Bool.noConfusion⟩
theorem flMini (x0 : EngineId) (x1 x2 x3 : BitVec 4) (x4 : MemSlot) : Statement (Instr.flMini x0 x1 x2 x3 x4) := ⟨rfl, Bool.noConfusion⟩
theorem flWrap (x0 : EngineId) (x1 x2 x3 : BitVec 4) (x4 : MemSlot) : Statement (Instr.flWrap x0 x1 x2 x3 x4) := ⟨rfl, Bool.noConfusion⟩
theorem flSincos (x0 : EngineId) (x1 x2 : BitVec 4) (x3 : MemSlot) : Statement (Instr.flSincos x0 x1 x2 x3) := ⟨rfl, Bool.noConfusion⟩
theorem flClarke (x0 : EngineId) (x1 x2 : BitVec 4) (x3 : MemSlot) : Statement (Instr.flClarke x0 x1 x2 x3) := ⟨rfl, Bool.noConfusion⟩
theorem flPark (x0 : EngineId) (x1 x2 x3 : BitVec 4) (x4 : MemSlot) : Statement (Instr.flPark x0 x1 x2 x3 x4) := ⟨rfl, Bool.noConfusion⟩
theorem flIpark (x0 : EngineId) (x1 x2 x3 : BitVec 4) (x4 : MemSlot) : Statement (Instr.flIpark x0 x1 x2 x3 x4) := ⟨rfl, Bool.noConfusion⟩
theorem flDivs (x0 : EngineId) (x1 x2 : BitVec 4) (x3 : MemSlot) : Statement (Instr.flDivs x0 x1 x2 x3) := ⟨rfl, Bool.noConfusion⟩
theorem flRda (x0 : EngineId) (x1 x2 : BitVec 4) (x3 : MemSlot) : Statement (Instr.flRda x0 x1 x2 x3) := ⟨rfl, Bool.noConfusion⟩
theorem flRdal (x0 : EngineId) (x1 x2 : BitVec 4) (x3 : MemSlot) : Statement (Instr.flRdal x0 x1 x2 x3) := ⟨rfl, Bool.noConfusion⟩
theorem flRdam (x0 : EngineId) (x1 x2 : BitVec 4) (x3 : MemSlot) : Statement (Instr.flRdam x0 x1 x2 x3) := ⟨rfl, Bool.noConfusion⟩
theorem flRdah (x0 : EngineId) (x1 x2 : BitVec 4) (x3 : MemSlot) : Statement (Instr.flRdah x0 x1 x2 x3) := ⟨rfl, Bool.noConfusion⟩
theorem flWra (x0 : EngineId) (x1 x2 : BitVec 4) (x3 : MemSlot) : Statement (Instr.flWra x0 x1 x2 x3) := ⟨rfl, Bool.noConfusion⟩
theorem flClra (x0 : EngineId) (x1 : BitVec 4) (x2 : MemSlot) : Statement (Instr.flClra x0 x1 x2) := ⟨rfl, Bool.noConfusion⟩
theorem flAdda (x0 : EngineId) (x1 x2 : BitVec 4) (x3 : MemSlot) : Statement (Instr.flAdda x0 x1 x2 x3) := ⟨rfl, Bool.noConfusion⟩
theorem flSuba (x0 : EngineId) (x1 x2 : BitVec 4) (x3 : MemSlot) : Statement (Instr.flSuba x0 x1 x2 x3) := ⟨rfl, Bool.noConfusion⟩
theorem flMova (x0 : EngineId) (x1 x2 : BitVec 4) (x3 : MemSlot) : Statement (Instr.flMova x0 x1 x2 x3) := ⟨rfl, Bool.noConfusion⟩
theorem flMovd (x0 : EngineId) (x1 x2 : BitVec 4) (x3 : MemSlot) : Statement (Instr.flMovd x0 x1 x2 x3) := ⟨rfl, Bool.noConfusion⟩
theorem flAadd (x0 : EngineId) (x1 x2 : BitVec 4) (x3 : MemSlot) : Statement (Instr.flAadd x0 x1 x2 x3) := ⟨rfl, Bool.noConfusion⟩
theorem flMovc (x0 : EngineId) (x1 x2 x3 : BitVec 4) (x4 : MemSlot) : Statement (Instr.flMovc x0 x1 x2 x3 x4) := ⟨rfl, Bool.noConfusion⟩
theorem flMovtc (x0 : EngineId) (x1 x2 x3 : BitVec 4) (x4 : MemSlot) : Statement (Instr.flMovtc x0 x1 x2 x3 x4) := ⟨rfl, Bool.noConfusion⟩
theorem flBr (x0 : EngineId) (x1 : BitVec 4) (x2 : BitVec 14) : Statement (Instr.flBr x0 x1 x2) := ⟨rfl, Bool.noConfusion⟩
theorem flCall (x0 : EngineId) (x1 : BitVec 4) (x2 : BitVec 14) : Statement (Instr.flCall x0 x1 x2) := ⟨rfl, Bool.noConfusion⟩
theorem flRet (x0 : EngineId) (x1 : BitVec 4) : Statement (Instr.flRet x0 x1) := ⟨rfl, Bool.noConfusion⟩
theorem flLoopr (x0 : EngineId) (x1 : Bool) (x2 : BitVec 4) (x3 : BitVec 14) : Statement (Instr.flLoopr x0 x1 x2 x3) := ⟨rfl, Bool.noConfusion⟩
theorem flMode (x0 : EngineId) (x1 : Half) : Statement (Instr.flMode x0 x1) := ⟨rfl, Bool.noConfusion⟩
theorem flGrp (x0 : EngineId) (x1 : Half) : Statement (Instr.flGrp x0 x1) := ⟨rfl, Bool.noConfusion⟩
theorem flHalt (x0 : EngineId) : Statement (Instr.flHalt x0) := ⟨rfl, Bool.noConfusion⟩
theorem flReti (x0 : EngineId) : Statement (Instr.flReti x0) := ⟨rfl, Bool.noConfusion⟩
theorem flRetx (x0 : EngineId) : Statement (Instr.flRetx x0) := ⟨rfl, Bool.noConfusion⟩
theorem flSig (x0 : EngineId) (x1 : BitVec 3) : Statement (Instr.flSig x0 x1) := ⟨rfl, Bool.noConfusion⟩
theorem flWaitf (x0 : EngineId) (x1 : BitVec 2) : Statement (Instr.flWaitf x0 x1) := ⟨rfl, Bool.noConfusion⟩
theorem flBrk (x0 : EngineId) : Statement (Instr.flBrk x0) := ⟨rfl, Bool.noConfusion⟩
theorem flMovi (x0 : EngineId) (x1 : BitVec 4) (x2 : Sample) : Statement (Instr.flMovi x0 x1 x2) := ⟨rfl, Bool.noConfusion⟩
theorem flMovia (x0 : EngineId) (x1 : BitVec 3) (x2 : BitVec 20) : Statement (Instr.flMovia x0 x1 x2) := ⟨rfl, Bool.noConfusion⟩
theorem flMovx (x0 : EngineId) (x1 : BitVec 2) (x2 : Word) : Statement (Instr.flMovx x0 x1 x2) := ⟨rfl, Bool.noConfusion⟩
theorem flLoop (x0 : EngineId) (x1 : Bool) (x2 : Sample) (x3 : BitVec 14) : Statement (Instr.flLoop x0 x1 x2 x3) := ⟨rfl, Bool.noConfusion⟩
theorem flFmv (x0 : EngineId) (x1 : BitVec 3) (x2 : BitVec 2) (x3 : Bool) (x4 : BitVec 7) (x5 : BitVec 24) (x6 : List EccErr) : Statement (Instr.flFmv x0 x1 x2 x3 x4 x5 x6) := ⟨rfl, Bool.noConfusion⟩
theorem flFatm (x0 : EngineId) (x1 : BitVec 4) (x2 : BitVec 2) (x3 : Bool) (x4 : BitVec 15) (x5 : BitVec 24) (x6 : List EccErr) : Statement (Instr.flFatm x0 x1 x2 x3 x4 x5 x6) := ⟨rfl, Bool.noConfusion⟩
theorem flXac (x0 : EngineId) (x1 : BitVec 4) (x2 : BitVec 2) (x3 x4 : Bool) (x5 : Word) : Statement (Instr.flXac x0 x1 x2 x3 x4 x5) := ⟨rfl, Bool.noConfusion⟩
theorem fabricOpComplete (x0 : EngineId) (x1 : Fin 4) : Statement (Instr.fabricOpComplete x0 x1) := ⟨rfl, Bool.noConfusion⟩
theorem flyerWatchdogExpiry (x0 : EngineId) (x1 : Bool) : Statement (Instr.flyerWatchdogExpiry x0 x1) := ⟨rfl, Bool.noConfusion⟩
theorem cycleStart (x0 : List StrandId) : Statement (Instr.cycleStart x0) := ⟨rfl, Bool.noConfusion⟩
theorem plyUpdate (x0 : StrandId) (x1 : Byte) : Statement (Instr.plyUpdate x0 x1) := ⟨rfl, Bool.noConfusion⟩
theorem sheetPublish : Statement (Instr.sheetPublish) := ⟨rfl, Bool.noConfusion⟩
theorem pwmBoundary (x0 : QuadId) (x1 : Bool) : Statement (Instr.pwmBoundary x0 x1) := ⟨rfl, Bool.noConfusion⟩
theorem sampleReady (x0 : QuadId) (x1 : SampleInstant) (x2 : List (List Bool)) : Statement (Instr.sampleReady x0 x1 x2) := ⟨rfl, Bool.noConfusion⟩
theorem overcurrentTrip (x0 : QuadId) (x1 : PairId) (x2 : List Bool) : Statement (Instr.overcurrentTrip x0 x1 x2) := ⟨rfl, Bool.noConfusion⟩
theorem sddStuck (x0 : QuadId) (x1 : PairId) (x2 : Bool) : Statement (Instr.sddStuck x0 x1 x2) := ⟨rfl, Bool.noConfusion⟩
theorem gateFaultInput (x0 : QuadId) (x1 : SlotId) (x2 : Bool) : Statement (Instr.gateFaultInput x0 x1 x2) := ⟨rfl, Bool.noConfusion⟩
theorem pwmForceWrite (x0 : QuadId) (x1 : Word) : Statement (Instr.pwmForceWrite x0 x1) := ⟨rfl, Bool.noConfusion⟩
theorem pwmForcePairWrite (x0 : QuadId) (x1 : Word) : Statement (Instr.pwmForcePairWrite x0 x1) := ⟨rfl, Bool.noConfusion⟩
theorem pwmTripClear (x0 : QuadId) (x1 : Word) : Statement (Instr.pwmTripClear x0 x1) := ⟨rfl, Bool.noConfusion⟩
theorem chopperDriveEnd (x0 : QuadId) (x1 : PairId) : Statement (Instr.chopperDriveEnd x0 x1) := ⟨rfl, Bool.noConfusion⟩
theorem chopperFastDecayEnd (x0 : QuadId) (x1 : PairId) : Statement (Instr.chopperFastDecayEnd x0 x1) := ⟨rfl, Bool.noConfusion⟩
theorem chopperOffTimeEnd (x0 : QuadId) (x1 : PairId) : Statement (Instr.chopperOffTimeEnd x0 x1) := ⟨rfl, Bool.noConfusion⟩
theorem stepperHoldCurrent (x0 : StrandId) : Statement (Instr.stepperHoldCurrent x0) := ⟨rfl, Bool.noConfusion⟩
theorem stepEmit (x0 : StgId) : Statement (Instr.stepEmit x0) := ⟨rfl, Bool.noConfusion⟩
theorem stgPushWrite (x0 : StgId) (x1 : Word) : Statement (Instr.stgPushWrite x0 x1) := ⟨rfl, Bool.noConfusion⟩
theorem enlargerTimeout (x0 : StrandId) : Statement (Instr.enlargerTimeout x0) := ⟨rfl, Bool.noConfusion⟩
theorem quadratureEdge (x0 : FbId) (x1 x2 : Bool) (x3 : Nat) : Statement (Instr.quadratureEdge x0 x1 x2 x3) := ⟨rfl, Bool.noConfusion⟩
theorem hallCodeChange (x0 : FbId) (x1 : BitVec 3) (x2 : Nat) : Statement (Instr.hallCodeChange x0 x1 x2) := ⟨rfl, Bool.noConfusion⟩
theorem pulseEdge (x0 : FbId) (x1 x2 : Bool) (x3 : Nat) : Statement (Instr.pulseEdge x0 x1 x2 x3) := ⟨rfl, Bool.noConfusion⟩
theorem serialFrameStart (x0 : FbId) (x1 : Nat) : Statement (Instr.serialFrameStart x0 x1) := ⟨rfl, Bool.noConfusion⟩
theorem serialFrameEnd (x0 : FbId) (x1 : BitVec 40) (x2 : SerialCheck) (x3 : Nat) : Statement (Instr.serialFrameEnd x0 x1 x2 x3) := ⟨rfl, Bool.noConfusion⟩
theorem countExtension (x0 : FbId) : Statement (Instr.countExtension x0) := ⟨rfl, Bool.noConfusion⟩
theorem probeEdge (x0 : ProbeId) (x1 : Bool) (x2 : BitVec 64) : Statement (Instr.probeEdge x0 x1 x2) := ⟨rfl, Bool.noConfusion⟩
theorem compareFire (x0 : CmpId) (x1 : Nat) : Statement (Instr.compareFire x0 x1) := ⟨rfl, Bool.noConfusion⟩
theorem comparePulseEnd (x0 : CmpId) : Statement (Instr.comparePulseEnd x0) := ⟨rfl, Bool.noConfusion⟩
theorem standstill (x0 : StrandId) : Statement (Instr.standstill x0) := ⟨rfl, Bool.noConfusion⟩
theorem stopTimeout (x0 : StrandId) : Statement (Instr.stopTimeout x0) := ⟨rfl, Bool.noConfusion⟩
theorem followingError (x0 : StrandId) : Statement (Instr.followingError x0) := ⟨rfl, Bool.noConfusion⟩
theorem cycleOverrun (x0 : StrandId) : Statement (Instr.cycleOverrun x0) := ⟨rfl, Bool.noConfusion⟩
theorem pubMissing (x0 : StrandId) : Statement (Instr.pubMissing x0) := ⟨rfl, Bool.noConfusion⟩
theorem stall (x0 : StrandId) : Statement (Instr.stall x0) := ⟨rfl, Bool.noConfusion⟩
theorem currentSum (x0 : StrandId) : Statement (Instr.currentSum x0) := ⟨rfl, Bool.noConfusion⟩
theorem auxSyncLoss (x0 : StrandId) : Statement (Instr.auxSyncLoss x0) := ⟨rfl, Bool.noConfusion⟩
theorem auxAlignmentEnd (x0 : StrandId) : Statement (Instr.auxAlignmentEnd x0) := ⟨rfl, Bool.noConfusion⟩
theorem auxDutyTimeout (x0 : StrandId) (x1 : Nat) : Statement (Instr.auxDutyTimeout x0 x1) := ⟨rfl, Bool.noConfusion⟩
theorem driveStatusTimeout (x0 : StrandId) : Statement (Instr.driveStatusTimeout x0) := ⟨rfl, Bool.noConfusion⟩
theorem burstTransmit (x0 : BurstKind) (x1 : List Port) (x2 : List EccErr) : Statement (Instr.burstTransmit x0 x1 x2) := ⟨rfl, Bool.noConfusion⟩
theorem burstReceive (x0 : Port) (x1 : Burst) (x2 : Arrival) : Statement (Instr.burstReceive x0 x1 x2) := ⟨rfl, Bool.noConfusion⟩
theorem helloSend (x0 : Port) : Statement (Instr.helloSend x0) := ⟨rfl, Bool.noConfusion⟩
theorem helloReceive (x0 : Port) (x1 : BitVec 14) (x2 : Bool) (x3 : Half) (x4 : Bool) : Statement (Instr.helloReceive x0 x1 x2 x3 x4) := ⟨rfl, Bool.noConfusion⟩
theorem helloTimeout (x0 : Port) : Statement (Instr.helloTimeout x0) := ⟨rfl, Bool.noConfusion⟩
theorem blockLockLoss (x0 : Port) : Statement (Instr.blockLockLoss x0) := ⟨rfl, Bool.noConfusion⟩
theorem portDegrade (x0 : Port) (x1 x2 : Bool) : Statement (Instr.portDegrade x0 x1 x2) := ⟨rfl, Bool.noConfusion⟩
theorem laneRestore (x0 : Port) : Statement (Instr.laneRestore x0) := ⟨rfl, Bool.noConfusion⟩
theorem asyncFrameTransmit (x0 : Port) (x1 : SendTurn) (x2 : Bool) : Statement (Instr.asyncFrameTransmit x0 x1 x2) := ⟨rfl, Bool.noConfusion⟩
theorem asyncFrameReceive (x0 : Port) (x1 : Frame) (x2 : Word) : Statement (Instr.asyncFrameReceive x0 x1 x2) := ⟨rfl, Bool.noConfusion⟩
theorem ackReceive (x0 : Port) (x1 : Byte) : Statement (Instr.ackReceive x0 x1) := ⟨rfl, Bool.noConfusion⟩
theorem nakReceive (x0 : Port) (x1 : Byte) : Statement (Instr.nakReceive x0 x1) := ⟨rfl, Bool.noConfusion⟩
theorem releaseReceive (x0 : Port) (x1 : Byte) : Statement (Instr.releaseReceive x0 x1) := ⟨rfl, Bool.noConfusion⟩
theorem retransmitTimeout (x0 : Port) (x1 : Byte) : Statement (Instr.retransmitTimeout x0 x1) := ⟨rfl, Bool.noConfusion⟩
theorem heldFrameTimeout (x0 : Port) (x1 : Byte) : Statement (Instr.heldFrameTimeout x0 x1) := ⟨rfl, Bool.noConfusion⟩
theorem unreachableReport (x0 : Word) : Statement (Instr.unreachableReport x0) := ⟨rfl, Bool.noConfusion⟩
theorem deliveryReport (x0 : Word) : Statement (Instr.deliveryReport x0) := ⟨rfl, Bool.noConfusion⟩
theorem deliveryAssumed (x0 : Word) : Statement (Instr.deliveryAssumed x0) := ⟨rfl, Bool.noConfusion⟩
theorem remoteRequestReceive (x0 : BitVec 14) (x1 : RemoteKey) (x2 : SlotWord) : Statement (Instr.remoteRequestReceive x0 x1 x2) := ⟨rfl, Bool.noConfusion⟩
theorem remoteCompletionReceive (x0 : BitVec 14) (x1 : RemoteKey) (x2 : SlotWord) : Statement (Instr.remoteCompletionReceive x0 x1 x2) := ⟨rfl, Bool.noConfusion⟩
theorem remoteTimerExpiry (x0 : Word) : Statement (Instr.remoteTimerExpiry x0) := ⟨rfl, Bool.noConfusion⟩
theorem beaconSend : Statement (Instr.beaconSend) := ⟨rfl, Bool.noConfusion⟩
theorem beaconLoss (x0 : List Candidate) : Statement (Instr.beaconLoss x0) := ⟨rfl, Bool.noConfusion⟩
theorem enumeration (x0 : List FoundDevice) (x1 : List FoundLink) (x2 : List (Nat × Port)) : Statement (Instr.enumeration x0 x1 x2) := ⟨rfl, Bool.noConfusion⟩
theorem printApply (x0 : Negative) : Statement (Instr.printApply x0) := ⟨rfl, Bool.noConfusion⟩
theorem domainJoin (x0 : BitVec 64) (x1 : BitVec 48) : Statement (Instr.domainJoin x0 x1) := ⟨rfl, Bool.noConfusion⟩
theorem scheduleConfirmTimeout (x0 : SchedRefusal) : Statement (Instr.scheduleConfirmTimeout x0) := ⟨rfl, Bool.noConfusion⟩
theorem scheduleSwitch (x0 : List Rec32) : Statement (Instr.scheduleSwitch x0) := ⟨rfl, Bool.noConfusion⟩
theorem syncSend (x0 : Port) (x1 : Dom) : Statement (Instr.syncSend x0 x1) := ⟨rfl, Bool.noConfusion⟩
theorem delayRequestSend (x0 : Port) : Statement (Instr.delayRequestSend x0) := ⟨rfl, Bool.noConfusion⟩
theorem timeEventReceive (x0 : Port) (x1 : BitVec 56) (x2 : BitVec 64) : Statement (Instr.timeEventReceive x0 x1 x2) := ⟨rfl, Bool.noConfusion⟩
theorem domainLock (x0 : Dom) : Statement (Instr.domainLock x0) := ⟨rfl, Bool.noConfusion⟩
theorem timeAnnounceSend (x0 : Dom) : Statement (Instr.timeAnnounceSend x0) := ⟨rfl, Bool.noConfusion⟩
theorem timeAnnounceLoss (x0 : Dom) (x1 : List Candidate) : Statement (Instr.timeAnnounceLoss x0 x1) := ⟨rfl, Bool.noConfusion⟩
theorem upstreamPortLoss (x0 : Dom) : Statement (Instr.upstreamPortLoss x0) := ⟨rfl, Bool.noConfusion⟩
theorem slewEnd : Statement (Instr.slewEnd) := ⟨rfl, Bool.noConfusion⟩
theorem timeHoldover : Statement (Instr.timeHoldover) := ⟨rfl, Bool.noConfusion⟩
theorem timeLockClear : Statement (Instr.timeLockClear) := ⟨rfl, Bool.noConfusion⟩
theorem ptpEventMessage (x0 : PtpMessage) : Statement (Instr.ptpEventMessage x0) := ⟨rfl, Bool.noConfusion⟩
theorem plantValidTimeout : Statement (Instr.plantValidTimeout) := ⟨rfl, Bool.noConfusion⟩
theorem refclkFail (x0 : BitVec 2) : Statement (Instr.refclkFail x0) := ⟨rfl, Bool.noConfusion⟩
theorem refclkRevert : Statement (Instr.refclkRevert) := ⟨rfl, Bool.noConfusion⟩
theorem refclkMismatch : Statement (Instr.refclkMismatch) := ⟨rfl, Bool.noConfusion⟩
theorem keeperVote (x0 x1 : Nat) : Statement (Instr.keeperVote x0 x1) := ⟨rfl, Bool.noConfusion⟩
theorem safetyInputDemand (x0 : Island) (x1 x2 : Fin 4) : Statement (Instr.safetyInputDemand x0 x1 x2) := ⟨rfl, Bool.noConfusion⟩
theorem safetyInputRest (x0 : Island) (x1 x2 : Fin 4) : Statement (Instr.safetyInputRest x0 x1 x2) := ⟨rfl, Bool.noConfusion⟩
theorem testPulseStart (x0 : Fin 4) : Statement (Instr.testPulseStart x0) := ⟨rfl, Bool.noConfusion⟩
theorem pulseCheck (x0 : Fin 8) (x1 : PulseResponse) : Statement (Instr.pulseCheck x0 x1) := ⟨rfl, Bool.noConfusion⟩
theorem tpReadbackMismatch (x0 : Fin 4) : Statement (Instr.tpReadbackMismatch x0) := ⟨rfl, Bool.noConfusion⟩
theorem ss1TimerExpiry (x0 : Island) (x1 : Fin 5) (x2 : QuadId) : Statement (Instr.ss1TimerExpiry x0 x1 x2) := ⟨rfl, Bool.noConfusion⟩
theorem discrepancyTimeout (x0 : Island) (x1 : Fin 4) : Statement (Instr.discrepancyTimeout x0 x1) := ⟨rfl, Bool.noConfusion⟩
theorem twoHandTimeout (x0 : Island) (x1 : Fin 4) : Statement (Instr.twoHandTimeout x0 x1) := ⟨rfl, Bool.noConfusion⟩
theorem safelightMinute : Statement (Instr.safelightMinute) := ⟨rfl, Bool.noConfusion⟩
theorem safelightLimitExpiry : Statement (Instr.safelightLimitExpiry) := ⟨rfl, Bool.noConfusion⟩
theorem switchTest (x0 : Island) (x1 : QuadId) (x2 : Bool) : Statement (Instr.switchTest x0 x1 x2) := ⟨rfl, Bool.noConfusion⟩
theorem crossLinkSilent (x0 : Island) : Statement (Instr.crossLinkSilent x0) := ⟨rfl, Bool.noConfusion⟩
theorem islandSelfTest (x0 : Island) (x1 : Bool) : Statement (Instr.islandSelfTest x0 x1) := ⟨rfl, Bool.noConfusion⟩
theorem passwordLockoutEnd : Statement (Instr.passwordLockoutEnd) := ⟨rfl, Bool.noConfusion⟩
theorem thermalWarning (x0 : Die) (x1 : BitVec 11) : Statement (Instr.thermalWarning x0 x1) := ⟨rfl, Bool.noConfusion⟩
theorem thermalTrip (x0 : Die) (x1 : BitVec 11) : Statement (Instr.thermalTrip x0 x1) := ⟨rfl, Bool.noConfusion⟩
theorem powerOnReset (x0 : Fin 8) : Statement (Instr.powerOnReset x0) := ⟨rfl, Bool.noConfusion⟩
theorem resetNLow : Statement (Instr.resetNLow) := ⟨rfl, Bool.noConfusion⟩
theorem perstAssert : Statement (Instr.perstAssert) := ⟨rfl, Bool.noConfusion⟩
theorem pcieLinkUp (x0 x1 : Bool) : Statement (Instr.pcieLinkUp x0 x1) := ⟨rfl, Bool.noConfusion⟩
theorem distaffWatchdogExpiry : Statement (Instr.distaffWatchdogExpiry) := ⟨rfl, Bool.noConfusion⟩
theorem fwSwitchFallback : Statement (Instr.fwSwitchFallback) := ⟨rfl, Bool.noConfusion⟩
theorem dormantWake : Statement (Instr.dormantWake) := ⟨rfl, Bool.noConfusion⟩
theorem functionReady (x0 : ReadyFn) : Statement (Instr.functionReady x0) := ⟨rfl, Bool.noConfusion⟩
theorem powerStateEntry (x0 : Half) : Statement (Instr.powerStateEntry x0) := ⟨rfl, Bool.noConfusion⟩
theorem mailboxRequestCopy (x0 : MbId) (x1 : DmaInput) : Statement (Instr.mailboxRequestCopy x0 x1) := ⟨rfl, Bool.noConfusion⟩
theorem busySwitchAnswer (x0 : MbId) : Statement (Instr.busySwitchAnswer x0) := ⟨rfl, Bool.noConfusion⟩
theorem cSetArm : Statement (Instr.cSetArm) := ⟨rfl, Bool.noConfusion⟩
theorem longOperationStep (x0 : MbId) (x1 : Fin 32) (x2 : StepInput) : Statement (Instr.longOperationStep x0 x1 x2) := ⟨rfl, Bool.noConfusion⟩
theorem completionWrite (x0 : MbId) : Statement (Instr.completionWrite x0) := ⟨rfl, Bool.noConfusion⟩
theorem reqPiWrite (x0 : MbId) (x1 : Word) : Statement (Instr.reqPiWrite x0 x1) := ⟨rfl, Bool.noConfusion⟩
theorem rspCiWrite (x0 : MbId) (x1 : Word) : Statement (Instr.rspCiWrite x0 x1) := ⟨rfl, Bool.noConfusion⟩
theorem sysIntStatusClear (x0 : Word) : Statement (Instr.sysIntStatusClear x0) := ⟨rfl, Bool.noConfusion⟩
theorem sysIntMaskWrite (x0 : Word) : Statement (Instr.sysIntMaskWrite x0) := ⟨rfl, Bool.noConfusion⟩
theorem sysWmNoticeClear (x0 : Word) : Statement (Instr.sysWmNoticeClear x0) := ⟨rfl, Bool.noConfusion⟩
theorem sysCycleLoRead : Statement (Instr.sysCycleLoRead) := ⟨rfl, Bool.noConfusion⟩
theorem timNowLoRead : Statement (Instr.timNowLoRead) := ⟨rfl, Bool.noConfusion⟩
theorem timPlantLoRead : Statement (Instr.timPlantLoRead) := ⟨rfl, Bool.noConfusion⟩
theorem lnkSeqCntClear : Statement (Instr.lnkSeqCntClear) := ⟨rfl, Bool.noConfusion⟩
theorem fbQerrCntClear (x0 : FbId) : Statement (Instr.fbQerrCntClear x0) := ⟨rfl, Bool.noConfusion⟩
theorem stgStatClear (x0 : StgId) (x1 : Word) : Statement (Instr.stgStatClear x0 x1) := ⟨rfl, Bool.noConfusion⟩
theorem bnkErrClear (x0 : BankId) (x1 : Word) : Statement (Instr.bnkErrClear x0 x1) := ⟨rfl, Bool.noConfusion⟩
theorem bnkCollCntClear (x0 : BankId) : Statement (Instr.bnkCollCntClear x0) := ⟨rfl, Bool.noConfusion⟩
theorem bnkPoolEnable : Statement (Instr.bnkPoolEnable) := ⟨rfl, Bool.noConfusion⟩
theorem bnkPoolCntClear : Statement (Instr.bnkPoolCntClear) := ⟨rfl, Bool.noConfusion⟩
theorem lnkPcntCntClear (x0 : Port) : Statement (Instr.lnkPcntCntClear x0) := ⟨rfl, Bool.noConfusion⟩
theorem lnkDomCntClear : Statement (Instr.lnkDomCntClear) := ⟨rfl, Bool.noConfusion⟩
theorem canCntClear (x0 : CanId) : Statement (Instr.canCntClear x0) := ⟨rfl, Bool.noConfusion⟩
theorem canTakeWrite (x0 : CanId) (x1 : Word) : Statement (Instr.canTakeWrite x0 x1) := ⟨rfl, Bool.noConfusion⟩
theorem registerWrite (x0 : RegBus) (x1 : Word) (x2 : Nat) (x3 : BitVec 64) : Statement (Instr.registerWrite x0 x1 x2 x3) := ⟨rfl, Bool.noConfusion⟩
theorem bar2Access (x0 : BitVec 25) (x1 : Nat) (x2 : Option (List Byte)) (x3 : List Nat) (x4 : List EccErr) : Statement (Instr.bar2Access x0 x1 x2 x3 x4) := ⟨rfl, Bool.noConfusion⟩
theorem bobbinAllocate (x0 : PoolUser) : Statement (Instr.bobbinAllocate x0) := ⟨rfl, Bool.noConfusion⟩
theorem bobbinRelease (x0 : Sample) : Statement (Instr.bobbinRelease x0) := ⟨rfl, Bool.noConfusion⟩
theorem scrubPass (x0 : BankId) (x1 : List EccErr) : Statement (Instr.scrubPass x0 x1) := ⟨rfl, Bool.noConfusion⟩
theorem bankClearDone (x0 : BankId) : Statement (Instr.bankClearDone x0) := ⟨rfl, Bool.noConfusion⟩
theorem expFrame (x0 : ExpId) (x1 : List (List Sample)) (x2 : Word) (x3 x4 : Bool) : Statement (Instr.expFrame x0 x1 x2 x3 x4) := ⟨rfl, Bool.noConfusion⟩
theorem expPreFilled (x0 : ExpId) : Statement (Instr.expPreFilled x0) := ⟨rfl, Bool.noConfusion⟩
theorem expTrigger (x0 : ExpId) (x1 : List (List Sample)) (x2 : Word) : Statement (Instr.expTrigger x0 x1 x2) := ⟨rfl, Bool.noConfusion⟩
theorem expHoldoffEnd (x0 : ExpId) : Statement (Instr.expHoldoffEnd x0) := ⟨rfl, Bool.noConfusion⟩
theorem expPostComplete (x0 : ExpId) (x1 : Word) : Statement (Instr.expPostComplete x0 x1) := ⟨rfl, Bool.noConfusion⟩
theorem fieldInputAccept (x0 : Fin 32) (x1 : Bool) : Statement (Instr.fieldInputAccept x0 x1) := ⟨rfl, Bool.noConfusion⟩
theorem inputOvervoltage (x0 : Fin 32) (x1 : Bool) : Statement (Instr.inputOvervoltage x0 x1) := ⟨rfl, Bool.noConfusion⟩
theorem outputShort (x0 : Fin 16) (x1 : Bool) : Statement (Instr.outputShort x0 x1) := ⟨rfl, Bool.noConfusion⟩
theorem outputOvertemp (x0 : Fin 16) : Statement (Instr.outputOvertemp x0) := ⟨rfl, Bool.noConfusion⟩
theorem outputOvertempRecover (x0 : Fin 16) : Statement (Instr.outputOvertempRecover x0) := ⟨rfl, Bool.noConfusion⟩
theorem outputOpenLoad (x0 : Fin 16) (x1 : Bool) : Statement (Instr.outputOpenLoad x0 x1) := ⟨rfl, Bool.noConfusion⟩
theorem outputShortSupply (x0 : Fin 16) (x1 : Bool) : Statement (Instr.outputShortSupply x0 x1) := ⟨rfl, Bool.noConfusion⟩
theorem vfieldReverse (x0 : Half) : Statement (Instr.vfieldReverse x0) := ⟨rfl, Bool.noConfusion⟩
theorem vfieldLow (x0 : Half) : Statement (Instr.vfieldLow x0) := ⟨rfl, Bool.noConfusion⟩
theorem vfieldRecover (x0 : Half) : Statement (Instr.vfieldRecover x0) := ⟨rfl, Bool.noConfusion⟩
theorem vfieldHigh (x0 : Half) (x1 : Bool) : Statement (Instr.vfieldHigh x0 x1) := ⟨rfl, Bool.noConfusion⟩
theorem outputWatchdogExpiry : Statement (Instr.outputWatchdogExpiry) := ⟨rfl, Bool.noConfusion⟩
theorem conversionEnd (x0 : Conv) (x1 : Sample) (x2 : Bool) (x3 : Word) : Statement (Instr.conversionEnd x0 x1 x2 x3) := ⟨rfl, Bool.noConfusion⟩
theorem canFrameReceive (x0 : CanId) (x1 : CanFrame) : Statement (Instr.canFrameReceive x0 x1) := ⟨rfl, Bool.noConfusion⟩
theorem canFrameTransmit (x0 : CanId) (x1 : Word) (x2 : Bool) : Statement (Instr.canFrameTransmit x0 x1 x2) := ⟨rfl, Bool.noConfusion⟩
theorem canError (x0 : CanId) (x1 : Bool) (x2 : Nat) : Statement (Instr.canError x0 x1 x2) := ⟨rfl, Bool.noConfusion⟩
theorem canRecoveryComplete (x0 : CanId) : Statement (Instr.canRecoveryComplete x0) := ⟨rfl, Bool.noConfusion⟩
theorem canModeApply (x0 : CanId) : Statement (Instr.canModeApply x0) := ⟨rfl, Bool.noConfusion⟩
theorem usbVbusDetect (x0 x1 : Bool) : Statement (Instr.usbVbusDetect x0 x1) := ⟨rfl, Bool.noConfusion⟩
theorem usbBulkOut (x0 : List SlotWord) (x1 : Nat) : Statement (Instr.usbBulkOut x0 x1) := ⟨rfl, Bool.noConfusion⟩
theorem usbStageTransfer (x0 : BitVec 128) (x1 : List Byte) : Statement (Instr.usbStageTransfer x0 x1) := ⟨rfl, Bool.noConfusion⟩
theorem usbInAck : Statement (Instr.usbInAck) := ⟨rfl, Bool.noConfusion⟩
theorem usbControlRequest (x0 : SlotWord) : Statement (Instr.usbControlRequest x0) := ⟨rfl, Bool.noConfusion⟩
theorem usbStatusStageTimeout : Statement (Instr.usbStatusStageTimeout) := ⟨rfl, Bool.noConfusion⟩
theorem usbBusReset (x0 : UsbStage) : Statement (Instr.usbBusReset x0) := ⟨rfl, Bool.noConfusion⟩
theorem usbCompletionDiscard : Statement (Instr.usbCompletionDiscard) := ⟨rfl, Bool.noConfusion⟩
theorem dfuManifestation (x0 : Bool) (x1 : Bool) : Statement (Instr.dfuManifestation x0 x1) := ⟨rfl, Bool.noConfusion⟩
theorem ethHello (x0 x1 : BitVec 128) (x2 : Word) : Statement (Instr.ethHello x0 x1 x2) := ⟨rfl, Bool.noConfusion⟩
theorem ethOpen (x0 : Rec32) : Statement (Instr.ethOpen x0) := ⟨rfl, Bool.noConfusion⟩
theorem ethRequestDatagram (x0 : Datagram) (x1 : List SlotWord) : Statement (Instr.ethRequestDatagram x0 x1) := ⟨rfl, Bool.noConfusion⟩
theorem ethStageDatagram (x0 : Datagram) (x1 : BitVec 128) (x2 : List Byte) : Statement (Instr.ethStageDatagram x0 x1 x2) := ⟨rfl, Bool.noConfusion⟩
theorem ethClose (x0 : Datagram) (x1 : Half) : Statement (Instr.ethClose x0 x1) := ⟨rfl, Bool.noConfusion⟩
theorem ethSessionIdleTimeout : Statement (Instr.ethSessionIdleTimeout) := ⟨rfl, Bool.noConfusion⟩
theorem ethCompletionResend : Statement (Instr.ethCompletionResend) := ⟨rfl, Bool.noConfusion⟩
theorem ethArpIcmp (x0 : Bool) (x1 : List Byte) : Statement (Instr.ethArpIcmp x0 x1) := ⟨rfl, Bool.noConfusion⟩
theorem resetRelease : Statement (Instr.resetRelease) := ⟨rfl, Bool.noConfusion⟩
theorem refclkRecover (x0 : BitVec 2) : Statement (Instr.refclkRecover x0) := ⟨rfl, Bool.noConfusion⟩
theorem blockLock (x0 : Port) (x1 : Bool) : Statement (Instr.blockLock x0 x1) := ⟨rfl, Bool.noConfusion⟩
theorem indexEdge (x0 : FbId) : Statement (Instr.indexEdge x0) := ⟨rfl, Bool.noConfusion⟩
theorem serialFrameTimeout (x0 : FbId) (x1 : Nat) : Statement (Instr.serialFrameTimeout x0 x1) := ⟨rfl, Bool.noConfusion⟩
theorem remoteKeyExpiry (x0 : BitVec 14) (x1 : RemoteKey) : Statement (Instr.remoteKeyExpiry x0 x1) := ⟨rfl, Bool.noConfusion⟩
theorem ethLinkChange (x0 : Bool) (x1 : BitVec 2) : Statement (Instr.ethLinkChange x0 x1) := ⟨rfl, Bool.noConfusion⟩
theorem usbSetConfiguration : Statement (Instr.usbSetConfiguration) := ⟨rfl, Bool.noConfusion⟩
theorem dfuDownload (x0 : Bool) (x1 : Half) (x2 : List Byte) : Statement (Instr.dfuDownload x0 x1 x2) := ⟨rfl, Bool.noConfusion⟩
theorem ptpDelayReqSend : Statement (Instr.ptpDelayReqSend) := ⟨rfl, Bool.noConfusion⟩
theorem conversionStart (x0 : Conv) : Statement (Instr.conversionStart x0) := ⟨rfl, Bool.noConfusion⟩
theorem bar0MemoryWrite (x0 : BitVec 24) (x1 : List Byte) : Statement (Instr.bar0MemoryWrite x0 x1) := ⟨rfl, Bool.noConfusion⟩

end Sys2Proof.Laws.Origin
end

