-- ==== Sys2Proof/Tests/Slice0.lean ====
section
/-! SUPPORT. The model's own tests: what WellFormed refuses, the manual's worked examples, and for every statement one
theorem `witness_<Name>` that shows, for each of its clauses, values that meet all the clause's hypotheses together. -/

open Sys2Proof Sys2Proof.Machine

/- One test after another: side by side they would need the stacks of many threads at once. -/
set_option Elab.async false

/-! Small states and values for the tests: the device serving, with one block changed. -/

def wO : Origin := ⟨0, 0, false, none⟩

def wD : Desc := ⟨0, 0, 0, 0, 0, some []⟩

def wM : MemSlot := ⟨0, 0, 0, 0, none⟩

def wX : StepInput := ⟨false, true, true, [], 0, [], []⟩

def wL : LongOp := ⟨.negativeSave wO, 0, 0, false, 0⟩

def wF : CanFrame := ⟨false, false, false, false, false, 0, 0, [], 0⟩

def wFr : Frame := ⟨0, 0, 0, 1, 0, [], .blocks⟩

def wB : Burst := ⟨.home, false, 0, 1, 0, []⟩

def wC : Cmpl := ⟨0, 0, true, false, false, 0, 0, 0, [], none⟩

def tUp : State :=
  { State.reset with
    pwr := { State.reset.pwr with ready := 0xFFFFFF, readyBank := 0xFFFFFFFF, readyFly := 0x1FFFF }
    host := { State.reset.host with pcieUp := true, busMaster := true, bench := true }
    seq := { State.reset.seq with running := true }
    mem := writePoolCfg (30 + 3 * 2 ^ 15 + 2 ^ 31) State.reset.mem }

def wAt (x : Strand) : State := { tUp with strands := tUp.strands.set 0 x }

def wSt (st : StrandSt) : State := wAt { Strand.reset with st := st }

def wE (x : Engine) : State := { tUp with engines := tUp.engines.set 0 x }

def wRun : Engine := { Engine.reset with run := .running }

def wEng : State := wE wRun

def wP (p : LinkPort) : State := { tUp with link := { tUp.link with ports := tUp.link.ports.set 0 p } }

def wPort : LinkPort := { LinkPort.reset true with ready := true, lock := 3, helloSeen := true }

def wB1 (x : Fb) : State := { tUp with fbs := tUp.fbs.set 0 x }

def wFb (mode : BitVec 3) : Fb := { Fb.reset with cfg := { Fb.reset.cfg with mode := mode } }

def wQ (x : Quad) : State := { tUp with quads := tUp.quads.set 0 x }

def wMb (k : MbId) (m : Mailbox) : State := { tUp with mb := tUp.mb.set k.val m k.isLt }

def wStop (st : DistState) : State := { tUp with dist := { tUp.dist with st := st } }

def wDat (bs : List Byte) : Desc := ⟨0, BitVec.ofNat 32 bs.length, 0, 0, 0, some bs⟩

def wOut (n : Word) : Desc := ⟨0, n, 0, 1, 0, some []⟩

def wG (x : Group) : State := { tUp with groups := tUp.groups.set 0 x }

def wCan (x : Can) : State := { tUp with cans := tUp.cans.set 0 x }

def wMem (m : Mem) : State := { tUp with mem := m }

def wSaf (q : Safety) : State := { tUp with saf := q }

def wLong (g : LongOp) : State := { tUp with dist := { tUp.dist with longs := [g] } }

def wBs (n : Nat) (l : List (Nat × Nat × Nat)) : List Byte :=
  l.foldl (fun b e => b.take e.1 ++ leBytes e.2.1 e.2.2 ++ b.drop (e.1 + e.2.1)) (List.replicate n 0)

def wRec : PathRec := ⟨0, false, 0, 0, 1, 0, [0], (0, 0)⟩

theorem wChecks (s : State) (o : Origin) (u : BitVec 64) (g : List Byte) (p : Password) (h : s.saf.password = some p)
    (hl : s.saf.lockout = false) (hh : passwordHash p.salt g = p.hash) :
    s.checkPassword o u g = (s.modSaf fun q => { q with failures := 0 }, true) := by
  unfold State.checkPassword State.checkAgainst; rw [h]; simp [hl, hh]

theorem wCalLen : calLen ≤ 0x10000 := by unfold calLen; omega

def wPly : PlyBlock := ⟨1, 1, 2, false, [0, 0], 0, [0, 0], none, [], [], [], 0, 0, 0, 0, 0, 0, 0, 0, 0, 0, 0, 0, 0⟩

def wBound (st : StrandSt) : Strand :=
  { Strand.reset with st := st, cfg := { StrandCfg.reset with binding := .virt, configured := true, profile := some ⟨false, 0, 0, 1, 0, 1, 1, 1, 1, 0⟩ } }

def wEngage : Engage := ⟨0, 0, true, 0, 0, 0, 0, 0, 0, 0, 0, 0, 0, true, 0, 0, 0, false, none, none, 0, false, 0, 0, 0, 0, 0⟩

def wAux : AuxCurve := ⟨false, 0, none, 0, 0, 1, 1, 1, 1, 0, 10, 0, 0, [(0, 0), (1, 0)]⟩

def wCalD : Desc := ⟨0, BitVec.ofNat 32 calLen, 0, 0, 0, some []⟩

theorem wCalServed : Served (.calWrite wO wCalD) wO tUp := by
  have h : (BitVec.ofNat 32 calLen).toNat = calLen := by
    have := wCalLen; rw [BitVec.toNat_ofNat]; exact Nat.mod_eq_of_lt (by omega)
  have h0 : (BitVec.ofNat 32 calLen) ≠ 0 := by
    intro e; rw [e] at h; unfold calLen at h; change 0 = _ at h; omega
  have hw : wellFormed (.calWrite wO wCalD) = true := by
    change (decide ((BitVec.ofNat 32 calLen).toNat = calLen) &&
      ((BitVec.ofNat 32 calLen != 0) && decide ((BitVec.ofNat 32 calLen).toNat ≤ 0x1000000))) = true
    rw [h, bne_iff_ne.mpr h0, decide_eq_true (le_trans wCalLen (by decide))]; simp
  exact ⟨rfl, rfl, rfl, rfl, rfl, rfl, by unfold acceptStatus; rw [hw]; decide, rfl, rfl⟩

def wUsb : State := { tUp with usb := { Usb.reset with speed := 1, configured := true } }

def wUsb4 (m : Mailbox) : State := { wUsb with mb := (wMb 4 m).mb }

def wEth : State := { tUp with eth := { Eth.reset with link := true, key := some 0, challenge := some (0, 0, 1), session := some 7 } }

def wClk (c : Clock) : State := { tUp with clk := c }

def wPwr (p : Power) : State := { tUp with pwr := p }

def wHost (h : HostIf) : State := { tUp with host := h }

def wServo (st : StrandSt) : Strand := { wBound st with cfg := { (wBound st).cfg with binding := .servo 0 0 } }

def wStopRun (t planned : Nat) (a : StopEnd) : StopRun := ⟨⟨0, [], none, 0, t⟩, false, a, planned⟩

def wStep : StepperBlock := ⟨1, 1, 0, 1, 1, 0, 1⟩

def wQrun : Quad := { Quad.reset with cfg := { QuadCfg.reset with run := true, dbl := true } }

def wStg (x : Stg) : State := { tUp with stgs := tUp.stgs.set 0 x }

def wEnt : StgEntry := ⟨100, false, false⟩

def wPr (x : Probe) : State := { tUp with probes := tUp.probes.set 0 x }

def wSch : Schedule := ⟨1, 125, 0, 0, [], [(0, ⟨0, 0, .home, none, 0, 1⟩)]⟩

def wLk (l : Link) : State := { tUp with link := l }

def wTd (d : TimeDom) : State := { tUp with time := { tUp.time with td1 := d } }

def wExp (x : Exp) : State := { tUp with exps := tUp.exps.set 0 x }

def wFio (x : FieldIo) : State := { tUp with fio := x }

def wIsl (x : IslandState) (c : SafetyCfg) : State := wSaf { Safety.reset with isles := Vector.replicate 2 x, cfg := c }

def wEstop : SafetyCfg := { SafetyCfg.factory with fns := Vector.replicate 4 { SafetyFn.factory with type := 1, inputs := [0, 1, 0, 0], zone := 1 } }

def wLive : Can := { Can.reset 0 with mode := 2, st := .active }

def wRule (dest : Nat) : CanRule := ⟨0, 0, 2, 63, dest, 0⟩

def wNeg : Negative := ⟨none, 0, 0, 0, SafetyCfg.factory, none, [], [], [], [], [], [], [], [], [], [], 100, [], [], []⟩

def wHead : CamHead := ⟨false, 1, 0, 4⟩

def wMap : State := wMem ({ tUp.mem with mapCount := 1, mapChain := [3] }.putEntry 0 0 0)

def wUser : State := wE { Engine.reset with pc := 0x1200 }

def wHalt (x : Strand) : State := { wAt x with engines := tUp.engines.set 0 { Engine.reset with run := .halted } }

def wScan (ir : ScanInstr) (low : Bool) : State := { tUp with pwr := { tUp.pwr with resetLow := low }, scan := ⟨false, ir⟩ }

def wCmp : CompareCfg := ⟨0, 20, false, 0, [⟨0, 0⟩]⟩

/-! WellFormed refuses every kind of value that is wrong in itself (R63, R64, R72): one ill-formed command for each check. -/

def wIn (n : Word) : Desc := ⟨0, n, 0, 0, 0, some []⟩

theorem test_illformed_system :
    ∀ i ∈ [Instr.systemReset wO 2, .setClockSources wO 0 0 1 0, .setClockSources wO 4 1 2 0, .setClockSources wO 0 1 2 2,
      .setWatermark wO 25 0 0, .setWatermark wO 0 1 2, .cancel wO 8 0, .cancel wO 0 32, .getCounters wO 2, .ping wO (List.replicate 49 0),
      .mbTags wO 8, .setLatencyTolerance wO 0x111 0, .setLatencyTolerance wO 0x900 0, .setDeviceState wO 3, .benchMode wO 2 0,
      .benchMode wO 1 (2 ^ 192), .regAccess wO 0 2 0, .flyerDebug wO 17 0, .flyerDebug wO 0 3], WellFormed i = false := by decide +kernel

theorem test_illformed_strands :
    ∀ i ∈ [Instr.strandBind wO 256 0 0 0xFF, .strandBind wO 0 4 0 0xFF, .strandBind wO 0 1 48 0, .strandBind wO 0 1 0 0xFF,
      .strandBind wO 0 2 16 0xFF, .strandConfig wO 0 0 0 1 1 0 0, .strandConfig wO 0 1 1 1 1 0 0, .strandConfig wO 0 1 0 1 1 3 0,
      .strandArm wO 256, .strandEnable wO 256, .strandDisable wO 256, .stop wO 0 2 0, .stopNow wO 256, .faultReset wO 256,
      .setTransfer wO 0 2 0, .setSource wO 0 3 0 0 0, .setSource wO 0 1 16 0 0, .strandHold wO 0 2, .strandRead wO 256,
      .profileSet wO 0 ⟨0, 0, 0, 0, 0, 1, 1, 1, 1⟩, .profileSet wO 0 ⟨1, 1, 0, 1, 0, 0, 1, 1, 1⟩, .profileSet wO 0 ⟨2, 0, 0, 1, 0, 1, 1, 1, 1⟩,
      .moveAbs wO 256 0, .moveRel wO 256 0, .jog wO 256 0, .plyCoeff wO 0 3 (wIn 8)], WellFormed i = false := by decide

theorem test_illformed_paths_cams_skeins :
    ∀ i ∈ [Instr.groupDefine wO 32 1 [0], .groupDefine wO 0 0 [], .groupDefine wO 0 2 [1, 1], .groupDefine wO 0 1 [256],
      .pathQueue wO 32 (wIn 96), .pathQueue wO 0 (wIn 95), .pathStart wO 32, .pathStop wO 32 0, .camLoad wO 64 4 (wIn 64),
      .camLoad wO 0 3 (wIn 56), .camLoad wO 0 4 (wIn 65), .camSwap wO 64, .camEdit wO 0 0 (wIn 7), .camRead wO 0 2 (wOut 64),
      .skeinDefine wO 64 0 0 (wIn 64), .skeinDefine wO 0 0x1000000 0 (wIn 64), .skeinDefine wO 0 0 3 (wIn 64), .skeinDefine wO 0 256 0 (wIn 64),
      .skeinEngage wO 64 0 0, .skeinDisengage wO 0 256 0, .regTrim wO 0 16 0 0 0, .pubmapWrite wO 0x1000000 0, .pubmapWrite wO 0 0x40000,
      .setHoldCycles wO 0 0, .setHoldCycles wO 0 17], WellFormed i = false := by decide

theorem test_illformed_drives_and_feedback :
    ∀ i ∈ [Instr.quadConfig wO 12 0 0 50000 0 0, .quadConfig wO 0 4 0 50000 0 0, .quadConfig wO 0 0 0 49999 0 0, .quadConfig wO 0 0 0 50001 0 0,
      .quadConfig wO 0 0 1 50000 1 0, .quadConfig wO 0 0 0 50000 0 50000, .deadtimeSet wO 0 12 0, .sdfConfig wO 0 0 64 8,
      .sdfConfig wO 0 20000000 65 8, .tripConfig wO 0 12 0 0, .tripConfig wO 0 16 0 4, .auxCurve wO 256 0 (wIn 48), .auxCommand wO 256 0,
      .stepperConfig wO 6 500 0 0, .stepperConfig wO 0 499 0 0, .microstepTable wO 0 (wIn 767), .enlargerSet wO 0 0 1 0,
      .stepgenConfig wO 16 20 0, .stepgenConfig wO 0 19 0, .tableStep wO 0 1024 0, .fbConfig wO 48 0 0 0 50, .fbConfig wO 0 7 0 0 50,
      .fbConfig wO 0 0 257 0 50, .fbConfig wO 0 0 0 0 49, .fbConfig wO 0 3 0 7 0x010A0032, .probeArm wO 16 0 0 0 0, .probeArm wO 0 3 0 0 0,
      .compareLoad wO 24 0 20 (wIn 24), .compareLoad wO 0 0 19 (wIn 24), .fbRead wO 0x30], WellFormed i = false := by decide

theorem test_illformed_flyers_memory_link :
    ∀ i ∈ [Instr.flyerLoad wO 16 (wIn 64) false, .flyerAssign wO 17 0, .flyerAssign wO 0 16, .engineRetire wO 17, .memRead wO 0x02000000 (wOut 8),
      .memWrite wO 0x01FFFFFF (wIn 2), .memRepair wO 32 0, .memRepair wO 0 512, .bankPower wO 0 3, .stageOpen wO 0,
      .stageWrite wO 0 0 45 0 (List.replicate 45 0), .stageWrite wO 0 0 1 0 [], .stageRead wO 0 0 49, .linkStatus wO 4,
      .scheduleWrite wO 0 0 (wIn 32), .scheduleWrite wO 0 1 (wIn 33), .setCycle wO 15, .setCycle wO 16385, .publishDefine wO 511 0 0,
      .publishDefine wO 512 48 1, .hostSubscribe wO (wIn 6), .timeSelect wO 0, .timePriority wO 1 16,
      .ptpConfig wO ⟨2, 0, 0, 0, 0, 0, 0, 0⟩, .ptpConfig wO ⟨0, 0, 5, 0, 0, 0, 0, 0⟩], WellFormed i = false := by decide

theorem test_illformed_safety_field_service :
    ∀ i ∈ [Instr.safetyRead wO (wOut 335), .safetyWrite wO (2 ^ 192) (wIn 288), .safetyConfirm wO (2 ^ 192) 0, .safetyPassword wO 0 0 0 0,
      .expConfig wO 8 (wIn 192), .expConfig wO 0 (wIn 191), .expArm wO 8, .expRead wO 8 (wOut 8), .expDisarm wO 8, .ioConfig wO (wIn 15),
      .watchdogSet wO 0, .watchdogSet wO 1001, .convTable wO 2 (wIn 24), .convTable wO 0 (wIn 23), .convRead wO 2, .crosscheckSet wO 17 0 0,
      .crosscheckSet wO 0 0x40000 0, .canConfig wO 4 (wIn 48), .canFilter wO 0 (wIn 8), .canBus wO 0 3, .canSend wO 0 64 (wIn 16),
      .canSend wO 0 0 (wIn 15), .fwWrite wO 2 0 0 (wIn 8) true, .fwWrite wO 0 0x200000 0 (wIn 1) true, .selfTest wO 0 0], WellFormed i = false := by decide +kernel

/-- The descriptor's own form: reserved bytes, direction, length 0, host memory for MB4, an unknown kind (R64). -/
theorem test_illformed_descriptors :
    ∀ i ∈ [Instr.expConfig wO 0 { wIn 192 with rsv := 1 }, .expConfig wO 0 { wIn 192 with dir := 1 }, .camEdit wO 0 0 (wIn 0),
      .expConfig { wO with mb := 4 } 0 (wIn 192), .expConfig wO 0 { wIn 192 with kind := 2 }, .memRead wO 0 (wOut 0x1000001)],
      WellFormed i = false := by decide

theorem test_wellformed :
    ∀ i ∈ [Instr.systemReset wO 1, .ping wO (List.replicate 48 0), .strandBind wO 255 1 47 0, .profileSet wO 0 ⟨1, 0, 0, 1, 0, 0, 1, 1, 1⟩,
      .quadConfig wO 11 3 0 50000 0 0, .camLoad wO 63 4 (wIn 64), .setCycle wO 16384, .memWrite wO 0x01FFFFFF (wIn 1), .watchdogSet wO 1000],
      WellFormed i = true := by decide

/-! The manual's worked examples. -/

/-- 03_host_interface.md, the MB0 response ring: mark 48, hysteresis 8. -/
def wRing (lvl : Nat) (armed : Bool) (notice : BitVec 25) : State :=
  { tUp with host := { tUp.host with wm := tUp.host.wm.set 8 ⟨48, 8, armed, lvl⟩, notice := notice } }

theorem test_watermark_crosses : ((wRing 40 true 0).setLevel 8 48).host.notice.getLsbD 8 = true := by decide
theorem test_watermark_stays_unarmed : ((wRing 44 false 0).setLevel 8 50).host.notice.getLsbD 8 = false := by decide
theorem test_watermark_rearms : ((wRing 50 false 0).setLevel 8 38).host.wm[(8 : Fin 25)].armed = true := by decide

/-- 11_flyer_engines.md, first maximum of eight samples: sample 2 is taken with a1 = 0x204, sample 4 equals it and is not. -/
def wMax (v a : Nat) : State :=
  wE { Engine.reset with pc := 0x1200, bg := { FlBank.reset with d := (FlBank.reset.d.set 9 (BitVec.ofNat 18 v)).set 12 0x03A00 }, a := Engine.reset.a.set 1 (BitVec.ofNat 20 a) }

/-- What a command leaves, where it completes. -/
def after (i : Instr) (s : State) : State :=
  match exec i s with
  | .next t => t
  | _ => s

theorem test_maxi_takes_a_greater_sample :
    ((after (.flMaxi 0 12 9 1 wM) (wMax 0x10200 0x204)).engines[(0 : EngineId)].d 12,
      (after (.flMaxi 0 12 9 1 wM) (wMax 0x10200 0x204)).engines[(0 : EngineId)].d 13) = (0x10200, 0x204) := by decide +kernel
theorem test_maxi_leaves_an_equal_sample :
    (after (.flMaxi 0 12 9 1 wM) (wMax 0x03A00 0x206)).engines[(0 : EngineId)].d 13 = 0 := by decide +kernel

/-- 11_flyer_engines.md, the exception table: cause 5 in the delay slot of the branch at 0x1200. -/
theorem test_delay_slot_exception_saves_the_branch :
    (((wE { Engine.reset with pc := 0x1201, delay := some (0x1200, some 0x1240) }).trap 0 5 0).engines[(0 : EngineId)].bg.xpc,
      ((wE { Engine.reset with pc := 0x1201, delay := some (0x1200, some 0x1240) }).trap 0 5 0).engines[(0 : EngineId)].bg.xcause)
      = (0x1200, 5) := by decide +kernel

/-- 12_memory_fabric.md R219: byte 2 rewrites bits 17:16 of sample 0 and bits 5:0 of sample 1. -/
theorem test_byte_two_lies_in_samples_zero_and_one :
    ((Mem.reset.mergeByte 2 0xFF).sample 0, (Mem.reset.mergeByte 2 0xFF).sample 1, (Mem.reset.mergeByte 2 0xFF).sample 2)
      = (0x30000, 0x3F, 0) := by decide

/-- 12_memory_fabric.md, the last bobbin: the link takes it, the distaff then finds none, and its release is a notice. -/
theorem test_last_bobbin :
    ({ Mem.reset with poolEn := true, head := 0x1A2F, freeCount := 1 }.alloc.2, { Mem.reset with poolEn := true }.alloc.2,
      ({ Mem.reset with poolEn := true, poolCount := 0x2000, used := [0x1A2F] }.release 0x1A2F).head) = (some 0x1A2F, none, 0x1A2F) := by
  decide +kernel

/-- 10_feedback.md R172, R173: A leads B by a quarter, and one edge counts one up. -/
theorem test_quadrature_counts_up :
    ((after (.quadratureEdge 0 true false 0) (wB1 (wFb 1))).fbs[(0 : FbId)].count) = 1 := by decide +kernel

/-- FIPS 180-4: the digest of "abc". -/
theorem test_sha256_abc :
    sha256 [0x61, 0x62, 0x63] = beBytes 32 0xba7816bf8f01cfea414140de5dae2223b00361a396177a9cb410ff61f20015ad := by decide +kernel

/-- R72: PING returns its bytes. -/
theorem test_ping_returns_its_bytes :
    ((after (.ping wO [1, 2, 3]) tUp).mb[(0 : MbId)].pend.map fun c => (c.status, c.result)) = [(0, [1, 2, 3])] := by decide

/-- An empty queue idles; a command at the front is taken off it (the row's step). -/
theorem test_idle : step State.reset = .next State.reset := rfl
theorem test_step_takes_the_front : (match step { tUp with pending := [.ping wO [], .identify wO] } with
    | .next t => t.pending
    | _ => []) = [.identify wO] := by decide

/-! Witnesses: the hypotheses of each clause of each statement can be met together. -/

theorem witness_StepRunsTheFrontCommand :
    (∃ (s : State) (c : Instr) (rest : List Instr), s.pending = c :: rest) ∧
    (∃ (s : State), s.pending = []) :=
  ⟨⟨{ tUp with pending := [.identify wO] }, (.identify wO), [], by decide⟩,
   ⟨tUp, by decide⟩⟩

theorem witness_StepsKeepTheStoresCanonical :
    ∃ (s : State) (t : State), Canonical s ∧ step s = .next t :=
  ⟨tUp, tUp, by decide, rfl⟩

theorem witness_RequestSlotsSpellTheirCommands :
    ∃ (i : Instr) (o : Origin), originOf i = some o ∧ WellFormed i = true :=
  ⟨(.identify wO), wO, by decide⟩

theorem witness_ARequestEndsAtTheFirstCheckThatFails :
    (∃ (i : Instr) (o : Origin) (s : State), originOf i = some o ∧ s.dist.st = .running ∧ s.isReady rdyMailboxes = true ∧ s.mb[o.mb].full = false ∧ firstOf o.mb s.dist.inHand = none ∧ turnOpen s o.mb = true ∧ acceptStatus i o s ≠ stOk) ∧
    (∃ (i : Instr) (o : Origin) (s : State), originOf i = some o ∧ s.dist.st ≠ .running ∧ s.isReady rdyMailboxes = true ∧ s.mb[o.mb].full = false) ∧
    (∃ (i : Instr) (o : Origin) (s : State), originOf i = some o ∧ s.dist.st = .running ∧ s.isReady rdyMailboxes = true ∧ s.mb[o.mb].full = false ∧ firstOf o.mb s.dist.inHand = none ∧ turnOpen s o.mb = true ∧ acceptStatus i o s = stOk ∧ s.owedFor i = none ∧ originRefuses o.mb ((opcodeOf i).getD 0).toNat = true) :=
  ⟨⟨(.identify wO), wO, wMb 0 { Mailbox.reset with held := 1 }, by decide⟩,
   ⟨(.identify wO), wO, wStop .switching, by decide⟩,
   ⟨.identify { wO with mb := 7 }, { wO with mb := 7 }, tUp, by decide⟩⟩

theorem witness_ADoorbellBeforeTheMailboxesIsIgnored :
    (∃ (mb : MbId) (value : Word) (s : State), s.host.pcieUp = true ∧ mb.val < 4 ∧ s.isReady rdyMailboxes = false) ∧
    (∃ (mb : MbId) (dma : DmaInput) (s : State), (s.isReady rdyMailboxes = false ∨ s.mb[mb].reqPi = s.mb[mb].reqCi)) ∧
    (∃ (mb : MbId) (value : Word) (s : State), s.host.pcieUp = true ∧ mb.val < 4 ∧ s.isReady rdyMailboxes = true ∧ ((value.truncate 7 : BitVec 7) - s.mb[mb].reqCi).toNat ≤ 64 ∧ (s.mb[mb].reqPi - s.mb[mb].reqCi).toNat ≤ ((value.truncate 7 : BitVec 7) - s.mb[mb].reqCi).toNat) ∧
    (∃ (mb : MbId) (dma : DmaInput) (s : State), s.dist.st = .running ∧ s.isReady rdyMailboxes = true ∧ s.mb[mb].reqPi ≠ s.mb[mb].reqCi ∧ s.mb[mb].full = false ∧ turnOpen s mb = true) :=
  ⟨⟨0, 0, { tUp with pwr := Power.reset }, by decide⟩,
   ⟨0, ⟨none, 0, false⟩, tUp, by decide⟩,
   ⟨0, 64, tUp, by decide⟩,
   ⟨0, ⟨none, 0, false⟩, wMb 0 { Mailbox.reset with reqPi := 1 }, by decide⟩⟩

theorem witness_RequestsAreCopiedInRingOrder :
    (∃ (mb : MbId) (dma : DmaInput) (s : State) (i : Instr), s.dist.st = .running ∧ s.isReady rdyMailboxes = true ∧ mb.val < 6 ∧ s.mb[mb].reqPi ≠ s.mb[mb].reqCi ∧ s.mb[mb].full = false ∧ turnOpen s mb = true ∧ (requestOf s.mb[mb].req[(Fin.ofNat 64 s.mb[mb].reqCi.toNat)]).remote = false) ∧
    (∃ (mb : MbId) (value : Word) (s : State), s.host.pcieUp = true ∧ mb.val < 4) ∧
    (∃ (mb : MbId) (s : State), s.dist.st ≠ .running ∧ s.isReady rdyMailboxes = true ∧ mb.val < 6 ∧ s.mb[mb].reqPi ≠ s.mb[mb].reqCi ∧ s.mb[mb].full = false) ∧
    (∃ (mb : MbId) (dma : DmaInput) (s : State) (i : Instr), s.dist.st = .running ∧ s.isReady rdyMailboxes = true ∧ mb.val < 6 ∧ s.mb[mb].reqPi ≠ s.mb[mb].reqCi ∧ s.mb[mb].full = false ∧ turnOpen s mb = true ∧ (requestOf s.mb[mb].req[(Fin.ofNat 64 s.mb[mb].reqCi.toNat)]).remote = false ∧ (requestOf s.mb[mb].req[(Fin.ofNat 64 s.mb[mb].reqCi.toNat)]).command ⟨mb, (requestOf s.mb[mb].req[(Fin.ofNat 64 s.mb[mb].reqCi.toNat)]).tag, (requestOf s.mb[mb].req[(Fin.ofNat 64 s.mb[mb].reqCi.toNat)]).irq, none⟩ dma = some i ∧ tagHeld s mb (requestOf s.mb[mb].req[(Fin.ofNat 64 s.mb[mb].reqCi.toNat)]).tag = false) ∧
    (∃ (mb : MbId) (dma : DmaInput) (s : State), s.dist.st = .running ∧ s.isReady rdyMailboxes = true ∧ mb.val < 6 ∧ s.mb[mb].reqPi ≠ s.mb[mb].reqCi ∧ s.mb[mb].full = false ∧ turnOpen s mb = true ∧ (requestOf s.mb[mb].req[(Fin.ofNat 64 s.mb[mb].reqCi.toNat)]).remote = false ∧ tagHeld s mb (requestOf s.mb[mb].req[(Fin.ofNat 64 s.mb[mb].reqCi.toNat)]).tag = true) :=
  ⟨⟨0, ⟨none, 0, false⟩, wMb 0 { Mailbox.reset with reqPi := 1 }, (.identify wO), by decide +kernel⟩,
   ⟨0, 0, tUp, by decide⟩,
   ⟨0, { wMb 0 { Mailbox.reset with reqPi := 1 } with dist := (wStop .switching).dist }, by decide⟩,
   ⟨0, ⟨none, 0, false⟩, wMb 0 { Mailbox.reset with reqPi := 1, req := Mailbox.reset.req.set 0 (requestSlot (.identify wO) wO) }, .identify wO, by decide +kernel⟩,
   ⟨0, ⟨none, 0, false⟩, wMb 0 { Mailbox.reset with reqPi := 1, req := Mailbox.reset.req.set 0 (requestSlot (.identify wO) wO), held := 1 }, by decide +kernel⟩⟩

theorem witness_CompletionsAreWrittenWithThePhase :
    (∃ (mb : MbId) (c : Cmpl) (s : State) (k : Fin 64), nextCmpl s.mb[mb] = some c ∧ s.mb[mb].full = false ∧ s.dist.stopAfter = none ∧ mb.val < 4 ∧ k ≠ Fin.ofNat 64 s.mb[mb].rspPi.toNat) ∧
    (∃ (mb : MbId) (c : Cmpl) (s : State) (k : MbId), nextCmpl s.mb[mb] = some c ∧ s.mb[mb].full = false ∧ s.dist.stopAfter = none ∧ mb.val < 4 ∧ k ≠ mb) ∧
    (∃ (mb : MbId) (s : State), (s.mb[mb].full = true ∨ nextCmpl s.mb[mb] = none)) :=
  ⟨⟨0, wC, wMb 0 { Mailbox.reset with pend := [wC] }, 1, by decide⟩,
   ⟨0, wC, wMb 0 { Mailbox.reset with pend := [wC] }, 1, by decide⟩,
   ⟨0, tUp, by decide⟩⟩

theorem witness_PhaseStartsAtOneAndTurnsEachPass :
    (∃ (s : State), (s.pwr.held = true ∨ s.pwr.coldDue = true)) ∧
    (∃ (s : State) (m : MbId), (s.pwr.held = true ∨ s.pwr.coldDue = true)) ∧
    (∃ (s : State), s.pwr.held = false ∧ s.pwr.coldDue = false) ∧
    (∃ (mb : MbId) (c : Cmpl) (s : State), mb.val < 4 ∧ s.dist.stopAfter = none ∧ nextCmpl s.mb[mb] = some c ∧ s.mb[mb].full = false) :=
  ⟨⟨{ tUp with pwr := { tUp.pwr with held := true } }, by decide⟩,
   ⟨{ tUp with pwr := { tUp.pwr with held := true } }, 0, by decide⟩,
   ⟨tUp, by decide⟩,
   ⟨0, wC, wMb 0 { Mailbox.reset with pend := [wC] }, by decide⟩⟩

theorem witness_RemoteCommandsCrossTheLinkOnce :
    (∃ (src : BitVec 14) (key : RemoteKey) (slot : SlotWord) (s : State), (s.rec_.keys.find? fun k => k.src == src && k.key == key) = none ∧ s.rec_.keys.length < 8192 ∧ s.isReady rdyMailboxes = true ∧ (s.mb[(6 : MbId)].reqPi - s.mb[(6 : MbId)].reqCi).toNat < 64) ∧
    (∃ (src : BitVec 14) (key : RemoteKey) (slot : SlotWord) (s : State) (k : KeptKey), (s.rec_.keys.find? fun k => k.src == src && k.key == key) = some k) ∧
    (∃ (src : BitVec 14) (key : RemoteKey) (slot : SlotWord) (s : State) (r : RemoteCmd), (s.rec_.remotes.find? fun r => r.rseq == key.rseq && r.target == src) = some r) ∧
    (∃ (src : BitVec 14) (key : RemoteKey) (slot : SlotWord) (s : State), (s.rec_.remotes.find? fun r => r.rseq == key.rseq && r.target == src) = none) ∧
    (∃ (rseq : Word) (s : State), s.rec_.remotes.any (fun r => r.rseq == rseq && !r.timer) = true) ∧
    (∃ (rseq : Word) (s : State), s.rec_.remotes.any (fun r => r.rseq == rseq && r.timer) = true) :=
  ⟨⟨0, ⟨0, 0, 0⟩, 0, tUp, by decide⟩,
   ⟨0, ⟨0, 0, 0⟩, 0, { tUp with rec_ := { tUp.rec_ with keys := [⟨0, ⟨0, 0, 0⟩, none⟩] } }, ⟨0, ⟨0, 0, 0⟩, none⟩, by decide⟩,
   ⟨0, ⟨0, 0, 0⟩, 0, { tUp with rec_ := { tUp.rec_ with remotes := [⟨0, 0, 0, 0, false, 0, false⟩] } }, ⟨0, 0, 0, 0, false, 0, false⟩, by decide⟩,
   ⟨0, ⟨0, 0, 0⟩, 0, tUp, by decide⟩,
   ⟨0, { tUp with rec_ := { tUp.rec_ with remotes := [⟨0, 0, 0, 0, false, 0, false⟩] } }, by decide⟩,
   ⟨0, { tUp with rec_ := { tUp.rec_ with remotes := [⟨0, 0, 0, 0, false, 0, true⟩] } }, by decide⟩⟩

theorem witness_ReportingCommandsAnswerAndChangeNothing :
    (∃ (o : Origin) (s : State), Served (.identify o) o s) ∧
    (∃ (o : Origin) (bytes : List Byte) (s : State), Served (.ping o bytes) o s) ∧
    (∃ (o : Origin) (mailbox : Byte) (s : State), Served (.mbTags o mailbox) o s) ∧
    (∃ (o : Origin) (s : State), Served (.getCounters o 0) o s) ∧
    (∃ (o : Origin) (s : State), Served (.fwStatus o) o s) ∧
    (∃ (o : Origin) (unit : Byte) (s : State), Served (.fbRead o unit) o s) ∧
    (∃ (o : Origin) (converter : Byte) (s : State), Served (.convRead o converter) o s) ∧
    (∃ (o : Origin) (s : State), Served (.timeRead o) o s) ∧
    (∃ (o : Origin) (port : Byte) (s : State), Served (.linkStatus o port) o s) :=
  ⟨⟨wO, tUp, by decide⟩,
   ⟨wO, [], tUp, by decide⟩,
   ⟨wO, 0, tUp, by decide⟩,
   ⟨wO, tUp, by decide⟩,
   ⟨wO, tUp, by decide⟩,
   ⟨wO, 0, tUp, by decide⟩,
   ⟨wO, 0, tUp, by decide⟩,
   ⟨wO, tUp, by decide⟩,
   ⟨wO, 0, tUp, by decide⟩⟩

theorem witness_ReadsThatClearOrWriteTheirBuffer :
    (∃ (o : Origin) (s : State), Served (.getCounters o 1) o s) ∧
    (∃ (o : Origin) (s : State), Served (.getPower o) o s) ∧
    (∃ (o : Origin) (strand : Half) (s : State), Served (.strandRead o strand) o s) ∧
    (∃ (o : Origin) (s : State), Served (.ioDiag o) o s) ∧
    (∃ (o : Origin) (desc : Desc) (s : State) (t : State), Served (.safetyRead o desc) o s ∧ writeDesc (s.holdTag o.mb o.tag) desc 0 (storedBytes s.saf.stored.1 ++ List.replicate 48 0) = .ok t) ∧
    (∃ (o : Origin) (desc : Desc) (s : State) (t : State), Served (.safetyLogRead o desc) o s ∧ writeDesc (s.holdTag o.mb o.tag) desc 0 ((s.saf.log.take (desc.len.toNat / 32)).flatMap changeBytes) = .ok t) ∧
    (∃ (o : Origin) (desc : Desc) (s : State) (t : State), Served (.calRead o desc) o s ∧ writeDesc (s.holdTag o.mb o.tag) desc 0 (calBytes s.rec_) = .ok t) :=
  ⟨⟨wO, tUp, by decide⟩,
   ⟨wO, tUp, by decide⟩,
   ⟨wO, 0, tUp, by decide⟩,
   ⟨wO, tUp, by decide⟩,
   ⟨wO, wOut 336, tUp, _, by decide, rfl⟩,
   ⟨wO, wOut 32, tUp, _, by decide, rfl⟩,
   ⟨wO, wOut 0x10000, tUp, _, ⟨rfl, rfl, rfl, rfl, rfl, rfl, (by
      have h : wellFormed (.calRead wO (wOut 0x10000)) = true := by simp only [wellFormed, argsOk]; rw [decide_eq_true (show calLen ≤ (wOut 0x10000).len.toNat from wCalLen)]; rfl
      unfold acceptStatus; rw [h]; decide), rfl, rfl⟩, rfl⟩⟩

theorem witness_SystemAndPowerCommandsAct :
    (∃ (o : Origin) (flags : Byte) (s : State), Served (.systemReset o flags) o s) ∧
    (∃ (o : Origin) (s : State), Served (.distaffRestart o) o s) ∧
    (∃ (o : Origin) (s : State), Served (.fwSwitch o) o s) ∧
    (∃ (o : Origin) (pri0 : Byte) (pri1 : Byte) (pri2 : Byte) (revert : Byte) (s : State), Served (.setClockSources o pri0 pri1 pri2 revert) o s) ∧
    (∃ (o : Origin) (source : Byte) (mark : Word) (hyst : Word) (s : State), Served (.setWatermark o source mark hyst) o s) ∧
    (∃ (o : Origin) (function : Half) (ns : Word) (s : State), Served (.setLatencyTolerance o function ns) o s) ∧
    (∃ (o : Origin) (s : State), Served (.setDeviceState o 0) o s) ∧
    (∃ (o : Origin) (s : State), Served (.setDeviceState o 1) o s ∧ anyMoving (armedView (s.holdTag o.mb o.tag)) = false) ∧
    (∃ (o : Origin) (s : State), Served (.setDeviceState o 2) o s ∧ anyMoving (armedView (s.holdTag o.mb o.tag)) = false) ∧
    (∃ (o : Origin) (state : Byte) (s : State), Served (.setDeviceState o state) o s ∧ state ≠ 0 ∧ anyMoving (armedView (s.holdTag o.mb o.tag)) = true) :=
  ⟨⟨wO, 1, tUp, by decide⟩,
   ⟨wO, tUp, by decide⟩,
   ⟨wO, tUp, by decide⟩,
   ⟨wO, 0, 1, 2, 0, tUp, by decide⟩,
   ⟨wO, 0, 0, 0, tUp, by decide⟩,
   ⟨wO, 0x100, 0, tUp, by decide⟩,
   ⟨wO, tUp, by decide⟩,
   ⟨wO, tUp, by decide +kernel⟩,
   ⟨wO, tUp, by decide +kernel⟩,
   ⟨wO, 2, wSt .stopping, by decide +kernel⟩⟩

theorem witness_BenchAndDebugCommandsAct :
    (∃ (o : Origin) (password : Rec32) (s : State), Served (.benchMode o 0 password) o s) ∧
    (∃ (o : Origin) (on : Byte) (password : Rec32) (s : State) (t : State), Served (.benchMode o on password) o s ∧ on ≠ 0 ∧ (s.holdTag o.mb o.tag).checkPassword o 0 (bytesOf password) = (t, true)) ∧
    (∃ (o : Origin) (on : Byte) (password : Rec32) (s : State) (t : State), Served (.benchMode o on password) o s ∧ on ≠ 0 ∧ (s.holdTag o.mb o.tag).checkPassword o 0 (bytesOf password) = (t, false)) ∧
    (∃ (o : Origin) (address : Word) (write : Byte) (value : Word) (s : State), Served (.regAccess o address write value) o s ∧ s.host.bench = false) ∧
    (∃ (o : Origin) (address : Word) (write : Byte) (value : Word) (s : State), Served (.regAccess o address write value) o s ∧ s.host.bench = true ∧ write ≠ 0 ∧ islandAddr address.toNat = true) ∧
    (∃ (o : Origin) (address : Word) (write : Byte) (value : Word) (s : State), Served (.regAccess o address write value) o s ∧ s.host.bench = true ∧ write ≠ 0 ∧ islandAddr address.toNat = false ∧ touchedWords address.toNat = none) ∧
    (∃ (o : Origin) (address : Word) (write : Byte) (value : Word) (s : State) (lo : Nat) (hi : Nat), Served (.regAccess o address write value) o s ∧ s.host.bench = true ∧ write ≠ 0 ∧ islandAddr address.toNat = false ∧ touchedWords address.toNat = some (lo, hi)) ∧
    (∃ (o : Origin) (address : Word) (value : Word) (s : State), Served (.regAccess o address 0 value) o s ∧ s.host.bench = true ∧ touchedWords address.toNat = none) ∧
    (∃ (o : Origin) (address : Word) (value : Word) (s : State) (lo : Nat) (hi : Nat), Served (.regAccess o address 0 value) o s ∧ s.host.bench = true ∧ touchedWords address.toNat = some (lo, hi)) ∧
    (∃ (o : Origin) (engine : Byte) (action : Byte) (s : State), Served (.flyerDebug o engine action) o s ∧ s.host.bench = false) ∧
    (∃ (o : Origin) (engine : Byte) (s : State), Served (.flyerDebug o engine 0) o s ∧ s.host.bench = true) ∧
    (∃ (o : Origin) (engine : Byte) (s : State), Served (.flyerDebug o engine 1) o s ∧ s.host.bench = true ∧ s.engines[engineIx engine].run = .debug ∧ 4096 ≤ s.engines[engineIx engine].pc.toNat) ∧
    (∃ (o : Origin) (engine : Byte) (s : State), Served (.flyerDebug o engine 2) o s ∧ s.host.bench = true ∧ s.engines[engineIx engine].run = .debug) ∧
    (∃ (o : Origin) (engine : Byte) (s : State), Served (.flyerDebug o engine 2) o s ∧ s.host.bench = true ∧ s.engines[engineIx engine].run ≠ .debug) :=
  ⟨⟨wO, 0, tUp, by decide⟩,
   ⟨wO, 1, 0, wSaf { Safety.reset with password := some ⟨0, passwordHash 0 (bytesOf 0)⟩ }, _, by decide, by decide, wChecks _ _ _ _ _ rfl rfl rfl⟩,
   ⟨wO, 1, 0, tUp, _, by decide, by decide, rfl⟩,
   ⟨wO, 0, 0, 0, { tUp with host := { tUp.host with bench := false } }, by decide⟩,
   ⟨wO, 0x80600000, 1, 0, tUp, by decide⟩,
   ⟨wO, 0x80000000, 1, 0, tUp, by decide⟩,
   ⟨wO, 0, 1, 0, tUp, _, _, by decide, by decide, by decide, by decide, rfl⟩,
   ⟨wO, 0x80000000, 0, tUp, by decide⟩,
   ⟨wO, 0, 0, tUp, _, _, by decide, by decide, rfl⟩,
   ⟨wO, 0, 0, { tUp with host := { tUp.host with bench := false } }, by decide⟩,
   ⟨wO, 0, tUp, by decide⟩,
   ⟨wO, 0, wE { Engine.reset with pc := 0x1200, run := .debug }, by decide⟩,
   ⟨wO, 0, wE { Engine.reset with run := .debug }, by decide⟩,
   ⟨wO, 0, tUp, by decide⟩⟩

theorem witness_StagingAndPoolCommandsAct :
    (∃ (o : Origin) (length : Word) (s : State) (t : State) (l : List Nat), Served (.stageOpen o length) o s ∧ s.mem.stages.length < 16 ∧ s.mem.poolEn = true ∧ (s.holdTag o.mb o.tag).grabN ((length.toNat + 255) / 256) = some (t, l)) ∧
    (∃ (o : Origin) (length : Word) (s : State), Served (.stageOpen o length) o s ∧ (16 ≤ s.mem.stages.length ∨ s.mem.poolEn = false ∨ (s.holdTag o.mb o.tag).grabN ((length.toNat + 255) / 256) = none)) ∧
    (∃ (o : Origin) (handle : Word) (offset : Word) (count : Half) (zero : Half) (data : List Byte) (s : State) (len : Nat) (chain : List Nat), Served (.stageWrite o handle offset count zero data) o s ∧ s.mem.stage handle.toNat = some (len, chain) ∧ offset.toNat + data.length ≤ len) ∧
    (∃ (o : Origin) (handle : Word) (offset : Word) (count : Half) (zero : Half) (data : List Byte) (s : State), Served (.stageWrite o handle offset count zero data) o s ∧ (∀ (len : Nat) (chain : List Nat), s.mem.stage handle.toNat = some (len, chain) → len < offset.toNat + data.length)) ∧
    (∃ (o : Origin) (handle : Word) (offset : Word) (count : Half) (zero : Half) (data : List Byte) (s : State), Served (.stageRead o handle offset count) o s ∧ (∀ (len : Nat) (chain : List Nat), s.mem.stage handle.toNat = some (len, chain) → len < offset.toNat + count.toNat)) ∧
    (∃ (o : Origin) (handle : Word) (s : State) (x : Nat × List Nat), Served (.stageClose o handle) o s ∧ s.mem.stage handle.toNat = some x) ∧
    (∃ (o : Origin) (handle : Word) (s : State), Served (.stageClose o handle) o s ∧ s.mem.stage handle.toNat = none) ∧
    (∃ (o : Origin) (bank : Byte) (mode : Byte) (s : State), Served (.bankPower o bank mode) o s ∧ bankInUse (s.holdTag o.mb o.tag) bank.toNat = false) ∧
    (∃ (o : Origin) (bank : Byte) (mode : Byte) (s : State), Served (.bankPower o bank mode) o s ∧ bankInUse (s.holdTag o.mb o.tag) bank.toNat = true) ∧
    (∃ (o : Origin) (handle : Word) (offset : Word) (count : Half) (s : State) (len : Nat) (chain : List Nat), Served (.stageRead o handle offset count) o s ∧ s.mem.stage handle.toNat = some (len, chain) ∧ offset.toNat + count.toNat ≤ len ∧ ∀ k a : Nat, k < count.toNat → stageAddr ((s.holdTag o.mb o.tag).wakeChain (stagePart chain offset.toNat count.toNat)).mem chain (offset.toNat + k) = some a → ((s.holdTag o.mb o.tag).wakeChain (stagePart chain offset.toNat count.toNat)).mem.isPoisoned (a / 8) = false) ∧
    (∃ (o : Origin) (handle : Word) (offset : Word) (count : Half) (s : State) (len : Nat) (a : Nat) (chain : List Nat), Served (.stageRead o handle offset count) o s ∧ s.mem.stage handle.toNat = some (len, chain) ∧ offset.toNat + count.toNat ≤ len ∧ stagePoison ((s.holdTag o.mb o.tag).wakeChain (stagePart chain offset.toNat count.toNat)).mem chain offset.toNat count.toNat = some a) :=
  ⟨⟨wO, 256, tUp, _, _, by decide, by decide, by decide, rfl⟩,
   ⟨wO, 256, wMem { tUp.mem with poolEn := false }, by decide, Or.inr (Or.inl rfl)⟩,
   ⟨wO, 0, 212, 44, 0, List.replicate 44 0, wMem { tUp.mem with stages := [(0, 256, [3])] }, 256, [3], by decide⟩,
   ⟨wO, 0, 0, 44, 0, List.replicate 44 0, tUp, by decide, fun a b h => by have hh : (none : Option (Nat × List Nat)) = some (a, b) := h; cases hh⟩,
   ⟨wO, 0, 0, 1, 0, [], tUp, by decide, fun a b h => by have hh : (none : Option (Nat × List Nat)) = some (a, b) := h; cases hh⟩,
   ⟨wO, 0, wMem { tUp.mem with stages := [(0, 256, [3])] }, (256, [3]), by decide⟩,
   ⟨wO, 0, tUp, by decide⟩,
   ⟨wO, 31, 0, tUp, by decide +kernel⟩,
   ⟨wO, BitVec.ofNat 8 (bobbinBank tUp.mem 0), 0, wMem { tUp.mem with stages := [(0, 256, [0])] }, by decide +kernel⟩,
   ⟨wO, 0, 208, 48, wMem { tUp.mem with stages := [(0, 256, [3])] }, 256, [3], by decide, by decide, by decide, fun _ _ _ _ => rfl⟩,
   ⟨wO, 0, 208, 48, wMem { tUp.mem with stages := [(0, 256, [3])], poison := [(tUp.mem.bobbinWord 3 + 26)] }, 256, _, [3], by decide, by decide, by decide, rfl⟩⟩

theorem witness_TablesPathsAndMapsAreEdited :
    (∃ (o : Origin) (group : Byte) (desc : Desc) (bs : List Byte) (rs : List PathRec) (s : State), Served (.pathQueue o group desc) o s ∧ readDesc (s.holdTag o.mb o.tag) desc = .ok bs) ∧
    (∃ (o : Origin) (table : Half) (first : Word) (desc : Desc) (bs : List Byte) (c : CamHead) (s : State), Served (.camEdit o table first desc) o s ∧ readDesc (s.holdTag o.mb o.tag) desc = .ok bs ∧ s.cams[camIx table].active = some c ∧ first.toNat + bs.length / 8 ≤ c.count) ∧
    (∃ (o : Origin) (table : Half) (first : Word) (desc : Desc) (bs : List Byte) (s : State), Served (.camEdit o table first desc) o s ∧ readDesc (s.holdTag o.mb o.tag) desc = .ok bs ∧ (∀ c : CamHead, s.cams[camIx table].active = some c → c.count < first.toNat + bs.length / 8)) ∧
    (∃ (o : Origin) (group : Byte) (desc : Desc) (bs : List Byte) (rs : List PathRec) (s : State), Served (.pathQueue o group desc) o s ∧ readDesc (s.holdTag o.mb o.tag) desc = .ok bs ∧ (armedView (s.holdTag o.mb o.tag)).groups[groupIx group].members ≠ [] ∧ pathRecs? (armedView (s.holdTag o.mb o.tag)).groups[groupIx group].members.length (bs.length / 96) bs = some rs ∧ arcsOk (pathEnd (armedView (s.holdTag o.mb o.tag)) (armedView (s.holdTag o.mb o.tag)).groups[groupIx group]) rs = true ∧ (armedView (s.holdTag o.mb o.tag)).groups[groupIx group].queue.length + rs.length ≤ 1024 ∧ (s.dist.orphan ++ s.dist.armed ++ s.dist.staged).any (definesGroup (groupIx group)) = false) ∧
    (∃ (o : Origin) (group : Byte) (desc : Desc) (bs : List Byte) (rs : List PathRec) (s : State), Served (.pathQueue o group desc) o s ∧ readDesc (s.holdTag o.mb o.tag) desc = .ok bs ∧ (armedView (s.holdTag o.mb o.tag)).groups[groupIx group].members ≠ [] ∧ pathRecs? (armedView (s.holdTag o.mb o.tag)).groups[groupIx group].members.length (bs.length / 96) bs = some rs ∧ arcsOk (pathEnd (armedView (s.holdTag o.mb o.tag)) (armedView (s.holdTag o.mb o.tag)).groups[groupIx group]) rs = true ∧ (armedView (s.holdTag o.mb o.tag)).groups[groupIx group].queue.length + rs.length ≤ 1024 ∧ (s.dist.orphan ++ s.dist.armed ++ s.dist.staged).any (definesGroup (groupIx group)) = true) ∧
    (∃ (o : Origin) (group : Byte) (desc : Desc) (bs : List Byte) (rs : List PathRec) (s : State), Served (.pathQueue o group desc) o s ∧ readDesc (s.holdTag o.mb o.tag) desc = .ok bs ∧ (armedView (s.holdTag o.mb o.tag)).groups[groupIx group].members ≠ [] ∧ pathRecs? (armedView (s.holdTag o.mb o.tag)).groups[groupIx group].members.length (bs.length / 96) bs = some rs ∧ arcsOk (pathEnd (armedView (s.holdTag o.mb o.tag)) (armedView (s.holdTag o.mb o.tag)).groups[groupIx group]) rs = true ∧ 1024 < (armedView (s.holdTag o.mb o.tag)).groups[groupIx group].queue.length + rs.length) ∧
    (∃ (o : Origin) (endpoint : Word) (index : Word) (s : State) (j : Nat), Served (.pubmapWrite o endpoint index) o s ∧ index.getLsbD 31 = false ∧ mapBad ((s.holdTag o.mb o.tag).wakeChain s.mem.mapChain).mem (endpoint.truncate 24) = none ∧ ((s.holdTag o.mb o.tag).wakeChain s.mem.mapChain).mem.mapIndex (endpoint.truncate 24) = some j) ∧
    (∃ (o : Origin) (endpoint : Word) (index : Word) (s : State), Served (.pubmapWrite o endpoint index) o s ∧ index.getLsbD 31 = false ∧ mapBad ((s.holdTag o.mb o.tag).wakeChain s.mem.mapChain).mem (endpoint.truncate 24) = none ∧ ((s.holdTag o.mb o.tag).wakeChain s.mem.mapChain).mem.mapIndex (endpoint.truncate 24) = none ∧ s.mem.mapCount % 32 ≠ 0) ∧
    (∃ (o : Origin) (endpoint : Word) (index : Word) (s : State) (t : State) (b : Nat), Served (.pubmapWrite o endpoint index) o s ∧ index.getLsbD 31 = false ∧ mapBad ((s.holdTag o.mb o.tag).wakeChain s.mem.mapChain).mem (endpoint.truncate 24) = none ∧ ((s.holdTag o.mb o.tag).wakeChain s.mem.mapChain).mem.mapIndex (endpoint.truncate 24) = none ∧ s.mem.mapCount % 32 = 0 ∧ ((s.holdTag o.mb o.tag).wakeChain s.mem.mapChain).grab = (t, some b)) ∧
    (∃ (o : Origin) (endpoint : Word) (index : Word) (s : State), Served (.pubmapWrite o endpoint index) o s ∧ index.getLsbD 31 = false ∧ mapBad ((s.holdTag o.mb o.tag).wakeChain s.mem.mapChain).mem (endpoint.truncate 24) = none ∧ ((s.holdTag o.mb o.tag).wakeChain s.mem.mapChain).mem.mapIndex (endpoint.truncate 24) = none ∧ s.mem.mapCount % 32 = 0 ∧ s.mem.head = 0x3FFFF) ∧
    (∃ (o : Origin) (endpoint : Word) (index : Word) (s : State) (a : Nat), Served (.pubmapWrite o endpoint index) o s ∧ mapBad ((s.holdTag o.mb o.tag).wakeChain s.mem.mapChain).mem (endpoint.truncate 24) = some a) ∧
    (∃ (o : Origin) (endpoint : Word) (index : Word) (s : State) (j : Nat), Served (.pubmapWrite o endpoint index) o s ∧ mapBad ((s.holdTag o.mb o.tag).wakeChain s.mem.mapChain).mem (endpoint.truncate 24) = none ∧ index.getLsbD 31 = true ∧ ((s.holdTag o.mb o.tag).wakeChain s.mem.mapChain).mem.mapIndex (endpoint.truncate 24) = some j) ∧
    (∃ (o : Origin) (endpoint : Word) (index : Word) (s : State), Served (.pubmapWrite o endpoint index) o s ∧ mapBad ((s.holdTag o.mb o.tag).wakeChain s.mem.mapChain).mem (endpoint.truncate 24) = none ∧ index.getLsbD 31 = true ∧ ((s.holdTag o.mb o.tag).wakeChain s.mem.mapChain).mem.mapIndex (endpoint.truncate 24) = none) :=
  ⟨⟨wO, 0, wDat (wBs 96 [(4, 4, 1)]), _, [], wG { Group.reset with members := [0] }, by decide, rfl⟩,
   ⟨wO, 0, 0, wDat (wBs 8 []), _, wHead, { tUp with cams := tUp.cams.set 0 { CamTable.reset with active := some wHead } }, by decide, rfl, rfl, by decide⟩,
   ⟨wO, 0, 0, wDat (wBs 8 []), _, tUp, by decide, rfl, fun a h => by have hh : (none : Option CamHead) = some a := h; cases hh⟩,
   ⟨wO, 0, wDat (wBs 96 [(4, 4, 1)]), _, (Option.get _ (by decide +kernel)), wG { Group.reset with members := [0] }, by decide, rfl, by decide +kernel, (Option.some_get _).symm, by decide +kernel, by decide +kernel, by decide⟩,
   ⟨wO, 0, wDat (wBs 96 [(4, 4, 1)]), _, (Option.get _ (by decide +kernel)), { tUp with dist := { tUp.dist with armed := [.groupDefine wO 0 1 [0]] } }, by decide, rfl, by decide +kernel, (Option.some_get _).symm, by decide +kernel, by decide +kernel, by decide⟩,
   ⟨wO, 0, wDat (wBs 96 [(4, 4, 1)]), _, (Option.get _ (by decide +kernel)), wG { Group.reset with members := [0], queue := List.replicate 1024 wRec }, by decide, rfl, by decide +kernel, (Option.some_get _).symm, by decide +kernel, by decide +kernel⟩,
   ⟨wO, 0, 0, wMap, 0, by decide +kernel⟩,
   ⟨wO, 5, 0, wMap, by decide +kernel⟩,
   ⟨wO, 0, 0, tUp, _, _, by decide, by decide, by decide, by decide, by decide, rfl⟩,
   ⟨wO, 0, 0, wMem { tUp.mem with head := 0x3FFFF }, by decide⟩,
   ⟨wO, 0, 0, wMem { wMap.mem with poison := [tUp.mem.bobbinWord 3] }, _, by decide, rfl⟩,
   ⟨wO, 0, 0x80000000, wMap, 0, by decide +kernel⟩,
   ⟨wO, 0, 0x80000000, tUp, by decide⟩⟩

theorem witness_SafetyCommandsNeedTheirPassword :
    (∃ (o : Origin) (password : Rec32) (user : BitVec 64) (s : State), Served (.safetyConfirm o password user) o s ∧ s.saf.confirmed = true) ∧
    (∃ (o : Origin) (password : Rec32) (user : BitVec 64) (s : State) (t : State) (ok : Bool), Served (.safetyConfirm o password user) o s ∧ s.saf.confirmed = false ∧ (s.holdTag o.mb o.tag).checkAgainst s.saf.stored.2 o user (bytesOf password) = (t, ok)) ∧
    (∃ (o : Origin) (old : BitVec 192) (new : BitVec 192) (user : BitVec 64) (salt : BitVec 128) (s : State), Served (.safetyPassword o old new user salt) o s ∧ s.saf.password = none) ∧
    (∃ (o : Origin) (old : BitVec 192) (new : BitVec 192) (user : BitVec 64) (salt : BitVec 128) (s : State) (t : State) (p : Password) (ok : Bool), Served (.safetyPassword o old new user salt) o s ∧ s.saf.password = some p ∧ (s.holdTag o.mb o.tag).checkPassword o user (bytesOf old) = (t, ok)) ∧
    (∃ (o : Origin) (s : State), Served (.safetyReset o) o s ∧ resetBlocked s = true) ∧
    (∃ (o : Origin) (s : State), Served (.safetyReset o) o s ∧ resetBlocked s = false) ∧
    (∃ (o : Origin) (s : State) (x : Island) (f : Fin 4), Served (.safetyReset o) o s ∧ resetBlocked s = false) :=
  ⟨⟨wO, 0, 0, tUp, by decide⟩,
   ⟨wO, 0, 0, wSaf { tUp.saf with confirmed := false }, _, _, by decide, by decide, rfl⟩,
   ⟨wO, 0, 1, 0, 0, tUp, by decide⟩,
   ⟨wO, 0, 1, 0, 0, wSaf { Safety.reset with password := some ⟨0, 0⟩, lockout := true }, _, _, _, by decide, rfl, rfl⟩,
   ⟨wO, { wSaf { Safety.reset with xchkFault := true } with fio := { tUp.fio with xchk := { tUp.fio.xchk with fault := true } } }, by decide⟩,
   ⟨wO, tUp, by decide⟩,
   ⟨wO, tUp, .a, 0, by decide⟩⟩

theorem witness_TimeCommandsAct :
    (∃ (o : Origin) (domain : Byte) (s : State), Served (.timeSelect o domain) o s) ∧
    (∃ (o : Origin) (domain : Byte) (priority : Byte) (s : State), Served (.timePriority o domain priority) o s) ∧
    (∃ (o : Origin) (args : PtpArgs) (s : State), Served (.ptpConfig o args) o s ∧ 5 ≤ o.mb.val ∧ args.set.getLsbD 1 = true) ∧
    (∃ (o : Origin) (args : PtpArgs) (s : State), Served (.ptpConfig o args) o s ∧ (o.mb.val < 5 ∨ args.set.getLsbD 1 = false) ∧ args.set.getLsbD 0 = false) ∧
    (∃ (o : Origin) (args : PtpArgs) (s : State), Served (.ptpConfig o args) o s ∧ (o.mb.val < 5 ∨ args.set.getLsbD 1 = false) ∧ args.set.getLsbD 0 = true) :=
  ⟨⟨wO, 1, tUp, by decide⟩,
   ⟨wO, 1, 0, tUp, by decide⟩,
   ⟨{ wO with mb := 5 }, ⟨0, 0, 0, 2, 0, 0, 0, 0⟩, tUp, by decide⟩,
   ⟨wO, ⟨0, 0, 0, 0, 0, 0, 0, 0⟩, tUp, by decide⟩,
   ⟨wO, ⟨0, 0, 0, 1, 0, 0, 0, 0⟩, tUp, by decide⟩⟩

theorem witness_ExposureCommandsAct :
    (∃ (o : Origin) (unit : Byte) (desc : Desc) (bs : List Byte) (x : Exp) (s : State), Served (.expConfig o unit desc) o s ∧ readDesc (s.holdTag o.mb o.tag) desc = .ok bs ∧ exp? (s.holdTag o.mb o.tag) bs = some x) ∧
    (∃ (o : Origin) (unit : Byte) (s : State) (u : ExpId), Served (.expArm o unit) o s ∧ s.exps[expIx unit].configured = true ∧ u ≠ expIx unit) ∧
    (∃ (o : Origin) (unit : Byte) (s : State), Served (.expArm o unit) o s ∧ s.exps[expIx unit].configured = false) ∧
    (∃ (o : Origin) (unit : Byte) (s : State), Served (.expDisarm o unit) o s) :=
  ⟨⟨wO, 0, wDat (wBs 192 [(0, 4, 1), (6, 1, 1), (12, 4, 4096), (20, 4, 1), (32, 2, 0x1000)]), _, (Option.get _ (by decide +kernel)), tUp, by decide +kernel, rfl, (Option.some_get _).symm⟩,
   ⟨wO, 0, { tUp with exps := tUp.exps.set 0 { Exp.reset with configured := true } }, 1, by decide⟩,
   ⟨wO, 0, tUp, by decide⟩,
   ⟨wO, 0, tUp, by decide⟩⟩

theorem witness_FieldIoAndCanCommandsAct :
    (∃ (o : Origin) (ms : Half) (s : State), Served (.watchdogSet o ms) o s) ∧
    (∃ (o : Origin) (desc : Desc) (bs : List Byte) (s : State) (a : Word) (b : Half) (c : Byte) (d : Byte), Served (.ioConfig o desc) o s ∧ readDesc (s.holdTag o.mb o.tag) desc = .ok bs ∧ ioConfig? bs = some (a, b, c, d)) ∧
    (∃ (o : Origin) (desc : Desc) (bs : List Byte) (s : State), Served (.ioConfig o desc) o s ∧ readDesc (s.holdTag o.mb o.tag) desc = .ok bs ∧ ioConfig? bs = none) ∧
    (∃ (o : Origin) (converter : Byte) (desc : Desc) (bs : List Byte) (t : ConvTable) (s : State), Served (.convTable o converter desc) o s ∧ readDesc (s.holdTag o.mb o.tag) desc = .ok bs ∧ convTable? (s.holdTag o.mb o.tag) bs = some t) ∧
    (∃ (o : Origin) (channel : Byte) (limit : Word) (safety : Byte) (s : State), Served (.crosscheckSet o channel limit safety) o s) ∧
    (∃ (o : Origin) (ctl : Byte) (desc : Desc) (bs : List Byte) (g : CanCfg) (s : State), Served (.canConfig o ctl desc) o s ∧ readDesc (s.holdTag o.mb o.tag) desc = .ok bs ∧ canCfg? bs = some g ∧ (busOn s.cans[canIx ctl] = true ∨ canAreaTaken s (canIx ctl) g.base = true ∨ canBound s (canIx ctl) = true)) ∧
    (∃ (o : Origin) (ctl : Byte) (desc : Desc) (bs : List Byte) (g : CanCfg) (s : State), Served (.canConfig o ctl desc) o s ∧ readDesc (s.holdTag o.mb o.tag) desc = .ok bs ∧ canCfg? bs = some g ∧ busOn s.cans[canIx ctl] = false ∧ canAreaTaken s (canIx ctl) g.base = false ∧ canBound s (canIx ctl) = false) ∧
    (∃ (o : Origin) (ctl : Byte) (desc : Desc) (bs : List Byte) (l : List CanRule) (s : State), Served (.canFilter o ctl desc) o s ∧ readDesc (s.holdTag o.mb o.tag) desc = .ok bs ∧ canRules? (bs.length / 16) bs = some l ∧ busOn s.cans[canIx ctl] = false ∧ (∀ r ∈ l, r.dest = 3 → s.cans[canIx ctl].cfg.rxMask.getLsbD r.buffer.val = true)) ∧
    (∃ (o : Origin) (ctl : Byte) (desc : Desc) (bs : List Byte) (l : List CanRule) (s : State), Served (.canFilter o ctl desc) o s ∧ readDesc (s.holdTag o.mb o.tag) desc = .ok bs ∧ canRules? (bs.length / 16) bs = some l ∧ (busOn s.cans[canIx ctl] = true ∨ ∃ r ∈ l, r.dest = 3 ∧ s.cans[canIx ctl].cfg.rxMask.getLsbD r.buffer.val = false)) ∧
    (∃ (o : Origin) (ctl : Byte) (mode : Byte) (s : State), Served (.canBus o ctl mode) o s) ∧
    (∃ (o : Origin) (converter : Byte) (ctl : Byte) (buffer : Byte) (desc : Desc) (bs : List Byte) (s : State), readDesc (s.holdTag o.mb o.tag) desc = .ok bs ∧ Served (.convTable o converter desc) o s ∧ convTable? (s.holdTag o.mb o.tag) bs = none) ∧
    (∃ (o : Origin) (converter : Byte) (ctl : Byte) (buffer : Byte) (desc : Desc) (bs : List Byte) (s : State), readDesc (s.holdTag o.mb o.tag) desc = .ok bs ∧ Served (.canConfig o ctl desc) o s ∧ canCfg? bs = none) ∧
    (∃ (o : Origin) (converter : Byte) (ctl : Byte) (buffer : Byte) (desc : Desc) (bs : List Byte) (s : State), readDesc (s.holdTag o.mb o.tag) desc = .ok bs ∧ Served (.canFilter o ctl desc) o s ∧ canRules? (bs.length / 16) bs = none) ∧
    (∃ (o : Origin) (converter : Byte) (ctl : Byte) (buffer : Byte) (desc : Desc) (bs : List Byte) (s : State), readDesc (s.holdTag o.mb o.tag) desc = .ok bs ∧ Served (.canSend o ctl buffer desc) o s ∧ txRec? bs = none) ∧
    (∃ (o : Origin) (ctl : Byte) (buffer : Byte) (desc : Desc) (bs : List Byte) (f : CanFrame) (s : State), Served (.canSend o ctl buffer desc) o s ∧ readDesc (s.holdTag o.mb o.tag) desc = .ok bs ∧ txRec? bs = some f) :=
  ⟨⟨wO, 1, tUp, by decide⟩,
   ⟨wO, wDat (wBs 16 []), _, tUp, _, _, _, _, by decide, rfl, rfl⟩,
   ⟨wO, wDat (wBs 16 [(8, 1, 1)]), _, tUp, by decide, rfl, rfl⟩,
   ⟨wO, 0, wDat (wBs 24 [(4, 1, 1), (16, 1, 16), (17, 1, 4), (18, 1, 1)]), _, _, tUp, by decide, rfl, rfl⟩,
   ⟨wO, 0, 0, 0, tUp, by decide⟩,
   ⟨wO, 0, wDat (wBs 48 [(0, 2, 1), (2, 2, 63), (4, 1, 16), (5, 1, 1), (6, 1, 1), (7, 1, 7), (8, 1, 2), (9, 1, 1), (14, 1, 1), (15, 1, 1)]), _, (Option.get _ (by decide +kernel)), wCan { Can.reset 0 with mode := 1 }, by decide, rfl, (Option.some_get _).symm, by decide +kernel⟩,
   ⟨wO, 0, wDat (wBs 48 [(0, 2, 1), (2, 2, 63), (4, 1, 16), (5, 1, 1), (6, 1, 1), (7, 1, 7), (8, 1, 2), (9, 1, 1), (14, 1, 1), (15, 1, 1)]), _, (Option.get _ (by decide +kernel)), tUp, by decide, rfl, (Option.some_get _).symm, by decide, by decide +kernel, by decide +kernel⟩,
   ⟨wO, 0, wDat (wBs 16 []), _, _, tUp, by decide, rfl, rfl, by decide, by decide⟩,
   ⟨wO, 0, wDat (wBs 16 []), _, _, wCan { Can.reset 0 with mode := 1 }, by decide, rfl, rfl, Or.inl (by decide)⟩,
   ⟨wO, 0, 0, tUp, by decide⟩,
   ⟨wO, 0, 0, 0, wDat (wBs 24 [(4, 1, 2)]), _, tUp, rfl, by decide, rfl⟩,
   ⟨wO, 0, 0, 0, wDat (wBs 48 []), _, tUp, rfl, by decide, by decide +kernel⟩,
   ⟨wO, 0, 0, 0, wDat (wBs 16 [(8, 1, 9)]), _, tUp, rfl, by decide, rfl⟩,
   ⟨wO, 0, 0, 0, wDat (wBs 16 [(12, 2, 1)]), _, tUp, rfl, by decide, rfl⟩,
   ⟨wO, 0, 0, wDat (wBs 16 [(4, 4, 1)]), _, _, tUp, by decide, rfl, rfl⟩⟩

theorem witness_EveryCyclicCommandIsStaged :
    (∃ (i : Instr) (j : Instr) (o : Origin) (s : State), classOf i = .c ∧ Served i o s ∧ fetchData i (s.holdTag o.mb o.tag) = .ok j ∧ checkSet j (armedView (s.holdTag o.mb o.tag)) = stOk) ∧
    (∃ (i : Instr) (j : Instr) (o : Origin) (s : State), classOf i = .c ∧ Served i o s ∧ fetchData i (s.holdTag o.mb o.tag) = .ok j ∧ checkSet j (armedView (s.holdTag o.mb o.tag)) ≠ stOk ∧ s.owedFor j = none) ∧
    (∃ (i : Instr) (o : Origin) (st : Half) (res : List Byte) (s : State), classOf i = .c ∧ Served i o s ∧ fetchData i (s.holdTag o.mb o.tag) = .error (st, res)) :=
  ⟨⟨.strandArm wO 0, .strandArm wO 0, wO, wAt (wBound .off), by decide, by decide, rfl, by decide⟩,
   ⟨.strandArm wO 0, .strandArm wO 0, wO, wSt .run, by decide, by decide, rfl, by decide, by decide⟩,
   ⟨.plyCoeff wO 0 0 { wDat (wBs 8 []) with data := none }, wO, _, _, tUp, by decide, by decide, rfl⟩⟩

theorem witness_ArmedSetsActInOrderAtACycleStart :
    (∃ (s : State) (i : Instr) (r : List Instr), s.dist.st = .running ∧ s.dist.staged = i :: r) ∧
    (∃ (s : State), s.dist.staged = []) ∧
    (∃ (i : Instr) (o : Origin) (s : State), originOf i = some o ∧ checkSet i s ≠ stOk ∧ (∀ k : Fin 32, definesGroup k i = false)) ∧
    (∃ (o : Origin) (g : Byte) (n : Byte) (members : List Half) (s : State), checkSet (.groupDefine o g n members) s ≠ stOk) ∧
    (∃ (i : Instr) (o : Origin) (s : State), originOf i = some o ∧ checkSet i s = stOk) ∧
    (∃ (l : List Instr) (s : State), s.dist.orphan = [] ∧ s.dist.armed = l ∧ (∀ i ∈ l, isStopNow i = false)) ∧
    (∃ (a : List Instr) (b : List Instr) (o : Origin) (st : Half) (s : State), s.dist.orphan = [] ∧ s.dist.armed = a ++ .stopNow o st :: b ∧ (∀ i ∈ a ++ b, isStopNow i = false)) ∧
    (∃ (skipped : List StrandId) (s : State), s.pwr.held = false ∧ s.pwr.dev ≠ .dormant) :=
  ⟨⟨{ tUp with dist := { tUp.dist with staged := [.strandArm wO 0] } }, .strandArm wO 0, [], by decide⟩,
   ⟨tUp, by decide⟩,
   ⟨.strandArm wO 0, wO, wSt .run, by decide⟩,
   ⟨wO, 0, 1, [0], wSt .run, by decide⟩,
   ⟨.strandArm wO 0, wO, wAt (wBound .off), by decide⟩,
   ⟨[.strandArm wO 0], { tUp with dist := { tUp.dist with armed := [.strandArm wO 0] } }, by decide⟩,
   ⟨[.strandArm wO 0], [], wO, 1, { tUp with dist := { tUp.dist with armed := [.strandArm wO 0, .stopNow wO 1] } }, by decide⟩,
   ⟨[], tUp, by decide⟩⟩

theorem witness_StrandCommandsRespectTheMatrix_1 :
    (∃ (s : State) (o : Origin) (st : Half) (kind : Byte) (target : Half) (fb : Byte), s.strands[strandIx st].st ≠ .off) ∧
    (∃ (s : State) (o : Origin) (st : Half), s.strands[strandIx st].st ≠ .off) ∧
    (∃ (s : State) (o : Origin) (st : Half) (dS : Byte) (phase : Byte) (kP : Byte) (dP : Byte) (reaction : Byte) (limit : Byte), (s.strands[strandIx st].st = .run ∨ s.strands[strandIx st].st = .hold ∨ s.strands[strandIx st].st = .stopping)) ∧
    (∃ (s : State) (o : Origin) (st : Half) (h : Word) (d : Desc), (s.strands[strandIx st].st = .run ∨ s.strands[strandIx st].st = .hold ∨ s.strands[strandIx st].st = .stopping)) ∧
    (∃ (s : State) (o : Origin) (st : Half) (fb : Byte) (num : Word) (den : Word), (s.strands[strandIx st].st = .run ∨ s.strands[strandIx st].st = .hold ∨ s.strands[strandIx st].st = .stopping)) ∧
    (∃ (s : State) (o : Origin) (st : Half) (ply : Byte) (d : Desc), s.strands[strandIx st].st = .stopping) ∧
    (∃ (s : State) (o : Origin) (st : Half) (mode : Byte) (output : Word), s.strands[strandIx st].st = .stopping) ∧
    (∃ (s : State) (o : Origin) (st : Half) (source : Byte) (index : Byte) (ratio : Word) (offset : Word), s.strands[strandIx st].st = .stopping) :=
  ⟨⟨wSt .run, wO, 0, 0, 0, 0, by decide⟩,
   ⟨wSt .run, wO, 0, by decide⟩,
   ⟨wSt .run, wO, 0, 0, 0, 0, 0, 0, 0, by decide⟩,
   ⟨wSt .run, wO, 0, 0, wD, by decide⟩,
   ⟨wSt .run, wO, 0, 0, 0, 0, by decide⟩,
   ⟨wSt .stopping, wO, 0, 0, wD, by decide⟩,
   ⟨wSt .stopping, wO, 0, 0, 0, by decide⟩,
   ⟨wSt .stopping, wO, 0, 0, 0, 0, 0, by decide⟩⟩

theorem witness_StrandCommandsRespectTheMatrix_2 :
    (∃ (s : State) (o : Origin) (st : Half) (p : ProfileArgs), s.strands[strandIx st].st = .stopping) ∧
    (∃ (s : State) (o : Origin) (st : Half), s.strands[strandIx st].st ≠ .ready) ∧
    (∃ (s : State) (o : Origin) (st : Half) (address : Half) (scale : Half), s.strands[strandIx st].st ≠ .ready) ∧
    (∃ (s : State) (o : Origin) (st : Half) (kind : Byte) (decel : Word), s.strands[strandIx st].st ≠ .run ∧ s.strands[strandIx st].st ≠ .hold ∧ s.strands[strandIx st].st ≠ .stopping) ∧
    (∃ (s : State) (o : Origin) (st : Half), s.strands[strandIx st].st ≠ .fault) ∧
    (∃ (s : State) (o : Origin) (i : StrandId) (q : Byte) (mix : Byte) (carrier : Byte) (period : Word) (double : Byte) (phase : Word), (s.strands[i].st = .run ∨ s.strands[i].st = .hold ∨ s.strands[i].st = .stopping) ∧ i ∈ s.strandsOfQuad (quadIx q)) ∧
    (∃ (s : State) (o : Origin) (i : StrandId) (q : Byte) (f : Word) (o3 : Half) (o2 : Byte), (s.strands[i].st = .run ∨ s.strands[i].st = .hold ∨ s.strands[i].st = .stopping) ∧ i ∈ s.strandsOfQuad (quadIx q)) ∧
    (∃ (s : State) (o : Origin) (i : StrandId) (q : Byte) (input : Byte) (limit : Word) (gf : Byte), (s.strands[i].st = .run ∨ s.strands[i].st = .hold ∨ s.strands[i].st = .stopping) ∧ i ∈ s.strandsOfQuad (quadIx q)) :=
  ⟨⟨wSt .stopping, wO, 0, ⟨0, 0, 0, 0, 0, 0, 0, 0, 0⟩, by decide⟩,
   ⟨tUp, wO, 0, by decide⟩,
   ⟨tUp, wO, 0, 0, 0, by decide⟩,
   ⟨tUp, wO, 0, 0, 0, by decide⟩,
   ⟨tUp, wO, 0, by decide⟩,
   ⟨wAt { wBound .run with cfg := { (wBound .run).cfg with binding := .servo 0 0 } }, wO, 0, 0, 0, 0, 0, 0, 0, by decide +kernel⟩,
   ⟨wAt { wBound .run with cfg := { (wBound .run).cfg with binding := .servo 0 0 } }, wO, 0, 0, 0, 0, 0, by decide +kernel⟩,
   ⟨wAt { wBound .run with cfg := { (wBound .run).cfg with binding := .servo 0 0 } }, wO, 0, 0, 0, 0, 0, by decide +kernel⟩⟩

theorem witness_StrandCommandsRespectTheMatrix_3 :
    ∃ (s : State) (o : Origin) (i : StrandId) (u : Byte) (mode : Byte) (filter : Half) (bits : Byte) (bw : Word), (s.strands[i].st = .run ∨ s.strands[i].st = .hold ∨ s.strands[i].st = .stopping) ∧ i ∈ s.strandsOfFb (fbIx u) :=
  ⟨wAt { wBound .run with cfg := { (wBound .run).cfg with binding := .servo 0 0, fb := some 0 } }, wO, 0, 0, 0, 0, 0, 0, by decide +kernel⟩

theorem witness_StrandStatesMoveAsTheTableGives :
    (∃ (s : State) (o : Origin) (st : Half) (j : StrandId), checkSet (.strandArm o st) s = stOk ∧ j ≠ strandIx st) ∧
    (∃ (s : State) (o : Origin) (st : Half) (j : StrandId), checkSet (.strandEnable o st) s = stOk ∧ j ≠ strandIx st) ∧
    (∃ (s : State) (o : Origin) (st : Half) (j : StrandId), checkSet (.strandDisable o st) s = stOk ∧ j ≠ strandIx st) ∧
    (∃ (s : State) (o : Origin) (st : Half) (kind : Byte) (decel : Word) (j : StrandId), checkSet (.stop o st kind decel) s = stOk ∧ j ≠ strandIx st) ∧
    (∃ (s : State) (o : Origin) (st : Half) (j : StrandId), st ≠ 0xFFFF ∧ (s.strands[strandIx st].st = .run ∨ s.strands[strandIx st].st = .hold ∨ s.strands[strandIx st].st = .stopping) ∧ j ≠ strandIx st) ∧
    (∃ (s : State) (o : Origin) (st : Half), st ≠ 0xFFFF ∧ (s.strands[strandIx st].st = .off ∨ s.strands[strandIx st].st = .ready ∨ s.strands[strandIx st].st = .safe)) ∧
    (∃ (s : State) (o : Origin) (st : Half) (release : Byte) (j : StrandId), s.strands[strandIx st].st = .run ∧ release ≠ 1 ∧ j ≠ strandIx st) ∧
    (∃ (s : State) (o : Origin) (st : Half) (j : StrandId), s.strands[strandIx st].st = .hold ∧ s.strands[strandIx st].holdCtl = false ∧ j ≠ strandIx st) ∧
    (∃ (s : State) (o : Origin) (st : Half) (j : StrandId), checkSet (.faultReset o st) s = stOk ∧ j ≠ strandIx st) :=
  ⟨⟨wAt (wBound .off), wO, 0, 1, by decide⟩,
   ⟨wAt (wBound .ready), wO, 0, 1, by decide⟩,
   ⟨wSt .hold, wO, 0, 1, by decide⟩,
   ⟨wSt .run, wO, 0, 0, 0, 1, by decide⟩,
   ⟨wSt .stopping, wO, 0, 1, by decide⟩,
   ⟨tUp, wO, 0, by decide⟩,
   ⟨wSt .run, wO, 0, 0, 1, by decide⟩,
   ⟨wSt .hold, wO, 0, 1, by decide⟩,
   ⟨wSt .fault, wO, 0, 1, by decide⟩⟩

theorem witness_StrandSettingsTakeEffect :
    (∃ (s : State) (o : Origin) (st : Half) (kind : Byte) (target : Half) (fb : Byte), checkSet (.strandBind o st kind target fb) s = stOk ∧ s.strands[strandIx st].cfg.configured = true) ∧
    (∃ (s : State) (o : Origin) (st : Half) (kind : Byte) (target : Half) (fb : Byte) (j : StrandId), checkSet (.strandBind o st kind target fb) s = stOk ∧ j ≠ strandIx st) ∧
    (∃ (s : State) (o : Origin) (st : Half) (dS : Byte) (phase : Byte) (kP : Byte) (dP : Byte) (reaction : Byte) (limit : Byte), checkSet (.strandConfig o st dS phase kP dP reaction limit) s = stOk ∧ phase ≠ 0xFF) ∧
    (∃ (s : State) (o : Origin) (st : Half) (dS : Byte) (phase : Byte) (kP : Byte) (dP : Byte) (reaction : Byte) (limit : Byte) (j : StrandId), checkSet (.strandConfig o st dS phase kP dP reaction limit) s = stOk ∧ j ≠ strandIx st) ∧
    (∃ (s : State) (o : Origin) (st : Half) (ply : Byte) (d : Desc) (b : PlyBlock), (isStepLike s.strands[strandIx st].cfg.binding = false ∨ ply ≠ 0) ∧ plyBlock? ply.toNat (Desc.bytes d) = some b ∧ checkSet (.plyCoeff o st ply d) s = stOk ∧ ply = 0) ∧
    (∃ (s : State) (o : Origin) (st : Half) (ply : Byte) (d : Desc) (b : PlyBlock), (isStepLike s.strands[strandIx st].cfg.binding = false ∨ ply ≠ 0) ∧ plyBlock? ply.toNat (Desc.bytes d) = some b ∧ checkSet (.plyCoeff o st ply d) s = stOk ∧ ply = 1) ∧
    (∃ (s : State) (o : Origin) (st : Half) (ply : Byte) (d : Desc) (b : PlyBlock), (isStepLike s.strands[strandIx st].cfg.binding = false ∨ ply ≠ 0) ∧ plyBlock? ply.toNat (Desc.bytes d) = some b ∧ checkSet (.plyCoeff o st ply d) s = stOk ∧ ply = 2) ∧
    (∃ (s : State) (o : Origin) (st : Half) (ply : Byte) (d : Desc) (b : PlyBlock) (j : StrandId), (isStepLike s.strands[strandIx st].cfg.binding = false ∨ ply ≠ 0) ∧ plyBlock? ply.toNat (Desc.bytes d) = some b ∧ checkSet (.plyCoeff o st ply d) s = stOk ∧ j ≠ strandIx st) ∧
    (∃ (s : State) (o : Origin) (st : Half) (d : Desc) (b : StepperBlock), isStepLike s.strands[strandIx st].cfg.binding = true ∧ stepperBlock? (needsFs s.strands[strandIx st].cfg) (Desc.bytes d) = some b ∧ checkSet (.plyCoeff o st 0 d) s = stOk) ∧
    (∃ (s : State) (o : Origin) (st : Half) (output : Word), checkSet (.setTransfer o st 1 output) s = stOk) ∧
    (∃ (s : State) (o : Origin) (st : Half) (output : Word), checkSet (.setTransfer o st 0 output) s = stOk) ∧
    (∃ (s : State) (o : Origin) (st : Half) (source : Byte) (index : Byte) (ratio : Word) (offset : Word), checkSet (.setSource o st source index ratio offset) s = stOk) ∧
    (∃ (s : State) (o : Origin) (st : Half) (p : ProfileArgs), checkSet (.profileSet o st p) s = stOk) :=
  ⟨⟨wAt { Strand.reset with cfg := { StrandCfg.reset with configured := true } }, wO, 0, 0, 0, 0, by decide⟩,
   ⟨tUp, wO, 0, 0, 0, 0, 1, by decide⟩,
   ⟨tUp, wO, 0, 1, 0, 1, 1, 0, 0, by decide⟩,
   ⟨tUp, wO, 0, 1, 0, 1, 1, 0, 0, 1, by decide⟩,
   ⟨tUp, wO, 0, 0, wDat (wBs 64 [(0, 1, 1), (1, 1, 1), (2, 1, 2)]), (Option.get _ (by decide +kernel)), Or.inl (by decide), (Option.some_get _).symm, by decide, by decide⟩,
   ⟨tUp, wO, 0, 1, wDat (wBs 56 [(0, 1, 1), (1, 1, 1), (2, 1, 1), (16, 4, 1)]), (Option.get _ (by decide +kernel)), Or.inl (by decide), (Option.some_get _).symm, by decide, by decide⟩,
   ⟨tUp, wO, 0, 2, wDat (wBs 56 [(0, 1, 1), (1, 1, 1), (2, 1, 1), (21, 2, 1)]), (Option.get _ (by decide +kernel)), Or.inl (by decide), (Option.some_get _).symm, by decide, by decide⟩,
   ⟨tUp, wO, 0, 0, wDat (wBs 64 [(0, 1, 1), (1, 1, 1), (2, 1, 2)]), (Option.get _ (by decide +kernel)), 1, Or.inl (by decide), (Option.some_get _).symm, by decide, by decide⟩,
   ⟨wAt { Strand.reset with cfg := { StrandCfg.reset with binding := .stepper 0 0 } }, wO, 0, wDat (wBs 32 [(0, 4, 1), (4, 4, 1)]), (Option.get _ (by decide +kernel)), by decide, (Option.some_get _).symm, by decide⟩,
   ⟨wAt { Strand.reset with cfg := { StrandCfg.reset with vel := some { wPly with integ := some 0 } } }, wO, 0, 0, by decide⟩,
   ⟨wAt { Strand.reset with cfg := { StrandCfg.reset with vel := some { wPly with integ := some 0 } } }, wO, 0, 0, by decide⟩,
   ⟨tUp, wO, 0, 0, 0, 0, 0, by decide⟩,
   ⟨tUp, wO, 0, ⟨0, 0, 0, 0, 0, 0, 0, 0, 0⟩, by decide⟩⟩

theorem witness_MovesPathsCamsAndSkeinsTakeEffect_1 :
    (∃ (s : State) (o : Origin) (st : Half) (target : BitVec 64), s.strands[strandIx st].deferred = none ∧ ownReference s (strandIx st) = true ∧ inRamp s (strandIx st) = false ∧ checkSet (.moveAbs o st target) s = stOk) ∧
    (∃ (s : State) (o : Origin) (st : Half) (d : BitVec 64), s.strands[strandIx st].deferred = none ∧ ownReference s (strandIx st) = true ∧ inRamp s (strandIx st) = false ∧ checkSet (.moveRel o st d) s = stOk) ∧
    (∃ (s : State) (o : Origin) (st : Half) (v : Word), s.strands[strandIx st].deferred = none ∧ ownReference s (strandIx st) = true ∧ inRamp s (strandIx st) = false ∧ checkSet (.jog o st v) s = stOk) ∧
    (∃ (s : State) (o : Origin) (st : Half) (target : BitVec 64), s.strands[strandIx st].deferred = none ∧ ownReference s (strandIx st) = false ∧ checkSet (.moveAbs o st target) s = stOk) ∧
    (∃ (s : State) (o : Origin) (st : Half) (d : BitVec 64), s.strands[strandIx st].deferred = none ∧ ownReference s (strandIx st) = false ∧ checkSet (.moveRel o st d) s = stOk) ∧
    (∃ (s : State) (o : Origin) (st : Half) (v : Word), s.strands[strandIx st].deferred = none ∧ ownReference s (strandIx st) = false ∧ checkSet (.jog o st v) s = stOk) ∧
    (∃ (s : State) (o : Origin) (st : Half) (target : BitVec 64), s.strands[strandIx st].deferred = none ∧ ownReference s (strandIx st) = true ∧ inRamp s (strandIx st) = true ∧ checkSet (.moveAbs o st target) s = stOk) ∧
    (∃ (s : State) (o : Origin) (st : Half) (d : BitVec 64), s.strands[strandIx st].deferred = none ∧ ownReference s (strandIx st) = true ∧ inRamp s (strandIx st) = true ∧ checkSet (.moveRel o st d) s = stOk) :=
  ⟨⟨wAt (wBound .run), wO, 0, 0, by decide⟩,
   ⟨wAt (wBound .run), wO, 0, 0, by decide⟩,
   ⟨wAt (wBound .run), wO, 0, 0, by decide⟩,
   ⟨wAt { wBound .run with source := 1 }, wO, 0, 0, by decide⟩,
   ⟨wAt { wBound .run with source := 1 }, wO, 0, 0, by decide⟩,
   ⟨wAt { wBound .run with source := 1 }, wO, 0, 0, by decide⟩,
   ⟨wAt { wBound .run with plan := some ⟨0, [⟨1, 0, 1, 1⟩], none, 0, 0⟩ }, wO, 0, 0, by decide +kernel⟩,
   ⟨wAt { wBound .run with plan := some ⟨0, [⟨1, 0, 1, 1⟩], none, 0, 0⟩ }, wO, 0, 0, by decide +kernel⟩⟩

theorem witness_MovesPathsCamsAndSkeinsTakeEffect_2 :
    (∃ (s : State) (o : Origin) (st : Half) (v : Word), s.strands[strandIx st].deferred = none ∧ ownReference s (strandIx st) = true ∧ inRamp s (strandIx st) = true ∧ checkSet (.jog o st v) s = stOk) ∧
    (∃ (s : State) (o : Origin) (g : Byte) (n : Byte) (members : List Half) (k : Fin 32), checkSet (.groupDefine o g n members) s = stOk ∧ k ≠ groupIx g) ∧
    (∃ (s : State) (o : Origin) (g : Byte), checkSet (.pathStart o g) s = stOk ∧ s.groups[groupIx g].running = false) ∧
    (∃ (s : State) (o : Origin) (g : Byte) (decel : Word), s.groups[groupIx g].running = false) ∧
    (∃ (s : State) (o : Origin) (g : Byte) (decel : Word), s.groups[groupIx g].running = true ∧ decel ≠ 0 ∧ s.groups[groupIx g].stopping = none) ∧
    (∃ (s : State) (o : Origin) (g : Byte) (decel : Word) (d : Rat), s.groups[groupIx g].running = true ∧ decel ≠ 0 ∧ s.groups[groupIx g].stopping = some d) ∧
    (∃ (s : State) (o : Origin) (g : Byte) (decel : Word) (k : Fin 32), k ≠ groupIx g) ∧
    (∃ (s : State) (o : Origin) (table : Half), s.cams[camIx table].complete = true) :=
  ⟨⟨wAt { wBound .run with plan := some ⟨0, [⟨1, 0, 1, 1⟩], none, 0, 0⟩ }, wO, 0, 0, by decide +kernel⟩,
   ⟨tUp, wO, 0, 1, [0], 1, by decide⟩,
   ⟨{ wG { Group.reset with members := [0] } with strands := (wAt (wBound .run)).strands }, wO, 0, by decide⟩,
   ⟨tUp, wO, 0, 0, by decide⟩,
   ⟨wG { Group.reset with members := [0], running := true }, wO, 0, 1, by decide⟩,
   ⟨wG { Group.reset with members := [0], running := true, stopping := some 1 }, wO, 0, 1, 1, by decide⟩,
   ⟨tUp, wO, 0, 0, 1, by decide⟩,
   ⟨{ tUp with cams := tUp.cams.set 0 { CamTable.reset with complete := true } }, wO, 0, by decide⟩⟩

theorem witness_MovesPathsCamsAndSkeinsTakeEffect_3 :
    (∃ (s : State) (o : Origin) (k : Byte) (master : Word) (coupling : Byte) (d : Desc) (c : SkeinCfg), skein? master coupling.toNat (Desc.bytes d) = some c ∧ engagedIn s (skeinIx k) = false) ∧
    (∃ (s : State) (o : Origin) (k : Byte) (st : Half) (ramp : Word) (j : StrandId), checkSet (.skeinEngage o k st ramp) s = stOk ∧ j ≠ strandIx st) ∧
    (∃ (s : State) (o : Origin) (k : Byte) (st : Half) (decel : Word) (j : StrandId), (s.strands[strandIx st].engage.map (·.skein)) = some (skeinIx k) ∧ j ≠ strandIx st) :=
  ⟨⟨tUp, wO, 0, 0, 0, wDat (wBs 64 [(4, 4, 1), (10, 1, 1)]), (Option.get _ (by decide +kernel)), (Option.some_get _).symm, by decide +kernel⟩,
   ⟨{ wAt (wBound .run) with skeins := tUp.skeins.set 0 { Skein.reset with cfg := some ⟨0, 0, 1, 1, 0, 1, false, 0, 0, 0, 0, 0, 0⟩ } }, wO, 0, 0, 0, 1, by decide⟩,
   ⟨wAt { wBound .run with engage := some wEngage }, wO, 0, 0, 0, 1, by decide⟩⟩

theorem witness_DriveAndFeedbackSettingsTakeEffect_1 :
    (∃ (s : State) (o : Origin) (q : Byte) (mix : Byte) (carrier : Byte) (period : Word) (double : Byte) (phase : Word), checkSet (.quadConfig o q mix carrier period double phase) s = stOk ∧ s.quads[quadIx q].cfg.run = false) ∧
    (∃ (s : State) (o : Origin) (q : Byte) (mix : Byte) (carrier : Byte) (period : Word) (double : Byte) (phase : Word), checkSet (.quadConfig o q mix carrier period double phase) s = stOk ∧ s.quads[quadIx q].cfg.run = true) ∧
    (∃ (s : State) (o : Origin) (q : Byte) (mix : Byte) (carrier : Byte) (period : Word) (double : Byte) (phase : Word) (k : QuadId), checkSet (.quadConfig o q mix carrier period double phase) s = stOk ∧ k ≠ quadIx q) ∧
    (∃ (s : State) (o : Origin) (q : Byte) (p : Byte) (dead : Half), checkSet (.deadtimeSet o q p dead) s = stOk) ∧
    (∃ (s : State) (o : Origin) (q : Byte) (f : Word) (o3 : Half) (o2 : Byte) (k : QuadId), checkSet (.sdfConfig o q f o3 o2) s = stOk ∧ k ≠ quadIx q) ∧
    (∃ (s : State) (o : Origin) (q : Byte) (input : Byte) (limit : Word) (gf : Byte), checkSet (.tripConfig o q input limit gf) s = stOk ∧ input.toNat < 12) :=
  ⟨⟨tUp, wO, 0, 0, 0, 50000, 0, 0, by decide +kernel⟩,
   ⟨wQ { Quad.reset with cfg := { QuadCfg.reset with run := true } }, wO, 0, 0, 0, 50000, 0, 0, by decide +kernel⟩,
   ⟨tUp, wO, 0, 0, 0, 50000, 0, 0, 1, by decide +kernel⟩,
   ⟨tUp, wO, 0, 0, 0, by decide +kernel⟩,
   ⟨tUp, wO, 0, 20000000, 64, 8, 1, by decide +kernel⟩,
   ⟨tUp, wO, 0, 0, 0, 0, by decide +kernel⟩⟩

theorem witness_DriveAndFeedbackSettingsTakeEffect_2 :
    (∃ (s : State) (o : Origin) (q : Byte) (input : Byte) (limit : Word) (gf : Byte) (g : SlotId), checkSet (.tripConfig o q input limit gf) s = stOk ∧ input.toNat = 16 + g.val ∧ quadEnabled s (quadIx q) = true ∧ gateActive s.quads[quadIx q] g = false) ∧
    (∃ (s : State) (o : Origin) (q : Byte) (input : Byte) (limit : Word) (gf : Byte) (g : SlotId) (k : QuadId), checkSet (.tripConfig o q input limit gf) s = stOk ∧ input.toNat = 16 + g.val ∧ k ≠ quadIx q) ∧
    (∃ (s : State) (o : Origin) (slot : Byte) (off : Half) (split : Byte) (cur : Word), checkSet (.stepperConfig o slot off split cur) s = stOk) ∧
    (∃ (s : State) (o : Origin) (q : Byte) (d : Desc), checkSet (.microstepTable o q d) s = stOk ∧ (∀ p : Fin 6, s.quads[quadIx q].tableDrive[p] = none)) ∧
    (∃ (s : State) (o : Origin) (q : Byte) (d : Desc) (k : QuadId), checkSet (.microstepTable o q d) s = stOk ∧ k ≠ quadIx q) ∧
    (∃ (s : State) (o : Origin) (st : Half) (h : Word) (d : Desc), checkSet (.auxCurve o st h d) s = stOk) :=
  ⟨⟨tUp, wO, 0, 16, 0, 0, 0, by decide +kernel⟩,
   ⟨tUp, wO, 0, 16, 0, 0, 0, 1, by decide +kernel⟩,
   ⟨tUp, wO, 0, 500, 0, 0, by decide +kernel⟩,
   ⟨tUp, wO, 0, wDat (wBs 768 []), by decide +kernel⟩,
   ⟨tUp, wO, 0, wDat (wBs 768 []), 1, by decide +kernel⟩,
   ⟨wAt { wBound .ready with cfg := { (wBound .ready).cfg with binding := .servo 0 0 } }, wO, 0, 0, wDat (wBs 48 [(2, 1, 2), (12, 3, 1), (16, 4, 1), (20, 3, 1), (24, 2, 1), (28, 2, 10), (40, 4, 1)]), by decide +kernel⟩⟩

theorem witness_DriveAndFeedbackSettingsTakeEffect_3 :
    (∃ (s : State) (o : Origin) (st : Half) (speed : Word), checkSet (.auxCommand o st speed) s = stOk) ∧
    (∃ (s : State) (o : Origin) (st : Half) (fb : Byte) (num : Word) (den : Word) (j : StrandId), checkSet (.enlargerSet o st fb num den) s = stOk ∧ j ≠ strandIx st) ∧
    (∃ (s : State) (o : Origin) (g : Byte) (w : Word) (d : Word), checkSet (.stepgenConfig o g w d) s = stOk) ∧
    (∃ (s : State) (o : Origin) (st : Half) (address : Half) (scale : Half) (q : QuadId) (p : Fin 6), checkSet (.tableStep o st address scale) s = stOk ∧ s.strands[strandIx st].cfg.binding = .stepper q p ∧ scale ≠ 0) ∧
    (∃ (s : State) (o : Origin) (st : Half) (address : Half) (q : QuadId) (p : Fin 6), checkSet (.tableStep o st address 0) s = stOk ∧ s.strands[strandIx st].cfg.binding = .stepper q p) ∧
    (∃ (s : State) (o : Origin) (u : Byte) (mode : Byte) (filter : Half) (bits : Byte) (bw : Word), checkSet (.fbConfig o u mode filter bits bw) s = stOk ∧ s.fbs[fbIx u].cfg.mode = (fbCfgOf mode filter bits bw).mode ∧ s.fbs[fbIx u].cfg.invert = (fbCfgOf mode filter bits bw).invert) :=
  ⟨⟨wAt { wBound .run with cfg := { (wBound .run).cfg with binding := .servo 0 0, aux := some wAux } }, wO, 0, 0, by decide +kernel⟩,
   ⟨wAt { wBound .ready with cfg := { (wBound .ready).cfg with binding := .stepper 0 0 } }, wO, 0, 0, 0, 1, 1, by decide +kernel⟩,
   ⟨tUp, wO, 0, 0, 0, by decide +kernel⟩,
   ⟨{ wAt { wBound .ready with cfg := { (wBound .ready).cfg with binding := .stepper 0 0 } } with quads := tUp.quads.set 0 { Quad.reset with gateA := true, gateB := true } }, wO, 0, 0, 1, 0, 0, by decide +kernel⟩,
   ⟨{ wAt { wBound .ready with cfg := { (wBound .ready).cfg with binding := .stepper 0 0 } } with quads := tUp.quads.set 0 { Quad.reset with gateA := true, gateB := true } }, wO, 0, 0, 0, 0, by decide +kernel⟩,
   ⟨tUp, wO, 0, 0, 0, 0, 0, by decide +kernel⟩⟩

theorem witness_DriveAndFeedbackSettingsTakeEffect_4 :
    (∃ (s : State) (o : Origin) (u : Byte) (mode : Byte) (filter : Half) (bits : Byte) (bw : Word), checkSet (.fbConfig o u mode filter bits bw) s = stOk ∧ (s.fbs[fbIx u].cfg.mode ≠ (fbCfgOf mode filter bits bw).mode ∨ s.fbs[fbIx u].cfg.invert ≠ (fbCfgOf mode filter bits bw).invert)) ∧
    (∃ (s : State) (o : Origin) (u : Byte) (mode : Byte) (filter : Half) (bits : Byte) (bw : Word) (k : FbId), checkSet (.fbConfig o u mode filter bits bw) s = stOk ∧ k ≠ fbIx u) ∧
    (∃ (s : State) (o : Origin) (u : Byte) (src : Half) (w : Word) (d : Desc) (c : CompareCfg) (k : CmpId), compare? src w (Desc.bytes d) = some c ∧ k ≠ cmpIx u) :=
  ⟨⟨tUp, wO, 0, 1, 0, 0, 0, by decide +kernel⟩,
   ⟨tUp, wO, 0, 0, 0, 0, 0, 1, by decide +kernel⟩,
   ⟨tUp, wO, 0, 0, 20, wDat (wBs 24 [(0, 2, 1)]), (Option.get _ (by decide +kernel)), 1, (Option.some_get _).symm, by decide⟩⟩

theorem witness_EngineAndDomainSetsTakeEffect :
    (∃ (s : State) (o : Origin) (e : Byte) (p : Byte) (k : Fin 16) (im : FlyerImage), checkSet (.flyerAssign o e p) s = stOk ∧ fin? 16 p.toNat = some k ∧ s.progs[k] = some im ∧ im.entries.getD 0 0 ≠ 0) ∧
    (∃ (s : State) (o : Origin) (e : Byte) (p : Byte) (k : EngineId), checkSet (.flyerAssign o e p) s = stOk ∧ k ≠ engineIx e) ∧
    (∃ (s : State) (o : Origin) (e : Byte) (sp : EngineId), checkSet (.engineRetire o e) s = stOk ∧ spareOf s = some sp ∧ sp ≠ engineIx e) ∧
    (∃ (s : State) (o : Origin) (e : Byte) (sp : EngineId) (i : StrandId), checkSet (.engineRetire o e) s = stOk ∧ spareOf s = some sp ∧ sp ≠ engineIx e) ∧
    (∃ (s : State) (o : Origin), checkSet (.domainLeave o) s = stOk) ∧
    (∃ (s : State) (o : Origin) (t : Half) (r : SchedRefusal), checkSet (.setCycle o t) s = stOk ∧ ownRefusal s t.toNat = some r) ∧
    (∃ (s : State) (o : Origin) (t : Half), checkSet (.setCycle o t) s = stOk ∧ ownRefusal s t.toNat = none) ∧
    (∃ (s : State) (o : Origin) (d : Desc) (l : List (BitVec 24)), checkSet (.hostSubscribe o d) s = stOk ∧ subs? ((Desc.bytes d).length / 4) (Desc.bytes d) = some l) :=
  ⟨⟨{ tUp with progs := tUp.progs.set 0 (some ⟨true, 0, [1, 0, 0, 0, 1, 0], [1, 0, 0, 0, 0, 0], [], []⟩) }, wO, 0, 0, 0, ⟨true, 0, [1, 0, 0, 0, 1, 0], [1, 0, 0, 0, 0, 0], [], []⟩, by decide +kernel⟩,
   ⟨tUp, wO, 0, 0xFF, 1, by decide +kernel⟩,
   ⟨tUp, wO, 1, 16, by decide⟩,
   ⟨tUp, wO, 1, 16, 0, by decide⟩,
   ⟨tUp, wO, by decide +kernel⟩,
   ⟨{ wAt { Strand.reset with cfg := { Strand.reset.cfg with binding := .virt, dS := 0, dP := 0, kP := 0 } } with link := { tUp.link with master := true } }, wO, 125, _, by decide +kernel, rfl⟩,
   ⟨{ tUp with link := { tUp.link with master := true } }, wO, 125, by decide +kernel⟩,
   ⟨tUp, wO, wDat (wBs 4 []), _, by decide, rfl⟩⟩

theorem witness_LongCommandsStart :
    (∃ (o : Origin) (first : Word) (count : Word) (d : Desc) (s : State), Served (.logRead o first count d) o s ∧ outDescOk (s.holdTag o.mb o.tag) d = true) ∧
    (∃ (o : Origin) (table : Half) (points : Word) (d : Desc) (bs : List Byte) (c : CamBuf) (s : State), Served (.camLoad o table points d) o s ∧ readDesc (s.holdTag o.mb o.tag) d = .ok bs ∧ camBuf? bs points.toNat = some c) ∧
    (∃ (o : Origin) (table : Half) (buffer : Byte) (d : Desc) (s : State), Served (.camRead o table buffer d) o s ∧ outDescOk (s.holdTag o.mb o.tag) d = true ∧ camSize (camBuffer table buffer s) ≤ d.len.toNat) ∧
    (∃ (o : Origin) (program : Byte) (d : Desc) (sig : Bool) (bs : List Byte) (s : State), Served (.flyerLoad o program d sig) o s ∧ readDesc (s.holdTag o.mb o.tag) d = .ok bs) ∧
    (∃ (o : Origin) (address : Word) (d : Desc) (s : State), Served (.memRead o address d) o s ∧ outDescOk (s.holdTag o.mb o.tag) d = true) ∧
    (∃ (o : Origin) (address : Word) (d : Desc) (bs : List Byte) (s : State), Served (.memWrite o address d) o s ∧ readDesc (s.holdTag o.mb o.tag) d = .ok bs ∧ s.host.bench = true) ∧
    (∃ (o : Origin) (bank : Byte) (row : Half) (s : State), Served (.memRepair o bank row) o s ∧ s.mem.banks[(Fin.ofNat 32 bank.toNat)].spares < 64) ∧
    (∃ (o : Origin) (first : Word) (count : Word) (d : Desc) (bs : List Byte) (s : State), Served (.scheduleWrite o first count d) o s ∧ readDesc (s.holdTag o.mb o.tag) d = .ok bs ∧ s.link.master = true) ∧
    (∃ (o : Origin) (s : State), Served (.negativeSave o) o s) ∧
    (∃ (o : Origin) (password : Rec32) (d : Desc) (bs : List Byte) (s : State), Served (.safetyWrite o password d) o s ∧ readDesc (s.holdTag o.mb o.tag) d = .ok bs ∧ anyMoving (armedView (s.holdTag o.mb o.tag)) = false) ∧
    (∃ (o : Origin) (unit : Byte) (d : Desc) (s : State), Served (.expRead o unit d) o s ∧ outDescOk (s.holdTag o.mb o.tag) d = true) ∧
    (∃ (o : Origin) (image : Byte) (offset : Word) (last : Byte) (d : Desc) (sig : Bool) (bs : List Byte) (s : State), Served (.fwWrite o image offset last d sig) o s ∧ readDesc (s.holdTag o.mb o.tag) d = .ok bs ∧ (image == 1) ≠ s.dist.image) ∧
    (∃ (o : Origin) (d : Desc) (bs : List Byte) (s : State), Served (.calWrite o d) o s ∧ readDesc (s.holdTag o.mb o.tag) d = .ok bs) ∧
    (∃ (o : Origin) (f : Half) (level : Byte) (s : State), Served (.selfTest o f level) o s ∧ checkSelfTest f (armedView (s.holdTag o.mb o.tag)) = stOk) :=
  ⟨⟨wO, 0, 0, wOut 4096, tUp, by decide⟩,
   ⟨wO, 0, 4, wDat (wBs 64 [(8, 8, 65536)]), _, (Option.get _ (by decide +kernel)), tUp, by decide, rfl, (Option.some_get _).symm⟩,
   ⟨wO, 0, 0, wOut 64, tUp, by decide⟩,
   ⟨wO, 0, wDat (wBs 8 []), false, _, tUp, by decide, rfl⟩,
   ⟨wO, 0, wOut 8, tUp, by decide⟩,
   ⟨wO, 0, wDat (wBs 8 []), _, tUp, by decide, rfl, by decide⟩,
   ⟨wO, 0, 0, tUp, by decide⟩,
   ⟨wO, 0, 1, wDat (wBs 32 []), _, { tUp with link := { tUp.link with master := true } }, by decide, rfl, by decide⟩,
   ⟨wO, tUp, by decide⟩,
   ⟨wO, 0, wDat (wBs 8 []), _, tUp, by decide, rfl, by decide +kernel⟩,
   ⟨wO, 0, wOut 8, tUp, by decide⟩,
   ⟨wO, 1, 0, 0, wDat (wBs 8 []), false, _, tUp, by decide, rfl, by decide⟩,
   ⟨wO, wCalD, _, tUp, wCalServed, rfl⟩,
   ⟨wO, 0x100, 0, tUp, by decide, by decide +kernel⟩⟩

theorem witness_LongOperationsStepToTheirEnd :
    (∃ (mb : MbId) (tag : Fin 32) (x : StepInput) (s : State), longAt s mb tag = none) ∧
    (∃ (mb : MbId) (tag : Fin 32) (x : StepInput) (g : LongOp) (o : Origin) (s : State) (t : State) (phase : Nat) (progress : Nat), MayStep mb tag g o s ∧ g.cancel = false ∧ longStep g x s = .goOn t phase progress) ∧
    (∃ (mb : MbId) (tag : Fin 32) (x : StepInput) (g : LongOp) (o : Origin) (s : State), longAt s mb tag = some (g, o) ∧ (s.dist.longs.head? ≠ some g ∨ (s.dist.stepped = true ∧ shortWaits s = true))) ∧
    (∃ (mb : MbId) (tag : Fin 32) (x : StepInput) (g : LongOp) (o : Origin) (table : Half) (points : Word) (d : Desc) (k : Nat) (s : State) (j : Fin 64), MayStep mb tag g o s ∧ g.cancel = false ∧ g.cmd = .camLoad o table points d ∧ g.phase = k + 1 ∧ points.toNat ≤ (k + 1) * 512 ∧ j ≠ camIx table) ∧
    (∃ (mb : MbId) (tag : Fin 32) (x : StepInput) (g : LongOp) (o : Origin) (program : Byte) (d : Desc) (sig : Bool) (im : FlyerImage) (s : State), MayStep mb tag g o s ∧ g.cancel = false ∧ g.cmd = .flyerLoad o program d sig ∧ 0 < g.phase ∧ flyerImage? (Desc.bytes d) = some im ∧ policyAdmits s.saf.cfg im sig = true) ∧
    (∃ (mb : MbId) (tag : Fin 32) (x : StepInput) (g : LongOp) (o : Origin) (address : Word) (d : Desc) (s : State), MayStep mb tag g o s ∧ g.cancel = false ∧ g.cmd = .memWrite o address d ∧ g.phase = 0 ∧ d.len.toNat ≤ stepBytes) ∧
    (∃ (mb : MbId) (tag : Fin 32) (x : StepInput) (g : LongOp) (o : Origin) (image : Byte) (offset : Word) (last : Byte) (d : Desc) (s : State), MayStep mb tag g o s ∧ g.cancel = false ∧ g.cmd = .fwWrite o image offset last d true ∧ last ≠ 0 ∧ (Desc.bytes d).length ≤ g.phase ∧ (image == 1) ≠ s.dist.image) ∧
    (∃ (mb : MbId) (tag : Fin 32) (x : StepInput) (g : LongOp) (o : Origin) (d : Desc) (s : State), MayStep mb tag g o s ∧ g.cancel = false ∧ g.cmd = .calWrite o d ∧ 0 < g.phase) ∧
    (∃ (mb : MbId) (tag : Fin 32) (x : StepInput) (g : LongOp) (o : Origin) (f : Half) (level : Byte) (s : State), MayStep mb tag g o s ∧ g.cancel = false ∧ g.cmd = .selfTest o f level ∧ 0 < g.phase) :=
  ⟨⟨0, 0, wX, tUp, by decide⟩,
   ⟨0, 0, wX, ⟨.calWrite wO wD, 0, 0, false, 0⟩, wO, wLong ⟨.calWrite wO wD, 0, 0, false, 0⟩, _, _, _, by decide, by decide, rfl⟩,
   ⟨0, 0, wX, ⟨.calWrite wO wD, 1, 0, false, 0⟩, wO, { tUp with dist := { tUp.dist with longs := [⟨.calWrite { wO with tag := 1 } wD, 1, 0, false, 0⟩, ⟨.calWrite wO wD, 1, 0, false, 0⟩] } }, by decide⟩,
   ⟨0, 0, wX, ⟨.camLoad wO 0 4 wD, 1, 0, false, 0⟩, wO, 0, 4, wD, 0, wLong ⟨.camLoad wO 0 4 wD, 1, 0, false, 0⟩, 1, by decide⟩,
   ⟨0, 0, wX, ⟨.flyerLoad wO 0 (wDat (wBs 72 [(0, 4, 0x314C5946), (4, 2, 1), (8, 1, 4), (12, 2, 1), (16, 2, 1)])) false, 1, 0, false, 0⟩, wO, 0, (wDat (wBs 72 [(0, 4, 0x314C5946), (4, 2, 1), (8, 1, 4), (12, 2, 1), (16, 2, 1)])), false, (Option.get _ (by decide +kernel)), wLong ⟨.flyerLoad wO 0 (wDat (wBs 72 [(0, 4, 0x314C5946), (4, 2, 1), (8, 1, 4), (12, 2, 1), (16, 2, 1)])) false, 1, 0, false, 0⟩, by decide, by decide, by decide, by decide, (Option.some_get _).symm, by decide +kernel⟩,
   ⟨0, 0, wX, ⟨.memWrite wO 0 wD, 0, 0, false, 0⟩, wO, 0, wD, wLong ⟨.memWrite wO 0 wD, 0, 0, false, 0⟩, by decide⟩,
   ⟨0, 0, wX, ⟨.fwWrite wO 1 0 1 wD true, 0, 0, false, 0⟩, wO, 1, 0, 1, wD, wLong ⟨.fwWrite wO 1 0 1 wD true, 0, 0, false, 0⟩, by decide⟩,
   ⟨0, 0, wX, ⟨.calWrite wO wD, 1, 0, false, 0⟩, wO, wD, wLong ⟨.calWrite wO wD, 1, 0, false, 0⟩, by decide⟩,
   ⟨0, 0, wX, ⟨.selfTest wO 0x100 0, 1, 0, false, 0⟩, wO, 0x100, 0, wLong ⟨.selfTest wO 0x100 0, 1, 0, false, 0⟩, by decide⟩⟩

theorem witness_CancelEndsAnOperationAtItsNextStep :
    (∃ (o : Origin) (mailbox : Byte) (tag : Byte) (g : LongOp) (q : Origin) (s : State), Served (.cancel o mailbox tag) o s ∧ longAt s (Fin.ofNat 8 mailbox.toNat) (Fin.ofNat 32 tag.toNat) = some (g, q)) ∧
    (∃ (o : Origin) (mailbox : Byte) (tag : Byte) (s : State), Served (.cancel o mailbox tag) o s ∧ longAt s (Fin.ofNat 8 mailbox.toNat) (Fin.ofNat 32 tag.toNat) = none ∧ longInHand s (Fin.ofNat 8 mailbox.toNat) (Fin.ofNat 32 tag.toNat) = none) ∧
    (∃ (o : Origin) (mailbox : Byte) (tag : Byte) (i : Instr) (q : Origin) (s : State), Served (.cancel o mailbox tag) o s ∧ longAt s (Fin.ofNat 8 mailbox.toNat) (Fin.ofNat 32 tag.toNat) = none ∧ longInHand s (Fin.ofNat 8 mailbox.toNat) (Fin.ofNat 32 tag.toNat) = some (i, q) ∧ s.owedFor i = none) ∧
    (∃ (mb : MbId) (tag : Fin 32) (x : StepInput) (g : LongOp) (o : Origin) (s : State), MayStep mb tag g o s ∧ g.cancel = true) :=
  ⟨⟨wO, 0, 1, ⟨.negativeSave { wO with tag := 1 }, 0, 0, false, 0⟩, { wO with tag := 1 }, wLong ⟨.negativeSave { wO with tag := 1 }, 0, 0, false, 0⟩, by decide⟩,
   ⟨wO, 0, 1, tUp, by decide⟩,
   ⟨wO, 1, 0, .negativeSave { wO with mb := 1 }, { wO with mb := 1 }, { tUp with dist := { tUp.dist with inHand := [.negativeSave { wO with mb := 1 }] } }, by decide⟩,
   ⟨0, 0, wX, ⟨.calWrite wO wD, 1, 0, true, 0⟩, wO, wLong ⟨.calWrite wO wD, 1, 0, true, 0⟩, by decide⟩⟩

theorem witness_AluInstructionsSetTheirResultAndFlags :
    ∃ (e : EngineId) (s : State) (dst : BitVec 4) (a : BitVec 4) (b : BitVec 4) (m : MemSlot), Ordinary e s ∧ NoSlot m :=
  ⟨0, wUser, 0, 0, 0, wM, by decide⟩

theorem witness_MaxiAndMiniKeepTheFirstExtreme :
    (∃ (e : EngineId) (s : State) (dst : BitVec 4) (c : BitVec 4) (k : BitVec 4) (m : MemSlot), Ordinary e s ∧ m.op = 0 ∧ dst.getLsbD 0 = false) ∧
    (∃ (e : EngineId) (s : State) (dst : BitVec 4) (c : BitVec 4) (k : BitVec 4) (m : MemSlot), Issues e s ∧ SlotLegal m ∧ dst.getLsbD 0 = true) :=
  ⟨⟨0, wUser, 0, 0, 0, wM, by decide⟩,
   ⟨0, tUp, 1, 0, 0, wM, by decide⟩⟩

theorem witness_AccumulatorsAreReadAsFields :
    ∃ (e : EngineId) (s : State) (dst : BitVec 4) (a : BitVec 4) (page : BitVec 4) (m : MemSlot) (v : Sample), Ordinary e s ∧ NoSlot m ∧ ¬(page.toNat % 2 = 1 ∧ a = 3) ∧ s.engines[e].control (page.toNat % 2) a.toNat = some v :=
  ⟨0, wUser, 0, 0, 0, wM, _, by decide, by decide, by decide, rfl⟩

theorem witness_HelpersAndAccumulatorsTakeTheirWrites :
    (∃ (e : EngineId) (s : State) (dst : BitVec 4) (a : BitVec 4) (m : MemSlot), Issues e s ∧ SlotLegal m ∧ dst ≠ 15) ∧
    (∃ (e : EngineId) (s : State) (dst : BitVec 4) (a : BitVec 4) (m : MemSlot), Issues e s ∧ SlotLegal m ∧ dst.toNat ≤ 13 ∧ a.toNat ≤ 13) ∧
    (∃ (e : EngineId) (s : State) (dst : BitVec 4) (a : BitVec 4) (m : MemSlot) (y : Engine), Issues e s ∧ SlotLegal m ∧ divStep (s.key e) s.engines[e] (acc4 dst) (s.engines[e].d a.toNat) = .inr y) ∧
    (∃ (e : EngineId) (s : State) (dst : BitVec 4) (a : BitVec 4) (m : MemSlot), Issues e s ∧ SlotLegal m ∧ ¬(m.upd ≠ 0 ∧ m.a.toNat = dst.toNat % 8)) ∧
    (∃ (e : EngineId) (s : State) (dst : BitVec 4) (a : BitVec 4) (page : BitVec 4) (m : MemSlot), Issues e s ∧ SlotLegal m ∧ (s.engines[e].control (page.toNat % 2) dst.toNat).isSome = true) :=
  ⟨⟨0, tUp, 0, 0, wM, by decide⟩,
   ⟨0, tUp, 0, 0, wM, by decide⟩,
   ⟨0, wE { Engine.reset with bg := { FlBank.reset with d := Vector.replicate 16 1 } }, 0, 0, wM, _, by decide, by decide, rfl⟩,
   ⟨0, tUp, 0, 0, wM, by decide⟩,
   ⟨0, tUp, 0, 0, 0, wM, by decide⟩⟩

theorem witness_BranchesHaveOneDelaySlot :
    (∃ (e : EngineId) (s : State) (c : BitVec 4) (target : BitVec 14) (dst : BitVec 4) (a : BitVec 4) (m : MemSlot) (taken : Bool), Ordinary e s ∧ SlotLegal m ∧ GoodWord e (s.setEngine e { s.engines[e] with pc := s.engines[e].pc + 1 }) ∧ s.engines[e].cond c = some taken ∧ 4096 ≤ (s.engines[e].pc + 2).toNat ∧ 4096 ≤ target.toNat ∧ 4096 ≤ s.engines[e].lr.toNat ∧ m.op = 0) ∧
    (∃ (e : EngineId) (s : State) (c : BitVec 4) (target : BitVec 14), Issues e s ∧ 13 ≤ c.toNat) :=
  ⟨⟨0, wE { Engine.reset with pc := 0x1200, lr := 0x1400 }, 0, 0x1300, 0, 0, wM, _, by decide, by decide, by decide, rfl, by decide⟩,
   ⟨0, tUp, 13, 0, by decide⟩⟩

theorem witness_LoopsRunTheirBodyTheCountGiven :
    (∃ (e : EngineId) (s : State) (k : Fin 2) (r : BitVec 4) (count : Sample) (le : BitVec 14), Issues e s) ∧
    (∃ (e : EngineId) (s : State) (dst : BitVec 4) (a : BitVec 4) (m : MemSlot), GoodWord e s ∧ s.engines[e].run = .running ∧ s.engines[e].delay = none ∧ 4096 ≤ (s.engines[e].pc + 1).toNat ∧ 4096 ≤ s.engines[e].ls[(0 : Fin 2)].toNat ∧ s.engines[e].order = [] ∧ s.roles[e].haltDue = false ∧ s.roles[e].retiring = none ∧ SlotLegal m ∧ s.engines[e].lc[(1 : Fin 2)] = 0 ∧ s.engines[e].xl = false ∧ s.engines[e].status.getLsbD 16 = s.engines[e].lvl ∧ s.engines[e].pc = s.engines[e].le[(0 : Fin 2)] ∧ 1 < s.engines[e].lc[(0 : Fin 2)].toNat) ∧
    (∃ (e : EngineId) (s : State) (dst : BitVec 4) (a : BitVec 4) (m : MemSlot), GoodWord e s ∧ s.engines[e].run = .running ∧ s.engines[e].delay = none ∧ 4096 ≤ (s.engines[e].pc + 1).toNat ∧ 4096 ≤ s.engines[e].ls[(0 : Fin 2)].toNat ∧ s.engines[e].order = [] ∧ s.roles[e].haltDue = false ∧ s.roles[e].retiring = none ∧ SlotLegal m ∧ s.engines[e].lc[(1 : Fin 2)] = 0 ∧ s.engines[e].xl = false ∧ s.engines[e].status.getLsbD 16 = s.engines[e].lvl ∧ s.engines[e].pc = s.engines[e].le[(0 : Fin 2)] ∧ s.engines[e].lc[(0 : Fin 2)] = 1) ∧
    (∃ (e : EngineId) (s : State) (dst : BitVec 4) (a : BitVec 4) (m : MemSlot), GoodWord e s ∧ s.engines[e].run = .running ∧ s.engines[e].delay = none ∧ 4096 ≤ (s.engines[e].pc + 1).toNat ∧ 4096 ≤ s.engines[e].ls[(0 : Fin 2)].toNat ∧ s.engines[e].order = [] ∧ s.roles[e].haltDue = false ∧ s.roles[e].retiring = none ∧ SlotLegal m ∧ s.engines[e].lc[(1 : Fin 2)] = 0 ∧ s.engines[e].xl = false ∧ s.engines[e].status.getLsbD 16 = s.engines[e].lvl ∧ s.engines[e].pc ≠ s.engines[e].le[(0 : Fin 2)]) :=
  ⟨⟨0, tUp, 0, 0, 0, 0, by decide⟩,
   ⟨0, wE { Engine.reset with run := .running, pc := 0x1200, ls := #v[0x1100, 0], le := #v[0x1200, 0], lc := #v[2, 0] }, 0, 0, wM, by decide⟩,
   ⟨0, wE { Engine.reset with run := .running, pc := 0x1200, ls := #v[0x1100, 0], le := #v[0x1200, 0], lc := #v[1, 0] }, 0, 0, wM, by decide⟩,
   ⟨0, wE { Engine.reset with run := .running, pc := 0x1200, ls := #v[0x1100, 0] }, 0, 0, wM, by decide⟩⟩

theorem witness_ControlInstructionsAct :
    (∃ (e : EngineId) (s : State) (n : Half), Issues e s ∧ 1 ≤ n.toNat ∧ n.toNat ≤ 6) ∧
    (∃ (e : EngineId) (s : State), Issues e s ∧ s.engines[e].poison = none ∧ s.engines[e].status.getLsbD 12 = true) ∧
    (∃ (e : EngineId) (s : State), Issues e s ∧ s.engines[e].poison = none ∧ s.engines[e].status.getLsbD 12 = false) ∧
    (∃ (e : EngineId) (s : State) (n : BitVec 2), Issues e s ∧ s.engines[e].poison = none ∧ s.engines[e].fab.length ≤ n.toNat) ∧
    (∃ (e : EngineId) (s : State) (n : BitVec 2), Issues e s ∧ n.toNat < s.engines[e].fab.length) ∧
    (∃ (e : EngineId) (s : State), Issues e s ∧ (s.host.bench = false ∨ s.roles[e].attached = false)) ∧
    (∃ (e : EngineId) (s : State), Issues e s ∧ s.host.bench = true ∧ s.roles[e].attached = true) ∧
    (∃ (e : EngineId) (s : State), Issues e s ∧ s.engines[e].slotHandled = none) ∧
    (∃ (e : EngineId) (s : State) (k : Fin 4), Issues e s ∧ s.engines[e].slotHandled = some k) ∧
    (∃ (e : EngineId) (s : State) (j : EngineId), GoodWord e s ∧ s.engines[e].run = .running ∧ s.roles[e].haltDue = false ∧ s.roles[e].retiring = none ∧ s.engines[e].order = [] ∧ s.engines[e].pend = [] ∧ s.engines[e].slotHandled = none ∧ 4096 ≤ s.engines[e].epc.toNat ∧ j ≠ e) ∧
    (∃ (e : EngineId) (s : State) (j : EngineId), GoodWord e s ∧ s.engines[e].run = .running ∧ s.roles[e].haltDue = false ∧ s.roles[e].retiring = none ∧ s.engines[e].order = [] ∧ s.engines[e].pend = [] ∧ 4096 ≤ s.engines[e].bank.xpc.toNat ∧ j ≠ e) :=
  ⟨⟨0, tUp, 6, by decide⟩,
   ⟨0, wE { Engine.reset with status := 0x1000 }, by decide⟩,
   ⟨0, tUp, by decide⟩,
   ⟨0, tUp, 0, by decide⟩,
   ⟨0, wE { Engine.reset with fab := [.fmv 0 0 true 1 []] }, 0, by decide⟩,
   ⟨0, tUp, by decide⟩,
   ⟨0, { tUp with roles := tUp.roles.set 0 { EngineRole.reset 0 with attached := true } }, by decide⟩,
   ⟨0, tUp, by decide⟩,
   ⟨0, wE { Engine.reset with handling := some 1 }, 1, by decide⟩,
   ⟨0, wE { Engine.reset with run := .running, epc := 0x1200 }, 1, by decide⟩,
   ⟨0, wE { Engine.reset with run := .running, bg := { FlBank.reset with xpc := 0x1200 } }, 1, by decide⟩⟩

theorem witness_FabricAndExternalAccessesAct :
    (∃ (e : EngineId) (s : State) (r : BitVec 3) (k : BitVec 2) (out : Bool) (lines : BitVec 7) (off : BitVec 24) (ecc : List EccErr), Issues e s ∧ 1 ≤ lines.toNat ∧ lines.toNat ≤ 64 ∧ s.engines[e].a[(Fin.ofNat 8 r.toNat)].toNat % 16 = 0 ∧ (s.engines[e].xb[(Fin.ofNat 4 k.toNat)] + off.setWidth 32).toNat % 16 = 0 ∧ 0x10000000 ≤ (s.engines[e].xb[(Fin.ofNat 4 k.toNat)] + off.setWidth 32).toNat ∧ (s.engines[e].xb[(Fin.ofNat 4 k.toNat)] + off.setWidth 32).toNat + 16 * lines.toNat ≤ 0x11000000) ∧
    (∃ (e : EngineId) (s : State) (r : BitVec 4) (k : BitVec 2) (swap : Bool) (old : BitVec 15) (off : BitVec 24) (ecc : List EccErr), Issues e s ∧ 0x10000000 ≤ (s.engines[e].xb[(Fin.ofNat 4 k.toNat)] + off.setWidth 32).toNat ∧ (s.engines[e].xb[(Fin.ofNat 4 k.toNat)] + off.setWidth 32).toNat < 0x11000000) ∧
    (∃ (e : EngineId) (s : State) (k : Fin 4) (op : FabOp), s.engines[e].run = .stalled 3 false ∧ s.roles[e].retiring = none ∧ s.engines[e].fab.length = 4 ∧ s.engines[e].held = some op ∧ s.engines[e].fab[k.val]? = some (.fatm 0 0 false 0 []) ∧ s.mem.isPoisoned 0 = false ∧ s.engines[e].order = [] ∧ s.roles[e].haltDue = false ∧ 4096 ≤ (s.engines[e].pc + 2).toNat ∧ s.engines[e].delay = none ∧ s.engines[e].lc[(0 : Fin 2)] = 0 ∧ s.engines[e].lc[(1 : Fin 2)] = 0) ∧
    (∃ (e : EngineId) (s : State) (k : Fin 4) (at_ : Nat) (sample : Nat) (swap : Bool) (v : Sample) (j : Nat), s.engines[e].fab[k.val]? = some (.fatm at_ sample swap v []) ∧ s.engines[e].run = .running ∧ sample < 2 ^ 24 ∧ Canonical s ∧ (∀ b : BankId, s.pwr.banks[b].st = .run) ∧ s.mem.isPoisoned (sample / 4) = false ∧ j < 2 ^ 24 ∧ j ≠ sample) ∧
    (∃ (e : EngineId) (s : State) (k : Fin 4) (at_ : Nat) (sample : Nat) (swap : Bool) (v : Sample) (j : EngineId), s.engines[e].fab[k.val]? = some (.fatm at_ sample swap v []) ∧ s.engines[e].run = .running ∧ sample < 2 ^ 24 ∧ Canonical s ∧ (∀ b : BankId, s.pwr.banks[b].st = .run) ∧ s.mem.isPoisoned (sample / 4) = false ∧ j ≠ e) ∧
    (∃ (e : EngineId) (s : State) (k : Fin 4), s.engines[e].fab[k.val]? = none) ∧
    (∃ (e : EngineId) (s : State) (r : BitVec 4) (k : BitVec 2) (ac : Bool) (off : Word), Issues e s ∧ (xacAddr s.engines[e] k off).toNat % 4 = 0 ∧ xacWrites (xacAddr s.engines[e] k off).toNat = true) ∧
    (∃ (e : EngineId) (s : State) (r : BitVec 4) (k : BitVec 2) (off : Word), Issues e s ∧ (xacAddr s.engines[e] k off).toNat % 4 = 0 ∧ xacReads (xacAddr s.engines[e] k off).toNat = true) :=
  ⟨⟨0, wE { Engine.reset with xb := Vector.replicate 4 0x10FFFC00 }, 0, 0, false, 64, 0, [], by decide⟩,
   ⟨0, wE { Engine.reset with xb := Vector.replicate 4 0x10FFFFFF }, 0, 0, false, 0, 0, [], by decide⟩,
   ⟨0, wE { Engine.reset with pc := 0x1200, run := .stalled 3 false, fab := List.replicate 4 (.fatm 0 0 false 0 []), held := some (.fatm 0 0 false 0 []) }, 0, .fatm 0 0 false 0 [], by decide⟩,
   ⟨0, wE { Engine.reset with run := .running, fab := [.fatm 0 0 false 0 []] }, 0, 0, 0, false, 0, 1, by decide⟩,
   ⟨0, wE { Engine.reset with run := .running, fab := [.fatm 0 0 false 0 []] }, 0, 0, 0, false, 0, 1, by decide⟩,
   ⟨0, tUp, 0, by decide⟩,
   ⟨0, wE { Engine.reset with xb := Vector.replicate 4 0x80140004 }, 0, 0, false, 0, by decide⟩,
   ⟨0, wE { Engine.reset with xb := Vector.replicate 4 0x80100000 }, 0, 0, 0, by decide⟩⟩

theorem witness_FaultyInstructionsTrapWithoutEffect :
    (∃ (e : EngineId) (s : State) (dst : BitVec 4) (a : BitVec 4) (m : MemSlot), Issues e s ∧ SlotLegal m ∧ s.engines[e].d a.toNat = 0) ∧
    (∃ (e : EngineId) (s : State) (dst : BitVec 4) (a : BitVec 4) (m : MemSlot) (p : Word), Issues e s ∧ SlotLegal m ∧ s.engines[e].poison = some p) ∧
    (∃ (e : EngineId) (s : State) (dst : BitVec 4) (a : BitVec 4) (m : MemSlot), Issues e s ∧ m.op = 1 ∧ m.ecc = some true) ∧
    (∃ (e : EngineId) (s : State) (cause : Nat) (info : Word), (cause = 4 ∨ cause = 6 ∨ s.engines[e].xl = true)) ∧
    (∃ (e : EngineId) (s : State) (r : BitVec 4) (k : BitVec 2) (ac : Bool) (off : Word), Issues e s ∧ xacWrites (xacAddr s.engines[e] k off).toNat = false) ∧
    (∃ (e : EngineId) (s : State) (r : BitVec 4) (k : BitVec 2) (swap : Bool) (old : BitVec 15) (off : BitVec 24) (ecc : List EccErr), Issues e s ∧ (xacAddr s.engines[e] k (off.setWidth 32)).toNat < 0x10000000) ∧
    (∃ (e : EngineId) (s : State) (cause : Nat) (info : Word), (cause = 1 ∨ cause = 2 ∨ cause = 5) ∧ s.engines[e].xl = false ∧ s.engines[e].lvl = false ∧ s.engines[e].pend = []) ∧
    (∃ (e : EngineId) (s : State), s.roles[e].inService = true ∧ s.engines[e].run ≠ .debug ∧ 16 ≤ s.roles[e].busy) ∧
    (∃ (e : EngineId) (s : State), s.roles[e].busy < 16) ∧
    (∃ (e : EngineId) (s : State), s.roles[e].inService = true ∧ s.engines[e].run ≠ .debug ∧ s.engines[e].lvl = true) :=
  ⟨⟨0, tUp, 0, 0, wM, by decide⟩,
   ⟨0, wE { Engine.reset with poison := some 0 }, 0, 0, wM, 0, by decide⟩,
   ⟨0, tUp, 0, 0, { wM with op := 1, ecc := some true }, by decide⟩,
   ⟨0, tUp, 4, 0, by decide⟩,
   ⟨0, tUp, 0, 0, false, 0, by decide⟩,
   ⟨0, tUp, 0, 0, false, 0, 0, [], by decide⟩,
   ⟨0, tUp, 1, 0, by decide⟩,
   ⟨0, { tUp with roles := tUp.roles.set 0 { EngineRole.reset 0 with busy := 16 } }, by decide⟩,
   ⟨0, tUp, by decide⟩,
   ⟨0, wE { Engine.reset with status := 32 }, by decide⟩⟩

theorem witness_HostWritesActOnTheirRegisters :
    (∃ (v : Word) (s : State) (k : Nat), s.host.pcieUp = true ∧ k < 32 ∧ s.host.intMask.getLsbD k = true ∧ v.getLsbD k = false ∧ s.host.intStatus.getLsbD k = true ∧ s.host.msixEnable = true ∧ entryMasked s.host k = false) ∧
    (∃ (v : Word) (s : State) (k : Nat), s.host.pcieUp = true ∧ k < 25) ∧
    (∃ (s : State) (a : BitVec 24) (b : Byte), s.host.pcieUp = true ∧ areaOf a.toNat = .readOnly) ∧
    (∃ (s : State) (v : Word) (a : BitVec 24) (bs : List Byte), s.host.pcieUp = false) ∧
    (∃ (a : Word) (v : BitVec 64) (s : State), a.toNat % 4 = 0 ∧ 0x80000000 ≤ a.toNat) :=
  ⟨⟨0, wHost { tUp.host with intStatus := 1, msixEnable := true, msixTable := Vector.replicate 512 0 }, 0, by decide⟩,
   ⟨0, tUp, 0, by decide⟩,
   ⟨tUp, 0x200000, 0, by decide⟩,
   ⟨wHost HostIf.reset, 0, 0, [], by decide⟩,
   ⟨0x80000000, 0, tUp, by decide⟩⟩

theorem witness_ClocksAndPowerEventsAct_1 :
    (∃ (src : BitVec 2) (s : State), src = 0) ∧
    (∃ (src : BitVec 2) (s : State), src = 1) ∧
    (∃ (src : BitVec 2) (s : State), src = 2) ∧
    (∃ (s : State) (x : BitVec 2), s.clk.revert = true ∧ s.clk.holdover = false ∧ [s.clk.pri0, s.clk.pri1, s.clk.pri2].find? (sourceGood s.clk) = some x) ∧
    (∃ (s : State), (s.clk.revert = false ∨ s.clk.holdover = true)) ∧
    (∃ (s : State) (a : Nat) (b : Nat), 1987 ≤ a ∧ a ≤ 2109 ∧ 1987 ≤ b ∧ b ≤ 2109) ∧
    (∃ (s : State) (a : Nat) (b : Nat), a < 1987 ∧ 2109 < b ∧ s.clk.badC = 0 ∧ s.clk.badF = 0) ∧
    (∃ (s : State) (a : Nat) (b : Nat), a < 1900 ∧ 1987 ≤ b ∧ b ≤ 2109 ∧ s.clk.badC = 1 ∧ s.clk.keeperCFault = false) :=
  ⟨⟨0, tUp, by decide⟩,
   ⟨1, tUp, by decide⟩,
   ⟨2, tUp, by decide⟩,
   ⟨wClk { Clock.reset with revert := true }, 0, by decide⟩,
   ⟨tUp, by decide⟩,
   ⟨tUp, 1987, 2109, by decide⟩,
   ⟨tUp, 0, 2110, by decide⟩,
   ⟨wClk { Clock.reset with badC := 1 }, 1899, 1987, by decide⟩⟩

theorem witness_ClocksAndPowerEventsAct_2 :
    (∃ (f : Half) (x : PwrFn) (s : State), pwrFn s.pwr f = some x ∧ pwrDepth x.st < pwrDepth (targetState s f x.tol.toNat)) ∧
    (∃ (f : Half) (x : PwrFn) (s : State), pwrFn s.pwr f = some x ∧ pwrDepth (targetState s f x.tol.toNat) ≤ pwrDepth x.st) ∧
    (∃ (f : Half) (s : State), pwrFn s.pwr f = none) ∧
    (∃ (s : State), s.pwr.dev = .dormant) ∧
    (∃ (s : State), s.pwr.dev ≠ .dormant) ∧
    (∃ (s : State), s.dist.st = .running) ∧
    (∃ (s : State), s.dist.st = .switching) ∧
    (∃ (b : Fin 24) (s : State), s.pwr.held = false ∧ s.pwr.dev ≠ .dormant ∧ b ≠ rdyDistaff ∧ b ≠ rdyMailboxes ∧ b ≠ rdyRecovery ∧ b ≠ rdyCal ∧ b ≠ rdySafA ∧ b ≠ rdySafB) :=
  ⟨⟨0x300, _, wPwr { tUp.pwr with quads := tUp.pwr.quads.set 0 ⟨60000, .run⟩ }, rfl, by decide +kernel⟩,
   ⟨0x300, _, tUp, rfl, by decide +kernel⟩,
   ⟨0, tUp, by decide⟩,
   ⟨wPwr { tUp.pwr with dev := .dormant }, by decide⟩,
   ⟨tUp, by decide⟩,
   ⟨tUp, by decide⟩,
   ⟨wStop .switching, by decide⟩,
   ⟨rdyFdie, tUp, by decide⟩⟩

theorem witness_ClocksAndPowerEventsAct_3 :
    ∃ (x : Island) (s : State), s.pwr.held = false ∧ s.pwr.dev ≠ .dormant ∧ (s.isle x).failed = false :=
  ⟨.a, tUp, by decide⟩

theorem witness_UsbCarriesMailboxFour :
    (∃ (slots : List SlotWord) (s : State) (k : Nat), usbBulk s = true ∧ slots.length ≤ 64 - (s.mb[(4 : MbId)].reqPi - s.mb[(4 : MbId)].reqCi).toNat ∧ k < slots.length) ∧
    (∃ (slots : List SlotWord) (s : State) (m : MbId), usbBulk s = true ∧ slots.length ≤ 64 - (s.mb[(4 : MbId)].reqPi - s.mb[(4 : MbId)].reqCi).toNat ∧ m ≠ 4) ∧
    (∃ (slots : List SlotWord) (n : Nat) (s : State), usbBulk s = true ∧ n % 64 ≠ 0) ∧
    (∃ (s : State), usbBulk s = true ∧ s.mb[(4 : MbId)].rspPi ≠ s.mb[(4 : MbId)].rspCi) ∧
    (∃ (w : SlotWord) (s : State), usbBulk s = true ∧ s.usb.status = none ∧ (s.mb[(4 : MbId)].reqPi - s.mb[(4 : MbId)].reqCi).toNat < 64) ∧
    (∃ (s : State) (tag : Fin 32), s.usb.status = some tag) ∧
    (∃ (stage : UsbStage) (s : State) (k : Nat), usbUp s = true ∧ s.mb[(4 : MbId)].held.getLsbD k = true) ∧
    (∃ (stage : UsbStage) (s : State) (w : SlotWord), usbUp s = true ∧ w ∈ uncollected s.mb[(4 : MbId)] 0) ∧
    (∃ (s : State), s.mb[(4 : MbId)].rspPi ≠ s.mb[(4 : MbId)].rspCi ∧ s.usb.discardable ≠ 0) ∧
    (∃ (hs : Bool) (s : State), s.pwr.held = false ∧ s.pwr.dev ≠ .dormant) ∧
    (∃ (image : Bool) (data : List Byte) (s : State) (k : Nat), usbUp s = true ∧ s.usb.dfuOnly = true ∧ s.dist.st = .recovery ∧ data.length ≤ 4096 ∧ k < data.length) :=
  ⟨⟨List.replicate 64 0, wUsb, 63, by decide⟩,
   ⟨[0], wUsb, 0, by decide⟩,
   ⟨[], 63, wUsb, by decide⟩,
   ⟨wUsb4 { Mailbox.reset with rspPi := 1 }, by decide⟩,
   ⟨0, wUsb, by decide⟩,
   ⟨{ wUsb with usb := { wUsb.usb with status := some 0 } }, 0, by decide⟩,
   ⟨.idle, wUsb4 { Mailbox.reset with held := 1 }, 0, by decide⟩,
   ⟨.idle, wUsb4 { Mailbox.reset with rspPi := 1 }, 0, by decide +kernel⟩,
   ⟨{ wUsb4 { Mailbox.reset with rspPi := 1 } with usb := { wUsb.usb with discardable := 1 } }, by decide⟩,
   ⟨false, tUp, by decide⟩,
   ⟨false, [0], { wUsb with usb := { wUsb.usb with dfuOnly := true }, dist := (wStop .recovery).dist }, 0, by decide⟩⟩

theorem witness_EthernetCarriesMailboxFive :
    (∃ (up : Bool) (speed : BitVec 2) (s : State), s.pwr.held = false ∧ s.pwr.dev ≠ .dormant) ∧
    (∃ (proof : Rec32) (hn : BitVec 128) (dn : BitVec 128) (sid : Word) (k : BitVec 256) (s : State), ethUp s = true ∧ s.isReady rdyEth = true ∧ s.eth.challenge = some (hn, dn, sid) ∧ s.eth.key = some k ∧ recBytes32 proof = hmac (bytesOf k) (openText ++ bytesOf hn ++ bytesOf dn ++ leBytes 4 sid.toNat)) ∧
    (∃ (proof : Rec32) (hn : BitVec 128) (dn : BitVec 128) (sid : Word) (k : BitVec 256) (s : State), ethUp s = true ∧ s.isReady rdyEth = true ∧ s.eth.challenge = some (hn, dn, sid) ∧ s.eth.key = some k ∧ recBytes32 proof ≠ hmac (bytesOf k) (openText ++ bytesOf hn ++ bytesOf dn ++ leBytes 4 sid.toNat)) ∧
    (∃ (dg : Datagram) (slots : List SlotWord) (s : State) (k : Nat), ethUp s = true ∧ s.isReady rdyEth = true ∧ 1 ≤ slots.length ∧ slots.length ≤ 16 ∧ s.eth.session = some dg.session ∧ recBytes32 dg.mac = hmac (bytesOf s.eth.sessionKey) (dgBody 4 dg (slots.flatMap slotBytes)) ∧ dg.seq = s.eth.rxSeq + 1 ∧ slots.length ≤ 64 - (s.mb[(5 : MbId)].reqPi - s.mb[(5 : MbId)].reqCi).toNat ∧ k < slots.length) ∧
    (∃ (dg : Datagram) (slots : List SlotWord) (s : State), ethUp s = true ∧ s.isReady rdyEth = true ∧ 1 ≤ slots.length ∧ slots.length ≤ 16 ∧ s.eth.session = some dg.session ∧ recBytes32 dg.mac = hmac (bytesOf s.eth.sessionKey) (dgBody 4 dg (slots.flatMap slotBytes)) ∧ dg.seq ≠ s.eth.rxSeq + 1) ∧
    (∃ (dg : Datagram) (slots : List SlotWord) (s : State), ethUp s = true ∧ s.isReady rdyEth = true ∧ 1 ≤ slots.length ∧ slots.length ≤ 16 ∧ (s.eth.session ≠ some dg.session ∨ recBytes32 dg.mac ≠ hmac (bytesOf s.eth.sessionKey) (dgBody 4 dg (slots.flatMap slotBytes)))) ∧
    (∃ (dg : Datagram) (h : BitVec 128) (data : List Byte) (s : State), ethUp s = true ∧ s.isReady rdyEth = true ∧ data.length ≤ 1360 ∧ stageMagic h = true ∧ s.eth.session = some dg.session ∧ dg.seq = s.eth.rxSeq + 1 ∧ recBytes32 dg.mac = hmac (bytesOf s.eth.sessionKey) (dgBody 7 dg (bytesOf h ++ data))) ∧
    (∃ (dg : Datagram) (st : Half) (s : State), ethUp s = true ∧ s.isReady rdyEth = true ∧ s.eth.session = some dg.session ∧ dg.seq = s.eth.rxSeq + 1 ∧ recBytes32 dg.mac = hmac (bytesOf s.eth.sessionKey) (dgBody 6 dg (leBytes 2 st.toNat))) ∧
    (∃ (s : State) (sid : Word), ethUp s = true ∧ s.eth.session = some sid ∧ s.eth.unacked ≠ []) ∧
    (∃ (icmp : Bool) (rq : List Byte) (a : BitVec 96) (s : State), ethUp s = true ∧ s.eth.address = some a) :=
  ⟨⟨false, 0, wEth, by decide⟩,
   ⟨0xb54f43a539c08cf505c912adda91f8791a19f091a8a44cd5c8cd841764cb111f, 0, 0, 1, 0, wEth, by decide +kernel⟩,
   ⟨0, 0, 0, 1, 0, wEth, by decide +kernel⟩,
   ⟨⟨0, 7, 1, 0x3f1233abf6c6117dfea1e78768ecf7ed03a0c667f476fd1549004d5e44a70f68⟩, [0], wEth, 0, by decide +kernel⟩,
   ⟨⟨0, 7, 2, 0x382fde169e379588edacd34cd6b08dc1daf1c4e7061dc379a838bb36af99729d⟩, [0], wEth, by decide +kernel⟩,
   ⟨⟨0, 7, 1, 0⟩, [0], wEth, by decide +kernel⟩,
   ⟨⟨0, 7, 1, 0xa8c957514305724db2fdf2633e328e82d32de42883213abf666f5a7e340751a3⟩, 0x47534B53, [], wEth, by decide +kernel⟩,
   ⟨⟨0, 7, 1, 0x60164fa4864bc213670aca51f44ccc8fa2a9249719439cad8dd0ca8329ec909a⟩, 0, wEth, by decide +kernel⟩,
   ⟨{ wEth with eth := { wEth.eth with unacked := [(1, 1)] } }, 7, by decide⟩,
   ⟨false, [], 0, { wEth with eth := { wEth.eth with address := some 0 } }, by decide⟩⟩

theorem witness_BanksAndPoolEventsAct :
    (∃ (off : BitVec 25) (n : Nat) (portA : List Nat) (ecc : List EccErr) (bs : List Byte) (s : State), s.host.pcieUp = true ∧ s.host.bench = false) ∧
    (∃ (off : BitVec 25) (n : Nat) (bs : List Byte) (s : State), s.host.pcieUp = true ∧ s.host.bench = true ∧ off.toNat + bs.length ≤ 0x02000000 ∧ off.toNat + n ≤ 0x02000000) ∧
    (∃ (s : State) (u : PoolUser), s.mem.poolEn = true ∧ s.mem.head ≠ 0x3FFFF ∧ (∀ b : BankId, s.pwr.banks[b].st = .run)) ∧
    (∃ (s : State), s.mem.poolEn = true ∧ s.mem.head = 0x3FFFF) ∧
    (∃ (i : Sample) (s : State), s.mem.poolEn = true ∧ i.toNat < s.mem.poolSize ∧ i.toNat ∈ s.mem.used ∧ s.mem.head < 2 ^ 18 ∧ Canonical s ∧ s.mem.freeCount = 0) ∧
    (∃ (i : Sample) (s : State), s.mem.poolEn = true ∧ i.toNat ∉ s.mem.used) ∧
    (∃ (s : State) (i : Nat), s.mem.poolEn = false ∧ i < s.mem.poolSize) ∧
    (∃ (b : BankId) (s : State), s.mem.banks[b].clearing = true) ∧
    (∃ (b : BankId) (s : State), s.mem.banks[b].clearing = false) ∧
    (∃ (b : BankId) (s : State), s.pwr.banks[b].st = .run ∧ s.mem.banks[b].pmode ≠ 1 ∧ s.mem.banks[b].clearing = false ∧ (∀ g : Nat, g ∈ s.mem.poison → g / 131072 ≠ b.val) ∧ s.mem.banks[b].lastFixed = []) :=
  ⟨⟨0, 1, [], [], [0], { tUp with host := { tUp.host with bench := false } }, by decide⟩,
   ⟨0, 0, [], tUp, by decide⟩,
   ⟨tUp, .own, by decide⟩,
   ⟨wMem { tUp.mem with head := 0x3FFFF }, by decide⟩,
   ⟨0, wMem { tUp.mem with used := [0], head := 0x3FFFF, freeCount := 0 }, by decide⟩,
   ⟨7, tUp, by decide⟩,
   ⟨State.reset, 0, by decide⟩,
   ⟨0, wMem { tUp.mem with banks := tUp.mem.banks.set 0 { BankCtl.reset with clearing := true } }, by decide⟩,
   ⟨0, tUp, by decide⟩,
   ⟨0, tUp, by decide, by decide, by decide, fun _ h => absurd h List.not_mem_nil, by decide⟩⟩

theorem witness_CycleAndStrandEventsAct_1 :
    (∃ (i : StrandId) (j : Byte) (s : State) (k : StrandId), coreUp s = true ∧ s.seq.running = true ∧ plyDue s.strands[i].cfg s.seq.cycle.toNat j.toNat = true ∧ engineWorks s s.strands[i].engine = true ∧ userEntry s s.strands[i].engine 3 = false ∧ s.engines[s.strands[i].engine].run = .halted ∧ k ≠ i) ∧
    (∃ (i : StrandId) (j : Byte) (s : State), coreUp s = true ∧ s.seq.running = true ∧ plyDue s.strands[i].cfg s.seq.cycle.toNat j.toNat = true ∧ engineWorks s s.strands[i].engine = true ∧ userEntry s s.strands[i].engine 3 = false ∧ s.engines[s.strands[i].engine].run = .halted ∧ s.strands[i].st = .off) ∧
    (∃ (i : StrandId) (j : Byte) (s : State), coreUp s = true ∧ s.seq.running = true ∧ plyDue s.strands[i].cfg s.seq.cycle.toNat j.toNat = true ∧ engineWorks s s.strands[i].engine = true ∧ userEntry s s.strands[i].engine 3 = false ∧ s.engines[s.strands[i].engine].run = .halted ∧ s.strands[i].hasPlies = true ∧ s.strands[i].st = .run ∧ s.strands[i].abandoned ≠ some s.seq.cycle) ∧
    (∃ (i : StrandId) (j : Byte) (s : State), plyDue s.strands[i].cfg s.seq.cycle.toNat j.toNat = false) ∧
    (∃ (i : StrandId) (c : Nat) (s : State), s.strands[i].st ≠ .off) ∧
    (∃ (i : StrandId) (s : State), coreUp s = true ∧ s.strands[i].stop.isSome = true ∧ s.strands[i].atStandstill = true) ∧
    (∃ (i : StrandId) (r : StopRun) (s : State), s.strands[i].stop = some r ∧ s.strands[i].restDue = true ∧ s.strands[i].raised = 0 ∧ s.strands[i].atStandstill = true ∧ (r.after = .toReady ∨ r.after = .toRun)) ∧
    (∃ (i : StrandId) (s : State), s.strands[i].stop = none) :=
  ⟨⟨0, 0, wHalt (wBound .run), 1, by decide⟩,
   ⟨0, 0, wHalt Strand.reset, by decide⟩,
   ⟨0, 0, wHalt (wServo .run), by decide⟩,
   ⟨0, 2, tUp, by decide⟩,
   ⟨0, 0, wAt (wBound .run), by decide⟩,
   ⟨0, wAt { wBound .stopping with stop := some (wStopRun 0 0 .toReady) }, by decide⟩,
   ⟨0, wStopRun 0 0 .toReady, wAt { wBound .stopping with stop := some (wStopRun 0 0 .toReady), restDue := true }, by decide⟩,
   ⟨0, tUp, by decide⟩⟩

theorem witness_CycleAndStrandEventsAct_2 :
    (∃ (i : StrandId) (r : StopRun) (s : State), coreUp s = true ∧ s.strands[i].stop = some r ∧ r.planned + 400000 < r.plan.t ∧ s.strands[i].atStandstill = false) ∧
    (∃ (i : StrandId) (b : PlyBlock) (s : State), s.strands[i].cfg.pos = some b ∧ coreUp s = true ∧ b.ferrLimit ≠ 0 ∧ s.strands[i].ply.ferrCount ≠ 0 ∧ b.ferrTime ≤ s.strands[i].ply.ferrCount) ∧
    (∃ (i : StrandId) (b : PlyBlock) (s : State), s.strands[i].cfg.pos = some b ∧ coreUp s = true ∧ (b.ferrLimit = 0 ∨ s.strands[i].ply.ferrCount = 0 ∨ s.strands[i].ply.ferrCount < b.ferrTime)) ∧
    (∃ (i : StrandId) (s : State), coreUp s = true ∧ s.strands[i].skipped ≠ 0 ∧ overrunLimitOf s s.strands[i] ≤ s.strands[i].skipped) ∧
    (∃ (i : StrandId) (s : State), coreUp s = true ∧ (s.strands[i].skipped = 0 ∨ s.strands[i].skipped < overrunLimitOf s s.strands[i])) ∧
    (∃ (i : StrandId) (e : Engage) (s : State), coreUp s = true ∧ s.strands[i].engage = some e ∧ s.strands[i].cfg.holdCycles < e.missing) ∧
    (∃ (i : StrandId) (e : Engage) (s : State), coreUp s = true ∧ s.strands[i].engage = some e ∧ e.missing ≤ s.strands[i].cfg.holdCycles) ∧
    (∃ (i : StrandId) (b : StepperBlock) (s : State), coreUp s = true ∧ s.strands[i].cfg.step = some b ∧ b.window ≠ 0 ∧ s.strands[i].ply.stallTime ≠ 0 ∧ b.stallTime ≤ s.strands[i].ply.stallTime) :=
  ⟨⟨0, wStopRun 400001 0 .toReady, wAt { wServo .stopping with stop := some (wStopRun 400001 0 .toReady) }, by decide⟩,
   ⟨0, { wPly with ferrLimit := 1, ferrTime := 1 }, wAt { Strand.reset with cfg := { StrandCfg.reset with pos := some { wPly with ferrLimit := 1, ferrTime := 1 } }, ply := { Strand.reset.ply with ferrCount := 1 } }, by decide⟩,
   ⟨0, wPly, wAt { Strand.reset with cfg := { StrandCfg.reset with pos := some wPly } }, by decide⟩,
   ⟨0, wAt { wBound .run with skipped := 255 }, by decide⟩,
   ⟨0, wAt { wBound .run with skipped := 0 }, by decide⟩,
   ⟨0, { wEngage with missing := 100000 }, wAt { wBound .run with engage := some { wEngage with missing := 100000 } }, by decide⟩,
   ⟨0, wEngage, wAt { wBound .run with engage := some wEngage }, by decide⟩,
   ⟨0, { wStep with window := 1 }, wAt { wBound .run with cfg := { (wBound .run).cfg with step := some { wStep with window := 1 } }, ply := { Strand.reset.ply with stallTime := 1 } }, by decide⟩⟩

theorem witness_CycleAndStrandEventsAct_3 :
    (∃ (i : StrandId) (b : StepperBlock) (s : State), coreUp s = true ∧ s.strands[i].cfg.step = some b ∧ (b.window = 0 ∨ s.strands[i].ply.stallTime = 0 ∨ s.strands[i].ply.stallTime < b.stallTime)) ∧
    (∃ (i : StrandId) (s : State), coreUp s = true ∧ s.strands[i].cfg.step = none) ∧
    (∃ (i : StrandId) (s : State), coreUp s = true ∧ 3 ≤ s.strands[i].ply.sumCount) ∧
    (∃ (i : StrandId) (s : State), coreUp s = true ∧ s.strands[i].ply.sumCount < 3) ∧
    (∃ (i : StrandId) (s : State), coreUp s = true ∧ auxLost s.strands[i] = true) ∧
    (∃ (i : StrandId) (s : State), coreUp s = true ∧ auxLost s.strands[i] = false) ∧
    (∃ (i : StrandId) (s : State), coreUp s = true ∧ s.strands[i].isAux = true ∧ s.strands[i].aux.phase = .align ∧ s.strands[i].aux.alignLeft = 0) ∧
    (∃ (i : StrandId) (time : Nat) (u : FbId) (s : State), coreUp s = true ∧ dutyStale s time s.strands[i] = true ∧ s.strands[i].cfg.fb = some u) :=
  ⟨⟨0, wStep, wAt { wBound .run with cfg := { (wBound .run).cfg with step := some wStep } }, by decide⟩,
   ⟨0, tUp, by decide⟩,
   ⟨0, wAt { wBound .run with ply := { Strand.reset.ply with sumCount := 3 } }, by decide⟩,
   ⟨0, wAt { wBound .run with skipped := 0 }, by decide⟩,
   ⟨0, wAt { wServo .run with cfg := { (wServo .run).cfg with aux := some wAux }, aux := { AuxRun.reset with phase := .closed, los := [100000000] } }, by decide +kernel⟩,
   ⟨0, wAt { wBound .run with skipped := 0 }, by decide⟩,
   ⟨0, wAt { wServo .run with cfg := { (wServo .run).cfg with aux := some wAux }, aux := { AuxRun.reset with phase := .align } }, by decide⟩,
   ⟨0, 100000000, 0, wAt { wServo .run with cfg := { (wServo .run).cfg with fb := some 0, aux := some { wAux with dutyInput := true } } }, by decide⟩⟩

theorem witness_PowerStageEventsAct_1 :
    (∃ (q : QuadId) (s : State) (k : QuadId), coreUp s = true ∧ quadEnabled s q = true ∧ s.quads[q].cfg.run = true ∧ s.quads[q].frozen = false ∧ k ≠ q) ∧
    (∃ (q : QuadId) (s : State), coreUp s = true ∧ quadEnabled s q = true ∧ s.quads[q].cfg.run = true ∧ s.quads[q].frozen = false ∧ s.quads[q].cfg.dbl = true ∧ s.quads[q].cfg.saw = false ∧ s.quads[q].waitValley = false) ∧
    (∃ (q : QuadId) (s : State), s.quads[q].waitValley = true) ∧
    (∃ (q : QuadId) (p : Bool) (s : State), (s.quads[q].cfg.run = false ∨ s.quads[q].frozen = true)) ∧
    (∃ (q : QuadId) (v : Word) (s : State) (k : QuadId), coreUp s = true ∧ k ≠ q) ∧
    (∃ (q : QuadId) (v : Word) (s : State), coreUp s = true ∧ 12 ≤ v.toNat % 16) ∧
    (∃ (q : QuadId) (v : Word) (s : State) (k : Nat), coreUp s = true ∧ v.toNat % 16 < 12 ∧ k < 24) ∧
    (∃ (q : QuadId) (p : PairId) (data : List Bool) (i : StrandId) (s : State), coreUp s = true ∧ quadEnabled s q = true ∧ s.quads[q].cfg.clkEn = true ∧ s.ownerOf q p = some i ∧ s.strands[i].st ≠ .off ∧ s.quads[q].cfg.limit[p] ≠ 0 ∧ (s.quads[q].cfg.limit[p].toNat : Int) < |(fastOf s.quads[q].cfg data).toInt|) :=
  ⟨⟨0, wQ wQrun, 1, by decide⟩,
   ⟨0, wQ wQrun, by decide⟩,
   ⟨0, wQ { wQrun with waitValley := true }, by decide⟩,
   ⟨0, false, tUp, by decide⟩,
   ⟨0, 0, tUp, 1, by decide⟩,
   ⟨0, 12, tUp, by decide⟩,
   ⟨0, 0, tUp, 0, by decide⟩,
   ⟨0, 0, List.replicate 30 true, 0, { wAt (wServo .run) with quads := tUp.quads.set 0 { Quad.reset with cfg := { QuadCfg.reset with clkEn := true, limit := Vector.replicate 12 1 } } }, by decide +kernel⟩⟩

theorem witness_PowerStageEventsAct_2 :
    (∃ (q : QuadId) (p : PairId) (data : List Bool) (s : State), coreUp s = true ∧ quadEnabled s q = true ∧ s.quads[q].cfg.clkEn = true ∧ (s.quads[q].cfg.limit[p] = 0 ∨ |(fastOf s.quads[q].cfg data).toInt| ≤ (s.quads[q].cfg.limit[p].toNat : Int) ∨ s.ownerOf q p = none)) ∧
    (∃ (q : QuadId) (g : SlotId) (level : Bool) (s : State), coreUp s = true ∧ quadEnabled s q = true ∧ level ≠ s.quads[q].cfg.gfLevel.getLsbD g.val) ∧
    (∃ (q : QuadId) (g : SlotId) (level : Bool) (s : State), coreUp s = true ∧ quadEnabled s q = true ∧ s.quads[q].cfg.gfEnable.getLsbD g.val = false ∧ level = s.quads[q].cfg.gfLevel.getLsbD g.val) ∧
    (∃ (q : QuadId) (g : SlotId) (level : Bool) (s : State), coreUp s = true ∧ quadEnabled s q = true ∧ s.quads[q].cfg.gfEnable.getLsbD g.val = true ∧ level = s.quads[q].cfg.gfLevel.getLsbD g.val) ∧
    (∃ (q : QuadId) (g : SlotId) (level : Bool) (s : State) (p : PairId), coreUp s = true ∧ quadEnabled s q = true ∧ s.quads[q].cfg.gfEnable.getLsbD g.val = true ∧ level = s.quads[q].cfg.gfLevel.getLsbD g.val) ∧
    (∃ (q : QuadId) (at_ : SampleInstant) (data : List (List Bool)) (s : State), coreUp s = true ∧ quadEnabled s q = true ∧ s.quads[q].cfg.run = true ∧ s.quads[q].cfg.clkEn = true ∧ (at_.peak = false ∨ (s.quads[q].cfg.dbl = true ∧ s.quads[q].cfg.saw = false))) ∧
    (∃ (data : List (List Bool)) (x : Quad), x.settling ≠ 0) ∧
    (∃ (data : List (List Bool)) (x : Quad) (i : Fin 12), x.settling = 0) :=
  ⟨⟨0, 0, [], wQ { wQrun with cfg := { wQrun.cfg with clkEn := true } }, by decide +kernel⟩,
   ⟨0, 0, !QuadCfg.reset.gfLevel.getLsbD 0, tUp, by decide⟩,
   ⟨0, 0, QuadCfg.reset.gfLevel.getLsbD 0, tUp, by decide⟩,
   ⟨0, 0, QuadCfg.reset.gfLevel.getLsbD 0, wQ { Quad.reset with cfg := { QuadCfg.reset with gfEnable := 1 } }, by decide⟩,
   ⟨0, 0, QuadCfg.reset.gfLevel.getLsbD 0, wQ { Quad.reset with cfg := { QuadCfg.reset with gfEnable := 1 } }, 0, by decide⟩,
   ⟨0, ⟨true, 0⟩, [], wQ { wQrun with cfg := { wQrun.cfg with clkEn := true } }, by decide⟩,
   ⟨[], { Quad.reset with settling := 1 }, by decide⟩,
   ⟨[], Quad.reset, 0, by decide⟩⟩

theorem witness_PowerStageEventsAct_3 :
    (∃ (q : QuadId) (p : PairId) (s : State), coreUp s = true ∧ s.quads[q].windings[p].phase = .drive ∧ driveOver s.quads[q] p = true) ∧
    (∃ (q : QuadId) (p : PairId) (s : State), coreUp s = true ∧ driveOver s.quads[q] p = false) ∧
    (∃ (q : QuadId) (p : PairId) (s : State), coreUp s = true ∧ s.quads[q].windings[p].phase = .slow) ∧
    (∃ (q : QuadId) (p : PairId) (s : State), coreUp s = true ∧ s.quads[q].windings[p].phase = .fast) ∧
    (∃ (i : StrandId) (s : State), holdDue s.strands[i] = true) ∧
    (∃ (g : StgId) (e : StgEntry) (s : State), s.stgs[g].current = some e ∧ s.stgs[g].queue = []) ∧
    (∃ (g : StgId) (e : StgEntry) (s : State) (n : StgEntry) (r : List StgEntry), s.stgs[g].current = some e ∧ s.stgs[g].queue = n :: r) ∧
    (∃ (g : StgId) (v : Word) (s : State), coreUp s = true ∧ s.stgs[g].cfg.enable = true ∧ s.stgs[g].queue.length = 64) :=
  ⟨⟨0, 0, wQ { Quad.reset with fast := Vector.replicate 12 1, windings := Vector.replicate 12 ⟨.drive, 1⟩ }, by decide +kernel⟩,
   ⟨0, 0, wQ { Quad.reset with windings := Vector.replicate 12 ⟨.drive, 1⟩ }, by decide +kernel⟩,
   ⟨0, 0, wQ { Quad.reset with windings := Vector.replicate 12 ⟨.slow, 1⟩ }, by decide⟩,
   ⟨0, 0, wQ { Quad.reset with windings := Vector.replicate 12 ⟨.fast, 1⟩ }, by decide⟩,
   ⟨0, wAt { wBound .run with cfg := { (wBound .run).cfg with binding := .stepper 0 0, step := some wStep } }, by decide⟩,
   ⟨0, wEnt, wStg { Stg.reset with current := some wEnt }, by decide⟩,
   ⟨0, wEnt, wStg { Stg.reset with current := some wEnt, queue := [wEnt] }, wEnt, [], by decide⟩,
   ⟨0, 0, wStg { Stg.reset with cfg := { StgCfg.reset with enable := true }, queue := List.replicate 64 wEnt }, by decide⟩⟩

theorem witness_PowerStageEventsAct_4 :
    ∃ (g : StgId) (v : Word) (s : State), coreUp s = true ∧ s.stgs[g].cfg.enable = true ∧ s.stgs[g].queue.length < 64 ∧ s.stgs[g].idle = false :=
  ⟨0, 0, wStg { Stg.reset with cfg := { StgCfg.reset with enable := true }, queue := List.replicate 63 wEnt, idle := false }, by decide⟩

theorem witness_QuadratureCountsFollowTheTable :
    (∃ (i : FbId) (a : Bool) (b : Bool) (n : Nat) (s : State), coreUp s = true ∧ s.fbs[i].cfg.mode = 1 ∧ s.fbs[i].a ≠ a ∧ lineSteady (s.fbs[i].clock + n) s.fbs[i] 0 = false) ∧
    (∃ (i : FbId) (a : Bool) (b : Bool) (n : Nat) (s : State), coreUp s = true ∧ s.fbs[i].cfg.mode = 1 ∧ s.fbs[i].cfg.invert = false ∧ (∀ l : Fin 3, lineSteady (s.fbs[i].clock + n) s.fbs[i] l = true) ∧ (s.fbs[i].a, s.fbs[i].b, a, b) ∈ [(false, false, true, false), (true, false, true, true), (true, true, false, true), (false, true, false, false)]) ∧
    (∃ (i : FbId) (a : Bool) (b : Bool) (n : Nat) (s : State), coreUp s = true ∧ s.fbs[i].cfg.mode = 1 ∧ s.fbs[i].cfg.invert = false ∧ (∀ l : Fin 3, lineSteady (s.fbs[i].clock + n) s.fbs[i] l = true) ∧ (s.fbs[i].a, s.fbs[i].b, a, b) ∈ [(true, false, false, false), (true, true, true, false), (false, true, true, true), (false, false, false, true)]) ∧
    (∃ (i : FbId) (a : Bool) (b : Bool) (n : Nat) (s : State), coreUp s = true ∧ s.fbs[i].cfg.mode = 1 ∧ s.fbs[i].cfg.invert = false ∧ (∀ l : Fin 3, lineSteady (s.fbs[i].clock + n) s.fbs[i] l = true) ∧ (s.fbs[i].a, s.fbs[i].b) = (a, b)) ∧
    (∃ (i : FbId) (a : Bool) (b : Bool) (n : Nat) (s : State), coreUp s = true ∧ s.fbs[i].cfg.mode = 1 ∧ s.fbs[i].cfg.invert = false ∧ (∀ l : Fin 3, lineSteady (s.fbs[i].clock + n) s.fbs[i] l = true) ∧ (s.fbs[i].a = a ∨ s.fbs[i].b = b)) ∧
    (∃ (i : FbId) (a : Bool) (b : Bool) (n : Nat) (s : State), coreUp s = true ∧ s.fbs[i].cfg.mode = 1 ∧ s.fbs[i].cfg.invert = false ∧ (∀ l : Fin 3, lineSteady (s.fbs[i].clock + n) s.fbs[i] l = true) ∧ s.fbs[i].a ≠ a ∧ s.fbs[i].b ≠ b ∧ 50000000 * 2 ^ 32 ≤ (advanceFb (s.key i) n s.fbs[i]).vHat) ∧
    (∃ (i : FbId) (a : Bool) (b : Bool) (n : Nat) (s : State), coreUp s = true ∧ s.fbs[i].cfg.mode = 1 ∧ s.fbs[i].cfg.invert = false ∧ (∀ l : Fin 3, lineSteady (s.fbs[i].clock + n) s.fbs[i] l = true) ∧ s.fbs[i].a ≠ a ∧ s.fbs[i].b ≠ b ∧ (advanceFb (s.key i) n s.fbs[i]).vHat ≤ -(50000000 * 2 ^ 32)) ∧
    (∃ (i : FbId) (a : Bool) (b : Bool) (n : Nat) (s : State), coreUp s = true ∧ s.fbs[i].cfg.mode = 1 ∧ s.fbs[i].cfg.invert = false ∧ (∀ l : Fin 3, lineSteady (s.fbs[i].clock + n) s.fbs[i] l = true) ∧ s.fbs[i].a ≠ a ∧ s.fbs[i].b ≠ b ∧ |(advanceFb (s.key i) n s.fbs[i]).vHat| < 50000000 * 2 ^ 32) :=
  ⟨⟨0, true, false, 0, wB1 { wFb 1 with lineAt := Vector.replicate 3 (some 0), cfg := { (wFb 1).cfg with filter := 10 } }, by decide⟩,
   ⟨0, true, false, 0, wB1 (wFb 1), by decide⟩,
   ⟨0, false, true, 0, wB1 (wFb 1), by decide⟩,
   ⟨0, false, false, 0, wB1 (wFb 1), by decide⟩,
   ⟨0, true, false, 0, wB1 (wFb 1), by decide⟩,
   ⟨0, true, true, 0, wB1 { wFb 1 with vHat := 50000000 * 2 ^ 32 }, by decide⟩,
   ⟨0, true, true, 0, wB1 { wFb 1 with vHat := -(50000000 * 2 ^ 32) }, by decide⟩,
   ⟨0, true, true, 0, wB1 { wFb 1 with vHat := 50000000 * 2 ^ 32 - 1 }, by decide⟩⟩

theorem witness_FeedbackEventsAct_1 :
    (∃ (i : FbId) (code : BitVec 3) (n : Nat) (s : State), coreUp s = true ∧ s.fbs[i].cfg.mode = 2 ∧ (code = 0 ∨ code = 7) ∧ (∀ l : Fin 3, lineSteady (s.fbs[i].clock + n) s.fbs[i] l = true)) ∧
    (∃ (i : FbId) (code : BitVec 3) (m : Nat) (o : Fin 6) (n : Fin 6) (s : State), coreUp s = true ∧ s.fbs[i].cfg.mode = 2 ∧ s.fbs[i].cfg.invert = false ∧ s.fbs[i].sector = some o ∧ hallSector code = some n ∧ (∀ l : Fin 3, lineSteady (s.fbs[i].clock + m) s.fbs[i] l = true) ∧ (n.val + 6 - o.val) % 6 = 1) ∧
    (∃ (i : FbId) (code : BitVec 3) (m : Nat) (o : Fin 6) (n : Fin 6) (s : State), coreUp s = true ∧ s.fbs[i].cfg.mode = 2 ∧ s.fbs[i].cfg.invert = false ∧ s.fbs[i].sector = some o ∧ hallSector code = some n ∧ (∀ l : Fin 3, lineSteady (s.fbs[i].clock + m) s.fbs[i] l = true) ∧ (n.val + 6 - o.val) % 6 = 5) ∧
    (∃ (i : FbId) (code : BitVec 3) (m : Nat) (o : Fin 6) (n : Fin 6) (s : State), coreUp s = true ∧ s.fbs[i].cfg.mode = 2 ∧ s.fbs[i].cfg.invert = false ∧ s.fbs[i].sector = some o ∧ hallSector code = some n ∧ (∀ l : Fin 3, lineSteady (s.fbs[i].clock + m) s.fbs[i] l = true) ∧ (n.val + 6 - o.val) % 6 = 2) ∧
    (∃ (i : FbId) (code : BitVec 3) (m : Nat) (o : Fin 6) (n : Fin 6) (s : State), coreUp s = true ∧ s.fbs[i].cfg.mode = 2 ∧ s.fbs[i].cfg.invert = false ∧ s.fbs[i].sector = some o ∧ hallSector code = some n ∧ (∀ l : Fin 3, lineSteady (s.fbs[i].clock + m) s.fbs[i] l = true) ∧ (n.val + 6 - o.val) % 6 = 3) ∧
    (∃ (i : FbId) (code : BitVec 3) (m : Nat) (o : Fin 6) (n : Fin 6) (s : State), coreUp s = true ∧ s.fbs[i].cfg.mode = 2 ∧ s.fbs[i].cfg.invert = false ∧ s.fbs[i].sector = some o ∧ hallSector code = some n ∧ (∀ l : Fin 3, lineSteady (s.fbs[i].clock + m) s.fbs[i] l = true) ∧ (n.val + 6 - o.val) % 6 = 4) ∧
    (∃ (i : FbId) (a : Bool) (b : Bool) (n : Nat) (s : State), coreUp s = true ∧ s.fbs[i].cfg.mode = 6 ∧ s.fbs[i].cfg.invert = false ∧ (∀ l : Fin 3, lineSteady (s.fbs[i].clock + n) s.fbs[i] l = true)) ∧
    (∃ (i : FbId) (a : Bool) (b : Bool) (code : BitVec 3) (n : Nat) (s : State), s.fbs[i].cfg.mode = 0) :=
  ⟨⟨0, 7, 0, wB1 (wFb 2), by decide⟩,
   ⟨0, 3, 0, 0, 1, wB1 { wFb 2 with sector := some 0 }, by decide⟩,
   ⟨0, 5, 0, 0, 5, wB1 { wFb 2 with sector := some 0 }, by decide⟩,
   ⟨0, 2, 0, 0, 2, wB1 { wFb 2 with sector := some 0 }, by decide⟩,
   ⟨0, 6, 0, 0, 3, wB1 { wFb 2 with sector := some 0 }, by decide⟩,
   ⟨0, 4, 0, 0, 4, wB1 { wFb 2 with sector := some 0 }, by decide⟩,
   ⟨0, false, false, 0, wB1 (wFb 6), by decide⟩,
   ⟨0, false, false, 0, 0, tUp, by decide⟩⟩

theorem witness_FeedbackEventsAct_2 :
    (∃ (i : FbId) (a : Bool) (b : Bool) (n : Nat) (s : State), (s.fbs[i].cfg.mode = 1 ∨ s.fbs[i].cfg.mode = 2)) ∧
    (∃ (i : FbId) (a : Bool) (b : Bool) (n : Nat) (s : State), coreUp s = true ∧ (s.fbs[i].cfg.mode = 0 ∨ s.fbs[i].cfg.mode = 3 ∨ s.fbs[i].cfg.mode = 4) ∧ (∀ l : Fin 3, lineSteady (s.fbs[i].clock + n) s.fbs[i] l = true)) ∧
    (∃ (i : FbId) (n : Nat) (s : State), coreUp s = true ∧ s.fbs[i].frameOpen = true ∧ compareUnits s i = []) ∧
    (∃ (i : FbId) (n : Nat) (s : State), coreUp s = true ∧ frameMayStart (s.tNs / 5) (advanceFb (s.key i) n s.fbs[i]) = true ∧ compareUnits s i = []) ∧
    (∃ (i : FbId) (w : BitVec 40) (c : SerialCheck) (n : Nat) (s : State), coreUp s = true ∧ s.fbs[i].frameOpen = true ∧ ((s.fbs[i].cfg.mode = 3 ∧ crcFits s.fbs[i].cfg w c = false) ∨ (s.fbs[i].cfg.mode = 4 ∧ c.startHigh = false))) ∧
    (∃ (i : FbId) (w : BitVec 40) (c : SerialCheck) (n : Nat) (s : State), coreUp s = true ∧ s.fbs[i].frameOpen = true ∧ ((s.fbs[i].cfg.mode = 3 ∧ crcFits s.fbs[i].cfg w c = true ∧ c.nE = true) ∨ (s.fbs[i].cfg.mode = 4 ∧ c.startHigh = true))) ∧
    (∃ (i : FbId) (n : Nat) (s : State), coreUp s = true ∧ s.fbs[i].frameOpen = true ∧ s.fbs[i].frameAt + 4000 ≤ s.fbs[i].clock + n) ∧
    (∃ (i : FbId) (n : Nat) (s : State), coreUp s = true ∧ s.fbs[i].frameOpen = true ∧ s.fbs[i].clock + n < s.fbs[i].frameAt + 4000) :=
  ⟨⟨0, false, false, 0, wB1 (wFb 1), by decide⟩,
   ⟨0, false, false, 0, tUp, by decide⟩,
   ⟨0, 0, wB1 { wFb 4 with frameOpen := true }, by decide⟩,
   ⟨0, 0, wB1 { wFb 3 with cfg := { (wFb 3).cfg with period := 1, bits := 8, clkDiv := 10 } }, by decide⟩,
   ⟨0, 0, ⟨0, false, false, false⟩, 0, wB1 { wFb 4 with frameOpen := true }, by decide⟩,
   ⟨0, 0, ⟨0, false, false, true⟩, 0, wB1 { wFb 4 with frameOpen := true }, by decide⟩,
   ⟨0, 4000, wB1 { wFb 4 with frameOpen := true }, by decide⟩,
   ⟨0, 3999, wB1 { wFb 4 with frameOpen := true }, by decide⟩⟩

theorem witness_FeedbackEventsAct_3 :
    (∃ (i : FbId) (s : State) (w : BitVec 40) (c : SerialCheck), s.fbs[i].frameOpen = false) ∧
    (∃ (i : FbId) (s : State), s.fbs[i].frameOpen = false) ∧
    (∃ (i : FbId) (d : Int) (s : State), coreUp s = true ∧ s.fbs[i].cfg.mode = 1 ∧ -2 ^ 31 ≤ d ∧ d < 2 ^ 31 ∧ -2 ^ 47 ≤ s.fbs[i].ext + d ∧ s.fbs[i].ext + d < 2 ^ 47 ∧ s.fbs[i].count = BitVec.ofInt 32 (s.fbs[i].ext + d)) ∧
    (∃ (p : ProbeId) (falling : Bool) (at_ : BitVec 64) (s : State), s.probes[p].armed = false) ∧
    (∃ (p : ProbeId) (falling : Bool) (at_ : BitVec 64) (last : BitVec 64) (s : State), coreUp s = true ∧ s.probes[p].armed = true ∧ s.probes[p].cfg.edge = 2 ∧ s.probes[p].last = some last ∧ (at_ - last).toNat < 1000 ∧ sinceStart s at_ < s.tNs) ∧
    (∃ (p : ProbeId) (falling : Bool) (at_ : BitVec 64) (s : State), coreUp s = true ∧ s.probes[p].armed = true ∧ s.probes[p].cfg.edge = 2 ∧ s.probes[p].last = none ∧ sinceStart s at_ < s.tNs) ∧
    (∃ (u : CmpId) (s : State), s.cmps[u].out = true) ∧
    (∃ (p : ProbeId) (falling : Bool) (at_ : BitVec 64) (s : State), s.tNs ≤ sinceStart s at_) :=
  ⟨⟨0, tUp, 0, ⟨0, false, false, true⟩, by decide⟩,
   ⟨0, tUp, by decide⟩,
   ⟨0, 2 ^ 31 - 1, wB1 { wFb 1 with count := BitVec.ofInt 32 (2 ^ 31 - 1) }, by decide⟩,
   ⟨0, false, 0, tUp, by decide⟩,
   ⟨0, false, 999, 0, wPr { Probe.reset with armed := true, cfg := { Probe.reset.cfg with edge := 2 }, last := some 0 }, by decide⟩,
   ⟨0, false, 0, wPr { Probe.reset with armed := true, cfg := { Probe.reset.cfg with edge := 2 } }, by decide⟩,
   ⟨0, { tUp with cmps := tUp.cmps.set 0 { Compare.reset with out := true } }, by decide⟩,
   ⟨0, false, 0xFFFFFFFF, tUp, by decide⟩⟩

theorem witness_FeedbackEventsAct_4 :
    (∃ (u : CmpId) (c : CompareCfg) (e : CmpEntry) (s : State), coreUp s = true ∧ s.cmps[u].cfg = some c ∧ c.entries = [e] ∧ e.dir = 0 ∧ s.cmps[u].enable = true ∧ s.cmps[u].idle = false ∧ s.cmps[u].repeatOn = false ∧ s.cmps[u].pointer = 0 ∧ s.cmps[u].offset = 0) ∧
    (∃ (u : CmpId) (n : Nat) (s : State), coreUp s = true ∧ (s.cmps[u].cfg = none ∨ s.cmps[u].enable = false ∨ s.cmps[u].idle = true) ∧ compareUnits s (cmpSource s.cmps[u]) = []) :=
  ⟨⟨0, wCmp, ⟨0, 0⟩, { tUp with cmps := tUp.cmps.set 0 { Compare.reset with cfg := some wCmp, enable := true, idle := false } }, by decide⟩,
   ⟨0, 0, tUp, by decide⟩⟩

theorem witness_LinkPortsAndFramesAct_1 :
    (∃ (p : Port) (s : State), portOn (s.port p) = true ∧ s.pwr.dev ≠ .dormant) ∧
    (∃ (p : Port) (dev : BitVec 14) (v : Bool) (m : Bool) (ser : Half) (s : State), portOn (s.port p) = true ∧ (s.port p).lock ≠ 0 ∧ s.pwr.dev ≠ .dormant ∧ (s.port p).ready = false) ∧
    (∃ (p : Port) (lane : Bool) (s : State), portOn (s.port p) = true ∧ (s.port p).lanes.getLsbD (if lane = true then 1 else 0) = true ∧ s.pwr.dev ≠ .dormant ∧ (s.port p).helloSeen = true) ∧
    (∃ (p : Port) (s : State), (s.port p).ready = true ∧ (s.port p).lock ≠ 0 ∧ isRing p = true) ∧
    (∃ (p : Port) (lane : Bool) (lost : Bool) (s : State), (s.port p).degraded = false ∧ (s.port p).lanes = 3 ∧ (s.port p).lock = 3) ∧
    (∃ (p : Port) (lane : Bool) (lost : Bool) (s : State), (s.port p).degraded = true ∧ (lost = false ∨ (s.port p).lock ≠ 3)) ∧
    (∃ (p : Port) (lane : Bool) (s : State), (s.port p).degraded = true ∧ (s.port p).lanes = 3 ∧ (s.port p).lock = 3) ∧
    (∃ (p : Port) (s : State), (s.port p).degraded = true ∧ (s.port p).lock = 3) :=
  ⟨⟨.s, tUp, by decide⟩,
   ⟨.s, 0, false, false, 0, wP { wPort with ready := false }, by decide⟩,
   ⟨.s, false, wP wPort, by decide⟩,
   ⟨.s, wP wPort, by decide⟩,
   ⟨.s, false, false, wP wPort, by decide⟩,
   ⟨.s, false, false, wP { wPort with degraded := true }, by decide⟩,
   ⟨.s, false, wP { wPort with degraded := true }, by decide⟩,
   ⟨.s, wP { wPort with degraded := true }, by decide⟩⟩

theorem witness_LinkPortsAndFramesAct_2 :
    (∃ (p : Port) (m : SendTurn) (pr : Bool) (e : Nat × Frame) (s : State), usable s p = true ∧ nextFrame m.masked pr (s.port p).queue = some e ∧ (s.port p).busy ≤ m.time ∧ frameFits s.link p (s.tNs * 100 / 128) m.time (m.time + frameTimes (s.port p) e.2 + 2 * blockTime (s.port p)) = true) ∧
    (∃ (p : Port) (m : SendTurn) (pr : Bool) (s : State), (m.time < (s.port p).busy ∨ nextFrame m.masked pr (s.port p).queue = none)) ∧
    (∃ (p : Port) (f : Frame) (crc : Word) (s : State), (s.port p).ready = true ∧ (crc ≠ frameCrc f ∨ 32 < f.data.length)) ∧
    (∃ (p : Port) (f : Frame) (s : State), (s.port p).ready = true ∧ f.data.length ≤ 32 ∧ f.kind.toNat < 8 ∧ (∀ e : Sent, e ∈ (s.port p).held → e.hseq ≠ f.hseq) ∧ s.mem.head ≠ 0x3FFFF) ∧
    (∃ (p : Port) (f : Frame) (s : State), (s.port p).ready = true ∧ f.data.length ≤ 32 ∧ f.kind.toNat < 8 ∧ (∀ e : Sent, e ∈ (s.port p).held → e.hseq ≠ f.hseq) ∧ s.mem.head = 0x3FFFF) ∧
    (∃ (p : Port) (f : Frame) (s : State), (s.port p).ready = true ∧ f.data.length ≤ 32 ∧ f.kind.toNat < 8 ∧ (∃ e : Sent, e ∈ (s.port p).held ∧ e.hseq = f.hseq)) ∧
    (∃ (p : Port) (h : Byte) (s : State), (∀ e : Sent, e ∈ (s.port p).sent → e.hseq ≠ h) ∧ (∀ e : Sent, e ∈ (s.port p).held → e.hseq ≠ h)) ∧
    (∃ (p : Port) (e : Sent) (rest : List Sent) (s : State), (s.port p).sent = e :: rest ∧ 3 ≤ e.retries) :=
  ⟨⟨.s, ⟨0, false⟩, false, (0, wFr), wP { wPort with queue := [(0, wFr)] }, by decide⟩,
   ⟨.s, ⟨0, false⟩, false, wP wPort, by decide⟩,
   ⟨.s, { wFr with data := List.replicate 33 0 }, 0, wP wPort, rfl, Or.inr (by decide)⟩,
   ⟨.s, wFr, wP wPort, by decide, by decide, by decide, fun _ h => absurd h List.not_mem_nil, by decide⟩,
   ⟨.s, wFr, { wP wPort with mem := { tUp.mem with head := 0x3FFFF } }, by decide, by decide, by decide, fun _ h => absurd h List.not_mem_nil, by decide⟩,
   ⟨.s, wFr, wP { wPort with held := [⟨wFr.hseq, 0, wFr, 0⟩] }, by decide, by decide, by decide, ⟨wFr.hseq, 0, wFr, 0⟩, by decide⟩,
   ⟨.s, 0, tUp, fun _ h => absurd h List.not_mem_nil, fun _ h => absurd h List.not_mem_nil⟩,
   ⟨.s, ⟨1, 0, wFr, 3⟩, [], wP { wPort with sent := [⟨1, 0, wFr, 3⟩] }, by decide⟩⟩

theorem witness_LinkPortsAndFramesAct_3 :
    ∃ (p : Port) (e : Sent) (rest : List Sent) (s : State), (s.port p).held = e :: rest ∧ e.frame.dst ≠ broadcastDst ∧ s.link.numbered = true ∧ e.frame.dst = s.link.device ∧ e.frame.kind ≠ kindBeacon ∧ e.frame.body = .blocks :=
  ⟨.s, ⟨1, 0, wFr, 0⟩, [], { wP { wPort with held := [⟨1, 0, wFr, 0⟩] } with link := { (wP { wPort with held := [⟨1, 0, wFr, 0⟩] }).link with numbered := true } }, by decide⟩

theorem witness_BurstsScheduleAndDomainAct_1 :
    (∃ (k : BurstKind) (late : List Port) (ecc : List EccErr) (s : State), (s.link.member = false ∨ s.link.hasSched = false ∨ s.link.joining = true ∨ slotsOf s.link.sched s.link.device k = [])) ∧
    (∃ (late : List Port) (s : State), s.link.member = true ∧ s.link.hasSched = true ∧ s.link.joining = false ∧ slotsOf s.link.sched s.link.device .home ≠ []) ∧
    (∃ (p : Port) (b : Burst) (a : Arrival) (s : State), (s.port p).ready = false) ∧
    (∃ (p : Port) (b : Burst) (a : Arrival) (s : State), (s.port p).ready = true ∧ b.kind = .tree ∧ (a.stomped = true ∨ a.crc ≠ burstCrc b ∨ b.pubs = [])) ∧
    (∃ (p : Port) (b : Burst) (time : Nat) (s : State), (s.port p).ready = true ∧ 1 ≤ b.pubs.length ∧ b.pubs.length ≤ 16384 ∧ b.cycle ≠ s.seq.cycle.truncate 16 ∧ s.link.lateSeen = []) ∧
    (∃ (p : Port) (b : Burst) (time : Nat) (s : State), (s.port p).ready = true ∧ 1 ≤ b.pubs.length ∧ b.pubs.length ≤ 16384 ∧ b.cycle ≠ s.seq.cycle.truncate 16 ∧ (b.source, kindCode b.kind, b.cycle, burstHead b) ∈ s.link.lateSeen) ∧
    (∃ (p : Port) (b : Burst) (x : Pub) (e : SchedPub) (time : Nat) (s : State), (s.port p).ready = true ∧ b.cycle = s.seq.cycle.truncate 16 ∧ s.link.hasSched = true ∧ b.gen = s.link.sched.gen ∧ s.link.seen = [] ∧ b.pubs = [x] ∧ burstOrder s p b = [e] ∧ e.endpoint = x.endpoint ∧ e.index ∉ s.link.stored) ∧
    (∃ (c : Schedule) (g : LongOp) (s : State), s.link.next = some c ∧ c.switchCycle.toNat ≤ s.seq.cycle.toNat ∧ s.link.setCycle = none ∧ switching s = some g ∧ g.cancel = true) :=
  ⟨⟨.home, [], [], tUp, by decide⟩,
   ⟨[], wLk { tUp.link with member := true, hasSched := true, sched := wSch }, by decide⟩,
   ⟨.s, wB, ⟨0, true, 0⟩, tUp, by decide⟩,
   ⟨.s, { wB with kind := .tree }, ⟨0, true, 0⟩, wP wPort, by decide⟩,
   ⟨.s, { wB with cycle := 1, pubs := [⟨1024, 0, 0⟩] }, 0, wP wPort, by decide⟩,
   ⟨.s, { wB with cycle := 1, pubs := [⟨1024, 0, 0⟩] }, 0, { wP wPort with link := { (wP wPort).link with lateSeen := [(wB.source, 0, 1, burstHead { wB with cycle := 1, pubs := [⟨1024, 0, 0⟩] })] } }, by decide +kernel⟩,
   ⟨.s, { wB with pubs := [⟨1024, 0, 0⟩] }, ⟨1024, 0, 0⟩, ⟨0, 1024, 0, 0, []⟩, 0, { wP wPort with link := { (wP wPort).link with hasSched := true, sched := { wSch with gen := 0, pubs := [(0, ⟨0, 1024, 0, 0, []⟩)] } } }, by decide +kernel⟩,
   ⟨wSch, ⟨.scheduleWrite wO 0 0 wD, 2, 0, true, 0⟩, { tUp with link := { tUp.link with next := some wSch }, dist := { tUp.dist with longs := [⟨.scheduleWrite wO 0 0 wD, 2, 0, true, 0⟩] } }, by decide⟩⟩

theorem witness_BurstsScheduleAndDomainAct_2 :
    (∃ (c : Schedule) (s : State), s.link.next = some c ∧ c.switchCycle.toNat ≤ s.seq.cycle.toNat ∧ (s.link.setCycle.isSome = true ∨ ∀ g : LongOp, switching s = some g → g.cancel = false)) ∧
    (∃ (c : Schedule) (s : State), s.link.next = some c ∧ s.seq.cycle.toNat < c.switchCycle.toNat) ∧
    (∃ (s : State), s.link.next = none) ∧
    (∃ (r : SchedRefusal) (c : Instr) (o : Origin) (s : State), s.link.setCycle = some c ∧ originOf c = some o ∧ s.owedFor c = none) ∧
    (∃ (s : State), s.link.master = true) ∧
    (∃ (cs : List Candidate) (c : Candidate) (s : State), s.link.master = false ∧ elect (s.asSelf s.link.masterPrio cs) = some c) ∧
    (∃ (found : List FoundDevice) (links : List FoundLink) (deg : List (Nat × Port)) (s : State), (topologyOf found links deg (enumerate s found)).legal = false) ∧
    (∃ (d : FoundDevice) (n : BitVec 14) (s : State), d.self = true ∧ d.held = some n ∧ s.link.master = false) :=
  ⟨⟨wSch, { tUp with link := { tUp.link with next := some wSch } }, rfl, by decide, Or.inr (fun _ h => by have hh : (none : Option LongOp) = some _ := h; cases hh)⟩,
   ⟨{ wSch with switchCycle := 1 }, wLk { tUp.link with next := some { wSch with switchCycle := 1 } }, by decide⟩,
   ⟨tUp, by decide⟩,
   ⟨⟨0, none⟩, .setCycle wO 125, wO, wLk { tUp.link with setCycle := some (.setCycle wO 125) }, by decide⟩,
   ⟨wLk { tUp.link with master := true }, by decide⟩,
   ⟨[⟨1, 5, false⟩], ⟨1, 5, false⟩, tUp, by decide⟩,
   ⟨[], [], [], tUp, by decide +kernel⟩,
   ⟨⟨5, some 3, none, 0, 0, 0, 0, true⟩, 3, tUp, by decide⟩⟩

theorem witness_BurstsScheduleAndDomainAct_3 :
    (∃ (neg : Negative) (s : State), s.rec_.printing = true) ∧
    (∃ (neg : Negative) (s : State), s.rec_.printing = false) ∧
    (∃ (time : BitVec 64) (cycle : BitVec 48) (s : State), s.rec_.printing = true) ∧
    (∃ (time : BitVec 64) (cycle : BitVec 48) (s : State), s.link.member = false ∧ s.rec_.printing = false ∧ s.link.numbered = true ∧ s.link.hasSched = true ∧ timeTracked s = true ∧ (s.port .s).ready = true) :=
  ⟨⟨wNeg, { tUp with rec_ := { tUp.rec_ with printing := true } }, by decide⟩,
   ⟨wNeg, tUp, by decide⟩,
   ⟨0, 0, { tUp with rec_ := { tUp.rec_ with printing := true } }, by decide⟩,
   ⟨0, 0, { wP wPort with link := { (wP wPort).link with numbered := true, hasSched := true }, time := { tUp.time with td1 := { TimeDom.reset with hasMaster := true } } }, by decide⟩⟩

theorem witness_TimeEventsAct_1 :
    (∃ (p : Port) (d : Dom) (s : State), (s.port p).ready = true ∧ (s.dom d).hasMaster = true ∧ leadsAway s p d = true) ∧
    (∃ (p : Port) (v : BitVec 56) (s : State), blockTime (s.port p) = 1) ∧
    (∃ (p : Port) (v : BitVec 56) (s : State), blockTime (s.port p) = 2) ∧
    (∃ (p : Port) (d : Dom) (s : State), (s.port p).ready = false) ∧
    (∃ (p : Port) (d : Dom) (s : State) (v : BitVec 56) (at_ : BitVec 64), (s.port p).ready = false) ∧
    (∃ (p : Port) (v : BitVec 56) (at_ : BitVec 64) (d : Dom) (s : State), (s.port p).ready = true ∧ d = (if v.getLsbD 2 = true then .td2 else .td1) ∧ v.toNat % 4 = 0 ∧ (s.dom d).isMaster = false ∧ (s.dom d).up = p) ∧
    (∃ (p : Port) (v : BitVec 56) (at_ : BitVec 64) (d : Dom) (s : State), (s.port p).ready = true ∧ d = (if v.getLsbD 2 = true then .td2 else .td1) ∧ v.toNat % 4 = 2) ∧
    (∃ (p : Port) (v : BitVec 56) (at_ : BitVec 64) (d : Dom) (s : State) (t0 : BitVec 64) (f : Int), (s.port p).ready = true ∧ d = (if v.getLsbD 2 = true then .td2 else .td1) ∧ v.toNat % 4 = 3 ∧ s.time.requests[portIx p] = some (BitVec.ofNat 5 (v.toNat / 8), t0) ∧ (s.dom d).forwards[portIx p] = some f) :=
  ⟨⟨.s, .td1, { wTd { TimeDom.reset with hasMaster := true, isMaster := true } with link := (wP wPort).link }, by decide⟩,
   ⟨.s, 0, wP wPort, by decide⟩,
   ⟨.s, 0, wP { wPort with lanes := 1 }, by decide⟩,
   ⟨.s, .td1, tUp, by decide⟩,
   ⟨.s, .td1, tUp, 0, 0, by decide⟩,
   ⟨.s, 0, 0, .td1, wP wPort, by decide⟩,
   ⟨.s, 2, 0, .td1, wP wPort, by decide⟩,
   ⟨.s, 3, 0, .td1, { wP wPort with time := { tUp.time with requests := tUp.time.requests.set 0 (some (0, 0)), td1 := { TimeDom.reset with forwards := TimeDom.reset.forwards.set 0 (some 7) } } }, 0, 7, by decide⟩⟩

theorem witness_TimeEventsAct_2 :
    (∃ (p : Port) (v : BitVec 56) (at_ : BitVec 64) (d : Dom) (s : State) (t0 : BitVec 64), (s.port p).ready = true ∧ d = (if v.getLsbD 2 = true then .td2 else .td1) ∧ v.toNat % 4 = 3 ∧ s.time.requests[portIx p] = some (BitVec.ofNat 5 (v.toNat / 8), t0) ∧ (s.dom d).forwards[portIx p] = none) ∧
    (∃ (d : Dom) (s : State), (s.dom d).lock = false ∧ (s.dom d).hasMaster = true ∧ ((s.dom d).isMaster = true ∨ (s.port (s.dom d).up).ready = true ∧ 100 ≤ (s.dom d).goodSyncs)) ∧
    (∃ (d : Dom) (s : State), (s.dom d).isMaster = false ∧ (s.dom d).goodSyncs < 100) ∧
    (∃ (s : State), s.time.slewing = true ∧ |slewLeft s.time| < 2 ^ 24) ∧
    (∃ (s : State), s.time.td1.lock = false ∧ s.time.td2.lock = false ∧ s.time.holdover = false) ∧
    (∃ (s : State), (s.time.td1.lock = true ∨ s.time.td2.lock = true ∨ s.time.holdover = true)) ∧
    (∃ (s : State), s.time.holdover = true) ∧
    (∃ (s : State), s.time.holdover = false) :=
  ⟨⟨.s, 3, 0, .td1, { wP wPort with time := { tUp.time with requests := tUp.time.requests.set 0 (some (0, 0)) } }, 0, by decide⟩,
   ⟨.td1, wTd { TimeDom.reset with hasMaster := true, isMaster := true }, by decide⟩,
   ⟨.td1, tUp, by decide⟩,
   ⟨{ tUp with time := { tUp.time with slewing := true } }, by decide⟩,
   ⟨tUp, by decide⟩,
   ⟨wTd { TimeDom.reset with lock := true }, by decide⟩,
   ⟨{ tUp with time := { tUp.time with holdover := true } }, by decide⟩,
   ⟨tUp, by decide⟩⟩

theorem witness_TimeEventsAct_3 :
    (∃ (d : Dom) (s : State) (p : Port), (s.dom d).isMaster = false ∧ (s.dom d).hasMaster = true ∧ (s.port (s.dom d).up).ready = false ∧ upstream s d = some p) ∧
    (∃ (d : Dom) (s : State), (s.dom d).isMaster = false ∧ (s.dom d).hasMaster = true ∧ (s.port (s.dom d).up).ready = false ∧ upstream s d = none) ∧
    (∃ (d : Dom) (s : State) (p : Port) (q : Port), upstream s d = some p ∧ timePort s q = true) ∧
    (∃ (d : Dom) (s : State) (q : Port), upstream s d = none) ∧
    (∃ (d : Dom) (s : State), timePort s .s = true ∧ (∀ q : Port, (s.dom d).hops[portIx q] = none)) ∧
    (∃ (p : Port) (a : Announcement) (s : State), a.master = true ∧ a.serial ≠ s.id.serial ∧ (s.dom a.dom).isMaster = false ∧ (s.dom a.dom).hasMaster = false) ∧
    (∃ (d : Dom) (s : State), (s.dom d).isMaster = true) ∧
    (∃ (d : Dom) (s : State) (cs : List Candidate), (s.dom d).isMaster = true) :=
  ⟨⟨.td1, { wTd { TimeDom.reset with hasMaster := true, up := .z } with link := (wP wPort).link }, .s, by decide +kernel⟩,
   ⟨.td1, wTd { TimeDom.reset with hasMaster := true }, by decide +kernel⟩,
   ⟨.td1, wP wPort, .s, .s, by decide +kernel⟩,
   ⟨.td1, tUp, .s, by decide +kernel⟩,
   ⟨.td1, wP wPort, by decide +kernel, fun q => by cases q <;> rfl⟩,
   ⟨.s, ⟨.td1, true, 1, 5, 0, 0⟩, tUp, by decide⟩,
   ⟨.td1, wTd { TimeDom.reset with isMaster := true }, by decide⟩,
   ⟨.td1, wTd { TimeDom.reset with isMaster := true }, [], by decide⟩⟩

theorem witness_TimeEventsAct_4 :
    (∃ (d : Dom) (c : Candidate) (s : State), (s.dom d).isMaster = false ∧ c.self = false ∧ c.prio ≠ 0 ∧ d = .td1) ∧
    (∃ (q : Half) (time : BitVec 64) (arrived : BitVec 64) (d : Byte) (s : State) (left : BitVec 64) (down : Int), ptpRuns s = true ∧ d.toNat = s.time.ptpDomain ∧ s.time.ptpReq = some (q, left) ∧ s.time.ptpDown = some down) ∧
    (∃ (msg : PtpMessage) (s : State), (ptpRuns s = false ∨ (ptpDomainOf msg).toNat ≠ s.time.ptpDomain)) ∧
    (∃ (s : State), (ptpRuns s = false ∨ 10000000000 ≤ (s.time.dev - s.time.ptpAt).toNat)) ∧
    (∃ (s : State), ptpRuns s = true ∧ (s.time.dev - s.time.ptpAt).toNat < 10000000000) ∧
    (∃ (s : State), ptpRuns s = true ∧ (∀ l : BitVec 64, s.time.ptpLast = some l → ptpGap s.time ≤ (s.time.dev - l).toNat)) ∧
    (∃ (s : State), (ptpRuns s = false ∨ (∃ l : BitVec 64, s.time.ptpLast = some l ∧ (s.time.dev - l).toNat < ptpGap s.time))) :=
  ⟨⟨.td1, ⟨1, 5, false⟩, tUp, by decide⟩,
   ⟨0, 0, 0, 0, { tUp with time := { tUp.time with ptpOn := true, ptpReq := some (0, 0), ptpDown := some 0 }, eth := { Eth.reset with link := true } }, 0, 0, by decide⟩,
   ⟨.followUp 0 0 0, tUp, by decide⟩,
   ⟨tUp, Or.inl rfl⟩,
   ⟨{ tUp with time := { tUp.time with ptpOn := true }, eth := { Eth.reset with link := true } }, by decide⟩,
   ⟨{ tUp with time := { tUp.time with ptpOn := true }, eth := { Eth.reset with link := true } }, by decide, fun _ h => by have hh : (none : Option (BitVec 64)) = some _ := h; cases hh⟩,
   ⟨tUp, Or.inl rfl⟩⟩

theorem witness_SafetyEventsAct_1 :
    (∃ (x : Island) (fn : Fin 4) (ch : Fin 4) (s : State), ch.val < chanCount s.saf.cfg.fns[fn].type ∧ (s.isle x).eval = false) ∧
    (∃ (x : Island) (fn : Fin 4) (ch : Fin 4) (q : QuadId) (s : State), s.saf.cfg.fns[fn].type = 1 ∧ s.saf.cfg.fns[fn].ss1 = false ∧ ch.val < 2 ∧ s.saf.cfg.fns[fn].zone.getLsbD q.val = true ∧ (s.isle x).eval = true ∧ (s.isle x).failed = false ∧ (s.isle x).ss1[(Fin.ofNat 5 fn.val)] = 0 ∧ (s.isle x).fns[fn].chFault = 0) ∧
    (∃ (x : Island) (fn : Fin 4) (ch : Fin 4) (s : State), chanCount s.saf.cfg.fns[fn].type ≤ ch.val) ∧
    (∃ (x : Island) (s : State), (s.isle x).failed = true) ∧
    (∃ (x : Island) (s : State), (s.isle x).failed = false ∧ s.saf.cfg.safelight ≠ 0 ∧ inSafelight s = false) ∧
    (∃ (x : Island) (s : State), (s.isle x).failed = false ∧ (s.saf.cfg.safelight = 0 ∨ inSafelight s = true)) ∧
    (∃ (s : State), inSafelight s = true ∧ (s.isle .a).limitOver = false) ∧
    (∃ (s : State), inSafelight s = false) :=
  ⟨⟨.a, 0, 1, wIsl IslandState.reset wEstop, by decide⟩,
   ⟨.a, 0, 1, 0, wIsl { IslandState.reset with eval := true } wEstop, by decide⟩,
   ⟨.a, 0, 0, tUp, by decide⟩,
   ⟨.a, wIsl { IslandState.reset with failed := true } SafetyCfg.factory, by decide⟩,
   ⟨.a, wIsl IslandState.reset { SafetyCfg.factory with safelight := 1 }, by decide⟩,
   ⟨.a, tUp, by decide⟩,
   ⟨wIsl { IslandState.reset with safelight := true } SafetyCfg.factory, by decide⟩,
   ⟨tUp, by decide⟩⟩

theorem witness_SafetyEventsAct_2 :
    (∃ (x : Island) (fn : Fin 5) (q : QuadId) (s : State), (s.isle x).ss1[fn].getLsbD q.val = false) ∧
    (∃ (x : Island) (fn : Fin 5) (q : QuadId) (s : State), (s.isle x).ss1[fn].getLsbD q.val = true) ∧
    (∃ (x : Island) (fn : Fin 4) (s : State), s.saf.cfg.fns[fn].type = 0) ∧
    (∃ (x : Island) (fn : Fin 4) (s : State), s.saf.cfg.fns[fn].type ≠ 0 ∧ (s.isle x).eval = true ∧ (s.isle x).fns[fn].differs s.saf.cfg.fns[fn].type = true) ∧
    (∃ (x : Island) (fn : Fin 4) (s : State), s.saf.cfg.fns[fn].type ≠ 4) ∧
    (∃ (x : Island) (fn : Fin 4) (s : State), s.saf.cfg.fns[fn].type = 4 ∧ (s.isle x).fns[fn].oneButton = true ∧ (s.isle x).fns[fn].released = true) ∧
    (∃ (k : Fin 4) (s : State), s.isReady (if k.val < 2 then rdySafA else rdySafB) = true ∧ s.saf.settling = false ∧ (s.isle (if k.val < 2 then .a else .b)).tpFault.getLsbD k.val = false) ∧
    (∃ (n : Fin 8) (s : State) (r : PulseResponse), channelOf s.saf.cfg n.val = none) :=
  ⟨⟨.a, 0, 0, tUp, by decide⟩,
   ⟨.a, 4, 0, wIsl { IslandState.reset with ss1 := Vector.replicate 5 1 } SafetyCfg.factory, by decide⟩,
   ⟨.a, 0, tUp, by decide⟩,
   ⟨.a, 0, wIsl { IslandState.reset with eval := true, fns := Vector.replicate 4 { FnState.reset with chDemand := 1 } } wEstop, by decide⟩,
   ⟨.a, 0, tUp, by decide⟩,
   ⟨.a, 0, wIsl { IslandState.reset with fns := Vector.replicate 4 { FnState.reset with chDemand := 1, released := true } } { SafetyCfg.factory with fns := Vector.replicate 4 { SafetyFn.factory with type := 4 } }, by decide⟩,
   ⟨0, wSaf { tUp.saf with settling := false }, by decide⟩,
   ⟨0, tUp, ⟨true, true⟩, by decide⟩⟩

theorem witness_SafetyEventsAct_3 :
    (∃ (n : Fin 8) (f : Fin 4) (c : Nat) (s : State) (r : PulseResponse), channelOf s.saf.cfg n.val = some (f, c) ∧ s.saf.cfg.fns[f].supply.getD c 255 < 4 ∧ (s.isle (if s.saf.cfg.fns[f].supply.getD c 255 < 2 then .a else .b)).level.getLsbD n.val = false) ∧
    (∃ (n : Fin 8) (f : Fin 4) (c : Nat) (s : State), channelOf s.saf.cfg n.val = some (f, c) ∧ s.saf.cfg.fns[f].supply.getD c 255 < 4 ∧ (s.isle (if s.saf.cfg.fns[f].supply.getD c 255 < 2 then .a else .b)).level.getLsbD n.val = true) ∧
    (∃ (n : Fin 8) (f : Fin 4) (c : Nat) (s : State) (back : Bool), channelOf s.saf.cfg n.val = some (f, c) ∧ s.saf.cfg.fns[f].supply.getD c 255 < 4 ∧ (s.isle (if s.saf.cfg.fns[f].supply.getD c 255 < 2 then .a else .b)).level.getLsbD n.val = true) :=
  ⟨⟨0, 0, 0, wIsl IslandState.reset { SafetyCfg.factory with fns := Vector.replicate 4 { SafetyFn.factory with type := 1, inputs := [0, 1, 0, 0], supply := [0, 1, 255, 255] } }, ⟨true, true⟩, by decide⟩,
   ⟨0, 0, 0, wIsl { IslandState.reset with level := 1 } { SafetyCfg.factory with fns := Vector.replicate 4 { SafetyFn.factory with type := 1, inputs := [0, 1, 0, 0], supply := [0, 1, 255, 255] } }, by decide⟩,
   ⟨0, 0, 0, wIsl { IslandState.reset with level := 1 } { SafetyCfg.factory with fns := Vector.replicate 4 { SafetyFn.factory with type := 1, inputs := [0, 1, 0, 0], supply := [0, 1, 255, 255] } }, false, by decide⟩⟩

theorem witness_ExposureEventsAct :
    (∃ (u : ExpId) (samples : List (List Sample)) (stamp : Word) (room : Bool) (poison : Bool) (s : State), s.exps[u].busy = false) ∧
    (∃ (u : ExpId) (samples : List (List Sample)) (stamp : Word) (room : Bool) (poison : Bool) (s : State), samples.length ≠ 2 ^ s.exps[u].rate) ∧
    (∃ (u : ExpId) (samples : List (List Sample)) (stamp : Word) (s : State) (j : ExpId), s.exps[u].busy = true ∧ samples.length = 2 ^ s.exps[u].rate ∧ s.exps[u].slots = [] ∧ s.exps[u].run.seen = 0 ∧ j ≠ u) ∧
    (∃ (u : ExpId) (samples : List (List Sample)) (stamp : Word) (poison : Bool) (s : State) (j : ExpId), s.exps[u].busy = true ∧ samples.length = 2 ^ s.exps[u].rate ∧ s.exps[u].slots = [] ∧ s.exps[u].run.seen = 0 ∧ s.exps[u].run.gap = 0 ∧ s.exps[u].roomFor = true ∧ s.exps[u].run.frames.length < 255 ∧ j ≠ u) ∧
    (∃ (u : ExpId) (s : State), s.exps[u].st = .filling ∧ s.exps[u].pre ≤ s.exps[u].run.stored) ∧
    (∃ (u : ExpId) (s : State), (s.exps[u].st ≠ .filling ∨ s.exps[u].run.stored < s.exps[u].pre)) ∧
    (∃ (u : ExpId) (samples : List (List Sample)) (stamp : Word) (s : State), s.exps[u].listens = false) ∧
    (∃ (u : ExpId) (samples : List (List Sample)) (stamp : Word) (w : Nat) (s : State), s.exps[u].listens = true ∧ s.exps[u].stream = false ∧ (s.exps[u].takeSamples (s.heldIn u samples)).2.1 = 0 ∧ lowestSlot (s.exps[u].takeSamples (s.heldIn u samples)).2.2 = some w ∧ s.exps[u].run.seen + samples.length ≤ 2 ^ s.exps[u].rate ∧ (stamp - s.stamp).toNat < s.tNs) ∧
    (∃ (u : ExpId) (samples : List (List Sample)) (stamp : Word) (w : Nat) (s : State), s.exps[u].listens = true ∧ s.exps[u].stream = false ∧ (s.exps[u].takeSamples (s.heldIn u samples)).2.1 = 0 ∧ lowestSlot (s.exps[u].takeSamples (s.heldIn u samples)).2.2 = some w ∧ s.exps[u].run.seen + samples.length ≤ 2 ^ s.exps[u].rate ∧ s.exps[u].st = .armed) ∧
    (∃ (u : ExpId) (s : State), s.exps[u].run.inHoldoff = true ∧ s.exps[u].run.holdLeft = 0) ∧
    (∃ (u : ExpId) (s : State), (s.exps[u].run.inHoldoff = false ∨ s.exps[u].run.holdLeft ≠ 0)) ∧
    (∃ (u : ExpId) (stamp : Word) (s : State), s.exps[u].st = .post ∧ s.exps[u].run.postLeft = 0) ∧
    (∃ (u : ExpId) (stamp : Word) (s : State), s.exps[u].st ≠ .post) :=
  ⟨⟨0, [], 0, false, false, tUp, by decide⟩,
   ⟨0, [], 0, false, false, tUp, by decide⟩,
   ⟨0, [[]], 0, wExp { Exp.reset with configured := true, st := .armed, slots := [] }, 1, by decide⟩,
   ⟨0, [[]], 0, false, wExp { Exp.reset with configured := true, st := .armed, slots := [] }, 1, by decide⟩,
   ⟨0, wExp { Exp.reset with st := .filling }, by decide⟩,
   ⟨0, tUp, by decide⟩,
   ⟨0, [], 0, tUp, by decide⟩,
   ⟨0, [[1]], 0, 0, wExp { Exp.reset with configured := true, st := .armed, chanEn := 1, slots := [⟨1, false, false, 0, false, false⟩] }, by decide⟩,
   ⟨0, [[1]], 0, 0, wExp { Exp.reset with configured := true, st := .armed, chanEn := 1, slots := [⟨1, false, false, 0, false, false⟩] }, by decide⟩,
   ⟨0, wExp { Exp.reset with run := { Exp.reset.run with inHoldoff := true } }, by decide⟩,
   ⟨0, tUp, by decide⟩,
   ⟨0, 0, wExp { Exp.reset with st := .post }, by decide⟩,
   ⟨0, 0, tUp, by decide⟩⟩

theorem witness_FieldIoEventsAct_1 :
    (∃ (i : Fin 32) (level : Bool) (s : State) (k : Nat), k ≠ i.val) ∧
    (∃ (o : Fin 16) (s : State), driven s.fio o = false ∧ s.fio.openOff.getLsbD o.val = false) ∧
    (∃ (o : Fin 16) (s : State), driven s.fio o = true) ∧
    (∃ (o : Fin 16) (s : State), driven s.fio o = false ∧ s.fio.openOff.getLsbD o.val = true) ∧
    (∃ (r : Half) (s : State), r.toInt < -50) ∧
    (∃ (r : Half) (s : State) (o : Fin 16), r.toInt < -50) ∧
    (∃ (r : Half) (s : State), -50 ≤ r.toInt) ∧
    (∃ (r : Half) (s : State), 0 ≤ r.toInt ∧ r.toInt ≤ 1800) :=
  ⟨⟨0, false, tUp, 1, by decide⟩,
   ⟨0, tUp, by decide⟩,
   ⟨0, wFio { tUp.fio with inSafe := false, outCmd := 1 }, by decide⟩,
   ⟨0, wFio { tUp.fio with openOff := 1 }, by decide⟩,
   ⟨-51, tUp, by decide⟩,
   ⟨-51, tUp, 0, by decide⟩,
   ⟨-50, tUp, by decide⟩,
   ⟨0, tUp, by decide⟩⟩

theorem witness_FieldIoEventsAct_2 :
    (∃ (r : Half) (s : State) (o : Fin 16), 0 ≤ r.toInt ∧ r.toInt ≤ 1800) ∧
    (∃ (r : Half) (s : State), 1800 < r.toInt) ∧
    (∃ (r : Half) (s : State), 1920 < r.toInt) ∧
    (∃ (r : Half) (s : State), r.toInt ≤ 1920) ∧
    (∃ (r : Half) (s : State), 3050 < r.toInt) ∧
    (∃ (r : Half) (s : State), r.toInt ≤ 3050) ∧
    (∃ (s : State) (o : Fin 16), s.fio.safe.getLsbD (2 * o.val) = false ∧ s.fio.safe.getLsbD (2 * o.val + 1) = false) ∧
    (∃ (c : Conv) (s : State), (s.isReady rdyFdie = false ∨ (convOf s.fio c).busy = true ∨ (convOf s.fio c).waiting = true ∨ (convOf s.fio c).left ≠ 0)) :=
  ⟨⟨1800, tUp, 0, by decide⟩,
   ⟨1801, tUp, by decide⟩,
   ⟨1921, tUp, by decide⟩,
   ⟨1920, tUp, by decide⟩,
   ⟨3051, tUp, by decide⟩,
   ⟨3050, tUp, by decide⟩,
   ⟨tUp, 0, by decide⟩,
   ⟨.x, wPwr { tUp.pwr with ready := 0 }, by decide⟩⟩

theorem witness_FieldIoEventsAct_3 :
    (∃ (c : Conv) (s : State), s.isReady rdyFdie = true ∧ (convOf s.fio c).busy = false ∧ (convOf s.fio c).waiting = false ∧ (convOf s.fio c).left = 0) ∧
    (∃ (c : Conv) (v : Sample) (over_ : Bool) (stamp : Word) (s : State), (convOf s.fio c).busy = false) ∧
    (∃ (c : Conv) (v : Sample) (over_ : Bool) (stamp : Word) (n : Fin 17) (s : State) (k : Fin 17), (convOf s.fio c).busy = true ∧ (convEntry (convOf s.fio c)).channel = n.val ∧ k ≠ n) ∧
    (∃ (c : Conv) (v : Sample) (over_ : Bool) (stamp : Word) (n : Fin 17) (s : State), (convOf s.fio c).busy = true ∧ (convEntry (convOf s.fio c)).channel = n.val ∧ c = .x) ∧
    (∃ (c : Conv) (v : Sample) (over_ : Bool) (stamp : Word) (n : Fin 17) (s : State), (convOf s.fio c).busy = true ∧ (convEntry (convOf s.fio c)).channel = n.val ∧ c = .y) :=
  ⟨⟨.y, tUp, by decide⟩,
   ⟨.x, 0, false, 0, tUp, by decide⟩,
   ⟨.x, 0, false, 0, 16, wFio { tUp.fio with x := { Converter.reset with busy := true } }, 0, by decide⟩,
   ⟨.x, 0, false, 0, 16, wFio { tUp.fio with x := { Converter.reset with busy := true } }, by decide⟩,
   ⟨.y, 0, false, 0, 16, wFio { tUp.fio with y := { Converter.reset with busy := true } }, by decide⟩⟩

theorem witness_CanEventsAct :
    (∃ (c : CanId) (s : State), s.cans[c].modeNext = none) ∧
    (∃ (c : CanId) (m : BitVec 2) (s : State) (k : CanId), s.cans[c].modeNext = some m ∧ k ≠ c) ∧
    (∃ (c : CanId) (tx : Bool) (n : Nat) (s : State), s.cans[c].mode = 1 ∧ canLive s.cans[c] = true) ∧
    (∃ (c : CanId) (tx : Bool) (n : Nat) (s : State), (s.cans[c].mode ≠ 1 ∨ canLive s.cans[c] = false)) ∧
    (∃ (c : CanId) (s : State), s.cans[c].st = .busOff ∧ s.cans[c].recovering = true ∧ s.cans[c].mode ≠ 0) ∧
    (∃ (c : CanId) (f : CanFrame) (s : State), canLive s.cans[c] = false) ∧
    (∃ (c : CanId) (f : CanFrame) (s : State), canLive s.cans[c] = true ∧ statusStrand s c f = none ∧ (routeFrame s.cans[c] f).1 = 0 ∧ s.cans[c].mode = 1) ∧
    (∃ (c : CanId) (f : CanFrame) (k : Fin 64) (n : Half) (s : State) (j : Fin 64), canLive s.cans[c] = true ∧ statusStrand s c f = none ∧ routeFrame s.cans[c] f = (3, k, n) ∧ j ≠ k) ∧
    (∃ (c : CanId) (f : CanFrame) (k : Fin 64) (n : Half) (s : State), canLive s.cans[c] = true ∧ statusStrand s c f = none ∧ routeFrame s.cans[c] f = (1, k, n) ∧ s.cans[c].fifo0.length < s.cans[c].cfg.f0Size) ∧
    (∃ (c : CanId) (f : CanFrame) (k : Fin 64) (n : Half) (s : State), canLive s.cans[c] = true ∧ statusStrand s c f = none ∧ routeFrame s.cans[c] f = (1, k, n) ∧ s.cans[c].cfg.f0Size ≤ s.cans[c].fifo0.length ∧ s.cans[c].cfg.over0 = false) ∧
    (∃ (c : CanId) (k : Fin 64) (f : CanFrame) (stamp : Word) (s : State), canLive s.cans[c] = true ∧ s.cans[c].mode = 1 ∧ nextTx s.cans[c] = some (.buffer k, f) ∧ s.cans[c].cfg.oneShot = false) ∧
    (∃ (c : CanId) (s : State) (stamp : Word) (sent : Bool), nextTx s.cans[c] = none) ∧
    (∃ (i : StrandId) (c : CanId) (n : Nat) (s : State), s.strands[i].cfg.binding = .can c n ∧ 8 ≤ keyed 0 i s.cans[c].silent ∧ s.strands[i].st ≠ .off) ∧
    (∃ (i : StrandId) (c : CanId) (n : Nat) (s : State), s.strands[i].cfg.binding = .can c n ∧ keyed 0 i s.cans[c].silent < 8) :=
  ⟨⟨0, tUp, by decide⟩,
   ⟨0, 2, wCan { Can.reset 0 with modeNext := some 2 }, 1, by decide⟩,
   ⟨0, false, 0, wCan { wLive with mode := 1 }, by decide⟩,
   ⟨0, false, 0, tUp, by decide⟩,
   ⟨0, wCan { Can.reset 0 with st := .busOff, recovering := true, mode := 1 }, by decide⟩,
   ⟨0, wF, tUp, by decide⟩,
   ⟨0, wF, wCan { wLive with mode := 1, rules := [wRule 0] }, by decide +kernel⟩,
   ⟨0, wF, 0, 0, wCan { wLive with rules := [wRule 3] }, 1, by decide +kernel⟩,
   ⟨0, wF, 0, 0, wCan { wLive with rules := [wRule 1], fifo0 := List.replicate 63 CanRec.reset }, by decide +kernel⟩,
   ⟨0, wF, 0, 0, wCan { wLive with rules := [wRule 1], fifo0 := List.replicate 64 CanRec.reset }, by decide +kernel⟩,
   ⟨0, 0, wF, 0, wCan { wLive with mode := 1, bufs := wLive.bufs.set 0 ⟨false, false, 0, true, ⟨wF, 0, 0, 0⟩⟩ }, by decide⟩,
   ⟨0, tUp, 0, false, by decide⟩,
   ⟨0, 0, 0, { wAt { Strand.reset with st := .run, cfg := { StrandCfg.reset with binding := .can 0 0 } } with cans := tUp.cans.set 0 { wLive with silent := [(0, 8)] } }, by decide⟩,
   ⟨0, 0, 0, wAt { Strand.reset with cfg := { StrandCfg.reset with binding := .can 0 0 } }, by decide⟩⟩

theorem witness_BoundaryScanKeepsItsLimits :
    (∃ (s : State) (b : Ball), s.scanDrives b = true) ∧
    (∃ (s : State) (b : Ball) (q : QuadId) (k : Fin 12) (f : Fin 16) (n : Fin 4), s.scanDrives b = true) ∧
    (∃ (s : State), s.pwr.resetLow = false ∧ s.scan.trstLow = false ∧ (s.scan.ir = .extest ∨ s.scan.ir = .intest ∨ s.scan.ir = .clamp)) ∧
    (∃ (s : State), s.scan.trstLow = true) ∧
    (∃ (s : State) (b : Ball), s.scan.trstLow = true) :=
  ⟨⟨wScan .extest true, .other, by decide⟩,
   ⟨wScan .extest true, .other, 0, 0, 0, 0, by decide⟩,
   ⟨wScan .clamp false, by decide⟩,
   ⟨State.reset, by decide⟩,
   ⟨State.reset, .other, by decide⟩⟩
end

section
/-! The family of the control cycle: first what every request meets, and the values after reset. -/

namespace Sys2Proof.Machine

/-! A request that its mailbox refuses by its opcode (R70). -/

/-- A request that passes the checks of R48 in its mailbox's turn takes its tag (R48, R49). -/
theorem claim_accepted {i : Instr} {o : Origin} {s : State} (ho : originOf i = some o) (hr : s.dist.st = .running)
    (hm : s.isReady rdyMailboxes = true) (hf : s.mb[o.mb].full = false) (hn : firstOf o.mb s.dist.inHand = none)
    (ht : turnOpen s o.mb = true) (ha : acceptStatus i o s = stOk) : claim i o s = .runs (s.holdTag o.mb o.tag) := by
  have hc : s.dist.inHand.contains i = false := by simpa using not_inHand ho hn
  simp only [claim, hr, hc, hm, hf, hn, ht, ha, ne_eq, not_true_eq_false, if_false, if_true, Bool.false_eq_true, Bool.not_true,
    Bool.or_false, Option.isSome_none]

/-- A long command that its mailbox refuses leaves what the short ones allow, as every long command does (R51). -/
theorem runLong_origin_refused {i : Instr} {o : Origin} {s t : State} (check : State → Half) (hc : claim i o s = .runs t)
    (hr : originRefuses o.mb ((opcodeOf i).getD 0).toNat = true) :
    runLong i o check s = (t.finish i o stRefused []).keepStepped s.dist.stepped := by
  simp only [runLong, hc, hr, if_true]

/-- A request of the Ethernet mailbox, MB5 (R70). -/
def ethOrigin : Origin := ⟨5, 0, false, none⟩

/-- SAFETY_WRITE from the Ethernet mailbox: a long command that MB5 refuses (R70). -/
def ethSafetyWrite : Instr := .safetyWrite ethOrigin 0 ⟨0, 1, 1, 0, 0, none⟩

/-- Every function is ready, nothing is in hand, and the latest thing the distaff did was a step of a long operation (R51). -/
def afterLongStep : State :=
  { State.reset with
    pwr := { Power.reset with ready := BitVec.allOnes 24 }
    dist := { Distaff.reset with stepped := true } }

theorem ethSafetyWrite_accepted : acceptStatus ethSafetyWrite ethOrigin afterLongStep = stOk := by decide

/-- SAFETY_WRITE refused by MB5 lets no step of a long operation go before the next short command. -/
theorem ethSafetyWrite_keeps_stepped : ∃ t : State, exec ethSafetyWrite afterLongStep = .next t ∧ t.dist.stepped = true := by
  have hc := claim_accepted (i := ethSafetyWrite) (o := ethOrigin) (s := afterLongStep) rfl rfl rfl rfl rfl rfl ethSafetyWrite_accepted
  exact ⟨_, congrArg Host.Outcome.next (runLong_origin_refused _ hc rfl), rfl⟩

/-! C-class commands. -/

/-- Every C-class command is run as a set (R67, R72). -/
theorem exec_cyclic {i : Instr} {o : Origin} (hc : classOf i = .c) (ho : originOf i = some o) (s : State) :
    exec i s = .next (runCyclic i o s) := by
  cases i <;> cases hc <;> cases ho <;> rfl

end Sys2Proof.Machine

open Sys2Proof Sys2Proof.Machine

/-- Settles O3: each value stands in the reset record of its block. -/
theorem resetLeavesTheStatedValues : Obligations.ResetLeavesTheStatedValues := by
  have hmb : ∀ m : MbId, State.reset.mb[m] = Mailbox.reset := fun m => Vector.getElem_replicate m.isLt
  have heng : ∀ e : EngineId, State.reset.engines[e] = Engine.reset := fun e => Vector.getElem_replicate e.isLt
  have hstr : ∀ i : StrandId, State.reset.strands[i] = Strand.reset := fun i => Vector.getElem_replicate i.isLt
  refine ⟨rfl, rfl, rfl, fun m => ?_, rfl, rfl, fun e => ?_, rfl, rfl, rfl, rfl, rfl, fun i => ?_⟩
  · rw [hmb m]; exact ⟨rfl, rfl, rfl, rfl, rfl, rfl⟩
  · rw [heng e]; rfl
  · rw [hstr i]; exact ⟨rfl, rfl⟩

/-- Refutes O8, in its last clause: a LONG command that its mailbox refuses keeps the distaff's mark that a step of a long
operation has run since the last short command (R51), where the clause has the mark cleared. SAFETY_WRITE from MB5, taken up
with that mark set, is the counterexample. -/
theorem not_aRequestEndsAtTheFirstCheckThatFails : ¬ Obligations.ARequestEndsAtTheFirstCheckThatFails := by
  rintro ⟨-, -, -, horigin⟩
  obtain ⟨t, ht, hstepped⟩ := ethSafetyWrite_keeps_stepped
  have hclause := horigin ethSafetyWrite ethOrigin afterLongStep rfl rfl rfl rfl rfl rfl ethSafetyWrite_accepted rfl rfl
  rw [ht] at hclause
  injection hclause with hstate
  rw [hstate] at hstepped
  exact Bool.false_ne_true hstepped

/-- Settles O24: every C-class command is run by `runCyclic`, whose three ends for a served command are the three clauses. -/
theorem everyCyclicCommandIsStaged : Obligations.EveryCyclicCommandIsStaged := by
  refine ⟨fun i j o s hc hs hj hk => ?_, fun i j o s hc hs hj hk hw => ?_, fun i o st res s hc hs hj => ?_⟩
  · rw [exec_cyclic hc hs.1, runCyclic_staged hs hj hk]
  · rw [exec_cyclic hc hs.1, runCyclic_refused hs hj hk hw, State.ended]
  · rw [exec_cyclic hc hs.1, runCyclic_unread hs hj, State.ended]
end

section
/-! The family of the control cycle: what the settings of a strand do when their sets act. -/

namespace Sys2Proof.Machine

variable {s : State}

/-! A set that acts. -/

/-- A set whose conditions hold acts as `applySet` says, where its command does not end later (R69). -/
theorem setActs_applySet {i : Instr} {o : Origin} (ho : originOf i = some o) (hc : checkSet i s = stOk)
    (he : endsLater i (applySet i s) = false) : SetActs i o s (applySet i s) := by
  simp only [SetActs, State.takeSet, ho, hc, he, if_true, Bool.false_eq_true, if_false]

theorem setBytes_plyCoeff (o : Origin) (st : Half) (ply : Byte) (d : Desc) : setBytes (.plyCoeff o st ply d) = Desc.bytes d := rfl

theorem allowIf_ok {b : Bool} (h : allowIf b = stOk) : b = true := by
  cases b
  · exact absurd h (by decide)
  · rfl

/-! One strand of the vector after an update of one. -/

theorem modStrand_self (i : StrandId) (f : Strand → Strand) : (s.modStrand i f).strands[i] = f s.strands[i] :=
  Vector.getElem_set_self ..

theorem modStrand_other {i j : StrandId} (h : j ≠ i) (f : Strand → Strand) : (s.modStrand i f).strands[j] = s.strands[j] :=
  Vector.getElem_set_ne i.isLt j.isLt fun e => h (Fin.ext e.symm)

theorem modStrand_congr {t : State} (h : t.strands = s.strands) {i : StrandId} {f g : Strand → Strand} (hf : f s.strands[i] = g s.strands[i]) :
    (t.modStrand i f).strands = (s.modStrand i g).strands := by
  rw [State.modStrand_strands, State.modStrand_strands, h, hf]

theorem modStrand_twice (i : StrandId) (f g : Strand → Strand) :
    ((s.modStrand i f).modStrand i g).strands = (s.modStrand i fun x => g (f x)).strands := by
  rw [State.modStrand_strands, modStrand_self]
  exact Vector.set_set ..

theorem raise_strands (v : Nat) : (s.raise v).strands = s.strands := by
  obtain ⟨h, out, hs, -⟩ := raise_frame (s := s) v
  rw [hs]

/-- Entering a state changes the strand's state alone (R90). -/
theorem enter_strands (i : StrandId) (st : StrandSt) : (s.enter i st).strands = (s.modStrand i fun x => { x with st := st }).strands := by
  unfold State.enter
  split
  next h => rw [State.modStrand_strands, ← h]; exact (Vector.set_getElem_self ..).symm
  · dsimp only
    split
    · exact raise_strands 11
    · rfl

/-- A part of the state that each step of a fold leaves is left by the fold. -/
theorem foldl_frame {σ α β : Type} (π : σ → β) {f : σ → α → σ} (h : ∀ s a, π (f s a) = π s) (l : List α) (s : σ) :
    π (l.foldl f s) = π s := by
  induction l generalizing s with
  | nil => rfl
  | cons a l ih => rw [List.foldl_cons, ih, h]

theorem foldl_strands {α : Type} {f : State → α → State} (h : ∀ t a, (f t a).strands = t.strands) (l : List α) (t : State) :
    (l.foldl f t).strands = t.strands := foldl_frame State.strands h l t

/-! What the seating of a strand leaves of the strands. -/

theorem forceStrand_strands (i : StrandId) (v : Nat) : (s.forceStrand i v).strands = s.strands := by
  unfold State.forceStrand
  dsimp only
  split <;> rfl

theorem endTable_strands (i : StrandId) : (s.endTable i).strands = s.strands := by
  unfold State.endTable
  split <;> rfl

theorem switchOff_strands (i : StrandId) : (s.switchOff i).strands = s.strands := by
  rw [State.switchOff, endTable_strands, forceStrand_strands]

theorem leaveCan_strands (i : StrandId) (b : Binding) : (s.leaveCan i b).strands = s.strands := by
  unfold State.leaveCan
  split <;> rfl

theorem wakeBank_strands (b : BankId) : (s.wakeBank b).strands = s.strands := by
  unfold State.wakeBank
  dsimp only
  split
  · rfl
  · split <;> rfl

theorem wakeFn_strands (f : Half) : (s.wakeFn f).strands = s.strands := by
  unfold State.wakeFn
  split
  · exact wakeBank_strands _
  · rfl

theorem holdAwake_strands (e : EngineId) : (s.holdAwake e).strands = s.strands := by
  rw [State.holdAwake, State.modPwr_strands, wakeFn_strands]

theorem placeSlot_strands (old new : Binding) : (s.placeSlot old new).strands = s.strands := by
  unfold State.placeSlot
  extract_lets drop placed
  have hdrop : ∀ t : State, (drop t).strands = t.strands := fun t => by
    simp only [drop]
    split
    · rw [foldl_strands fun _ _ => State.modRole_strands ..]
    · rfl
  split
  · dsimp only
    split
    · rw [holdAwake_strands]; exact hdrop s
    · exact hdrop s
  · exact hdrop s

/-- A strand in OFF ignores a cause (R90). -/
theorem raiseCause_off {i : StrandId} (h : s.strands[i].st = .off) (c : Nat) : s.raiseCause i c = s := if_pos h

/-- What the inputs of a strand in OFF do is done to its pairs alone. -/
theorem meetInputs_strands {i : StrandId} (h : s.strands[i].st = .off) : (s.meetInputs i).strands = s.strands := by
  have hq : ∀ (t : State) (b : Bool) (q : QuadId) (f : Quad → Quad) (c : Nat), t.strands = s.strands →
      (if b then t else (t.modQuad q f).raiseCause i c).strands = s.strands := by
    intro t b q f c ht
    cases b
    · have ho : (t.modQuad q f).strands[i].st = .off := by rw [State.modQuad_strands, ht]; exact h
      rw [raiseCause_off ho]
      exact ht
    · exact ht
  unfold State.meetInputs
  split
  · rfl
  · exact hq _ _ _ _ _ (hq _ _ _ _ _ rfl)

/-- A strand in OFF takes its place: its own record gets an engine and its doubt, and no other changes (R14, R77). -/
theorem seat_strands {i : StrandId} (h : s.strands[i].st = .off) (old : Binding) :
    ∃ e u, (s.seat i old).strands = (s.modStrand i fun x => { x with engine := e, uncertain := u }).strands := by
  unfold State.seat
  extract_lets c e placed off woken waked
  have hplaced : placed.strands = (s.modStrand i fun x => { x with engine := e, uncertain := isStepLike c.binding && c.fb.isNone }).strands := by
    exact modStrand_congr (placeSlot_strands _ _) rfl
  have hoff : off.strands = placed.strands := (wakeFn_strands _).trans (switchOff_strands i)
  have hwoken : woken.strands = off.strands := by
    simp only [woken]
    split
    · exact wakeFn_strands _
    · rfl
  have hwaked : waked.strands = woken.strands := by
    simp only [waked]
    split
    · exact wakeFn_strands _
    · rfl
  have hall := ((hwaked.trans hwoken).trans hoff).trans hplaced
  refine ⟨e, isStepLike c.binding && c.fb.isNone, (meetInputs_strands ?_).trans hall⟩
  rw [hall, modStrand_self]
  exact h

/-! STRAND_BIND. -/

/-- The settings STRAND_BIND gives a strand: those received, or else the defaults, with the quick-stop deceleration that follows
from them (R76, R390). -/
def boundCfg (s : State) (i : StrandId) (b : Binding) (fb : Option FbId) : StrandCfg :=
  let bound := { s.strands[i].cfg with binding := b, fb := fb }
  let r := defaultRates s.tNs
  let rated := if bound.configured then bound
    else { bound with
      dS := r.1, dP := r.2.1, kP := r.2.2, phase := choosePhase s i (engineFor s i b) r.1, reaction := 1, overrunLimit := 0 }
  { rated with dq := quickDecel (profileOf rated), dqStop := false }

theorem applyBind_eq (i : StrandId) (b : Binding) (fb : Option FbId) (s : State) :
    applyBind i b fb s =
      (((s.switchOff i).leaveCan i s.strands[i].cfg.binding).modStrand i fun x => { x with cfg := boundCfg s i b fb }).seat i
        s.strands[i].cfg.binding := rfl

theorem boundCfg_binding (i : StrandId) (b : Binding) (fb : Option FbId) : (boundCfg s i b fb).binding = b := by
  simp only [boundCfg]
  split <;> rfl

theorem boundCfg_fb (i : StrandId) (b : Binding) (fb : Option FbId) : (boundCfg s i b fb).fb = fb := by
  simp only [boundCfg]
  split <;> rfl

/-- The settings received stand, all but the quick-stop deceleration (log entry 91). -/
theorem boundCfg_configured {i : StrandId} (h : s.strands[i].cfg.configured = true) (b : Binding) (fb : Option FbId) :
    boundCfg s i b fb = { s.strands[i].cfg with binding := b, fb := fb, dq := (boundCfg s i b fb).dq, dqStop := false } := by
  simp only [boundCfg, h, if_true]

theorem applyBind_strands {i : StrandId} (h : s.strands[i].st = .off) (b : Binding) (fb : Option FbId) : ∃ e u,
    (applyBind i b fb s).strands =
      (s.modStrand i fun x => { x with cfg := boundCfg s i b fb, engine := e, uncertain := u }).strands := by
  rw [applyBind_eq]
  obtain ⟨t, ht⟩ : ∃ t, t = ((s.switchOff i).leaveCan i s.strands[i].cfg.binding).modStrand i fun x => { x with cfg := boundCfg s i b fb } :=
    ⟨_, rfl⟩
  have hstr : t.strands = (s.modStrand i fun x => { x with cfg := boundCfg s i b fb }).strands := by
    rw [ht, modStrand_congr ((leaveCan_strands _ _).trans (switchOff_strands _)) rfl]
  have hst : t.strands[i].st = .off := by rw [hstr, modStrand_self]; exact h
  obtain ⟨e, u, hs⟩ := seat_strands hst s.strands[i].cfg.binding
  refine ⟨e, u, ?_⟩
  rw [← ht, hs, modStrand_congr hstr rfl, modStrand_twice]

theorem off_of_checkBind {i : StrandId} {b : Binding} {fb : Option FbId} (h : checkBind i b fb s = stOk) : s.strands[i].st = .off := by
  have hok := allowIf_ok h
  simpa [Strand.within] using (Bool.and_eq_true_iff.mp hok).1

theorem strandBind_acts {o : Origin} {st : Half} {kind : Byte} {target : Half} {fb : Byte}
    (h : checkSet (.strandBind o st kind target fb) s = stOk) :
    ∃ t : State, SetActs (.strandBind o st kind target fb) o s t ∧ t.strands[strandIx st].cfg.binding = bindingOf kind target ∧
      t.strands[strandIx st].cfg.fb = fbArg fb ∧ t.strands[strandIx st].st = .off ∧
      (s.strands[strandIx st].cfg.configured = true → t.strands[strandIx st].cfg =
        { s.strands[strandIx st].cfg with binding := bindingOf kind target, fb := fbArg fb, dq := t.strands[strandIx st].cfg.dq, dqStop := false }) ∧
      ∀ j : StrandId, j ≠ strandIx st → t.strands[j] = s.strands[j] := by
  have hoff := off_of_checkBind h
  obtain ⟨e, u, hs⟩ := applyBind_strands hoff (bindingOf kind target) (fbArg fb)
  refine ⟨_, setActs_applySet rfl h rfl, ?_⟩
  simp only [applySet, hs, modStrand_self]
  exact ⟨boundCfg_binding .., boundCfg_fb .., hoff, fun hc => boundCfg_configured hc .., fun j hj => modStrand_other hj _⟩

/-! STRAND_CONFIG. -/

/-- The settings are stored, with a phase of the distaff's choice where the command leaves it one, and a strand in READY goes to
OFF (R13, R17, R90). -/
theorem applyConfig_strands (i : StrandId) (dS phase kP dP reaction limit : Byte) :
    ∃ ph, (phase ≠ 0xFF → ph = phase.toNat) ∧ (applyConfig i dS phase kP dP reaction limit s).strands = (s.modStrand i fun x => { x with
      cfg := { x.cfg with
        configured := true, dS := dS.toNat, phase := ph, kP := kP.toNat, dP := dP.toNat
        reaction := reaction.toNat, overrunLimit := limit.toNat }
      rearm := x.rearm || x.within [.fault, .safe], st := if x.st = .ready then .off else x.st }).strands := by
  unfold applyConfig
  extract_lets ph t
  refine ⟨ph, fun hp => if_neg hp, ?_⟩
  have hself : t.strands[i] = _ := modStrand_self ..
  split
  next hready =>
    rw [hself] at hready
    rw [enter_strands, modStrand_congr (switchOff_strands i) rfl, modStrand_twice]
    exact modStrand_congr rfl (by rw [if_pos hready])
  next hready =>
    rw [hself] at hready
    exact modStrand_congr rfl (by rw [if_neg hready])

theorem strandConfig_acts {o : Origin} {st : Half} {dS phase kP dP reaction limit : Byte}
    (h : checkSet (.strandConfig o st dS phase kP dP reaction limit) s = stOk) :
    ∃ t : State, SetActs (.strandConfig o st dS phase kP dP reaction limit) o s t ∧ t.strands[strandIx st].cfg.dS = dS.toNat ∧
      t.strands[strandIx st].cfg.kP = kP.toNat ∧ t.strands[strandIx st].cfg.dP = dP.toNat ∧
      t.strands[strandIx st].cfg.reaction = reaction.toNat ∧ t.strands[strandIx st].cfg.overrunLimit = limit.toNat ∧
      (phase ≠ 0xFF → t.strands[strandIx st].cfg.phase = phase.toNat) ∧ t.strands[strandIx st].cfg.configured = true ∧
      t.strands[strandIx st].st = (if s.strands[strandIx st].st = .ready then .off else s.strands[strandIx st].st) ∧
      ∀ j : StrandId, j ≠ strandIx st → t.strands[j] = s.strands[j] := by
  obtain ⟨ph, hph, hs⟩ := applyConfig_strands (s := s) (strandIx st) dS phase kP dP reaction limit
  refine ⟨_, setActs_applySet rfl h rfl, ?_⟩
  simp only [applySet, hs, modStrand_self, true_and]
  exact ⟨hph, fun j hj => modStrand_other hj _⟩

/-! PLY_COEFF. -/

/-- A legal block that is no stepper block is loaded into the ply the command names, and into no other (R83, R85). -/
theorem plyCoeff_acts {o : Origin} {st : Half} {ply : Byte} {d : Desc} {b : PlyBlock}
    (hply : isStepLike s.strands[strandIx st].cfg.binding = false ∨ ply ≠ 0) (hb : plyBlock? ply.toNat (Desc.bytes d) = some b)
    (h : checkSet (.plyCoeff o st ply d) s = stOk) :
    ∃ t : State, SetActs (.plyCoeff o st ply d) o s t ∧
      (ply = 0 → t.strands[strandIx st].cfg.cur = some b ∧ t.strands[strandIx st].cfg.vel = s.strands[strandIx st].cfg.vel ∧
        t.strands[strandIx st].cfg.pos = s.strands[strandIx st].cfg.pos) ∧
      (ply = 1 → t.strands[strandIx st].cfg.vel = some b ∧ t.strands[strandIx st].cfg.cur = s.strands[strandIx st].cfg.cur ∧
        t.strands[strandIx st].cfg.pos = s.strands[strandIx st].cfg.pos) ∧
      (ply = 2 → t.strands[strandIx st].cfg.pos = some b ∧ t.strands[strandIx st].cfg.cur = s.strands[strandIx st].cfg.cur ∧
        t.strands[strandIx st].cfg.vel = s.strands[strandIx st].cfg.vel) ∧
      ∀ j : StrandId, j ≠ strandIx st → t.strands[j] = s.strands[j] := by
  refine ⟨_, setActs_applySet rfl h rfl, ?_⟩
  have hstep : ¬(isStepLike s.strands[strandIx st].cfg.binding && ply.toNat == 0) = true := by
    rcases hply with hply | hply
    · rw [hply]
      exact Bool.false_ne_true
    · have hn : ply.toNat ≠ 0 := fun hz => hply (BitVec.eq_of_toNat_eq hz)
      simp [hn]
  simp only [applySet, setBytes_plyCoeff, applyCoeff, if_neg hstep, hb, modStrand_self]
  refine ⟨?_, ?_, ?_, fun j hj => modStrand_other hj _⟩
  · rintro rfl
    exact ⟨rfl, rfl, rfl⟩
  · rintro rfl
    simp only [show (1 : Byte).toNat = 1 from rfl]
    split <;> exact ⟨rfl, rfl, rfl⟩
  · rintro rfl
    exact ⟨rfl, rfl, rfl⟩

/-- A legal stepper block is loaded as ply 0 of a stepper or generator strand (R154). -/
theorem stepperCoeff_acts {o : Origin} {st : Half} {d : Desc} {b : StepperBlock} (hs : isStepLike s.strands[strandIx st].cfg.binding = true)
    (hb : stepperBlock? (needsFs s.strands[strandIx st].cfg) (Desc.bytes d) = some b) (h : checkSet (.plyCoeff o st 0 d) s = stOk) :
    SetActs (.plyCoeff o st 0 d) o s (s.modStrand (strandIx st) fun x => { x with cfg := { x.cfg with step := some b } }) := by
  have ha := setActs_applySet (o := o) rfl h rfl
  have hz : (isStepLike s.strands[strandIx st].cfg.binding && (0 : Byte).toNat == 0) = true := by rw [hs]; rfl
  simpa only [applySet, setBytes_plyCoeff, applyCoeff, if_pos hz, hb] using ha

/-! The other settings. -/

theorem manualTransfer_acts {o : Origin} {st : Half} {output : Word} (h : checkSet (.setTransfer o st 1 output) s = stOk) :
    SetActs (.setTransfer o st 1 output) o s ((s.leavePath (strandIx st)).modStrand (strandIx st) fun x => { x with
      manual := true, plan := none, stored := none, moveEnded := false
      ply := { x.ply with manualOut := if output = 0x80000000 then x.ply.iqRef else satInt 18 output.toInt } }) :=
  setActs_applySet rfl h rfl

theorem autoTransfer_acts {o : Origin} {st : Half} {output : Word} (h : checkSet (.setTransfer o st 0 output) s = stOk) :
    SetActs (.setTransfer o st 0 output) o s (s.modStrand (strandIx st) fun x => { x with manual := false }) :=
  setActs_applySet rfl h rfl

end Sys2Proof.Machine

open Sys2Proof Sys2Proof.Machine

/-- Settles O28: each of the settings is the effect its set has where its conditions hold. -/
theorem strandSettingsTakeEffect : Obligations.StrandSettingsTakeEffect :=
  ⟨fun _ _ _ _ _ _ h => strandBind_acts h, fun _ _ _ _ _ _ _ _ _ h => strandConfig_acts h,
    fun _ _ _ _ _ _ hp hb h => plyCoeff_acts hp hb h, fun _ _ _ _ _ hs hb h => stepperCoeff_acts hs hb h,
    fun _ _ _ _ h => manualTransfer_acts h, fun _ _ _ _ h => autoTransfer_acts h,
    fun _ _ _ _ _ _ _ h => setActs_applySet rfl h rfl, fun _ _ _ _ h => setActs_applySet rfl h rfl,
    fun _ _ _ _ => setActs_applySet rfl rfl rfl⟩
end

section
/-! The family of the control cycle: the ply updates, the contact sheet and the events of the strands. -/

namespace Sys2Proof.Machine

variable {s : State}

/-! The ply update of an engine at rest. -/

/-- An update of a strand that leaves its state and its settings. -/
def KeepsPlace (f : Strand → Strand) : Prop := ∀ x : Strand, (f x).st = x.st ∧ (f x).cfg = x.cfg

theorem modStrand_modStrand (i : StrandId) (f g : Strand → Strand) :
    (s.modStrand i f).modStrand i g = s.modStrand i fun x => g (f x) := by
  simp only [State.modStrand, State.setStrand, Fin.getElem_fin, Vector.getElem_set_self, Vector.set_set]

theorem posPly_keepsPlace (i : StrandId) (b : PlyBlock) (j : Nat) (live : Bool) : KeepsPlace (posPly s i b j live) := fun _ => ⟨rfl, rfl⟩

theorem velPly_keepsPlace (i : StrandId) (b : PlyBlock) (live torque : Bool) : KeepsPlace (velPly s i b live torque) :=
  fun _ => ⟨rfl, rfl⟩

/-- out_limit tells the saturation of the plies (R82). -/
def showLimit (x : Strand) : Strand := { x with outLimit := x.ply.satCur || x.ply.satVel || x.ply.satPos }

theorem KeepsPlace.comp {f g : Strand → Strand} (hg : KeepsPlace g) (hf : KeepsPlace f) : KeepsPlace fun x => g (f x) :=
  fun x => ⟨(hg (f x)).1.trans (hf x).1, (hg (f x)).2.trans (hf x).2⟩

/-- Do the plies of a strand rest in this cycle (R82, R210)? -/
def pliesRest (s : State) (x : Strand) : Bool :=
  !x.hasPlies || !(x.moving || decide (x.st = .ready)) || decide (x.abandoned = some s.seq.cycle)

theorem plyStep_idle {i : StrandId} (j : Nat) (h : pliesRest s s.strands[i] = true) : s.plyStep i j = s := if_pos h

/-- Under the standard laws the plies change their own strand, and one free value is used. -/
theorem plyStep_laws {i : StrandId} (j : Nat) (h : pliesRest s s.strands[i] = false) (hu : userEntry s s.strands[i].engine 3 = false) :
    ∃ f, KeepsPlace f ∧ s.plyStep i j = (s.modStrand i fun x => showLimit (f x)).tick := by
  unfold State.plyStep
  extract_lets x live user mode key p c
  have hpos : ∃ f, KeepsPlace f ∧ p = s.modStrand i f := by
    refine ⟨_, fun x => ?_, rfl⟩
    split
    · exact ⟨rfl, rfl⟩
    · split
      · exact ⟨rfl, rfl⟩
      · split
        · exact ⟨rfl, rfl⟩
        · split
          · exact posPly_keepsPlace _ _ _ _ _
          · exact ⟨rfl, rfl⟩
  have hvel : ∃ f, KeepsPlace f ∧ c = s.modStrand i f := by
    obtain ⟨f, hf, hp⟩ := hpos
    simp only [c]
    split
    · rw [hp, modStrand_modStrand]
      exact ⟨_, (velPly_keepsPlace _ _ _ _).comp hf, rfl⟩
    · rw [hp, modStrand_modStrand]
      refine ⟨_, ?_, rfl⟩
      exact fun x => hf x
    · exact ⟨f, hf, hp⟩
  obtain ⟨f, hf, hc⟩ := hvel
  refine ⟨f, hf, (if_neg (ne_true_of_eq_false h)).trans ((if_neg (ne_true_of_eq_false hu)).trans ?_)⟩
  rw [hc, modStrand_modStrand]
  rfl

/-- The runtime does nothing on an engine that is halted. -/
theorem runtime_halted {e : EngineId} (h : s.engines[e].run = .halted) : s.runtime e = s := by
  have hn : s.runtimeStep e = none := by
    unfold State.runtimeStep
    exact if_pos (Or.inl ⟨by rw [h]; decide, by rw [h]; decide⟩)
  rw [State.runtime, State.runtimeRun, hn]

theorem pliesRest_off {x : Strand} (h : x.st = .off) : pliesRest s x = true := by
  simp [pliesRest, Strand.moving, Strand.within, h]

theorem pliesRest_run {x : Strand} (hp : x.hasPlies = true) (h : x.st = .run) (ha : x.abandoned ≠ some s.seq.cycle) :
    pliesRest s x = false := by
  simp [pliesRest, Strand.moving, Strand.within, hp, h, ha]

theorem plyUpdate_runs {i : StrandId} {j : Byte} (hup : coreUp s = true) (hrun : s.seq.running = true)
    (hdue : plyDue s.strands[i].cfg s.seq.cycle.toNat j.toNat = true) (hw : engineWorks s s.strands[i].engine = true) :
    exec (.plyUpdate i j) s = .next ((s.plyStep i j.toNat).runtime s.strands[i].engine) :=
  congrArg Host.Outcome.next (if_pos (by simp only [hup, hrun, hdue, hw, Bool.and_self]))

/-- What a ply update under the standard laws leaves of everything but its own strand, and what it makes of that. -/
structure PlyWork (i : StrandId) (s t : State) : Prop where
  others : ∀ k : StrandId, k ≠ i → t.strands[k] = s.strands[k]
  frame : t = { s with strands := t.strands, free := t.free }
  off : s.strands[i].st = .off → t = s
  st : t.strands[i].st = s.strands[i].st
  cfg : t.strands[i].cfg = s.strands[i].cfg
  engines : t.engines = s.engines
  limit : s.strands[i].hasPlies = true → s.strands[i].st = .run → s.strands[i].abandoned ≠ some s.seq.cycle →
    t.free = s.free + 1 ∧ t.strands[i].outLimit = (t.strands[i].ply.satCur || t.strands[i].ply.satVel || t.strands[i].ply.satPos)

theorem plyStep_work {i : StrandId} (j : Nat) (hu : userEntry s s.strands[i].engine 3 = false) : PlyWork i s (s.plyStep i j) := by
  cases hr : pliesRest s s.strands[i] with
  | true =>
    rw [plyStep_idle j hr]
    refine ⟨fun _ _ => rfl, rfl, fun _ => rfl, rfl, rfl, rfl, fun hp hst ha => ?_⟩
    exact absurd ((pliesRest_run hp hst ha).symm.trans hr) Bool.false_ne_true
  | false =>
    obtain ⟨f, hf, hs⟩ := plyStep_laws j hr hu
    have hself : (s.plyStep i j).strands[i] = showLimit (f s.strands[i]) := by
      rw [hs, State.tick_strands]
      exact modStrand_self ..
    refine ⟨fun k hk => ?_, ?_, fun hoff => ?_, ?_, ?_, ?_, fun _ _ _ => ⟨?_, ?_⟩⟩
    · rw [hs, State.tick_strands]
      exact modStrand_other hk _
    · rw [hs]
      rfl
    · exact absurd (hr.symm.trans (pliesRest_off hoff)) Bool.false_ne_true
    · rw [hself]
      exact (hf _).1
    · rw [hself]
      exact (hf _).2
    · rw [hs]
      rfl
    · rw [hs]
      rfl
    · rw [hself]
      rfl

/-! The contact sheet. -/

theorem setBit_true_self {w : Nat} (v : BitVec w) {k : Nat} (h : k < w) : (setBit v k true).getLsbD k = true := by
  simp [setBit, h]

theorem sendMsix_intStatus (v : Nat) : (s.sendMsix v).host.intStatus = s.host.intStatus := by
  unfold State.sendMsix
  split
  · split <;> rfl
  · rfl

/-- A vector's cause leaves its bit set (R58). -/
theorem raise_sets {v : Nat} (h : v < 32) : (s.raise v).host.intStatus.getLsbD v = true := by
  unfold State.raise
  split
  · assumption
  · dsimp only
    split
    · exact setBit_true_self _ h
    · rw [sendMsix_intStatus]
      exact setBit_true_self _ h

/-- Pages of cycles that follow one another are the two pages. -/
theorem page_next_ne (n : Nat) : Fin.ofNat 2 n ≠ Fin.ofNat 2 (n + 1) := by
  intro h
  have := congrArg Fin.val h
  simp only [Fin.val_ofNat] at this
  omega

theorem raise_sheets (v : Nat) : (s.raise v).host.sheets = s.host.sheets := by
  obtain ⟨h, out, hs, hh⟩ := raise_frame (s := s) v
  rw [hs, hh]

/-- The page SHEET_PUBLISH writes (R54). -/
def freshSheet (s : State) : SheetPage :=
  ⟨s.host.sheets[pageOf s.seq.cycle].seq + 2, s.seq.cycle, s.strands.map sheetEntry, s.fio.inputsAt, bankFaults s.fio⟩

/-- The host's pages with that page in its place. -/
def State.withSheet (s : State) : State := s.modHost fun h => { h with
  sheets := h.sheets.set (pageOf s.seq.cycle) (freshSheet s), sheetPage := pageOf s.seq.cycle == 1, sheetCycle := s.seq.cycle.truncate 16 }

theorem withSheet_page (s : State) : s.withSheet.host.sheets[pageOf s.seq.cycle] = freshSheet s := Vector.getElem_set_self ..

theorem withSheet_other {p : Fin 2} (h : pageOf s.seq.cycle ≠ p) : s.withSheet.host.sheets[p] = s.host.sheets[p] :=
  Vector.getElem_set_ne (pageOf s.seq.cycle).isLt p.isLt fun e => h (Fin.ext e)

theorem sheetPublish_runs (hup : coreUp s = true) (hrun : s.seq.running = true) : exec .sheetPublish s = .next (s.withSheet.raise 1) :=
  congrArg Host.Outcome.next (if_neg (by simp [hup, hrun]))

theorem sheetPublish_writes (hup : coreUp s = true) (hrun : s.seq.running = true) : ∃ t : State, exec .sheetPublish s = .next t ∧
    t.host.sheets[(Fin.ofNat 2 s.seq.cycle.toNat)].cycle = s.seq.cycle ∧
    t.host.sheets[(Fin.ofNat 2 s.seq.cycle.toNat)].seq = s.host.sheets[(Fin.ofNat 2 s.seq.cycle.toNat)].seq + 2 ∧
    (∀ i : StrandId, t.host.sheets[(Fin.ofNat 2 s.seq.cycle.toNat)].entries[i] = sheetEntry s.strands[i]) ∧
    t.host.sheets[(Fin.ofNat 2 (s.seq.cycle.toNat + 1))] = s.host.sheets[(Fin.ofNat 2 (s.seq.cycle.toNat + 1))] ∧
    t.host.intStatus.getLsbD 1 = true ∧ t.strands = s.strands := by
  refine ⟨_, sheetPublish_runs hup hrun, ?_⟩
  have hpage : (s.withSheet.raise 1).host.sheets[(Fin.ofNat 2 s.seq.cycle.toNat)] = freshSheet s := by
    rw [raise_sheets]
    exact withSheet_page s
  rw [hpage]
  refine ⟨rfl, rfl, fun i => Vector.getElem_map .., ?_, raise_sets (by decide), raise_strands 1⟩
  rw [raise_sheets]
  exact withSheet_other (page_next_ne _)

/-! The events of a strand (R86, R91, R92, R98, R147 to R150). -/

/-- With no cause waiting, none acts. -/
theorem actCauses_none {i : StrandId} (h : s.strands[i].raised = 0) (p : Nat → Bool) : s.actCauses i p = s := by
  have hnone : (List.range 15).filter (fun c => s.strands[i].raised.getLsbD c && p c) = [] :=
    List.filter_eq_nil_iff.mpr fun c _ => by rw [h]; simp
  unfold State.actCauses
  simp only [hnone, List.foldl_nil]

/-- The end of a stop in READY, or in RUN: the stop is over and the strand takes that state (R91). -/
theorem stopDone_ends {i : StrandId} {r : StopRun} (h : s.strands[i].stop = some r) (hr : r.after = .toReady ∨ r.after = .toRun) :
    (s.stopDone i).strands[i].stop = none ∧ (s.stopDone i).strands[i].st = if r.after = .toReady then .ready else .run := by
  unfold State.stopDone
  simp only [h]
  rcases hr with hr | hr <;> simp only [hr, enter_strands, modStrand_self, switchOff_strands, if_true, and_self, reduceCtorEq, if_false]

/-- Where standstill has come and stands, and no cause waits, the update ends the stop (R90). -/
theorem otherEvents_stopDone {i : StrandId} (hc : s.strands[i].raised = 0) (hd : s.strands[i].restDue = true)
    (hs : s.strands[i].stop.isSome = true) (ha : s.strands[i].atStandstill = true) :
    s.otherEvents i = (s.modStrand i fun x => { x with restDue := false }).stopDone i := by
  unfold State.otherEvents
  simp only [actCauses_none hc, hd, hs, ha, Bool.not_true, Bool.false_eq_true, if_false, Bool.and_self, if_true]

/-- An event of a strand while the cyclic blocks run, in the model's form: where its condition holds it acts. -/
theorem event_acts {c d : Bool} {t : State} (hup : c = true) (hd : d = true) :
    (Host.Outcome.next (if c && d then t else s) : Answer) = .next t := by rw [hup, hd]; rfl

theorem event_rests {c d : Bool} {t : State} (hd : d = false) :
    (Host.Outcome.next (if c && d then t else s) : Answer) = .next s := by rw [hd, Bool.and_false]; rfl

theorem stopLate_none {x : Strand} (h : x.stop = none) : stopLate x = false := by simp only [stopLate, h]

theorem stopLate_some {x : Strand} {r : StopRun} (h : x.stop = some r) (ht : r.planned + 400000 < r.plan.t)
    (ha : x.atStandstill = false) : stopLate x = true := by simp [stopLate, h, ht, ha]

theorem ferrDue_some {x : Strand} {b : PlyBlock} (h : x.cfg.pos = some b) :
    ferrDue x = (b.ferrLimit != 0 && x.ply.ferrCount != 0 && decide (b.ferrTime ≤ x.ply.ferrCount)) := by simp only [ferrDue, h]

theorem stallDue_some {x : Strand} {b : StepperBlock} (h : x.cfg.step = some b) :
    stallDue x = (b.window != 0 && x.ply.stallTime != 0 && decide (b.stallTime ≤ x.ply.stallTime)) := by simp only [stallDue, h]

theorem stallDue_none {x : Strand} (h : x.cfg.step = none) : stallDue x = false := by simp only [stallDue, h]

theorem pubGone_some {x : Strand} {e : Engage} (h : x.engage = some e) : pubGone x = decide (x.cfg.holdCycles < e.missing) := by
  simp only [pubGone, h]

/-- A count over its bound, with the bound in force, and its negation. -/
theorem overBound_eq_false {limit count time : Nat} (h : limit = 0 ∨ count = 0 ∨ count < time) :
    (limit != 0 && count != 0 && decide (time ≤ count)) = false := by
  rcases h with rfl | rfl | h
  · rfl
  · simp
  · simp [Nat.not_le.mpr h]

theorem overBound_eq_true {limit count time : Nat} (hl : limit ≠ 0) (hc : count ≠ 0) (ht : time ≤ count) :
    (limit != 0 && count != 0 && decide (time ≤ count)) = true := by simp [hl, hc, ht]

theorem plyUpdate_acts (i : StrandId) (j : Byte) (hup : coreUp s = true) (hrun : s.seq.running = true)
    (hdue : plyDue s.strands[i].cfg s.seq.cycle.toNat j.toNat = true) (hw : engineWorks s s.strands[i].engine = true) :
    exec (.plyUpdate i j) s = .next ((s.plyStep i j.toNat).runtime s.strands[i].engine) ∧
    (userEntry s s.strands[i].engine 3 = false → s.engines[s.strands[i].engine].run = .halted →
      ∃ t : State, exec (.plyUpdate i j) s = .next t ∧ (∀ k : StrandId, k ≠ i → t.strands[k] = s.strands[k]) ∧
        t = { s with strands := t.strands, free := t.free } ∧
        (s.strands[i].st = .off → t = s) ∧ t.strands[i].st = s.strands[i].st ∧ t.strands[i].cfg = s.strands[i].cfg ∧
        (s.strands[i].hasPlies = true → s.strands[i].st = .run → s.strands[i].abandoned ≠ some s.seq.cycle →
          t.free = s.free + 1 ∧
            t.strands[i].outLimit = (t.strands[i].ply.satCur || t.strands[i].ply.satVel || t.strands[i].ply.satPos))) := by
  have he := plyUpdate_runs hup hrun hdue hw
  refine ⟨he, fun hu hh => ?_⟩
  have hp := plyStep_work j.toNat hu
  have hhalt : (s.plyStep i j.toNat).engines[s.strands[i].engine].run = .halted := by rw [hp.engines]; exact hh
  rw [runtime_halted hhalt] at he
  exact ⟨_, he, hp.others, hp.frame, hp.off, hp.st, hp.cfg, hp.limit⟩

theorem cycleOverrun_acts (i : StrandId) (hup : coreUp s = true) :
    (s.strands[i].skipped ≠ 0 → overrunLimitOf s s.strands[i] ≤ s.strands[i].skipped →
      exec (.cycleOverrun i) s = .next (s.raiseCause i causeOverrun)) ∧
    (s.strands[i].skipped = 0 ∨ s.strands[i].skipped < overrunLimitOf s s.strands[i] → exec (.cycleOverrun i) s = .next s) := by
  refine ⟨fun h hl => congrArg Host.Outcome.next (if_pos (by simp [-Fin.getElem_fin, hup, h, hl])), fun h => congrArg Host.Outcome.next (if_neg ?_)⟩
  rcases h with h | h
  · rw [h]; simp
  · simp [-Fin.getElem_fin, Nat.not_le.mpr h]

theorem alignmentEnd_acts (i : StrandId) (hup : coreUp s = true) (ha : s.strands[i].isAux = true) (hp : s.strands[i].aux.phase = .align)
    (hl : s.strands[i].aux.alignLeft = 0) :
    exec (.auxAlignmentEnd i) s = .next (s.modStrand i fun x => { x with aux := { x.aux with phase := .openUp } }) :=
  congrArg Host.Outcome.next (if_pos (by rw [hup, ha, hp, hl]; rfl))

theorem dutyTimeout_acts (i : StrandId) (time : Nat) {u : FbId} (hup : coreUp s = true) (hd : dutyStale s time s.strands[i] = true)
    (hu : s.strands[i].cfg.fb = some u) : exec (.auxDutyTimeout i time) s =
      .next (s.modStrand i fun x => { x with aux := { x.aux with duty := if s.fbs[u].a = true then 65535 else 0, rise := 0 } }) := by
  refine (congrArg Host.Outcome.next (if_pos (by rw [hup, hd]; rfl))).trans ?_
  rw [hu]
  rfl

end Sys2Proof.Machine

open Sys2Proof Sys2Proof.Machine

/-- Settles O49: each event is its guard and, where that holds, its effect; the ply update of an engine at rest is the work of
the plies alone. -/
theorem cycleAndStrandEventsAct : Obligations.CycleAndStrandEventsAct := by
  refine ⟨fun i j s hup hrun hdue hw => plyUpdate_acts i j hup hrun hdue hw, fun i j s hdue => ?notDue,
    fun s hup hrun => sheetPublish_writes hup hrun, fun i c s h => if_neg h, fun i s hup hs ha => ?standstill,
    fun i r s hs hd hc ha hr => ?stopEnds, fun i s hs => ⟨?_, event_rests (stopLate_none hs)⟩,
    fun i r s hup hs ht ha => event_acts hup (stopLate_some hs ht ha),
    fun i b s hb hup => ⟨fun hl hc ht => event_acts hup ((ferrDue_some hb).trans (overBound_eq_true hl hc ht)),
      fun h => event_rests ((ferrDue_some hb).trans (overBound_eq_false h))⟩,
    fun i s hup => cycleOverrun_acts i hup,
    fun i e s hup he => ⟨fun h => event_acts hup ((pubGone_some he).trans (decide_eq_true h)),
      fun h => event_rests ((pubGone_some he).trans (decide_eq_false (Nat.not_lt.mpr h)))⟩,
    fun i b s hup hb => ⟨fun hl hc ht => event_acts hup ((stallDue_some hb).trans (overBound_eq_true hl hc ht)),
      fun h => event_rests ((stallDue_some hb).trans (overBound_eq_false h))⟩,
    fun i s _ hb => event_rests (stallDue_none hb),
    fun i s hup => ⟨fun h => event_acts hup (decide_eq_true h), fun h => event_rests (decide_eq_false (Nat.not_le.mpr h))⟩,
    fun i s hup => ⟨fun h => event_acts hup h, fun h => event_rests h⟩,
    fun i s hup ha hp hl => alignmentEnd_acts i hup ha hp hl, fun i time u s hup hd hu => dutyTimeout_acts i time hup hd hu⟩
  case notDue => exact congrArg Host.Outcome.next (if_neg (by simp [-Fin.getElem_fin, hdue]))
  case standstill => exact congrArg Host.Outcome.next (if_pos (by rw [hup, hs, ha]; rfl))
  case stopEnds =>
    rw [otherEvents_stopDone hc hd (by rw [hs]; rfl) ha]
    exact stopDone_ends (by rw [modStrand_self]; exact hs) hr
  · exact congrArg Host.Outcome.next (if_neg (by simp [-Fin.getElem_fin, hs]))
end

section
/-! The family of the control cycle: what the functions of a cycle start and of the bench commands leave of the distaff and the
sequencer. One lemma per function of the model, in the model's order: `_ctl` where both stand as they were, `_core` where a
command may end on the way and only the armed sets, the cycle number and the running flag are claimed. -/

namespace Sys2Proof.Machine

/-- The part of the state that orders the work of a cycle: the distaff and the sequencer. -/
structure Ctl where
  dist : Distaff
  seq : Seq

/-- That part of a state. -/
def State.ctl (s : State) : Ctl := ⟨s.dist, s.seq⟩

/-- What the end of a command leaves of it: the armed sets, the cycle number and whether cycles run. -/
structure CycleCore where
  armed : List Instr
  orphan : List Instr
  cycle : BitVec 48
  running : Bool

/-- What of it the end of a command leaves. -/
def Ctl.core (c : Ctl) : CycleCore := ⟨c.dist.armed, c.dist.orphan, c.seq.cycle, c.seq.running⟩

@[simp] theorem ctl_eta (s : State) : Ctl.mk s.dist s.seq = s.ctl := rfl

@[simp] theorem ctl_ite {p : Prop} [Decidable p] (a b : State) : (if p then a else b).ctl = if p then a.ctl else b.ctl := apply_ite ..

@[simp] theorem core_ite {p : Prop} [Decidable p] (a b : Ctl) : (if p then a else b).core = if p then a.core else b.core := apply_ite ..

@[simp] theorem foldl_ctl {α : Type} {f : State → α → State} (h : ∀ s a, (f s a).ctl = s.ctl) (l : List α) (s : State) :
    (l.foldl f s).ctl = s.ctl := foldl_frame State.ctl h l s

@[simp] theorem foldl_core {α : Type} {f : State → α → State} (h : ∀ s a, (f s a).ctl.core = s.ctl.core) (l : List α) (s : State) :
    (l.foldl f s).ctl.core = s.ctl.core := foldl_frame (fun s => s.ctl.core) h l s

variable (s : State)

/-! The updates of the state. Proved by `(rfl)`, so that `simp` rewrites with them and unfolds no state. -/

@[simp] theorem State.setStrand_ctl (i : StrandId) (x : Strand) : (s.setStrand i x).ctl = s.ctl := (rfl)
@[simp] theorem State.modStrand_ctl (i : StrandId) (f : Strand → Strand) : (s.modStrand i f).ctl = s.ctl := (rfl)
@[simp] theorem State.setQuad_ctl (i : QuadId) (x : Quad) : (s.setQuad i x).ctl = s.ctl := (rfl)
@[simp] theorem State.modQuad_ctl (i : QuadId) (f : Quad → Quad) : (s.modQuad i f).ctl = s.ctl := (rfl)
@[simp] theorem State.setFb_ctl (i : FbId) (x : Fb) : (s.setFb i x).ctl = s.ctl := (rfl)
@[simp] theorem State.modFb_ctl (i : FbId) (f : Fb → Fb) : (s.modFb i f).ctl = s.ctl := (rfl)
@[simp] theorem State.setMb_ctl (i : MbId) (x : Mailbox) : (s.setMb i x).ctl = s.ctl := (rfl)
@[simp] theorem State.modMb_ctl (i : MbId) (f : Mailbox → Mailbox) : (s.modMb i f).ctl = s.ctl := (rfl)
@[simp] theorem State.setEngine_ctl (i : EngineId) (x : Engine) : (s.setEngine i x).ctl = s.ctl := (rfl)
@[simp] theorem State.modEngine_ctl (i : EngineId) (f : Engine → Engine) : (s.modEngine i f).ctl = s.ctl := (rfl)
@[simp] theorem State.modRole_ctl (i : EngineId) (f : EngineRole → EngineRole) : (s.modRole i f).ctl = s.ctl := (rfl)
@[simp] theorem State.modCan_ctl (i : CanId) (f : Can → Can) : (s.modCan i f).ctl = s.ctl := (rfl)
@[simp] theorem State.modStg_ctl (i : StgId) (f : Stg → Stg) : (s.modStg i f).ctl = s.ctl := (rfl)
@[simp] theorem State.modProbe_ctl (i : ProbeId) (f : Probe → Probe) : (s.modProbe i f).ctl = s.ctl := (rfl)
@[simp] theorem State.modCmp_ctl (i : CmpId) (f : Compare → Compare) : (s.modCmp i f).ctl = s.ctl := (rfl)
@[simp] theorem State.modGroup_ctl (i : Fin 32) (f : Group → Group) : (s.modGroup i f).ctl = s.ctl := (rfl)
@[simp] theorem State.modCam_ctl (i : Fin 64) (f : CamTable → CamTable) : (s.modCam i f).ctl = s.ctl := (rfl)
@[simp] theorem State.modSkein_ctl (i : Fin 64) (f : Skein → Skein) : (s.modSkein i f).ctl = s.ctl := (rfl)
@[simp] theorem State.modExp_ctl (i : ExpId) (f : Exp → Exp) : (s.modExp i f).ctl = s.ctl := (rfl)
@[simp] theorem State.modHost_ctl (f : HostIf → HostIf) : (s.modHost f).ctl = s.ctl := (rfl)
@[simp] theorem State.modPwr_ctl (f : Power → Power) : (s.modPwr f).ctl = s.ctl := (rfl)
@[simp] theorem State.modClk_ctl (f : Clock → Clock) : (s.modClk f).ctl = s.ctl := (rfl)
@[simp] theorem State.modMem_ctl (f : Mem → Mem) : (s.modMem f).ctl = s.ctl := (rfl)
@[simp] theorem State.modLink_ctl (f : Link → Link) : (s.modLink f).ctl = s.ctl := (rfl)
@[simp] theorem State.modTime_ctl (f : Time → Time) : (s.modTime f).ctl = s.ctl := (rfl)
@[simp] theorem State.modRec_ctl (f : Recovery → Recovery) : (s.modRec f).ctl = s.ctl := (rfl)
@[simp] theorem State.modSaf_ctl (f : Safety → Safety) : (s.modSaf f).ctl = s.ctl := (rfl)
@[simp] theorem State.modFio_ctl (f : FieldIo → FieldIo) : (s.modFio f).ctl = s.ctl := (rfl)
@[simp] theorem State.modUsb_ctl (f : Usb → Usb) : (s.modUsb f).ctl = s.ctl := (rfl)
@[simp] theorem State.modEth_ctl (f : Eth → Eth) : (s.modEth f).ctl = s.ctl := (rfl)
@[simp] theorem State.modPort_ctl (p : Port) (f : LinkPort → LinkPort) : (s.modPort p f).ctl = s.ctl := (rfl)
@[simp] theorem State.emit_ctl (o : Out) : (s.emit o).ctl = s.ctl := (rfl)
@[simp] theorem State.tick_ctl : s.tick.ctl = s.ctl := (rfl)
@[simp] theorem ctl_with_roles (r : Vector EngineRole 17) : ({ s with roles := r } : State).ctl = s.ctl := (rfl)

@[simp] theorem State.modDist_core {f : Distaff → Distaff} (h : ∀ d, (f d).armed = d.armed ∧ (f d).orphan = d.orphan) :
    (s.modDist f).ctl.core = s.ctl.core := by
  simp only [State.ctl, Ctl.core, State.modDist_dist, State.modDist_seq, h]

@[simp] theorem State.modSeq_core {f : Seq → Seq} (h : ∀ q, (f q).cycle = q.cycle ∧ (f q).running = q.running) :
    (s.modSeq f).ctl.core = s.ctl.core := by
  simp only [State.ctl, Ctl.core, State.modSeq_dist, State.modSeq_seq, h]

@[simp] theorem State.modSeq_ctl_dist (f : Seq → Seq) : (s.modSeq f).ctl.dist = s.ctl.dist := (rfl)

@[simp] theorem dist_ite {p : Prop} [Decidable p] (a b : Ctl) : (if p then a else b).dist = if p then a.dist else b.dist := apply_ite ..

/-! Vectors, levels, log records and completions. -/

@[simp] theorem State.sendMsix_ctl (v : Nat) : (s.sendMsix v).ctl = s.ctl := by simp [State.sendMsix]
@[simp] theorem State.raise_ctl (v : Nat) : (s.raise v).ctl = s.ctl := by simp [State.raise]
@[simp] theorem State.setLevel_ctl (src : Fin 25) (lvl : Nat) : (s.setLevel src lvl).ctl = s.ctl := by simp [State.setLevel]
@[simp] theorem State.setReady_ctl (b : Fin 24) (v : Bool) : (s.setReady b v).ctl = s.ctl := by simp [State.setReady]

/-- A change of the log with its notice and its level changes the log, the host's words and what leaves, nothing else. -/
theorem noticed_frame (f : Recovery → Recovery) (n : Nat) :
    ∃ h out r, ((s.modRec f).raise 18).setLevel 24 n = { s with host := h, out := out, rec_ := r } := by
  obtain ⟨h₁, out₁, e₁, -⟩ := raise_frame (s := s.modRec f) 18
  obtain ⟨h₂, out₂, e₂, -⟩ := setLevel_frame (s := (s.modRec f).raise 18) 24 n
  rw [e₂, e₁]
  exact ⟨h₂, out₂, f s.rec_, rfl⟩

/-- A log record changes the log, what it raises at the host, and what leaves the device. -/
theorem State.putRec_frame (cls cause inst detail : Nat) (context : List Int) (flags : Nat) :
    ∃ h out r, s.putRec cls cause inst detail context flags = { s with host := h, out := out, rec_ := r } :=
  noticed_frame s _ _

@[simp] theorem State.putRec_ctl (cls cause inst detail : Nat) (context : List Int) (flags : Nat) :
    (s.putRec cls cause inst detail context flags).ctl = s.ctl := by
  obtain ⟨h, out, r, e⟩ := s.putRec_frame cls cause inst detail context flags
  rw [e]
  rfl

@[simp] theorem State.logWorn_ctl (b : Nat) (spares : Nat) : (s.logWorn b spares).ctl = s.ctl := by simp [State.logWorn]

theorem State.wearOne_frame (k : Nat) (s : State) (b : Nat) : ∃ h out r, s.wearOne b k = { s with host := h, out := out, rec_ := r } := by
  induction k generalizing s b with
  | zero => exact ⟨_, _, _, rfl⟩
  | succ k ih =>
    unfold State.wearOne
    extract_lets spares
    split
    next r worn _ =>
    extract_lets t
    split
    · obtain ⟨h₁, out₁, r₁, e₁⟩ := t.putRec_frame 3 51 b b [] (if spares = 0 then 3 else 0)
      obtain ⟨h₂, out₂, r₂, e₂⟩ := ih (t.logWorn b spares) (logPlace t / 4096)
      rw [e₂, State.logWorn, e₁]
      exact ⟨_, _, _, rfl⟩
    · exact ⟨_, _, _, rfl⟩

theorem State.wearRange_frame (n : Nat) (s : State) (lo : Nat) : ∃ h out r, s.wearRange lo n = { s with host := h, out := out, rec_ := r } := by
  induction n generalizing s with
  | zero => exact ⟨_, _, _, rfl⟩
  | succ n ih =>
    obtain ⟨h₁, out₁, r₁, e₁⟩ := State.wearOne_frame 3 s (lo + n)
    obtain ⟨h₂, out₂, r₂, e₂⟩ := ih (s.wearOne (lo + n) 3)
    rw [State.wearRange, e₂, e₁]
    exact ⟨_, _, _, rfl⟩

theorem State.logRec_frame (cls cause inst detail : Nat) (context : List Int) (flags : Nat) :
    ∃ h out r, s.logRec cls cause inst detail context flags = { s with host := h, out := out, rec_ := r } := by
  obtain ⟨h₁, out₁, r₁, e₁⟩ := s.putRec_frame cls cause inst detail context flags
  obtain ⟨h₂, out₂, r₂, e₂⟩ := State.wearRange_frame ((logPlace s + 64 + 4095) / 4096 - logPlace s / 4096)
    (s.putRec cls cause inst detail context flags) (logPlace s / 4096)
  rw [State.logRec, State.mramWrite, e₂, e₁]
  exact ⟨_, _, _, rfl⟩
@[simp] theorem State.mramWrite_ctl (off n : Nat) : (s.mramWrite off n).ctl = s.ctl := by
  obtain ⟨h, out, r, e⟩ := State.wearRange_frame ((off + n + 4095) / 4096 - off / 4096) s (off / 4096)
  rw [State.mramWrite, e]
  rfl

@[simp] theorem State.logRec_ctl (cls cause inst detail : Nat) (context : List Int) (flags : Nat) :
    (s.logRec cls cause inst detail context flags).ctl = s.ctl := by
  obtain ⟨h, out, r, e⟩ := s.logRec_frame cls cause inst detail context flags
  rw [e]
  rfl

@[simp] theorem State.logEvent_ctl (cls cause inst detail : Nat) : (s.logEvent cls cause inst detail).ctl = s.ctl := by
  simp [State.logEvent]

@[simp] theorem State.pushCmpl_ctl (mb : MbId) (c : Cmpl) : (s.pushCmpl mb c).ctl = s.ctl := by simp [State.pushCmpl]

@[simp] theorem State.settleOwed_core (w : Owed) (cycle : BitVec 48) : (s.settleOwed w cycle).ctl.core = s.ctl.core := by
  unfold State.settleOwed
  dsimp only
  split <;> rfl

@[simp] theorem State.finish_core (i : Instr) (o : Origin) (st : Half) (res : List Byte) : (s.finish i o st res).ctl.core = s.ctl.core := by
  unfold State.finish
  split <;> simp

@[simp] theorem State.finishAt_core (i : Instr) (o : Origin) (st : Half) (cycle : BitVec 48) :
    (s.finishAt i o st cycle).ctl.core = s.ctl.core := by
  unfold State.finishAt
  split <;> simp

/-! Waking. -/

@[simp] theorem State.wakeBank_ctl (b : BankId) : (s.wakeBank b).ctl = s.ctl := by simp [State.wakeBank]
@[simp] theorem State.serveBank_ctl (b : BankId) : (s.serveBank b).ctl = s.ctl := by simp [State.serveBank]

@[simp] theorem State.wakeFn_ctl (f : Half) : (s.wakeFn f).ctl = s.ctl := by
  unfold State.wakeFn
  split <;> simp

@[simp] theorem State.wakeRange_ctl (lo hi : Nat) : (s.wakeRange lo hi).ctl = s.ctl := by simp [State.wakeRange]
@[simp] theorem State.wakeChain_ctl (chain : List Nat) : (s.wakeChain chain).ctl = s.ctl := by simp [State.wakeChain]

/-! Stops, causes and states of the strands. -/

@[simp] theorem State.forceStrand_ctl (i : StrandId) (v : Nat) : (s.forceStrand i v).ctl = s.ctl := by
  simp only [State.forceStrand]
  split <;> simp

@[simp] theorem State.endTable_ctl (i : StrandId) : (s.endTable i).ctl = s.ctl := by
  unfold State.endTable
  split <;> simp

@[simp] theorem State.switchOff_ctl (i : StrandId) : (s.switchOff i).ctl = s.ctl := by simp [State.switchOff]

@[simp] theorem State.immediate_ctl (i : StrandId) : (s.immediate i).ctl = s.ctl := by
  simp only [State.immediate]
  (repeat' split) <;> simp

@[simp] theorem State.leavePath_ctl (i : StrandId) : (s.leavePath i).ctl = s.ctl := by
  unfold State.leavePath
  split <;> simp

@[simp] theorem State.dropDeferred_core (i : StrandId) : (s.dropDeferred i).ctl.core = s.ctl.core := by
  simp only [State.dropDeferred]
  (repeat' split) <;> simp

@[simp] theorem State.giveUp_core (i : StrandId) : (s.giveUp i).ctl.core = s.ctl.core := by simp [State.giveUp]
@[simp] theorem State.enter_ctl (i : StrandId) (st : StrandSt) : (s.enter i st).ctl = s.ctl := by simp [State.enter]

@[simp] theorem State.beginStop_core (i : StrandId) (quick : Bool) (decel : Nat) (after : StopEnd) :
    (s.beginStop i quick decel after).ctl.core = s.ctl.core := by
  simp [State.beginStop]

@[simp] theorem State.categoryZero_core (i : StrandId) : (s.categoryZero i).ctl.core = s.ctl.core := by simp [State.categoryZero]

@[simp] theorem State.react_core (i : StrandId) (r : Reaction) : (s.react i r).ctl.core = s.ctl.core := by
  unfold State.react
  split <;> simp

@[simp] theorem State.strandCause_core (i : StrandId) (cause : Nat) : (s.strandCause i cause).ctl.core = s.ctl.core := by
  simp only [State.strandCause]
  split <;> simp

@[simp] theorem State.raiseCause_ctl (i : StrandId) (cause : Nat) : (s.raiseCause i cause).ctl = s.ctl := by simp [State.raiseCause]
@[simp] theorem State.raiseCauses_ctl (l : List StrandId) (cause : Nat) : (s.raiseCauses l cause).ctl = s.ctl := by simp [State.raiseCauses]
@[simp] theorem State.actCauses_core (i : StrandId) (p : Nat → Bool) : (s.actCauses i p).ctl.core = s.ctl.core := by simp [State.actCauses]

@[simp] theorem State.followGates_core (i : StrandId) : (s.followGates i).ctl.core = s.ctl.core := by
  simp only [State.followGates]
  split <;> simp

@[simp] theorem State.stopDone_ctl (i : StrandId) : (s.stopDone i).ctl = s.ctl := by
  simp only [State.stopDone]
  (repeat' split) <;> simp

/-! The settings and states of the strands. -/

@[simp] theorem State.holdAwake_ctl (e : EngineId) : (s.holdAwake e).ctl = s.ctl := by simp [State.holdAwake]

@[simp] theorem State.placeSlot_ctl (old new : Binding) : (s.placeSlot old new).ctl = s.ctl := by
  unfold State.placeSlot
  dsimp only
  split
  · split
    · rw [State.holdAwake_ctl, State.modRole_ctl]
      split
      · exact foldl_ctl (fun _ _ => State.modRole_ctl ..) _ _
      · rfl
    · split
      · exact foldl_ctl (fun _ _ => State.modRole_ctl ..) _ _
      · rfl
  · split
    · exact foldl_ctl (fun _ _ => State.modRole_ctl ..) _ _
    · rfl

@[simp] theorem State.leaveCan_ctl (i : StrandId) (old : Binding) : (s.leaveCan i old).ctl = s.ctl := by
  unfold State.leaveCan
  split <;> simp

@[simp] theorem State.gateLatch_ctl (q : QuadId) (g : SlotId) : (s.gateLatch q g).ctl = s.ctl := by simp [State.gateLatch]

@[simp] theorem State.meetInputs_ctl (i : StrandId) : (s.meetInputs i).ctl = s.ctl := by
  unfold State.meetInputs
  split <;> simp

@[simp] theorem State.seat_ctl (i : StrandId) (old : Binding) : (s.seat i old).ctl = s.ctl := by
  simp only [State.seat]
  (repeat' split) <;> simp

@[simp] theorem applyBind_ctl (strand : StrandId) (b : Binding) (fb : Option FbId) : (applyBind strand b fb s).ctl = s.ctl := by
  simp [applyBind]

@[simp] theorem applyConfig_ctl (strand : StrandId) (dS phase kP dP reaction limit : Byte) :
    (applyConfig strand dS phase kP dP reaction limit s).ctl = s.ctl := by
  simp [applyConfig]

@[simp] theorem applyCoeff_ctl (strand : StrandId) (ply : Nat) (bs : List Byte) : (applyCoeff strand ply bs s).ctl = s.ctl := by
  simp only [applyCoeff]
  (repeat' split) <;> simp

@[simp] theorem State.trackActual_ctl (i : StrandId) : (s.trackActual i).ctl = s.ctl := by simp [State.trackActual]
@[simp] theorem applyArm_ctl (strand : StrandId) : (applyArm strand s).ctl = s.ctl := by simp [applyArm]

@[simp] theorem applyEnable_ctl (strand : StrandId) : (applyEnable strand s).ctl = s.ctl := by
  unfold applyEnable
  dsimp only
  rw [State.enter_ctl, State.modStrand_ctl, foldl_ctl (fun _ _ => State.modRole_ctl ..)]
  split <;> simp

@[simp] theorem applyDisable_core (strand : StrandId) : (applyDisable strand s).ctl.core = s.ctl.core := by simp [applyDisable]

@[simp] theorem applyStop_core (strand : StrandId) (quick : Bool) (decel : Nat) :
    (applyStop strand quick decel s).ctl.core = s.ctl.core := by
  simp [applyStop]

@[simp] theorem stopNowOne_core (i : StrandId) : (stopNowOne s i).ctl.core = s.ctl.core := by simp [stopNowOne]
@[simp] theorem applyStopNow_core (strand : Half) : (applyStopNow strand s).ctl.core = s.ctl.core := by simp [applyStopNow]
@[simp] theorem State.beginHold_core (i : StrandId) : (s.beginHold i).ctl.core = s.ctl.core := by simp [State.beginHold]

@[simp] theorem applyHold_core (strand : StrandId) (release : Bool) : (applyHold strand release s).ctl.core = s.ctl.core := by
  simp [applyHold]

@[simp] theorem applyFaultReset_ctl (strand : StrandId) : (applyFaultReset strand s).ctl = s.ctl := by
  simp only [applyFaultReset]
  (repeat' split) <;> simp

@[simp] theorem applyTransfer_ctl (strand : StrandId) (manual : Bool) (output : Word) :
    (applyTransfer strand manual output s).ctl = s.ctl := by
  simp [applyTransfer]

@[simp] theorem applySource_ctl (strand : StrandId) (src : ExtSource) : (applySource strand src s).ctl = s.ctl := by simp [applySource]
@[simp] theorem applyProfile_ctl (strand : StrandId) (p : ProfileArgs) : (applyProfile strand p s).ctl = s.ctl := by simp [applyProfile]
@[simp] theorem State.startMove_ctl (i : StrandId) (w : Waiting) : (s.startMove i w).ctl = s.ctl := by simp [State.startMove]

@[simp] theorem applyMove_core (strand : StrandId) (m : Move) (cmd : Instr) : (applyMove strand m cmd s).ctl.core = s.ctl.core := by
  simp [applyMove]

@[simp] theorem applyGroup_ctl (g : Fin 32) (members : List Half) : (applyGroup g members s).ctl = s.ctl := by simp [applyGroup]

/-! The power stage. -/

@[simp] theorem applyQuadConfig_ctl (q : QuadId) (mix carrier : Byte) (period : Word) (double : Byte) (phase : Word) :
    (applyQuadConfig q mix carrier period double phase s).ctl = s.ctl := by
  simp [applyQuadConfig]

@[simp] theorem applyDeadtime_ctl (q : QuadId) (p : PairId) (dead : Half) : (applyDeadtime q p dead s).ctl = s.ctl := by
  simp [applyDeadtime]

@[simp] theorem applySdf_ctl (q : QuadId) (fMod : Word) (osr3 : Half) (osr2 : Byte) : (applySdf q fMod osr3 osr2 s).ctl = s.ctl := by
  simp [applySdf]

@[simp] theorem State.freezeQuad_ctl (q : QuadId) : (s.freezeQuad q).ctl = s.ctl := by simp [State.freezeQuad]
@[simp] theorem State.placeCarriers_ctl : s.placeCarriers.ctl = s.ctl := by simp [State.placeCarriers]
@[simp] theorem State.gateNews_ctl (t : State) (q : QuadId) : (s.gateNews t q).ctl = t.ctl := by simp [State.gateNews]

@[simp] theorem applyTrip_ctl (q : QuadId) (input : Byte) (limit : Word) (gf : Byte) : (applyTrip q input limit gf s).ctl = s.ctl := by
  simp [applyTrip]

@[simp] theorem State.writeTrip_ctl (q : QuadId) (v : Word) : (s.writeTrip q v).ctl = s.ctl := by simp [State.writeTrip]

@[simp] theorem State.currentPly_ctl (i : StrandId) : (s.currentPly i).ctl = s.ctl := by
  simp only [State.currentPly]
  split <;> simp

@[simp] theorem applyStepperConfig_ctl (slot : Byte) (offTime : Half) (split : Byte) (current : Word) :
    (applyStepperConfig slot offTime split current s).ctl = s.ctl := by
  simp [applyStepperConfig]

@[simp] theorem applyMicrostep_ctl (q : QuadId) (bs : List Byte) : (applyMicrostep q bs s).ctl = s.ctl := by simp [applyMicrostep]

@[simp] theorem applyTableStep_ctl (strand address scale : Half) : (applyTableStep strand address scale s).ctl = s.ctl := by
  simp only [applyTableStep]
  split <;> simp

@[simp] theorem applyAuxCurve_ctl (strand : Half) (hysteresis : Word) (bs : List Byte) :
    (applyAuxCurve strand hysteresis bs s).ctl = s.ctl := by
  simp [applyAuxCurve]

@[simp] theorem applyAuxCommand_ctl (strand : Half) (speed : Word) : (applyAuxCommand strand speed s).ctl = s.ctl := by
  simp [applyAuxCommand]

@[simp] theorem applyEnlarger_ctl (strand : Half) (fb : Byte) (num den : Word) : (applyEnlarger strand fb num den s).ctl = s.ctl := by
  simp [applyEnlarger]

@[simp] theorem applyStepgen_ctl (g : StgId) (width dirSetup : Word) : (applyStepgen g width dirSetup s).ctl = s.ctl := by
  simp [applyStepgen]

/-! Paths. -/

@[simp] theorem applyPathStart_core (group : Byte) : (applyPathStart group s).ctl.core = s.ctl.core := by simp [applyPathStart]
@[simp] theorem applyPathStop_ctl (group : Byte) (decel : Word) : (applyPathStop group decel s).ctl = s.ctl := by simp [applyPathStop]

/-! Cams, skeins and groups. -/

@[simp] theorem applyCamSwap_ctl (table : Half) : (applyCamSwap table s).ctl = s.ctl := by simp [applyCamSwap]

@[simp] theorem State.editBy_core (n : Nat) : (s.editBy n).ctl.core = s.ctl.core := by
  unfold State.editBy
  split <;> simp

@[simp] theorem State.endEdit_core : s.endEdit.ctl.core = s.ctl.core := by
  unfold State.endEdit
  dsimp only
  split
  · split
    · split <;> simp
    · rfl
  · rfl

@[simp] theorem State.editOn_core : s.editOn.ctl.core = s.ctl.core := by
  unfold State.editOn
  split <;> simp

@[simp] theorem State.dropMapCaches_ctl : s.dropMapCaches.ctl = s.ctl := by simp [State.dropMapCaches]

@[simp] theorem State.lookupMap_ctl (e : EngineId) (ep : BitVec 24) : (s.lookupMap e ep).1.ctl = s.ctl := by
  unfold State.lookupMap
  dsimp only
  split <;> simp

@[simp] theorem applySkeinDefine_ctl (skein : Byte) (master : Word) (coupling : Byte) (bs : List Byte) :
    (applySkeinDefine skein master coupling bs s).ctl = s.ctl := by
  simp [applySkeinDefine]

@[simp] theorem applyEngage_core (skein : Byte) (strand : Half) (ramp : Word) :
    (applyEngage skein strand ramp s).ctl.core = s.ctl.core := by
  simp [applyEngage]

@[simp] theorem applyDisengage_ctl (strand : Half) (decel : Word) : (applyDisengage strand decel s).ctl = s.ctl := by simp [applyDisengage]

@[simp] theorem applyRegTrim_ctl (skein probe : Byte) (gain limit ramp : Word) :
    (applyRegTrim skein probe gain limit ramp s).ctl = s.ctl := by
  simp [applyRegTrim]

@[simp] theorem applyHoldCycles_ctl (strand : Half) (hold : Byte) : (applyHoldCycles strand hold s).ctl = s.ctl := by simp [applyHoldCycles]

@[simp] theorem State.followerUpdate_ctl (i : StrandId) (e : Engage) (c : SkeinCfg) (ns : Nat) :
    (s.followerUpdate i e c ns).1.ctl = s.ctl := by
  unfold State.followerUpdate
  dsimp only
  (repeat' split) <;> simp

/-! Feedback units and compare units. -/

@[simp] theorem applyFbConfig_ctl (u : FbId) (c : FbCfg) : (applyFbConfig u c s).ctl = s.ctl := by simp [applyFbConfig]

@[simp] theorem applyCompare_ctl (u : CmpId) (source : Half) (width : Word) (bs : List Byte) :
    (applyCompare u source width bs s).ctl = s.ctl := by
  unfold applyCompare
  split <;> simp

@[simp] theorem State.compareOn_ctl (c : CmpId) (u : Fb) : (s.compareOn c u).ctl = s.ctl := by simp [State.compareOn]
@[simp] theorem State.compareRun_ctl (c : CmpId) (n : Nat) : (s.compareRun c n).ctl = s.ctl := by simp [State.compareRun]

@[simp] theorem applyProbeArm_ctl (p : ProbeId) (edge mode : Byte) (mask : Rec32) : (applyProbeArm p edge mode mask s).ctl = s.ctl := by
  simp [applyProbeArm]

@[simp] theorem State.takeEvent_ctl (i : StrandId) (p : ProbeId) (e : ProbeEvent) : (s.takeEvent i p e).ctl = s.ctl := by
  unfold State.takeEvent
  dsimp only
  rw [foldl_ctl (fun t k => by split <;> simp)]
  split <;> simp

@[simp] theorem State.takeProbes_ctl (i : StrandId) : (s.takeProbes i).ctl = s.ctl := by simp [State.takeProbes]

/-! Outputs of the strands. -/

@[simp] theorem State.feedStg_ctl (i : StrandId) (g : StgId) (ns : Nat) : (s.feedStg i g ns).ctl = s.ctl := by
  simp only [State.feedStg]
  (repeat' split) <;> simp

@[simp] theorem State.windings_ctl (i : StrandId) : (s.windings i).ctl = s.ctl := by
  simp only [State.windings]
  split <;> simp

@[simp] theorem State.standAt_ctl (i : StrandId) (ref : Int) : (s.standAt i ref).ctl = s.ctl := by simp [State.standAt]
@[simp] theorem State.stepSequencers_ctl (ns : Nat) : (s.stepSequencers ns).ctl = s.ctl := by simp [State.stepSequencers]
@[simp] theorem State.feedStepper_ctl (i : StrandId) (ns : Nat) : (s.feedStepper i ns).ctl = s.ctl := by simp [State.feedStepper]

@[simp] theorem State.sendDrive_ctl (i : StrandId) (c : CanId) (node : Nat) : (s.sendDrive i c node).ctl = s.ctl := by
  simp [State.sendDrive]

/-! Strand and ply updates. -/

@[simp] theorem State.groupStep_ctl (i : StrandId) (ns : Nat) : (s.groupStep i ns).ctl = s.ctl := by
  unfold State.groupStep
  dsimp only
  split
  · rfl
  · split
    · rfl
    · split
      · simp
      · rw [foldl_ctl (fun _ _ => State.modStrand_ctl ..), State.modGroup_ctl]

@[simp] theorem State.beginWaiting_core (i : StrandId) : (s.beginWaiting i).ctl.core = s.ctl.core := by
  simp only [State.beginWaiting]
  (repeat' split) <;> simp

@[simp] theorem State.profileRef_core (i : StrandId) : (s.profileRef i).1.ctl.core = s.ctl.core := by
  simp only [State.profileRef]
  (repeat' split) <;> simp

@[simp] theorem State.untrack_ctl (i : StrandId) : (s.untrack i).ctl = s.ctl := by
  simp only [State.untrack]
  (repeat' split) <;> simp

@[simp] theorem State.convRef_ctl (i : StrandId) (ch : Nat) (ratio offset : Int) (ns : Nat) :
    (s.convRef i ch ratio offset ns).1.ctl = s.ctl := by
  simp [State.convRef]

@[simp] theorem State.easeIn_ctl (i : StrandId) (ns : Nat) (start : Option Int) (p v : Int) : (s.easeIn i ns start p v).1.ctl = s.ctl := by
  simp [State.easeIn]

@[simp] theorem State.pulseRef_ctl (i : StrandId) (u : FbId) (ratio offset : Int) (ns : Nat) :
    (s.pulseRef i u ratio offset ns).1.ctl = s.ctl := by
  simp [State.pulseRef]

@[simp] theorem State.enlargeRef_ctl (i : StrandId) (ns : Nat) : (s.enlargeRef i ns).1.ctl = s.ctl := by simp [State.enlargeRef]

@[simp] theorem State.externalRef_ctl (i : StrandId) (ns : Nat) : (s.externalRef i ns).1.ctl = s.ctl := by
  simp only [State.externalRef]
  split <;> simp

@[simp] theorem State.intakeRef_ctl (i : StrandId) (ns : Nat) : (s.intakeRef i ns).1.ctl = s.ctl := by
  simp only [State.intakeRef]
  (repeat' split) <;> simp

@[simp] theorem State.sourceRef_core (i : StrandId) (ns : Nat) : (s.sourceRef i ns).1.ctl.core = s.ctl.core := by
  simp only [State.sourceRef]
  (repeat' split) <;> simp

@[simp] theorem State.runRef_core (i : StrandId) (ns : Nat) : (s.runRef i ns).1.ctl.core = s.ctl.core := by
  simp only [State.runRef]
  (repeat' split) <;> simp

@[simp] theorem State.latchCtl_core (i : StrandId) : (s.latchCtl i).ctl.core = s.ctl.core := by simp [State.latchCtl]
@[simp] theorem State.actSs1_core (i : StrandId) : (s.actSs1 i).ctl.core = s.ctl.core := by simp [State.actSs1]

@[simp] theorem State.auxUpdate_ctl (i : StrandId) (ns : Nat) : (s.auxUpdate i ns).ctl = s.ctl := by
  simp only [State.auxUpdate]
  split <;> simp

@[simp] theorem State.stallCount_ctl (i : StrandId) : (s.stallCount i).ctl = s.ctl := by
  simp only [State.stallCount]
  split <;> simp

@[simp] theorem State.showFlags_ctl (i : StrandId) : (s.showFlags i).ctl = s.ctl := by simp [State.showFlags]
@[simp] theorem State.leaveManual_ctl (i : StrandId) : (s.leaveManual i).ctl = s.ctl := by simp [State.leaveManual]

@[simp] theorem State.updateRef_core (i : StrandId) (ns : Nat) : (s.updateRef i ns).ctl.core = s.ctl.core := by
  simp only [State.updateRef]
  (repeat' split) <;> simp

@[simp] theorem State.callEntry_ctl (i : StrandId) (entry : Nat) : (s.callEntry i entry).ctl = s.ctl := by simp [State.callEntry]
@[simp] theorem State.userStrand_ctl (i : StrandId) : (s.userStrand i).ctl = s.ctl := by simp [State.userStrand]

@[simp] theorem State.graveEvents_core (i : StrandId) : (s.graveEvents i).ctl.core = s.ctl.core := by
  unfold State.graveEvents
  dsimp only
  simp only [ctl_ite, core_ite, stopNowOne_core, State.modStrand_ctl, State.actCauses_core, ite_self]
  split
  · split <;> simp
  · simp

@[simp] theorem State.otherEvents_core (i : StrandId) : (s.otherEvents i).ctl.core = s.ctl.core := by simp [State.otherEvents]

@[simp] theorem State.extendBound_ctl (i : StrandId) : (s.extendBound i).ctl = s.ctl := by
  unfold State.extendBound
  split <;> simp

@[simp] theorem State.strandUpdate_core (i : StrandId) : (s.strandUpdate i).ctl.core = s.ctl.core := by
  unfold State.strandUpdate
  dsimp only
  (repeat' split) <;> simp

@[simp] theorem State.plyStep_ctl (i : StrandId) (j : Nat) : (s.plyStep i j).ctl = s.ctl := by
  simp only [State.plyStep]
  (repeat' split) <;> simp

/-! The engines and their runtime. -/

@[simp] theorem State.moveSlot_ctl (e : EngineId) (k : Fin 4) (dst : EngineId) : (s.moveSlot e k dst).ctl = s.ctl := by
  unfold State.moveSlot
  split <;> simp

@[simp] theorem State.spoilBlock_ctl (e : EngineId) (k : Fin 4) : (s.spoilBlock e k).ctl = s.ctl := by
  unfold State.spoilBlock
  split <;> simp

@[simp] theorem State.wakeEngine_ctl (e : EngineId) : (s.wakeEngine e).ctl = s.ctl := by simp [State.wakeEngine]
@[simp] theorem State.moveSlots_ctl (e dst : EngineId) : (s.moveSlots e dst).ctl = s.ctl := by simp [State.moveSlots]

@[simp] theorem State.engineFault_ctl (e : EngineId) : (s.engineFault e).ctl = s.ctl := by
  unfold State.engineFault
  obtain ⟨h, out, r, he⟩ := (s.modEngine e fun x => { x with run := .faulted }).logRec_frame 2 0 e 0 [] 1
  rw [he]
  split
  · rfl
  · dsimp only
    split
    · rw [State.moveSlots_ctl]; rfl
    · rw [State.moveSlots_ctl, State.modRole_ctl, State.wakeEngine_ctl]; rfl
    · rw [State.raiseCauses_ctl, foldl_ctl (fun _ _ => State.modRole_ctl ..), foldl_ctl (fun _ _ => ?_)]
      · rfl
      · split
        · split <;> simp
        · rfl

@[simp] theorem State.trap_ctl (i : EngineId) (cause : Nat) (info : Word) : (s.trap i cause info).ctl = s.ctl := by simp [State.trap]
@[simp] theorem State.spoilLocal_ctl (e : EngineId) : (s.spoilLocal e).ctl = s.ctl := by simp [State.spoilLocal]

@[simp] theorem State.migrate_ctl (e dst : EngineId) (kind : MoveKind) : (s.migrate e dst kind).ctl = s.ctl := by
  unfold State.migrate
  dsimp only
  (repeat' split) <;> simp

@[simp] theorem State.endRetire_ctl (e : EngineId) : (s.endRetire e).ctl = s.ctl := by simp [State.endRetire]

@[simp] theorem State.reroute_ctl (e : EngineId) (k : Fin 4) : (s.reroute e k).ctl = s.ctl := by
  unfold State.reroute
  split <;> simp

@[simp] theorem State.endHandler_ctl (i : EngineId) : (s.endHandler i).ctl = s.ctl := by
  simp only [State.endHandler]
  split <;> simp

@[simp] theorem State.beginHandler_ctl (i : EngineId) : (s.beginHandler i).ctl = s.ctl := by
  simp only [State.beginHandler]
  (repeat' split) <;> simp

@[simp] theorem State.abandon_ctl (i : EngineId) (st : StrandId) : (s.abandon i st).ctl = s.ctl := by simp [State.abandon]

@[simp] theorem State.dispose_ctl (i : EngineId) : (s.dispose i).ctl = s.ctl := by
  simp only [State.dispose]
  (repeat' split) <;> simp

@[simp] theorem State.endExc_ctl (i : EngineId) (link : BitVec 14) : (s.endExc i link).ctl = s.ctl := by simp [State.endExc]

@[simp] theorem State.dispatch_ctl (i : EngineId) : (s.dispatch i).ctl = s.ctl := by
  unfold State.dispatch
  split <;> simp

theorem State.runtimeStep_ctl {s t : State} {i : EngineId} (h : s.runtimeStep i = some t) : t.ctl = s.ctl := by
  unfold State.runtimeStep at h
  dsimp only at h
  (repeat' split at h) <;> cases h <;> simp

theorem State.runtimeRun_ctl (n : Nat) (s : State) (i : EngineId) : (State.runtimeRun n s i).ctl = s.ctl := by
  induction n generalizing s with
  | zero => rfl
  | succ n ih =>
    unfold State.runtimeRun
    split
    · exact (ih _).trans (State.runtimeStep_ctl ‹_›)
    · rfl

@[simp] theorem State.runtime_ctl (i : EngineId) : (s.runtime i).ctl = s.ctl := State.runtimeRun_ctl ..

@[simp] theorem applyAssign_ctl (engine program : Byte) : (applyAssign engine program s).ctl = s.ctl := by
  unfold applyAssign
  dsimp only
  rw [foldl_ctl (fun _ _ => State.modStrand_ctl ..), State.modEngine_ctl, State.modRole_ctl]

@[simp] theorem applyRetire_ctl (engine : Byte) : (applyRetire engine s).ctl = s.ctl := by
  unfold applyRetire
  split <;> simp

@[simp] theorem State.debugHalt_ctl (e : EngineId) : (s.debugHalt e).ctl = s.ctl := by simp [State.debugHalt]
@[simp] theorem State.haltIfDue_ctl (e : EngineId) : (s.haltIfDue e).ctl = s.ctl := by simp [State.haltIfDue]

/-! Registers. -/

@[simp] theorem State.syncPort_ctl (p : Port) : (s.syncPort p).ctl = s.ctl := by simp [State.syncPort]
@[simp] theorem State.moveQueue_ctl (p : Port) : (s.moveQueue p).ctl = s.ctl := by simp [State.moveQueue]
@[simp] theorem State.portDown_ctl (p : Port) : (s.portDown p).ctl = s.ctl := by simp [State.portDown]
@[simp] theorem State.checkPort_ctl (p : Port) : (s.checkPort p).ctl = s.ctl := by simp [State.checkPort]
@[simp] theorem State.switchTo_ctl (d : Dom) : (s.switchTo d).ctl = s.ctl := by simp [State.switchTo]
@[simp] theorem State.takeSel_ctl : s.takeSel.ctl = s.ctl := by simp [State.takeSel]
@[simp] theorem State.afterRead_ctl (a : Nat) : (s.afterRead a).ctl = s.ctl := by simp [State.afterRead]
@[simp] theorem State.writeReg_dist (a : Nat) (w : Word) : (s.writeReg a w).ctl.dist = s.ctl.dist := by simp [State.writeReg]

@[simp] theorem State.writeInternal_dist (a : Nat) (v : Word) : (s.writeInternal a v).ctl.dist = s.ctl.dist := by
  simp only [State.writeInternal]
  (repeat' split) <;> simp

/-! The negative. -/

@[simp] theorem State.cutSubs_ctl : s.cutSubs.ctl = s.ctl := by simp [State.cutSubs]

/-! The passwords. -/

@[simp] theorem State.logChange_ctl (kind : Nat) (o : Origin) (user : BitVec 64) : (s.logChange kind o user).ctl = s.ctl := by
  simp [State.logChange]

@[simp] theorem State.checkAgainst_ctl (stored : Option Password) (o : Origin) (user : BitVec 64) (given : List Byte) :
    (s.checkAgainst stored o user given).1.ctl = s.ctl := by
  simp only [State.checkAgainst]
  (repeat' split) <;> simp

@[simp] theorem State.checkPassword_ctl (o : Origin) (user : BitVec 64) (given : List Byte) :
    (s.checkPassword o user given).1.ctl = s.ctl := by
  simp [State.checkPassword]

/-! Field I/O. -/

@[simp] theorem State.fioUpdate_ctl (f : FieldIo → FieldIo) : (s.fio_ f).ctl = s.ctl := by simp [State.fio_]
@[simp] theorem State.latchOutputs_ctl : s.latchOutputs.ctl = s.ctl := by simp [State.latchOutputs]

/-! The link. -/

@[simp] theorem State.storePub_ctl (idx : Nat) (payload : Word72) (age : BitVec 6) : (s.storePub idx payload age).ctl = s.ctl := by
  simp [State.storePub]

@[simp] theorem State.storeOwn_ctl : s.storeOwn.ctl = s.ctl := by
  unfold State.storeOwn
  exact foldl_ctl (fun t e => by split <;> simp) _ _

@[simp] theorem State.emitBurst_ctl (p : Port) (b : Burst) : (s.emitBurst p b).ctl = s.ctl := by simp [State.emitBurst]
@[simp] theorem State.treeBurst_ctl (old : Schedule) (port : Port) : (s.treeBurst old port).ctl = s.ctl := by simp [State.treeBurst]

@[simp] theorem State.countCopies_ctl (seen : List SeenBurst) (x : SchedSlot) : (s.countCopies seen x).ctl = s.ctl := by
  simp only [State.countCopies]
  split <;> simp

@[simp] theorem State.countBursts_ctl : s.countBursts.ctl = s.ctl := by simp [State.countBursts]

/-! The schedule. -/

@[simp] theorem State.storeSchedule_ctl (c : Schedule) (staged : List (Nat × Rec32)) : (s.storeSchedule c staged).ctl = s.ctl := by
  simp [State.storeSchedule]

@[simp] theorem State.switchSchedule_core : s.switchSchedule.ctl.core = s.ctl.core := by
  unfold State.switchSchedule
  dsimp only
  (repeat' split) <;> simp

@[simp] theorem applySetCycle_core (t : Half) (cmd : Instr) : (applySetCycle t cmd s).ctl.core = s.ctl.core := by
  unfold applySetCycle
  split <;> simp

@[simp] theorem applyLeave_ctl : (applyLeave s).ctl = s.ctl := by simp [applyLeave]

@[simp] theorem applyPublish_ctl (index : Half) (source : Word) (kind : Byte) : (applyPublish index source kind s).ctl = s.ctl := by
  unfold applyPublish
  rfl

@[simp] theorem applySubs_ctl (bs : List Byte) : (applySubs bs s).ctl = s.ctl := by
  unfold applySubs
  split <;> simp

/-! Host. -/

@[simp] theorem State.syncPorts_ctl (before : Vector LinkPort 4) : (s.syncPorts before).ctl = s.ctl := by simp [State.syncPorts]
@[simp] theorem State.busWrite_dist (a : Nat) (v : Word) : (s.busWrite a v).ctl.dist = s.ctl.dist := by simp [State.busWrite]

/-! The sets. -/

@[simp] theorem applySet_core (i : Instr) : (applySet i s).ctl.core = s.ctl.core := by
  unfold applySet
  split <;> simp

@[simp] theorem dropSet_ctl (i : Instr) : (dropSet i s).ctl = s.ctl := by
  unfold dropSet
  split <;> simp

@[simp] theorem State.takeSet_core (i : Instr) : (s.takeSet i).ctl.core = s.ctl.core := by
  unfold State.takeSet
  split <;> simp

/-! The cycle start. -/

@[simp] theorem State.endCycle_ctl : s.endCycle.ctl = s.ctl := by simp [State.endCycle]

@[simp] theorem State.passTime_ctl (ns : Nat) : (s.passTime ns).ctl = s.ctl := by
  unfold State.passTime
  rfl

theorem landed_core {s t : State} (hd : t.dist = s.dist) (hs : t.seq = landSeq s.seq) : t.ctl.core = s.ctl.core := by
  simp only [State.ctl, Ctl.core, hd, hs]
  rfl

theorem ctl_with_quads (q : Vector Quad 12) : ({ s with quads := q } : State).ctl = s.ctl := (rfl)

@[simp] theorem State.landShadows_core : s.landShadows.ctl.core = s.ctl.core := by
  unfold State.landShadows
  extract_lets t u
  have ht : t.ctl = s.ctl := by
    simp only [t]
    rw [foldl_ctl (fun _ _ => State.gateNews_ctl ..), ctl_with_quads]
  rw [foldl_ctl (fun _ _ => by rw [State.checkPort_ctl, State.modPort_ctl])]
  exact (landed_core (s := t) (t := u) rfl rfl).trans (congrArg Ctl.core ht)

@[simp] theorem State.latchIntake_core : s.latchIntake.ctl.core = s.ctl.core := by
  unfold State.latchIntake
  exact (State.modSeq_core _ fun _ => ⟨rfl, rfl⟩).trans (congrArg Ctl.core (State.modHost_ctl ..))

@[simp] theorem State.mendPort_ctl (p : Port) : (s.mendPort p).ctl = s.ctl := by simp [State.mendPort]
@[simp] theorem State.treeBursts_ctl (old : Schedule) : (s.treeBursts old).ctl = s.ctl := by simp [State.treeBursts]
@[simp] theorem State.freeze_ctl : s.freeze.ctl = s.ctl := by simp [State.freeze]

@[simp] theorem State.startEngine_ctl (e : EngineId) : (s.startEngine e).ctl = s.ctl := by
  simp only [State.startEngine]
  split <;> simp

@[simp] theorem State.runtimes_ctl : s.runtimes.ctl = s.ctl := by simp [State.runtimes]

@[simp] theorem State.startEngines_ctl : s.startEngines.ctl = s.ctl := by
  unfold State.startEngines
  exact foldl_ctl State.startEngine_ctl _ _

@[simp] theorem State.copySubs_ctl : s.copySubs.ctl = s.ctl := by simp [State.copySubs]

@[simp] theorem State.strandTurn_core (skipped : List StrandId) (i : StrandId) : (s.strandTurn skipped i).ctl.core = s.ctl.core := by
  simp [State.strandTurn]

@[simp] theorem State.strandWork_core (skipped : List StrandId) : (s.strandWork skipped).ctl.core = s.ctl.core := by
  unfold State.strandWork
  dsimp only
  split <;> simp

@[simp] theorem State.compareCycle_ctl : s.compareCycle.ctl = s.ctl := by simp [State.compareCycle]
@[simp] theorem State.epochFlush_ctl : s.epochFlush.ctl = s.ctl := by simp [State.epochFlush]

theorem State.debugStep_ctl (e : EngineId) : (s.debugStep e).ctl = s.ctl := by
  unfold State.debugStep
  dsimp only
  split
  · rw [State.modEngine_ctl, State.runtimeStep_ctl ‹_›, State.modEngine_ctl]
  · exact State.modEngine_ctl ..

/-! The parts of a cycle start. -/

theorem next_core : (s.modSeq fun q => { q with cycle := q.cycle + 1 }).ctl.core = { s.ctl.core with cycle := s.ctl.core.cycle + 1 } :=
  (rfl)

theorem running_core : (s.modSeq fun q => { q with running := true }).ctl.core = { s.ctl.core with running := true } := (rfl)

/-- A cycle start after the first moves the cycle number on by one, and from the first the cycles run (log entry 133). -/
theorem State.nextCycle_core : s.nextCycle.ctl.core = { s.ctl.core with
    cycle := if s.seq.running = true then s.seq.cycle + 1 else s.seq.cycle, running := true } := by
  unfold State.nextCycle
  split
  next h =>
    rw [next_core, State.stepSequencers_ctl, State.passTime_ctl, State.compareCycle_ctl, State.endCycle_ctl, State.editOn_core]
    have hr : s.ctl.core.running = true := h
    exact congrArg (CycleCore.mk _ _ (s.seq.cycle + 1)) hr
  next h =>
    dsimp only
    split
    · rw [State.setReady_ctl]
      exact running_core s
    · exact running_core s

theorem State.beforeSets_core : s.beforeSets.ctl.core = s.nextCycle.ctl.core := by simp [State.beforeSets]

theorem State.takeSets_core (upd : List StrandId) :
    (State.takeSets upd s).ctl.core = { s.ctl.core with armed := [], orphan := [] } := by
  unfold State.takeSets
  dsimp only
  rw [foldl_core (fun _ _ => State.takeSet_core ..), foldl_core (fun _ _ => State.otherEvents_core ..),
    foldl_core (fun _ _ => State.takeSet_core ..), foldl_core (fun _ _ => State.graveEvents_core ..)]
  rfl

theorem State.afterSets_core (skipped : List StrandId) : (s.afterSets skipped).ctl.core = s.ctl.core := by simp [State.afterSets]

end Sys2Proof.Machine
end

section
/-! The family of the control cycle: the arming of sets, and the armed sets at a cycle start. -/

namespace Sys2Proof.Machine

variable {s : State}

/-! A set that is taken (R69). -/

theorem takeSet_passed {i : Instr} {o : Origin} (ho : originOf i = some o) (hc : checkSet i s = stOk) :
    s.takeSet i = if endsLater i (applySet i s) = true then applySet i s
      else (applySet i s).finishAt i o stOk (applySet i s).seq.cycle := by
  simp only [State.takeSet, ho, hc, if_true]

theorem takeSet_dropped {i : Instr} {o : Origin} (ho : originOf i = some o) (hc : checkSet i s ≠ stOk) :
    s.takeSet i = (dropSet i s).finishAt i o stRefused noCycle := by
  simp only [State.takeSet, ho, hc, if_false]

/-- Only a GROUP_DEFINE takes something with it when it is dropped (R69). -/
theorem dropSet_eq_self {i : Instr} (h : ∀ k : Fin 32, definesGroup k i = false) : dropSet i s = s := by
  cases i
  case groupDefine o g n members => exact absurd (h (groupIx g)) (by simp [definesGroup])
  all_goals rfl

/-! The order of the sets (R69, R93). -/

/-- Where no strand updates, the sets act: every STOP_NOW, then the others, each in arming order. -/
theorem takeSets_of_armed {l : List Instr} (ho : s.dist.orphan = []) (ha : s.dist.armed = l) :
    State.takeSets [] s = (l.filter fun i => !isStopNow i).foldl State.takeSet
      ((l.filter isStopNow).foldl State.takeSet (s.modDist fun d => { d with armed := [] })) := by
  have hd : (s.modDist fun d => { d with orphan := [], armed := [] }) = s.modDist fun d => { d with armed := [] } := by
    simp only [State.modDist, ← ho]
  simp only [State.takeSets, ho, ha, List.nil_append, List.foldl_nil, hd]

theorem filter_stopNow_none {l : List Instr} (h : ∀ i ∈ l, isStopNow i = false) : l.filter isStopNow = [] :=
  List.filter_eq_nil_iff.mpr fun i hi => ne_true_of_eq_false (h i hi)

theorem filter_other_all {l : List Instr} (h : ∀ i ∈ l, isStopNow i = false) : (l.filter fun i => !isStopNow i) = l :=
  List.filter_eq_self.mpr fun i hi => by rw [h i hi]; rfl

theorem takeSets_without_stopNow {l : List Instr} (ho : s.dist.orphan = []) (ha : s.dist.armed = l)
    (h : ∀ i ∈ l, isStopNow i = false) : State.takeSets [] s = l.foldl State.takeSet (s.modDist fun d => { d with armed := [] }) := by
  rw [takeSets_of_armed ho ha, filter_stopNow_none h, filter_other_all h, List.foldl_nil]

theorem takeSets_stopNow_first {a b : List Instr} {o : Origin} {st : Half} (ho : s.dist.orphan = [])
    (ha : s.dist.armed = a ++ .stopNow o st :: b) (h : ∀ i ∈ a ++ b, isStopNow i = false) :
    State.takeSets [] s = (a ++ b).foldl State.takeSet ((s.modDist fun d => { d with armed := [] }).takeSet (.stopNow o st)) := by
  obtain ⟨hfa, hfb⟩ := List.forall_mem_append.mp h
  have hstop : isStopNow (.stopNow o st) = true := rfl
  rw [takeSets_of_armed ho ha, List.filter_append, List.filter_append, List.filter_cons_of_pos hstop,
    List.filter_cons_of_neg (by rw [hstop]; decide), filter_stopNow_none hfa, filter_stopNow_none hfb, filter_other_all hfa,
    filter_other_all hfb]
  rfl

/-! The cycle start (R10, R53). -/

theorem cycleStart_runs (hh : s.pwr.held = false) (hd : s.pwr.dev ≠ .dormant) (skipped : List StrandId) :
    exec (.cycleStart skipped) s = .next ((s.beforeSets.takeSets (strandsDue skipped s.beforeSets)).afterSets skipped) :=
  congrArg Host.Outcome.next (if_neg (by simp [coreUp, hh, hd]))

theorem core_eq {t : State} {c : CycleCore} (h : t.ctl.core = c) :
    t.dist.armed = c.armed ∧ t.dist.orphan = c.orphan ∧ t.seq.cycle = c.cycle ∧ t.seq.running = c.running := by
  subst h
  exact ⟨rfl, rfl, rfl, rfl⟩

/-- A cycle start leaves no armed set, has the cycles run, and moves on the cycle number where they ran. -/
theorem cycleStart_core (skipped : List StrandId) :
    ((s.beforeSets.takeSets (strandsDue skipped s.beforeSets)).afterSets skipped).ctl.core =
      ⟨[], [], if s.seq.running = true then s.seq.cycle + 1 else s.seq.cycle, true⟩ := by
  rw [State.afterSets_core, State.takeSets_core, State.beforeSets_core, State.nextCycle_core]

end Sys2Proof.Machine

open Sys2Proof Sys2Proof.Machine

/-- Settles O25: C_SET_ARM and each set by its equation, and of a cycle start what its parts leave of the armed sets, the cycle
number and the running flag. -/
theorem armedSetsActInOrderAtACycleStart : Obligations.ArmedSetsActInOrderAtACycleStart := by
  refine ⟨fun s i r hr hs => ?arms, fun s hs => ?nothing, fun i o s ho hc hg => ?dropped, fun o g n members s hc => takeSet_dropped rfl hc,
    fun i o s ho hc => takeSet_passed ho hc, fun l s ho ha h => takeSets_without_stopNow ho ha h,
    fun a b o st s ho ha h => takeSets_stopNow_first ho ha h, fun skipped s hh hd => ?start⟩
  case arms => simp only [exec, execCSetArm, hs, hr, if_true]
  case nothing => simp only [exec, execCSetArm, hs]
  case dropped => rw [takeSet_dropped ho hc, dropSet_eq_self hg]
  case start =>
    obtain ⟨harmed, horphan, -, -⟩ := core_eq ((State.beforeSets_core s).trans (State.nextCycle_core s))
    obtain ⟨harmed', horphan', hcycle, hrunning⟩ := core_eq (cycleStart_core (s := s) skipped)
    exact ⟨harmed, horphan, _, cycleStart_runs hh hd skipped, rfl, harmed', horphan', hcycle, hrunning⟩
end

section
/-! The family of the control cycle: BENCH_MODE, REG_ACCESS and FLYER_DEBUG. -/

namespace Sys2Proof.Machine

variable {s : State}

/-! A served S-class command whose body leaves the distaff as it is (R67). -/

theorem owedFor_dist {t u : State} (h : t.ctl.dist = u.ctl.dist) (i : Instr) : t.owedFor i = u.owedFor i :=
  congrArg (fun d : Distaff => d.owed.find? fun w : Owed => w.cmd == some i) h

/-- It ends with the state, the status and the result its body answers. -/
theorem runShort_ends {i : Instr} {o : Origin} (h : Served i o s) {body : State → CmdResult} {t : State} {st : Half} {res : List Byte}
    (hbody : body (s.holdTag o.mb o.tag) = (t, st, res)) (hd : t.ctl.dist = (s.holdTag o.mb o.tag).ctl.dist) :
    (Host.Outcome.next (runShort i o body s) : Answer) = .next (t.ended i o st res) := by
  have howed : s.owedFor i = none := by
    obtain ⟨-, -, -, -, -, -, -, -, howed⟩ := h
    exact howed
  have hb : (body (s.holdTag o.mb o.tag)).1.owedFor i = none := by
    rw [hbody, owedFor_dist hd, holdTag_owedFor]
    exact howed
  rw [runShort_served h body hb, hbody]

/-- It is refused, and nothing but its mailbox changes, where its body refuses it. -/
theorem runShort_refuses {i : Instr} {o : Origin} (h : Served i o s) {body : State → CmdResult} {st : Half}
    (hbody : body (s.holdTag o.mb o.tag) = refuse (s.holdTag o.mb o.tag) st) :
    (Host.Outcome.next (runShort i o body s) : Answer) = .next ((s.holdTag o.mb o.tag).ended i o st []) :=
  runShort_ends h hbody rfl

/-! BENCH_MODE (R59). -/

theorem runBench_off (o : Origin) (password : Rec32) (u : State) :
    runBench o 0 password u = (u.modHost fun h => { h with bench := false }, stOk, []) := rfl

theorem runBench_password {o : Origin} {on : Byte} {password : Rec32} {u t : State} {ok : Bool} (hon : on ≠ 0)
    (hp : u.checkPassword o 0 (bytesOf password) = (t, ok)) : runBench o on password u =
      if ok then (t.modHost fun h => { h with bench := true, bar2Denied := 0 }, stOk, []) else refuse t stAuthFail := by
  rw [runBench, if_neg hon, hp]

theorem checkPassword_dist {o : Origin} {given : List Byte} {u t : State} {ok : Bool} (h : u.checkPassword o 0 given = (t, ok)) :
    t.ctl.dist = u.ctl.dist := by
  have hc := State.checkPassword_ctl u o 0 given
  rw [h] at hc
  exact congrArg Ctl.dist hc

/-! REG_ACCESS (R61, R71). -/

/-- The state with the banks awake that an access touches (R35). -/
def wokenFor (u : State) (a : Nat) : State :=
  match touchedWords a with
  | some (lo, hi) => u.wakeRange (8 * lo) (8 * hi)
  | none => u

theorem wokenFor_none {a : Nat} (h : touchedWords a = none) (u : State) : wokenFor u a = u := by rw [wokenFor, h]

theorem wokenFor_some {a lo hi : Nat} (h : touchedWords a = some (lo, hi)) (u : State) :
    wokenFor u a = u.wakeRange (8 * lo) (8 * hi) := by rw [wokenFor, h]

theorem wokenFor_ctl (u : State) (a : Nat) : (wokenFor u a).ctl = u.ctl := by
  unfold wokenFor
  split
  · exact State.wakeRange_ctl ..
  · rfl

theorem runRegAccess_outside {u : State} (hb : u.host.bench = false) (address : Word) (write : Byte) (value : Word) :
    runRegAccess address write value u = refuse u stRefused := by
  simp only [runRegAccess, hb, Bool.not_false, if_true]

theorem runRegAccess_island {u : State} (hb : u.host.bench = true) {address : Word} {write : Byte} (hw : write ≠ 0)
    (hi : islandAddr address.toNat = true) (value : Word) : runRegAccess address write value u = refuse u stSafetyLocked := by
  have hne : (write != 0) = true := bne_iff_ne.mpr hw
  simp only [runRegAccess, hb, hne, hi, Bool.not_true, Bool.false_eq_true, if_false, Bool.and_self, if_true]

theorem runRegAccess_write {u : State} (hb : u.host.bench = true) {address : Word} {write : Byte} (hw : write ≠ 0)
    (hi : islandAddr address.toNat = false) (value : Word) :
    runRegAccess address write value u = (((wokenFor u address.toNat).busWrite address.toNat value).tick, stOk, []) := by
  simp only [runRegAccess, hb, hi, bne_iff_ne, ne_eq, hw, not_false_eq_true, if_true, Bool.not_true, Bool.and_false, Bool.false_eq_true, if_false]
  rfl

/-- The first poisoned word a read at an address meets, in the banks awake (R61). -/
def poisonAt (u : State) (a : Nat) : Option Nat :=
  (touchedWords a).bind fun w => firstPoison (wokenFor u a).mem (8 * w.1) (8 * w.2)

theorem runRegAccess_read {u : State} (hb : u.host.bench = true) (address value : Word) :
    runRegAccess address 0 value u =
      match poisonAt u address.toNat with
      | some g => (wokenFor u address.toNat, stPoisoned, leBytes 4 (8 * g))
      | none => (((wokenFor u address.toNat).afterRead address.toNat).tick, stOk,
          leBytes 4 (readInternal (wokenFor u address.toNat) address.toNat).toNat) := by
  simp only [runRegAccess, hb, Bool.not_true, Bool.false_eq_true, if_false, bne_self_eq_false, Bool.false_and]
  rfl

/-- A read of a register, or of a word that is sound, answers the value there. -/
theorem regAccess_reads {o : Origin} {address value : Word} (h : Served (.regAccess o address 0 value) o s) (hb : s.host.bench = true)
    {u : State} (hu : wokenFor (s.holdTag o.mb o.tag) address.toNat = u) (hp : poisonAt (s.holdTag o.mb o.tag) address.toNat = none) :
    exec (.regAccess o address 0 value) s = .next ((u.afterRead address.toNat).tick.ended (.regAccess o address 0 value) o stOk
      (leBytes 4 (readInternal u address.toNat).toNat)) := by
  have hbody := runRegAccess_read (u := s.holdTag o.mb o.tag) hb address value
  rw [hp, hu] at hbody
  refine runShort_ends h hbody (congrArg Ctl.dist ?_)
  rw [State.tick_ctl, State.afterRead_ctl, ← hu, wokenFor_ctl]

/-- A read that meets a poisoned word answers its address. -/
theorem regAccess_poisoned {o : Origin} {address value : Word} (h : Served (.regAccess o address 0 value) o s) (hb : s.host.bench = true)
    {u : State} (hu : wokenFor (s.holdTag o.mb o.tag) address.toNat = u) {g : Nat}
    (hp : poisonAt (s.holdTag o.mb o.tag) address.toNat = some g) :
    exec (.regAccess o address 0 value) s = .next (u.ended (.regAccess o address 0 value) o stPoisoned (leBytes 4 (8 * g))) := by
  have hbody := runRegAccess_read (u := s.holdTag o.mb o.tag) hb address value
  rw [hp, hu] at hbody
  refine runShort_ends h hbody (congrArg Ctl.dist ?_)
  rw [← hu, wokenFor_ctl]

theorem poisonAt_none {a : Nat} (h : touchedWords a = none) (u : State) : poisonAt u a = none := by rw [poisonAt, h]; rfl

theorem poisonAt_some {a lo hi : Nat} (h : touchedWords a = some (lo, hi)) (u : State) :
    poisonAt u a = firstPoison (u.wakeRange (8 * lo) (8 * hi)).mem (8 * lo) (8 * hi) := by
  rw [poisonAt, wokenFor_some h, h]
  rfl

theorem regWrite_dist (u : State) (a : Nat) (v : Word) : (((wokenFor u a).busWrite a v).tick).ctl.dist = u.ctl.dist := by
  rw [State.tick_ctl, State.busWrite_dist, wokenFor_ctl]

/-! FLYER_DEBUG (R217). -/

theorem runDebug_outside {u : State} (hb : u.host.bench = false) (engine action : Byte) : runDebug engine action u = refuse u stRefused := by
  simp only [runDebug, hb, Bool.not_false, if_true]

theorem runDebug_halt {u : State} (hb : u.host.bench = true) (engine : Byte) : runDebug engine 0 u =
    ((u.modRole (engineIx engine) fun r => { r with attached := true, haltDue := true }).haltIfDue (engineIx engine), stOk, []) := by
  simp only [runDebug, hb, Bool.not_true, Bool.false_eq_true, if_false]
  rfl

theorem runDebug_step {u : State} (hb : u.host.bench = true) {engine : Byte} (hr : u.engines[engineIx engine].run = .debug) :
    runDebug engine 1 u = (u.debugStep (engineIx engine), stOk, []) := by
  simp only [runDebug, hb, Bool.not_true, Bool.false_eq_true, if_false]
  exact congrArg (fun t : State => (t, stOk, ([] : List Byte))) (if_pos (by rw [hr]; rfl))

/-- In a user's code a step lets the next instruction issue. -/
theorem debugStep_user {u : State} {e : EngineId} (h : 4096 ≤ u.engines[e].pc.toNat) :
    u.debugStep e = u.modEngine e fun x => { x with run := .stepping } := by
  have hpc : 4096 ≤ (u.modEngine e fun x => { x with run := .stepping }).engines[e].pc.toNat := by
    rw [State.modEngine_engines, Fin.getElem_fin, Vector.getElem_set_self]
    exact h
  simp only [State.debugStep, runtimeStep_user hpc]

/-- The quads of an engine that goes on, but those another halted engine holds. -/
def resumed (u : State) (e : EngineId) : State :=
  (quadsOfEngine u e).foldl (fun s q =>
    if ((slotsOfQuad s q).any fun t => s.engines[t.1].run == .debug) = true then s else s.modQuad q unfreeze)
    ((u.modEngine e fun x => takeInterrupt { x with run := .running }).runtime e)

theorem resumed_ctl (u : State) (e : EngineId) : (resumed u e).ctl = u.ctl := by
  unfold resumed
  rw [foldl_ctl (fun _ _ => by split <;> simp), State.runtime_ctl, State.modEngine_ctl]

theorem runDebug_resume {u : State} (hb : u.host.bench = true) {engine : Byte} (hr : u.engines[engineIx engine].run = .debug) :
    runDebug engine 2 u = (resumed u (engineIx engine), stOk, []) := by
  simp only [runDebug, hb, Bool.not_true, Bool.false_eq_true, if_false]
  exact if_pos (by rw [hr]; rfl)

theorem runDebug_withdraw {u : State} (hb : u.host.bench = true) {engine : Byte} (hr : u.engines[engineIx engine].run ≠ .debug) :
    runDebug engine 2 u = (u.modRole (engineIx engine) fun r => { r with haltDue := false }, stOk, []) := by
  simp only [runDebug, hb, Bool.not_true, Bool.false_eq_true, if_false]
  exact if_neg (by rw [beq_iff_eq]; exact hr)

end Sys2Proof.Machine

open Sys2Proof Sys2Proof.Machine

/-- Settles O17: each command is its body on the state that holds its tag, and no body touches what the distaff owes. -/
theorem benchAndDebugCommandsAct : Obligations.BenchAndDebugCommandsAct := by
  refine ⟨fun o password s h => runShort_ends h (runBench_off ..) rfl, fun o on password s t h hon hp => ?enters,
    fun o on password s t h hon hp => ?wrong, fun o address write value s h hb => ?closed,
    fun o address write value s h hb hw hi => ?locked, fun o address write value s h hb hw hi => ?write,
    fun o address value s h hb => ?read, fun o engine action s h hb => ?debugClosed, fun o engine s h hb => ?halt,
    fun o engine s h hb hr => ?step, fun o engine s h hb => ⟨fun hr => ?resume, fun hr => ?withdraw⟩⟩
  case enters =>
    exact runShort_ends h (runBench_password hon hp) ((congrArg Ctl.dist (State.modHost_ctl t _)).trans (checkPassword_dist hp))
  case wrong => exact runShort_ends h (runBench_password hon hp) (checkPassword_dist hp)
  case closed => exact runShort_refuses h (runRegAccess_outside (u := s.holdTag o.mb o.tag) hb address write value)
  case locked => exact runShort_refuses h (runRegAccess_island (u := s.holdTag o.mb o.tag) hb hw hi value)
  case write =>
    have hend := runShort_ends h (runRegAccess_write (u := s.holdTag o.mb o.tag) hb hw hi value) (regWrite_dist _ _ _)
    exact ⟨fun ht => by rw [wokenFor_none ht] at hend; exact hend, fun lo hi' ht => by rw [wokenFor_some ht] at hend; exact hend⟩
  case read =>
    refine ⟨fun ht => regAccess_reads h hb (wokenFor_none ht _) (poisonAt_none ht _), fun lo hi ht => ⟨fun hp => ?_, fun g hp => ?_⟩⟩
    · exact regAccess_reads h hb (wokenFor_some ht _) ((poisonAt_some ht _).trans hp)
    · exact regAccess_poisoned h hb (wokenFor_some ht _) ((poisonAt_some ht _).trans hp)
  case debugClosed => exact runShort_refuses h (runDebug_outside (u := s.holdTag o.mb o.tag) hb engine action)
  case halt =>
    exact runShort_ends h (runDebug_halt (u := s.holdTag o.mb o.tag) hb engine)
      (congrArg Ctl.dist ((State.haltIfDue_ctl ..).trans (State.modRole_ctl ..)))
  case step =>
    have hend := runShort_ends h (runDebug_step (u := s.holdTag o.mb o.tag) hb hr) (congrArg Ctl.dist (State.debugStep_ctl ..))
    exact ⟨hend, fun hpc => by rw [debugStep_user (u := s.holdTag o.mb o.tag) hpc] at hend; exact hend⟩
  case resume => exact runShort_ends h (runDebug_resume (u := s.holdTag o.mb o.tag) hb hr) (congrArg Ctl.dist (resumed_ctl ..))
  case withdraw => exact runShort_ends h (runDebug_withdraw (u := s.holdTag o.mb o.tag) hb hr) rfl
end

section
/-! The family of bring-up, power and clocks: what waking a function, using the banks and sending a frame leave as it was. -/

namespace Sys2Proof.Machine

variable {s t u : State}

/-- From `s` to `t` nothing but the power states and the banks has changed. -/
def OnlyBanks (s t : State) : Prop := ∃ p m, t = { s with pwr := p, mem := m }

theorem OnlyBanks.refl (s : State) : OnlyBanks s s := ⟨s.pwr, s.mem, rfl⟩

theorem OnlyBanks.trans (h : OnlyBanks s t) (k : OnlyBanks t u) : OnlyBanks s u := by
  obtain ⟨p, m, rfl⟩ := h
  obtain ⟨q, n, rfl⟩ := k
  exact ⟨q, n, rfl⟩

theorem OnlyBanks.mb (h : OnlyBanks s t) : t.mb = s.mb := by
  obtain ⟨p, m, rfl⟩ := h
  rfl

theorem OnlyBanks.cams (h : OnlyBanks s t) : t.cams = s.cams := by
  obtain ⟨p, m, rfl⟩ := h
  rfl

theorem OnlyBanks.modMem (f : Mem → Mem) (h : OnlyBanks s t) : OnlyBanks s (t.modMem f) := h.trans ⟨t.pwr, f t.mem, rfl⟩

theorem OnlyBanks.foldl {α : Type} {f : State → α → State} (h : ∀ t a, OnlyBanks t (f t a)) (l : List α) (s : State) :
    OnlyBanks s (l.foldl f s) := by
  induction l generalizing s with
  | nil => exact .refl s
  | cons a l ih => exact (h s a).trans (ih (f s a))

theorem wakeBank_onlyBanks (b : BankId) (s : State) : OnlyBanks s (s.wakeBank b) := by
  unfold State.wakeBank
  extract_lets clears t
  split
  · exact .refl s
  · have ht : OnlyBanks s t := ⟨_, s.mem, rfl⟩
    split
    · exact ht.modMem _
    · exact ht

theorem wakeFn_onlyBanks (f : Half) (s : State) : OnlyBanks s (s.wakeFn f) := by
  unfold State.wakeFn
  split
  · exact wakeBank_onlyBanks _ s
  · exact ⟨_, s.mem, rfl⟩

theorem serveBank_onlyBanks (b : BankId) (s : State) : OnlyBanks s (s.serveBank b) := by
  unfold State.serveBank
  extract_lets t
  split
  · exact (wakeBank_onlyBanks b s).modMem _
  · exact wakeBank_onlyBanks b s

theorem wakeRange_onlyBanks (lo hi : Nat) (s : State) : OnlyBanks s (s.wakeRange lo hi) :=
  .foldl (fun t b => by
    split
    · exact serveBank_onlyBanks b t
    · exact .refl t) _ s

theorem wakeChain_onlyBanks (chain : List Nat) (s : State) : OnlyBanks s (s.wakeChain chain) :=
  .foldl (fun t _ => wakeRange_onlyBanks _ _ t) chain s

theorem freeChain_onlyBanks (chain : List Nat) (s : State) : OnlyBanks s (s.freeChain chain) :=
  (wakeChain_onlyBanks chain s).modMem _

theorem grab_onlyBanks (s : State) : OnlyBanks s s.grab.1 := by
  unfold State.grab
  extract_lets t r
  have ht : OnlyBanks s t := by
    simp only [t]
    split
    · exact .refl s
    · exact wakeChain_onlyBanks _ s
  exact ht.modMem fun _ => r.1

/-! A frame that is sent leaves the mailboxes as they were (R247). -/

theorem enqueue_mb (p : Port) (f : Frame) (s : State) : (s.enqueue p f).mb = s.mb := by
  have hgrab := (grab_onlyBanks s).mb
  unfold State.enqueue
  split
  next t b h =>
    rw [h] at hgrab
    exact hgrab
  next t h =>
    rfl

theorem spread_mb (f : Frame) (but : Option Port) (s : State) : (s.spread f but).mb = s.mb := by
  unfold State.spread
  split
  · exact foldl_frame State.mb (fun t p => enqueue_mb p f t) _ s
  · exact enqueue_mb _ f s

theorem sendFrame_mb (dst : BitVec 14) (kind : BitVec 4) (data : List (BitVec 64)) (s : State) : (s.sendFrame dst kind data).mb = s.mb :=
  spread_mb _ none _

end Sys2Proof.Machine
end

section
/-! The family of bring-up, power and clocks: doorbells, and the copy of a request (R30, R44 to R46). -/

namespace Sys2Proof.Machine

variable {s : State}

/-! The request indices of a mailbox. -/

/-- req_pi and req_ci of a mailbox. -/
def State.bell (s : State) (k : MbId) : BitVec 7 × BitVec 7 := (s.mb[k].reqPi, s.mb[k].reqCi)

theorem bell_of_mb {t : State} (h : t.mb = s.mb) (k : MbId) : t.bell k = s.bell k := by rw [State.bell, State.bell, h]

theorem modMb_self (i : MbId) (f : Mailbox → Mailbox) : (s.modMb i f).mb[i] = f s.mb[i] :=
  Vector.getElem_set_self ..

theorem modMb_other {i k : MbId} (h : k ≠ i) (f : Mailbox → Mailbox) : (s.modMb i f).mb[k] = s.mb[k] :=
  Vector.getElem_set_ne i.isLt k.isLt fun e => h (Fin.ext e.symm)

/-- An update that keeps a mailbox's request indices keeps those of every mailbox. -/
theorem modMb_bell {f : Mailbox → Mailbox} (h : ∀ m, (f m).reqPi = m.reqPi ∧ (f m).reqCi = m.reqCi) (i k : MbId) :
    (s.modMb i f).bell k = s.bell k := by
  by_cases hk : k = i
  · subst hk
    obtain ⟨hpi, hci⟩ := h s.mb[k]
    rw [State.bell, modMb_self, hpi, hci, State.bell]
  · rw [State.bell, modMb_other hk, State.bell]

@[simp] theorem pushCmpl_bell (mb : MbId) (c : Cmpl) (k : MbId) : (s.pushCmpl mb c).bell k = s.bell k :=
  modMb_bell (by intro m; exact ⟨rfl, rfl⟩) mb k

@[simp] theorem modDist_bell (f : Distaff → Distaff) (k : MbId) : (s.modDist f).bell k = s.bell k := rfl

@[simp] theorem takeRequest_bell (mb : MbId) (tag : Fin 32) (reject : Bool) (k : MbId) : (s.takeRequest mb tag reject).bell k = s.bell k := by
  rw [State.takeRequest, modDist_bell]
  exact modMb_bell (by intro m; exact ⟨rfl, rfl⟩) mb k

@[simp] theorem lockTag_bell (mb : MbId) (tag : Fin 32) (k : MbId) : (s.lockTag mb tag).bell k = s.bell k :=
  modMb_bell (by intro m; exact ⟨rfl, rfl⟩) mb k

@[simp] theorem holdTag_bell (mb : MbId) (tag : Fin 32) (k : MbId) : (s.holdTag mb tag).bell k = s.bell k := by simp [State.holdTag]

@[simp] theorem pushReject_bell (mb : MbId) (c : Cmpl) (k : MbId) : (s.pushReject mb c).bell k = s.bell k := by simp [State.pushReject]

@[simp] theorem sendFrame_bell (dst : BitVec 14) (kind : BitVec 4) (data : List (BitVec 64)) (k : MbId) : (s.sendFrame dst kind data).bell k = s.bell k :=
  bell_of_mb (sendFrame_mb dst kind data s) k

/-- Whatever becomes of a request of this device once it is out of the ring, the indices stay. -/
theorem takeLocal_bell (mb : MbId) (r : Request) (remote : Option (BitVec 14 × RemoteKey)) (dma : DmaInput) (k : MbId) :
    (s.takeLocal mb r remote dma).bell k = s.bell k := by
  unfold State.takeLocal
  extract_lets o
  split
  · simp
  · split
    · split <;> simp
    · split
      · simp
      · extract_lets st
        split <;> simp [State.reject]

/-- The same of a request for another device. -/
theorem sendRemote_bell (mb : MbId) (r : Request) (w : SlotWord) (dma : DmaInput) (k : MbId) :
    (s.sendRemote mb r w dma).bell k = s.bell k := by
  unfold State.sendRemote
  extract_lets o far no
  have hno : ∀ st : Half, (no st).bell k = s.bell k := fun st => by simp [no]
  split
  · exact hno _
  · split
    · exact hno _
    · split
      · exact hno _
      · split
        · exact hno _
        · split
          · simp
          · rw [sendFrame_bell]
            exact (lockTag_bell mb r.tag k).trans rfl

theorem popRequest_bell (mb : MbId) : (s.popRequest mb).1.bell mb = (s.mb[mb].reqPi, s.mb[mb].reqCi + 1) := by
  unfold State.popRequest
  extract_lets m w t
  have ht : t.bell mb = (s.mb[mb].reqPi, s.mb[mb].reqCi + 1) := by rw [State.bell, modMb_self]
  split
  · exact ht
  · exact ht

/-! The copy of a request (R45, R46). -/

theorem requestCopy_rests {mb : MbId} (h : s.isReady rdyMailboxes = false ∨ s.mb[mb].reqPi = s.mb[mb].reqCi) (dma : DmaInput) :
    exec (.mailboxRequestCopy mb dma) s = .next s := by
  refine congrArg Host.Outcome.next (if_pos (.inr ?_))
  rcases h with h | h
  · exact .inl (by rw [h]; rfl)
  · exact .inr (.inl h)

/-- What the copy of a request leaves, where a request is taken. -/
def copied (mb : MbId) (dma : DmaInput) (s : State) : State :=
  let p := (s.wakeFn distaffFn).popRequest mb
  if (requestOf p.2.1).remote && mb != 6 then p.1.sendRemote mb (requestOf p.2.1) p.2.1 dma else p.1.takeLocal mb (requestOf p.2.1) p.2.2 dma

theorem requestCopy_takes {mb : MbId} (hr : s.dist.st = .running) (hm : s.isReady rdyMailboxes = true) (hne : s.mb[mb].reqPi ≠ s.mb[mb].reqCi)
    (hf : s.mb[mb].full = false) (ht : turnOpen s mb = true) (dma : DmaInput) :
    exec (.mailboxRequestCopy mb dma) s = .next (copied mb dma s) :=
  congrArg Host.Outcome.next (if_neg (by
    rw [hr, hm, hf, ht]
    simp only [ne_eq, not_true_eq_false, Bool.not_true, Bool.false_eq_true, hne, or_self, not_false_eq_true]))

theorem copied_bell (mb : MbId) (dma : DmaInput) : (copied mb dma s).bell mb = (s.mb[mb].reqPi, s.mb[mb].reqCi + 1) := by
  have hpop : ((s.wakeFn distaffFn).popRequest mb).1.bell mb = (s.mb[mb].reqPi, s.mb[mb].reqCi + 1) := by
    rw [popRequest_bell, (wakeFn_onlyBanks distaffFn s).mb]
  unfold copied
  extract_lets p
  split
  · rw [sendRemote_bell, hpop]
  · rw [takeLocal_bell, hpop]

/-! Doorbells (R30, R44). -/

theorem reqPiWrite_up {mb : MbId} (h : s.host.pcieUp = true) (value : Word) : exec (.reqPiWrite mb value) s = .next (s.writeReqPi mb value) :=
  congrArg Host.Outcome.next (if_pos h)

theorem writeReqPi_early {mb : MbId} (hb : mb.val < 4) (h : s.isReady rdyMailboxes = false) (value : Word) :
    s.writeReqPi mb value = s.dbErr mb := by
  simp only [State.writeReqPi, h, Nat.not_le.mpr hb, if_false, Bool.not_false, if_true]

theorem writeReqPi_onward {mb : MbId} (hb : mb.val < 4) (h : s.isReady rdyMailboxes = true) {value : Word}
    (hfit : ((value.truncate 7 : BitVec 7) - s.mb[mb].reqCi).toNat ≤ 64 ∧
      (s.mb[mb].reqPi - s.mb[mb].reqCi).toNat ≤ ((value.truncate 7 : BitVec 7) - s.mb[mb].reqCi).toNat) :
    s.writeReqPi mb value = s.modMb mb fun m => { m with reqPi := value.truncate 7 } := by
  unfold State.writeReqPi
  rw [if_neg (Nat.not_le.mpr hb), if_neg (by simp [h])]
  exact if_pos hfit

end Sys2Proof.Machine

open Sys2Proof Sys2Proof.Machine

/-- Settles O9: a doorbell is `writeReqPi`, and neither way a copied request goes moves its mailbox's request indices again. -/
theorem aDoorbellBeforeTheMailboxesIsIgnored : Obligations.ADoorbellBeforeTheMailboxesIsIgnored := by
  refine ⟨fun mb value s hup hb hm => ?early, fun mb dma s h => requestCopy_rests h dma, fun mb value s hup hb hm hroom hon => ?onward,
    fun mb dma s hr hm hne hf ht => ?copy⟩
  case early =>
    rw [reqPiWrite_up hup, writeReqPi_early hb hm]
    rfl
  case onward =>
    rw [reqPiWrite_up hup, writeReqPi_onward hb hm ⟨hroom, hon⟩]
  case copy =>
    have hbell := copied_bell (s := s) mb dma
    exact ⟨copied mb dma s, requestCopy_takes hr hm hne hf ht dma, congrArg Prod.snd hbell, congrArg Prod.fst hbell⟩
end

section
/-! The family of bring-up, power and clocks: the phase of the response rings, and what the resets leave of them (R26, R47, R50). -/

namespace Sys2Proof.Machine

variable {s : State}

/-! Vectors, levels and ready bits leave the mailboxes and the strands. -/

theorem mbLevel_mb (mb : MbId) : (s.mbLevel mb).mb = s.mb := by
  obtain ⟨h, out, e, -⟩ := setLevel_frame (s := s) (mbSource mb) (rspLevel s.mb[mb])
  rw [State.mbLevel, e]

/-- A ready bit that changes changes the ready word, and at the host what vector 0 does (R28, R58). -/
theorem setReady_frame (s : State) (b : Fin 24) (v : Bool) : ∃ r h out, s.setReady b v = { s with pwr := { s.pwr with ready := r }, host := h, out := out } ∧
    h = { s.host with intStatus := h.intStatus, msixPending := h.msixPending } := by
  unfold State.setReady
  split
  · exact ⟨s.pwr.ready, s.host, s.out, rfl, rfl⟩
  · obtain ⟨h, out, e, hh⟩ := raise_frame (s := s.modPwr fun p => { p with ready := setBit p.ready b v }) 0
    exact ⟨_, h, out, e, hh⟩

theorem setReady_mb (b : Fin 24) (v : Bool) : (s.setReady b v).mb = s.mb := by
  obtain ⟨r, h, out, e, -⟩ := setReady_frame s b v
  rw [e]

theorem setReady_strands (b : Fin 24) (v : Bool) : (s.setReady b v).strands = s.strands := by
  obtain ⟨r, h, out, e, -⟩ := setReady_frame s b v
  rw [e]

theorem setReady_host (b : Fin 24) (v : Bool) : (s.setReady b v).host =
    { s.host with intStatus := (s.setReady b v).host.intStatus, msixPending := (s.setReady b v).host.msixPending } := by
  obtain ⟨r, h, out, e, hh⟩ := setReady_frame s b v
  rw [e]
  exact hh

theorem getLsbD_setBit {w : Nat} (v : BitVec w) {i : Nat} (hi : i < w) (b : Bool) (j : Nat) :
    (setBit v i b).getLsbD j = if j = i then b else v.getLsbD j := by
  have hone : (1#w <<< i).getLsbD j = decide (j = i) := by
    rw [← BitVec.twoPow_eq, BitVec.getLsbD_twoPow]
    simp only [hi, decide_true, Bool.true_and, eq_comm]
  cases b with
  | true =>
    rw [setBit, if_pos rfl, BitVec.getLsbD_or, hone]
    by_cases hj : j = i <;> simp [hj]
  | false =>
    rw [setBit, if_neg Bool.false_ne_true, BitVec.getLsbD_and, BitVec.getLsbD_not, hone]
    by_cases hj : j = i
    · simp [hj]
    · simpa [hj] using BitVec.lt_of_getLsbD

theorem raise_pwr (v : Nat) : (s.raise v).pwr = s.pwr := by
  obtain ⟨h, out, e, -⟩ := raise_frame (s := s) v
  rw [e]

theorem setReady_isReady (b : Fin 24) (v : Bool) (c : Fin 24) : (s.setReady b v).isReady c = if c = b then v else s.isReady c := by
  unfold State.setReady
  split
  next h =>
    split
    next hc => rw [hc, h]
    next => rfl
  next =>
    rw [State.isReady, raise_pwr]
    simp only [State.modPwr_pwr, getLsbD_setBit _ b.isLt, Fin.val_inj]
    rfl

/-! The slot a completion is written to (03_host_interface.md, R47). -/

/-- Bit `j` of byte `i` of little-endian bytes is bit `8 i + j` of their number (R62). -/
theorem leNat_testBit (bs : List Byte) (i : Nat) {j : Nat} (hj : j < 8) : (leNat bs).testBit (8 * i + j) = (bs.getD i 0).getLsbD j := by
  induction bs generalizing i with
  | nil => simp [leNat]
  | cons b bs ih =>
    have hsplit : leNat (b :: bs) = 2 ^ 8 * leNat bs + b.toNat := Nat.add_comm ..
    rw [hsplit, Nat.testBit_two_pow_mul_add _ b.isLt]
    cases i with
    | zero =>
      rw [if_pos (by omega), Nat.mul_zero, Nat.zero_add]
      rfl
    | succ i =>
      rw [if_neg (by omega), show 8 * (i + 1) + j - 8 = 8 * i + j by omega, ih]
      rfl

theorem rspSlot_phase (c : Cmpl) (phase : Bool) : (rspSlot c phase).getLsbD 31 = phase := by
  unfold rspSlot slotOf
  rw [BitVec.getLsbD_ofNat, show (31 : Nat) = 8 * 3 + 7 from rfl, leNat_testBit _ 3 (by decide)]
  have hflags : ∀ final reject phase : Bool, (BitVec.ofNat 8 (b2n final + 2 * b2n reject + 128 * b2n phase)).getLsbD 7 = phase := by decide
  exact hflags c.final c.reject phase

/-! The writing of a completion (R46, R47). -/

/-- The mailbox with its completion `c` in the slot at rsp_pi. -/
def Mailbox.wrote (m : Mailbox) (mb : MbId) (c : Cmpl) : Mailbox :=
  { m with
    pend := m.pend.erase c, order := if c.final then m.order.erase (c.tag, c.reject) else m.order
    rsp := m.rsp.set (Fin.ofNat 64 m.rspPi.toNat) (rspSlot c m.phase), rspPi := m.rspPi + 1
    phase := if (Fin.ofNat 64 m.rspPi.toNat : Fin 64) = 63 then !m.phase else m.phase
    held := if freesTag mb c then setBit m.held c.tag.val false else m.held }

theorem carry_host {mb : MbId} (h : mb.val < 4) (c : Cmpl) (w : SlotWord) : s.carry mb c w = s := by
  unfold State.carry
  split
  case h_4 => rfl
  all_goals omega

theorem afterCompletion_mb (h : s.dist.stopAfter = none) (mb : MbId) (c : Cmpl) : (s.afterCompletion mb c).mb = s.mb := by
  unfold State.afterCompletion
  extract_lets t
  have ht : t.mb = s.mb ∧ t.dist = s.dist := by
    simp only [t]
    split <;> exact ⟨rfl, rfl⟩
  obtain ⟨hmb, hdist⟩ := ht
  rw [hdist, h]
  exact hmb

/-- What the writing of a completion leaves (R46, R57, R58). -/
def State.completed (s : State) (mb : MbId) (c : Cmpl) : State :=
  let t := s.modMb mb fun m => m.wrote mb c
  let u := if c.final && c.irq then t.raise (2 + mb.val) else t
  ((u.mbLevel mb).carry mb c (rspSlot c s.mb[mb].phase)).afterCompletion mb c

theorem completionWrite_eq {mb : MbId} {c : Cmpl} (hn : nextCmpl s.mb[mb] = some c) (hf : s.mb[mb].full = false) :
    exec (.completionWrite mb) s = .next (s.completed mb c) := by
  change execCompletionWrite mb s = _
  simp only [execCompletionWrite, hn, hf, Bool.false_eq_true, if_false]
  rfl

/-- In MB0 to MB3, where the completion stops nothing, its writing changes of the mailboxes its own alone (R46, R47). -/
theorem completed_mb {mb : MbId} (hb : mb.val < 4) (hs : s.dist.stopAfter = none) (c : Cmpl) :
    (s.completed mb c).mb = s.mb.set mb (s.mb[mb].wrote mb c) := by
  unfold State.completed
  extract_lets t u
  have hu : u.mb = t.mb ∧ u.dist = s.dist := by
    simp only [u]
    split
    · obtain ⟨h, out, e, -⟩ := raise_frame (s := t) (2 + mb.val)
      rw [e]
      exact ⟨rfl, rfl⟩
    · exact ⟨rfl, rfl⟩
  obtain ⟨hmb, hdist⟩ := hu
  have hlevel : (u.mbLevel mb).dist.stopAfter = none := by
    rw [show (u.mbLevel mb).dist = u.dist from congrArg Ctl.dist (State.setLevel_ctl ..), hdist, hs]
  rw [carry_host hb, afterCompletion_mb hlevel, mbLevel_mb, hmb]
  rfl

theorem completed_slot {mb : MbId} (hb : mb.val < 4) (hs : s.dist.stopAfter = none) (c : Cmpl) :
    (((s.completed mb c).mb[mb]).rsp[(Fin.ofNat 64 s.mb[mb].rspPi.toNat)]).getLsbD 31 = s.mb[mb].phase := by
  have hslot : ((s.completed mb c).mb[mb]).rsp[(Fin.ofNat 64 s.mb[mb].rspPi.toNat)] = rspSlot c s.mb[mb].phase := by
    simp only [completed_mb hb hs, Fin.getElem_fin, Vector.getElem_set_self, Mailbox.wrote]
  rw [hslot, rspSlot_phase]

/-- The phase turns over with the last slot of a pass (R47). -/
theorem completed_phase {mb : MbId} (hb : mb.val < 4) (hs : s.dist.stopAfter = none) (c : Cmpl) :
    (s.completed mb c).mb[mb].phase = (s.mb[mb].phase ^^ decide (s.mb[mb].rspPi.toNat % 64 = 63)) := by
  have hlast : (Fin.ofNat 64 s.mb[mb].rspPi.toNat : Fin 64) = 63 ↔ s.mb[mb].rspPi.toNat % 64 = 63 := Fin.ext_iff
  have hwrote : (s.completed mb c).mb[mb] = s.mb[mb].wrote mb c := by
    simp only [completed_mb hb hs, Fin.getElem_fin, Vector.getElem_set_self]
  rw [hwrote, Mailbox.wrote]
  dsimp only
  rw [if_congr hlast rfl rfl]
  split
  next h => simp only [h, decide_true, Bool.xor_true]
  next h => simp only [h, decide_false, Bool.xor_false]

/-! The resets (R26, R369). -/

theorem reset_mb (m : MbId) : State.reset.mb[m] = Mailbox.reset := Vector.getElem_replicate m.isLt

/-- A complete reset empties every ring and starts it in phase 1 (R26, R47). -/
theorem rings_of_completeReset {t : State} (h : t.mb = s.completeReset.mb) (m : MbId) : t.mb[m].phase = true ∧ t.mb[m].rspPi = 0 := by
  have hm : t.mb[m] = Mailbox.reset := by
    rw [h]
    exact reset_mb m
  rw [hm]
  exact ⟨rfl, rfl⟩

/-- A device held in reset runs no engine. -/
theorem holdReset_halts (e : EngineId) : s.holdReset.engines[e].run = .halted := by
  simp [State.holdReset]

end Sys2Proof.Machine

open Sys2Proof Sys2Proof.Machine

/-- Settles O12: a reset puts the reset record in every mailbox, and a completion is written into its own alone. -/
theorem phaseStartsAtOneAndTurnsEachPass : Obligations.PhaseStartsAtOneAndTurnsEachPass := by
  refine ⟨fun m => congrArg Mailbox.phase (reset_mb m), fun rail s => ?power, fun s => ?reset, fun s h => ?release, fun s hh hc => ?free,
    fun s => ?perst, fun mb c s hb hs hn hf => ?write⟩
  case power =>
    exact ⟨_, rfl, rfl, setBit_true_self _ rail.isLt, holdReset_halts, rings_of_completeReset (s := s) rfl⟩
  case reset =>
    exact ⟨_, rfl, rfl, rfl, holdReset_halts, rings_of_completeReset (s := s) rfl⟩
  case release =>
    exact ⟨s.completeReset, congrArg Host.Outcome.next (if_pos (by simpa using h)), rfl, rfl, rfl, rings_of_completeReset (s := s) rfl⟩
  case free =>
    exact congrArg Host.Outcome.next (if_neg (by simp [hh, hc]))
  case perst =>
    refine ⟨_, rfl, ?_, ?_, ?_, setReady_mb .., setReady_strands ..⟩
    · rw [setReady_host]; rfl
    · rw [setReady_host]; rfl
    · rw [setReady_isReady, if_pos rfl]
  case write =>
    exact ⟨s.completed mb c, completionWrite_eq hn hf, completed_slot hb hs c, completed_phase hb hs c⟩
end

section
/-! The family of bring-up, power and clocks: the reads that clear what they read or write their descriptor's buffer (R40, R65,
R129, R311, R332). -/

namespace Sys2Proof.Machine

variable {s t : State}

/-- The write of a descriptor's buffer leaves the distaff as it was (R65). -/
theorem writeDesc_ctl {d : Desc} {off : Nat} {bs : List Byte} (h : writeDesc s d off bs = .ok t) : t.ctl = s.ctl := by
  unfold writeDesc at h
  split at h
  · split at h
    · cases h; rfl
    · cases h
  · split at h
    · cases h
    · split at h
      · cases h; rfl
      · cases h

/-- Holding a tag touches neither the safety islands nor what the MRAM holds. -/
theorem holdTag_saf (mb : MbId) (tag : Fin 32) : (s.holdTag mb tag).saf = s.saf := rfl

theorem holdTag_rec (mb : MbId) (tag : Fin 32) : (s.holdTag mb tag).rec_ = s.rec_ := rfl

end Sys2Proof.Machine

open Sys2Proof Sys2Proof.Machine

/-- Settles O15: each read is its body on the state that holds its tag, and no body touches what the distaff owes. -/
theorem readsThatClearOrWriteTheirBuffer : Obligations.ReadsThatClearOrWriteTheirBuffer := by
  refine ⟨fun o s h => ?counters, fun o s h => runShort_ends h rfl rfl, fun o strand s h => ?strand, fun o s h => ?diag,
    fun o desc s t h hw => ?safety, fun o desc s t h hw => ?changes, fun o desc s t h hw => ?cal⟩
  case counters =>
    refine runShort_ends h rfl ?_
    rw [foldl_ctl (fun _ _ => State.modPort_ctl ..), State.modSeq_ctl_dist]
  case strand =>
    refine runShort_ends h rfl (congrArg Ctl.dist ?_)
    rw [State.tick_ctl]
    split
    · exact State.modSkein_ctl ..
    · rfl
  case diag => exact runShort_ends h rfl (congrArg Ctl.dist (State.fioUpdate_ctl ..))
  case safety => exact runShort_ends h (by simp only [holdTag_saf, hw]) (congrArg Ctl.dist (writeDesc_ctl hw))
  case changes => exact runShort_ends h (by simp only [holdTag_saf, hw]) (congrArg Ctl.dist (writeDesc_ctl hw))
  case cal => exact runShort_ends h (by simp only [holdTag_rec, hw]) (congrArg Ctl.dist (writeDesc_ctl hw))
end

section
/-! The family of bring-up, power and clocks: the system and power commands (R26, R31, R34, R36, R53, R57, R73). -/

namespace Sys2Proof.Machine

variable {s : State}

/-! What the power states and the islands' evaluation leave of the distaff and the sequencer. -/

/-- From `s` to `t` nothing but the islands, the quads and the strands has changed. -/
def OnlyGates (s t : State) : Prop := ∃ f q x, t = { s with saf := f, quads := q, strands := x }

theorem OnlyGates.trans {t u : State} (h : OnlyGates s t) (k : OnlyGates t u) : OnlyGates s u := by
  obtain ⟨f, q, x, rfl⟩ := h
  obtain ⟨f', q', x', rfl⟩ := k
  exact ⟨f', q', x', rfl⟩

theorem OnlyGates.foldl {α : Type} {f : State → α → State} (h : ∀ t a, OnlyGates t (f t a)) (l : List α) (s : State) :
    OnlyGates s (l.foldl f s) := by
  induction l generalizing s with
  | nil => exact ⟨s.saf, s.quads, s.strands, rfl⟩
  | cons a l ih => exact (h s a).trans (ih (f s a))

theorem modIsle_onlyGates (x : Island) (f : IslandState → IslandState) (s : State) : OnlyGates s (s.modIsle x f) :=
  ⟨_, s.quads, s.strands, rfl⟩

theorem gatesFall_onlyGates (q : QuadId) (s : State) : OnlyGates s (s.gatesFall q) :=
  .foldl (fun t _ => ⟨t.saf, t.quads, _, rfl⟩) _ s

/-- The islands' evaluation changes their outputs, the gates of the quads and what the strands owe them (R299). -/
theorem evaluate_onlyGates (s : State) : OnlyGates s s.evaluate := by
  unfold State.evaluate
  extract_lets wa wb hold fa fb common ga gb t u
  have hu : OnlyGates s u := (modIsle_onlyGates .a _ s).trans (modIsle_onlyGates .b _ t)
  refine hu.trans (.foldl (fun v q => ?_) _ u)
  have hquad : ∀ f, OnlyGates v (v.modQuad q f) := fun f => ⟨v.saf, _, v.strands, rfl⟩
  dsimp only
  split
  · exact ⟨v.saf, v.quads, v.strands, rfl⟩
  · split
    · exact hquad _
    · exact (hquad _).trans (gatesFall_onlyGates q _)

theorem State.evaluate_ctl : s.evaluate.ctl = s.ctl := by
  obtain ⟨f, q, x, e⟩ := evaluate_onlyGates s
  rw [e]
  rfl

theorem State.enterPwr_ctl (f : Half) (st : PwrState) : (s.enterPwr f st).ctl = s.ctl := by
  unfold State.enterPwr
  extract_lets was t
  split
  · split <;> rfl
  · rfl

/-- Functions that enter power states, each the one its state gives. -/
theorem enterAll_ctl (st : State → Half → PwrState) (l : List Half) : (l.foldl (fun s f => s.enterPwr f (st s f)) s).ctl = s.ctl :=
  foldl_ctl (fun t f => State.enterPwr_ctl f (st t f)) l s

theorem State.wakeAll_ctl : s.wakeAll.ctl = s.ctl := by
  refine foldl_ctl (fun t f => ?_) _ s
  split
  · split
    · rfl
    · exact State.wakeFn_ctl t f
  · exact State.wakeFn_ctl t f

theorem State.losesSources_ctl (t : State) : (s.losesSources t).ctl = t.ctl := State.raiseCauses_ctl ..

/-- DORMANT has the distaff stop after its completion; nothing else of the distaff changes (R36). -/
theorem goDormant_dist (o : Origin) : (s.goDormant o).dist = { s.dist with stopAfter := some (o.mb, o.tag, .restarting) } := by
  unfold State.goDormant
  extract_lets s1 s2 s3 s4 s5 s6 s7
  have h2 : s2.ctl = s1.ctl := State.evaluate_ctl.trans (State.modPwr_ctl ..)
  have h3 : s3.ctl = s2.ctl := by
    refine foldl_ctl (fun t p => ?_) _ s2
    split
    · exact State.portDown_ctl t p
    · rfl
  have h7 : s7.ctl = s.ctl := by
    calc s7.ctl = s6.ctl := by
          refine (State.losesSources_ctl _).trans (foldl_ctl (fun t b => ?_) _ s6)
          split
          · rfl
          · exact State.setReady_ctl t b false
      _ = s5.ctl := State.modPwr_ctl ..
      _ = s4.ctl := enterAll_ctl dormantState allFunctions
      _ = s3.ctl := State.modLink_ctl ..
      _ = s1.ctl := h3.trans h2
      _ = s.ctl := State.modFio_ctl ..
  exact congrArg (fun c : Ctl => { c.dist with stopAfter := some (o.mb, o.tag, .restarting) }) h7

theorem setMark_ctl (source : Byte) (mark hyst : Word) : (setMark source mark hyst s).ctl = s.ctl := by
  simp [setMark]

theorem setTolerance_ctl (function : Half) (ns : Word) : (setTolerance function ns s).ctl = s.ctl := by
  unfold setTolerance
  split
  · rfl
  · simp

theorem runDeviceState_moving {o : Origin} {state : Byte} (h : state ≠ 0) (hm : anyMoving (armedView s) = true) :
    runDeviceState o state s = refuse s stRefused :=
  if_pos (by rw [hm, bne_iff_ne.mpr h]; rfl)

theorem runDeviceState_still {o : Origin} {state : Byte} (hm : anyMoving (armedView s) = false) :
    runDeviceState o state s =
      if state = 0 then ((s.modPwr fun p => { p with dev := .run }).wakeAll, stOk, [])
      else if state = 1 then
        (allFunctions.foldl (fun s f => s.enterPwr f (standbyState f)) (s.modPwr fun p => { p with dev := .standby }), stOk, [])
      else (s.goDormant o, stOk, []) :=
  if_neg (by rw [hm, Bool.and_false]; exact Bool.false_ne_true)

/-- A served S-class command whose body answers with a state that owes what stood before ends there. -/
theorem runShort_ends_owing {i : Instr} {o : Origin} (h : Served i o s) {body : State → CmdResult} {t : State} {st : Half} {res : List Byte}
    (hbody : body (s.holdTag o.mb o.tag) = (t, st, res)) (hd : t.dist.owed = s.dist.owed) :
    (Host.Outcome.next (runShort i o body s) : Answer) = .next (t.ended i o st res) := by
  have howed : s.owedFor i = none := by
    obtain ⟨-, -, -, -, -, -, -, -, howed⟩ := h
    exact howed
  have hb : (body (s.holdTag o.mb o.tag)).1.owedFor i = none := by
    rw [hbody, State.owedFor, hd]
    exact howed
  rw [runShort_served h body hb, hbody]

end Sys2Proof.Machine

open Sys2Proof Sys2Proof.Machine

/-- Settles O16: each command is its body on the state that holds its tag, and no body touches what the distaff owes. -/
theorem systemAndPowerCommandsAct : Obligations.SystemAndPowerCommandsAct := by
  refine ⟨fun o flags s h => ?reset, fun o s h => runShort_ends_owing h rfl rfl, fun o s h => ?switch,
    fun o pri0 pri1 pri2 revert s h => runShort_ends h rfl rfl,
    fun o source mark hyst s h => runShort_ends h rfl (congrArg Ctl.dist (setMark_ctl ..)),
    fun o function ns s h => runShort_ends h rfl (congrArg Ctl.dist (setTolerance_ctl ..)),
    fun o s h => runShort_ends h rfl (congrArg Ctl.dist State.wakeAll_ctl), fun o s h hm => ?standby, fun o s h hm => ?dormant,
    fun o state s h hz hm => runShort_refuses h (runDeviceState_moving hz hm)⟩
  case reset =>
    split
    next hm => exact runShort_refuses h (if_pos hm)
    next hm => exact runShort_ends h (if_neg hm) rfl
  case switch =>
    split
    next hf => exact runShort_ends_owing h (if_pos (Bool.and_eq_true_iff.mpr hf)) rfl
    next hf => exact runShort_refuses h (if_neg (mt Bool.and_eq_true_iff.mp hf))
  case standby =>
    refine runShort_ends h (runDeviceState_still hm) (congrArg Ctl.dist ?_)
    exact enterAll_ctl (fun _ f => standbyState f) allFunctions
  case dormant =>
    have howed := congrArg Distaff.owed (goDormant_dist (s := s.holdTag o.mb o.tag) o)
    exact runShort_ends_owing h (runDeviceState_still hm) howed
end

section
/-! The family of bring-up, power and clocks: the steps of the long operations (R39, R51, R75, R111, R212, R227, R286). -/

namespace Sys2Proof.Machine

variable {s t : State} {mb : MbId} {tag : Fin 32} {x : StepInput} {g : LongOp} {o : Origin}

/-! Whose turn it is (R51). -/

theorem longStep_absent (h : longAt s mb tag = none) : exec (.longOperationStep mb tag x) s = .next s := by
  refine congrArg Host.Outcome.next ?_
  split
  · rfl
  · rw [h]

theorem longStep_notItsTurn (h : longAt s mb tag = some (g, o))
    (hturn : s.dist.longs.head? ≠ some g ∨ (s.dist.stepped = true ∧ shortWaits s = true)) :
    exec (.longOperationStep mb tag x) s = .next s := by
  refine congrArg Host.Outcome.next ?_
  split
  · rfl
  next hrest =>
    rw [h]
    exact if_neg (hturn.resolve_right fun k => hrest (.inr k))

theorem longStep_turn (h : MayStep mb tag g o s) : exec (.longOperationStep mb tag x) s = .next (s.stepLong g o x) := by
  obtain ⟨hrun, hshort, hat, hhead⟩ := h
  refine congrArg Host.Outcome.next ?_
  have hgo : ¬(s.dist.st ≠ .running ∨ (s.dist.stepped = true ∧ shortWaits s = true)) := by
    rintro (hst | ⟨hstepped, hwaits⟩)
    · exact hst hrun
    · rcases hshort with h | h
      · exact Bool.false_ne_true (h ▸ hstepped)
      · exact Bool.false_ne_true (h ▸ hwaits)
  rw [if_neg hgo, hat]
  exact if_pos hhead

/-! What a step comes to (R51). -/

theorem stepLong_goes (hc : g.cancel = false) {phase progress : Nat} (h : longStep g x s = .goOn t phase progress) :
    s.stepLong g o x =
      if x.report = true ∨ reportDue t g = true then
        (t.modDist (nextTurn g { g with phase := phase, progress := progress, told := t.time.dev })).report g.cmd o progress
      else t.modDist (nextTurn g { g with phase := phase, progress := progress }) := by
  unfold State.stepLong
  rw [if_neg (by simp [hc]), h]
  dsimp only
  by_cases htells : x.report = true ∨ reportDue t g = true
  · rw [if_pos htells]
    simp only [Bool.or_eq_true_iff.mpr htells, if_true]
  · rw [if_neg htells]
    simp only [Bool.eq_false_iff.mpr (mt Bool.or_eq_true_iff.mp htells), Bool.false_eq_true, if_false]

theorem longStep_ends (hm : MayStep mb tag g o s) (hc : g.cancel = false) {res : List Byte} (h : longStep g x s = .ends t stOk res) :
    exec (.longOperationStep mb tag x) s = .next ((t.endLong g).finish g.cmd o stOk res) := by
  rw [longStep_turn hm, State.stepLong, if_neg (by simp [hc]), h]
  rfl

/-! The last steps. -/

theorem modCam_self (i : Fin 64) (f : CamTable → CamTable) : (s.modCam i f).cams[i] = f s.cams[i] := Vector.getElem_set_self ..

theorem modCam_other {i j : Fin 64} (h : j ≠ i) (f : CamTable → CamTable) : (s.modCam i f).cams[j] = s.cams[j] :=
  Vector.getElem_set_ne i.isLt j.isLt fun e => h (Fin.ext e.symm)

/-- What the last step of a CAM_LOAD leaves (R113). -/
def camLoaded (table : Half) (points : Word) (d : Desc) (s : State) : State :=
  (s.freeChain s.cams[camIx table].chainShadow).modCam (camIx table) fun c => { c with
    shadow := (camBuf? (Desc.bytes d) points.toNat).map CamBuf.head, complete := true, chainShadow := c.chainNew, chainNew := [] }

theorem stepCamLoad_last {table : Half} {points : Word} {d : Desc} {k : Nat} (hp : points.toNat ≤ (k + 1) * 512) :
    stepCamLoad table points d (k + 1) s = .ends (camLoaded table points d s) stOk [] := by
  unfold stepCamLoad
  extract_lets i n
  dsimp only
  rw [if_neg (show ¬(k + 1) * stepPoints < n from Nat.not_lt.mpr hp)]
  rfl

theorem camLoaded_table (table : Half) (points : Word) (d : Desc) : (camLoaded table points d s).cams[camIx table] =
    { s.cams[camIx table] with
      shadow := (camBuf? (Desc.bytes d) points.toNat).map CamBuf.head, complete := true, chainShadow := s.cams[camIx table].chainNew
      chainNew := [] } := by
  rw [camLoaded, modCam_self, (freeChain_onlyBanks _ s).cams]

theorem camLoaded_others {table : Half} {j : Fin 64} (h : j ≠ camIx table) (points : Word) (d : Desc) :
    (camLoaded table points d s).cams[j] = s.cams[j] := by
  rw [camLoaded, modCam_other h, (freeChain_onlyBanks _ s).cams]

theorem stepFlyerLoad_stores {program : Byte} {d : Desc} {sig : Bool} {im : FlyerImage} {phase : Nat} (hp : 0 < phase)
    (hi : flyerImage? (Desc.bytes d) = some im) (ha : policyAdmits s.saf.cfg im sig = true) :
    stepFlyerLoad program d sig phase s = .ends { s with progs := s.progs.set (Fin.ofNat 16 program.toNat) (some im) } stOk [] := by
  obtain ⟨k, rfl⟩ := Nat.exists_eq_succ_of_ne_zero hp.ne'
  unfold stepFlyerLoad
  rw [show flyerImage? (d.data.getD []) = some im from hi]
  exact if_pos ha

theorem stepMemWrite_whole {address : Word} {d : Desc} (hl : d.len.toNat ≤ stepBytes) (ecc : List EccErr) (portA : List Nat) :
    stepMemWrite address d 0 ecc portA s =
      .ends (s.mergeWrite address.toNat (slice (Desc.bytes d) 0 d.len.toNat) ecc portA reqDistaff) stOk [] := by
  have hn : min stepBytes (d.len.toNat - 0) = d.len.toNat := by omega
  rw [stepMemWrite, hn]
  exact if_pos (Nat.zero_add _)

theorem stepFwWrite_passes {image : Byte} {offset : Word} {last : Byte} {d : Desc} {phase : Nat} (hl : last ≠ 0)
    (hp : (Desc.bytes d).length ≤ phase) (hi : (image == 1) ≠ s.dist.image) :
    stepFwWrite image offset last d true phase s = .ends (s.modRec (passImage (fwIx image))) stOk [] := by
  unfold stepFwWrite
  extract_lets i bs
  rw [if_neg hi, if_neg (show ¬phase < bs.length from Nat.not_lt.mpr hp), if_neg hl, if_pos rfl]

theorem passImage_image (i : Fin 2) (r : Recovery) : (passImage i r).fw[i] =
    { r.fw[i] with rel := Config.fwRelease (imageBytes r.fw[i].bytes), valid := true, verified := true } := Vector.getElem_set_self ..

/-- What the second step of a CAL_WRITE leaves (R39). -/
def calWritten (d : Desc) (s : State) : State :=
  ((s.modRec fun r => { r with
    calPage := stepCalWrite.putImageAt (Desc.bytes d), calUser := true, calDate := Config.calDate (s.key 200) }).tick).mramWrite 0xE00000 1

theorem stepCalWrite_second {d : Desc} {phase : Nat} (hp : 0 < phase) : stepCalWrite d phase s = .ends (calWritten d s) stOk [] :=
  if_neg hp.ne'

theorem stepSelfTest_second {f : Half} {level : Byte} {phase : Nat} (hp : 0 < phase) (pass : Bool) :
    stepSelfTest f level phase pass s = .ends (s.service f true) stOk (Config.layout 0x9020 [f.toNat, level.toNat, b2n pass]) :=
  if_neg hp.ne'

/-! What the wear of the MRAM leaves of it (R287). -/

theorem wearBlock_calUser (b : Nat) (r : Recovery) : (wearBlock b r).1.calUser = r.calUser := by
  unfold wearBlock
  extract_lets n
  split
  · rfl
  · split <;> rfl

/-- A notice to the host leaves the record of the MRAM as its update made it. -/
theorem noticed_rec (f : Recovery → Recovery) (n : Nat) : (((s.modRec f).raise 18).setLevel 24 n).rec_ = f s.rec_ := by
  obtain ⟨h, out, e, -⟩ := raise_frame (s := s.modRec f) 18
  obtain ⟨h', out', e', -⟩ := setLevel_frame (s := (s.modRec f).raise 18) 24 n
  rw [e', e]
  rfl

theorem putRec_calUser (cls cause inst detail : Nat) (context : List Int) (flags : Nat) :
    (s.putRec cls cause inst detail context flags).rec_.calUser = s.rec_.calUser := by
  rw [State.putRec, noticed_rec]

theorem wearOne_calUser (k : Nat) (s : State) (b : Nat) : (s.wearOne b k).rec_.calUser = s.rec_.calUser := by
  induction k generalizing s b with
  | zero => exact wearBlock_calUser b s.rec_
  | succ k ih =>
    have hblock := wearBlock_calUser b s.rec_
    unfold State.wearOne
    extract_lets spares
    split
    next r worn hr =>
    rw [hr] at hblock
    extract_lets t
    split
    · rw [ih, State.logWorn, putRec_calUser]
      exact hblock
    · exact hblock

theorem mramWrite_calUser (off n : Nat) : (s.mramWrite off n).rec_.calUser = s.rec_.calUser := by
  have hrange : ∀ (k : Nat) (s : State) (lo : Nat), (s.wearRange lo k).rec_.calUser = s.rec_.calUser := by
    intro k
    induction k with
    | zero => exact fun _ _ => rfl
    | succ k ih => exact fun s lo => (ih ..).trans (wearOne_calUser ..)
  exact hrange ..

theorem calWritten_user (d : Desc) : (calWritten d s).rec_.calUser = true := by rw [calWritten, mramWrite_calUser]; rfl

/-- The second step of a CAL_WRITE changes the record of the MRAM alone, and at the host what a worn block raises (log entry 76). -/
theorem calWritten_frame (d : Desc) : ∃ h out r, calWritten d s = { s with host := h, out := out, rec_ := r, free := s.free + 1 } := by
  obtain ⟨h, out, r, e⟩ := State.wearRange_frame ((0xE00000 + 1 + 4095) / 4096 - 0xE00000 / 4096) ((s.modRec fun r => { r with
    calPage := stepCalWrite.putImageAt (Desc.bytes d), calUser := true, calDate := Config.calDate (s.key 200) }).tick) (0xE00000 / 4096)
  exact ⟨h, out, r, e⟩

end Sys2Proof.Machine

open Sys2Proof Sys2Proof.Machine

/-- Settles O33: a step in its turn is `stepLong`, and the last step of each operation is the equation of its own step function. -/
theorem longOperationsStepToTheirEnd : Obligations.LongOperationsStepToTheirEnd := by
  refine ⟨fun mb tag x s h => longStep_absent h, fun mb tag x g o s t phase progress hm hc h => ?goesOn,
    fun mb tag x g o s h hturn => longStep_notItsTurn h hturn, fun mb tag x g o table points d k s hm hc hg hp hn => ?camLoad,
    fun mb tag x g o program d sig im s hm hc hg hp hi ha => ?flyerLoad, fun mb tag x g o address d s hm hc hg hp hl => ?memWrite,
    fun mb tag x g o image offset last d s hm hc hg hl hp hi => ?fwWrite, fun mb tag x g o d s hm hc hg hp => ?calWrite,
    fun mb tag x g o f level s hm hc hg hp => ?selfTest⟩
  case goesOn => rw [longStep_turn hm, stepLong_goes hc h]
  case camLoad =>
    refine ⟨camLoaded table points d s, longStep_ends hm hc ?_, ?_, ?_, ?_, ?_, fun j hj => camLoaded_others hj points d⟩
    · rw [longStep, hg, hp]
      exact stepCamLoad_last hn
    all_goals rw [camLoaded_table]
  case flyerLoad =>
    refine longStep_ends hm hc ?_
    rw [longStep, hg]
    exact stepFlyerLoad_stores hp hi ha
  case memWrite =>
    refine longStep_ends hm hc ?_
    rw [longStep, hg, hp]
    exact stepMemWrite_whole hl x.ecc x.portA
  case fwWrite =>
    refine ⟨s.modRec (passImage (fwIx image)), longStep_ends hm hc ?_, ?_⟩
    · rw [longStep, hg]
      exact stepFwWrite_passes hl hp hi
    · rw [State.modRec_rec_, passImage_image]
      exact ⟨rfl, rfl, rfl⟩
  case calWrite =>
    obtain ⟨h, out, r, e⟩ := calWritten_frame (s := s) d
    refine ⟨calWritten d s, longStep_ends hm hc ?_, calWritten_user d, ?_⟩
    · rw [longStep, hg]
      exact stepCalWrite_second hp
    · rw [e]
      exact ⟨rfl, rfl, rfl⟩
  case selfTest =>
    refine longStep_ends hm hc ?_
    rw [longStep, hg]
    exact stepSelfTest_second hp x.pass
end

section
/-! The family of bring-up, power and clocks: clocks, the keeper vote, power states, restarts and ready bits (R27, R28, R31 to R37,
R53, R73). -/

namespace Sys2Proof.Machine

variable {s : State}

/-! The reference sources (R31, R32). -/

theorem setGood_active (src : BitVec 2) (v : Bool) (c : Clock) : (setGood src v c).active = c.active := by
  unfold setGood
  split
  · rfl
  · split
    · rfl
    · split <;> rfl

/-- The selection changes the source in use and the holdover; which sources are good and listed stays. -/
theorem selectSource_frame (c : Clock) : ∃ a h, selectSource c = { c with active := a, holdover := h } := by
  unfold selectSource
  split
  · exact ⟨c.active, false, rfl⟩
  · split
    · exact ⟨_, false, rfl⟩
    · exact ⟨c.active, true, rfl⟩

theorem selectSource_listed (c : Clock) :
    [(selectSource c).pri0, (selectSource c).pri1, (selectSource c).pri2] = [c.pri0, c.pri1, c.pri2] := by
  obtain ⟨a, h, e⟩ := selectSource_frame c
  rw [e]

theorem selectSource_good (c : Clock) (x : BitVec 2) : sourceGood (selectSource c) x = sourceGood c x := by
  obtain ⟨a, h, e⟩ := selectSource_frame c
  rw [e]
  rfl

/-- With a good source listed the PLL runs on a good one, out of holdover (R31). -/
theorem selectSource_locks {c : Clock} (h : ∃ x : BitVec 2, x ∈ [c.pri0, c.pri1, c.pri2] ∧ sourceGood c x = true) :
    (selectSource c).holdover = false ∧ sourceGood c (selectSource c).active = true := by
  unfold selectSource
  split
  next hkeeps =>
    exact ⟨rfl, (Bool.and_eq_true_iff.mp hkeeps).1⟩
  next =>
    split
    next x hx => exact ⟨rfl, List.find?_some hx⟩
    next hnone =>
      obtain ⟨x, hmem, hgood⟩ := h
      exact absurd hgood (List.find?_eq_none.mp hnone x hmem)

/-- With none the PLL holds over where it is (R32). -/
theorem selectSource_holds {c : Clock} (h : ∀ x : BitVec 2, x ∈ [c.pri0, c.pri1, c.pri2] → sourceGood c x = false) :
    (selectSource c).holdover = true ∧ (selectSource c).active = c.active := by
  have hbest : bestSource c = none := List.find?_eq_none.mpr fun x hx => by simp [h x hx]
  have hkeep : ¬(sourceGood c c.active && [c.pri0, c.pri1, c.pri2].contains c.active) = true := by
    rintro hk
    obtain ⟨hgood, hmem⟩ := Bool.and_eq_true_iff.mp hk
    exact Bool.false_ne_true ((h _ (List.contains_iff_mem.mp hmem)).symm.trans hgood)
  rw [selectSource, if_neg hkeep, hbest]
  exact ⟨rfl, rfl⟩

theorem selectSource_setGood (src : BitVec 2) (v : Bool) (c : Clock) :
    (src = 0 → (selectSource (setGood src v c)).goodA = v) ∧ (src = 1 → (selectSource (setGood src v c)).goodB = v) ∧
      (src = 2 → (selectSource (setGood src v c)).goodLink = v) := by
  obtain ⟨a, h, e⟩ := selectSource_frame (setGood src v c)
  rw [e]
  refine ⟨?_, ?_, ?_⟩ <;> rintro rfl <;> rfl

theorem refclkRevert_takes {x : BitVec 2} (hr : s.clk.revert = true) (hh : s.clk.holdover = false)
    (hx : [s.clk.pri0, s.clk.pri1, s.clk.pri2].find? (sourceGood s.clk) = some x) :
    exec .refclkRevert s = .next (s.modClk fun c => { c with active := x }) := by
  refine congrArg (fun c => Host.Outcome.next { s with clk := c }) ?_
  dsimp only
  rw [if_pos (by simp [hr, hh]), bestSource, hx]
  rfl

theorem refclkRevert_rests (h : s.clk.revert = false ∨ s.clk.holdover = true) : exec .refclkRevert s = .next s := by
  refine congrArg (fun c => Host.Outcome.next { s with clk := c }) (if_neg ?_)
  rcases h with h | h <;> simp [h]

/-! The keeper vote (R33). -/

theorem nearReference_within {n : Nat} (hlo : 1987 ≤ n) (hhi : n ≤ 2109) : nearReference n = true := by
  simp [nearReference, hlo, hhi]

theorem nearReference_below {n : Nat} (h : n < 1987) : nearReference n = false := by
  simp [nearReference, Nat.not_le.mpr h]

theorem nearReference_above {n : Nat} (h : 2109 < n) : nearReference n = false := by
  simp [nearReference, Nat.not_le.mpr h]

/-- Two counts differ where the higher is more than 3% above the lower. -/
theorem countsAgree_apart {a b : Nat} (h : 100 * a < 97 * b) : countsAgree a b = false := by
  have hab : (a : Int) < b := by omega
  rw [countsAgree, decide_eq_false_iff_not, max_eq_right hab.le, abs_of_neg (by omega)]
  omega

theorem keeperVote_near {a b : Nat} (ha : nearReference a = true) (hb : nearReference b = true) :
    exec (.keeperVote a b) s = .next (s.modClk fun c => { c with badC := 0, badF := 0, badRef := 0 }) := by
  change execKeeperVote a b s = _
  simp [execKeeperVote, ha, hb, votes]

theorem keeperVote_alone {a b : Nat} (ha : nearReference a = false) (hb : nearReference b = false) (hab : countsAgree a b = false)
    (hc : s.clk.badC = 0) (hf : s.clk.badF = 0) : exec (.keeperVote a b) s =
      .next (((s.modClk fun c => { c with badC := 1, badF := 1, badRef := s.clk.badRef + 1 }).commonFault 2 0).referenceFails) := by
  change execKeeperVote a b s = _
  simp [execKeeperVote, ha, hb, hab, hc, hf, votes]

theorem keeperVote_secondC {a b : Nat} (ha : nearReference a = false) (hb : nearReference b = true) (hab : countsAgree a b = false)
    (hc : s.clk.badC = 1) (hk : s.clk.keeperCFault = false) : exec (.keeperVote a b) s =
      .next ((s.modClk fun c => { c with badC := 2, badF := 0, badRef := 0 }).keeperFails true) := by
  change execKeeperVote a b s = _
  simp [execKeeperVote, ha, hb, hab, hc, hk, votes]

/-! What an island fault leaves of the clocks and the ready bits (R305). -/

/-- The clocks and the power states with the ready words. -/
def State.clkPwr (s : State) : Clock × Power := (s.clk, s.pwr)

theorem raise_clkPwr (v : Nat) : (s.raise v).clkPwr = s.clkPwr := by
  obtain ⟨h, out, e, -⟩ := raise_frame (s := s) v
  rw [e]
  rfl

theorem evaluate_clkPwr : s.evaluate.clkPwr = s.clkPwr := by
  obtain ⟨f, q, x, e⟩ := evaluate_onlyGates s
  rw [e]
  rfl

theorem safetyEvent_clkPwr (service : Bool) (cause inst detail : Nat) : (s.safetyEvent service cause inst detail).clkPwr = s.clkPwr := by
  obtain ⟨h, out, r, e⟩ := s.logRec_frame 6 cause inst detail [] (b2n service)
  rw [State.safetyEvent, raise_clkPwr, e]
  rfl

theorem commonFault_clkPwr (cause detail : Nat) : (s.commonFault cause detail).clkPwr = s.clkPwr := by
  rw [State.commonFault, evaluate_clkPwr, safetyEvent_clkPwr]
  rfl

theorem safelightEntry_clkPwr (service : Bool) (cause detail : Nat) : (s.safelightEntry service cause detail).clkPwr = s.clkPwr := by
  unfold State.safelightEntry
  extract_lets lim on
  split
  · exact commonFault_clkPwr cause detail
  · rw [evaluate_clkPwr, safetyEvent_clkPwr]
    rfl

theorem setReady_clk (b : Fin 24) (v : Bool) : (s.setReady b v).clk = s.clk := by
  obtain ⟨r, h, out, e, -⟩ := setReady_frame s b v
  rw [e]

theorem islandFault_clk (x : Island) (cause : Nat) : (s.islandFault x cause).clk = s.clk := by
  unfold State.islandFault
  split
  · rfl
  · refine (congrArg Prod.fst (safelightEntry_clkPwr ..)).trans ?_
    rw [State.clkPwr, setReady_clk, setReady_clk]
    rfl

/-- An island that fails takes back its own bit and the safety bit alone. -/
theorem islandFault_isReady (x : Island) (cause : Nat) {b : Fin 24} (ha : b ≠ rdySafA) (hb : b ≠ rdySafB) (hs : b ≠ rdySafety) :
    (s.islandFault x cause).isReady b = s.isReady b := by
  have hx : b ≠ (if x = .a then rdySafA else rdySafB) := by split <;> assumption
  unfold State.islandFault
  split
  · rfl
  · refine (congrArg (fun p : Clock × Power => p.2.ready.getLsbD b) (safelightEntry_clkPwr ..)).trans ?_
    refine (setReady_isReady _ _ b).trans ?_
    rw [if_neg hs, setReady_isReady, if_neg hx]
    rfl

/-- The C keeper that fails loses its ready bit; the F keeper stands (R33). -/
theorem keeperFails_c : (s.keeperFails true).clk = { s.clk with keeperCFault := true } ∧ (s.keeperFails true).isReady rdyKeeperC = false := by
  unfold State.keeperFails
  extract_lets t
  refine ⟨?_, ?_⟩
  · rw [islandFault_clk, setReady_clk]
    rfl
  · rw [islandFault_isReady _ _ (by decide) (by decide) (by decide), if_pos rfl, setReady_isReady, if_pos rfl]

/-! Power states (R34 to R37). -/

theorem powerStateEntry_eq {f : Half} {x : PwrFn} (h : pwrFn s.pwr f = some x) : exec (.powerStateEntry f) s =
    .next (if pwrDepth x.st < pwrDepth (targetState s f x.tol.toNat) then s.enterPwr f (targetState s f x.tol.toNat) else s) := by
  change execPowerStateEntry f s = _
  rw [execPowerStateEntry, h]

theorem powerStateEntry_none {f : Half} (h : pwrFn s.pwr f = none) : exec (.powerStateEntry f) s = .next s := by
  change execPowerStateEntry f s = _
  rw [execPowerStateEntry, h]

theorem modPwrFn_dev (f : Half) (g : PwrFn → PwrFn) (p : Power) : (modPwrFn f g p).dev = p.dev := by
  unfold modPwrFn
  extract_lets n
  split
  case h_1 | h_2 | h_3 | h_4 | h_5 | h_6 => split <;> rfl
  all_goals rfl

theorem wakeFn_dev (f : Half) : (s.wakeFn f).pwr.dev = s.pwr.dev := by
  unfold State.wakeFn
  split
  · unfold State.wakeBank
    extract_lets clears t
    split
    · rfl
    · split <;> rfl
  · exact modPwrFn_dev f _ s.pwr

theorem wakeAll_dev : s.wakeAll.pwr.dev = s.pwr.dev := by
  refine foldl_frame (fun t : State => t.pwr.dev) (fun t f => ?_) _ s
  split
  · split
    · rfl
    · exact wakeFn_dev f
  · exact wakeFn_dev f

/-- What DORMANT_WAKE leaves, from the state `t` whose distaff has stopped (R37). -/
def wokenFrom (t : State) : State :=
  ((t.modPwr fun p => { p with dev := .run }).wakeAll.modRec fun r => { r with restoreDue := true }).evaluate

theorem dormantWake_eq (h : s.pwr.dev = .dormant) :
    exec .dormantWake s = .next (wokenFrom (if s.dist.st = .running then s.stopDistaff .restarting else s)) := by
  change execDormantWake s = _
  rw [execDormantWake, if_neg (not_not.mpr h)]
  rfl

theorem wokenFrom_runs (t : State) : (wokenFrom t).pwr.dev = .run ∧ (wokenFrom t).rec_.restoreDue = true := by
  obtain ⟨f, q, x, e⟩ := evaluate_onlyGates ((t.modPwr fun p => { p with dev := .run }).wakeAll.modRec fun r => { r with restoreDue := true })
  have hdev := wakeAll_dev (s := t.modPwr fun p => { p with dev := .run })
  rw [wokenFrom, e]
  exact ⟨hdev, rfl⟩

/-! Bring-up (R27, R28). -/

theorem pcieLinkUp_up (bm en : Bool) (hh : s.pwr.held = false) (hd : s.pwr.dev ≠ .dormant) : exec (.pcieLinkUp bm en) s = .next
    ((s.modHost fun h => { h with perst := false, pcieUp := true, busMaster := bm, msixEnable := en }).setReady rdyPcie true) :=
  congrArg Host.Outcome.next (if_neg (by simp [hh, hd]))

theorem functionReady_bit {b : Fin 24} (hh : s.pwr.held = false) (hd : s.pwr.dev ≠ .dormant) : exec (.functionReady (.bit b)) s = .next (
    if b = rdyDistaff then s.distaffUp
    else if b = rdyMailboxes then s.mailboxesUp
    else if b = rdyRecovery then s.enterRecovery
    else if b = rdyCal then s.checkCal
    else if b = rdySafA ∨ b = rdySafB then (if bitReady b s then (s.setReady b true).tpUp (if b = rdySafA then .a else .b) else s)
    else if bitReady b s then s.setReady b true
    else s) := by
  change execFunctionReady (.bit b) s = _
  rw [execFunctionReady, if_neg (by simp [hh])]
  exact congrArg Host.Outcome.next (if_neg fun h => hd h.1)

end Sys2Proof.Machine

open Sys2Proof Sys2Proof.Machine

/-- Settles O45: the selection of a source and the keeper vote by their cases, each other event by its guard and its effect. -/
theorem clocksAndPowerEventsAct : Obligations.ClocksAndPowerEventsAct := by
  refine ⟨fun src s => ?sources, fun s x hr hh hx => refclkRevert_takes hr hh hx, fun s h => refclkRevert_rests h, fun s => rfl,
    fun s a b ha ha' hb hb' => keeperVote_near (nearReference_within ha ha') (nearReference_within hb hb'),
    fun s a b ha hb hc hf => ?alone, fun s a b ha hb hb' hc hk => ?secondC, fun bm en s hh hd => ?linkUp, fun f x s hx hdeep => ?deeper,
    fun f x s hx hdeep => ?shallow, fun f s hx => powerStateEntry_none hx, fun s h => ⟨_, dormantWake_eq h, wokenFrom_runs _⟩,
    fun s h => congrArg Host.Outcome.next (if_pos h), fun s h => congrArg Host.Outcome.next (if_pos h), fun s h => ?fallback,
    fun b s hh hd h1 h2 h3 h4 h5 h6 => ?bit, fun x s hh hd hf => ?island⟩
  case sources =>
    have hlisted := selectSource_listed (setGood src false s.clk)
    have hgood := selectSource_good (setGood src false s.clk)
    obtain ⟨hfailA, hfailB, hfailLink⟩ := selectSource_setGood src false s.clk
    obtain ⟨hbackA, hbackB, hbackLink⟩ := selectSource_setGood src true s.clk
    refine ⟨_, _, rfl, rfl, rfl, rfl, fun h => ⟨hfailA h, hbackA h⟩, fun h => ⟨hfailB h, hbackB h⟩,
      fun h => ⟨hfailLink h, hbackLink h⟩, fun h => ?_, fun h => ?_⟩
    · simp only [State.modClk_clk, hlisted, hgood] at h ⊢
      exact selectSource_locks h
    · simp only [State.modClk_clk, hlisted, hgood] at h ⊢
      exact (selectSource_holds h).imp_right fun ha => ha.trans (setGood_active ..)
  case alone =>
    exact keeperVote_alone (nearReference_below ha) (nearReference_above hb) (countsAgree_apart (by omega)) hc hf
  case secondC =>
    refine ⟨_, keeperVote_secondC (nearReference_below (by omega)) (nearReference_within hb hb') (countsAgree_apart (by omega)) hc hk, ?_⟩
    obtain ⟨hclk, hready⟩ := keeperFails_c (s := s.modClk fun c => { c with badC := 2, badF := 0, badRef := 0 })
    rw [hclk]
    exact ⟨rfl, hready, rfl⟩
  case linkUp =>
    refine ⟨_, pcieLinkUp_up bm en hh hd, ?_, ?_, ?_, ?_⟩
    · rw [setReady_host]; rfl
    · rw [setReady_host]; rfl
    · rw [setReady_host]; rfl
    · rw [setReady_isReady, if_pos rfl]
  case deeper => rw [powerStateEntry_eq hx, if_pos hdeep]
  case shallow => rw [powerStateEntry_eq hx, if_neg (Nat.not_lt.mpr hdeep)]
  case fallback =>
    have himage : b2n (!s.dist.image) = if s.dist.image = true then 0 else 1 := by cases s.dist.image <;> rfl
    rw [← himage]
    exact congrArg Host.Outcome.next (if_pos h)
  case bit =>
    rw [functionReady_bit hh hd, if_neg h1, if_neg h2, if_neg h3, if_neg h4, if_neg (not_or.mpr ⟨h5, h6⟩)]
  case island =>
    rw [functionReady_bit hh hd]
    cases x <;> simp [rdySafA, rdySafB, rdyDistaff, rdyMailboxes, rdyRecovery, rdyCal, bitReady, hf]
end

section
/-! The family of bring-up, power and clocks: the records that a temperature warning leaves. -/

namespace Sys2Proof.Machine

/-- After the reset state, but the block of the log's first records (0xC00000, R281) has been written 899,999,999 times, so that
the next write is the last of its life; the spare blocks are all left (R287). -/
def logBlockOnItsLastWrite : State :=
  { State.reset with rec_ := { Recovery.reset with wear := [(0xC00, 899999999)] } }

/-- A temperature warning of die C there writes its own record and, because that write retires the block, the record of the
retirement (R287, R383): the next number goes from 0 to 2. -/
theorem warning_on_last_write_logs_twice :
    ∃ t : State, exec (.thermalWarning .c 5) logBlockOnItsLastWrite = .next t ∧ t.rec_.logNext = 2 :=
  ⟨_, rfl, by decide⟩

end Sys2Proof.Machine

open Sys2Proof Sys2Proof.Machine

/-- Refutes O56, in its clause on a temperature warning: where the record of the warning is the last write that its MRAM block
bears, the block's retirement is recorded after it (R287), so the log moves on by two records, not one. The warning of die C in
`logBlockOnItsLastWrite` is the counterexample. -/
theorem not_safetyEventsAct : ¬ Obligations.SafetyEventsAct := by
  rintro ⟨-, -, -, -, -, -, -, -, -, -, -, -, -, -, -, -, -, -, -, -, hwarning, -⟩
  obtain ⟨t, htwice, htwo⟩ := warning_on_last_write_logs_twice
  obtain ⟨t', u, hwarn, -, -, -, hone, -⟩ := hwarning 5 logBlockOnItsLastWrite
  have ht : t' = t := by
    rw [hwarn] at htwice
    injection htwice
  rw [ht, htwo] at hone
  exact absurd hone (by decide)
end

section
/-! The family of the host interface: the request slot that spells a command (03_host_interface.md, R45, R62, R64, R72). -/

namespace Sys2Proof.Machine

/-! Little-endian fields (R62). -/

@[simp] theorem leBytes_length (n v : Nat) : (leBytes n v).length = n := by
  induction n generalizing v with
  | zero => rfl
  | succ n ih => rw [leBytes, List.length_cons, ih]

theorem leNat_leBytes (n v : Nat) : leNat (leBytes n v) = v % 256 ^ n := by
  induction n generalizing v with
  | zero => rw [Nat.pow_zero, Nat.mod_one]; rfl
  | succ n ih =>
    rw [leBytes, leNat, ih, BitVec.toNat_ofNat]
    change v % 256 + 256 * (v / 256 % 256 ^ n) = v % 256 ^ (n + 1)
    rw [Nat.pow_succ', Nat.mod_mul]

theorem leBytes_leNat (bs : List Byte) : leBytes bs.length (leNat bs) = bs := by
  induction bs with
  | nil => rfl
  | cons b bs ih =>
    have hb : b.toNat < 256 := b.isLt
    rw [leNat, List.length_cons, leBytes, show (b.toNat + 256 * leNat bs) / 256 = leNat bs by omega, ih]
    congr 1
    exact BitVec.eq_of_toNat_eq (by rw [BitVec.toNat_ofNat]; omega)

theorem leNat_lt (bs : List Byte) : leNat bs < 256 ^ bs.length := by
  induction bs with
  | nil => exact Nat.one_pos
  | cons b bs ih =>
    have hb : b.toNat < 256 := b.isLt
    rw [leNat, List.length_cons, Nat.pow_succ]
    omega

/-- A slice taken whole. -/
theorem slice_here {xs ys : List Byte} {n : Nat} (h : xs.length = n) : slice (xs ++ ys) 0 n = xs := by
  simp [slice, ← h]

/-- A slice behind what stands first. -/
theorem slice_skip {xs ys : List Byte} {off : Nat} (h : xs.length ≤ off) (n : Nat) : slice (xs ++ ys) off n = slice ys (off - xs.length) n := by
  simp only [slice, List.drop_append, List.drop_eq_nil_of_le h, List.nil_append]

/-- A slice longer than the list ends in zeros. -/
theorem slice_pad {xs : List Byte} {n : Nat} (h : xs.length ≤ n) : slice xs 0 n = xs ++ List.replicate (n - xs.length) 0 := by
  simp [slice, List.take_of_length_le h]

theorem fieldU_here {n : Nat} (v : Nat) (r : List Byte) : fieldU (leBytes n v ++ r) 0 n = v % 256 ^ n := by
  rw [fieldU, slice_here (leBytes_length n v), leNat_leBytes]

theorem fieldU_skip {m off : Nat} (v : Nat) (r : List Byte) (n : Nat) (h : m ≤ off) :
    fieldU (leBytes m v ++ r) off n = fieldU r (off - m) n := by
  rw [fieldU, slice_skip (by rwa [leBytes_length]), leBytes_length, fieldU]

/-- The field at the front is the value packed there. -/
@[simp] theorem argAt_here {w n : Nat} (v : BitVec w) (r : List Byte) (h : (w + 7) / 8 = n) : argAt w (leBytes n v.toNat ++ r) 0 = v := by
  have hw : 2 ^ w ≤ 256 ^ n := by
    rw [show 256 = 2 ^ 8 from rfl, ← Nat.pow_mul]
    exact Nat.pow_le_pow_right (by decide) (by omega)
  rw [argAt, h, fieldU_here, Nat.mod_eq_of_lt (Nat.lt_of_lt_of_le v.isLt hw), BitVec.ofNat_toNat, BitVec.setWidth_eq]

/-- A field behind another. -/
@[simp] theorem argAt_skip {w m off : Nat} (v : Nat) (r : List Byte) (h : m ≤ off) :
    argAt w (leBytes m v ++ r) off = argAt w r (off - m) := by
  rw [argAt, fieldU_skip v r _ h, argAt]

/-- A descriptor behind a field. -/
@[simp] theorem descAt_skip {m off : Nat} (v : Nat) (r : List Byte) (dma : DmaInput) (h : m ≤ off) :
    descAt (leBytes m v ++ r) off dma = descAt r (off - m) dma := by
  simp only [descAt, argAt_skip v r h, argAt_skip v r (Nat.le_add_right_of_le h), Nat.sub_add_comm h]

/-- A descriptor's 16 bytes are read as the descriptor, with the data that the bus gives (R64). -/
@[simp] theorem descAt_here (d : Desc) (r : List Byte) {dma : DmaInput} (h : dma.data = d.data) : descAt (descBytes d ++ r) 0 dma = d := by
  simp only [descAt, descBytes, List.append_assoc, argAt_here, argAt_skip, Nat.reduceAdd, Nat.reduceDiv, Nat.reduceLeDiff, Nat.reduceSub, h]

@[simp] theorem descBytes_length (d : Desc) : (descBytes d).length = 16 := by
  simp only [descBytes, List.length_append, leBytes_length]

/-- Bytes fit in the bit vector of their width. -/
theorem toNat_ofNat_leNat {bs : List Byte} {n : Nat} (h : bs.length = n) : (BitVec.ofNat (8 * n) (leNat bs)).toNat = leNat bs := by
  subst h
  rw [BitVec.toNat_ofNat, Nat.pow_mul]
  exact Nat.mod_eq_of_lt (leNat_lt bs)

/-! The slot read back (R45). -/

theorem slotBytes_slotOf {bs : List Byte} (h : bs.length = 64) : slotBytes (slotOf bs) = bs := by
  have hnat : (BitVec.ofNat 512 (leNat bs)).toNat = leNat bs := toNat_ofNat_leNat (n := 64) h
  have hwhole : slice bs 0 64 = bs := by rw [slice_pad h.le, h, Nat.sub_self, List.replicate_zero, List.append_nil]
  rw [slotBytes, slotOf, hwhole, hnat, ← h, leBytes_leNat]

/-- What stands in front of a request's arguments. -/
theorem requestSlot_bytes (i : Instr) (o : Origin) (h : (encodeArgs i).length ≤ 56) : slotBytes (requestSlot i o) =
    leBytes 2 ((opcodeOf i).getD 0).toNat ++ (leBytes 1 o.tag.val ++ (leBytes 1 (b2n o.irq) ++ (leBytes 2 0 ++
      (leBytes 2 (encodeArgs i).length ++ (encodeArgs i ++ List.replicate (56 - (encodeArgs i).length) 0))))) := by
  rw [requestSlot, slotBytes_slotOf]
  · simp only [slice_pad h, List.append_assoc]
  · simp only [slice_pad h, List.length_append, leBytes_length, List.length_replicate]
    omega

/-- The fields of the request that the slot of a command carries. -/
def requestFor (i : Instr) (o : Origin) : Request where
  opcode := ((opcodeOf i).getD 0).toNat
  tag := o.tag
  irq := o.irq
  remote := false
  target := 0
  bad := false
  len := (encodeArgs i).length
  args := encodeArgs i ++ List.replicate (56 - (encodeArgs i).length) 0

theorem requestOf_requestSlot (i : Instr) (o : Origin) (h : (encodeArgs i).length ≤ 56) : requestOf (requestSlot i o) = requestFor i o := by
  have hop : ((opcodeOf i).getD 0).toNat % 256 ^ 2 = ((opcodeOf i).getD 0).toNat := Nat.mod_eq_of_lt ((opcodeOf i).getD 0).isLt
  have hlen : (encodeArgs i).length % 256 ^ 2 = (encodeArgs i).length := Nat.mod_eq_of_lt (by omega)
  have htag : Fin.ofNat 32 (o.tag.val % 256 ^ 1) = o.tag := Fin.ext (by have := o.tag.isLt; simp only [Fin.val_ofNat]; omega)
  have hargs : slice ((encodeArgs i ++ List.replicate (56 - (encodeArgs i).length) 0).take (min (encodeArgs i).length 56)) 0 56 =
      encodeArgs i ++ List.replicate (56 - (encodeArgs i).length) 0 := by
    rw [Nat.min_eq_left h, List.take_left, slice_pad h]
  have hdrop : ∀ (a b c d e : Nat) (r : List Byte), (leBytes 2 a ++ (leBytes 1 b ++ (leBytes 1 c ++ (leBytes 2 d ++ (leBytes 2 e ++ r))))).drop 8 = r :=
    fun a b c d e r => by
      simp only [← List.append_assoc]
      exact List.drop_left' (by simp only [List.length_append, leBytes_length])
  unfold requestOf
  rw [requestSlot_bytes i o h]
  simp only [fieldU_skip, fieldU_here, Nat.reduceLeDiff, Nat.reduceSub, hdrop, hop, hlen, htag, hargs, requestFor, Request.mk.injEq, true_and]
  cases o.irq <;> simp [b2n, bit, h]

/-! The command a slot spells (R62, R72). -/

/-- The slot written for `i` is read back as `i`. -/
structure ReadBack (i : Instr) (o : Origin) : Prop where
  opcode : (opcodeOf i).isSome = true
  fits : (encodeArgs i).length ≤ 56
  command : (requestFor i o).command o (suppliedOf i) = some i

/-- It is so where the arguments, whatever stands behind them, are decoded as those of `i` and fill no more than their layout. -/
theorem readBack_of_layout {i : Instr} {o : Origin} {op : Half} {n : List Byte → Nat} {j : List Byte → Instr} (ho : opcodeOf i = some op)
    (hd : ∀ z, decodeArgs op.toNat o (encodeArgs i ++ z) (encodeArgs i).length (suppliedOf i) = some (j z, n z))
    (hj : ∀ z, j z = i) (hn : ∀ z, (encodeArgs i).length ≤ n z) (h : (encodeArgs i).length ≤ 56) : ReadBack i o := by
  refine ⟨by rw [ho]; rfl, h, ?_⟩
  have hzero : ∀ z, ((encodeArgs i ++ List.replicate (56 - (encodeArgs i).length) (0 : Byte)).drop (n z)).all (· == 0) = true := fun z => by
    rw [List.drop_append, List.drop_eq_nil_of_le (hn z)]
    simp
  simp only [Request.command, requestFor, ho, Option.getD_some, hd, hj, hzero, if_true, Bool.false_eq_true, if_false]

/-- The members of a group, packed in two bytes each. -/
theorem members_here (ms : List Half) (z : List Byte) :
    ((List.range ms.length).map fun k => argAt 16 ((ms.flatMap fun m => leBytes 2 m.toNat) ++ z) (2 * k)) = ms := by
  induction ms with
  | nil => rfl
  | cons m ms ih =>
    rw [List.length_cons, List.range_succ_eq_map, List.map_cons, List.map_map, List.flatMap_cons, List.append_assoc]
    refine congrArg₂ List.cons (argAt_here m _ rfl) ((List.map_congr_left fun k _ => ?_).trans ih)
    exact argAt_skip m.toNat _ (by simp only [Nat.succ_eq_add_one]; omega)

theorem members_length (ms : List Half) : (ms.flatMap fun m => leBytes 2 m.toNat).length = 2 * ms.length := by
  simp [Nat.mul_comm]

theorem ping_readBack {o : Origin} {bytes : List Byte} (h : bytes.length ≤ 48) : ReadBack (.ping o bytes) o := by
  refine readBack_of_layout rfl (fun _ => rfl) (fun z => ?_) (fun _ => h) (Nat.le_trans h (by decide))
  rw [encodeArgs, Nat.min_eq_left h, List.take_left]

theorem stageWrite_readBack {o : Origin} {handle offset : Word} {count zero : Half} {data : List Byte} (hc : count.toNat ≤ 44)
    (hd : data.length = count.toNat) : ReadBack (.stageWrite o handle offset count zero data) o := by
  have hcount : ∀ z, fieldU (encodeArgs (.stageWrite o handle offset count zero data) ++ z) 8 2 = data.length := fun z => by
    simp only [encodeArgs, List.append_assoc, fieldU_skip, fieldU_here, Nat.reduceLeDiff, Nat.reduceSub, hd]
    exact Nat.mod_eq_of_lt count.isLt
  have hdata : ∀ z, (encodeArgs (.stageWrite o handle offset count zero data) ++ z).drop 12 = data ++ z := fun z => by
    rw [encodeArgs, List.append_assoc]
    exact List.drop_left' (by simp)
  refine readBack_of_layout rfl (fun _ => rfl) (fun z => ?_) (fun _ => ?_) ?_
  · rw [hcount, hdata, List.take_left]
    simp [encodeArgs]
  · simp [encodeArgs]; omega
  · simp [encodeArgs]; omega

theorem groupDefine_readBack {o : Origin} {group count : Byte} {members : List Half} (hc : count.toNat ≤ 8)
    (hm : members.length = count.toNat) : ReadBack (.groupDefine o group count members) o := by
  have hcount : ∀ z, fieldU (encodeArgs (.groupDefine o group count members) ++ z) 1 1 = members.length := fun z => by
    simp only [encodeArgs, List.append_assoc, fieldU_skip, fieldU_here, Nat.le_refl, Nat.sub_self, hm]
    exact Nat.mod_eq_of_lt count.isLt
  have hmember : ∀ z k, argAt 16 (encodeArgs (.groupDefine o group count members) ++ z) (2 + 2 * k) =
      argAt 16 ((members.flatMap fun m => leBytes 2 m.toNat) ++ z) (2 * k) := fun z k => by
    rw [encodeArgs, List.append_assoc, List.append_assoc, argAt_skip _ _ (by omega), argAt_skip _ _ (by omega)]
    congr 1
    omega
  have hlength : (encodeArgs (.groupDefine o group count members)).length = 2 + 2 * members.length := by
    rw [encodeArgs, List.length_append, List.length_append, leBytes_length, leBytes_length, members_length]
  refine readBack_of_layout rfl (fun _ => rfl) (fun z => ?_) (fun z => ?_) ?_
  · simp only [hcount, hmember, members_here]
    simp [encodeArgs]
  · rw [hcount, hlength]
  · rw [hlength]; omega

/-- Every command that the manual admits is read back: all but three have fields of fixed lengths, one after another. -/
theorem readBack_of_wellFormed {i : Instr} {o : Origin} (h : originOf i = some o) (hw : WellFormed i = true) : ReadBack i o := by
  have hargs : argsOk i = true := (Bool.and_eq_true_iff.mp hw).1
  cases i <;> cases h
  case ping bytes => exact ping_readBack (of_decide_eq_true hargs)
  case groupDefine group count members =>
    simp only [argsOk, Bool.and_eq_true, decide_eq_true_eq] at hargs
    obtain ⟨⟨⟨⟨-, hcount⟩, hmembers⟩, -⟩, -⟩ := hargs
    exact groupDefine_readBack hcount hmembers
  case stageWrite handle offset count zero data =>
    simp only [argsOk, Bool.and_eq_true, decide_eq_true_eq] at hargs
    obtain ⟨⟨hcount, -⟩, hdata⟩ := hargs
    exact stageWrite_readBack hcount hdata
  all_goals
    exact readBack_of_layout rfl (fun _ => rfl) (fun z => by simp [encodeArgs, suppliedOf, descOf]) (fun z => by simp [encodeArgs])
      (by simp [encodeArgs])

end Sys2Proof.Machine

open Sys2Proof Sys2Proof.Machine

/-- Settles O7: a slot carries the fields of `requestFor`, and the arguments of every command are decoded as they were packed. -/
theorem requestSlotsSpellTheirCommands : Obligations.RequestSlotsSpellTheirCommands := by
  intro i o h hw
  obtain ⟨hopcode, hfits, hcommand⟩ := readBack_of_wellFormed h hw
  obtain ⟨op, hop⟩ := Option.isSome_iff_exists.mp hopcode
  rw [requestOf_requestSlot i o hfits]
  exact ⟨hcommand, by simp [requestFor, hop], rfl, rfl, rfl, rfl⟩
end

section
/-! The family of the host interface: the copy of a request of this device, and what it becomes (R19, R45, R46, R48, R49). -/

namespace Sys2Proof.Machine

variable {s : State}

theorem OnlyBanks.dist {t : State} (h : OnlyBanks s t) : t.dist = s.dist := by
  obtain ⟨p, m, rfl⟩ := h
  rfl

/-- The request that stands at req_ci. -/
def Mailbox.front (m : Mailbox) : Request := requestOf m.req[(Fin.ofNat 64 m.reqCi.toNat)]

/-- The state with that request taken out of its ring, and with the distaff woken (R35). -/
def State.popped (s : State) (mb : MbId) : State := (s.wakeFn distaffFn).modMb mb fun m => { m with reqCi := m.reqCi + 1 }

/-- Outside MB6 a request comes out of its ring with no key (R276). -/
theorem popRequest_keyless {mb : MbId} (h : mb ≠ 6) : s.popRequest mb =
    (s.modMb mb fun m => { m with reqCi := m.reqCi + 1 }, s.mb[mb].req[(Fin.ofNat 64 s.mb[mb].reqCi.toNat)], none) := if_neg h

theorem copied_local {mb : MbId} (hmb : mb ≠ 6) (hr : s.mb[mb].front.remote = false) (dma : DmaInput) :
    copied mb dma s = (s.popped mb).takeLocal mb s.mb[mb].front none dma := by
  have hfront : (s.wakeFn distaffFn).mb[mb].front = s.mb[mb].front := by rw [(wakeFn_onlyBanks distaffFn s).mb]
  simp only [copied, popRequest_keyless hmb]
  rw [← Mailbox.front, hfront, hr]
  rfl

theorem popped_tagHeld (mb : MbId) (tag : Fin 32) : tagHeld (s.popped mb) mb tag = tagHeld s mb tag := by
  simp only [tagHeld, State.popped, modMb_self, (wakeFn_onlyBanks distaffFn s).mb]

theorem popped_dist (mb : MbId) : (s.popped mb).dist = s.dist := (wakeFn_onlyBanks distaffFn s).dist

/-- A request whose tag is held ends at the first check of R48. -/
theorem takeLocal_held {mb : MbId} {r : Request} (h : tagHeld s mb r.tag = true) (remote : Option (BitVec 14 × RemoteKey)) (dma : DmaInput) :
    s.takeLocal mb r remote dma = s.pushReject mb (refusal r ⟨mb, r.tag, r.irq, remote⟩ stTagInUse true) := if_pos h

/-- One that spells a command goes on to the checks on that. -/
theorem takeLocal_spelled {mb : MbId} {r : Request} {remote : Option (BitVec 14 × RemoteKey)} {dma : DmaInput} {i : Instr}
    (h : tagHeld s mb r.tag = false) (hi : r.command ⟨mb, r.tag, r.irq, remote⟩ dma = some i) : s.takeLocal mb r remote dma =
      if acceptStatus i ⟨mb, r.tag, r.irq, remote⟩ s = stOk then
        (s.holdTag mb r.tag).modDist fun q => { q with inHand := q.inHand ++ [i], stepped := s.dist.stepped }
      else s.reject i ⟨mb, r.tag, r.irq, remote⟩ (acceptStatus i ⟨mb, r.tag, r.irq, remote⟩ s) := by
  simp only [State.takeLocal, h, hi, Bool.false_eq_true, if_false, Option.isNone_some, and_false]

/-- While the distaff is stopped, a request outside MB6 is answered BUSY_SWITCH (R19). -/
theorem busySwitch_answers {mb : MbId} (hmb : mb ≠ 6) (hs : s.dist.st ≠ .running) (hm : s.isReady rdyMailboxes = true)
    (hne : s.mb[mb].reqPi ≠ s.mb[mb].reqCi) (hf : s.mb[mb].full = false) : exec (.busySwitchAnswer mb) s =
      .next ((s.modMb mb fun m => { m with reqCi := m.reqCi + 1 }).pushCmpl mb
        (refusal s.mb[mb].front ⟨mb, s.mb[mb].front.tag, s.mb[mb].front.irq, none⟩ stBusySwitch true)) := by
  change execBusySwitchAnswer mb s = _
  simp only [execBusySwitchAnswer, hs, hm, hne, hf, Bool.not_true, Bool.false_eq_true, or_self, if_false, popRequest_keyless hmb]
  rfl

theorem writeRspCi_host {mb : MbId} (hb : mb.val < 4) (value : Word) : s.writeRspCi mb value =
    if ((value.truncate 7 : BitVec 7) - s.mb[mb].rspCi).toNat ≤ (s.mb[mb].rspPi - s.mb[mb].rspCi).toNat then
      (s.modMb mb fun m => { m with rspCi := value.truncate 7 }).mbLevel mb
    else s.modMb mb fun m => { m with dbErr := true } := if_neg (Nat.not_le.mpr hb)

theorem ne_six {mb : MbId} (h : mb.val < 6) : mb ≠ 6 := fun e => absurd h (by rw [e]; decide)

end Sys2Proof.Machine

open Sys2Proof Sys2Proof.Machine

/-- Settles O10: out of its ring a request of this device meets the checks of R48 in turn, and an index write its bound. -/
theorem requestsAreCopiedInRingOrder : Obligations.RequestsAreCopiedInRingOrder := by
  refine ⟨fun mb dma s i hs hm hb hne hf ht hr => ?taken, fun mb dma s hs hm hb hne hf ht => ?held, fun mb value s hup hb => ?index,
    fun mb s hs hm hb hne hf => ?stopped⟩
  case taken =>
    intro r o u hi hfree
    have hfree' : tagHeld (s.popped mb) mb s.mb[mb].front.tag = false := (popped_tagHeld mb _).trans hfree
    rw [requestCopy_takes hs hm hne hf ht, copied_local (ne_six hb) hr, takeLocal_spelled hfree' hi, popped_dist]
    rfl
  case held =>
    intro r hr hheld
    have hheld' : tagHeld (s.popped mb) mb s.mb[mb].front.tag = true := (popped_tagHeld mb _).trans hheld
    rw [requestCopy_takes hs hm hne hf ht, copied_local (ne_six hb) hr, takeLocal_held hheld']
    rfl
  case index =>
    rw [← writeRspCi_host hb]
    exact congrArg Host.Outcome.next (if_pos hup)
  case stopped => exact busySwitch_answers (ne_six hb) hs hm hne hf
end

section
/-! The family of the host interface: what the writing of a completion makes of its mailbox (R46, R47, R48). -/

namespace Sys2Proof.Machine

variable {m : Mailbox} {mb : MbId} {c : Cmpl}

theorem wrote_slot : (m.wrote mb c).rsp[(Fin.ofNat 64 m.rspPi.toNat)] = rspSlot c m.phase := Vector.getElem_set_self ..

theorem wrote_otherSlot {k : Fin 64} (h : k ≠ Fin.ofNat 64 m.rspPi.toNat) : (m.wrote mb c).rsp[k] = m.rsp[k] :=
  Vector.getElem_set_ne (Fin.isLt _) k.isLt fun e => h (Fin.ext e.symm)

/-- The phase turns over with the last slot of a pass (R47). -/
theorem wrote_phase : (m.wrote mb c).phase = if m.rspPi.toNat % 64 = 63 then !m.phase else m.phase :=
  if_congr (show (Fin.ofNat 64 m.rspPi.toNat : Fin 64) = 63 ↔ _ from Fin.ext_iff) rfl rfl

/-- Outside MB6, a final completion that is no refusal, or comes back from a remote device, frees its tag (R48). -/
theorem freesTag_host (h : mb.val < 4) (c : Cmpl) : freesTag mb c = (c.final && (!c.reject || c.remote.isSome)) := by
  have hsix : (mb.val != 6) = true := bne_iff_ne.mpr (by omega)
  rw [freesTag, hsix, Bool.and_true]

theorem wrote_tag : (m.wrote mb c).held.getLsbD c.tag = (m.held.getLsbD c.tag && !freesTag mb c) := by
  change (if freesTag mb c then setBit m.held c.tag.val false else m.held).getLsbD c.tag.val = _
  cases freesTag mb c with
  | true => rw [if_pos rfl, getLsbD_setBit _ c.tag.isLt, if_pos rfl, Bool.not_true, Bool.and_false]
  | false => rw [if_neg Bool.false_ne_true, Bool.not_false, Bool.and_true]

/-- With no free slot, or none that waits for one, nothing is written. -/
theorem completionWrite_rests {s : State} (h : s.mb[mb].full = true ∨ nextCmpl s.mb[mb] = none) : exec (.completionWrite mb) s = .next s := by
  change execCompletionWrite mb s = _
  cases hn : nextCmpl s.mb[mb] with
  | none => simp only [execCompletionWrite, hn]
  | some c =>
    have hf : s.mb[mb].full = true := h.resolve_right (by rw [hn]; exact Option.some_ne_none c)
    simp only [execCompletionWrite, hn, hf, if_true]

end Sys2Proof.Machine

open Sys2Proof Sys2Proof.Machine

/-- Settles O11: of the mailboxes the writing of a completion changes its own alone, to `wrote`. -/
theorem completionsAreWrittenWithThePhase : Obligations.CompletionsAreWrittenWithThePhase := by
  refine ⟨fun mb c s hn hf hs hb => ⟨s.completed mb c, completionWrite_eq hn hf, ?_⟩, fun mb s h => completionWrite_rests h⟩
  have hself : (s.completed mb c).mb[mb] = s.mb[mb].wrote mb c := by
    simp only [completed_mb hb hs, Fin.getElem_fin, Vector.getElem_set_self]
  have hother : ∀ k : MbId, k ≠ mb → (s.completed mb c).mb[k] = s.mb[k] := fun k hk => by
    rw [completed_mb hb hs]
    exact Vector.getElem_set_ne mb.isLt k.isLt fun e => hk (Fin.ext e.symm)
  rw [hself, ← freesTag_host hb]
  exact ⟨wrote_slot, rspSlot_phase .., fun k hk => wrote_otherSlot hk, rfl, rfl, rfl, wrote_phase, wrote_tag, hother⟩
end

section
/-! The family of the host interface: the commands that report. -/

namespace Sys2Proof.Machine

variable {s : State}

/-- An update that keeps the tags freed late keeps those of every mailbox (R48). -/
theorem modMb_lateHeld {f : Mailbox → Mailbox} (h : ∀ m, (f m).lateHeld = m.lateHeld) (i k : MbId) :
    (s.modMb i f).mb[k].lateHeld = s.mb[k].lateHeld := by
  by_cases hk : k = i
  · subst hk
    rw [modMb_self, h]
  · rw [modMb_other hk]

theorem holdTag_lateHeld (mb k : MbId) (tag : Fin 32) : (s.holdTag mb tag).mb[k].lateHeld = s.mb[k].lateHeld :=
  calc (s.holdTag mb tag).mb[k].lateHeld
    _ = (s.takeRequest mb tag false).mb[k].lateHeld := modMb_lateHeld (f := fun m => { m with held := setBit m.held tag true }) (fun _ => rfl) mb k
    _ = s.mb[k].lateHeld := modMb_lateHeld (f := fun m => { m with order := m.order ++ [(tag, false)] }) (fun _ => rfl) mb k

/-- FB_READ wakes the function of the unit it reads, where there is one (R35). -/
theorem wakeFn_fbFn {unit : Byte} (t : State) : (if unit.toNat < 48 then t.wakeFn (fbFn (fbIx unit)) else t) =
    if unit.toNat < 48 then t.wakeFn (BitVec.ofNat 16 (0x400 + unit.toNat)) else t := by
  refine if_ctx_congr Iff.rfl (fun h => ?_) fun _ => rfl
  have hix : (fbIx unit).val = unit.toNat := Nat.mod_eq_of_lt h
  rw [fbFn, hix]

end Sys2Proof.Machine

open Sys2Proof Sys2Proof.Machine

/-- Settles O14: a body that answers the state as it stands leaves only the mailbox's own change; FB_READ's wakes one function. -/
theorem reportingCommandsAnswerAndChangeNothing : Obligations.ReportingCommandsAnswerAndChangeNothing := by
  refine ⟨fun o s h => runShort_ends h rfl rfl, fun o bytes s h => runShort_ends h rfl rfl, fun o mailbox s h => ?tags,
    fun o s h => runShort_ends h (if_pos rfl) rfl, fun o s h => runShort_ends h rfl rfl, fun o unit s h => ?unit,
    fun o converter s h => runShort_ends h rfl rfl, fun o s h => runShort_ends h rfl rfl, fun o port s h => runShort_ends h rfl rfl⟩
  case tags =>
    rw [← holdTag_lateHeld o.mb _ o.tag]
    exact runShort_ends h rfl rfl
  case unit =>
    refine runShort_ends h (congrArg (·, stOk, fbReadBytes s unit) (wakeFn_fbFn _)) ?_
    split
    · exact congrArg Ctl.dist (State.wakeFn_ctl ..)
    · rfl
end

section
/-! The family of the host interface: the long commands start. -/

namespace Sys2Proof.Machine

variable {s : State}

theorem allowIf_true {b : Bool} (h : b = true) : allowIf b = stOk := if_pos h

/-- The check of CAM_LOAD passes a descriptor whose bytes form a table of the points named (R111). -/
theorem camLoad_check {d : Desc} {points : Word} {bs : List Byte} {c : CamBuf} (hd : readDesc s d = .ok bs)
    (hc : camBuf? bs points.toNat = some c) :
    (if (camBuf? (execCamLoad.carried s d) points.toNat).isSome then stOk else stBadArg) = stOk := by
  have hcarried : execCamLoad.carried s d = bs := by rw [execCamLoad.carried, hd]
  rw [hcarried, hc]
  rfl

end Sys2Proof.Machine

open Sys2Proof Sys2Proof.Machine

/-- Settles O32: each is a long command whose own check passes, with its data read where its descriptor carries data in. -/
theorem longCommandsStart : Obligations.LongCommandsStart := by
  refine ⟨fun o first count d s h hout => congrArg _ (runLong_served_out h rfl rfl hout _ rfl),
    fun o table points d bs c s h hd hc => congrArg _ (runLong_served_in h rfl rfl hd _ (camLoad_check hd hc)),
    fun o table buffer d s h hout hc => congrArg _ (runLong_served_out h rfl rfl hout _ (allowIf_true (decide_eq_true hc))),
    fun o program d sig bs s h hd => congrArg _ (runLong_served_in h rfl rfl hd _ rfl),
    fun o address d s h hout => congrArg _ (runLong_served_out h rfl rfl hout _ rfl),
    fun o address d bs s h hd hb => congrArg _ (runLong_served_in h rfl rfl hd _ (allowIf_true hb)),
    fun o bank row s h hs => congrArg _ (runLong_served h rfl _ (allowIf_true (decide_eq_true hs))),
    fun o first count d bs s h hd hm => congrArg _ (runLong_served_in h rfl rfl hd _ (allowIf_true hm)),
    fun o s h => congrArg _ (runLong_served h rfl _ rfl),
    fun o password d bs s h hd hm => congrArg _ (runLong_served_in h rfl rfl hd _ (allowIf_true (congrArg _ hm))),
    fun o unit d s h hout => congrArg _ (runLong_served_out h rfl rfl hout _ rfl),
    fun o image offset last d sig bs s h hd hi => congrArg _ (runLong_served_in h rfl rfl hd _ (allowIf_true (bne_iff_ne.mpr hi))),
    fun o d bs s h hd => congrArg _ (runLong_served_in h rfl rfl hd _ rfl),
    fun o f level s h hc => congrArg _ (runLong_served h rfl _ hc)⟩
end

section
/-! The family of the host interface: CANCEL (R52). -/

namespace Sys2Proof.Machine

variable {s : State}

/-- What CANCEL does in the state that holds its tag, by where the operation it names stands. -/
def runCancel (mb : MbId) (tag : Fin 32) (s : State) : CmdResult :=
  match longAt s mb tag with
  | none =>
    match longInHand s mb tag with
    | none => refuse s stBadArg
    | some (i, q) => (s.cancelInHand i q, stOk, [])
  | some (g, _) => (s.modDist (putLong g { g with cancel := true }), stOk, [])

theorem exec_cancel (o : Origin) (mailbox tag : Byte) (s : State) : exec (.cancel o mailbox tag) s =
    .next (runShort (.cancel o mailbox tag) o (runCancel (Fin.ofNat 8 mailbox.toNat) (Fin.ofNat 32 tag.toNat)) s) := rfl

theorem runCancel_running {mb : MbId} {tag : Fin 32} {g : LongOp} {q : Origin} (h : longAt s mb tag = some (g, q)) :
    runCancel mb tag s = (s.modDist (putLong g { g with cancel := true }), stOk, []) := by rw [runCancel, h]

theorem runCancel_nothing {mb : MbId} {tag : Fin 32} (h : longAt s mb tag = none) (hh : longInHand s mb tag = none) :
    runCancel mb tag s = refuse s stBadArg := by rw [runCancel, h]; simp only [hh]

theorem runCancel_inHand {mb : MbId} {tag : Fin 32} {i : Instr} {q : Origin} (h : longAt s mb tag = none)
    (hh : longInHand s mb tag = some (i, q)) : runCancel mb tag s = (s.cancelInHand i q, stOk, []) := by
  rw [runCancel, h]; simp only [hh]

/-- What the end by an abort leaves marked (R75) is no state of the distaff. -/
theorem abortMark_dist (i : Instr) : (s.abortMark i).dist = s.dist := by
  unfold State.abortMark
  split
  · rfl
  · split <;> rfl
  · rfl

/-- An operation aborted before its first step leaves the distaff as it is (R75). -/
theorem abortLong_unbegun_dist (i : Instr) (told : BitVec 64) : (abortLong ⟨i, 0, 0, true, told⟩ s).dist = s.dist := by
  unfold abortLong
  split
  case h_5 => exact abortMark_dist i
  all_goals rfl

/-- What the abort of a long command in the distaff's hands leaves, before its completion (R75). -/
def State.abortInHand (s : State) (i : Instr) : State :=
  (abortLong ⟨i, 0, 0, true, s.time.dev⟩ s).modDist fun d => { d with inHand := d.inHand.erase i }

theorem abortInHand_owed (i : Instr) : (s.abortInHand i).dist.owed = s.dist.owed :=
  calc (s.abortInHand i).dist.owed
    _ = (abortLong ⟨i, 0, 0, true, s.time.dev⟩ s).dist.owed := rfl
    _ = s.dist.owed := congrArg Distaff.owed (abortLong_unbegun_dist i _)

theorem cancelInHand_ends {i : Instr} (q : Origin) (h : s.owedFor i = none) :
    s.cancelInHand i q = (s.abortInHand i).ended i q stAborted [] := by
  have howed : (s.abortInHand i).owedFor i = none := by
    rw [State.owedFor, abortInHand_owed]
    exact h
  exact finish_ended howed stAborted []

/-- A step of an operation marked by CANCEL ends it (R52). -/
theorem stepLong_cancelled {g : LongOp} (h : g.cancel = true) (o : Origin) (x : StepInput) :
    s.stepLong g o x = ((abortLong g s).endLong g).finish g.cmd o stAborted [] := if_pos h

end Sys2Proof.Machine

open Sys2Proof Sys2Proof.Machine

/-- Settles O34: by where the named operation stands: among the long operations, in the distaff's hands, or nowhere. -/
theorem cancelEndsAnOperationAtItsNextStep : Obligations.CancelEndsAnOperationAtItsNextStep := by
  refine ⟨fun o mailbox tag g q s h hl => ?running, fun o mailbox tag s h hl hh => ?nothing,
    fun o mailbox tag i q s h hl hh hi => ?inHand, fun mb tag x g o s h hg => ?step⟩
  case running => exact (exec_cancel ..).trans (runShort_ends_owing h (runCancel_running hl) rfl)
  case nothing => exact (exec_cancel ..).trans (runShort_refuses h (runCancel_nothing hl hh))
  case inHand =>
    have hbody := runCancel_inHand (s := s.holdTag o.mb o.tag) hl hh
    rw [cancelInHand_ends (s := s.holdTag o.mb o.tag) q hi] at hbody
    exact (exec_cancel ..).trans (runShort_ends_owing h hbody (abortInHand_owed (s := s.holdTag o.mb o.tag) i))
  case step => rw [longStep_turn h, stepLong_cancelled hg]; rfl
end

section
/-! The family of the host interface: the registers a host write clears or sets (R42, R57, R58). -/

namespace Sys2Proof.Machine

variable {s t u : State}

/-! Messages (R58). -/

/-- From `s` to `t` messages have fallen due: some have left, some are left pending, and nothing else has changed. -/
def MessagesDue (s t : State) : Prop :=
  ∃ p o, t = { s with host := { s.host with msixPending := p }, out := s.out ++ o }

theorem MessagesDue.refl (s : State) : MessagesDue s s := ⟨s.host.msixPending, [], by rw [List.append_nil]⟩

theorem MessagesDue.trans (h : MessagesDue s t) (h' : MessagesDue t u) : MessagesDue s u := by
  obtain ⟨p, o, rfl⟩ := h
  obtain ⟨p', o', rfl⟩ := h'
  exact ⟨p', o ++ o', by simp only [List.append_assoc]⟩

theorem MessagesDue.out_mem (h : MessagesDue s t) {x : Out} (hx : x ∈ s.out) : x ∈ t.out := by
  obtain ⟨p, o, rfl⟩ := h
  exact List.mem_append_left o hx

theorem sendMsix_messagesDue (s : State) (v : Nat) : MessagesDue s (s.sendMsix v) := by
  unfold State.sendMsix
  split
  · split
    · exact ⟨_, [], by simp only [List.append_nil]; rfl⟩
    · exact ⟨s.host.msixPending, [.msix v], rfl⟩
  · exact .refl s

/-- The message of vector `v` where the write of SYS_INT_MASK unmasks it and its bit is set. -/
def unmaskOne (old value : Word) (s : State) (v : Nat) : State :=
  if old.getLsbD v && !value.getLsbD v && s.host.intStatus.getLsbD v then s.sendMsix v else s

theorem writeMask_eq (s : State) (value : Word) : s.writeMask value =
    (List.range 32).foldl (unmaskOne s.host.intMask value) (s.modHost fun h => { h with intMask := value }) := rfl

theorem unmaskOne_messagesDue (old value : Word) (s : State) (v : Nat) : MessagesDue s (unmaskOne old value s v) := by
  unfold unmaskOne
  split
  · exact sendMsix_messagesDue s v
  · exact .refl s

theorem unmasked_messagesDue (old value : Word) (l : List Nat) (s : State) :
    MessagesDue s (l.foldl (unmaskOne old value) s) := by
  induction l generalizing s with
  | nil => exact .refl s
  | cons v l ih => exact (unmaskOne_messagesDue old value s v).trans (ih _)

theorem unmaskOne_sends {old value : Word} {v : Nat} (hold : old.getLsbD v = true) (hnew : value.getLsbD v = false)
    (hset : s.host.intStatus.getLsbD v = true) (hup : s.host.pcieUp = true) (hen : s.host.msixEnable = true)
    (hent : entryMasked s.host v = false) : Out.msix v ∈ (unmaskOne old value s v).out := by
  rw [unmaskOne, hold, hnew, hset, if_pos (by decide), sendMsix_sent v hup hen hent]
  exact List.mem_append_right _ (List.mem_singleton.mpr rfl)

/-- A vector that is unmasked with its bit set sends its message, whatever the other vectors do. -/
theorem unmasked_sends {old value : Word} {l : List Nat} {v : Nat} (hv : v ∈ l) (hold : old.getLsbD v = true)
    (hnew : value.getLsbD v = false) (hset : s.host.intStatus.getLsbD v = true) (hup : s.host.pcieUp = true)
    (hen : s.host.msixEnable = true) (hent : entryMasked s.host v = false) :
    Out.msix v ∈ (l.foldl (unmaskOne old value) s).out := by
  obtain ⟨before, after, rfl⟩ := List.append_of_mem hv
  rw [List.foldl_append, List.foldl_cons]
  refine (unmasked_messagesDue old value after _).out_mem ?_
  obtain ⟨p, o, ht⟩ := unmasked_messagesDue old value before s
  rw [ht]
  exact unmaskOne_sends hold hnew hset hup hen hent

/-! Notices (R57). -/

theorem rearm_notice (value : Word) (h : HostIf) (i : Fin 25) (k : Nat) : (rearm value h i).notice.getLsbD k =
    if i.val = k then h.notice.getLsbD k && !value.getLsbD k else h.notice.getLsbD k := by
  unfold rearm
  split
  next hc =>
    obtain ⟨hv, -⟩ := Bool.and_eq_true_iff.mp hc
    rw [getLsbD_setBit h.notice i.isLt]
    by_cases hk : i.val = k
    · rw [if_pos hk.symm, if_pos hk, ← hk, hv, Bool.not_true, Bool.and_false]
    · rw [if_neg (Ne.symm hk), if_neg hk]
  next hc =>
    by_cases hk : i.val = k
    · rw [if_pos hk, ← hk]
      revert hc
      cases h.notice.getLsbD i.val <;> cases value.getLsbD i.val <;> simp
    · rw [if_neg hk]

/-- Rearming the sources of a list clears the notices of those written as 1, and no other. -/
theorem rearmed_notice (value : Word) (l : List (Fin 25)) (h : HostIf) (k : Fin 25) : (l.foldl (rearm value) h).notice.getLsbD k =
    if k ∈ l then h.notice.getLsbD k && !value.getLsbD k else h.notice.getLsbD k := by
  induction l generalizing h with
  | nil => rw [if_neg List.not_mem_nil]; rfl
  | cons i l ih =>
    rw [List.foldl_cons, ih, rearm_notice]
    by_cases hk : i = k
    · subst hk
      simp
    · simp [Ne.symm hk, Fin.val_ne_of_ne hk]

theorem rearm_intStatus (value : Word) (h : HostIf) (i : Fin 25) : (rearm value h i).intStatus = h.intStatus := by
  unfold rearm
  split <;> rfl

/-! Bytes of BAR0 (R41, R42). -/

theorem leBytes_eq_map (n v : Nat) : leBytes n v = (List.range n).map (byteOf v) := by
  induction n generalizing v with
  | zero => rfl
  | succ n ih =>
    rw [leBytes, ih, List.range_succ_eq_map, List.map_cons, List.map_map]
    refine congrArg₂ _ (by rw [byteOf, Nat.pow_zero, Nat.div_one]) (List.map_congr_left fun i _ => ?_)
    rw [byteOf, Function.comp_apply, byteOf, Nat.div_div_eq_div_mul, Nat.succ_eq_add_one, Nat.pow_succ']

/-- The bytes of a register of the control page are those of its value. -/
theorem barBytes_cycleLo : barBytes s 8 4 = leBytes 4 (s.seq.cycle.toNat % 2 ^ 32) := by
  have hreg : (controlPage s 8).toNat = s.seq.cycle.toNat % 2 ^ 32 := Nat.mod_mod _ _
  rw [← hreg, leBytes_eq_map]
  rfl

/-- A four-byte write of a register's offset is the register's. -/
theorem hostWrite_register {a : Nat} (ha : a % 4 = 0) (hr : areaOf a = .reg) (v : Word) :
    s.hostWrite a (leBytes 4 v.toNat) = s.pageWrite a v := by
  have hv : BitVec.ofNat 32 (leNat (leBytes 4 v.toNat)) = v := by
    rw [leNat_leBytes, Nat.mod_eq_of_lt (show v.toNat < 256 ^ 4 from v.isLt), BitVec.ofNat_toNat, BitVec.setWidth_eq]
  rw [State.hostWrite, if_pos ⟨leBytes_length 4 _, ha, hr⟩, hv]

theorem hostWrite_byte (a : Nat) (b : Byte) : s.hostWrite a [b] = s.hostByte a b := if_neg (by simp)

theorem hostByte_readOnly {a : Nat} (h : areaOf a = .readOnly) (b : Byte) : s.hostByte a b = s.accErr := by
  rw [State.hostByte, h]

/-! Counters (R185). -/

/-- STG_STAT written with both of its W1C bits clears both flags, and the counts with underrun. -/
theorem clearStgStat_both (x : Stg) : clearStgStat 0x300 x =
    { x with underrun := false, overflow := false, stretch := 0, dirDelay := 0 } := by
  have h8 : bit 0x300 8 = true := by decide
  have h9 : bit 0x300 9 = true := by decide
  rw [clearStgStat, h8, h9, Bool.not_true, Bool.and_false, Bool.and_false, if_pos rfl, if_pos rfl]

end Sys2Proof.Machine

open Sys2Proof Sys2Proof.Machine

/-- Settles O44: the endpoint's guard, then each row's own register; a mask write and a notice write act bit by bit. -/
theorem hostWritesActOnTheirRegisters : Obligations.HostWritesActOnTheirRegisters := by
  refine ⟨fun v s h => congrArg _ (if_pos h), fun v s h => ?mask, fun v s h => ?notice, fun s h => ?cycle, fun s v h => ?word,
    fun s a b h ha => ?readOnly, fun s v a bs h => ?down, fun a v s ha hi => ⟨congrArg _ (if_pos ⟨rfl, ha, hi⟩), rfl⟩,
    fun s u g => ⟨rfl, rfl, ?clear⟩⟩
  case mask =>
    obtain ⟨p, o, ht⟩ := unmasked_messagesDue s.host.intMask v (List.range 32) (s.modHost fun h => { h with intMask := v })
    refine ⟨s.writeMask v, congrArg _ (if_pos h), ?_, ?_, ?_, ?_, fun k hk hold hnew hset hen hent => ?_⟩
    case refine_5 => exact unmasked_sends (List.mem_range.mpr hk) hold hnew hset h hen hent
    all_goals rw [writeMask_eq, ht]; rfl
  case notice =>
    refine ⟨s.clearNotice v, congrArg _ (if_pos h), fun k hk => ?_, foldl_frame HostIf.intStatus (rearm_intStatus v) _ _, rfl⟩
    exact (rearmed_notice v _ s.host ⟨k, hk⟩).trans (if_pos (List.mem_finRange _))
  case cycle =>
    refine congrArg _ ((if_pos h).trans ?_)
    rw [State.barRead, if_pos (by decide), barBytes_cycleLo]
    rfl
  case word =>
    refine congrArg _ ((if_pos h).trans ((hostWrite_register (a := 0x20) rfl (by decide) v).trans (if_pos h).symm))
  case readOnly => exact congrArg _ ((if_pos h).trans ((hostWrite_byte _ b).trans (hostByte_readOnly ha b)))
  case down =>
    have hdown : ¬ s.host.pcieUp = true := by rw [h]; decide
    exact ⟨congrArg _ (if_neg hdown), congrArg _ (if_neg hdown), congrArg _ (if_neg hdown), congrArg _ (if_neg hdown),
      congrArg _ (if_neg hdown)⟩
  case clear => exact congrArg (fun f => Host.Outcome.next (s.modStg g f)) (funext clearStgStat_both)
end

section
/-! The family of the host interface: the banks and the bobbin pool, what waking a bank keeps, a word read after it is
written, and the links of a list just built (R218, R226, R231). -/

namespace Sys2Proof.Machine

variable {s t u : State} {m n : Mem}

/-! What waking banks keeps of the memory (R35, R226). -/

/-- From `s` to `t` nothing but the power states and the banks' own controls has changed. -/
def OnlyControls (s t : State) : Prop := ∃ p c, t = { s with pwr := p, mem := { s.mem with banks := c } }

theorem OnlyControls.refl (s : State) : OnlyControls s s := ⟨s.pwr, s.mem.banks, rfl⟩

theorem OnlyControls.trans (h : OnlyControls s t) (h' : OnlyControls t u) : OnlyControls s u := by
  obtain ⟨p, c, rfl⟩ := h
  obtain ⟨p', c', rfl⟩ := h'
  exact ⟨p', c', rfl⟩

theorem OnlyControls.mem (h : OnlyControls s t) : ∃ c, t.mem = { s.mem with banks := c } := by
  obtain ⟨p, c, rfl⟩ := h
  exact ⟨c, rfl⟩

theorem OnlyControls.modBank (b : BankId) (f : BankCtl → BankCtl) (h : OnlyControls s t) : OnlyControls s (t.modMem fun m => m.modBank b f) :=
  h.trans ⟨t.pwr, t.mem.banks.set b (f t.mem.banks[b]), rfl⟩

theorem OnlyControls.foldl {α : Type} {f : State → α → State} (h : ∀ t a, OnlyControls t (f t a)) (l : List α) (s : State) :
    OnlyControls s (l.foldl f s) := by
  induction l generalizing s with
  | nil => exact .refl s
  | cons a l ih => exact (h s a).trans (ih (f s a))

theorem wakeBank_onlyControls (b : BankId) (s : State) : OnlyControls s (s.wakeBank b) := by
  unfold State.wakeBank
  extract_lets clears t
  split
  · exact .refl s
  · have ht : OnlyControls s t := ⟨_, s.mem.banks, rfl⟩
    split
    · exact ht.modBank b _
    · exact ht

theorem serveBank_onlyControls (b : BankId) (s : State) : OnlyControls s (s.serveBank b) := by
  unfold State.serveBank
  extract_lets t
  split
  · exact (wakeBank_onlyControls b s).modBank b _
  · exact wakeBank_onlyControls b s

theorem wakeRange_onlyControls (lo hi : Nat) (s : State) : OnlyControls s (s.wakeRange lo hi) :=
  .foldl (fun t b => by
    split
    · exact serveBank_onlyControls b t
    · exact .refl t) _ s

theorem wakeChain_onlyControls (chain : List Nat) (s : State) : OnlyControls s (s.wakeChain chain) :=
  .foldl (fun t _ => wakeRange_onlyControls _ _ t) chain s

/-! Banks in RUN keep their contents when they serve (R226). -/

/-- The power states stand, and no bank has lost its contents or had a list built over it since. -/
def KeepsContents (s t : State) : Prop :=
  t.pwr = s.pwr ∧ ∀ b : BankId, t.mem.banks[b].lost = s.mem.banks[b].lost ∧ t.mem.banks[b].built = s.mem.banks[b].built

theorem KeepsContents.refl (s : State) : KeepsContents s s := ⟨rfl, fun _ => ⟨rfl, rfl⟩⟩

theorem KeepsContents.trans (h : KeepsContents s t) (h' : KeepsContents t u) : KeepsContents s u := by
  obtain ⟨hp, hb⟩ := h
  obtain ⟨hp', hb'⟩ := h'
  exact ⟨hp'.trans hp, fun b => ⟨(hb' b).1.trans (hb b).1, (hb' b).2.trans (hb b).2⟩⟩

/-- Every bank is in RUN. -/
def AllRun (s : State) : Prop := ∀ b : BankId, s.pwr.banks[b].st = .run

theorem KeepsContents.allRun (h : KeepsContents s t) (hr : AllRun s) : AllRun t := fun b => by rw [h.1]; exact hr b

theorem KeepsContents.foldl {α : Type} {f : State → α → State} (h : ∀ t a, AllRun t → KeepsContents t (f t a)) (l : List α)
    (hr : AllRun s) : KeepsContents s (l.foldl f s) := by
  induction l generalizing s with
  | nil => exact .refl s
  | cons a l ih => exact (h s a hr).trans (ih ((h s a hr).allRun hr))

theorem modBank_keeps {g : BankCtl → BankCtl} (hg : ∀ c, (g c).lost = c.lost ∧ (g c).built = c.built) (b : BankId) (s : State) :
    KeepsContents s (s.modMem fun m => m.modBank b g) := by
  refine ⟨rfl, fun k => ?_⟩
  by_cases hk : k = b
  · subst hk
    have hself : (s.modMem fun m => m.modBank k g).mem.banks[k] = g s.mem.banks[k] := Vector.getElem_set_self ..
    rw [hself]
    exact hg _
  · have hother : (s.modMem fun m => m.modBank b g).mem.banks[k] = s.mem.banks[k] :=
      Vector.getElem_set_ne b.isLt k.isLt fun e => hk (Fin.ext e.symm)
    rw [hother]
    exact ⟨rfl, rfl⟩

theorem serveBank_keeps (b : BankId) (s : State) (hr : AllRun s) : KeepsContents s (s.serveBank b) := by
  have hwake : s.wakeBank b = s := if_pos (hr b)
  rw [State.serveBank, hwake]
  split
  · exact modBank_keeps (g := fun c => { c with clearing := false }) (fun _ => ⟨rfl, rfl⟩) b s
  · exact .refl s

theorem wakeRange_keeps (lo hi : Nat) (s : State) (hr : AllRun s) : KeepsContents s (s.wakeRange lo hi) :=
  .foldl (fun t b ht => by
    split
    · exact serveBank_keeps b t ht
    · exact .refl t) _ hr

theorem wakeChain_keeps (chain : List Nat) (s : State) (hr : AllRun s) : KeepsContents s (s.wakeChain chain) :=
  .foldl (fun t _ ht => wakeRange_keeps _ _ t ht) chain hr

theorem mask_congr {a : Nat} (hl : n.banks[bankOfCell a].lost = m.banks[bankOfCell a].lost)
    (hb : n.banks[bankOfCell a].built = m.banks[bankOfCell a].built) : n.mask a = m.mask a := by
  have hlink : n.banks[bankOfCell a].link a = m.banks[bankOfCell a].link a := by rw [BankCtl.link, BankCtl.link, hb]
  rw [Mem.mask, Mem.mask, hlink, hl]

/-- The links read from the bytes: memories that show the same bytes show the same links. -/
theorem linkOf_congr {i j : Nat} (hw : n.bobbinWord i = m.bobbinWord j) (hb : ∀ a, n.byte a = m.byte a) : n.linkOf i = m.linkOf j := by
  have hbyte : n.byte = m.byte := funext hb
  rw [Mem.linkOf, Mem.linkOf, Mem.word, Mem.word, hw, hbyte]

/-- Links read the same after requests have reached banks that run. -/
theorem wakeChain_linkOf (chain : List Nat) (hr : AllRun s) (i : Nat) : (s.wakeChain chain).mem.linkOf i = s.mem.linkOf i := by
  obtain ⟨-, hk⟩ := wakeChain_keeps chain s hr
  obtain ⟨c, hm⟩ := (wakeChain_onlyControls chain s).mem
  refine linkOf_congr (by rw [hm]; rfl) fun a => ?_
  obtain ⟨hl, hb⟩ := hk (bankOfCell a)
  rw [Mem.byte, Mem.byte, mask_congr hl hb, hm]

/-! A word read after it is written (R218, R221). -/

/-- The bytes and the tag of one word are cells of their own. -/
theorem cellOf_inj {g j k : Nat} (hg : g < wordCount) (hj : j < 9) (hk : k < 9) (h : cellOf g j = cellOf g k) : j = k := by
  have hg' : g < 4194304 := hg
  unfold cellOf at h
  split at h <;> split at h <;> omega

/-- The byte a write of word `g` puts into its cell `k`, where the mask names it. -/
def putWordByte (g mask : Nat) (w : Word72) (m : Mem) (k : Nat) : Mem :=
  if bit mask k then m.setByte (cellOf g k) (BitVec.ofNat 8 (w.toNat / 256 ^ k)) else m

theorem setWordBytes_eq (g mask : Nat) (w : Word72) (m : Mem) :
    m.setWordBytes g mask w = (List.range 9).foldl (putWordByte g mask w) m := rfl

theorem putWordByte_wf {g mask : Nat} {w : Word72} (k : Nat) (h : m.wf = true) : (putWordByte g mask w m k).wf = true := by
  unfold putWordByte
  split
  · exact Mem.setByte_wf _ _ h
  · exact h

theorem putWordByte_byte {g j k : Nat} (w : Word72) (hg : g < wordCount) (hj : j < 9) (hk : k < 9) (hm : bit 0x1FF k = true) (h : m.wf = true) :
    (putWordByte g 0x1FF w m k).byte (cellOf g j) = if j = k then byteOf w.toNat j else m.byte (cellOf g j) := by
  rw [putWordByte, if_pos hm]
  by_cases e : j = k
  · subst e
    rw [if_pos rfl, Mem.setByte_byte _ _ h]
    rfl
  · rw [if_neg e, Mem.setByte_byte_ne _ (fun he => e (cellOf_inj hg hj hk he)) h]

theorem putWordBytes_byte {g j : Nat} (w : Word72) (hg : g < wordCount) (hj : j < 9) {l : List Nat}
    (hl : ∀ k ∈ l, k < 9 ∧ bit 0x1FF k = true) (h : m.wf = true) :
    (l.foldl (putWordByte g 0x1FF w) m).byte (cellOf g j) = if j ∈ l then byteOf w.toNat j else m.byte (cellOf g j) := by
  induction l generalizing m with
  | nil => rw [if_neg List.not_mem_nil]; rfl
  | cons k l ih =>
    obtain ⟨hk, hm⟩ := hl k (List.mem_cons_self ..)
    rw [List.foldl_cons, ih (fun x hx => hl x (List.mem_cons_of_mem k hx)) (putWordByte_wf k h), putWordByte_byte w hg hj hk hm h]
    by_cases e : j = k <;> simp [e]

theorem setWordBytes_word {g : Nat} (w : Word72) (hg : g < wordCount) (h : m.wf = true) : (m.setWordBytes g 0x1FF w).word g = w := by
  have hbytes : (List.range 9).map (fun k => (m.setWordBytes g 0x1FF w).byte (cellOf g k)) = leBytes 9 w.toNat := by
    rw [leBytes_eq_map]
    refine List.map_congr_left fun k hk => ?_
    have hk9 : k < 9 := List.mem_range.mp hk
    have hall : ∀ k ∈ List.range 9, k < 9 ∧ bit 0x1FF k = true := by decide
    rw [setWordBytes_eq, putWordBytes_byte w hg hk9 hall h, if_pos hk]
  rw [Mem.word, hbytes, leNat_leBytes, Nat.mod_eq_of_lt (show w.toNat < 256 ^ 9 from w.isLt), BitVec.ofNat_toNat, BitVec.setWidth_eq]

/-- A write of a word's bytes changes the cells alone. -/
theorem setWordBytes_frame (g mask : Nat) (w : Word72) (m : Mem) : ∃ c, m.setWordBytes g mask w = { m with cells := c } := by
  rw [setWordBytes_eq]
  generalize List.range 9 = l
  induction l generalizing m with
  | nil => exact ⟨m.cells, rfl⟩
  | cons k l ih =>
    obtain ⟨c, hc⟩ := ih (putWordByte g mask w m k)
    rw [List.foldl_cons, hc, putWordByte]
    split
    · exact ⟨c, rfl⟩
    · exact ⟨c, rfl⟩

theorem setSample_frame (i : Nat) (v : Sample) (m : Mem) : ∃ c, m.setSample i v = { m with cells := c } := setWordBytes_frame ..

theorem bobbinWord_lt (m : Mem) (i : Nat) : m.bobbinWord i < wordCount := Nat.mod_lt _ (by decide)

/-- Bits 17:0 of a word after its first sample has been merged. -/
theorem mergedSample_low (w : Word72) (v : Sample) :
    ((w &&& ~~~((0x3FFFF : Word72) <<< (0 : Nat))) ||| (v.setWidth 72 <<< (0 : Nat))).toNat % 2 ^ 18 = v.toNat := by
  rw [← BitVec.toNat_setWidth]
  congr 1
  ext i hi
  simp [← BitVec.getLsbD_eq_getElem]

/-- A bobbin whose first sample is written links to that value (R231). -/
theorem setSample_linkOf {i : Nat} {v : Sample} (h : m.wf = true) : (m.setSample (4 * m.bobbinWord i) v).linkOf i = v.toNat := by
  obtain ⟨c, hc⟩ := setSample_frame (4 * m.bobbinWord i) v m
  have hplace : (m.setSample (4 * m.bobbinWord i) v).bobbinWord i = m.bobbinWord i := by rw [hc]; rfl
  have hg : 4 * m.bobbinWord i / 4 = m.bobbinWord i := Nat.mul_div_cancel_left _ (by decide)
  have hk : 18 * (4 * m.bobbinWord i % 4) = 0 := by rw [Nat.mul_mod_right]
  rw [Mem.linkOf, hplace, Mem.setSample, hg, hk, setWordBytes_word _ (bobbinWord_lt m i) h, mergedSample_low]

end Sys2Proof.Machine
end

section
/-! The family of the host interface: the free list the pool builds as it is enabled (R231, R234). -/

namespace Sys2Proof.Machine

variable {m : Mem}

/-- The link a bobbin of a list just built holds: the next bobbin, and null after the last. -/
def builtLink (m : Mem) (i : Nat) : Nat := if i + 1 < m.poolSize then i + 1 else nullBobbin

theorem builtLink_lt (m : Mem) (i : Nat) : builtLink m i < 2 ^ 18 := by
  have hsize : m.poolSize ≤ 8192 := (Nat.min_le_right _ _).trans (Nat.min_le_left _ _)
  unfold builtLink nullBobbin
  split <;> omega

/-- The first word of a bobbin of the pool: a pool fits in the banks, so that no index wraps (R234). -/
theorem bobbinWord_inPool {i : Nat} (h : i < m.poolSize) :
    m.bobbinWord i = m.poolBase.toNat * 131072 + 32 * i ∧ m.poolBase.toNat * 131072 + 32 * i < 4194304 := by
  have hsize : m.poolSize ≤ (32 - m.poolBase.toNat) * 4096 := (Nat.min_le_right _ _).trans (Nat.min_le_right _ _)
  have hlt : m.poolBase.toNat * 131072 + 32 * i < 4194304 := by have := m.poolBase.isLt; omega
  exact ⟨Nat.mod_eq_of_lt hlt, hlt⟩

/-- Bits 17:0 of a bobbin's word 0, from its bytes. -/
theorem linkOf_bytes (m : Mem) (i : Nat) : m.linkOf i = (m.byte (cellOf (m.bobbinWord i) 0)).toNat +
    256 * (m.byte (cellOf (m.bobbinWord i) 1)).toNat + 65536 * ((m.byte (cellOf (m.bobbinWord i) 2)).toNat % 4) := by
  have hdvd : 2 ^ 18 ∣ 2 ^ 72 := ⟨2 ^ 54, by decide⟩
  rw [Mem.linkOf, Mem.word, BitVec.toNat_ofNat, Nat.mod_mod_of_dvd _ hdvd]
  generalize m.bobbinWord i = g
  have h0 := (m.byte (cellOf g 0)).isLt
  have h1 := (m.byte (cellOf g 1)).isLt
  have hr : List.range 9 = [0, 1, 2] ++ [3, 4, 5, 6, 7, 8] := by decide
  rw [hr, List.map_append]
  generalize [3, 4, 5, 6, 7, 8].map (fun k => m.byte (cellOf g k)) = rest
  simp only [List.map_cons, List.map_nil, List.cons_append, List.nil_append, leNat]
  omega

/-- What a build leaves of a stored cell has no bit of a link (R231). -/
theorem sget_buildCells {lo hi a : Nat} (ha : lo ≤ a ∧ a < hi ∧ a % 256 < 3) (l : List Host.Cell) :
    sget emptyCell (buildCells lo hi l) a &&& linkBits (a % 256) = 0 := by
  have hempty : emptyCell &&& linkBits (a % 256) = 0 := BitVec.zero_and
  induction l with
  | nil => exact hempty
  | cons e r ih =>
    obtain ⟨k, x⟩ := e
    rw [buildCells]
    by_cases hk : a = k
    · subst hk
      rw [if_pos ha]
      split
      · exact ih
      · rw [sget, if_pos rfl, BitVec.and_assoc, BitVec.and_comm (~~~_), BitVec.and_not_self]
        exact BitVec.and_zero
    · have hstep : ∀ y, sget emptyCell ((k, y) :: buildCells lo hi r) a &&& linkBits (a % 256) = 0 := fun y => by
        rw [sget, if_neg hk]
        split
        · exact hempty
        · exact ih
      split
      · split
        · exact ih
        · exact hstep _
      · exact hstep _

/-- Bits of a cell that a link overlays, where what is stored has none of them. -/
theorem overlaid_bits {x v w lb : Byte} (hx : x &&& lb = 0) : (x ^^^ ((v &&& ~~~lb) ||| w)) &&& lb = w &&& lb := by
  refine BitVec.eq_of_getLsbD_eq fun i hi => ?_
  have hxi : (x.getLsbD i && lb.getLsbD i) = false := by rw [← BitVec.getLsbD_and, hx]; exact BitVec.getLsbD_zero
  simp only [BitVec.getLsbD_and, BitVec.getLsbD_xor, BitVec.getLsbD_or, BitVec.getLsbD_not, hi, decide_true, Bool.true_and]
  cases hl : lb.getLsbD i with
  | false => simp only [Bool.and_false]
  | true =>
    rw [hl, Bool.and_true] at hxi
    rw [hxi, Bool.not_true, Bool.and_false, Bool.false_or, Bool.false_xor]

theorem bankOfCell_byte {a : Nat} (h : a < 0x02000000) : (bankOfCell a).val = a / 0x100000 := by
  have hb : bankOfCell a = Fin.ofNat 32 (a / 0x100000) := if_pos h
  rw [hb]
  exact Nat.mod_eq_of_lt (by omega)

/-- A bank the pool covers has the list built over it as its newest. -/
theorem build_newest {b : BankId} (h : m.poolBase.toNat ≤ b.val ∧ b.val * 4096 < m.poolBase.toNat * 4096 + m.poolSize) :
    m.build.banks[b].built = (m.poolBase.toNat, m.poolSize) :: m.banks[b].built := by
  have hget : m.build.banks[b] = if m.poolBase.toNat ≤ b.val ∧ b.val * 4096 < m.poolBase.toNat * 4096 + m.poolSize then
      { m.banks[b] with built := (m.poolBase.toNat, m.poolSize) :: m.banks[b].built } else m.banks[b] := Vector.getElem_ofFn _
  rw [hget, if_pos h]

/-- The link a cell of word 0 shows, where the newest list covers it (R231). -/
theorem link_of_newest {c : BankCtl} {a base size : Nat} {older : List (Nat × Nat)} (ha : a < 0x02000000 ∧ a % 256 < 3)
    (hc : c.built = (base, size) :: older) (hin : base * 0x100000 ≤ a ∧ a < base * 0x100000 + 256 * size) : c.link a =
      some (if (a - base * 0x100000) / 256 + 1 < size then (a - base * 0x100000) / 256 + 1 else nullBobbin) := by
  have hfind : (((base, size) :: older).find? fun p => decide (p.1 * 0x100000 ≤ a) && decide (a < p.1 * 0x100000 + 256 * p.2)) =
      some (base, size) := List.find?_cons_of_pos (Bool.and_eq_true_iff.mpr ⟨decide_eq_true hin.1, decide_eq_true hin.2⟩)
  rw [BankCtl.link, if_pos ha, hc, hfind, Option.map_some]

section Cell

variable {i k : Nat} (hi : i < m.poolSize) (hk : k < 3)

include hi hk

theorem bobbinCell_eq : cellOf (m.bobbinWord i) k = m.poolBase.toNat * 0x100000 + 256 * i + k := by
  rw [cellOf, if_pos (by omega), (bobbinWord_inPool hi).1]
  omega

/-- The bank of a bobbin's link is one the pool covers. -/
theorem bobbinCell_bank : m.poolBase.toNat ≤ (bankOfCell (cellOf (m.bobbinWord i) k)).val ∧
    (bankOfCell (cellOf (m.bobbinWord i) k)).val * 4096 < m.poolBase.toNat * 4096 + m.poolSize := by
  obtain ⟨-, hlt⟩ := bobbinWord_inPool hi
  have hcell := bobbinCell_eq hi hk
  have hbyte : cellOf (m.bobbinWord i) k < 0x02000000 := by omega
  rw [bankOfCell_byte hbyte]
  generalize cellOf (m.bobbinWord i) k = a at hcell ⊢
  generalize m.poolBase.toNat = base at hcell hlt ⊢
  generalize m.poolSize = size at hi ⊢
  omega

theorem build_link (c : BankCtl) {older : List (Nat × Nat)} (hc : c.built = (m.poolBase.toNat, m.poolSize) :: older) :
    c.link (cellOf (m.bobbinWord i) k) = some (builtLink m i) := by
  obtain ⟨-, hlt⟩ := bobbinWord_inPool hi
  have hcell := bobbinCell_eq hi hk
  have hat : (cellOf (m.bobbinWord i) k - m.poolBase.toNat * 0x100000) / 256 = i := by omega
  have hplace : cellOf (m.bobbinWord i) k < 0x02000000 ∧ cellOf (m.bobbinWord i) k % 256 < 3 := by omega
  rw [link_of_newest hplace hc ⟨by omega, by omega⟩, hat, builtLink]

/-- The bits of the link in a bobbin's bytes once the list is built. -/
theorem build_byte : m.build.byte (cellOf (m.bobbinWord i) k) &&& linkBits k =
    BitVec.ofNat 8 (builtLink m i / 256 ^ k) &&& linkBits k := by
  have hcell := bobbinCell_eq hi hk
  have hmod : cellOf (m.bobbinWord i) k % 256 = k := by omega
  have hstored : sget emptyCell m.build.cells (cellOf (m.bobbinWord i) k) &&& linkBits (cellOf (m.bobbinWord i) k % 256) = 0 :=
    sget_buildCells (by omega) m.cells
  rw [hmod] at hstored
  rw [Mem.byte, Mem.mask, build_link hi hk _ (build_newest (bobbinCell_bank hi hk))]
  simp only [hmod]
  exact overlaid_bits hstored

end Cell

/-- Enabling the pool links every bobbin to the next (R231, R234). -/
theorem build_linkOf {i : Nat} (h : i < m.poolSize) : m.build.linkOf i = builtLink m i := by
  have hlt := builtLink_lt m i
  have hwhole : ∀ x : Byte, x &&& 0xFF = x := fun x => BitVec.and_allOnes
  have hlow : ∀ x : Byte, (x &&& 3).toNat = x.toNat % 4 := fun x => by
    rw [BitVec.toNat_and]
    exact Nat.and_two_pow_sub_one_eq_mod x.toNat 2
  have h0 := congrArg BitVec.toNat (build_byte h (k := 0) (by decide))
  have h1 := congrArg BitVec.toNat (build_byte h (k := 1) (by decide))
  have h2 := congrArg BitVec.toNat (build_byte h (k := 2) (by decide))
  simp only [linkBits, hwhole, hlow, if_true, if_false, show ¬ (0 = 2) by decide, show ¬ (1 = 2) by decide, BitVec.toNat_ofNat] at h0 h1 h2
  have hplace : m.build.bobbinWord i = m.bobbinWord i := rfl
  rw [linkOf_bytes, hplace, h0, h1, h2]
  omega

end Sys2Proof.Machine
end

section
/-! The family of the host interface: BAR2, the pool's rows and the scrub pass (R60, R222, R229 to R234). -/

namespace Sys2Proof.Machine

variable {s t : State} {m : Mem}

/-! BAR2 (R60, R222). -/

theorem meetErrors_none (s : State) (lo hi who : Nat) : s.meetErrors [] lo hi who = s := rfl

/-- A byte-class write that meets neither port A nor a bit error stores its bytes. -/
theorem mergeWrite_undisturbed (s : State) (a : Nat) (bs : List Byte) (who : Nat) :
    s.mergeWrite a bs [] [] who = (s.wakeRange a (a + bs.length)).modMem fun m => m.mergeBytes a bs := rfl

section Bar2

variable {off : BitVec 25} (size : Nat) (hup : s.host.pcieUp = true)

include hup

theorem bar2_denied (hb : s.host.bench = false) (portA : List Nat) (ecc : List EccErr) (write : Option (List Byte)) :
    execBar2Access off size write portA ecc s = .next (match write with
      | some _ => s.modHost fun h => { h with bar2Denied := satAdd 255 h.bar2Denied 1 }
      | none => (s.modHost fun h => { h with bar2Denied := satAdd 255 h.bar2Denied 1 }).emit (.busRead (List.replicate size 0xFF) false)) := by
  rw [execBar2Access, hup, hb]
  cases write <;> rfl

theorem bar2_write (hb : s.host.bench = true) {bs : List Byte} (hin : off.toNat + bs.length ≤ 0x02000000) :
    execBar2Access off size (some bs) [] [] s =
      .next ((s.wakeRange off.toNat (off.toNat + bs.length)).modMem fun m => m.mergeBytes off.toNat bs).tick := by
  have htake : bs.take (0x02000000 - off.toNat) = bs := List.take_of_length_le (by omega)
  rw [execBar2Access, hup, hb, ← mergeWrite_undisturbed s off.toNat bs reqHost, ← congrArg (s.mergeWrite off.toNat · [] [] reqHost) htake]
  rfl

theorem bar2_read (hb : s.host.bench = true) (hin : off.toNat + size ≤ 0x02000000) :
    execBar2Access off size none [] [] s =
      .next ((s.wakeRange off.toNat (off.toNat + size)).emit
        (.busRead ((s.wakeRange off.toNat (off.toNat + size)).mem.readBytes off.toNat size)
          (firstPoison (s.wakeRange off.toNat (off.toNat + size)).mem off.toNat (off.toNat + size)).isSome)) := by
  have hmin : min size (0x02000000 - off.toNat) = size := by omega
  rw [execBar2Access, hup, hb]
  simp only [hmin, meetErrors_none]
  rfl

end Bar2

/-- Waking banks leaves the pool as it stands. -/
theorem OnlyControls.pool (h : OnlyControls s t) : t.mem.head = s.mem.head ∧ t.mem.freeCount = s.mem.freeCount ∧ t.mem.relErr = s.mem.relErr ∧
    t.mem.poolSize = s.mem.poolSize ∧ t.mem.used = s.mem.used ∧ t.mem.cells = s.mem.cells := by
  obtain ⟨p, c, rfl⟩ := h
  exact ⟨rfl, rfl, rfl, rfl, rfl, rfl⟩

/-- Updates that agree on the memory as it stands leave the same state. -/
theorem modMem_congr {f g : Mem → Mem} (h : f s.mem = g s.mem) : s.modMem f = s.modMem g := by rw [State.modMem, State.modMem, h]

/-! Allocation and release (R231 to R233). -/

/-- What an allocation of a pool that is not empty leaves of the memory: the head is given out and takes its bobbin's link. -/
def Mem.taken (m : Mem) : Mem :=
  { m with head := m.linkOf m.head, freeCount := m.freeCount - 1, used := insertNat m.head m.used }

theorem alloc_some (h : m.head ≠ nullBobbin) : m.alloc = (m.taken, some m.head) := if_neg h

theorem alloc_none (h : m.head = nullBobbin) : m.alloc = (m, none) := if_pos h

theorem grab_some (h : s.mem.head ≠ nullBobbin) :
    s.grab = ((s.wakeChain [s.mem.head]).modMem fun _ => (s.wakeChain [s.mem.head]).mem.taken, some s.mem.head) := by
  obtain ⟨c, hm⟩ := (wakeChain_onlyControls [s.mem.head] s).mem
  have hhead : (s.wakeChain [s.mem.head]).mem.head = s.mem.head := by rw [hm]
  have halloc := alloc_some (m := (s.wakeChain [s.mem.head]).mem) (by rw [hhead]; exact h)
  unfold State.grab
  simp only [if_neg h, halloc, hhead]

theorem grab_none (h : s.mem.head = nullBobbin) : s.grab = (s, none) := by
  unfold State.grab
  simp only [if_pos h, alloc_none h]
  rfl

/-- The bobbin goes to its requester; what the distaff's own request waited for has come. -/
def Mem.giveTo (m : Mem) (u : PoolUser) (i : Nat) : Mem :=
  if u = .own then { m with handed := m.handed ++ [(u, i)], waiters := 0, notice := false } else { m with handed := m.handed ++ [(u, i)] }

theorem giveTo_frame (u : PoolUser) (i : Nat) (m : Mem) : (m.giveTo u i).head = m.head ∧ (m.giveTo u i).freeCount = m.freeCount ∧
    (m.giveTo u i).handed = m.handed ++ [(u, i)] ∧ (m.giveTo u i).cells = m.cells ∧ (m.giveTo u i).linkDrop = m.linkDrop ∧
    (m.giveTo u i).relErr = m.relErr ∧ (m.giveTo u i).waiters = if u = .own then 0 else m.waiters := by
  cases u <;> exact ⟨rfl, rfl, rfl, rfl, rfl, rfl, rfl⟩

theorem bobbinAllocate_some (u : PoolUser) {i : Nat} (hen : s.mem.poolEn = true) (h : s.grab = (t, some i)) :
    execBobbinAllocate u s = .next (t.modMem fun m => m.giveTo u i) := by
  unfold execBobbinAllocate
  rw [hen]
  cases u <;> simp only [h] <;> rfl

theorem bobbinAllocate_none (u : PoolUser) (hen : s.mem.poolEn = true) (h : s.grab = (t, none)) : execBobbinAllocate u s =
    .next (match u with
      | .link => s.modMem fun m => { m with linkDrop := satAdd 255 m.linkDrop 1 }
      | .command => s
      | .own => s.modMem fun m => { m with waiters := 1 }) := by
  unfold execBobbinAllocate
  rw [hen]
  cases u <;> simp only [h] <;> rfl

theorem release_taken {i : Nat} (hi : i < m.poolSize) (hu : i ∈ m.used) : m.release i =
    { m.setSample (4 * m.bobbinWord i) (BitVec.ofNat 18 m.head) with
      head := i, freeCount := m.freeCount + 1, used := m.used.erase i, handed := m.handed.filter fun e => e.2 != i
      notice := m.notice || m.freeCount == 0 } :=
  if_neg (by simp [hi, hu])

/-- A bobbin released becomes the head and links to the old one (R232). -/
theorem release_links {i : Nat} (hwf : m.wf = true) (hi : i < m.poolSize) (hu : i ∈ m.used) (hh : m.head < 2 ^ 18) :
    (m.release i).head = i ∧ (m.release i).linkOf i = m.head ∧ (m.release i).freeCount = m.freeCount + 1 ∧
      (m.release i).relErr = m.relErr ∧ (m.freeCount = 0 → (m.release i).notice = true) := by
  obtain ⟨c, hset⟩ := setSample_frame (4 * m.bobbinWord i) (BitVec.ofNat 18 m.head) m
  have hlink : (m.setSample (4 * m.bobbinWord i) (BitVec.ofNat 18 m.head)).linkOf i = m.head :=
    (setSample_linkOf hwf).trans (Nat.mod_eq_of_lt hh)
  have herr : (m.setSample (4 * m.bobbinWord i) (BitVec.ofNat 18 m.head)).relErr = m.relErr := by rw [hset]
  rw [release_taken hi hu]
  refine ⟨rfl, hlink, rfl, herr, fun h => ?_⟩
  change (m.notice || m.freeCount == 0) = true
  rw [h, beq_self_eq_true, Bool.or_true]

theorem release_bad {i : Nat} (hu : i ∉ m.used) : m.release i = { m with relErr := satAdd 255 m.relErr 1 } :=
  if_pos (by simp [hu])

theorem bobbinRelease_taken {i : Sample} (hen : s.mem.poolEn = true) (hu : i.toNat ∈ s.mem.used) :
    execBobbinRelease i s = .next ((s.wakeChain [i.toNat]).modMem fun m => m.release i.toNat) := by
  rw [execBobbinRelease, hen, List.contains_iff_mem.mpr hu]
  rfl

theorem bobbinRelease_bad {i : Sample} (hen : s.mem.poolEn = true) (hu : i.toNat ∉ s.mem.used) :
    execBobbinRelease i s = .next (s.modMem fun m => m.release i.toNat) := by
  have hc : ¬ s.mem.used.contains i.toNat = true := fun h => hu (List.contains_iff_mem.mp h)
  rw [execBobbinRelease, hen, if_neg hc]
  rfl

/-! The pool's configuration (R234). -/

section PoolCfg

variable {base : BitVec 5} {count : BitVec 14}

theorem poolCfg_base : BitVec.ofNat 5 (base.toNat + count.toNat * 2 ^ 15 + 2 ^ 31) = base :=
  BitVec.eq_of_toNat_eq (by rw [BitVec.toNat_ofNat]; omega)

theorem poolCfg_count : BitVec.ofNat 14 ((base.toNat + count.toNat * 2 ^ 15 + 2 ^ 31) / 2 ^ 15) = count :=
  BitVec.eq_of_toNat_eq (by rw [BitVec.toNat_ofNat]; omega)

theorem poolCfg_enables : bit (base.toNat + count.toNat * 2 ^ 15 + 2 ^ 31) 31 = true := by
  have hb := base.isLt
  have hc := count.isLt
  have hq : (base.toNat + count.toNat * 2 ^ 15 + 2 ^ 31) / 2 ^ 31 = 1 := by omega
  rw [bit, hq]
  rfl

/-- Enabling a pool that is enabled changes nothing. -/
theorem enablePool_enabled (h : m.poolEn = true) : writePoolCfg (m.poolBase.toNat + m.poolCount.toNat * 2 ^ 15 + 2 ^ 31) m = m := by
  unfold writePoolCfg
  simp only [h, poolCfg_enables, if_true, Bool.not_true, Bool.and_false, Bool.false_eq_true, if_false]

/-- Enabling one that is not builds its list, with base and count as they stand (R231, R234). -/
theorem enablePool_builds (h : m.poolEn = false) : writePoolCfg (m.poolBase.toNat + m.poolCount.toNat * 2 ^ 15 + 2 ^ 31) m = m.build := by
  unfold writePoolCfg
  simp only [h, poolCfg_enables, poolCfg_base, poolCfg_count, Bool.false_eq_true, if_false, Bool.not_false, Bool.and_self, if_true]
  rw [← h]

end PoolCfg

/-- A write of the pool's counter register clears both counts (R234). -/
theorem writeReg_poolCnt (s : State) : s.writeReg 0x80502004 0x80000000 = s.modMem clearPoolCnt := by
  rw [State.writeReg]
  simp only [show (0x80000000 : Word).toNat = 0x80000000 from rfl]
  norm_num [bit]

/-- Both counts of bit errors clear where both bits are written as 1 (R234). -/
theorem clearBankErr_both (c : BankCtl) : clearBankErr 0x10001 c = { c with ce := 0, ue := 0 } := by
  have h0 : bit 0x10001 0 = true := by decide
  have h16 : bit 0x10001 16 = true := by decide
  rw [clearBankErr, h0, h16, if_pos rfl, if_pos rfl]

/-! The scrub pass (R229, R230). -/

theorem keepRows_mem (b : BankId) (row : Nat) (s : State) : (s.keepRows b row).mem = s.mem := by
  obtain ⟨h, out, r, e⟩ := s.logRec_frame 3 50 b row [] 0
  obtain ⟨h', out', r', e'⟩ := State.wearRange_frame ((Config.rowMapAt + 1 + 4095) / 4096 - Config.rowMapAt / 4096) (s.logEvent 3 50 b row)
    (Config.rowMapAt / 4096)
  rw [State.keepRows, State.mramWrite, e', State.logEvent, e]

/-- One row of the bank goes over to a spare, and the row map is kept (R230). -/
def repairRow (b : BankId) (s : State) (row : Nat) : State :=
  (s.modMem fun m => m.modBank b fun c => { (switchRow row c) with spares := c.spares + 1 }).keepRows b row

theorem repairRow_mem (b : BankId) (row : Nat) (s : State) :
    (repairRow b s row).mem = s.mem.modBank b fun c => { (switchRow row c) with spares := c.spares + 1 } := keepRows_mem ..

theorem modBank_self (b : BankId) (f : BankCtl → BankCtl) (m : Mem) : (m.modBank b f).banks[b] = f m.banks[b] :=
  Vector.getElem_set_self ..

theorem modBank_cells (b : BankId) (f : BankCtl → BankCtl) (m : Mem) : (m.modBank b f).cells = m.cells := rfl

theorem repairRow_lastFixed (b : BankId) (row : Nat) (s : State) :
    (repairRow b s row).mem.banks[b].lastFixed = s.mem.banks[b].lastFixed := by
  rw [repairRow_mem, modBank_self]
  rfl

/-- Repairs touch neither the cells nor the words the pass remembers. -/
theorem repairRows_cells (b : BankId) (rows : List Nat) (s : State) : (rows.foldl (repairRow b) s).mem.cells = s.mem.cells :=
  foldl_frame (fun s => s.mem.cells) (fun t row => by rw [repairRow_mem, modBank_cells]) rows s

theorem repairRows_lastFixed (b : BankId) (rows : List Nat) (s : State) :
    (rows.foldl (repairRow b) s).mem.banks[b].lastFixed = s.mem.banks[b].lastFixed :=
  foldl_frame (fun s : State => s.mem.banks[b].lastFixed) (fun t row => repairRow_lastFixed b row t) rows s

/-- No row calls for repair where no word of the bank is poisoned and the last pass corrected none (R230). -/
theorem rowsToRepair_none {b : BankId} {fixed : List Nat} (hpoison : ∀ g ∈ m.poison, g / 131072 ≠ b.val)
    (hlast : m.banks[b].lastFixed = []) : rowsToRepair m b fixed = [] := by
  have hbad : m.poison.filter (fun g => g / 131072 == b.val) = [] :=
    List.filter_eq_nil_iff.mpr fun g hg h => hpoison g hg (beq_iff_eq.mp h)
  have htwice : fixed.filter (fun g => m.banks[b].lastFixed.contains g) = [] :=
    List.filter_eq_nil_iff.mpr fun g _ => by rw [hlast]; exact Bool.false_ne_true
  unfold rowsToRepair
  simp only [hbad, htwice]
  rfl

/-- A single-bit error corrected in a bank counts there (R229). -/
def countCorrected (b : BankId) (s : State) : State := s.modMem fun m => m.modBank b fun c => { c with ce := satAdd 65535 c.ce 1 }

theorem countCorrected_bank (b : BankId) (s : State) : (countCorrected b s).mem.banks[b] =
    { s.mem.banks[b] with ce := satAdd 65535 s.mem.banks[b].ce 1 } := modBank_self ..

section Scrub

variable {b : BankId} (hrun : s.pwr.banks[b].st = .run) (hmode : s.mem.banks[b].pmode ≠ 1) (hclear : s.mem.banks[b].clearing = false)

include hrun hmode hclear

/-- A pass reads every word of its bank, repairs the rows that call for it and remembers the words it corrected. -/
theorem scrubPass_of {ecc mine : List EccErr} {u : State} {fixed : List Nat}
    (hmine : ecc.filter (fun e => decide (b.val * 131072 ≤ e.word) && decide (e.word < b.val * 131072 + 131072)) = mine)
    (hmeet : s.meetErrors mine (b.val * 131072) (b.val * 131072 + 131072) reqScrub = u)
    (hfixed : (mine.filter fun e => !e.double).map (·.word) = fixed) : execScrubPass b ecc s =
      .next (((rowsToRepair u.mem b fixed).take (64 - u.mem.banks[b].spares)).foldl (repairRow b)
        (u.modMem fun m => m.modBank b fun c => { c with lastFixed := fixed })) := by
  subst hmine hmeet hfixed
  have hworks : ¬ (s.pwr.banks[b].st ≠ .run ∨ s.mem.banks[b].pmode = 1 ∨ s.mem.banks[b].clearing = true) :=
    not_or.mpr ⟨not_not_intro hrun, not_or.mpr ⟨hmode, by rw [hclear]; decide⟩⟩
  exact congrArg _ (if_neg hworks)

/-- A single-bit error in a bank without poison is corrected and counted, and its word is remembered. -/
theorem scrubPass_single (hpoison : ∀ g : Nat, g ∈ s.mem.poison → g / 131072 ≠ b.val) (hlast : s.mem.banks[b].lastFixed = []) :
    execScrubPass b [⟨b.val * 131072, false⟩] s =
      .next ((countCorrected b s).modMem fun m => m.modBank b fun c =>
        { c with lastFixed := [b.val * 131072] }) := by
  have hbank : bankOf (b.val * 131072) = some b := by
    rw [bankOf, Nat.mul_div_cancel _ (by decide)]
    exact dif_pos b.isLt
  have hclean : s.mem.isPoisoned (b.val * 131072) = false := by
    rw [Mem.isPoisoned, List.contains_eq_mem, decide_eq_false_iff_not]
    exact fun h => hpoison _ h (Nat.mul_div_cancel _ (by decide))
  have hmeet : s.meetErrors [⟨b.val * 131072, false⟩] (b.val * 131072) (b.val * 131072 + 131072) reqScrub =
      countCorrected b s := by
    simp [State.meetErrors, State.bankError, hbank, hclean, countCorrected]
  have hmine : ([⟨b.val * 131072, false⟩] : List EccErr).filter
      (fun e => decide (b.val * 131072 ≤ e.word) && decide (e.word < b.val * 131072 + 131072)) = [⟨b.val * 131072, false⟩] :=
    List.filter_cons_of_pos (by simp)
  rw [scrubPass_of hrun hmode hclear hmine hmeet (fixed := [b.val * 131072]) rfl]
  have hlast' : (countCorrected b s).mem.banks[b].lastFixed = [] := by rw [countCorrected_bank]; exact hlast
  rw [rowsToRepair_none (m := (countCorrected b s).mem) hpoison hlast', List.take_nil]
  rfl

end Scrub

end Sys2Proof.Machine

open Sys2Proof Sys2Proof.Machine

/-- Settles O48: BAR2 by the bench bit; the pool by its free list's head; the list a build leaves; the scrub pass by what it meets. -/
theorem banksAndPoolEventsAct : Obligations.BanksAndPoolEventsAct := by
  refine ⟨fun off n portA ecc bs s hup hb => ⟨bar2_denied n hup hb portA ecc (some bs), bar2_denied n hup hb portA ecc none⟩,
    fun off n bs s hup hb hw hr => ⟨bar2_write n hup hb hw, bar2_read n hup hb hr⟩, fun s u hen hh hr => ?allocate, fun s hen hh => ?empty,
    fun i s hen hi hu hh hc => ?release, fun i s hen hu => ?bad, fun s hen => ?enabled, fun s hen => ?build,
    fun s => ⟨_, congrArg Host.Outcome.next (writeReg_poolCnt s), rfl, rfl, rfl, rfl⟩, fun b s => ⟨rfl, ?errors⟩, fun b s h => congrArg _ (if_pos h),
    fun b s h => congrArg _ (if_neg (by rw [h]; decide)), fun b s hrun hmode hclear => ⟨?clean, fun hpoison hlast => ?single⟩⟩
  case allocate =>
    have hnext := bobbinAllocate_some u hen (grab_some hh)
    obtain ⟨c, hm⟩ := (wakeChain_onlyControls [s.mem.head] s).mem
    have hlink : (s.wakeChain [s.mem.head]).mem.linkOf (s.wakeChain [s.mem.head]).mem.head = s.mem.linkOf s.mem.head := by
      rw [wakeChain_linkOf _ hr, hm]
    obtain ⟨hhead, hcount, hgiven, hcells, hdrop, herr, hwait⟩ := giveTo_frame u s.mem.head (s.wakeChain [s.mem.head]).mem.taken
    refine ⟨_, hnext, hhead.trans hlink, hcount.trans ?_, hgiven.trans ?_, hcells.trans ?_, hdrop.trans ?_, herr.trans ?_, hwait.trans ?_⟩
    all_goals rw [Mem.taken, hm]
  case empty =>
    exact ⟨bobbinAllocate_none .link hen (grab_none hh), bobbinAllocate_none .command hen (grab_none hh),
      bobbinAllocate_none .own hen (grab_none hh)⟩
  case release =>
    obtain ⟨hhead, hfree, herr, hsize, hused, hcells⟩ := (wakeChain_onlyControls [i.toNat] s).pool
    have hwf : (s.wakeChain [i.toNat]).mem.wf = true := by rw [Mem.wf, hcells]; exact hc.1
    obtain ⟨hhead', hlink', hfree', herr', hnotice'⟩ := release_links (i := i.toNat) hwf (hsize ▸ hi) (hused ▸ hu) (hhead ▸ hh)
    refine ⟨_, bobbinRelease_taken hen hu, ?_⟩
    rw [State.modMem_mem, ← hhead, ← hfree, ← herr]
    exact ⟨hhead', hlink', hfree', herr', hnotice'⟩
  case bad => exact (bobbinRelease_bad hen hu).trans (congrArg Host.Outcome.next (modMem_congr (release_bad hu)))
  case enabled => exact congrArg Host.Outcome.next (modMem_congr (g := id) (enablePool_enabled hen))
  case build =>
    have hnext : exec .bnkPoolEnable s = .next (s.modMem fun _ => s.mem.build) :=
      congrArg Host.Outcome.next (modMem_congr (enablePool_builds hen))
    refine ⟨_, hnext, ?_⟩
    rw [State.modMem_mem]
    exact ⟨rfl, rfl, rfl, rfl, rfl, fun i hi => build_linkOf hi⟩
  case errors => exact congrArg (fun f => Host.Outcome.next (s.modMem fun m => m.modBank b f)) (funext clearBankErr_both)
  case clean =>
    refine ⟨_, scrubPass_of hrun hmode hclear rfl rfl rfl, (repairRows_lastFixed b _ _).trans ?_, repairRows_cells b _ _⟩
    exact congrArg BankCtl.lastFixed (modBank_self ..)
  case single =>
    refine ⟨_, scrubPass_single hrun hmode hclear hpoison hlast, ?_⟩
    rw [State.modMem_mem, modBank_self, countCorrected_bank]
    exact ⟨rfl, rfl, rfl⟩
end

section
/-! The family of the host interface: the control instructions of a flyer engine (R198, R204, R208). -/

namespace Sys2Proof.Machine

variable {e : EngineId} {s : State} {x y z : Engine}

theorem setEngine_self (s : State) (e : EngineId) (x : Engine) : (s.setEngine e x).engines[e] = x := Vector.getElem_set_self ..

theorem setEngine_other {j : EngineId} (h : j ≠ e) (s : State) (x : Engine) : (s.setEngine e x).engines[j] = s.engines[j] :=
  Vector.getElem_set_ne e.isLt j.isLt fun he => h (Fin.ext he.symm)

/-! What HALT, WAITF and BRK do, by what they meet (R194, R204, R217). -/

theorem halt_continues (h : Issues e s) (hp : s.engines[e].poison = none) (hc : s.engines[e].status.getLsbD 12 = true) :
    exec (.flHalt e) s = .next (s.issued e 1 .next (s.engines[e].setStatus 12 false)) :=
  congrArg Host.Outcome.next (issue_issued 1 h (by simp only [hp, hc, if_true]))

theorem halt_stops (h : Issues e s) (hp : s.engines[e].poison = none) (hc : s.engines[e].status.getLsbD 12 = false) :
    exec (.flHalt e) s = .next (s.modEngine e fun x => { x with run := if x.run = .stepping then .debug else .halted }) :=
  congrArg Host.Outcome.next (issue_stay 1 false h (by simp only [hp, hc, Bool.false_eq_true, if_false]))

theorem waitf_continues (h : Issues e s) {n : BitVec 2} (hp : s.engines[e].poison = none) (hn : s.engines[e].fab.length ≤ n.toNat) :
    exec (.flWaitf e n) s = .next (s.issued e 1 .next s.engines[e]) :=
  congrArg Host.Outcome.next (issue_issued 1 h (by simp only [hp, hn, if_true]))

theorem waitf_waits (h : Issues e s) {n : BitVec 2} (hn : n.toNat < s.engines[e].fab.length) :
    exec (.flWaitf e n) s = .next (s.modEngine e fun x => { x with run := .stalled n.toNat (decide (x.run = .stepping)) }) :=
  congrArg Host.Outcome.next (issue_stay 1 false h (if_neg (Nat.not_le.mpr hn)))

theorem brk_idle (h : Issues e s) (hb : s.host.bench = false ∨ s.roles[e].attached = false) :
    exec (.flBrk e) s = .next (s.issued e 1 .next s.engines[e]) := by
  have hoff : ¬ (s.host.bench && s.roles[e].attached) = true := by
    rw [Bool.and_eq_true]
    rintro ⟨hbench, hatt⟩
    rcases hb with hb | hb
    · exact Bool.false_ne_true (hb.symm.trans hbench)
    · exact Bool.false_ne_true (hb.symm.trans hatt)
  exact congrArg Host.Outcome.next (issue_issued 1 h (by simp only [if_neg hoff]))

theorem brk_waits (h : Issues e s) (hb : s.host.bench = true) (ha : s.roles[e].attached = true) :
    exec (.flBrk e) s = .next ((s.modRole e fun r => { r with haltDue := true }).issued e 1 .next s.engines[e]) :=
  congrArg Host.Outcome.next (issue_issued 1 h (by simp only [hb, ha, Bool.and_self, if_true]))

/-! RETI and RETX (R204, R208, R216). -/

theorem reti_here (h : Issues e s) (hk : s.engines[e].slotHandled = none) :
    exec (.flReti e) s = .next (s.issued e 1 (.resume s.engines[e].epc false) s.engines[e].reti) :=
  congrArg Host.Outcome.next (issue_issued 1 h (by simp only [hk]))

theorem reti_reroutes (h : Issues e s) {k : Fin 4} (hk : s.engines[e].slotHandled = some k) : exec (.flReti e) s =
    .next ((s.reroute e k).issued e 1 (.resume s.engines[e].epc false) (s.reroute e k).engines[e].reti) :=
  congrArg Host.Outcome.next (issue_issued 1 h (by simp only [hk]))

theorem retx_resumes (h : Issues e s) : exec (.flRetx e) s =
    .next (s.issued e 1 (.resume s.engines[e].bank.xpc s.engines[e].retx.2) s.engines[e].retx.1) :=
  congrArg Host.Outcome.next (issue_issued 1 h rfl)

/-- An issue cycle in which no write lands changes nothing but how long the writes still take (R195). -/
theorem age_undue {cycles : Nat} (h : ∀ w ∈ x.pend, cycles < w.left) : ∃ p, x.age cycles = { x with pend := p } := by
  have hdue : x.pend.filter (fun w => decide (w.left ≤ cycles)) = [] :=
    List.filter_eq_nil_iff.mpr fun w hw hle => Nat.not_le.mpr (h w hw) (of_decide_eq_true hle)
  rw [Engine.age, List.partition_eq_filter_filter, hdue]
  exact ⟨_, rfl⟩

/-- An engine that runs, with no interrupt pending, in the user's code, neither due to halt nor retiring, goes on as it stands
after its instruction (R198, R211, R217). -/
theorem issued_goesOn {cycles : Nat} {fl : Flow} (hz : (flowOn cycles fl { y with divs := none }).age cycles = z)
    (hrun : z.run = .running) (horder : z.order = []) (hpc : 4096 ≤ z.pc.toNat) (hret : s.roles[e].retiring = none)
    (hhalt : s.roles[e].haltDue = false) : s.issued e cycles fl y = (s.setEngine e z).tick := by
  have hfinish : finishIssue cycles fl { y with divs := none } = z := by
    rw [finishIssue, hz, hrun, takeInterrupt, horder]
    rfl
  have hpc' : 4096 ≤ (s.setEngine e z).engines[e].pc.toNat := by rw [setEngine_self]; exact hpc
  have hhalted : (s.setEngine e z).haltIfDue e = s.setEngine e z := by
    have hoff : (s.setEngine e z).roles[e].haltDue = false := hhalt
    rw [State.haltIfDue, hoff]
    rfl
  rw [State.issued, hfinish, State.afterIssue, runtimes2_user hpc' hret, hhalted]

/-- An engine back at a target after RETI or RETX. -/
def Engine.backAt (x : Engine) (target : BitVec 14) (shadow : Bool) : Engine :=
  { x with divs := none, shadow := shadow, pc := target, delay := none }

/-- An engine that comes back into the user's code, with no write landing on the way, goes on there. -/
theorem issued_resumes {target : BitVec 14} (shadow : Bool) (hpend : ∀ w ∈ y.pend, 1 < w.left) (hrun : y.run = .running) (horder : y.order = [])
    (hpc : 4096 ≤ target.toNat) (hret : s.roles[e].retiring = none) (hhalt : s.roles[e].haltDue = false) :
    ∃ p, s.issued e 1 (.resume target shadow) y = (s.setEngine e { y.backAt target shadow with pend := p }).tick := by
  obtain ⟨p, hp⟩ := age_undue (x := y.backAt target shadow) hpend
  exact ⟨p, issued_goesOn (z := { y.backAt target shadow with pend := p }) hp hrun horder hpc hret hhalt⟩

/-- Only the mode of a shadow is under way after RETX, and it is seen at distance 2 (R195, R208). -/
theorem retx_pend (h : x.pend = []) : ∀ w ∈ x.retx.1.pend, 1 < w.left := by
  unfold Engine.retx
  dsimp only
  split
  · simp only [Engine.put, h, List.nil_append, List.mem_singleton]
    rintro w rfl
    exact Nat.one_lt_two
  · rw [h]
    exact fun w hw => absurd hw List.not_mem_nil

theorem retx_frame (x : Engine) : x.retx.1.run = x.run ∧ x.retx.1.order = x.order := by
  unfold Engine.retx
  dsimp only
  split <;> exact ⟨rfl, rfl⟩

theorem retx_status_eq (x : Engine) :
    x.retx.1.status = setBit (setBit (setBit (x.bank.xstat &&& ~~~0xE000) 6 false) 7 false) 8 false := by
  unfold Engine.retx
  dsimp only
  split <;> rfl

/-- Bits 15:13, fcnt, are no bits of the status register's own (R190). -/
theorem clearFcnt_getLsbD (v : BitVec 18) (b : Nat) : (v &&& ~~~0xE000).getLsbD b = if 13 ≤ b ∧ b ≤ 15 then false else v.getLsbD b := by
  by_cases hb : b < 18
  · have hmask : (0xE000 : BitVec 18).getLsbD b = decide (13 ≤ b ∧ b ≤ 15) := by
      interval_cases b <;> decide
    rw [BitVec.getLsbD_and, BitVec.getLsbD_not, hmask]
    split <;> simp [*]
  · rw [BitVec.getLsbD_of_ge _ _ (Nat.not_lt.mp hb), BitVec.getLsbD_of_ge v _ (Nat.not_lt.mp hb), ite_self]

/-- The status RETX brings back: xl, ds, ms and fcnt are clear (R190, R208). -/
theorem retx_status (x : Engine) (b : Nat) : x.retx.1.status.getLsbD b =
    if b = 6 ∨ b = 7 ∨ b = 8 ∨ 13 ≤ b ∧ b ≤ 15 then false else x.bank.xstat.getLsbD b := by
  rw [retx_status_eq, getLsbD_setBit _ (by decide), getLsbD_setBit _ (by decide), getLsbD_setBit _ (by decide), clearFcnt_getLsbD]
  by_cases h6 : b = 6
  · simp [h6]
  by_cases h7 : b = 7
  · simp [h7]
  by_cases h8 : b = 8
  · simp [h8]
  simp only [h6, h7, h8, false_or, if_false]

theorem retx_mode (x : Engine) : x.retx.1.mode =
    BitVec.ofNat 18 (if x.bank.xstat.getLsbD 8 = true then x.bank.xmode.toNat % 256 else x.bank.xmode.toNat / 256) := by
  unfold Engine.retx
  dsimp only
  split <;> rfl

end Sys2Proof.Machine

open Sys2Proof Sys2Proof.Machine

/-- Settles O41: each instruction by what it meets; where RETI and RETX come back into the user's code, the engine as it stands. -/
theorem controlInstructionsAct : Obligations.ControlInstructionsAct := by
  refine ⟨fun e s h => ⟨fun imm => congrArg Host.Outcome.next (issue_issued 1 h rfl),
      fun n h1 h6 => congrArg Host.Outcome.next (issue_issued 1 h (if_pos ⟨h1, h6⟩)), halt_continues h, halt_stops h,
      fun n => congrArg Host.Outcome.next (issue_issued 1 h rfl), fun n hp hn => waitf_continues h hp hn, fun n hn => waitf_waits h hn,
      brk_idle h, brk_waits h⟩,
    fun e s h => ⟨reti_here h, fun k hk => reti_reroutes h hk, retx_resumes h⟩,
    fun e s hw hrun hhalt hret horder hpend hk hpc => ?reti, fun e s hw hrun hhalt hret horder hpend hpc => ?retx⟩
  case reti =>
    obtain ⟨p, hnext⟩ := issued_resumes (y := s.engines[e].reti) false (fun w hw => absurd (hpend ▸ hw) List.not_mem_nil) hrun horder hpc hret hhalt
    refine ⟨_, (reti_here ⟨.inl hrun, hw⟩ hk).trans (congrArg Host.Outcome.next hnext), ?_⟩
    rw [State.tick_engines, setEngine_self]
    exact ⟨rfl, rfl, rfl, rfl, rfl, fun j hj => setEngine_other hj s _⟩
  case retx =>
    obtain ⟨hrun', horder'⟩ := retx_frame s.engines[e]
    obtain ⟨p, hnext⟩ := issued_resumes s.engines[e].retx.2 (retx_pend hpend) (hrun'.trans hrun) (horder'.trans horder) hpc hret hhalt
    refine ⟨_, (retx_resumes ⟨.inl hrun, hw⟩).trans (congrArg Host.Outcome.next hnext), ?_⟩
    rw [State.tick_engines, setEngine_self]
    exact ⟨rfl, retx_status _, retx_mode _, rfl, rfl, fun j hj => setEngine_other hj s _⟩
end

section
/-! The family of the host interface: domain time, its events and messages (R262 to R273). -/

namespace Sys2Proof.Machine

variable {s t : State} {d : Dom} {p : Port}

/-! The two domains as records of the time unit. -/

@[simp] theorem Time.modDom_dom (t : Time) (d : Dom) (f : TimeDom → TimeDom) : (t.modDom d f).dom d = f (t.dom d) := by cases d <;> rfl

@[simp] theorem modDom_dom (s : State) (d : Dom) (f : TimeDom → TimeDom) : (s.modDom d f).dom d = f (s.dom d) := Time.modDom_dom ..

theorem modDom_masterEvent (s : State) (d : Dom) (f : TimeDom → TimeDom) : (s.modDom d f).time.masterEvent = s.time.masterEvent := by
  cases d <;> rfl

theorem raise_time (v : Nat) (s : State) : (s.raise v).time = s.time := by
  obtain ⟨h, out, e, -⟩ := raise_frame (s := s) v
  rw [e]

theorem raise_dom (v : Nat) (s : State) (d : Dom) : (s.raise v).dom d = s.dom d := congrArg (Time.dom · d) (raise_time v s)

/-! Time events (R263, R264). -/

theorem sendTime_frame (s : State) (p : Port) (v : BitVec 56) : ∃ out, s.sendTime p v = { s with out := out } := by
  unfold State.sendTime
  dsimp only
  split <;> exact ⟨_, rfl⟩

theorem sendTime_two (v : BitVec 56) (h : blockTime (s.port p) = 1) : s.sendTime p v =
    (if Config.laneOne s.free (portIx p).val = true then s.emit (.slack p) else s).emit (.timeBlock p false v) := by
  unfold State.sendTime
  simp only [h, beq_self_eq_true, Bool.true_and, Bool.not_true, Bool.false_and]

theorem sendTime_one (v : BitVec 56) (h : blockTime (s.port p) = 2) : s.sendTime p v = s.emit (.timeBlock p ((s.port p).lock == 2) v) := by
  unfold State.sendTime
  simp only [h, show ((2 : Nat) == 1) = false from rfl, Bool.false_and, Bool.false_eq_true, if_false, Bool.not_false, Bool.true_and]

theorem syncSend_sends (hr : (s.port p).ready = true) (hm : (s.dom d).hasMaster = true) (ha : leadsAway s p d = true) :
    exec (.syncSend p d) s = .next (((s.modTime fun t => { t with syncSeq := t.syncSeq + 1 }).sendTime p
      (timePayload 0 d s.time.syncSeq 0)).sendTime p (timePayload 1 d s.time.syncSeq (domValue (s.dom d)))) :=
  congrArg Host.Outcome.next (if_pos (by rw [hr, hm, ha]; rfl))

theorem bit_eq_getLsbD {w : Nat} (v : BitVec w) (i : Nat) : bit v.toNat i = v.getLsbD i := by
  rw [bit, BitVec.getLsbD, Nat.testBit_eq_decide_div_mod_eq]
  rfl

/-- What a block of each kind does that arrives on a port that is ready. -/
def State.takeTime (s : State) (port : Port) (d : Dom) (q : BitVec 5) (value : Nat) (stamp : BitVec 64) (kind : Nat) : State :=
  let x := s.dom d
  let mine := !x.isMaster && (x.up == port || !x.hasMaster)
  match kind with
  | 0 => if mine then s.modDom d fun x => { x with sync := some (port, q, stamp), up := port } else s
  | 1 =>
    match x.sync with
    | some (p, n, t) => if mine && p == port && n == q then s.follow port d t value else s
    | none => s
  | 2 => s.sendTime port (timePayload 3 d q (wrapNat 48 (domAt s.time d stamp)))
  | _ =>
    match s.time.requests[portIx port] with
    | some (n, t) =>
      if n = q then
        let back := near48 ((value : Int) - domAt s.time d t)
        s.modTime fun y => { y with
          delays := y.delays.set (portIx port) (linkDelay (x.forwards[portIx port]) back y.delays[portIx port])
          requests := y.requests.set (portIx port) none }
      else s
    | none => s

theorem timeEventReceive_eq (p : Port) (v : BitVec 56) (stamp : BitVec 64) (s : State) : exec (.timeEventReceive p v stamp) s =
    .next (if !(s.port p).ready then s else s.takeTime p (if bit v.toNat 2 then .td2 else .td1) (BitVec.ofNat 5 (bits v.toNat 7 3))
      (bits v.toNat 55 8) stamp (bits v.toNat 1 0)) := rfl

/-- The fields of a block: its sequence in bits 7:3, its value above them, its kind in bits 1:0 (R263). -/
theorem blockFields (v : BitVec 56) : BitVec.ofNat 5 (bits v.toNat 7 3) = BitVec.ofNat 5 (v.toNat / 8) ∧ bits v.toNat 55 8 = v.toNat / 256 ∧
    bits v.toNat 1 0 = v.toNat % 4 := by
  have hv := v.isLt
  refine ⟨BitVec.eq_of_toNat_eq ?_, ?_, ?_⟩
  · rw [BitVec.toNat_ofNat, BitVec.toNat_ofNat, bits]
    exact Nat.mod_mod _ _
  · rw [bits]
    omega
  · rw [bits]
    omega

theorem timeEventReceive_ready (v : BitVec 56) (stamp : BitVec 64) (hr : (s.port p).ready = true) : exec (.timeEventReceive p v stamp) s =
    .next (s.takeTime p (if v.getLsbD 2 = true then .td2 else .td1) (BitVec.ofNat 5 (v.toNat / 8)) (v.toNat / 256) stamp (v.toNat % 4)) := by
  obtain ⟨hseq, hvalue, hkind⟩ := blockFields v
  rw [timeEventReceive_eq, hr, hseq, hvalue, hkind, bit_eq_getLsbD]
  rfl

section Take

variable {q : BitVec 5} {value : Nat} {stamp : BitVec 64}

theorem takeTime_sync (hm : (s.dom d).isMaster = false) (hup : (s.dom d).up = p) :
    s.takeTime p d q value stamp 0 = s.modDom d fun x => { x with sync := some (p, q, stamp), up := p } :=
  if_pos (by rw [hm, hup, beq_self_eq_true]; rfl)

/-- The state after the response to the request a port remembers: the request is over, and the link delay stands anew (R264). -/
def State.responded (s : State) (p : Port) (d : Dom) (value : Nat) (left : BitVec 64) : State :=
  s.modTime fun y => { y with
    delays := y.delays.set (portIx p)
      (linkDelay ((s.dom d).forwards[portIx p]) (near48 ((value : Int) - domAt s.time d left)) y.delays[portIx p])
    requests := y.requests.set (portIx p) none }

theorem takeTime_response {left : BitVec 64} (h : s.time.requests[portIx p] = some (q, left)) :
    s.takeTime p d q value stamp 3 = s.responded p d value left := by
  unfold State.takeTime
  simp only [h, if_true]
  rfl

theorem responded_request (left : BitVec 64) : (s.responded p d value left).time.requests[portIx p] = none := Vector.getElem_set_self ..

theorem responded_delay (left : BitVec 64) : (s.responded p d value left).time.delays[portIx p] =
    linkDelay ((s.dom d).forwards[portIx p]) (near48 ((value : Int) - domAt s.time d left)) s.time.delays[portIx p] := Vector.getElem_set_self ..

/-- With no follow-up from the neighbour yet the delay stands. -/
theorem responded_delays (left : BitVec 64) (h : (s.dom d).forwards[portIx p] = none) :
    (s.responded p d value left).time.delays = s.time.delays := by
  have hkeep : (s.responded p d value left).time.delays = s.time.delays.set (portIx p) s.time.delays[portIx p] := by
    rw [State.responded, h]
    rfl
  rw [hkeep]
  exact Vector.set_getElem_self _

end Take

/-! Locks and holdover (R267, R269). -/

theorem switchTo_time (s : State) (d e : Dom) : (s.switchTo d).dom e = s.dom e ∧ (s.switchTo d).time.holdover = s.time.holdover := by
  unfold State.switchTo
  dsimp only
  rw [raise_dom, raise_time]
  exact ⟨rfl, rfl⟩

theorem setReady_time (b : Fin 24) (v : Bool) (s : State) : (s.setReady b v).time = s.time := by
  obtain ⟨r, h, out, e, -⟩ := setReady_frame s b v
  rw [e]

/-- A domain takes its lock, and holdover is over. -/
def State.takeLock (s : State) (d : Dom) : State := (s.modDom d fun x => { x with lock := true }).modTime fun t => { t with holdover := false }

theorem takeLock_dom (s : State) (d : Dom) : (s.takeLock d).dom d = { s.dom d with lock := true } := by cases d <;> rfl

/-- Device time turns to a domain that has locked, or slews to it. -/
def State.turnTo (s : State) (d : Dom) : State :=
  if s.time.active = d then (s.modTime fun t => { t with slewing := decide (2 ^ 24 ≤ |slewLeft t|) })
  else if s.time.auto && !(s.dom s.time.active).lock then s.switchTo d else s

theorem setSlewing_time (g : Time → Bool) (s : State) (e : Dom) : (s.modTime fun t => { t with slewing := g t }).dom e = s.dom e ∧
    (s.modTime fun t => { t with slewing := g t }).time.holdover = s.time.holdover := by
  cases e <;> exact ⟨rfl, rfl⟩

theorem turnTo_time (s : State) (d e : Dom) : (s.turnTo d).dom e = s.dom e ∧ (s.turnTo d).time.holdover = s.time.holdover := by
  unfold State.turnTo
  split
  · exact setSlewing_time (fun t => decide (2 ^ 24 ≤ |slewLeft t|)) s e
  · split
    · exact switchTo_time s d e
    · exact ⟨rfl, rfl⟩

/-- A domain that may lock is locked (R267). -/
theorem domainLock_takes (hl : (s.dom d).lock = false) (hm : (s.dom d).hasMaster = true)
    (hgood : (s.dom d).isMaster = true ∨ (s.port (s.dom d).up).ready = true ∧ 100 ≤ (s.dom d).goodSyncs) :
    exec (.domainLock d) s = .next (((s.takeLock d).turnTo d).setReady rdyTimeLock true) := by
  have hmay : ((s.dom d).isMaster || ((s.port (s.dom d).up).ready && decide (100 ≤ (s.dom d).goodSyncs))) = true := by
    rcases hgood with h | ⟨hr, hs⟩
    · rw [h, Bool.true_or]
    · rw [hr, decide_eq_true hs, Bool.and_self, Bool.or_true]
  exact congrArg Host.Outcome.next (if_neg (by rw [hl, hm, hmay]; decide))

theorem lockTaken_state (s : State) (d : Dom) : ((((s.takeLock d).turnTo d).setReady rdyTimeLock true).dom d).lock = true ∧
    (((s.takeLock d).turnTo d).setReady rdyTimeLock true).time.holdover = false ∧
    (((s.takeLock d).turnTo d).setReady rdyTimeLock true).isReady rdyTimeLock = true := by
  obtain ⟨hdom, hhold⟩ := turnTo_time (s.takeLock d) d d
  refine ⟨?_, ?_, ?_⟩
  · rw [State.dom, setReady_time]
    exact congrArg TimeDom.lock (hdom.trans (takeLock_dom s d))
  · rw [setReady_time]
    exact hhold
  · rw [setReady_isReady, if_pos rfl]

theorem domainLock_waits (hm : (s.dom d).isMaster = false) (hg : (s.dom d).goodSyncs < 100) : exec (.domainLock d) s = .next s :=
  congrArg Host.Outcome.next (if_pos (by
    rw [hm, decide_eq_false (Nat.not_le.mpr hg), Bool.and_false, Bool.or_false, Bool.not_false, Bool.or_true]))

theorem timeHoldover_begins (h1 : s.time.td1.lock = false) (h2 : s.time.td2.lock = false) (hh : s.time.holdover = false) :
    exec .timeHoldover s = .next ((s.modTime fun t => { t with holdover := true }).raise 14) :=
  congrArg Host.Outcome.next (if_neg (by rw [h1, h2, hh]; decide))

theorem timeHoldover_stands (h : s.time.td1.lock = true ∨ s.time.td2.lock = true ∨ s.time.holdover = true) : exec .timeHoldover s = .next s :=
  congrArg Host.Outcome.next (if_pos (by rw [Bool.or_eq_true, Bool.or_eq_true, or_assoc]; exact h))

/-! The upstream port (R267). -/

/-- How far away a domain's master is by a port. -/
def hopsBy (s : State) (d : Dom) (p : Port) : Nat := ((s.dom d).hops[portIx p]).getD (2 ^ 32)

/-- The nearer of the port chosen so far and the next; of two that are equally far the one chosen stays. -/
def nearer (far : Port → Nat) (w : Option Port) (p : Port) : Option Port :=
  match w with
  | none => some p
  | some q => if far p < far q then some p else some q

theorem upstream_eq (s : State) (d : Dom) : upstream s d = (allPorts.filter (timePort s)).foldl (nearer (hopsBy s d)) none := rfl

/-- A port chosen is one of the list or the first choice, and none of them is nearer. -/
theorem nearest_some (far : Port → Nat) (l : List Port) (q : Port) : ∃ w, l.foldl (nearer far) (some q) = some w ∧
    (w = q ∨ w ∈ l) ∧ far w ≤ far q ∧ ∀ p ∈ l, far w ≤ far p := by
  induction l generalizing q with
  | nil => exact ⟨q, rfl, .inl rfl, Nat.le_refl _, fun p hp => absurd hp List.not_mem_nil⟩
  | cons p l ih =>
    by_cases hfar : far p < far q
    · obtain ⟨w, hw, hmem, hle, hall⟩ := ih p
      have hstep : nearer far (some q) p = some p := if_pos hfar
      refine ⟨w, by rw [List.foldl_cons, hstep, hw], ?_, by omega, fun x hx => ?_⟩
      · rcases hmem with rfl | hmem
        · exact .inr (List.mem_cons_self ..)
        · exact .inr (List.mem_cons_of_mem _ hmem)
      · rcases List.mem_cons.mp hx with rfl | hx
        · exact hle
        · exact hall x hx
    · obtain ⟨w, hw, hmem, hle, hall⟩ := ih q
      have hstep : nearer far (some q) p = some q := if_neg hfar
      refine ⟨w, by rw [List.foldl_cons, hstep, hw], hmem.imp_right (List.mem_cons_of_mem _), hle, fun x hx => ?_⟩
      rcases List.mem_cons.mp hx with rfl | hx
      · omega
      · exact hall x hx

theorem mem_allPorts (p : Port) : p ∈ allPorts := by cases p <;> decide

theorem upstream_some (h : upstream s d = some p) : timePort s p = true ∧ ∀ q, timePort s q = true → hopsBy s d p ≤ hopsBy s d q := by
  rw [upstream_eq] at h
  have hin : ∀ q, timePort s q = true → q ∈ allPorts.filter (timePort s) := fun q hq => List.mem_filter.mpr ⟨mem_allPorts q, hq⟩
  cases hl : allPorts.filter (timePort s) with
  | nil => rw [hl] at h; exact absurd h (Option.some_ne_none p).symm
  | cons q l =>
    rw [hl] at h hin
    obtain ⟨w, hw, hmem, hle, hall⟩ := nearest_some (hopsBy s d) l q
    have hp : p = w := Option.some.inj (h.symm.trans hw)
    subst hp
    have hport : p ∈ allPorts.filter (timePort s) := by rw [hl]; exact List.mem_cons.mpr hmem
    refine ⟨(List.mem_filter.mp hport).2, fun x hx => ?_⟩
    rcases List.mem_cons.mp (hin x hx) with rfl | hx
    · exact hle
    · exact hall x hx

theorem upstream_none (h : upstream s d = none) (q : Port) : timePort s q = false := by
  rw [upstream_eq] at h
  cases hl : allPorts.filter (timePort s) with
  | nil => exact Bool.eq_false_iff.mpr fun hq => List.filter_eq_nil_iff.mp hl q (mem_allPorts q) hq
  | cons p l =>
    obtain ⟨w, hw, -⟩ := nearest_some (hopsBy s d) l p
    rw [hl] at h
    exact absurd (h.symm.trans hw) (Option.some_ne_none w).symm

/-- Where all ports are equally far the first choice stays. -/
theorem nearest_equal {far : Port → Nat} {l : List Port} {q : Port} (h : ∀ p, far p = far q) : l.foldl (nearer far) (some q) = some q := by
  induction l with
  | nil => rfl
  | cons p l ih => rw [List.foldl_cons, nearer, if_neg (by rw [h p]; exact Nat.lt_irrefl _), ih]

theorem upstream_s (hs : timePort s .s = true) (hn : ∀ q : Port, (s.dom d).hops[portIx q] = none) : upstream s d = some .s := by
  have hl : allPorts.filter (timePort s) = .s :: [Port.z, .t0, .t1].filter (timePort s) := List.filter_cons_of_pos hs
  rw [upstream_eq, hl]
  exact nearest_equal fun p => by rw [hopsBy, hopsBy, hn, hn]

end Sys2Proof.Machine
end

section
/-! The family of the host interface: the masters of domain time, the PTP bridge and the latching reads (R42, R265, R267, R272, R273). -/

namespace Sys2Proof.Machine

variable {s t : State} {d : Dom} {p : Port}

/-! Masters (R265, R267). -/

theorem trackUp_frame (s : State) (d : Dom) : ∃ f : TimeDom → TimeDom, s.trackUp d = s.modDom d f ∧
    ∀ x, (f x).hasMaster = x.hasMaster ∧ (f x).masterSerial = x.masterSerial ∧ (f x).ns = x.ns := by
  have hsame : s = s.modDom d id := by cases d <;> rfl
  unfold State.trackUp
  split
  · exact ⟨id, hsame, fun x => ⟨rfl, rfl, rfl⟩⟩
  · split
    · split
      · exact ⟨id, hsame, fun x => ⟨rfl, rfl, rfl⟩⟩
      · exact ⟨_, rfl, fun x => ⟨rfl, rfl, rfl⟩⟩
    · exact ⟨id, hsame, fun x => ⟨rfl, rfl, rfl⟩⟩

theorem newMaster_dom (s : State) (d : Dom) : s.newMaster.dom d = s.dom d := by
  rw [State.newMaster, raise_dom]
  cases d <;> rfl

theorem newMaster_event (s : State) : s.newMaster.time.masterEvent = true ∧ s.newMaster.host.intStatus.getLsbD 14 = true := by
  refine ⟨?_, raise_sets (by decide)⟩
  rw [State.newMaster, raise_time]
  rfl

/-- What the first announcement of a domain's master leaves of the domain. -/
def TimeDom.named (a : Announcement) (p : Port) (x : TimeDom) : TimeDom :=
  { x with hasMaster := true, masterSerial := a.serial, up := p, ns := a.time, frac := 0 }

/-- A first announcement names the master and sets the time (R265). -/
theorem heed_first {a : Announcement} (ha : a.master = true) (hs : a.serial ≠ s.id.serial) (hself : (s.dom a.dom).isMaster = false)
    (hno : (s.dom a.dom).hasMaster = false) : s.heed p a = ((s.modDom a.dom (TimeDom.named a p)).newMaster).trackUp a.dom := by
  have hheeds : ¬ (!a.master || a.serial == s.id.serial || (s.dom a.dom).isMaster ||
      ((s.dom a.dom).hasMaster && (s.dom a.dom).masterSerial != 0 && (s.dom a.dom).masterSerial != a.serial)) = true := by
    rw [ha, beq_false_of_ne hs, hself, hno, Bool.false_and, Bool.false_and]
    decide
  unfold State.heed
  rw [if_neg hheeds]
  simp only [hno, Bool.not_false, Bool.true_or, if_true, Bool.false_eq_true, if_false]
  rfl

theorem heed_first_state {a : Announcement} (ha : a.master = true) (hs : a.serial ≠ s.id.serial) (hself : (s.dom a.dom).isMaster = false)
    (hno : (s.dom a.dom).hasMaster = false) : ((s.heed p a).dom a.dom).hasMaster = true ∧ ((s.heed p a).dom a.dom).masterSerial = a.serial ∧
      ((s.heed p a).dom a.dom).ns = a.time ∧ (s.heed p a).time.masterEvent = true ∧ (s.heed p a).host.intStatus.getLsbD 14 = true := by
  obtain ⟨f, htrack, hf⟩ := trackUp_frame ((s.modDom a.dom (TimeDom.named a p)).newMaster) a.dom
  obtain ⟨hmaster, hserial, hns⟩ := hf (TimeDom.named a p (s.dom a.dom))
  obtain ⟨hevent, hint⟩ := newMaster_event (s.modDom a.dom (TimeDom.named a p))
  rw [heed_first ha hs hself hno, htrack, modDom_dom, newMaster_dom, modDom_dom, modDom_masterEvent]
  exact ⟨hmaster, hserial, hns, hevent, hint⟩

theorem enqueue_oseq (p : Port) (f : Frame) (s : State) : (s.enqueue p f).link.oseq = s.link.oseq := by
  have hgrab := grab_onlyBanks s
  unfold State.enqueue
  split
  next u b h =>
    obtain ⟨q, m, hu⟩ := hgrab
    rw [h] at hu
    rw [show u = _ from hu]
    rfl
  · rfl

theorem sendBody_oseq (kind : BitVec 4) (data : List (BitVec 64)) (body : FrameBody) (s : State) :
    (s.sendBody broadcastDst kind data body).link.oseq = s.link.oseq + 1 := by
  unfold State.sendBody State.spread
  rw [if_pos rfl]
  exact foldl_frame (fun s : State => s.link.oseq) (fun t p => enqueue_oseq p _ t) _ _

theorem timeAnnounceSend_master (hm : (s.dom d).isMaster = true) :
    ∃ t, exec (.timeAnnounceSend d) s = .next t ∧ t.link.oseq = s.link.oseq + 1 :=
  ⟨_, congrArg Host.Outcome.next (if_pos (by rw [hm, Bool.true_or])), sendBody_oseq ..⟩

theorem elect_one {c : Candidate} (h : c.prio ≠ 0) : elect [c] = some c := by
  have hl : [c].filter (fun c => c.prio != 0) = [c] := List.filter_cons_of_pos (bne_iff_ne.mpr h)
  rw [elect, hl]
  rfl

/-- The one candidate of TD1 becomes its master (R265). -/
theorem timeAnnounceLoss_elects {c : Candidate} (hm : (s.dom .td1).isMaster = false) (hc : c.self = false) (hp : c.prio ≠ 0) :
    exec (.timeAnnounceLoss .td1 [c]) s = .next ((s.modDom .td1 fun x => { x with
      hasMaster := true, isMaster := false, masterSerial := c.serial, goodSyncs := 0 }).newMaster) := by
  have hself : s.asSelf (s.dom .td1).prio [c] = [c] := by simp only [State.asSelf, List.map_cons, List.map_nil, hc, Bool.false_eq_true, if_false]
  change execTimeAnnounceLoss .td1 [c] s = _
  unfold execTimeAnnounceLoss
  simp only [hm, hself, show decide (Dom.td1 = Dom.td2) = false from rfl, Bool.false_and, Bool.not_false, List.filter_true, elect_one hp, hc,
    Bool.false_eq_true, if_false]
  rfl

/-! The PTP bridge (R272). -/

theorem ptpMessage_taken {msg : PtpMessage} (hr : ptpRuns s = true) (hd : (ptpDomainOf msg).toNat = s.time.ptpDomain) :
    exec (.ptpEventMessage msg) s = .next (s.modTime fun t => t.takePtp msg) :=
  congrArg Host.Outcome.next (if_pos (by rw [hr, hd, beq_self_eq_true]; rfl))

theorem ptpMessage_passed {msg : PtpMessage} (h : ptpRuns s = false ∨ (ptpDomainOf msg).toNat ≠ s.time.ptpDomain) :
    exec (.ptpEventMessage msg) s = .next s := by
  refine congrArg Host.Outcome.next (if_neg fun hc => ?_)
  obtain ⟨hr, hd⟩ := Bool.and_eq_true_iff.mp hc
  rcases h with h | h
  · exact Bool.false_ne_true (h.symm.trans hr)
  · exact h (beq_iff_eq.mp hd)

/-- A Sync without its time waits for the Follow_Up, which gives the time from the master (R272). -/
theorem followUp_gives {dom : Byte} {q : Half} {time arrived : BitVec 64} (hr : ptpRuns s = true) (hd : dom.toNat = s.time.ptpDomain) :
    ∃ t u, exec (.ptpEventMessage (.sync dom q arrived none)) s = .next t ∧ exec (.ptpEventMessage (.followUp dom q time)) t = .next u ∧
      u.time.ptpDown = some ((time.toNat : Int) - arrived.toNat) ∧ u.time.ptpSync = none := by
  have hkept : (s.time.takePtp (.sync dom q arrived none)).takePtp (.followUp dom q time) =
      { s.time with ptpSync := none, ptpDown := some ((time.toNat : Int) - arrived.toNat) } := if_pos rfl
  refine ⟨_, _, ptpMessage_taken hr hd, ptpMessage_taken (by exact hr) (by exact hd), ?_⟩
  exact ⟨congrArg Time.ptpDown hkept, congrArg Time.ptpSync hkept⟩

/-- An offset enters the filter as its newest of at most sixteen, and plant time is valid (R272). -/
theorem takeOffset_newest (t : Time) (offset : Int) : (t.takeOffset offset).ptpOffsets.getLast? = some offset ∧
    (t.takeOffset offset).ptpOffsets.length ≤ 16 := by
  unfold Time.takeOffset
  dsimp only
  constructor
  · rw [List.getLast?_drop, if_neg (by rw [List.length_append, List.length_singleton]; omega), List.getLast?_concat]
  · rw [List.length_drop]
    omega

theorem delayResp_taken {dom : Byte} {q : Half} {time left : BitVec 64} {down : Int} {t : Time} (hq : t.ptpReq = some (q, left))
    (hdown : t.ptpDown = some down) : t.takePtp (.delayResp dom q time) =
      { t with ptpReq := none }.takeOffset ((down + ((time.toNat : Int) - left.toNat)) / 2) := by
  unfold Time.takePtp
  simp only [hq, hdown, if_true]

theorem plantValidTimeout_ends (h : ptpRuns s = false ∨ 10000000000 ≤ (s.time.dev - s.time.ptpAt).toNat) :
    exec .plantValidTimeout s = .next (s.modTime fun t => { t with plantValid := false }) := by
  refine congrArg Host.Outcome.next (if_neg fun hc => ?_)
  obtain ⟨hr, hd⟩ := Bool.and_eq_true_iff.mp hc
  rcases h with h | h
  · exact Bool.false_ne_true (h.symm.trans hr)
  · exact Nat.not_lt.mpr h (of_decide_eq_true hd)

theorem plantValidTimeout_waits (hr : ptpRuns s = true) (h : (s.time.dev - s.time.ptpAt).toNat < 10000000000) :
    exec .plantValidTimeout s = .next s := congrArg Host.Outcome.next (if_pos (by rw [hr, decide_eq_true h]; rfl))

theorem delayReq_sent (hr : ptpRuns s = true) (hl : ∀ l : BitVec 64, s.time.ptpLast = some l → ptpGap s.time ≤ (s.time.dev - l).toNat) :
    exec .ptpDelayReqSend s = .next ((s.modTime fun t => { t with
      ptpReq := some (t.ptpSeq, t.dev), ptpSeq := t.ptpSeq + 1, ptpLast := some t.dev }).emit .ptpDelayReq) := by
  refine congrArg Host.Outcome.next (if_neg fun hc => ?_)
  rw [hr, Bool.not_true, Bool.false_or, Option.any_eq_true] at hc
  obtain ⟨l, hlast, hgap⟩ := hc
  exact Nat.not_lt.mpr (hl l hlast) (of_decide_eq_true hgap)

theorem delayReq_waits (h : ptpRuns s = false ∨ ∃ l : BitVec 64, s.time.ptpLast = some l ∧ (s.time.dev - l).toNat < ptpGap s.time) :
    exec .ptpDelayReqSend s = .next s := by
  refine congrArg Host.Outcome.next (if_pos ?_)
  rcases h with h | ⟨l, hlast, hgap⟩
  · rw [h]
    rfl
  · rw [hlast, Option.any_some, decide_eq_true hgap, Bool.or_true]

/-! The latching reads (R42, R273). -/

theorem plantLatch (v : Bool) : b2n v * 2 ^ 31 = if v = true then 2 ^ 31 else 0 := by cases v <;> rfl

theorem timNowLoRead_latches (s : State) : exec .timNowLoRead s =
    .next ((s.modTime fun t => { t with nowHi := BitVec.ofNat 32 (s.time.dev.toNat / 2 ^ 32) }).emit
      (.busRead (leBytes 4 (s.time.dev.toNat % 2 ^ 32)) false)) := rfl

theorem latchTim_plant (t : Time) : latchTim 0x14 t =
    { t with plantHi := BitVec.ofNat 32 (t.plant.toNat / 2 ^ 32 + (if t.plantValid = true then 2 ^ 31 else 0)) } := by
  rw [latchTim, if_neg (by decide), if_pos rfl, plantLatch]

theorem timPlantLoRead_latches (s : State) : exec .timPlantLoRead s = .next ((s.modTime fun t => { t with
    plantHi := BitVec.ofNat 32 (s.time.plant.toNat / 2 ^ 32 + (if s.time.plantValid = true then 2 ^ 31 else 0)) }).emit
      (.busRead (leBytes 4 (s.time.plant.toNat % 2 ^ 32)) false)) := by
  have hlatch : s.modTime (latchTim 0x14) = s.modTime fun t => { t with
      plantHi := BitVec.ofNat 32 (s.time.plant.toNat / 2 ^ 32 + (if s.time.plantValid = true then 2 ^ 31 else 0)) } := by
    rw [State.modTime, latchTim_plant, State.modTime]
  rw [← hlatch]
  rfl

theorem upstreamPortLoss_turns (hm : (s.dom d).isMaster = false) (hh : (s.dom d).hasMaster = true) (hr : (s.port (s.dom d).up).ready = false) :
    exec (.upstreamPortLoss d) s = .next (match upstream s d with
      | some p => s.modDom d fun x => { x with up := p, sync := none }
      | none => s.dropLock d) :=
  congrArg Host.Outcome.next (if_neg (by rw [hm, hh, hr]; decide))

end Sys2Proof.Machine

open Sys2Proof Sys2Proof.Machine

/-- Settles O55: each row by its own conditions; messages of the bridge by what they take with them. -/
theorem timeEventsAct : Obligations.TimeEventsAct := by
  refine ⟨fun p d s hr hm ha => syncSend_sends hr hm ha, fun p v s => ⟨sendTime_two v, sendTime_one v⟩, fun p d s hr => ?down,
    fun p s hr => ?request, fun p v stamp d s hr hd => ?receive,
    fun d s hl hm hgood => ⟨_, domainLock_takes hl hm hgood, lockTaken_state s d⟩, fun d s hm hg => domainLock_waits hm hg,
    fun s hs hl => congrArg Host.Outcome.next (if_pos (by rw [hs, decide_eq_true hl]; rfl)), fun s h1 h2 hh => timeHoldover_begins h1 h2 hh,
    fun s h => timeHoldover_stands h, fun s => ⟨fun h => congrArg _ (if_pos h), fun h => congrArg _ (if_neg (by rw [h]; decide))⟩,
    fun d s hm hh hr => ?loss, fun d s => ⟨fun p h => upstream_some h, fun h => upstream_none h, upstream_s⟩,
    fun p a s ha hs hself hno => heed_first_state ha hs hself hno, fun d s hm => timeAnnounceSend_master hm,
    fun d s hm cs => congrArg Host.Outcome.next (if_pos hm), fun d c s hm hc hp hd => ?elects, fun q time arrived d s hr hd => ?bridge,
    fun msg s h => ptpMessage_passed h, fun s => ⟨plantValidTimeout_ends, plantValidTimeout_waits⟩, fun s => ⟨delayReq_sent, delayReq_waits⟩,
    fun s => ⟨timNowLoRead_latches s, timPlantLoRead_latches s⟩⟩
  case down =>
    have hoff : ¬ (s.port p).ready = true := by rw [hr]; decide
    refine ⟨congrArg Host.Outcome.next (if_neg ?_), congrArg Host.Outcome.next (if_neg hoff), fun v stamp => congrArg Host.Outcome.next (if_pos ?_)⟩
    · rw [hr, Bool.false_and, Bool.false_and]; decide
    · rw [hr]; rfl
  case request =>
    obtain ⟨out, h⟩ := sendTime_frame (s.modTime fun t => { t with
      syncSeq := s.time.syncSeq + 1, requests := t.requests.set (portIx p) (some (s.time.syncSeq, s.time.dev)) }) p
      (timePayload 2 s.time.active s.time.syncSeq 0)
    refine ⟨_, (congrArg Host.Outcome.next (if_pos hr)).trans (congrArg Host.Outcome.next h), ?_, rfl⟩
    exact Vector.getElem_set_self ..
  case receive =>
    rw [timeEventReceive_ready v stamp hr, ← hd]
    refine ⟨fun hk hm hup => ?_, fun hk => ?_, fun left hk hreq => ?_⟩
    · rw [hk, takeTime_sync hm hup]
    · rw [hk]
      rfl
    · rw [hk, takeTime_response hreq]
      exact ⟨_, rfl, responded_request left, rfl, rfl, fun f hf => by rw [responded_delay, hf]; rfl, responded_delays left⟩
  case loss =>
    rw [upstreamPortLoss_turns hm hh hr]
    exact ⟨fun p hp => by rw [hp], fun hn => by rw [hn]⟩
  case elects =>
    subst hd
    obtain ⟨hevent, hint⟩ := newMaster_event (s.modDom .td1 fun x => { x with
      hasMaster := true, isMaster := false, masterSerial := c.serial, goodSyncs := 0 })
    refine ⟨_, timeAnnounceLoss_elects hm hc hp, ?_, ?_, ?_, hevent, hint⟩
    all_goals rw [newMaster_dom, modDom_dom]
  case bridge =>
    refine ⟨ptpMessage_taken hr hd, followUp_gives hr hd, fun left down hq hdown => ?_⟩
    have htaken := delayResp_taken (dom := d) (time := time) hq hdown
    obtain ⟨hlast, hlen⟩ := takeOffset_newest { s.time with ptpReq := none } ((down + ((time.toNat : Int) - left.toNat)) / 2)
    refine ⟨_, ptpMessage_taken hr hd, ?_⟩
    rw [State.modTime, htaken]
    exact ⟨rfl, rfl, hlast, hlen, rfl, rfl, rfl, rfl⟩
end

section
/-! The family of the command set: the states in which the matrix of R74 admits a strand command. -/

namespace Sys2Proof.Machine

variable {s : State} {i : StrandId} {x : Strand} {l : List StrandSt}

theorem allowIf_false {b : Bool} (h : b = false) : allowIf b = stRefused := if_neg (by rw [h]; exact Bool.false_ne_true)

theorem within_outside (h : x.st ∉ l) : x.within l = false := by rw [Strand.within, List.contains_eq_mem, decide_eq_false h]

/-- A condition that begins with the row of the matrix refuses every state outside the row, whatever else it asks. -/
theorem within_and_refused (h : x.st ∉ l) (c : Bool) : allowIf (x.within l && c) = stRefused :=
  allowIf_false (by rw [within_outside h, Bool.false_and])

theorem within_refused (h : x.st ∉ l) : allowIf (x.within l) = stRefused := allowIf_false (within_outside h)

theorem within_and_and_refused (h : x.st ∉ l) (c d : Bool) : allowIf (x.within l && c && d) = stRefused := by
  rw [Bool.and_assoc, within_and_refused h]

/-- A strand that moves is outside the row of STRAND_CONFIG. -/
theorem moving_not_cfgStates (h : x.st = .run ∨ x.st = .hold ∨ x.st = .stopping) : x.st ∉ cfgStates := by
  rcases h with h | h | h <;> rw [h] <;> decide

theorem stopping_not_coeffStates (h : x.st = .stopping) : x.st ∉ coeffStates := by rw [h]; decide

/-! The checks that judge more than the state of one strand. -/

theorem checkCoeff_outside (h : s.strands[i].st ∉ coeffStates) (ply : Nat) (bs : List Byte) : checkCoeff i ply bs s ≠ stOk := by
  unfold checkCoeff
  extract_lets x b good
  split
  · decide
  · split
    · decide
    · rw [within_refused h]
      decide

theorem checkAuxCurve_outside {st : Half} (h : s.strands[strandIx st].st ∉ cfgStates) (hysteresis : Word) (bs : List Byte) :
    checkAuxCurve st hysteresis bs s ≠ stOk := by
  unfold checkAuxCurve
  extract_lets x
  split
  · decide
  · rw [within_and_refused h]
    decide

theorem checkAuxCommand_outside {st : Half} (h : s.strands[strandIx st].st ∉ [StrandSt.run]) (speed : Word) :
    checkAuxCommand st speed s = stRefused := by
  unfold checkAuxCommand
  extract_lets x
  split
  · exact within_and_and_refused h ..
  · rfl

/-- One strand outside the row holds up the whole quad. -/
theorem quadStatesOk_outside {q : QuadId} (hi : i ∈ s.strandsOfQuad q) (h : s.strands[i].st ∉ cfgStates) : quadStatesOk s q = false :=
  List.all_eq_false.mpr ⟨i, hi, by rw [within_outside h]; exact Bool.false_ne_true⟩

theorem checkFbConfig_outside {u : FbId} (hi : i ∈ s.strandsOfFb u) (h : s.strands[i].st ∉ cfgStates) : checkFbConfig u s = stRefused :=
  allowIf_false (List.all_eq_false.mpr ⟨i, hi, by rw [within_outside h]; exact Bool.false_ne_true⟩)

end Sys2Proof.Machine

open Sys2Proof Sys2Proof.Machine

/-- Settles O26: the check of each command asks first for the states of its row, and a strand outside them has it refused. -/
theorem strandCommandsRespectTheMatrix : Obligations.StrandCommandsRespectTheMatrix := by
  refine ⟨fun s o st h => ?off, fun s o st h => ?config, fun s o st h => ?coeff, fun s o st h => ?ready, fun s o st hr hh => ?pause,
    fun s o st h => ?run, fun s o st kind decel hr hh hs => ?stop, fun s o st h => ?fault, fun _ _ _ => rfl, fun s o i h => ?shared⟩
  case off =>
    have hout : s.strands[strandIx st].st ∉ [StrandSt.off] := List.mem_singleton.not.mpr h
    exact ⟨fun kind target fb => within_and_refused hout _, within_and_and_refused hout ..⟩
  case config =>
    have hout := moving_not_cfgStates h
    exact ⟨fun dS phase kP dP reaction limit => within_and_refused hout _, fun hysteresis d => checkAuxCurve_outside hout _ _,
      fun fb num den => within_and_refused hout _⟩
  case coeff =>
    have hout := stopping_not_coeffStates h
    exact ⟨fun ply d => checkCoeff_outside hout _ _, fun mode output => within_and_refused hout _,
      fun source index ratio offset => within_and_refused hout _, fun p => within_refused hout⟩
  case ready =>
    have hout : s.strands[strandIx st].st ∉ [StrandSt.ready] := List.mem_singleton.not.mpr h
    exact ⟨within_and_refused hout _, fun address scale => within_and_refused hout _⟩
  case pause =>
    have hout : s.strands[strandIx st].st ∉ [StrandSt.run, .hold] :=
      List.not_mem_cons_of_ne_of_not_mem hr (List.mem_singleton.not.mpr hh)
    exact ⟨within_refused hout, fun release => within_refused hout⟩
  case run =>
    have hout : s.strands[strandIx st].st ∉ [StrandSt.run] := List.mem_singleton.not.mpr h
    exact ⟨fun x => ⟨within_and_and_refused hout .., within_and_and_refused hout ..⟩,
      fun v => ⟨within_and_and_refused hout .., checkAuxCommand_outside hout v⟩, fun k ramp => within_and_refused hout _⟩
  case stop =>
    have hout : s.strands[strandIx st].st ∉ [StrandSt.run, .hold, .stopping] :=
      List.not_mem_cons_of_ne_of_not_mem hr (List.not_mem_cons_of_ne_of_not_mem hh (List.mem_singleton.not.mpr hs))
    exact within_refused hout
  case fault =>
    have hout : s.strands[strandIx st].st ∉ [StrandSt.fault] := List.mem_singleton.not.mpr h
    exact within_and_and_refused hout ..
  case shared =>
    have hout := moving_not_cfgStates h
    have hquad : ∀ {q : QuadId}, i ∈ s.strandsOfQuad q → quadStatesOk s q = false := fun hi => quadStatesOk_outside hi hout
    refine ⟨fun q mix carrier period double phase hi => allowIf_false ?_, fun q f o3 o2 hi => allowIf_false ?_,
      fun q input limit gf hi => allowIf_false (hquad hi), fun u mode filter bits bw hi => checkFbConfig_outside hi hout⟩
    · rw [hquad hi, Bool.false_and, Bool.false_and, Bool.false_and]
    · rw [hquad hi, Bool.false_and]
end

section
/-! The family of the command set: the staging buffers and the banks' power mode (R66, R71, R72, R226, R231, R232). -/

namespace Sys2Proof.Machine

variable {s t : State} {m : Mem} {handle offset n len : Nat} {chain l : List Nat}

theorem holdTag_mem (mb : MbId) (tag : Fin 32) : (s.holdTag mb tag).mem = s.mem := rfl

/-- A served S-class command whose body changes the banks alone ends there. -/
theorem runShort_ends_onlyBanks {i : Instr} {o : Origin} (h : Served i o s) {body : State → CmdResult} {st : Half} {res : List Byte}
    (hbody : body (s.holdTag o.mb o.tag) = (t, st, res)) (hb : OnlyBanks (s.holdTag o.mb o.tag) t) :
    (Host.Outcome.next (runShort i o body s) : Answer) = .next (t.ended i o st res) :=
  runShort_ends_owing h hbody (by rw [hb.dist, holdTag_dist])

/-! What the allocations of an opened buffer leave (R66, R232). -/

/-- An allocation that gives a bobbin leaves one fewer in the pool, and the open buffers as they stand. -/
theorem grab_given {i : Nat} (h : s.grab = (t, some i)) :
    OnlyBanks s t ∧ t.mem.stages = s.mem.stages ∧ t.mem.freeCount = s.mem.freeCount - 1 := by
  have hbanks : OnlyBanks s t := by
    have hb := grab_onlyBanks s
    rwa [h] at hb
  have hhead : s.mem.head ≠ nullBobbin := fun hn => by
    rw [grab_none hn] at h
    cases h
  obtain ⟨c, hm⟩ := (wakeChain_onlyControls [s.mem.head] s).mem
  rw [grab_some hhead] at h
  cases h
  refine ⟨hbanks, ?_, ?_⟩ <;> rw [State.modMem_mem, Mem.taken, hm]

/-- So does a chain of allocations: as many fewer as the chain is long. -/
theorem grabN_given (h : s.grabN n = some (t, l)) :
    l.length = n ∧ OnlyBanks s t ∧ t.mem.stages = s.mem.stages ∧ t.mem.freeCount = s.mem.freeCount - n := by
  induction n generalizing s l with
  | zero =>
    cases h
    exact ⟨rfl, .refl _, rfl, rfl⟩
  | succ n ih =>
    rw [State.grabN] at h
    split at h
    next => cases h
    next u i hgrab =>
      obtain ⟨⟨v, r⟩, hrest, heq⟩ := Option.map_eq_some_iff.mp h
      cases heq
      obtain ⟨hbanks, hstages, hfree⟩ := grab_given hgrab
      obtain ⟨hlen, hbanks', hstages', hfree'⟩ := ih hrest
      refine ⟨congrArg (· + 1) hlen, hbanks.trans hbanks', hstages'.trans hstages, ?_⟩
      rw [hfree', hfree, Nat.sub_sub, Nat.add_comm]

/-! STAGE_OPEN (R66). -/

theorem openStage_opens (hroom : s.mem.stages.length < 16) (hen : s.mem.poolEn = true) (hgrab : s.grabN ((len + 255) / 256) = some (t, l)) :
    openStage len s = (t.modMem fun m => { m with stages := m.stages ++ [(l.headD 0, len, l)] }, stOk, leBytes 4 (l.headD 0)) := by
  simp only [openStage, if_neg (Nat.not_le.mpr hroom), hen, hgrab, Bool.not_true, Bool.false_eq_true, if_false]

theorem openStage_refuses (h : 16 ≤ s.mem.stages.length ∨ s.mem.poolEn = false ∨ s.grabN ((len + 255) / 256) = none) :
    openStage len s = refuse s (if 16 ≤ s.mem.stages.length then stRefused else stNoBobbin) := by
  unfold openStage
  split
  · rfl
  next hroom =>
    cases hen : s.mem.poolEn with
    | false => rfl
    | true =>
      have hgrab : s.grabN ((len + 255) / 256) = none := by simpa [hroom, hen] using h
      simp only [hgrab, Bool.not_true, Bool.false_eq_true, if_false]

/-! STAGE_WRITE and STAGE_READ (R66, R71). -/

/-- Bytes `[offset, offset + n)` lie in no open buffer of this handle. -/
def OutsideStage (m : Mem) (handle offset n : Nat) : Prop :=
  ∀ (len : Nat) (chain : List Nat), m.stage handle = some (len, chain) → len < offset + n

theorem putStage_writes {data : List Byte} (hs : s.mem.stage handle = some (len, chain)) (hin : offset + data.length ≤ len) :
    putStage handle offset data s =
      ((s.wakeChain (stagePart chain offset data.length)).modMem fun m => stageWrite m chain offset data, stOk, []) := by
  simp only [putStage, hs, if_neg (Nat.not_lt.mpr hin)]

theorem putStage_refuses {data : List Byte} (h : OutsideStage s.mem handle offset data.length) :
    putStage handle offset data s = refuse s stBadArg := by
  unfold putStage
  split
  · rfl
  next len chain hs => exact if_pos (h len chain hs)

/-- The body of STAGE_READ: the bytes of an open buffer, or the address of the first poisoned word among them. -/
def getStage (handle offset n : Nat) (s : State) : CmdResult :=
  match s.mem.stage handle with
  | none => refuse s stBadArg
  | some (len, chain) =>
    if len < offset + n then refuse s stBadArg
    else
      match stagePoison (s.wakeChain (stagePart chain offset n)).mem chain offset n with
      | some a => (s.wakeChain (stagePart chain offset n), stPoisoned, leBytes 4 a)
      | none => (s.wakeChain (stagePart chain offset n), stOk, stageRead (s.wakeChain (stagePart chain offset n)).mem chain offset n)

theorem exec_stageRead (o : Origin) (handle offset : Word) (count : Half) (s : State) : exec (.stageRead o handle offset count) s =
    .next (runShort (.stageRead o handle offset count) o (getStage handle.toNat offset.toNat count.toNat) s) := rfl

theorem getStage_refuses (h : OutsideStage s.mem handle offset n) : getStage handle offset n s = refuse s stBadArg := by
  unfold getStage
  split
  · rfl
  next len chain hs => exact if_pos (h len chain hs)

theorem getStage_reads (hs : s.mem.stage handle = some (len, chain)) (hin : offset + n ≤ len)
    (hp : stagePoison (s.wakeChain (stagePart chain offset n)).mem chain offset n = none) : getStage handle offset n s =
      (s.wakeChain (stagePart chain offset n), stOk, stageRead (s.wakeChain (stagePart chain offset n)).mem chain offset n) := by
  simp only [getStage, hs, hp, if_neg (Nat.not_lt.mpr hin)]

theorem getStage_poisoned {a : Nat} (hs : s.mem.stage handle = some (len, chain)) (hin : offset + n ≤ len)
    (hp : stagePoison (s.wakeChain (stagePart chain offset n)).mem chain offset n = some a) :
    getStage handle offset n s = (s.wakeChain (stagePart chain offset n), stPoisoned, leBytes 4 a) := by
  simp only [getStage, hs, hp, if_neg (Nat.not_lt.mpr hin)]

theorem stagePoison_none (h : ∀ k a : Nat, k < n → stageAddr m chain (offset + k) = some a → m.isPoisoned (a / 8) = false) :
    stagePoison m chain offset n = none := by
  rw [stagePoison, Option.map_eq_none_iff, List.find?_eq_none]
  intro a ha
  obtain ⟨k, hk, haddr⟩ := List.mem_filterMap.mp ha
  rw [h k a (List.mem_range.mp hk) haddr]
  exact Bool.false_ne_true

/-! STAGE_CLOSE (R66). -/

/-- The body of STAGE_CLOSE. -/
def shutStage (handle : Nat) (s : State) : CmdResult :=
  match s.mem.stage handle with
  | none => refuse s stBadArg
  | some _ => (s.closeStage handle, stOk, [])

theorem exec_stageClose (o : Origin) (handle : Word) (s : State) :
    exec (.stageClose o handle) s = .next (runShort (.stageClose o handle) o (shutStage handle.toNat) s) := rfl

theorem shutStage_closes {x : Nat × List Nat} (hs : s.mem.stage handle = some x) :
    shutStage handle s = (s.closeStage handle, stOk, []) := by rw [shutStage, hs]

theorem shutStage_refuses (hs : s.mem.stage handle = none) : shutStage handle s = refuse s stBadArg := by rw [shutStage, hs]

theorem closeStage_onlyBanks (handle : Nat) (s : State) : OnlyBanks s (s.closeStage handle) := by
  unfold State.closeStage
  split
  · exact .refl s
  · exact (freeChain_onlyBanks _ s).modMem _

/-- A handle that has been closed names no buffer. -/
theorem closeStage_closed (handle : Nat) (s : State) : (s.closeStage handle).mem.stage handle = none := by
  unfold State.closeStage
  split
  next hs => exact hs
  · rw [State.modMem_mem, Mem.stage, Option.map_eq_none_iff, List.find?_eq_none]
    intro e he heq
    obtain ⟨-, hne⟩ := List.mem_filter.mp he
    exact bne_iff_ne.mp hne (beq_iff_eq.mp heq)

end Sys2Proof.Machine

open Sys2Proof Sys2Proof.Machine

/-- Settles O18: each command is its body on the state that holds its tag, and the banks are all that a body changes. -/
theorem stagingAndPoolCommandsAct : Obligations.StagingAndPoolCommandsAct := by
  refine ⟨fun o length s t l h hroom hen hgrab => ?opens, fun o length s h hno => ?openRefused,
    fun o handle offset count zero data s len chain h hs hin => ?writes, fun o handle offset count s len chain h hs hin => ?reads,
    fun o handle offset count s len a chain h hs hin => ?poisoned,
    fun o handle offset count zero data s => ⟨fun h hout => ?writeOutside, fun h hout => ?readOutside⟩,
    fun o handle s x h hs => ?closes, fun o handle s h hs => ?closeUnknown, fun o bank mode s h => ⟨fun hfree => ?powers, fun hused => ?inUse⟩⟩
  case opens =>
    obtain ⟨hlen, hbanks, hstages, hfree⟩ := grabN_given hgrab
    refine ⟨runShort_ends_onlyBanks h (openStage_opens hroom hen hgrab) (hbanks.modMem _), hlen, hstages, ?_⟩
    rw [hfree, hlen, holdTag_mem]
  case openRefused => exact runShort_refuses h (openStage_refuses (s := s.holdTag o.mb o.tag) hno)
  case writes =>
    exact runShort_ends_onlyBanks h (putStage_writes (s := s.holdTag o.mb o.tag) hs hin) ((wakeChain_onlyBanks _ _).modMem _)
  case reads =>
    intro u hclean
    exact (exec_stageRead ..).trans (runShort_ends_onlyBanks h (getStage_reads (s := s.holdTag o.mb o.tag) hs hin (stagePoison_none hclean))
      (wakeChain_onlyBanks _ _))
  case poisoned =>
    intro u hp
    exact (exec_stageRead ..).trans (runShort_ends_onlyBanks h (getStage_poisoned (s := s.holdTag o.mb o.tag) hs hin hp) (wakeChain_onlyBanks _ _))
  case writeOutside => exact runShort_refuses h (putStage_refuses (s := s.holdTag o.mb o.tag) hout)
  case readOutside => exact (exec_stageRead ..).trans (runShort_refuses h (getStage_refuses (s := s.holdTag o.mb o.tag) hout))
  case closes =>
    exact ⟨(exec_stageClose ..).trans (runShort_ends_onlyBanks h (shutStage_closes (s := s.holdTag o.mb o.tag) hs) (closeStage_onlyBanks _ _)),
      closeStage_closed _ s⟩
  case closeUnknown => exact (exec_stageClose ..).trans (runShort_refuses h (shutStage_refuses (s := s.holdTag o.mb o.tag) hs))
  case powers => exact runShort_ends h (if_neg (by rw [hfree]; exact Bool.false_ne_true)) rfl
  case inUse => exact runShort_refuses h (if_pos hused)
end

section
/-! The family of the strands: what STRAND_ARM, STRAND_ENABLE, STRAND_DISABLE, STOP, STOP_NOW, STRAND_HOLD and FAULT_RESET do
when their sets act (R90, R91, R93). -/

namespace Sys2Proof.Machine

variable {s t u : State} {i : StrandId} {o : Origin} {st : Half}

/-! Updates of one strand. -/

/-- Of the strands, `t` differs from `s` in `i` alone. -/
def OnlyStrand (i : StrandId) (s t : State) : Prop := ∀ j : StrandId, j ≠ i → t.strands[j] = s.strands[j]

theorem OnlyStrand.of_strands (h : t.strands = s.strands) : OnlyStrand i s t := fun j _ => by rw [h]

theorem OnlyStrand.trans (h : OnlyStrand i s t) (h' : OnlyStrand i t u) : OnlyStrand i s u :=
  fun j hj => (h' j hj).trans (h j hj)

theorem OnlyStrand.modStrand (h : OnlyStrand i s t) (f : Strand → Strand) : OnlyStrand i s (t.modStrand i f) :=
  h.trans fun _ hj => modStrand_other hj f

theorem modStrand_onlyStrand (s : State) (i : StrandId) (f : Strand → Strand) : OnlyStrand i s (s.modStrand i f) :=
  fun _ hj => modStrand_other hj f

theorem enter_self (s : State) (i : StrandId) (x : StrandSt) : (s.enter i x).strands[i] = { s.strands[i] with st := x } := by
  rw [enter_strands, modStrand_self]

theorem OnlyStrand.enter (h : OnlyStrand i s t) (x : StrandSt) : OnlyStrand i s (t.enter i x) :=
  h.trans fun _ hj => by rw [enter_strands, modStrand_other hj]

/-! What giving up the sources of motion leaves of the strands. -/

theorem leavePath_strands (s : State) (i : StrandId) : (s.leavePath i).strands = s.strands := by
  unfold State.leavePath
  split
  · rfl
  · split <;> rfl

theorem settleOwed_strands (s : State) (w : Owed) (cycle : BitVec 48) : (s.settleOwed w cycle).strands = s.strands := by
  unfold State.settleOwed
  dsimp only
  split <;> rfl

theorem finish_strands (s : State) (c : Instr) (o : Origin) (st : Half) (res : List Byte) : (s.finish c o st res).strands = s.strands := by
  unfold State.finish
  split
  · exact settleOwed_strands ..
  · rfl

theorem dropDeferred_onlyStrand (s : State) (i : StrandId) : OnlyStrand i s (s.dropDeferred i) := by
  unfold State.dropDeferred
  split
  · exact .of_strands rfl
  · extract_lets dropped
    have hdropped : OnlyStrand i s dropped := modStrand_onlyStrand _ _ _
    split
    · exact hdropped.trans (.of_strands (finish_strands ..))
    · exact hdropped

theorem leavePath_dropDeferred_onlyStrand (s : State) (i : StrandId) : OnlyStrand i s ((s.leavePath i).dropDeferred i) :=
  .trans (.of_strands (leavePath_strands s i)) (dropDeferred_onlyStrand _ _)

theorem giveUp_onlyStrand (s : State) (i : StrandId) : OnlyStrand i s (s.giveUp i) :=
  (leavePath_dropDeferred_onlyStrand s i).modStrand _

theorem immediate_onlyStrand (s : State) (i : StrandId) : OnlyStrand i s (s.immediate i) := by
  unfold State.immediate
  extract_lets off x flushed
  have hoff : off.strands = s.strands := switchOff_strands i
  have hflushed : OnlyStrand i s flushed := .of_strands (by
    simp only [flushed]
    split <;> exact hoff)
  split
  · exact hflushed.modStrand _
  · exact hflushed

theorem beginStop_onlyStrand (s : State) (i : StrandId) (quick : Bool) (decel : Nat) (after : StopEnd) :
    OnlyStrand i s (s.beginStop i quick decel after) := by
  unfold State.beginStop
  extract_lets
  split
  exact (giveUp_onlyStrand s i).modStrand _

/-- Where a stop begins, one runs: the new one, or one that ran already (R91). -/
theorem beginStop_isSome (s : State) (i : StrandId) (quick : Bool) (decel : Nat) (after : StopEnd) :
    (s.beginStop i quick decel after).strands[i].stop.isSome = true := by
  unfold State.beginStop
  extract_lets
  split
  rw [modStrand_self]
  rfl

/-- The strand that begins a stop and goes to STOPPING has the stop running there, and no other strand changes. -/
theorem beginStop_enter_stopping (h : OnlyStrand i s t) (quick : Bool) (decel : Nat) (after : StopEnd) :
    ((t.beginStop i quick decel after).enter i .stopping).strands[i].st = .stopping ∧
    ((t.beginStop i quick decel after).enter i .stopping).strands[i].stop.isSome = true ∧
    OnlyStrand i s ((t.beginStop i quick decel after).enter i .stopping) := by
  rw [enter_self]
  exact ⟨rfl, beginStop_isSome .., (h.trans (beginStop_onlyStrand _ _ _ _ _)).enter _⟩

theorem categoryZero_onlyStrand (s : State) (i : StrandId) : OnlyStrand i s (s.categoryZero i) := by
  unfold State.categoryZero
  split
  exact ((giveUp_onlyStrand s i).trans (immediate_onlyStrand _ _)).modStrand _

theorem beginHold_st (s : State) (i : StrandId) : (s.beginHold i).strands[i].st = .hold :=
  congrArg Strand.st (enter_self ..)

theorem beginHold_onlyStrand (s : State) (i : StrandId) : OnlyStrand i s (s.beginHold i) :=
  ((leavePath_dropDeferred_onlyStrand s i).modStrand _).enter _

/-! STRAND_ARM and STRAND_ENABLE. -/

theorem trackActual_onlyStrand (s : State) (i : StrandId) : OnlyStrand i s (s.trackActual i) := modStrand_onlyStrand _ _ _

/-- The reference stands on the actual position (R90, R116). -/
theorem trackActual_refPos (s : State) (i : StrandId) : (s.trackActual i).strands[i].refPos = (s.trackActual i).strands[i].actPos := by
  simp only [State.trackActual, modStrand_self]

theorem strandArm_acts (h : checkSet (.strandArm o st) s = stOk) :
    ∃ t : State, SetActs (.strandArm o st) o s t ∧ t.strands[strandIx st].st = .ready ∧ t.strands[strandIx st].rearm = false ∧
      t.strands[strandIx st].refPos = t.strands[strandIx st].actPos ∧ OnlyStrand (strandIx st) s t := by
  refine ⟨_, setActs_applySet rfl h rfl, ?_⟩
  simp only [applySet, applyArm, enter_self, modStrand_self]
  exact ⟨trivial, trivial, trackActual_refPos .., ((trackActual_onlyStrand _ _).modStrand _).enter _⟩

/-- The strand goes to RUN without a plan, its reference on the actual position (R90). -/
theorem applyEnable_strands (s : State) (i : StrandId) :
    (applyEnable i s).strands[i].st = .run ∧ (applyEnable i s).strands[i].plan = none ∧
      (applyEnable i s).strands[i].refPos = (applyEnable i s).strands[i].actPos ∧ OnlyStrand i s (applyEnable i s) := by
  unfold applyEnable
  extract_lets x tracked stepping switched
  have honly : OnlyStrand i s stepping := by
    simp only [stepping]
    split
    · exact .trans ((trackActual_onlyStrand s i).modStrand _) (.of_strands (State.modQuad_strands ..))
    · exact trackActual_onlyStrand s i
  have href : stepping.strands[i].refPos = stepping.strands[i].actPos := by
    simp only [stepping]
    split
    · simp only [State.modQuad_strands, modStrand_self]
      exact trackActual_refPos s i
    · exact trackActual_refPos s i
  have hswitched : switched.strands = stepping.strands := foldl_strands (fun _ _ => State.modRole_strands ..) _ _
  rw [enter_self, modStrand_self, hswitched]
  exact ⟨rfl, rfl, href, ((honly.trans (.of_strands hswitched)).modStrand _).enter _⟩

theorem strandEnable_acts (h : checkSet (.strandEnable o st) s = stOk) :
    ∃ t : State, SetActs (.strandEnable o st) o s t ∧ t.strands[strandIx st].st = .run ∧ t.strands[strandIx st].plan = none ∧
      t.strands[strandIx st].refPos = t.strands[strandIx st].actPos ∧ OnlyStrand (strandIx st) s t :=
  ⟨_, setActs_applySet rfl h rfl, applyEnable_strands s (strandIx st)⟩

/-! STRAND_DISABLE, STOP and STOP_NOW. -/

theorem strandDisable_acts (h : checkSet (.strandDisable o st) s = stOk) :
    ∃ t : State, SetActs (.strandDisable o st) o s t ∧ t.strands[strandIx st].st = .stopping ∧
      t.strands[strandIx st].stop.isSome = true ∧ OnlyStrand (strandIx st) s t :=
  ⟨_, setActs_applySet rfl h rfl, beginStop_enter_stopping (.of_strands rfl) ..⟩

theorem stop_acts {kind : Byte} {decel : Word} (h : checkSet (.stop o st kind decel) s = stOk) :
    ∃ t : State, SetActs (.stop o st kind decel) o s t ∧ t.strands[strandIx st].st = .stopping ∧
      t.strands[strandIx st].stop.isSome = true ∧ OnlyStrand (strandIx st) s t := by
  refine ⟨_, setActs_applySet rfl h rfl, ?_⟩
  simp only [applySet]
  unfold applyStop
  extract_lets slowed
  have hslowed : OnlyStrand (strandIx st) s slowed := by
    simp only [slowed]
    split
    · exact modStrand_onlyStrand _ _ _
    · exact .of_strands rfl
  exact beginStop_enter_stopping hslowed ..

theorem within_of_mem {x : Strand} {l : List StrandSt} (h : x.st ∈ l) : x.within l = true := by
  rw [Strand.within, List.contains_eq_mem, decide_eq_true h]

/-- On one strand that moves: the motion ends at once, and the strand goes to READY. -/
theorem applyStopNow_moving (hn : st ≠ 0xFFFF) (h : s.strands[strandIx st].st ∈ [StrandSt.run, .hold, .stopping]) :
    applyStopNow st s = (s.categoryZero (strandIx st)).enter (strandIx st) .ready := by
  rw [applyStopNow, if_neg hn, stopNowOne, if_pos (within_of_mem h)]

/-- On one strand that neither moves nor is in FAULT: nothing. -/
theorem applyStopNow_resting (hn : st ≠ 0xFFFF) (h : s.strands[strandIx st].st ∉ [StrandSt.run, .hold, .stopping])
    (hf : s.strands[strandIx st].st ∉ [StrandSt.fault]) : applyStopNow st s = s := by
  simp only [applyStopNow, if_neg hn, stopNowOne, within_outside h, within_outside hf, Bool.false_and, Bool.false_eq_true, if_false]

theorem stopNow_applies (o : Origin) (st : Half) (s : State) : SetActs (.stopNow o st) o s (applyStopNow st s) :=
  setActs_applySet rfl rfl rfl

theorem stopNow_moving_acts (hn : st ≠ 0xFFFF)
    (h : s.strands[strandIx st].st = .run ∨ s.strands[strandIx st].st = .hold ∨ s.strands[strandIx st].st = .stopping) :
    ∃ t : State, SetActs (.stopNow o st) o s t ∧ t.strands[strandIx st].st = .ready ∧ OnlyStrand (strandIx st) s t := by
  refine ⟨_, stopNow_applies o st s, ?_⟩
  rw [applyStopNow_moving hn (by simpa using h), enter_self]
  exact ⟨rfl, (categoryZero_onlyStrand _ _).enter _⟩

theorem stopNow_resting_acts (hn : st ≠ 0xFFFF)
    (h : s.strands[strandIx st].st = .off ∨ s.strands[strandIx st].st = .ready ∨ s.strands[strandIx st].st = .safe) :
    SetActs (.stopNow o st) o s s := by
  obtain ⟨hmoving, hfault⟩ : s.strands[strandIx st].st ∉ [StrandSt.run, .hold, .stopping] ∧ s.strands[strandIx st].st ∉ [StrandSt.fault] := by
    rcases h with h | h | h <;> rw [h] <;> decide
  have ha := stopNow_applies o st s
  rwa [applyStopNow_resting hn hmoving hfault] at ha

/-! STRAND_HOLD. -/

theorem holdStates_checked (release : Byte) (h : s.strands[strandIx st].st ∈ [StrandSt.run, .hold]) :
    checkSet (.strandHold o st release) s = stOk := allowIf_true (within_of_mem h)

theorem strandHold_acts {release : Byte} (hrun : s.strands[strandIx st].st = .run) (hr : release ≠ 1) :
    ∃ t : State, SetActs (.strandHold o st release) o s t ∧ t.strands[strandIx st].st = .hold ∧ t.strands[strandIx st].holdCmd = true ∧
      OnlyStrand (strandIx st) s t := by
  refine ⟨_, setActs_applySet rfl (holdStates_checked release (by rw [hrun]; decide)) rfl, ?_⟩
  simp only [applySet, applyHold, beq_false_of_ne hr, Bool.false_eq_true, if_false, if_pos hrun, modStrand_self]
  exact ⟨beginHold_st .., trivial, (beginHold_onlyStrand _ _).modStrand _⟩

theorem strandHold_release_acts (hhold : s.strands[strandIx st].st = .hold) (hc : s.strands[strandIx st].holdCtl = false) :
    ∃ t : State, SetActs (.strandHold o st 1) o s t ∧ t.strands[strandIx st].st = .run ∧ t.strands[strandIx st].holdCmd = false ∧
      OnlyStrand (strandIx st) s t := by
  refine ⟨_, setActs_applySet rfl (holdStates_checked 1 (by rw [hhold]; decide)) rfl, ?_⟩
  have hfree : s.strands[strandIx st].st = .hold ∧ (!s.strands[strandIx st].holdCtl) = true := ⟨hhold, by rw [hc]; rfl⟩
  simp only [applySet, applyHold, beq_self_eq_true, if_true, if_pos hfree, enter_self, modStrand_self]
  exact ⟨trivial, trivial, (modStrand_onlyStrand _ _ _).enter _⟩

/-! FAULT_RESET. -/

/-- The fault word clears, and the strand goes to READY, or to OFF where it must be armed again (R93). -/
theorem applyFaultReset_strands (s : State) (i : StrandId) :
    (applyFaultReset i s).strands[i].fault = 0 ∧
      (applyFaultReset i s).strands[i].st = (if s.strands[i].rearm = true then .off else .ready) ∧ OnlyStrand i s (applyFaultReset i s) := by
  unfold applyFaultReset
  extract_lets x untripped cleared
  have huntripped : untripped.strands = s.strands := by
    simp only [untripped]
    split <;> rfl
  have hcleared : cleared.strands = s.strands := by
    simp only [cleared]
    split <;> exact huntripped
  rw [enter_self, modStrand_self]
  exact ⟨rfl, rfl, ((OnlyStrand.of_strands hcleared).modStrand _).enter _⟩

theorem faultReset_acts (h : checkSet (.faultReset o st) s = stOk) :
    ∃ t : State, SetActs (.faultReset o st) o s t ∧ t.strands[strandIx st].fault = 0 ∧
      t.strands[strandIx st].st = (if s.strands[strandIx st].rearm = true then .off else .ready) ∧ OnlyStrand (strandIx st) s t :=
  ⟨_, setActs_applySet rfl h rfl, applyFaultReset_strands s (strandIx st)⟩

end Sys2Proof.Machine

open Sys2Proof Sys2Proof.Machine

/-- Settles O27: each of the seven sets does to its strand what its row of the table gives, and updates no other strand. -/
theorem strandStatesMoveAsTheTableGives : Obligations.StrandStatesMoveAsTheTableGives := by
  refine ⟨fun _ _ _ => strandArm_acts, fun _ _ _ => strandEnable_acts, fun _ _ _ => strandDisable_acts, fun _ _ _ _ _ => stop_acts,
    fun s o st hn h => ?stopNow, fun _ _ _ => stopNow_resting_acts, fun _ _ _ _ => strandHold_acts, fun _ _ _ => strandHold_release_acts,
    fun _ _ _ => faultReset_acts⟩
  case stopNow =>
    obtain ⟨t, hacts, hready, hothers⟩ := stopNow_moving_acts (o := o) hn h
    exact ⟨t, hacts, hready, fun j hj => congrArg Strand.st (hothers j hj)⟩
end

section
/-! The family of profiles, paths, cams and skeins: what the moves, GROUP_DEFINE, PATH_START, PATH_STOP, CAM_SWAP, the skein
commands, REG_TRIM and ROUTE_EPOCH do when their sets act (R98 to R127). -/

namespace Sys2Proof.Machine

variable {s : State} {o : Origin} {st : Half} {i : StrandId}

/-! A step made once for each entry of a list without repeats. -/

/-- Where each step updates its own entry of a vector, the entries that the list names are updated once, and the others stay. -/
theorem foldl_updates {σ α : Type} {n : Nat} (π : σ → Vector α n) {step : σ → Fin n → σ} {f : α → α}
    (h : ∀ s k, π (step s k) = (π s).set k (f (π s)[k])) {l : List (Fin n)} (hl : l.Nodup) (s : σ) (k : Fin n) :
    (π (l.foldl step s))[k] = if k ∈ l then f (π s)[k] else (π s)[k] := by
  induction l generalizing s with
  | nil => rfl
  | cons a l ih =>
    obtain ⟨hfresh, hrest⟩ := List.nodup_cons.mp hl
    rw [List.foldl_cons, ih hrest, h]
    by_cases hk : k = a
    · subst hk
      simp [hfresh]
    · have hne : a.val ≠ k.val := fun e => hk (Fin.ext e.symm)
      simp [hk, hne]

theorem foldl_updates_all {σ α : Type} {n : Nat} (π : σ → Vector α n) {step : σ → Fin n → σ} {f : α → α}
    (h : ∀ s k, π (step s k) = (π s).set k (f (π s)[k])) (s : σ) (k : Fin n) :
    (π ((List.finRange n).foldl step s))[k] = f (π s)[k] := by
  rw [foldl_updates π h (List.nodup_finRange n), if_pos (List.mem_finRange k)]

/-! Moves (R98 to R102). -/

/-- `c` is a command of this strand that asks for the move `m`. -/
inductive MoveCommand (o : Origin) (st : Half) : Instr → Move → Prop
  | abs (target : BitVec 64) : MoveCommand o st (.moveAbs o st target) (.abs target.toInt)
  | rel (d : BitVec 64) : MoveCommand o st (.moveRel o st d) (.rel d.toInt)
  | jog (v : Word) : MoveCommand o st (.jog o st v) (.jog v.toInt)

section Move

variable {c : Instr} {m : Move}

theorem MoveCommand.origin (h : MoveCommand o st c m) : originOf c = some o := by cases h <;> rfl

theorem MoveCommand.applies (h : MoveCommand o st c m) (s : State) : applySet c s = applyMove (strandIx st) m c s := by cases h <;> rfl

/-- Its command ends later where it is the one that waits on the strand (R101). -/
theorem MoveCommand.later (h : MoveCommand o st c m) (s : State) :
    endsLater c s = decide ((s.strands[strandIx st].deferred.map (·.2)) = some c) := by cases h <;> rfl

theorem MoveCommand.notLater (h : MoveCommand o st c m) (hd : s.strands[strandIx st].deferred = none) : endsLater c s = false := by
  rw [h.later, hd]
  rfl

theorem dropDeferred_none (h : s.strands[i].deferred = none) : s.dropDeferred i = s := by simp only [State.dropDeferred, h]

theorem startMove_deferred (s : State) (i : StrandId) (w : Waiting) : (s.startMove i w).strands[i].deferred = s.strands[i].deferred := by
  rw [State.startMove, modStrand_self]

theorem applyMove_begins (hd : s.strands[i].deferred = none) (ho : ownReference s i = true) (hr : inRamp s i = false) :
    applyMove i m c s = s.startMove i ⟨m, profileOf s.strands[i].cfg⟩ := by
  simp only [applyMove, dropDeferred_none hd, ho, hr, Bool.not_true, Bool.false_eq_true, if_false]

theorem applyMove_stores (hd : s.strands[i].deferred = none) (ho : ownReference s i = false) :
    applyMove i m c s = s.modStrand i fun x => { x with stored := some ⟨m, profileOf x.cfg⟩ } := by
  simp only [applyMove, dropDeferred_none hd, ho, Bool.not_false, if_true]
  rfl

theorem applyMove_waits (hd : s.strands[i].deferred = none) (ho : ownReference s i = true) (hr : inRamp s i = true) :
    applyMove i m c s = s.modStrand i fun x => { x with deferred := some (⟨m, profileOf x.cfg⟩, c) } := by
  simp only [applyMove, dropDeferred_none hd, ho, hr, Bool.not_true, Bool.false_eq_true, if_false, if_true]
  rfl

theorem move_begins (h : MoveCommand o st c m) (hd : s.strands[strandIx st].deferred = none)
    (ho : ownReference s (strandIx st) = true) (hr : inRamp s (strandIx st) = false) (hc : checkSet c s = stOk) :
    SetActs c o s (s.startMove (strandIx st) ⟨m, profileOf s.strands[strandIx st].cfg⟩) := by
  have happly := (h.applies s).trans (applyMove_begins hd ho hr)
  rw [← happly]
  exact setActs_applySet h.origin hc (h.notLater (by rw [happly, startMove_deferred, hd]))

theorem move_stored (h : MoveCommand o st c m) (hd : s.strands[strandIx st].deferred = none)
    (ho : ownReference s (strandIx st) = false) (hc : checkSet c s = stOk) :
    SetActs c o s (s.modStrand (strandIx st) fun x => { x with stored := some ⟨m, profileOf x.cfg⟩ }) := by
  have happly := (h.applies s).trans (applyMove_stores hd ho)
  rw [← happly]
  exact setActs_applySet h.origin hc (h.notLater (by rw [happly, modStrand_self, hd]))

theorem move_waits (h : MoveCommand o st c m) (hd : s.strands[strandIx st].deferred = none)
    (ho : ownReference s (strandIx st) = true) (hr : inRamp s (strandIx st) = true) (hc : checkSet c s = stOk) :
    s.takeSet c = s.modStrand (strandIx st) fun x => { x with deferred := some (⟨m, profileOf x.cfg⟩, c) } := by
  have happly := (h.applies s).trans (applyMove_waits hd ho hr)
  rw [takeSet_passed h.origin hc, happly, if_pos]
  rw [h.later, modStrand_self]
  exact decide_eq_true rfl

end Move

/-! Groups (R104 to R110). -/

theorem modGroup_self (g : Fin 32) (f : Group → Group) : (s.modGroup g f).groups[g] = f s.groups[g] := Vector.getElem_set_self ..

theorem modGroup_other {g k : Fin 32} (h : k ≠ g) (f : Group → Group) : (s.modGroup g f).groups[k] = s.groups[k] :=
  Vector.getElem_set_ne g.isLt k.isLt fun e => h (Fin.ext e.symm)

/-- A group without the members that another one takes. -/
def Group.without (ms : List StrandId) (x : Group) : Group := { x with members := x.members.filter fun i => !ms.contains i }

/-- The state with these members out of every group. -/
def State.ungroup (ms : List StrandId) (s : State) : State := (List.finRange 32).foldl (fun s k => s.modGroup k (Group.without ms)) s

theorem ungroup_group (ms : List StrandId) (s : State) (k : Fin 32) : (s.ungroup ms).groups[k] = s.groups[k].without ms :=
  foldl_updates_all State.groups (fun t k => State.modGroup_groups (s := t) k _) s k

theorem ungroup_strands (ms : List StrandId) (s : State) : (s.ungroup ms).strands = s.strands :=
  foldl_strands (fun _ _ => State.modGroup_strands ..) _ s

theorem applyGroup_eq (g : Fin 32) (members : List Half) (s : State) : applyGroup g members s =
    (s.ungroup (members.map strandIx)).modGroup g fun x => appendRecs x.next { Group.reset with members := members.map strandIx } := rfl

/-- The group defined is made anew with its members and the records that waited for it; they leave every other one (R104). -/
theorem applyGroup_self (g : Fin 32) (members : List Half) (s : State) : (applyGroup g members s).groups[g] =
    appendRecs s.groups[g].next { Group.reset with members := members.map strandIx } := by
  rw [applyGroup_eq, modGroup_self, ungroup_group, Group.without]

theorem applyGroup_other {g k : Fin 32} (h : k ≠ g) (members : List Half) (s : State) :
    (applyGroup g members s).groups[k] = s.groups[k].without (members.map strandIx) := by
  rw [applyGroup_eq, modGroup_other h, ungroup_group]

theorem applyGroup_strands (g : Fin 32) (members : List Half) (s : State) : (applyGroup g members s).strands = s.strands := by
  rw [applyGroup_eq, State.modGroup_strands, ungroup_strands]

theorem not_mem_without {ms : List StrandId} (x : Group) (hi : i ∈ ms) : i ∉ (x.without ms).members := fun hmem => by
  obtain ⟨-, hout⟩ := List.mem_filter.mp hmem
  rw [List.contains_iff_mem.mpr hi] at hout
  cases hout

theorem groupDefine_acts {g n : Byte} {members : List Half} (hc : checkSet (.groupDefine o g n members) s = stOk) :
    ∃ t : State, SetActs (.groupDefine o g n members) o s t ∧ t.groups[groupIx g].members = members.map strandIx ∧
      t.groups[groupIx g].queue = s.groups[groupIx g].next ∧ t.groups[groupIx g].running = false ∧ t.strands = s.strands ∧
      ∀ k : Fin 32, k ≠ groupIx g → ∀ i ∈ members.map strandIx, i ∉ t.groups[k].members := by
  refine ⟨_, setActs_applySet rfl hc rfl, ?_⟩
  simp only [applySet]
  rw [applyGroup_self]
  refine ⟨rfl, List.nil_append _, rfl, applyGroup_strands .., fun k hk i hi => ?_⟩
  rw [applyGroup_other hk]
  exact not_mem_without _ hi

theorem settleOwed_groups (s : State) (w : Owed) (cycle : BitVec 48) : (s.settleOwed w cycle).groups = s.groups := by
  unfold State.settleOwed
  dsimp only
  split <;> rfl

theorem finish_groups (s : State) (c : Instr) (o : Origin) (x : Half) (res : List Byte) : (s.finish c o x res).groups = s.groups := by
  unfold State.finish
  split
  · exact settleOwed_groups ..
  · rfl

theorem dropDeferred_groups (s : State) (i : StrandId) : (s.dropDeferred i).groups = s.groups := by
  unfold State.dropDeferred
  split
  · rfl
  · extract_lets dropped
    split
    · exact finish_groups ..
    · rfl

/-- An idle group runs from where its members' references stand (R105). -/
theorem applyPathStart_idle {g : Byte} (h : s.groups[groupIx g].running = false) :
    (applyPathStart g s).groups[groupIx g].running = true ∧ (applyPathStart g s).groups[groupIx g].s = 0 ∧
      (applyPathStart g s).groups[groupIx g].queue = s.groups[groupIx g].queue ∧
      (applyPathStart g s).groups[groupIx g].starts = s.groups[groupIx g].members.map fun i => (refNow s i).1 := by
  unfold applyPathStart
  extract_lets x here dropped
  have hgroups : dropped.groups = s.groups :=
    foldl_frame State.groups (fun t i => (State.modStrand_groups ..).trans (dropDeferred_groups t i)) _ s
  have hself : dropped.groups[groupIx g] = s.groups[groupIx g] := by rw [hgroups]
  simp only [modGroup_self, hself, h, Bool.false_eq_true, if_false]
  exact ⟨trivial, trivial, trivial, rfl⟩

theorem pathStart_acts {g : Byte} (hc : checkSet (.pathStart o g) s = stOk) (h : s.groups[groupIx g].running = false) :
    ∃ t : State, SetActs (.pathStart o g) o s t ∧ t.groups[groupIx g].running = true ∧ t.groups[groupIx g].s = 0 ∧
      t.groups[groupIx g].queue = s.groups[groupIx g].queue ∧
      t.groups[groupIx g].starts = s.groups[groupIx g].members.map fun i => (refNow s i).1 :=
  ⟨_, setActs_applySet rfl hc rfl, applyPathStart_idle h⟩

theorem applyPathStop_idle {g : Byte} {decel : Word} (h : s.groups[groupIx g].running = false) :
    (applyPathStop g decel s).groups[groupIx g] = { s.groups[groupIx g] with queue := [] } := by
  simp only [applyPathStop, modGroup_self, h, Bool.false_eq_true, if_false]

/-- With a deceleration of its own; a harder stop that runs goes on (log entry 24). -/
theorem applyPathStop_running {g : Byte} {decel : Word} (h : s.groups[groupIx g].running = true) (hd : decel ≠ 0) :
    (applyPathStop g decel s).groups[groupIx g].stopping =
      some ((s.groups[groupIx g].stopping.map fun e => max (decel.toNat : Rat) e).getD decel.toNat) := by
  simp only [applyPathStop, modGroup_self, h, if_pos hd, if_true]

theorem pathStop_acts (s : State) (o : Origin) (g : Byte) (decel : Word) :
    ∃ t : State, SetActs (.pathStop o g decel) o s t ∧
      (s.groups[groupIx g].running = false → t.groups[groupIx g].queue = [] ∧ t.groups[groupIx g].running = false) ∧
      (s.groups[groupIx g].running = true → decel ≠ 0 →
        (s.groups[groupIx g].stopping = none → t.groups[groupIx g].stopping = some (decel.toNat : Rat)) ∧
        ∀ d : Rat, s.groups[groupIx g].stopping = some d → t.groups[groupIx g].stopping = some (max (decel.toNat : Rat) d)) ∧
      (∀ k : Fin 32, k ≠ groupIx g → t.groups[k] = s.groups[k]) ∧ t.strands = s.strands := by
  refine ⟨applyPathStop g decel s, setActs_applySet rfl rfl rfl, fun hidle => ?idle, fun hrun hd => ⟨fun hs => ?first, fun d hs => ?harder⟩,
    fun k hk => modGroup_other hk _, rfl⟩
  case idle =>
    rw [applyPathStop_idle hidle]
    exact ⟨rfl, hidle⟩
  case first =>
    rw [applyPathStop_running hrun hd, hs]
    rfl
  case harder =>
    rw [applyPathStop_running hrun hd, hs]
    rfl

/-! Cams, skeins and the map caches (R114, R120 to R127). -/

theorem setBytes_skeinDefine (o : Origin) (k : Byte) (master : Word) (coupling : Byte) (d : Desc) :
    setBytes (.skeinDefine o k master coupling d) = Desc.bytes d := rfl

theorem skeinDefine_acts {k : Byte} {master : Word} {coupling : Byte} {d : Desc} {c : SkeinCfg}
    (hcfg : skein? master coupling.toNat (Desc.bytes d) = some c) (hfree : engagedIn s (skeinIx k) = false) :
    SetActs (.skeinDefine o k master coupling d) o s (s.modSkein (skeinIx k) fun x => { x with cfg := some c, phiTo := 0 }) := by
  have hc : checkSet (.skeinDefine o k master coupling d) s = stOk := by
    simp only [checkSet, checkSkeinDefine, setBytes_skeinDefine, hcfg, hfree, Option.isNone_some, Bool.false_eq_true, if_false]
    rfl
  have happly : applySet (.skeinDefine o k master coupling d) s = s.modSkein (skeinIx k) fun x => { x with cfg := some c, phiTo := 0 } := by
    simp only [applySet, applySkeinDefine, setBytes_skeinDefine, hcfg]
  rw [← happly]
  exact setActs_applySet rfl hc rfl

theorem skeinEngage_acts {k : Byte} {ramp : Word} (hc : checkSet (.skeinEngage o k st ramp) s = stOk) :
    ∃ t : State, SetActs (.skeinEngage o k st ramp) o s t ∧ (t.strands[strandIx st].engage.map (·.skein)) = some (skeinIx k) ∧
      t.strands[strandIx st].plan = none ∧ OnlyStrand (strandIx st) s t := by
  refine ⟨_, setActs_applySet rfl hc rfl, ?_⟩
  simp only [applySet, applyEngage, modStrand_self]
  exact ⟨rfl, trivial, (leavePath_dropDeferred_onlyStrand s _).modStrand _⟩

theorem skeinDisengage_acts {k : Byte} {decel : Word} (h : (s.strands[strandIx st].engage.map (·.skein)) = some (skeinIx k)) :
    ∃ t : State, SetActs (.skeinDisengage o k st decel) o s t ∧ t.strands[strandIx st].engage = none ∧
      t.strands[strandIx st].stop.isSome = true ∧ OnlyStrand (strandIx st) s t := by
  obtain ⟨e, he, hk⟩ := Option.map_eq_some_iff.mp h
  have hc : checkSet (.skeinDisengage o k st decel) s = stOk :=
    allowIf_true (by rw [he, Option.any_some, decide_eq_true hk])
  refine ⟨_, setActs_applySet rfl hc rfl, ?_⟩
  simp only [applySet, applyDisengage, modStrand_self]
  exact ⟨trivial, rfl, modStrand_onlyStrand _ _ _⟩

theorem dropMapCaches_role (s : State) (e : EngineId) : s.dropMapCaches.roles[e] = { s.roles[e] with mapCache := [] } :=
  foldl_updates_all State.roles (f := fun r => { r with mapCache := [] }) (fun _ _ => rfl) s e

theorem dropMapCaches_frame (s : State) : s.dropMapCaches.mem = s.mem ∧ s.dropMapCaches.strands = s.strands :=
  ⟨foldl_frame State.mem (fun _ _ => State.modRole_mem ..) _ s, foldl_strands (fun _ _ => State.modRole_strands ..) _ s⟩

theorem routeEpoch_acts (s : State) (o : Origin) : ∃ t : State, SetActs (.routeEpoch o) o s t ∧
    (∀ e : EngineId, t.roles[e].mapCache = []) ∧ t.mem.pubmap = s.mem.pubmap ∧ t.strands = s.strands := by
  obtain ⟨hmem, hstrands⟩ := dropMapCaches_frame s
  exact ⟨s.dropMapCaches, setActs_applySet rfl rfl rfl, fun e => by rw [dropMapCaches_role], by rw [hmem], hstrands⟩

end Sys2Proof.Machine

open Sys2Proof Sys2Proof.Machine

/-- Settles O29: the three moves are settled as one, and each other set by the equation of what it applies. -/
theorem movesPathsCamsAndSkeinsTakeEffect : Obligations.MovesPathsCamsAndSkeinsTakeEffect := by
  refine ⟨fun s o st hd ho hr => ?begins, fun s o st hd ho => ?stored, fun s o st hd ho hr => ?waits, fun _ _ _ _ _ => groupDefine_acts,
    fun _ _ _ => pathStart_acts, pathStop_acts, fun _ _ _ hfull => setActs_applySet rfl (allowIf_true hfull) rfl,
    fun _ _ _ _ _ _ _ => skeinDefine_acts, fun _ _ _ _ _ => skeinEngage_acts, fun _ _ _ _ _ => skeinDisengage_acts,
    fun _ _ _ _ _ _ _ => setActs_applySet rfl rfl rfl, routeEpoch_acts⟩
  case begins =>
    exact ⟨fun x => move_begins (.abs x) hd ho hr, fun d => move_begins (.rel d) hd ho hr, fun v => move_begins (.jog v) hd ho hr⟩
  case stored => exact ⟨fun x => move_stored (.abs x) hd ho, fun d => move_stored (.rel d) hd ho, fun v => move_stored (.jog v) hd ho⟩
  case waits => exact ⟨fun x => move_waits (.abs x) hd ho hr, fun d => move_waits (.rel d) hd ho hr, fun v => move_waits (.jog v) hd ho hr⟩
end

section
/-! The family of profiles, paths, cams and skeins: PATH_QUEUE, CAM_EDIT and PUBMAP_WRITE (R105, R115, R126). -/

namespace Sys2Proof.Machine

variable {s t : State} {o : Origin}

/-- Of a served command no restart owes the end (R53). -/
theorem served_owedFor {i : Instr} (h : Served i o s) : s.owedFor i = none := by
  obtain ⟨-, -, -, -, -, -, -, -, howed⟩ := h
  exact howed

/-! PATH_QUEUE (R68, R105). -/

/-- A served S-class command that reads its descriptor's data first ends as its body says, where that settles nothing that is
owed (R65, R67). -/
theorem runShortIn_ends {i : Instr} (h : Served i o s) {d : Desc} {bs : List Byte} (hd : readDesc (s.holdTag o.mb o.tag) d = .ok bs)
    {body : List Byte → State → CmdResult} {st : Half} {res : List Byte} (hbody : body bs (s.holdTag o.mb o.tag) = (t, st, res))
    (howed : t.dist.owed = s.dist.owed) : (Host.Outcome.next (runShortIn i o d body s) : Answer) = .next (t.ended i o st res) :=
  runShort_ends_owing h (by simp only [hd, hbody]) howed

/-- In the armed view the group has members, and the bytes spell these records for it, with arcs it can run (R68, R105). -/
structure WellFormedRecs (group : Byte) (bs : List Byte) (rs : List PathRec) (s : State) : Prop where
  members : (armedView s).groups[groupIx group].members ≠ []
  records : pathRecs? (armedView s).groups[groupIx group].members.length (bs.length / 96) bs = some rs
  arcs : arcsOk (pathEnd (armedView s) (armedView s).groups[groupIx group]) rs = true

section PathQueue

variable {group : Byte} {bs : List Byte} {rs : List PathRec}

theorem runPathQueue_full (h : WellFormedRecs group bs rs s) (hfull : 1024 < (armedView s).groups[groupIx group].queue.length + rs.length) :
    runPathQueue group bs s = refuse s stRefused := by
  have hm : (armedView s).groups[groupIx group].members.isEmpty = false := List.isEmpty_eq_false_iff.mpr h.members
  simp only [runPathQueue, hm, h.records, h.arcs, if_pos hfull, Bool.not_true, Bool.false_eq_true, if_false]

theorem runPathQueue_fits (h : WellFormedRecs group bs rs s) (hfit : (armedView s).groups[groupIx group].queue.length + rs.length ≤ 1024) :
    runPathQueue group bs s = (s.modGroup (groupIx group) fun x =>
      if (s.dist.orphan ++ s.dist.armed ++ s.dist.staged).any (definesGroup (groupIx group)) then { x with next := x.next ++ rs }
      else appendRecs rs x, stOk, leBytes 4 (1024 - ((armedView s).groups[groupIx group].queue.length + rs.length))) := by
  have hm : (armedView s).groups[groupIx group].members.isEmpty = false := List.isEmpty_eq_false_iff.mpr h.members
  simp only [runPathQueue, hm, h.records, h.arcs, if_neg (Nat.not_lt.mpr hfit), Bool.not_true, Bool.false_eq_true, if_false]

theorem pathQueue_refuses {desc : Desc} (hs : Served (.pathQueue o group desc) o s) (hd : readDesc (s.holdTag o.mb o.tag) desc = .ok bs)
    (h : WellFormedRecs group bs rs (s.holdTag o.mb o.tag))
    (hfull : 1024 < (armedView (s.holdTag o.mb o.tag)).groups[groupIx group].queue.length + rs.length) :
    exec (.pathQueue o group desc) s = .next ((s.holdTag o.mb o.tag).ended (.pathQueue o group desc) o stRefused []) :=
  runShortIn_ends hs hd (runPathQueue_full h hfull) rfl

/-- The records join the group's queue, or those that wait for the group's new definition. -/
theorem pathQueue_takes {desc : Desc} (hs : Served (.pathQueue o group desc) o s) (hd : readDesc (s.holdTag o.mb o.tag) desc = .ok bs)
    (h : WellFormedRecs group bs rs (s.holdTag o.mb o.tag))
    (hfit : (armedView (s.holdTag o.mb o.tag)).groups[groupIx group].queue.length + rs.length ≤ 1024) {waits : Bool}
    (hw : (s.dist.orphan ++ s.dist.armed ++ s.dist.staged).any (definesGroup (groupIx group)) = waits) :
    RanShort (.pathQueue o group desc) o s
      (fun u => u.modGroup (groupIx group) fun x => if waits then { x with next := x.next ++ rs } else appendRecs rs x)
      (leBytes 4 (1024 - ((armedView (s.holdTag o.mb o.tag)).groups[groupIx group].queue.length + rs.length))) := by
  subst hw
  exact runShortIn_ends hs hd (runPathQueue_fits h hfit) rfl

end PathQueue

/-! CAM_EDIT (R115). -/

theorem camPoints_length (bs : List Byte) (n off : Nat) : (camPoints bs n off).length = n := by
  induction n generalizing off with
  | zero => rfl
  | succ n ih => rw [camPoints, List.length_cons, ih]

theorem modDist_ite (f : Distaff → Distaff) {p : Prop} [Decidable p] (a b : State) :
    (if p then a else b).modDist f = if p then a.modDist f else b.modDist f := apply_ite (State.modDist · f) p a b

/-- Waking banks and an update of the distaff change different parts of the state (R35). -/
theorem wakeBank_modDist (f : Distaff → Distaff) (b : BankId) (s : State) : (s.modDist f).wakeBank b = (s.wakeBank b).modDist f := by
  simp only [State.wakeBank, State.modDist_pwr, State.modDist_mem, modDist_ite]
  rfl

theorem serveBank_modDist (f : Distaff → Distaff) (b : BankId) (s : State) : (s.modDist f).serveBank b = (s.serveBank b).modDist f := by
  simp only [State.serveBank, wakeBank_modDist, State.modDist_mem, modDist_ite]
  rfl

theorem wakeRange_modDist (f : Distaff → Distaff) (lo hi : Nat) (s : State) : (s.modDist f).wakeRange lo hi = (s.wakeRange lo hi).modDist f :=
  List.foldl_hom (State.modDist · f) fun t b => by
    split
    · exact serveBank_modDist f b t
    · rfl

theorem wakeChain_modDist (f : Distaff → Distaff) (chain : List Nat) (s : State) : (s.modDist f).wakeChain chain = (s.wakeChain chain).modDist f :=
  List.foldl_hom (State.modDist · f) fun t _ => wakeRange_modDist f _ _ t

/-- An edit that has written `n` of its points. -/
def CamEditRun.after (r : CamEditRun) (n : Nat) : CamEditRun := { r with next := r.next + min n r.rest.length, rest := r.rest.drop n }

/-- The state with `n` points of an edit written and the rest in hand. -/
def State.edited (s : State) (r : CamEditRun) (n : Nat) : State :=
  ((s.wakeChain r.chain).modMem fun m => m.putPoints r.chain r.next (r.rest.take n)).modDist fun d => { d with edit := some (r.after n) }

theorem editBy_begun (s : State) (r : CamEditRun) (n : Nat) : (s.modDist fun d => { d with edit := some r }).editBy n = s.edited r n := by
  simp only [State.editBy, State.modDist_dist, wakeChain_modDist]
  rfl

/-- Writing points touches the banks, and of the rest of the state the distaff's edit alone. -/
theorem edited_frame (s : State) (r : CamEditRun) (n : Nat) : (s.edited r n).dist = { s.dist with edit := some (r.after n) } ∧
    (s.edited r n).mb = s.mb ∧ (s.edited r n).cams = s.cams ∧ (s.edited r n).strands = s.strands := by
  obtain ⟨p, m, h⟩ := wakeChain_onlyBanks r.chain s
  rw [State.edited, h]
  exact ⟨rfl, rfl, rfl, rfl⟩

section Edited

variable {r : CamEditRun} {n : Nat}

/-- An edit whose last point is written ends its command. -/
theorem edited_ends (hn : r.rest.length ≤ n) (ho : originOf r.cmd = some o) (howed : s.owedFor r.cmd = none) :
    (s.edited r n).endEdit = ((s.edited r n).modDist fun d => { d with edit := none }).ended r.cmd o stOk [] := by
  obtain ⟨hdist, -, -, -⟩ := edited_frame s r n
  have hedit : (s.edited r n).dist.edit = some (r.after n) := by rw [hdist]
  have hend : ((s.edited r n).modDist fun d => { d with edit := none }).owedFor r.cmd = none := by
    rw [State.owedFor, State.modDist_dist, hdist]
    exact howed
  simp only [State.endEdit, hedit, CamEditRun.after, List.drop_eq_nil_of_le hn, List.isEmpty_nil, if_true, ho, finish_ended hend]

theorem edited_goesOn (hn : n < r.rest.length) : (s.edited r n).endEdit = s.edited r n := by
  obtain ⟨hdist, -, -, -⟩ := edited_frame s r n
  have hedit : (s.edited r n).dist.edit = some (r.after n) := by rw [hdist]
  have hrest : (r.rest.drop n).isEmpty = false := List.isEmpty_eq_false_iff.mpr fun e => Nat.not_le.mpr hn (List.drop_eq_nil_iff.mp e)
  simp only [State.endEdit, hedit, CamEditRun.after, hrest, Bool.false_eq_true, if_false]

theorem after_within (hn : n < r.rest.length) : r.after n = { r with next := r.next + n, rest := r.rest.drop n } := by
  rw [CamEditRun.after, Nat.min_eq_left hn.le]

end Edited

theorem holdTag_pend (s : State) (mb : MbId) (tag : Fin 32) : (s.holdTag mb tag).mb[mb].pend = s.mb[mb].pend := by
  rw [State.holdTag, State.lockTag, modMb_self, State.takeRequest, State.modDist_mb, modMb_self]

theorem ended_pend (s : State) (i : Instr) (o : Origin) (st : Half) (res : List Byte) :
    (s.ended i o st res).mb[o.mb].pend = s.mb[o.mb].pend ++ [finalCmpl i o st noCycle res] := by
  rw [State.ended, State.pushCmpl, modMb_self]

section CamEdit

variable {table : Half} {first : Word} {desc : Desc} {bs : List Byte}

theorem camEdit_runs (h : Served (.camEdit o table first desc) o s) (hd : readDesc (s.holdTag o.mb o.tag) desc = .ok bs) :
    exec (.camEdit o table first desc) s =
      .next (runCamEdit (.camEdit o table first desc) o table first bs (s.holdTag o.mb o.tag)) := by
  have hc := claim_served h
  obtain ⟨-, -, -, -, -, -, -, hr, -⟩ := h
  simp only [exec, execCamEdit, hc, hr, hd, Bool.false_eq_true, if_false]

/-- The edit that CAM_EDIT begins. -/
def camEditRun (o : Origin) (table : Half) (first : Word) (desc : Desc) (bs : List Byte) (s : State) : CamEditRun :=
  ⟨.camEdit o table first desc, s.cams[camIx table].chainActive, first.toNat, camPoints bs (bs.length / 8) 0⟩

theorem runCamEdit_within {c : CamHead} (ha : s.cams[camIx table].active = some c) (hin : first.toNat + bs.length / 8 ≤ c.count) :
    runCamEdit (.camEdit o table first desc) o table first bs s =
      (s.edited (camEditRun o table first desc bs s) (editNow s (bs.length / 8))).endEdit.tick := by
  simp only [runCamEdit, ha, if_neg (Nat.not_lt.mpr hin)]
  exact congrArg (fun u : State => u.endEdit.tick) (editBy_begun ..)

theorem runCamEdit_beyond {i : Instr} (hout : ∀ c : CamHead, s.cams[camIx table].active = some c → c.count < first.toNat + bs.length / 8) :
    runCamEdit i o table first bs s = s.finish i o stBadArg [] := by
  unfold runCamEdit
  split
  · rfl
  next c ha => exact if_pos (hout c ha)

theorem camEdit_refuses (h : Served (.camEdit o table first desc) o s) (hd : readDesc (s.holdTag o.mb o.tag) desc = .ok bs)
    (hout : ∀ c : CamHead, s.cams[camIx table].active = some c → c.count < first.toNat + bs.length / 8) :
    exec (.camEdit o table first desc) s = .next ((s.holdTag o.mb o.tag).ended (.camEdit o table first desc) o stBadArg []) := by
  have howed := served_owedFor h
  rw [camEdit_runs h hd, runCamEdit_beyond (s := s.holdTag o.mb o.tag) hout, finish_ended (s := s.holdTag o.mb o.tag) howed]

theorem camEdit_writes {c : CamHead} (h : Served (.camEdit o table first desc) o s) (hd : readDesc (s.holdTag o.mb o.tag) desc = .ok bs)
    (ha : s.cams[camIx table].active = some c) (hin : first.toNat + bs.length / 8 ≤ c.count) :
    let chain := s.cams[camIx table].chainActive
    let points := camPoints bs (bs.length / 8) 0
    let n := editNow s (bs.length / 8)
    ∃ t : State, exec (.camEdit o table first desc) s = .next t ∧
      t.mem = ((s.holdTag o.mb o.tag).wakeChain chain).mem.putPoints chain first.toNat (points.take n) ∧
      t.cams = s.cams ∧ t.strands = s.strands ∧
      (bs.length / 8 ≤ n → t.dist.edit = none ∧ t.mb[o.mb].pend = s.mb[o.mb].pend ++ [finalCmpl (.camEdit o table first desc) o stOk noCycle []]) ∧
      (n < bs.length / 8 → t.mb[o.mb].pend = s.mb[o.mb].pend ∧
        t.dist.edit = some ⟨.camEdit o table first desc, chain, first.toNat + n, points.drop n⟩) := by
  intro chain points n
  have hlen : points.length = bs.length / 8 := camPoints_length ..
  have hruns : exec (.camEdit o table first desc) s =
      .next ((s.holdTag o.mb o.tag).edited (camEditRun o table first desc bs s) n).endEdit.tick :=
    (camEdit_runs h hd).trans (congrArg Host.Outcome.next (runCamEdit_within (s := s.holdTag o.mb o.tag) ha hin))
  obtain ⟨hdist, hmb, hcams, hstrands⟩ := edited_frame (s.holdTag o.mb o.tag) (camEditRun o table first desc bs s) n
  have hpend : ((s.holdTag o.mb o.tag).edited (camEditRun o table first desc bs s) n).mb[o.mb].pend = s.mb[o.mb].pend := by
    rw [hmb, holdTag_pend]
  rcases Nat.lt_or_ge n (bs.length / 8) with hlt | hge
  · have hn : n < (camEditRun o table first desc bs s).rest.length := hlen ▸ hlt
    rw [edited_goesOn hn] at hruns
    refine ⟨_, hruns, rfl, hcams, hstrands, fun hle => absurd hlt (Nat.not_lt.mpr hle), fun _ => ⟨hpend, ?_⟩⟩
    rw [State.tick_dist, hdist, after_within hn]
    rfl
  · have howed := served_owedFor h
    rw [edited_ends (s := s.holdTag o.mb o.tag) (r := camEditRun o table first desc bs s) (hlen ▸ hge) rfl howed] at hruns
    refine ⟨_, hruns, rfl, hcams, hstrands, fun _ => ⟨rfl, ?_⟩, fun hlt => absurd hge (Nat.not_le.mpr hlt)⟩
    rw [State.tick_mb, ended_pend, State.modDist_mb, hpend]
    rfl

end CamEdit

/-! PUBMAP_WRITE (R126). -/

/-- The banks of the map are woken (R35). -/
def State.mapWoken (s : State) : State := s.wakeChain s.mem.mapChain

theorem wakeChain_mapChain (s : State) : s.wakeChain s.mem.mapChain = s.mapWoken := rfl

theorem mapWoken_onlyBanks (s : State) : OnlyBanks s s.mapWoken := wakeChain_onlyBanks ..

theorem mapWoken_map (s : State) : s.mapWoken.mem.mapCount = s.mem.mapCount ∧ s.mapWoken.mem.head = s.mem.head := by
  obtain ⟨c, hm⟩ := (wakeChain_onlyControls s.mem.mapChain s).mem
  rw [State.mapWoken, hm]
  exact ⟨rfl, rfl⟩

theorem grab_mapCount {b : Nat} (h : s.grab = (t, some b)) : t.mem.mapCount = s.mem.mapCount := by
  have hhead : s.mem.head ≠ nullBobbin := fun hn => by
    rw [grab_none hn] at h
    cases h
  obtain ⟨c, hm⟩ := (wakeChain_onlyControls [s.mem.head] s).mem
  rw [grab_some hhead] at h
  cases h
  rw [State.modMem_mem, Mem.taken, hm]

theorem dropEntry_onlyBanks (s : State) (j : Nat) : OnlyBanks s (s.dropEntry j) := by
  unfold State.dropEntry
  extract_lets last moved
  have hmoved : OnlyBanks s moved := (OnlyBanks.refl s).modMem _
  split
  · split
    · exact (hmoved.trans (freeChain_onlyBanks _ _)).modMem _
    · exact hmoved
  · exact hmoved

section Pubmap

variable {endpoint index : Word} {j b a : Nat}

theorem runPubmap_poisoned (hbad : mapBad s.mapWoken.mem (endpoint.truncate 24) = some a) :
    runPubmap endpoint index s = (s.mapWoken, stPoisoned, leBytes 4 a) := by
  simp only [runPubmap, wakeChain_mapChain, hbad]

theorem runPubmap_replaces (hbad : mapBad s.mapWoken.mem (endpoint.truncate 24) = none)
    (hj : s.mapWoken.mem.mapIndex (endpoint.truncate 24) = some j) (hi : index.getLsbD 31 = false) : runPubmap endpoint index s =
      (s.mapWoken.modMem fun m => m.putEntry j (endpoint.truncate 24) (index.truncate 18), stOk, []) := by
  simp only [runPubmap, wakeChain_mapChain, hbad, hj, hi, Bool.false_eq_true, if_false]

theorem runPubmap_deletes (hbad : mapBad s.mapWoken.mem (endpoint.truncate 24) = none)
    (hj : s.mapWoken.mem.mapIndex (endpoint.truncate 24) = some j) (hi : index.getLsbD 31 = true) :
    runPubmap endpoint index s = (s.mapWoken.dropEntry j, stOk, []) := by
  simp only [runPubmap, wakeChain_mapChain, hbad, hj, hi, if_true]

theorem runPubmap_deletesNone (hbad : mapBad s.mapWoken.mem (endpoint.truncate 24) = none)
    (hj : s.mapWoken.mem.mapIndex (endpoint.truncate 24) = none) (hi : index.getLsbD 31 = true) :
    runPubmap endpoint index s = (s.mapWoken, stOk, []) := by
  simp only [runPubmap, wakeChain_mapChain, hbad, hj, hi, if_true]

theorem runPubmap_adds (hbad : mapBad s.mapWoken.mem (endpoint.truncate 24) = none)
    (hj : s.mapWoken.mem.mapIndex (endpoint.truncate 24) = none) (hi : index.getLsbD 31 = false) (hroom : s.mem.mapCount % 32 ≠ 0) :
    runPubmap endpoint index s = (s.mapWoken.modMem fun m =>
      { m with mapCount := m.mapCount + 1 }.putEntry s.mem.mapCount (endpoint.truncate 24) (index.truncate 18), stOk, []) := by
  rw [← (mapWoken_map s).1] at hroom ⊢
  simp only [runPubmap, wakeChain_mapChain, hbad, hj, hi, hroom, Bool.false_eq_true, if_false, ne_eq, not_false_eq_true, if_true]
  exact congrArg (·, stOk, []) (modMem_congr rfl)

theorem runPubmap_grows (hbad : mapBad s.mapWoken.mem (endpoint.truncate 24) = none)
    (hj : s.mapWoken.mem.mapIndex (endpoint.truncate 24) = none) (hi : index.getLsbD 31 = false) (hfull : s.mem.mapCount % 32 = 0)
    (hg : s.mapWoken.grab = (t, some b)) : runPubmap endpoint index s = (t.modMem fun q =>
      { q with mapCount := q.mapCount + 1, mapChain := q.mapChain ++ [b] }.putEntry s.mem.mapCount (endpoint.truncate 24) (index.truncate 18),
        stOk, []) := by
  have hcount : s.mapWoken.mem.mapCount = s.mem.mapCount := (mapWoken_map s).1
  have hgrown : t.mem.mapCount = s.mem.mapCount := (grab_mapCount hg).trans hcount
  rw [← hcount] at hfull
  rw [← hgrown]
  simp only [runPubmap, wakeChain_mapChain, hbad, hj, hi, hfull, hg, Bool.false_eq_true, if_false, ne_eq, not_true_eq_false]
  exact congrArg (·, stOk, []) (modMem_congr rfl)

theorem runPubmap_noBobbin (hbad : mapBad s.mapWoken.mem (endpoint.truncate 24) = none)
    (hj : s.mapWoken.mem.mapIndex (endpoint.truncate 24) = none) (hi : index.getLsbD 31 = false) (hfull : s.mem.mapCount % 32 = 0)
    (hhead : s.mem.head = nullBobbin) : runPubmap endpoint index s = (s.mapWoken, stNoBobbin, []) := by
  have hg : s.mapWoken.grab = (s.mapWoken, none) := grab_none ((mapWoken_map s).2.trans hhead)
  rw [← (mapWoken_map s).1] at hfull
  simp only [runPubmap, wakeChain_mapChain, hbad, hj, hi, hfull, hg, Bool.false_eq_true, if_false, ne_eq, not_true_eq_false]
  rfl

/-- A served PUBMAP_WRITE ends as its body says: the banks are all that it changes. -/
theorem pubmapWrite_ends (h : Served (.pubmapWrite o endpoint index) o s) {st : Half} {res : List Byte}
    (hbody : runPubmap endpoint index (s.holdTag o.mb o.tag) = (t, st, res)) (hb : OnlyBanks (s.holdTag o.mb o.tag).mapWoken t) :
    exec (.pubmapWrite o endpoint index) s = .next (t.ended (.pubmapWrite o endpoint index) o st res) :=
  runShort_ends_onlyBanks h hbody ((mapWoken_onlyBanks _).trans hb)

end Pubmap

end Sys2Proof.Machine

open Sys2Proof Sys2Proof.Machine

/-- Settles O19: PATH_QUEUE and PUBMAP_WRITE are their bodies on the state that holds their tag; CAM_EDIT writes the points of
its turn and leaves the rest in hand. -/
theorem tablesPathsAndMapsAreEdited : Obligations.TablesPathsAndMapsAreEdited := by
  refine ⟨fun o group desc bs rs s h hd => ?queues, fun _ _ _ _ _ _ _ => camEdit_writes, fun _ _ _ _ _ _ => camEdit_refuses,
    fun o endpoint index s h hi => ?writes, fun o endpoint index s h => ⟨fun a hbad => ?poisoned, fun hbad hi => ?deletes⟩⟩
  case queues =>
    intro view g hm hrs harc
    have hwell : WellFormedRecs group bs rs (s.holdTag o.mb o.tag) := ⟨hm, hrs, harc⟩
    exact ⟨fun hfit => ⟨pathQueue_takes h hd hwell hfit, pathQueue_takes h hd hwell hfit, fun _ => rfl⟩, pathQueue_refuses h hd hwell⟩
  case writes =>
    intro u hbad
    refine ⟨fun j hj => ?replaces, fun hj hroom => ?adds, fun t b hj hfull hg => ?grows, fun hj hfull hhead => ?none⟩
    case replaces => exact pubmapWrite_ends h (runPubmap_replaces hbad hj hi) ((OnlyBanks.refl _).modMem _)
    case adds => exact pubmapWrite_ends h (runPubmap_adds hbad hj hi hroom) ((OnlyBanks.refl _).modMem _)
    case grows =>
      obtain ⟨hbanks, -, -⟩ := grab_given hg
      exact pubmapWrite_ends h (runPubmap_grows hbad hj hi hfull hg) (hbanks.modMem _)
    case none => exact pubmapWrite_ends h (runPubmap_noBobbin hbad hj hi hfull hhead) (.refl _)
  case poisoned => exact pubmapWrite_ends h (runPubmap_poisoned hbad) (.refl _)
  case deletes =>
    exact ⟨fun j hj => pubmapWrite_ends h (runPubmap_deletes hbad hj hi) (dropEntry_onlyBanks _ j),
      fun hj => pubmapWrite_ends h (runPubmap_deletesNone hbad hj hi) (.refl _)⟩
end

section
/-! The family of the power stage: one quad after an update of one, and what its configuration commands do when their sets act
(R72, R130 to R143). -/

namespace Sys2Proof.Machine

variable {s t u : State} {q : QuadId} {o : Origin} {st : Half}

/-! One quad of the vector after an update of one. -/

theorem modQuad_self (q : QuadId) (f : Quad → Quad) : (s.modQuad q f).quads[q] = f s.quads[q] := Vector.getElem_set_self ..

theorem modQuad_other {k : QuadId} (h : k ≠ q) (f : Quad → Quad) : (s.modQuad q f).quads[k] = s.quads[k] :=
  Vector.getElem_set_ne q.isLt k.isLt fun e => h (Fin.ext e.symm)

theorem modQuad_congr {f g : Quad → Quad} (h : f s.quads[q] = g s.quads[q]) : s.modQuad q f = s.modQuad q g :=
  congrArg (s.setQuad q) h

theorem modQuad_fixed {f : Quad → Quad} (h : f s.quads[q] = s.quads[q]) : s.modQuad q f = s := by
  rw [State.modQuad, h, State.setQuad, Fin.getElem_fin, Vector.set_getElem_self]

theorem modQuad_modQuad (q : QuadId) (f g : Quad → Quad) : (s.modQuad q f).modQuad q g = s.modQuad q fun x => g (f x) := by
  simp only [State.modQuad, State.setQuad, Fin.getElem_fin, Vector.getElem_set_self, Vector.set_set]

/-- Of the quads, `t` differs from `s` in `q` alone. -/
def OnlyQuad (q : QuadId) (s t : State) : Prop := ∀ k : QuadId, k ≠ q → t.quads[k] = s.quads[k]

theorem OnlyQuad.of_quads (h : t.quads = s.quads) : OnlyQuad q s t := fun k _ => by rw [h]

theorem OnlyQuad.trans (h : OnlyQuad q s t) (h' : OnlyQuad q t u) : OnlyQuad q s u := fun k hk => (h' k hk).trans (h k hk)

theorem modQuad_onlyQuad (s : State) (q : QuadId) (f : Quad → Quad) : OnlyQuad q s (s.modQuad q f) := fun _ hk => modQuad_other hk f

theorem OnlyBanks.quads (h : OnlyBanks s t) : t.quads = s.quads := by
  obtain ⟨p, m, rfl⟩ := h
  rfl

theorem OnlyBanks.fbs (h : OnlyBanks s t) : t.fbs = s.fbs := by
  obtain ⟨p, m, rfl⟩ := h
  rfl

/-! QUAD_CONFIG and SDF_CONFIG (R134, R141). -/

/-- A carrier that ran keeps its settings until its next valley; one that stood takes the new ones at once (R134). -/
theorem applyQuadConfig_quad (q : QuadId) (mix carrier : Byte) (period : Word) (double : Byte) (phase : Word) (s : State) :
    let x := (applyQuadConfig q mix carrier period double phase s).quads[q]
    x.cfg.mix = mix.truncate 2 ∧ x.cfg.run = true ∧ x.sh.period = period.truncate 24 ∧
      (s.quads[q].cfg.run = false → x.cfg.period = period.truncate 24) ∧
      (s.quads[q].cfg.run = true → x.cfg.period = s.quads[q].cfg.period) := by
  have hwoken : (s.wakeFn (quadFn q)).quads = s.quads := (wakeFn_onlyBanks _ s).quads
  simp only [applyQuadConfig, modQuad_self, hwoken]
  cases hrun : s.quads[q].cfg.run with
  | true => exact ⟨rfl, rfl, rfl, Bool.noConfusion, fun _ => rfl⟩
  | false => exact ⟨rfl, rfl, rfl, fun _ => rfl, Bool.noConfusion⟩

theorem applyQuadConfig_onlyQuad (q : QuadId) (mix carrier : Byte) (period : Word) (double : Byte) (phase : Word) (s : State) :
    OnlyQuad q s (applyQuadConfig q mix carrier period double phase s) :=
  .trans (.of_quads (wakeFn_onlyBanks _ s).quads) (modQuad_onlyQuad _ _ _)

theorem quadConfig_acts {b mix carrier : Byte} {period : Word} {double : Byte} {phase : Word}
    (hc : checkSet (.quadConfig o b mix carrier period double phase) s = stOk) :
    ∃ t : State, SetActs (.quadConfig o b mix carrier period double phase) o s t ∧ t.quads[quadIx b].cfg.mix = mix.truncate 2 ∧
      t.quads[quadIx b].cfg.run = true ∧ t.quads[quadIx b].sh.period = period.truncate 24 ∧
      (s.quads[quadIx b].cfg.run = false → t.quads[quadIx b].cfg.period = period.truncate 24) ∧
      (s.quads[quadIx b].cfg.run = true → t.quads[quadIx b].cfg.period = s.quads[quadIx b].cfg.period) ∧ OnlyQuad (quadIx b) s t := by
  obtain ⟨hmix, hrun, hsh, hstood, hran⟩ := applyQuadConfig_quad (quadIx b) mix carrier period double phase s
  exact ⟨_, setActs_applySet rfl hc rfl, hmix, hrun, hsh, hstood, hran, applyQuadConfig_onlyQuad _ _ _ _ _ _ _⟩

theorem sdfConfig_acts {b : Byte} {f : Word} {o3 : Half} {o2 : Byte} (hc : checkSet (.sdfConfig o b f o3 o2) s = stOk) :
    ∃ t : State, SetActs (.sdfConfig o b f o3 o2) o s t ∧ t.quads[quadIx b].cfg = withFilter s.quads[quadIx b].cfg f o3 o2 ∧
      t.quads[quadIx b].cfg.clkEn = true ∧ OnlyQuad (quadIx b) s t := by
  refine ⟨_, setActs_applySet rfl hc rfl, ?_⟩
  simp only [applySet, applySdf, modQuad_self]
  exact ⟨trivial, rfl, modQuad_onlyQuad _ _ _⟩

/-! Causes that wait on strands (R90). -/

theorem raiseCause_acts {i : StrandId} (h : s.strands[i].st ≠ .off) (c : Nat) :
    s.raiseCause i c = s.modStrand i fun x => { x with raised := setBit x.raised c true } := if_neg h

/-- A cause that is raised changes the strands alone. -/
theorem raiseCause_frame (s : State) (i : StrandId) (c : Nat) : s.raiseCause i c = { s with strands := (s.raiseCause i c).strands } := by
  unfold State.raiseCause
  split <;> rfl

theorem raiseCauses_frame (s : State) (l : List StrandId) (c : Nat) :
    s.raiseCauses l c = { s with strands := (s.raiseCauses l c).strands } := by
  rw [State.raiseCauses]
  induction l generalizing s with
  | nil => rfl
  | cons i l ih => rw [List.foldl_cons, ih, raiseCause_frame]

/-! Gate-fault inputs and TRIP_CONFIG (R142, R143). -/

/-- What the latching of a gate-fault input leaves of its quad: the settings, the pins, and the events it showed. -/
structure Latched (x y : Quad) : Prop where
  cfg : y.cfg = x.cfg
  sh : y.sh = x.sh
  pins : y.gfPin = x.gfPin
  events : ∀ k : Nat, x.gfEvent.getLsbD k = true → y.gfEvent.getLsbD k = true

theorem Latched.refl (x : Quad) : Latched x x := ⟨rfl, rfl, rfl, fun _ h => h⟩

theorem Latched.trans {x y z : Quad} (h : Latched x y) (h' : Latched y z) : Latched x z :=
  ⟨h'.cfg.trans h.cfg, h'.sh.trans h.sh, h'.pins.trans h.pins, fun k hk => h'.events k (h.events k hk)⟩

theorem Latched.gateLive {x y : Quad} (h : Latched x y) (g : SlotId) : gateLive y g = gateLive x g := by
  simp only [Machine.gateLive, h.cfg, h.pins]

theorem Latched.gateActive {x y : Quad} (h : Latched x y) (g : SlotId) : gateActive y g = gateActive x g := by
  simp only [Machine.gateActive, h.cfg, h.gateLive]

/-- An event that is set leaves those that are. -/
theorem setEvent_latched (x : Quad) (g : SlotId) (trip : BitVec 12) :
    Latched x { x with gfEvent := setBit x.gfEvent g.val true, trip := trip } := by
  refine ⟨rfl, rfl, rfl, fun k hk => ?_⟩
  rw [getLsbD_setBit _ g.isLt, hk, ite_self]

theorem markGate_latched (g : SlotId) (x : Quad) : Latched x (markGate g x) := by
  unfold markGate
  split
  · exact setEvent_latched x g x.trip
  · exact .refl x

theorem markGate_live {g : SlotId} {x : Quad} (h : gateLive x g = true) :
    markGate g x = { x with gfEvent := setBit x.gfEvent g.val true } := if_pos h

theorem markGate_dead {g : SlotId} {x : Quad} (h : gateLive x g = false) : markGate g x = x := if_neg (ne_true_of_eq_false h)

/-- What it leaves of the state: every other quad, and which quads are enabled. -/
structure GateLatched (q : QuadId) (s t : State) : Prop where
  id : t.id = s.id
  quad : Latched s.quads[q] t.quads[q]
  others : OnlyQuad q s t

theorem GateLatched.refl (q : QuadId) (s : State) : GateLatched q s s := ⟨rfl, .refl _, fun _ _ => rfl⟩

theorem GateLatched.trans (h : GateLatched q s t) (h' : GateLatched q t u) : GateLatched q s u :=
  ⟨h'.id.trans h.id, h.quad.trans h'.quad, h.others.trans h'.others⟩

theorem GateLatched.enabled (h : GateLatched q s t) : quadEnabled t q = quadEnabled s q := by rw [quadEnabled, h.id, quadEnabled]

theorem modQuad_latched {f : Quad → Quad} (h : Latched s.quads[q] (f s.quads[q])) : GateLatched q s (s.modQuad q f) := by
  refine ⟨rfl, ?_, modQuad_onlyQuad _ _ _⟩
  rw [modQuad_self]
  exact h

theorem GateLatched.raiseCauses (h : GateLatched q s t) (l : List StrandId) (c : Nat) : GateLatched q s (t.raiseCauses l c) := by
  rw [raiseCauses_frame]
  exact ⟨h.id, h.quad, h.others⟩

/-- The pairs a gate-fault input guards that an axis owns, and the strands that own one (R143). -/
def ownedGuarded (s : State) (q : QuadId) (g : SlotId) : List PairId := (guardedPairs g).filter fun p => (s.ownerOf q p).isSome

def guardedStrands (s : State) (q : QuadId) (g : SlotId) : List StrandId :=
  (s.strandsOfQuad q).filter fun i => (guardedPairs g).any fun p => (ownedPairs s.strands[i].cfg.binding).contains p

theorem gateLatch_active {g : SlotId} (he : quadEnabled s q = true) (ha : gateActive s.quads[q] g = true) :
    s.gateLatch q g = (s.modQuad q fun x => { x with
      gfEvent := setBit x.gfEvent g.val true, trip := setTrips x.trip (ownedGuarded s q g) }).raiseCauses (guardedStrands s q g)
        causeGateFault := by
  simp only [State.gateLatch, he, ha, Bool.not_true, Bool.false_eq_true, if_false]
  rfl

theorem gateLatch_inactive {g : SlotId} (he : quadEnabled s q = true) (ha : gateActive s.quads[q] g = false) :
    s.gateLatch q g = s.modQuad q (markGate g) := by
  simp only [State.gateLatch, he, ha, Bool.not_true, Bool.not_false, Bool.false_eq_true, if_false, if_true]

theorem gateLatch_disabled (g : SlotId) (he : quadEnabled s q = false) : s.gateLatch q g = s := by
  simp only [State.gateLatch, he, Bool.not_false, if_true]

theorem gateLatch_latched (s : State) (q : QuadId) (g : SlotId) : GateLatched q s (s.gateLatch q g) := by
  cases he : quadEnabled s q with
  | false => rw [gateLatch_disabled g he]; exact .refl q s
  | true =>
    cases ha : gateActive s.quads[q] g with
    | false => rw [gateLatch_inactive he ha]; exact modQuad_latched (markGate_latched g _)
    | true => rw [gateLatch_active he ha]; exact (modQuad_latched (setEvent_latched _ g _)).raiseCauses _ _

/-- An active input latches its event (R143, R151). -/
theorem gateLatch_event {g : SlotId} (he : quadEnabled s q = true) (ha : gateActive s.quads[q] g = true) :
    (s.gateLatch q g).quads[q].gfEvent.getLsbD g.val = true := by
  rw [gateLatch_active he ha, raiseCauses_frame]
  simp only [modQuad_self]
  exact setBit_true_self _ g.isLt

/-- In a fold whose steps keep `I`, what the step of one entry makes of a state of `I`, and every step keeps, holds at the end. -/
theorem foldl_makes {σ α : Type} {I P : σ → Prop} {f : σ → α → σ} {a : α} (hI : ∀ s b, I s → I (f s b)) (ha : ∀ s, I s → P (f s a))
    (hP : ∀ s b, P s → P (f s b)) {l : List α} (hl : a ∈ l) {s : σ} (hs : I s) : P (l.foldl f s) := by
  obtain ⟨l₁, l₂, rfl⟩ := List.append_of_mem hl
  rw [List.foldl_append, List.foldl_cons]
  have hbefore : I (l₁.foldl f s) := List.foldlRecOn l₁ f hs fun t ht b _ => hI t b ht
  exact List.foldlRecOn l₂ f (ha _ hbefore) fun t ht b _ => hP t b ht

/-- Does a new configuration make an input active or live (R143)? -/
def newlyGated (x y : Quad) (g : SlotId) : Bool := gateActive y g && !gateActive x g || gateLive y g && !gateLive x g

theorem gateNews_eq (s t : State) (q : QuadId) : s.gateNews t q =
    (List.finRange 4).foldl (fun u g => if newlyGated s.quads[q] u.quads[q] g = true then u.gateLatch q g else u) t := rfl

theorem latchNew_latched (x : Quad) (h : GateLatched q s t) (g : SlotId) :
    GateLatched q s (if newlyGated x t.quads[q] g = true then t.gateLatch q g else t) := by
  split
  · exact h.trans (gateLatch_latched t q g)
  · exact h

theorem gateNews_latched (s t : State) (q : QuadId) : GateLatched q t (s.gateNews t q) :=
  List.foldlRecOn (motive := GateLatched q t) _ _ (.refl q t) fun _ h g _ => latchNew_latched s.quads[q] h g

/-- Settings that make no input active or live latch nothing. -/
theorem gateNews_none (h : ∀ g, newlyGated s.quads[q] t.quads[q] g = false) : s.gateNews t q = t :=
  List.foldlRecOn (motive := (· = t)) _ _ rfl fun u hu g _ => by rw [hu]; exact if_neg (ne_true_of_eq_false (h g))

theorem gateNews_event {g : SlotId} (he : quadEnabled t q = true) (hwas : gateActive s.quads[q] g = false)
    (hnow : gateActive t.quads[q] g = true) : (s.gateNews t q).quads[q].gfEvent.getLsbD g.val = true := by
  rw [gateNews_eq]
  refine foldl_makes (I := GateLatched q t) (P := fun u => u.quads[q].gfEvent.getLsbD g.val = true)
    (fun u k h => latchNew_latched s.quads[q] h k) (fun u h => ?_) (fun u k h => ?_) (List.mem_finRange g) (.refl q t)
  · have hactive : gateActive u.quads[q] g = true := (h.quad.gateActive g).trans hnow
    have hnew : newlyGated s.quads[q] u.quads[q] g = true := by rw [newlyGated, hactive, hwas]; rfl
    rw [if_pos hnew]
    exact gateLatch_event (h.enabled.trans he) hactive
  · exact (latchNew_latched s.quads[q] (.refl q u) k).quad.events _ h

theorem tripFields_limit {input : Byte} (h : input.toNat < 12) (limit : Word) (gf : Byte) (c : QuadCfg) :
    tripFields input limit gf c = { c with limit := c.limit.set (pairArg input) (limit.truncate 18) } := if_pos h

/-- The state with a TRIP_CONFIG's settings, before the inputs latch. -/
def State.setTripFields (s : State) (q : QuadId) (input : Byte) (limit : Word) (gf : Byte) : State :=
  s.modQuad q fun x => { x with cfg := tripFields input limit gf x.cfg, sh := tripFields input limit gf x.sh }

theorem applyTrip_eq (q : QuadId) (input : Byte) (limit : Word) (gf : Byte) (s : State) :
    applyTrip q input limit gf s = s.gateNews (s.setTripFields q input limit gf) q := rfl

/-- A limit makes no gate-fault input active. -/
theorem applyTrip_limit {input : Byte} (h : input.toNat < 12) (q : QuadId) (limit : Word) (gf : Byte) (s : State) :
    applyTrip q input limit gf s = s.setTripFields q input limit gf := by
  refine gateNews_none fun g => ?_
  simp only [modQuad_self, tripFields_limit h]
  simp [newlyGated, gateActive, gateLive]

theorem tripLimit_acts {b input : Byte} {limit : Word} {gf : Byte} (hc : checkSet (.tripConfig o b input limit gf) s = stOk)
    (h : input.toNat < 12) : SetActs (.tripConfig o b input limit gf) o s (s.setTripFields (quadIx b) input limit gf) := by
  rw [← applyTrip_limit h]
  exact setActs_applySet rfl hc rfl

theorem tripGate_acts {b input : Byte} {limit : Word} {gf : Byte} (hc : checkSet (.tripConfig o b input limit gf) s = stOk) (g : SlotId) :
    ∃ t : State, SetActs (.tripConfig o b input limit gf) o s t ∧
      t.quads[quadIx b].cfg = tripFields input limit gf s.quads[quadIx b].cfg ∧
      t.quads[quadIx b].sh = tripFields input limit gf s.quads[quadIx b].sh ∧
      (quadEnabled s (quadIx b) = true → gateActive s.quads[quadIx b] g = false → gateActive t.quads[quadIx b] g = true →
        t.quads[quadIx b].gfEvent.getLsbD g.val = true) ∧ OnlyQuad (quadIx b) s t := by
  obtain ⟨hset, hsetOthers⟩ : (s.setTripFields (quadIx b) input limit gf).quads[quadIx b] = _ ∧ OnlyQuad (quadIx b) s _ :=
    ⟨modQuad_self _ _, modQuad_onlyQuad _ _ _⟩
  obtain ⟨-, hquad, hothers⟩ := gateNews_latched s (s.setTripFields (quadIx b) input limit gf) (quadIx b)
  refine ⟨_, setActs_applySet rfl hc rfl, ?_⟩
  simp only [applySet, applyTrip_eq]
  refine ⟨?_, ?_, fun he hwas hnow => gateNews_event he hwas ?_, hsetOthers.trans hothers⟩
  · rw [hquad.cfg, hset]
  · rw [hquad.sh, hset]
  · rw [← hquad.gateActive]
    exact hnow

/-! STEPPER_CONFIG, MICROSTEP_TABLE and TABLE_STEP (R155, R156, R163). -/

theorem redriveTable_none {p : Fin 6} {x : Quad} (h : x.tableDrive[p] = none) (key : Nat) : redriveTable key p x = x := by
  simp only [redriveTable, h]

theorem redriveTable_cfg (key : Nat) (p : Fin 6) (x : Quad) : (redriveTable key p x).cfg = x.cfg := by
  unfold redriveTable
  split <;> rfl

theorem microstep_legal {b : Byte} {d : Desc} (hc : checkSet (.microstepTable o b d) s = stOk) :
    (microstepTable? (Desc.bytes d)).isSome = true := by
  by_contra hnone
  have hbad : checkMicrostep (quadIx b) (Desc.bytes d) s = stBadArg := if_pos (by simpa using hnone)
  exact absurd (hbad.symm.trans hc) (by decide)

theorem microstepTable_acts {b : Byte} {d : Desc} (hc : checkSet (.microstepTable o b d) s = stOk) :
    ∃ t : State, SetActs (.microstepTable o b d) o s t ∧ t.quads[quadIx b].cfg.microstep = microstepTable? (Desc.bytes d) ∧
      (microstepTable? (Desc.bytes d)).isSome = true ∧
      ((∀ p : Fin 6, s.quads[quadIx b].tableDrive[p] = none) → t.quads[quadIx b].windings = s.quads[quadIx b].windings) ∧
      OnlyQuad (quadIx b) s t := by
  refine ⟨_, setActs_applySet rfl hc rfl, ?_⟩
  simp only [applySet, applyMicrostep, modQuad_self]
  refine ⟨?_, microstep_legal hc, fun hrest => ?_, modQuad_onlyQuad _ _ _⟩
  · rw [foldl_frame Quad.cfg fun x p => redriveTable_cfg _ p x]
    rfl
  · refine (List.foldlRecOn (motive := fun x : Quad => x.windings = s.quads[quadIx b].windings ∧
      x.tableDrive = s.quads[quadIx b].tableDrive) _ _ ⟨rfl, rfl⟩ fun x hkept p _ => ?_).1
    obtain ⟨hwindings, hdrives⟩ := hkept
    rw [redriveTable_none (by rw [hdrives]; exact hrest p)]
    exact ⟨hwindings, hdrives⟩

theorem forceStrand_stepper {i : StrandId} {p : Fin 6} (hb : s.strands[i].cfg.binding = .stepper q p) (v : Nat) :
    s.forceStrand i v = s.modQuad q fun x => withForce (forceBits x.force (ownedPairs (.stepper q p)) v) x := by
  simp only [State.forceStrand, hb, bindQuad]

theorem endTable_stepper {i : StrandId} {p : Fin 6} (hb : s.strands[i].cfg.binding = .stepper q p) :
    s.endTable i = s.modQuad q fun x => { x with tableDrive := x.tableDrive.set p none } := by
  simp only [State.endTable, hb]

theorem switchOff_stepper {i : StrandId} {p : Fin 6} (hb : s.strands[i].cfg.binding = .stepper q p) :
    s.switchOff i = s.modQuad q fun x =>
      { withForce (forceBits x.force (ownedPairs (.stepper q p)) 3) x with tableDrive := x.tableDrive.set p none } := by
  have hsame : (s.forceStrand i 3).strands[i].cfg.binding = .stepper q p := by rw [forceStrand_strands, hb]
  rw [State.switchOff, endTable_stepper hsame, forceStrand_stepper hb, modQuad_modQuad]
  rfl

theorem tableStep_drives {address scale : Half} {p : Fin 6} (hc : checkSet (.tableStep o st address scale) s = stOk)
    (hb : s.strands[strandIx st].cfg.binding = .stepper q p) (hs : scale ≠ 0) :
    ∃ t : State, SetActs (.tableStep o st address scale) o s t ∧ t.quads[q].tableDrive[p] = some (address.toNat, scale.toNat) ∧
      t.strands[strandIx st].msAddr = address.toNat ∧ t.strands[strandIx st].st = s.strands[strandIx st].st := by
  refine ⟨_, setActs_applySet rfl hc rfl, ?_⟩
  simp only [applySet, applyTableStep, hb, if_neg hs, forceStrand_stepper hb, modStrand_self, State.modStrand_quads, modQuad_self]
  exact ⟨Vector.getElem_set_self .., trivial, rfl⟩

theorem tableStep_ends {address : Half} {p : Fin 6} (hc : checkSet (.tableStep o st address 0) s = stOk)
    (hb : s.strands[strandIx st].cfg.binding = .stepper q p) :
    ∃ t : State, SetActs (.tableStep o st address 0) o s t ∧ t.quads[q].tableDrive[p] = none ∧ t.strands = s.strands ∧
      t.quads[q].force = forceBits s.quads[q].force (ownedPairs (.stepper q p)) 3 := by
  refine ⟨_, setActs_applySet rfl hc rfl, ?_⟩
  simp only [applySet, applyTableStep, hb, if_true, switchOff_stepper hb, modQuad_self]
  exact ⟨Vector.getElem_set_self .., rfl, rfl⟩

/-! FB_CONFIG and COMPARE_LOAD (R168, R182). -/

theorem modFb_self (u : FbId) (f : Fb → Fb) : (s.modFb u f).fbs[u] = f s.fbs[u] := Vector.getElem_set_self ..

theorem modFb_other {u k : FbId} (h : k ≠ u) (f : Fb → Fb) : (s.modFb u f).fbs[k] = s.fbs[k] :=
  Vector.getElem_set_ne u.isLt k.isLt fun e => h (Fin.ext e.symm)

/-- A unit with its settings, cleared where its mode or its inversion changes (R168). -/
def Fb.configured (c : FbCfg) (x : Fb) : Fb :=
  if x.cfg.mode = c.mode ∧ x.cfg.invert = c.invert then { x with cfg := c, sh := c } else clearUnit x c

theorem Fb.configured_same {c : FbCfg} {x : Fb} (hm : x.cfg.mode = c.mode) (hi : x.cfg.invert = c.invert) :
    x.configured c = { x with cfg := c, sh := c } := if_pos ⟨hm, hi⟩

theorem Fb.configured_changed {c : FbCfg} {x : Fb} (h : x.cfg.mode ≠ c.mode ∨ x.cfg.invert ≠ c.invert) :
    x.configured c = clearUnit x c := if_neg fun he => h.elim (· he.1) (· he.2)

theorem Fb.configured_cfg (c : FbCfg) (x : Fb) : (x.configured c).cfg = c ∧ (x.configured c).sh = c := by
  unfold Fb.configured
  split <;> exact ⟨rfl, rfl⟩

/-- FB_CONFIG gives its unit the settings, and may take back its fault bit (R168, R175). -/
theorem applyFbConfig_fbs (u : FbId) (c : FbCfg) (s : State) :
    ∃ v, (applyFbConfig u c s).fbs = (s.modFb u fun x => { x.configured c with stat := v }).fbs := by
  have hwoken : (s.wakeFn (fbFn u)).fbs = s.fbs := (wakeFn_onlyBanks _ s).fbs
  have hset : ((s.wakeFn (fbFn u)).setFb u ((s.wakeFn (fbFn u)).fbs[u].configured c)).fbs = s.fbs.set u (s.fbs[u].configured c) := by
    simp only [State.setFb_fbs, hwoken]
  unfold applyFbConfig
  extract_lets woken x t
  have ht : t.fbs = s.fbs.set u (s.fbs[u].configured c) := hset
  split
  · refine ⟨setBit (s.fbs[u].configured c).stat 10 false, ?_⟩
    simp only [State.modFb_fbs, ht, Fin.getElem_fin, Vector.getElem_set_self, Vector.set_set]
  · exact ⟨(s.fbs[u].configured c).stat, ht⟩

theorem fbConfig_acts {b mode : Byte} {filter : Half} {n : Byte} {bw : Word} (hc : checkSet (.fbConfig o b mode filter n bw) s = stOk) :
    ∃ t : State, SetActs (.fbConfig o b mode filter n bw) o s t ∧ t.fbs[fbIx b].cfg = fbCfgOf mode filter n bw ∧
      t.fbs[fbIx b].sh = fbCfgOf mode filter n bw ∧
      (s.fbs[fbIx b].cfg.mode = (fbCfgOf mode filter n bw).mode → s.fbs[fbIx b].cfg.invert = (fbCfgOf mode filter n bw).invert →
        t.fbs[fbIx b].count = s.fbs[fbIx b].count) ∧
      (s.fbs[fbIx b].cfg.mode ≠ (fbCfgOf mode filter n bw).mode ∨ s.fbs[fbIx b].cfg.invert ≠ (fbCfgOf mode filter n bw).invert →
        t.fbs[fbIx b].count = 0 ∧ t.fbs[fbIx b].qerr = 0) ∧ ∀ k : FbId, k ≠ fbIx b → t.fbs[k] = s.fbs[k] := by
  obtain ⟨v, hfbs⟩ := applyFbConfig_fbs (fbIx b) (fbCfgOf mode filter n bw) s
  obtain ⟨hcfg, hsh⟩ := Fb.configured_cfg (fbCfgOf mode filter n bw) s.fbs[fbIx b]
  refine ⟨_, setActs_applySet rfl hc rfl, ?_⟩
  simp only [applySet, hfbs, modFb_self]
  refine ⟨hcfg, hsh, fun hm hi => ?_, fun hchange => ?_, fun k hk => modFb_other hk _⟩
  · rw [Fb.configured_same hm hi]
  · rw [Fb.configured_changed hchange]
    exact ⟨rfl, rfl⟩

theorem modCmp_self (u : CmpId) (f : Compare → Compare) : (s.modCmp u f).cmps[u] = f s.cmps[u] := Vector.getElem_set_self ..

theorem modCmp_other {u k : CmpId} (h : k ≠ u) (f : Compare → Compare) : (s.modCmp u f).cmps[k] = s.cmps[k] :=
  Vector.getElem_set_ne u.isLt k.isLt fun e => h (Fin.ext e.symm)

theorem compareLoad_acts {b : Byte} {src : Half} {w : Word} {d : Desc} {c : CompareCfg} (h : compare? src w (Desc.bytes d) = some c) :
    ∃ t : State, SetActs (.compareLoad o b src w d) o s t ∧ t.cmps[cmpIx b].cfg = some c ∧ t.cmps[cmpIx b].enable = true ∧
      t.cmps[cmpIx b].pointer = 0 ∧ t.cmps[cmpIx b].idle = false ∧ ∀ k : CmpId, k ≠ cmpIx b → t.cmps[k] = s.cmps[k] := by
  have hbytes : setBytes (.compareLoad o b src w d) = Desc.bytes d := rfl
  have hc : checkSet (.compareLoad o b src w d) s = stOk := if_pos (by rw [hbytes, h]; rfl)
  refine ⟨_, setActs_applySet rfl hc rfl, ?_⟩
  simp only [applySet, hbytes, applyCompare, h, modCmp_self]
  exact ⟨rfl, rfl, rfl, rfl, fun k hk => modCmp_other hk _⟩

/-! ENLARGER_SET (R160). -/

theorem enlargerSet_acts {fb : Byte} {num den : Word} (hc : checkSet (.enlargerSet o st fb num den) s = stOk) :
    ∃ t : State, SetActs (.enlargerSet o st fb num den) o s t ∧ t.strands[strandIx st].cfg.enlarger =
        (if num = 0 then none else some ⟨Fin.ofNat 48 fb.toNat, num.toNat, den.toNat⟩) ∧ OnlyStrand (strandIx st) s t := by
  refine ⟨_, setActs_applySet rfl hc rfl, ?_, modStrand_onlyStrand _ _ _⟩
  simp only [applySet, applyEnlarger, modStrand_self]

end Sys2Proof.Machine

open Sys2Proof Sys2Proof.Machine

/-- Settles O30: each setting is the equation of what its set applies. Log entries 32 and 33 have STEPGEN_CONFIG round its times
to 5 ns and enable its generator. -/
theorem driveAndFeedbackSettingsTakeEffect : Obligations.DriveAndFeedbackSettingsTakeEffect :=
  ⟨fun _ _ _ _ _ _ _ _ => quadConfig_acts, fun _ _ _ _ _ h => setActs_applySet rfl h rfl, fun _ _ _ _ _ _ => sdfConfig_acts,
    fun _ _ _ _ _ _ h => ⟨tripLimit_acts h, fun g _ => tripGate_acts h g⟩, fun _ _ _ _ _ _ h => setActs_applySet rfl h rfl,
    fun _ _ _ _ => microstepTable_acts, fun _ _ _ _ _ h => setActs_applySet rfl h rfl, fun _ _ _ _ h => setActs_applySet rfl h rfl,
    fun _ _ _ _ _ _ => enlargerSet_acts, fun _ _ _ _ _ h => setActs_applySet rfl h rfl, fun _ _ _ _ _ _ _ => tableStep_drives,
    fun _ _ _ _ _ _ => tableStep_ends, fun _ _ _ _ _ _ _ => fbConfig_acts, fun _ _ _ _ _ _ _ => setActs_applySet rfl rfl rfl,
    fun _ _ _ _ _ _ _ => compareLoad_acts⟩
end

section
/-! The family of the power stage: carriers, force and trip registers, trips and gate faults (R134 to R144). -/

namespace Sys2Proof.Machine

variable {s : State} {q : QuadId}

/-! PWM boundaries (R134, R138, log entry 159). -/

/-- A carrier that stands, that is frozen, or that waits for its valley takes nothing at such a boundary. -/
theorem pwmBoundary_rests {peak : Bool} {x : Quad} (h : x.cfg.run = false ∨ x.frozen = true ∨ peak = true ∧ x.waitValley = true) :
    pwmBoundary peak x = x := by
  refine if_pos ?_
  rcases h with h | h | ⟨rfl, h⟩ <;> simp [h]

theorem pwmBoundary_valley {x : Quad} (hr : x.cfg.run = true) (hf : x.frozen = false) :
    (pwmBoundary false x).duty = x.dutySh ∧ (pwmBoundary false x).cnt = 0 ∧ (pwmBoundary false x).cfg.period = x.sh.period ∧
      (pwmBoundary false x).cfg.dead = x.sh.dead := by
  simp [pwmBoundary, withCarrier, hr, hf]

theorem pwmBoundary_peak {x : Quad} (hr : x.cfg.run = true) (hf : x.frozen = false) (hd : x.cfg.dbl = true) (hs : x.cfg.saw = false)
    (hw : x.waitValley = false) :
    pwmBoundary true x = { x with duty := x.dutySh, was := levelsAt true x, cnt := x.cfg.period >>> 1, down := true } := by
  simp [pwmBoundary, hr, hf, hd, hs, hw]

theorem execPwmBoundary_up (hup : coreUp s = true) (he : quadEnabled s q = true) (peak : Bool) :
    exec (.pwmBoundary q peak) s = .next (if (s.quads[q].cfg.run && !s.quads[q].frozen && !peak) = true
      then (s.modQuad q (pwmBoundary peak)).modFio (convBoundary q) else s.modQuad q (pwmBoundary peak)) :=
  congrArg Host.Outcome.next (if_neg (by rw [hup, he]; decide))

theorem pwmBoundary_unchanged {peak : Bool} (h : (s.quads[q].cfg.run && !s.quads[q].frozen && !peak) = false)
    (hq : pwmBoundary peak s.quads[q] = s.quads[q]) : exec (.pwmBoundary q peak) s = .next s := by
  by_cases hup : coreUp s = true ∧ quadEnabled s q = true
  · rw [execPwmBoundary_up hup.1 hup.2, if_neg (ne_true_of_eq_false h), modQuad_fixed hq]
  · exact congrArg Host.Outcome.next (if_pos (by rcases not_and_or.mp hup with h | h <;> simp [h]))

theorem pwmBoundary_valley_acts (hup : coreUp s = true) (he : quadEnabled s q = true) (hr : s.quads[q].cfg.run = true)
    (hf : s.quads[q].frozen = false) :
    ∃ t : State, exec (.pwmBoundary q false) s = .next t ∧ t.quads[q].duty = s.quads[q].dutySh ∧ t.quads[q].cnt = 0 ∧
      t.quads[q].cfg.period = s.quads[q].sh.period ∧ t.quads[q].cfg.dead = s.quads[q].sh.dead ∧ t.strands = s.strands ∧
      OnlyQuad q s t := by
  obtain ⟨hduty, hcnt, hperiod, hdead⟩ := pwmBoundary_valley hr hf
  refine ⟨(s.modQuad q (pwmBoundary false)).modFio (convBoundary q), ?_, ?_⟩
  · rw [execPwmBoundary_up hup he, if_pos (by rw [hr, hf]; rfl)]
  · simp only [State.modFio_quads, modQuad_self]
    exact ⟨hduty, hcnt, hperiod, hdead, rfl, modQuad_onlyQuad _ _ _⟩

theorem pwmBoundary_peak_acts (hup : coreUp s = true) (he : quadEnabled s q = true) (hr : s.quads[q].cfg.run = true)
    (hf : s.quads[q].frozen = false) (hd : s.quads[q].cfg.dbl = true) (hs : s.quads[q].cfg.saw = false)
    (hw : s.quads[q].waitValley = false) : exec (.pwmBoundary q true) s =
      .next (s.modQuad q fun x => { x with duty := x.dutySh, was := levelsAt true x, cnt := x.cfg.period >>> 1, down := true }) := by
  exact (execPwmBoundary_up hup he true).trans (congrArg _ ((if_neg (by simp)).trans (modQuad_congr (pwmBoundary_peak hr hf hd hs hw))))

/-! Force writes (R136, R151). -/

/-- A force value takes the two bits of its pair. -/
theorem getLsbD_forceBits (f : BitVec 24) (p : PairId) (v : Nat) {k : Nat} (hk : k < 24) :
    (forceBits f [p] v).getLsbD k = if k / 2 = p.val then v.testBit (k % 2) else f.getLsbD k := by
  have hmask : ∀ j, Nat.testBit 3 j = decide (j < 2) := Nat.testBit_two_pow_sub_one 2
  simp only [forceBits, List.foldl_cons, List.foldl_nil, BitVec.getLsbD_or, BitVec.getLsbD_and, BitVec.getLsbD_not,
    BitVec.getLsbD_shiftLeft, hmask, hk, BitVec.getLsbD_ofNat, show v % 4 = v % 2 ^ 2 from rfl, Nat.testBit_mod_two_pow]
  by_cases hp : k / 2 = p.val
  · have hoff : k - 2 * p.val = k % 2 := by omega
    simp [hp, hoff, show ¬k < 2 * p.val by omega, show k % 2 < 24 by omega, show k % 2 < 2 by omega]
  · by_cases hbelow : k < 2 * p.val
    · simp [hp, hbelow]
    · simp [hp, hbelow, show ¬k - 2 * p.val < 2 by omega]

theorem writeForcePair_above {v : Word} (h : 12 ≤ v.toNat % 16) (x : Quad) : writeForcePair v x = x := by
  have hnone : fin? 12 (bits v.toNat 3 0) = none := by simp [fin?, bits, h]
  rw [writeForcePair, hnone]

theorem writeForcePair_force {v : Word} (h : v.toNat % 16 < 12) (x : Quad) {k : Nat} (hk : k < 24) :
    (writeForcePair v x).force.getLsbD k = if k / 2 = v.toNat % 16 then v.getLsbD (4 + k % 2) else x.force.getLsbD k := by
  have hpair : fin? 12 (bits v.toNat 3 0) = some ⟨v.toNat % 16, h⟩ := by simp [fin?, bits, h]
  have hbit : (bits v.toNat 5 4).testBit (k % 2) = v.getLsbD (4 + k % 2) := by
    simp only [bits, Nat.testBit_mod_two_pow, Nat.testBit_div_two_pow, BitVec.getLsbD]
    simp [show k % 2 < 2 by omega, Nat.add_comm]
  simp only [writeForcePair, hpair]
  rw [← hbit]
  exact getLsbD_forceBits _ ⟨_, h⟩ _ hk

theorem forcePairWrite_acts (v : Word) (hup : coreUp s = true) : ∃ t : State, exec (.pwmForcePairWrite q v) s = .next t ∧
    (12 ≤ v.toNat % 16 → t = s) ∧
    (v.toNat % 16 < 12 → ∀ k : Nat, k < 24 → t.quads[q].force.getLsbD k =
      if k / 2 = v.toNat % 16 then v.getLsbD (4 + k % 2) else s.quads[q].force.getLsbD k) := by
  refine ⟨s.modQuad q (writeForcePair v), congrArg Host.Outcome.next (if_pos hup),
    fun h => modQuad_fixed (writeForcePair_above h _), fun h k hk => ?_⟩
  rw [modQuad_self]
  exact writeForcePair_force h _ hk

theorem forceWrite_acts (v : Word) (hup : coreUp s = true) :
    ∃ t : State, exec (.pwmForceWrite q v) s = .next t ∧ t = { s with quads := t.quads } ∧ t.quads[q].force = v.truncate 24 ∧
      t.quads[q] = { s.quads[q] with force := t.quads[q].force, wait := t.quads[q].wait } ∧ OnlyQuad q s t := by
  refine ⟨s.modQuad q (writeForce v), congrArg Host.Outcome.next (if_pos hup), rfl, ?_⟩
  simp only [modQuad_self]
  exact ⟨rfl, rfl, modQuad_onlyQuad _ _ _⟩

/-! Trip latches (R142 to R144). -/

theorem getLsbD_setTrips (t : BitVec 12) (ps : List PairId) (p : PairId) :
    (setTrips t ps).getLsbD p.val = (t.getLsbD p.val || decide (p ∈ ps)) := by
  rw [setTrips]
  induction ps generalizing t with
  | nil => simp
  | cons a ps ih =>
    rw [List.foldl_cons, ih, getLsbD_setBit t a.isLt]
    by_cases h : p = a
    · simp [h]
    · simp [h, Fin.val_ne_of_ne h]

/-- The latches of the pairs in a list that may clear, cleared. -/
theorem getLsbD_clearLatches (c : PairId → Bool) (ps : List PairId) (t : BitVec 12) (p : PairId) :
    (ps.foldl (fun t p => if c p = true then setBit t p.val false else t) t).getLsbD p.val =
      (t.getLsbD p.val && !(decide (p ∈ ps) && c p)) := by
  induction ps generalizing t with
  | nil => simp
  | cons a ps ih =>
    rw [List.foldl_cons, ih]
    have hstep : (if c a = true then setBit t a.val false else t).getLsbD p.val = (t.getLsbD p.val && !(decide (p = a) && c a)) := by
      cases c a with
      | false => simp
      | true =>
        rw [if_pos rfl, getLsbD_setBit t a.isLt]
        by_cases h : p = a
        · simp [h]
        · simp [h, Fin.val_ne_of_ne h]
    rw [hstep]
    by_cases h : p = a
    · subst h
      cases c p <;> simp
    · simp [h]

theorem tripClear_acts (v : Word) (hup : coreUp s = true) : ∃ t : State, exec (.pwmTripClear q v) s = .next t ∧
    ∀ p : PairId, t.quads[q].trip.getLsbD p.val =
      (s.quads[q].trip.getLsbD p.val && !(v.getLsbD p.val && !latchCause s q p)) := by
  refine ⟨s.writeTrip q v, congrArg Host.Outcome.next (if_pos hup), fun p => ?_⟩
  simp only [State.writeTrip, modQuad_self]
  rw [getLsbD_clearLatches fun p => v.getLsbD p.val && !latchCause s q p, decide_eq_true (List.mem_finRange p), Bool.true_and]

/-! Overcurrent and stuck inputs (R142, log entry 147). -/

section Input

variable {p : PairId} {i : StrandId}

theorem tripInput_unowned (h : s.ownerOf q p = none) : s.tripInput q p = s := by simp only [State.tripInput, h]

/-- An input of an owned axis latches every pair of the axis, and OVERCURRENT waits on its strand. -/
theorem tripInput_owned (h : s.ownerOf q p = some i) (hst : s.strands[i].st ≠ .off) : s.tripInput q p =
    (s.modQuad q fun x => { x with
      trip := setTrips x.trip (ownedPairs s.strands[i].cfg.binding), tripped := setBit x.tripped p.val true }).modStrand i
      fun x => { x with raised := setBit x.raised causeOvercurrent true } := by
  simp only [State.tripInput, h]
  exact raiseCause_acts (s := s.modQuad q _) hst _

/-- The owner of a pair is a matter of the strands. -/
theorem modQuad_tripInput_owned (f : Quad → Quad) (h : s.ownerOf q p = some i) (hst : s.strands[i].st ≠ .off) :
    (s.modQuad q f).tripInput q p = (s.modQuad q fun x => { f x with
      trip := setTrips (f x).trip (ownedPairs s.strands[i].cfg.binding), tripped := setBit (f x).tripped p.val true }).modStrand i
      fun x => { x with raised := setBit x.raised causeOvercurrent true } := by
  rw [tripInput_owned (s := s.modQuad q f) h hst, modQuad_modQuad]
  rfl

theorem fastValue_acts (v : Sample) (he : quadEnabled s q = true) (hclk : s.quads[q].cfg.clkEn = true) : s.fastValue q p v =
    if s.quads[q].cfg.limit[p] ≠ 0 ∧ (s.quads[q].cfg.limit[p].toNat : Int) < |v.toInt|
    then (s.modQuad q fun x => { x with fast := x.fast.set p v }).tripInput q p
    else s.modQuad q fun x => { x with fast := x.fast.set p v } := by
  have hover : overLimit (s.modQuad q fun x => { x with fast := x.fast.set p v }).quads[q] p =
      decide (s.quads[q].cfg.limit[p] ≠ 0 ∧ (s.quads[q].cfg.limit[p].toNat : Int) < |v.toInt|) := by
    have hnew : (s.quads[q].fast.set p v)[p] = v := Vector.getElem_set_self ..
    simp only [modQuad_self, overLimit, hnew, Bool.decide_and, decide_not, bne, beq_eq_decide]
  simp only [State.fastValue, he, hclk, hover, decide_eq_true_eq, Bool.not_true, Bool.or_self, Bool.false_eq_true, if_false]

theorem overcurrentTrip_trips {data : List Bool} (hup : coreUp s = true) (he : quadEnabled s q = true)
    (hclk : s.quads[q].cfg.clkEn = true) (ho : s.ownerOf q p = some i) (hst : s.strands[i].st ≠ .off)
    (hl : s.quads[q].cfg.limit[p] ≠ 0) (hover : (s.quads[q].cfg.limit[p].toNat : Int) < |(fastOf s.quads[q].cfg data).toInt|) :
    exec (.overcurrentTrip q p data) s = .next ((s.modQuad q fun x => { x with
      fast := x.fast.set p (fastOf s.quads[q].cfg data), trip := setTrips x.trip (ownedPairs s.strands[i].cfg.binding)
      tripped := setBit x.tripped p.val true }).modStrand i fun x => { x with raised := setBit x.raised causeOvercurrent true }) := by
  refine congrArg Host.Outcome.next ((if_pos hup).trans ?_)
  rw [fastValue_acts _ he hclk, if_pos ⟨hl, hover⟩, modQuad_tripInput_owned _ ho hst]

theorem overcurrentTrip_holds {data : List Bool} (hup : coreUp s = true) (he : quadEnabled s q = true)
    (hclk : s.quads[q].cfg.clkEn = true) (h : s.quads[q].cfg.limit[p] = 0 ∨
      |(fastOf s.quads[q].cfg data).toInt| ≤ (s.quads[q].cfg.limit[p].toNat : Int) ∨ s.ownerOf q p = none) :
    exec (.overcurrentTrip q p data) s = .next (s.modQuad q fun x => { x with fast := x.fast.set p (fastOf s.quads[q].cfg data) }) := by
  refine congrArg Host.Outcome.next ((if_pos hup).trans ?_)
  rw [fastValue_acts _ he hclk]
  rcases h with h | h | h
  · exact if_neg fun hover => hover.1 h
  · exact if_neg fun hover => absurd hover.2 (not_lt.mpr h)
  · rw [tripInput_unowned (s := s.modQuad q _) h, ite_self]

theorem sddStuck_trips (hup : coreUp s = true) (he : quadEnabled s q = true) (hclk : s.quads[q].cfg.clkEn = true)
    (ho : s.ownerOf q p = some i) (hst : s.strands[i].st ≠ .off) :
    exec (.sddStuck q p true) s = .next ((s.modQuad q fun x => { x with
      stuck := setBit x.stuck p.val true, trip := setTrips x.trip (ownedPairs s.strands[i].cfg.binding)
      tripped := setBit x.tripped p.val true }).modStrand i fun x => { x with raised := setBit x.raised causeOvercurrent true }) := by
  refine congrArg Host.Outcome.next ((if_pos hup).trans ?_)
  simp only [State.stuckInput, he, hclk, Bool.not_true, Bool.or_self, Bool.false_eq_true, if_false, if_true]
  exact modQuad_tripInput_owned _ ho hst

end Input

/-! Gate-fault inputs (R143). -/

section Gate

variable {g : SlotId} {level : Bool}

/-- The level of a gate-fault pin, taken up. -/
def Quad.setPin (g : SlotId) (level : Bool) (x : Quad) : Quad := { x with gfPin := setBit x.gfPin g.val level }

theorem gateLive_setPin (g : SlotId) (level : Bool) (x : Quad) : gateLive (x.setPin g level) g = (level == x.cfg.gfLevel.getLsbD g.val) := by
  simp only [gateLive, Quad.setPin, getLsbD_setBit _ g.isLt, if_true]

theorem gateActive_setPin (g : SlotId) (level : Bool) (x : Quad) :
    gateActive (x.setPin g level) g = (x.cfg.gfEnable.getLsbD g.val && (level == x.cfg.gfLevel.getLsbD g.val)) := by
  rw [gateActive, gateLive_setPin]
  rfl

theorem gateFaultInput_latches (hup : coreUp s = true) (he : quadEnabled s q = true) :
    exec (.gateFaultInput q g level) s = .next ((s.modQuad q (Quad.setPin g level)).gateLatch q g) :=
  congrArg Host.Outcome.next ((if_pos hup).trans (if_neg (by rw [he]; decide)))

/-- An input that is not active and enabled shows at most its event (R151). -/
theorem gateFaultInput_inactive (hup : coreUp s = true) (he : quadEnabled s q = true)
    (ha : (s.quads[q].cfg.gfEnable.getLsbD g.val && (level == s.quads[q].cfg.gfLevel.getLsbD g.val)) = false) :
    exec (.gateFaultInput q g level) s = .next (s.modQuad q fun x => markGate g (x.setPin g level)) := by
  have hinactive : gateActive (s.modQuad q (Quad.setPin g level)).quads[q] g = false := by rw [modQuad_self, gateActive_setPin, ha]
  rw [gateFaultInput_latches hup he, gateLatch_inactive (s := s.modQuad q _) he hinactive, modQuad_modQuad]

theorem gateFaultInput_dead (hup : coreUp s = true) (he : quadEnabled s q = true) (h : level ≠ s.quads[q].cfg.gfLevel.getLsbD g.val) :
    exec (.gateFaultInput q g level) s = .next (s.modQuad q fun x => { x with gfPin := setBit x.gfPin g.val level }) := by
  have hlevel : (level == s.quads[q].cfg.gfLevel.getLsbD g.val) = false := beq_false_of_ne h
  rw [gateFaultInput_inactive hup he (by rw [hlevel, Bool.and_false])]
  exact congrArg _ (modQuad_congr (markGate_dead (by rw [gateLive_setPin, hlevel])))

theorem gateFaultInput_marks (hup : coreUp s = true) (he : quadEnabled s q = true)
    (hen : s.quads[q].cfg.gfEnable.getLsbD g.val = false) (h : level = s.quads[q].cfg.gfLevel.getLsbD g.val) :
    exec (.gateFaultInput q g level) s = .next (s.modQuad q fun x => { x with
      gfPin := setBit x.gfPin g.val level, gfEvent := setBit x.gfEvent g.val true }) := by
  rw [gateFaultInput_inactive hup he (by rw [hen, Bool.false_and])]
  exact congrArg _ (modQuad_congr (markGate_live (by rw [gateLive_setPin, h, beq_self_eq_true])))

/-- A cause raised on several strands waits on each of them that is not in OFF (R90). -/
theorem raiseCauses_raised {i : StrandId} {l : List StrandId} {c : Nat} (hi : i ∈ l) (hst : s.strands[i].st ≠ .off) (hc : c < 16) :
    (s.raiseCauses l c).strands[i].raised.getLsbD c = true := by
  have hstep : ∀ (t : State) (j : StrandId), (t.raiseCause j c).strands[i].st = t.strands[i].st ∧
      (t.strands[i].raised.getLsbD c = true → (t.raiseCause j c).strands[i].raised.getLsbD c = true) := by
    intro t j
    by_cases hoff : t.strands[j].st = .off
    · rw [raiseCause_off hoff]
      exact ⟨rfl, fun h => h⟩
    · rw [raiseCause_acts hoff]
      by_cases hij : i = j
      · subst hij
        rw [modStrand_self]
        exact ⟨rfl, fun _ => setBit_true_self _ hc⟩
      · rw [modStrand_other hij]
        exact ⟨rfl, fun h => h⟩
  refine foldl_makes (I := fun t : State => t.strands[i].st ≠ .off) (P := fun t : State => t.strands[i].raised.getLsbD c = true)
    (fun t j h => by rw [(hstep t j).1]; exact h) (fun t h => ?_) (fun t j => (hstep t j).2) hi hst
  rw [raiseCause_acts h, modStrand_self]
  exact setBit_true_self _ hc

theorem gateFaultInput_faults (hup : coreUp s = true) (he : quadEnabled s q = true)
    (hen : s.quads[q].cfg.gfEnable.getLsbD g.val = true) (h : level = s.quads[q].cfg.gfLevel.getLsbD g.val) :
    ∃ t : State, exec (.gateFaultInput q g level) s = .next t ∧ t.quads[q].gfEvent.getLsbD g.val = true ∧
      (∀ p : PairId, t.quads[q].trip.getLsbD p.val =
        (s.quads[q].trip.getLsbD p.val || (decide (p ∈ guardedPairs g) && (s.ownerOf q p).isSome))) ∧
      ∀ i ∈ s.strandsOfQuad q, (∃ p ∈ guardedPairs g, p ∈ ownedPairs s.strands[i].cfg.binding) → s.strands[i].st ≠ .off →
        t.strands[i].raised.getLsbD causeGateFault = true := by
  have hactive : gateActive (s.modQuad q (Quad.setPin g level)).quads[q] g = true := by
    rw [modQuad_self, gateActive_setPin, hen, h, beq_self_eq_true, Bool.and_self]
  refine ⟨_, gateFaultInput_latches hup he, gateLatch_event (s := s.modQuad q _) he hactive, fun p => ?_, fun i hi hguard hst => ?_⟩
  · rw [gateLatch_active (s := s.modQuad q _) he hactive, raiseCauses_frame]
    simp only [modQuad_self, getLsbD_setTrips]
    congr 1
    simp only [ownedGuarded, List.mem_filter, Bool.decide_and, Bool.decide_eq_true]
    rfl
  · rw [gateLatch_active (s := s.modQuad q _) he hactive]
    refine raiseCauses_raised ?_ hst (by decide)
    obtain ⟨p, hp, hown⟩ := hguard
    exact List.mem_filter.mpr ⟨hi, List.any_eq_true.mpr ⟨p, hp, List.contains_iff_mem.mpr hown⟩⟩

end Gate

end Sys2Proof.Machine
end

section
/-! The family of the power stage: samples, choppers and step generators (R140, R141, R157 to R162). -/

namespace Sys2Proof.Machine

variable {s : State} {q : QuadId} {p : PairId}

/-! Samples (R140, R141). -/

theorem sampleReady_acts (at_ : SampleInstant) (data : List (List Bool)) (hup : coreUp s = true) (he : quadEnabled s q = true)
    (hr : s.quads[q].cfg.run = true) (hclk : s.quads[q].cfg.clkEn = true)
    (hat : at_.peak = false ∨ s.quads[q].cfg.dbl = true ∧ s.quads[q].cfg.saw = false) :
    exec (.sampleReady q at_ data) s = .next (s.quadReady q at_ data) := by
  have hboundary : (at_.peak && (!s.quads[q].cfg.dbl || s.quads[q].cfg.saw)) = false := by
    rcases hat with h | ⟨hd, hs⟩
    · rw [h, Bool.false_and]
    · rw [hd, hs]
      exact Bool.and_false _
  exact congrArg Host.Outcome.next (if_neg (by rw [hup, he, hr, hclk, hboundary]; decide))

theorem takeSamples_settling {x : Quad} (h : x.settling ≠ 0) (data : List (List Bool)) : takeSamples data x = x := if_pos h

theorem takeSamples_data {x : Quad} (h : x.settling = 0) (data : List (List Bool)) (i : Fin 12) :
    (takeSamples data x).data[i] = BitVec.ofInt 18 (sampleOf (osr3Of x.cfg.osr3) (sinc3 (osr3Of x.cfg.osr3) (data.getD i.val []))) := by
  rw [takeSamples, if_neg (not_not.mpr h)]
  exact Vector.getElem_ofFn ..

/-! Choppers (R158). -/

/-- A chopper event moves on its own winding. -/
theorem modWinding_self (p : PairId) (f : Nat → Winding → Winding) (x : Quad) :
    (modWinding p f x).windings[p] = f (splitOf x p) x.windings[p] := Vector.getElem_set_self ..

theorem chopDriveEnd_drive {w : Winding} (h : w.phase = .drive) (split : Nat) :
    (chopDriveEnd split w).phase = if split = 0 then .slow else .fast := by
  rw [chopDriveEnd, if_pos h]

theorem chopOffEnd_slow {w : Winding} (h : w.phase = .slow) (split : Nat) : (chopOffEnd split w).phase = .drive := by
  rw [chopOffEnd, if_pos (Or.inl h)]

theorem chopFastEnd_fast {w : Winding} (h : w.phase = .fast) (split : Nat) :
    (chopFastEnd split w).phase = if split < 16 then .slow else .fast := by
  simp only [chopFastEnd, h, true_and]
  split
  · rfl
  · exact h

theorem chopOffEnd_fast {w : Winding} (h : w.phase = .fast) (split : Nat) :
    (chopOffEnd split w).phase = if split = 16 then .drive else .fast := by
  simp only [chopOffEnd, h, reduceCtorEq, true_and, false_or]
  split
  · rfl
  · exact h

theorem driveEnd_acts (hup : coreUp s = true) (hp : s.quads[q].windings[p].phase = .drive) (hover : driveOver s.quads[q] p = true) :
    ∃ t : State, exec (.chopperDriveEnd q p) s = .next t ∧
      t.quads[q].windings[p].phase = if splitOf s.quads[q] p = 0 then .slow else .fast := by
  refine ⟨_, event_acts hup hover, ?_⟩
  rw [modQuad_self, modWinding_self]
  exact chopDriveEnd_drive hp _

theorem offTimeEnd_acts (hup : coreUp s = true) : exec (.chopperOffTimeEnd q p) s = .next (s.modQuad q (modWinding p chopOffEnd)) :=
  congrArg Host.Outcome.next (if_pos hup)

theorem fastDecayEnd_acts (hup : coreUp s = true) : exec (.chopperFastDecayEnd q p) s = .next (s.modQuad q (modWinding p chopFastEnd)) :=
  congrArg Host.Outcome.next (if_pos hup)

theorem offTimeEnd_slow (hup : coreUp s = true) (hp : s.quads[q].windings[p].phase = .slow) :
    ∃ t : State, exec (.chopperOffTimeEnd q p) s = .next t ∧ t.quads[q].windings[p].phase = .drive ∧ t.strands = s.strands := by
  refine ⟨_, offTimeEnd_acts hup, ?_, rfl⟩
  rw [modQuad_self, modWinding_self]
  exact chopOffEnd_slow hp _

theorem decayEnds_fast (hup : coreUp s = true) (hp : s.quads[q].windings[p].phase = .fast) :
    ∃ t u : State, exec (.chopperFastDecayEnd q p) s = .next t ∧ exec (.chopperOffTimeEnd q p) s = .next u ∧
      t.quads[q].windings[p].phase = (if splitOf s.quads[q] p < 16 then .slow else .fast) ∧
      u.quads[q].windings[p].phase = (if splitOf s.quads[q] p = 16 then .drive else .fast) := by
  refine ⟨_, _, fastDecayEnd_acts hup, offTimeEnd_acts hup, ?_⟩
  rw [modQuad_self, modQuad_self, modWinding_self, modWinding_self]
  exact ⟨chopFastEnd_fast hp _, chopOffEnd_fast hp _⟩

/-! The hold current (R157). -/

theorem windings_strands (s : State) (i : StrandId) : (s.windings i).strands = s.strands := by
  unfold State.windings
  dsimp only
  split <;> rfl

theorem holdCurrent_acts {i : StrandId} (h : holdDue s.strands[i] = true) :
    ∃ t : State, exec (.stepperHoldCurrent i) s = .next t ∧ t.strands[i] = { s.strands[i] with holdCur := true } := by
  refine ⟨_, congrArg Host.Outcome.next (if_pos h), ?_⟩
  simp only [State.tick_strands, windings_strands, modStrand_self]

/-! Step generators (R161, R162). -/

section Stg

variable {g : StgId} {e : StgEntry} {x : Stg}

theorem modStg_self (g : StgId) (f : Stg → Stg) : (s.modStg g f).stgs[g] = f s.stgs[g] := Vector.getElem_set_self ..

theorem modStg_congr {f f' : Stg → Stg} (h : f s.stgs[g] = f' s.stgs[g]) : s.modStg g f = s.modStg g f' := by
  rw [State.modStg, State.modStg, h]

/-- A step counts in its entry's direction. -/
theorem count_step (c : BitVec 32) (dir : Bool) :
    c + BitVec.ofInt 32 (if dir = true then -1 else 1) = if dir = true then c - 1 else c + 1 := by
  cases dir with
  | false => rfl
  | true => rw [if_pos rfl, if_pos rfl, BitVec.sub_eq_add_neg]; rfl

/-- A step of the entry the timer runs on moves the count in the entry's direction, and the last of the queue ends the motion. -/
theorem emitStep_last (hc : x.current = some e) (hq : x.queue = []) : emitStep x =
    { x with count := if e.dir = true then x.count - 1 else x.count + 1, ext := x.ext + if e.dir = true then -1 else 1
             current := none, idle := true, underrun := x.underrun || !e.last } := by
  simp only [emitStep, hc, hq, count_step]

/-- Where the queue holds another entry, the timer takes it. -/
theorem emitStep_next {n : StgEntry} {r : List StgEntry} (hc : x.current = some e) (hq : x.queue = n :: r) : emitStep x =
    takeStep false n { x with
      count := if e.dir = true then x.count - 1 else x.count + 1, ext := x.ext + if e.dir = true then -1 else 1
      current := none, queue := r } := by
  simp only [emitStep, hc, hq, count_step]

theorem emitStep_count (hc : x.current = some e) : (emitStep x).count = if e.dir = true then x.count - 1 else x.count + 1 := by
  cases hq : x.queue with
  | nil => rw [emitStep_last hc hq]
  | cons n r => rw [emitStep_next hc hq]; rfl

theorem stepEmit_acts (hc : s.stgs[g].current = some e) : ∃ t : State, exec (.stepEmit g) s = .next t ∧
    t.out = s.out ++ [.stepPulse g (e.dir != s.stgs[g].cfg.dirPol)] ∧
    t.stgs[g].count = (if e.dir = true then s.stgs[g].count - 1 else s.stgs[g].count + 1) ∧
    (s.stgs[g].queue = [] → t.stgs[g].idle = true ∧ t.stgs[g].current = none ∧ t.stgs[g].underrun = (s.stgs[g].underrun || !e.last)) ∧
    ∀ (n : StgEntry) (r : List StgEntry), s.stgs[g].queue = n :: r →
      t.stgs[g].queue = r ∧ t.stgs[g].current = some n ∧ t.stgs[g].underrun = s.stgs[g].underrun := by
  have hexec : exec (.stepEmit g) s = .next ((s.modStg g emitStep).emit (.stepPulse g (e.dir != s.stgs[g].cfg.dirPol))) := by
    refine congrArg Host.Outcome.next ?_
    rw [hc]
  refine ⟨_, hexec, ?_⟩
  simp only [State.emit_out, State.emit_stgs, State.modStg_out, modStg_self]
  refine ⟨trivial, emitStep_count hc, fun hq => ?_, fun n r hq => ?_⟩
  · rw [emitStep_last hc hq]
    exact ⟨rfl, rfl, rfl⟩
  · rw [emitStep_next hc hq]
    exact ⟨rfl, rfl, rfl⟩

theorem stgEntryOf_word (v : Word) : stgEntryOf v.toNat = ⟨v.truncate 27, v.getLsbD 30, v.getLsbD 31⟩ := by
  rw [stgEntryOf, bit_eq_getLsbD, bit_eq_getLsbD, BitVec.ofNat_toNat]

theorem pushStep_full (he : x.cfg.enable = true) (hl : x.queue.length = 64) : pushStep e x = { x with overflow := true } := by
  have hsome : x.queue.isEmpty = false := by
    cases hq : x.queue with
    | nil => rw [hq] at hl; cases hl
    | cons _ _ => rfl
  simp [pushStep, he, hsome, hl]

theorem pushStep_room (he : x.cfg.enable = true) (hl : x.queue.length < 64) (hi : x.idle = false) :
    pushStep e x = { x with queue := x.queue ++ [e] } := by
  simp [pushStep, he, hi, Nat.not_le.mpr hl]

theorem stgPushWrite_pushes (v : Word) (hup : coreUp s = true) :
    exec (.stgPushWrite g v) s = .next (s.modStg g (pushStep ⟨v.truncate 27, v.getLsbD 30, v.getLsbD 31⟩)) := by
  rw [← stgEntryOf_word]
  exact congrArg Host.Outcome.next (if_pos hup)

theorem stgPushWrite_full (v : Word) (hup : coreUp s = true) (he : s.stgs[g].cfg.enable = true) (hl : s.stgs[g].queue.length = 64) :
    exec (.stgPushWrite g v) s = .next (s.modStg g fun x => { x with overflow := true }) :=
  (stgPushWrite_pushes v hup).trans (congrArg _ (modStg_congr (pushStep_full he hl)))

theorem stgPushWrite_room (v : Word) (hup : coreUp s = true) (he : s.stgs[g].cfg.enable = true) (hl : s.stgs[g].queue.length < 64)
    (hi : s.stgs[g].idle = false) : exec (.stgPushWrite g v) s =
      .next (s.modStg g fun x => { x with queue := x.queue ++ [⟨v.truncate 27, v.getLsbD 30, v.getLsbD 31⟩] }) :=
  (stgPushWrite_pushes v hup).trans (congrArg _ (modStg_congr (pushStep_room he hl hi)))

end Stg

end Sys2Proof.Machine

open Sys2Proof Sys2Proof.Machine

/-- Settles O50: each event is its guard and, where that holds, its effect on its own quad, strand or generator. Log entry 147 has a
trip of an input no axis owns change only the value, and log entry 97 has ENLARGER_TIMEOUT leave the state. -/
theorem powerStageEventsAct : Obligations.PowerStageEventsAct := by
  refine ⟨fun q s hup he hr hf => ⟨pwmBoundary_valley_acts hup he hr hf, pwmBoundary_peak_acts hup he hr hf⟩,
    fun q s hw => ?waits, fun q p s h => ?rests, fun _ v _ => forceWrite_acts v, fun _ v _ => forcePairWrite_acts v,
    fun _ v _ => tripClear_acts v, fun _ _ _ _ _ => overcurrentTrip_trips, fun _ _ _ _ => overcurrentTrip_holds,
    fun _ _ _ _ => sddStuck_trips, fun _ _ _ _ => gateFaultInput_dead, fun _ _ _ _ => gateFaultInput_marks,
    fun _ _ _ _ => gateFaultInput_faults, fun _ at_ data _ => sampleReady_acts at_ data,
    fun data _ => ⟨fun h => takeSamples_settling h data, fun h => takeSamples_data h data⟩, fun _ _ _ => driveEnd_acts,
    fun _ _ _ _ hrests => event_rests hrests, fun _ _ _ => offTimeEnd_slow, fun _ _ _ => decayEnds_fast, fun _ _ => holdCurrent_acts,
    fun _ _ _ => stepEmit_acts, fun _ v _ => stgPushWrite_full v, fun _ v _ => stgPushWrite_room v, fun _ _ => rfl⟩
  case waits => exact pwmBoundary_unchanged (Bool.and_false _) (pwmBoundary_rests (.inr (.inr ⟨rfl, hw⟩)))
  case rests =>
    refine pwmBoundary_unchanged ?_ (pwmBoundary_rests (h.imp_right .inl))
    rcases h with h | h <;> simp [-Fin.getElem_fin, h]
end

section
/-! The family of feedback: what an event on a unit leaves of it, and which lines it accepts (R169, R178). -/

namespace Sys2Proof.Machine

variable {s t : State} {i : FbId} {x y z : Fb}

/-! A unit under its observer. -/

/-- `y` stands as `x` does, up to the observer, the clocks and the fault bit. -/
structure Fb.Alike (x y : Fb) : Prop where
  cfg : y.cfg = x.cfg
  count : y.count = x.count
  raw : y.raw = x.raw
  a : y.a = x.a
  b : y.b = x.b
  hall : y.hall = x.hall
  sector : y.sector = x.sector
  frameOpen : y.frameOpen = x.frameOpen
  frameAt : y.frameAt = x.frameAt
  hasWord : y.hasWord = x.hasWord
  qerr : y.qerr = x.qerr
  stat : ∀ k < 10, y.stat.getLsbD k = x.stat.getLsbD k

theorem Fb.Alike.trans (h : x.Alike y) (k : y.Alike z) : x.Alike z where
  cfg := k.cfg.trans h.cfg
  count := k.count.trans h.count
  raw := k.raw.trans h.raw
  a := k.a.trans h.a
  b := k.b.trans h.b
  hall := k.hall.trans h.hall
  sector := k.sector.trans h.sector
  frameOpen := k.frameOpen.trans h.frameOpen
  frameAt := k.frameAt.trans h.frameAt
  hasWord := k.hasWord.trans h.hasWord
  qerr := k.qerr.trans h.qerr
  stat j hj := (k.stat j hj).trans (h.stat j hj)

/-- The observer's samples move its own three values (R178). -/
theorem runObs_frame (key : Nat) (w : Rat) (n : Nat) (u : Fb) :
    ∃ p v a, runObs key w n u = { u with pHat := p, vHat := v, aHat := a } := by
  induction n generalizing u with
  | zero => exact ⟨_, _, _, rfl⟩
  | succ n ih =>
    obtain ⟨p, v, a, h⟩ := ih (obsStep key w (if u.cfg.mode = 3 ∨ u.cfg.mode = 4 then 0 else wrapErr 32 u.count.toNat u.pHat) u)
    exact ⟨p, v, a, h⟩

theorem advanceFb_frame (key n : Nat) (u : Fb) : ∃ p v a, advanceFb key n u =
    { u with pHat := p, vHat := v, aHat := a, now := u.now + n, clock := u.clock + n, maHigh := u.maHigh - n } := by
  unfold advanceFb
  split
  · exact ⟨_, _, _, rfl⟩
  · obtain ⟨p, v, a, h⟩ := runObs_frame key (omegaOf u.cfg) n u
    exact ⟨p, v, a, by rw [h]⟩

theorem advanceFb_alike (key n : Nat) (u : Fb) : u.Alike (advanceFb key n u) := by
  obtain ⟨p, v, a, h⟩ := advanceFb_frame key n u
  rw [h]
  constructor <;> intros <;> rfl

theorem advanceFb_clock (key n : Nat) (u : Fb) : (advanceFb key n u).clock = u.clock + n := rfl

theorem advanceFb_zero (key : Nat) (u : Fb) : advanceFb key 0 u = u := by
  unfold advanceFb
  split <;> rfl

/-- Whether a line has stood is read of its latest change and the filter time, which the samples leave. -/
theorem advanceFb_steady (key n k : Nat) (u : Fb) (l : Fin 3) : lineSteady k (advanceFb key n u) l = lineSteady k u l := by
  obtain ⟨p, v, a, h⟩ := advanceFb_frame key n u
  rw [h]
  rfl

theorem advanceFb_lines (key n : Nat) (u : Fb) : (advanceFb key n u).lines = u.lines := by
  have h := advanceFb_alike key n u
  rw [Fb.lines, Fb.lines, h.a, h.b, h.hall]

theorem countedEdge_alike (key : Nat) (old u : Fb) : u.Alike (countedEdge key old u) := by
  unfold countedEdge
  dsimp only
  split <;> constructor <;> intros <;> rfl

/-- A unit with the outcome of an event: its fault latched where there is one (R175). -/
def settled (r : Fb × Bool) : Fb := if r.2 then flag 10 r.1 else r.1

theorem flag_stat (u : Fb) {j : Nat} (hj : j < 11) (k : Nat) :
    (flag j u).stat.getLsbD k = if k = j then true else u.stat.getLsbD k := getLsbD_setBit _ hj _ _

theorem flag_sets (u : Fb) {j : Nat} (hj : j < 11) : (flag j u).stat.getLsbD j = true := setBit_true_self _ hj

theorem settled_alike (r : Fb × Bool) : r.1.Alike (settled r) := by
  unfold settled
  split
  · refine ⟨rfl, rfl, rfl, rfl, rfl, rfl, rfl, rfl, rfl, rfl, rfl, fun k hk => ?_⟩
    rw [flag_stat _ (by decide), if_neg (by omega)]
  · constructor <;> intros <;> rfl

/-! Compare units leave the feedback units as they are. -/

theorem compareOn_frame (s : State) (c : CmpId) (u : Fb) :
    s.compareOn c u = { s with cmps := (s.compareOn c u).cmps, out := (s.compareOn c u).out } := by
  unfold State.compareOn
  dsimp only
  split <;> rfl

theorem compareOn_fbs (s : State) (c : CmpId) (u : Fb) : (s.compareOn c u).fbs = s.fbs := by rw [compareOn_frame]

theorem compareRun_fbs (s : State) (c : CmpId) (n : Nat) : (s.compareRun c n).fbs = s.fbs :=
  foldl_frame State.fbs (fun t _ => compareOn_fbs t c _) _ s

theorem compareNow_fbs (s : State) (i : FbId) : (s.compareNow i).fbs = s.fbs :=
  foldl_frame State.fbs (fun t c => compareOn_fbs t c _) _ s

theorem runFb_unit (s : State) (i : FbId) (n : Nat) : (s.runFb i n).fbs[i] = advanceFb (s.key i) n s.fbs[i] := by
  rw [State.runFb, modFb_self, foldl_frame State.fbs (fun t c => compareRun_fbs t c n)]

/-! Where no compare unit follows a unit, its samples and events show nothing outside. -/

theorem OnlyBanks.cmps (h : OnlyBanks s t) : t.cmps = s.cmps := by
  obtain ⟨p, m, rfl⟩ := h
  rfl

theorem OnlyBanks.out (h : OnlyBanks s t) : t.out = s.out := by
  obtain ⟨p, m, rfl⟩ := h
  rfl

theorem OnlyBanks.key (h : OnlyBanks s t) (n : Nat) : t.key n = s.key n := by
  obtain ⟨p, m, rfl⟩ := h
  rfl

theorem compareUnits_congr (h : t.cmps = s.cmps) (i : FbId) : compareUnits t i = compareUnits s i := by
  rw [compareUnits, compareUnits, h]

theorem runFb_alone (h : compareUnits s i = []) (n : Nat) : s.runFb i n = s.modFb i (advanceFb (s.key i) n) := by
  rw [State.runFb, h, List.foldl_nil]

theorem compareNow_alone (h : compareUnits s i = []) : s.compareNow i = s := by
  rw [State.compareNow, h, List.foldl_nil]

/-! An event on a unit. -/

/-- What an event puts back is its unit and, with a fault, causes on strands (R175). -/
theorem putFb_frame (s : State) (i : FbId) (r : Fb × Bool) :
    s.putFb i r = { s.setFb i (settled r) with strands := (s.putFb i r).strands } := by
  unfold State.putFb settled
  split
  · have hlatch : (s.setFb i r.1).modFb i (flag 10) = s.setFb i (flag 10 r.1) := by
      simp only [State.modFb, State.setFb, Fin.getElem_fin, Vector.getElem_set_self, Vector.set_set]
    rw [State.fbFault, raiseCauses_frame, State.losesSources, raiseCauses_frame, hlatch]
  · rfl

theorem putFb_unit (s : State) (i : FbId) (r : Fb × Bool) : (s.putFb i r).fbs[i] = settled r := by
  rw [putFb_frame]
  exact Vector.getElem_set_self ..

/-- An event acts on the unit as it stands at the event's sample. -/
theorem fbEvent_unit (s : State) (i : FbId) (n : Nat) (f : Nat → Fb → Fb × Bool) :
    (s.fbEvent i n f).fbs[i] = settled (f (s.fbs[i].clock + n) (advanceFb (s.key i) n s.fbs[i])) := by
  have hwake := wakeFn_onlyBanks (fbFn i) s
  simp only [State.fbEvent, State.tick_fbs, compareNow_fbs, putFb_unit, runFb_unit, advanceFb_clock, hwake.fbs, hwake.key]

theorem fbEvent_out (h : compareUnits s i = []) (n : Nat) (f : Nat → Fb → Fb × Bool) : (s.fbEvent i n f).out = s.out := by
  have hwake := wakeFn_onlyBanks (fbFn i) s
  have hrun := (compareUnits_congr hwake.cmps i).trans h
  have hput (r : Fb × Bool) : (((s.wakeFn (fbFn i)).runFb i n).putFb i r).cmps = s.cmps := by
    rw [putFb_frame, runFb_alone hrun]
    exact hwake.cmps
  rw [State.fbEvent, State.tick_out, compareNow_alone ((compareUnits_congr (hput _) i).trans h), putFb_frame, runFb_alone hrun]
  exact hwake.out

/-! An event on the input lines (R169). -/

theorem lineEdge_accepted {k : Nat} (h : ∀ l, lineSteady k x l = true) (new : BitVec 3) (f : Fb → Fb × Bool) :
    ∃ v, lineEdge k new f x = f { x with lineAt := v } := by
  refine ⟨_, if_pos ?_⟩
  exact List.all_eq_true.mpr fun l _ => h l

theorem lineEdge_refused {k : Nat} {new : BitVec 3} {l : Fin 3} (hl : new.getLsbD l.val ≠ x.lines.getLsbD l.val)
    (h : lineSteady k x l = false) (f : Fb → Fb × Bool) : lineEdge k new f x = (x, false) := by
  refine if_neg fun hall => ?_
  have hmoved : l ∈ (List.finRange 3).filter fun l => new.getLsbD l.val != x.lines.getLsbD l.val :=
    List.mem_filter.mpr ⟨List.mem_finRange l, bne_iff_ne.mpr hl⟩
  exact Bool.false_ne_true (h.symm.trans (List.all_eq_true.mp hall l hmoved))

/-- A unit after a line event stands as the line filter's outcome. -/
theorem lineEvent_unit (n : Nat) (lines : Fb → BitVec 3) (f : Nat → Fb → Fb × Bool) :
    (lineEdge (s.fbs[i].clock + n) (lines (advanceFb (s.key i) n s.fbs[i])) (f (s.fbs[i].clock + n))
      (advanceFb (s.key i) n s.fbs[i])).1.Alike (s.lineEvent i n lines f).fbs[i] := by
  rw [State.lineEvent, fbEvent_unit]
  exact (countedEdge_alike ..).trans (settled_alike (countedEdge .., _))

/-- New levels of lines that have stood act on the unit. -/
theorem lineEvent_accepted {n : Nat} (h : ∀ l : Fin 3, lineSteady (s.fbs[i].clock + n) s.fbs[i] l = true) (lines : Fb → BitVec 3)
    (f : Nat → Fb → Fb × Bool) : ∃ u, s.fbs[i].Alike u ∧ u.vHat = (advanceFb (s.key i) n s.fbs[i]).vHat ∧
      (f (s.fbs[i].clock + n) u).1.Alike (s.lineEvent i n lines f).fbs[i] := by
  obtain ⟨v, hv⟩ := lineEdge_accepted (x := advanceFb (s.key i) n s.fbs[i]) (fun l => (advanceFb_steady ..).trans (h l))
    (lines (advanceFb (s.key i) n s.fbs[i])) (f (s.fbs[i].clock + n))
  have hat : (advanceFb (s.key i) n s.fbs[i]).Alike { advanceFb (s.key i) n s.fbs[i] with lineAt := v } := by
    constructor <;> intros <;> rfl
  exact ⟨_, (advanceFb_alike ..).trans hat, rfl, hv ▸ lineEvent_unit n lines f⟩

/-- A line that changes before it has stood keeps the event from the unit. -/
theorem lineEvent_refused {n : Nat} {lines : Fb → BitVec 3} {l : Fin 3}
    (hl : (lines (advanceFb (s.key i) n s.fbs[i])).getLsbD l.val ≠ s.fbs[i].lines.getLsbD l.val)
    (h : lineSteady (s.fbs[i].clock + n) s.fbs[i] l = false) (f : Nat → Fb → Fb × Bool) :
    s.fbs[i].Alike (s.lineEvent i n lines f).fbs[i] := by
  have hrefused := lineEdge_refused (by rwa [advanceFb_lines]) ((advanceFb_steady (s.key i) n _ s.fbs[i] l).trans h)
    (f (s.fbs[i].clock + n))
  exact (advanceFb_alike ..).trans (hrefused ▸ lineEvent_unit n lines f)

/-! Enlargers and duty inputs read an edge and leave the units (R147, R160). -/

theorem enlargeAll_fbs (s : State) (u : FbId) (sg : Int) : (s.enlargeAll u sg).fbs = s.fbs := by
  unfold State.enlargeAll
  split
  · rfl
  · refine foldl_frame State.fbs (fun t k => ?_) _ s
    split <;> rfl

theorem dutyAll_fbs (s : State) (u : FbId) (was now : Bool) : (s.dutyAll u was now).fbs = s.fbs := by
  unfold State.dutyAll
  split
  · rfl
  · exact foldl_frame State.fbs (fun t k => State.modStrand_fbs (s := t) k _) _ s

theorem afterEdge_fbs (s t : State) (u : FbId) : (s.afterEdge t u).fbs = t.fbs := (dutyAll_fbs ..).trans (enlargeAll_fbs ..)

/-! The count, its direction and the error counter (R170, R175, R177). -/

/-- A reversal shows in FB_STAT, bits 7 and 8. -/
theorem setDir_frame (d : Int) (u : Fb) : ∃ v, setDir d u = { u with stat := v } ∧ ∀ k < 7, v.getLsbD k = u.stat.getLsbD k := by
  unfold setDir
  split
  · exact ⟨_, rfl, fun _ _ => rfl⟩
  · refine ⟨_, rfl, fun k hk => ?_⟩
    rw [getLsbD_setBit _ (by decide), if_neg (by omega), getLsbD_setBit _ (by decide), if_neg (by omega)]

theorem bump_frame (d : Int) (u : Fb) : ∃ v, bump d u = { u with count := u.count + BitVec.ofInt 32 d, stat := v } ∧
    ∀ k < 7, v.getLsbD k = u.stat.getLsbD k := by
  obtain ⟨v, h, hv⟩ := setDir_frame d { u with count := u.count + BitVec.ofInt 32 d }
  exact ⟨v, h, hv⟩

theorem bump_count (d : Int) (u : Fb) : (bump d u).count = u.count + BitVec.ofInt 32 d := by
  obtain ⟨v, h, -⟩ := bump_frame d u
  rw [h]

theorem bump_qerr (d : Int) (u : Fb) : (bump d u).qerr = u.qerr := by
  obtain ⟨v, h, -⟩ := bump_frame d u
  rw [h]

/-- A count that moves back by `d` counts (R176). -/
theorem count_back (c : BitVec 32) (d : Int) : c + BitVec.ofInt 32 (-d) = c - BitVec.ofInt 32 d := by
  rw [BitVec.ofInt_neg, BitVec.sub_eq_add_neg]

end Sys2Proof.Machine
end

section
/-! The family of feedback: quadrature counting (R170, R171). -/

namespace Sys2Proof.Machine

variable {s : State} {i : FbId} {a b a' b' : Bool} {u : Fb} {k n : Nat}

theorem lineBits_a (a b c : Bool) : (lineBits a b c).getLsbD 0 = a := by
  revert a b c
  decide

/-! The table of R170. -/

theorem quadDelta_forward (h : (a, b, a', b') ∈
    [(false, false, true, false), (true, false, true, true), (true, true, false, true), (false, true, false, false)]) :
    quadDelta a b a' b' = some 1 := by
  revert a b a' b'
  decide

theorem quadDelta_reverse (h : (a, b, a', b') ∈
    [(true, false, false, false), (true, true, true, false), (false, true, true, true), (false, false, false, true)]) :
    quadDelta a b a' b' = some (-1) := by
  revert a b a' b'
  decide

theorem quadDelta_stays (h : (a, b) = (a', b')) : quadDelta a b a' b' = some 0 := by
  revert a b a' b'
  decide

theorem quadDelta_double : quadDelta a b a' b' = none ↔ a ≠ a' ∧ b ≠ b' := by
  revert a b a' b'
  decide

/-! One accepted change of the lines. -/

/-- A change of one line at most counts by the table. -/
theorem quadEdge_steps {d : Int} (hi : u.cfg.invert = false) (hd : quadDelta u.a u.b a b = some d) :
    (quadEdge k a b u).1.a = a ∧ (quadEdge k a b u).1.b = b ∧ (quadEdge k a b u).1.count = u.count + BitVec.ofInt 32 d ∧
      (quadEdge k a b u).1.qerr = u.qerr ∧ (quadEdge k a b u).1.stat.getLsbD 0 = u.stat.getLsbD 0 := by
  obtain ⟨v, h, hv⟩ := bump_frame d { u with a := a, b := b, bPrev := u.b, bAt := if b = u.b then u.bAt else k }
  simp only [quadEdge, hd, hi, Bool.false_eq_true, if_false, h]
  exact ⟨trivial, trivial, trivial, trivial, hv 0 (by decide)⟩

/-- By how much the observer's speed moves the count on a double change (R171). -/
def jumpOf (v : Int) : Int := if (50000000 * 2 ^ 32 : Int) ≤ |v| then 2 * v.sign else 0

theorem jumpOf_forward {v : Int} (h : 50000000 * 2 ^ 32 ≤ v) : jumpOf v = 2 := by
  rw [jumpOf, if_pos (h.trans (le_abs_self v)), Int.sign_eq_one_of_pos (by omega)]
  rfl

theorem jumpOf_backward {v : Int} (h : v ≤ -(50000000 * 2 ^ 32)) : jumpOf v = -2 := by
  rw [jumpOf, if_pos (le_abs.mpr (Or.inr (by omega))), Int.sign_eq_neg_one_of_neg (by omega)]
  rfl

theorem jumpOf_slow {v : Int} (h : |v| < 50000000 * 2 ^ 32) : jumpOf v = 0 := if_neg (not_le.mpr h)

/-- A double change sets qerr and is counted as an error, and the count follows the observer. -/
theorem quadEdge_jumps (hd : quadDelta u.a u.b a b = none) :
    (quadEdge k a b u).1.a = a ∧ (quadEdge k a b u).1.b = b ∧
      (quadEdge k a b u).1.count = u.count + BitVec.ofInt 32 (jumpOf u.vHat) ∧
      (quadEdge k a b u).1.stat.getLsbD 0 = true ∧ (quadEdge k a b u).1.qerr = min 65535 (u.qerr + 1) := by
  obtain ⟨v, h, -⟩ := bump_frame (jumpOf u.vHat) { u with a := a, b := b, bPrev := u.b, bAt := if b = u.b then u.bAt else k }
  have hjump : quadEdge k a b u = addQerr k (flag 0 (bump (jumpOf u.vHat)
      { u with a := a, b := b, bPrev := u.b, bAt := if b = u.b then u.bAt else k })) := by
    simp only [quadEdge, hd, jumpOf, decide_eq_true_eq]
  rw [hjump, h]
  exact ⟨rfl, rfl, rfl, flag_sets _ (by decide), rfl⟩

/-! The event. -/

theorem quadratureEdge_runs (hup : coreUp s = true) (hm : s.fbs[i].cfg.mode = 1) : exec (.quadratureEdge i a b n) s = .next
    (s.afterEdge (s.lineEvent i n (fun u => lineBits a b (u.hall.getLsbD 2)) (quadEdge · a b)) i) :=
  congrArg Host.Outcome.next (if_neg (by rw [hup, hm]; decide))

/-- An A line that changes before it has stood leaves the lines, the count and the error counter (R169). -/
theorem quadratureEdge_refused (hup : coreUp s = true) (hm : s.fbs[i].cfg.mode = 1) (ha : s.fbs[i].a ≠ a)
    (h : lineSteady (s.fbs[i].clock + n) s.fbs[i] 0 = false) :
    ∃ t : State, exec (.quadratureEdge i a b n) s = .next t ∧ s.fbs[i].Alike t.fbs[i] := by
  refine ⟨_, quadratureEdge_runs hup hm, ?_⟩
  rw [afterEdge_fbs]
  refine lineEvent_refused (l := 0) ?_ h _
  intro heq
  exact ha ((lineBits_a _ _ _).symm.trans (heq.symm.trans (lineBits_a _ _ _)))

theorem quadratureEdge_accepted (hup : coreUp s = true) (hm : s.fbs[i].cfg.mode = 1)
    (h : ∀ l : Fin 3, lineSteady (s.fbs[i].clock + n) s.fbs[i] l = true) :
    ∃ t u, exec (.quadratureEdge i a b n) s = .next t ∧ s.fbs[i].Alike u ∧
      u.vHat = (advanceFb (s.key i) n s.fbs[i]).vHat ∧ (quadEdge (s.fbs[i].clock + n) a b u).1.Alike t.fbs[i] := by
  obtain ⟨u, hu, hv, ht⟩ := lineEvent_accepted h (fun u => lineBits a b (u.hall.getLsbD 2)) (quadEdge · a b)
  exact ⟨_, u, quadratureEdge_runs hup hm, hu, hv, by rwa [afterEdge_fbs]⟩

theorem quadratureEdge_steps {d : Int} (hup : coreUp s = true) (hm : s.fbs[i].cfg.mode = 1) (hi : s.fbs[i].cfg.invert = false)
    (h : ∀ l : Fin 3, lineSteady (s.fbs[i].clock + n) s.fbs[i] l = true) (hd : quadDelta s.fbs[i].a s.fbs[i].b a b = some d) :
    ∃ t : State, exec (.quadratureEdge i a b n) s = .next t ∧ t.fbs[i].a = a ∧ t.fbs[i].b = b ∧
      t.fbs[i].count = s.fbs[i].count + BitVec.ofInt 32 d ∧ t.fbs[i].qerr = s.fbs[i].qerr ∧
      t.fbs[i].stat.getLsbD 0 = s.fbs[i].stat.getLsbD 0 := by
  obtain ⟨t, u, hexec, hu, -, ht⟩ := quadratureEdge_accepted (a := a) (b := b) hup hm h
  rw [← hu.a, ← hu.b] at hd
  obtain ⟨ha, hb, hcount, hqerr, hstat⟩ := quadEdge_steps (k := s.fbs[i].clock + n) (hu.cfg ▸ hi) hd
  exact ⟨t, hexec, ht.a.trans ha, ht.b.trans hb, by rw [ht.count, hcount, hu.count], by rw [ht.qerr, hqerr, hu.qerr],
    by rw [ht.stat 0 (by decide), hstat, hu.stat 0 (by decide)]⟩

theorem quadratureEdge_jumps (hup : coreUp s = true) (hm : s.fbs[i].cfg.mode = 1)
    (h : ∀ l : Fin 3, lineSteady (s.fbs[i].clock + n) s.fbs[i] l = true) (hd : quadDelta s.fbs[i].a s.fbs[i].b a b = none) :
    ∃ t : State, exec (.quadratureEdge i a b n) s = .next t ∧ t.fbs[i].a = a ∧ t.fbs[i].b = b ∧
      t.fbs[i].count = s.fbs[i].count + BitVec.ofInt 32 (jumpOf (advanceFb (s.key i) n s.fbs[i]).vHat) ∧
      t.fbs[i].stat.getLsbD 0 = true ∧ t.fbs[i].qerr = min 65535 (s.fbs[i].qerr + 1) := by
  obtain ⟨t, u, hexec, hu, hv, ht⟩ := quadratureEdge_accepted (a := a) (b := b) hup hm h
  rw [← hu.a, ← hu.b] at hd
  obtain ⟨ha, hb, hcount, hstat, hqerr⟩ := quadEdge_jumps (k := s.fbs[i].clock + n) hd
  exact ⟨t, hexec, ht.a.trans ha, ht.b.trans hb, by rw [ht.count, hcount, hu.count, hv], (ht.stat 0 (by decide)).trans hstat,
    by rw [ht.qerr, hqerr, hu.qerr]⟩

end Sys2Proof.Machine

open Sys2Proof Sys2Proof.Machine

/-- Settles O51: the table gives a change of one line its step and a double change none, where the count takes the observer's
(R170, R171). Log entry 173 has a row that changes a line before it has stood change nothing. -/
theorem quadratureCountsFollowTheTable : Obligations.QuadratureCountsFollowTheTable := by
  refine ⟨fun i a b n s hup hm ha h => ?refused, fun i a b n s hup hm hi h => ?accepted⟩
  case refused =>
    obtain ⟨t, hexec, ht⟩ := quadratureEdge_refused (b := b) hup hm ha h
    exact ⟨t, hexec, ht.a, ht.b, ht.count, ht.qerr⟩
  cases hd : quadDelta s.fbs[i].a s.fbs[i].b a b with
  | some d =>
    obtain ⟨t, hexec, ha, hb, hcount, hqerr, hstat⟩ := quadratureEdge_steps hup hm hi h hd
    refine ⟨t, hexec, ha, hb, fun hf => ?_, fun hr => ?_, fun hs => ?_, fun _ => ⟨hqerr, hstat⟩, fun hna hnb => ?_⟩
    · obtain rfl := Option.some.inj (hd.symm.trans (quadDelta_forward hf))
      exact hcount
    · obtain rfl := Option.some.inj (hd.symm.trans (quadDelta_reverse hr))
      exact hcount.trans (count_back _ 1)
    · obtain rfl := Option.some.inj (hd.symm.trans (quadDelta_stays hs))
      exact hcount.trans (BitVec.add_zero _)
    · exact absurd (hd.symm.trans (quadDelta_double.mpr ⟨hna, hnb⟩)) (by simp)
  | none =>
    obtain ⟨t, hexec, ha, hb, hcount, hstat, hqerr⟩ := quadratureEdge_jumps hup hm h hd
    obtain ⟨hna, hnb⟩ := quadDelta_double.mp hd
    refine ⟨t, hexec, ha, hb, fun hf => ?_, fun hr => ?_, fun hs => ?_, fun hone => ?_, fun _ _ => ⟨hstat, hqerr, ?_, ?_, ?_⟩⟩
    · exact absurd (hd.symm.trans (quadDelta_forward hf)) (by simp)
    · exact absurd (hd.symm.trans (quadDelta_reverse hr)) (by simp)
    · exact absurd (hd.symm.trans (quadDelta_stays hs)) (by simp)
    · exact absurd hone (not_or.mpr ⟨hna, hnb⟩)
    · intro hv
      rw [hcount, jumpOf_forward hv]
      rfl
    · intro hv
      rw [hcount, jumpOf_backward hv]
      exact count_back _ 2
    · intro hv
      rw [hcount, jumpOf_slow hv]
      exact BitVec.add_zero _
end

section
/-! The family of feedback: Hall codes and pulses (R172, R173). -/

namespace Sys2Proof.Machine

variable {s : State} {i : FbId} {u : Fb} {k n : Nat}

/-! Hall codes (R172). -/

theorem hallSector_invalid {code : BitVec 3} (h : code = 0 ∨ code = 7) : hallSector code = none := by
  rcases h with rfl | rfl <;> rfl

/-- The steps between two sectors, by the shorter way; half a turn counts forward. -/
def hallDelta (o n : Fin 6) : Int :=
  let m : Int := ((n.val : Int) - o.val) % 6
  if m ≤ 3 then m else m - 6

theorem hallDelta_eq {o n : Fin 6} {m : Nat} (h : (n.val + 6 - o.val) % 6 = m) : hallDelta o n = if m ≤ 3 then (m : Int) else m - 6 := by
  subst h
  revert o n
  decide

/-- A step to an adjacent sector, or none, is no error. -/
abbrev hallNear (o n : Fin 6) : Prop := hallDelta o n = 0 ∨ hallDelta o n = 1 ∨ hallDelta o n = -1

/-- A code of no sector sets its flag, and is an error where the code before it was one of a sector. -/
theorem hallChange_invalid {code : BitVec 3} (h : hallSector code = none) :
    (hallChange k code u).1.sector = u.sector ∧ (hallChange k code u).1.count = u.count ∧
      (hallChange k code u).1.stat.getLsbD 1 = true ∧
      (hallChange k code u).1.qerr = if u.hall = 0 ∨ u.hall = 7 then u.qerr else min 65535 (u.qerr + 1) := by
  have hcode : (u.hall == 0 || u.hall == 7) = true ↔ u.hall = 0 ∨ u.hall = 7 := by rw [Bool.or_eq_true, beq_iff_eq, beq_iff_eq]
  by_cases hold : u.hall = 0 ∨ u.hall = 7
  · have hkept : hallChange k code u = (flag 1 { u with hall := code }, false) := by
      simp only [hallChange, h, if_pos (hcode.mpr hold)]
    rw [hkept, if_pos hold]
    exact ⟨rfl, rfl, flag_sets _ (by decide), rfl⟩
  · have hcounted : hallChange k code u = addQerr k (flag 1 { u with hall := code }) := by
      simp only [hallChange, h, if_neg (mt hcode.mp hold)]
    rw [hcounted, if_neg hold]
    exact ⟨rfl, rfl, flag_sets _ (by decide), rfl⟩

/-- A code of another sector moves the count; a skip sets its flag and is an error. -/
theorem hallChange_steps {code : BitVec 3} {o n : Fin 6} (hi : u.cfg.invert = false) (ho : u.sector = some o)
    (hn : hallSector code = some n) :
    (hallChange k code u).1.sector = some n ∧ (hallChange k code u).1.count = u.count + BitVec.ofInt 32 (hallDelta o n) ∧
      (hallNear o n → (hallChange k code u).1.qerr = u.qerr) ∧
      (¬ hallNear o n → (hallChange k code u).1.stat.getLsbD 2 = true ∧ (hallChange k code u).1.qerr = min 65535 (u.qerr + 1)) := by
  obtain ⟨v, hbump, -⟩ := bump_frame (hallDelta o n) { u with hall := code, sector := some n }
  have hstep : hallChange k code u = if hallNear o n then (bump (hallDelta o n) { u with hall := code, sector := some n }, false)
      else addQerr k (flag 2 (bump (hallDelta o n) { u with hall := code, sector := some n })) := by
    simp only [hallChange, hn, ho, hi, Bool.false_eq_true, if_false]
    rfl
  by_cases hnear : hallNear o n
  · rw [hstep, if_pos hnear, hbump]
    exact ⟨rfl, rfl, fun _ => rfl, fun hskip => absurd hnear hskip⟩
  · rw [hstep, if_neg hnear, hbump]
    exact ⟨rfl, rfl, fun h => absurd h hnear, fun _ => ⟨flag_sets _ (by decide), rfl⟩⟩

theorem hallCodeChange_accepted (code : BitVec 3) (hup : coreUp s = true) (hm : s.fbs[i].cfg.mode = 2)
    (h : ∀ l : Fin 3, lineSteady (s.fbs[i].clock + n) s.fbs[i] l = true) :
    ∃ t u, exec (.hallCodeChange i code n) s = .next t ∧ s.fbs[i].Alike u ∧
      (hallChange (s.fbs[i].clock + n) code { u with a := code.getLsbD 0, b := code.getLsbD 1 }).1.Alike t.fbs[i] := by
  obtain ⟨u, hu, -, ht⟩ := lineEvent_accepted h (fun _ => code)
    fun t u => hallChange t code { u with a := code.getLsbD 0, b := code.getLsbD 1 }
  exact ⟨_, u, congrArg Host.Outcome.next (if_neg (by rw [hup, hm]; decide)), hu, by rwa [afterEdge_fbs]⟩

theorem hallCodeChange_invalid {code : BitVec 3} (hup : coreUp s = true) (hm : s.fbs[i].cfg.mode = 2) (hc : code = 0 ∨ code = 7)
    (h : ∀ l : Fin 3, lineSteady (s.fbs[i].clock + n) s.fbs[i] l = true) :
    ∃ t : State, exec (.hallCodeChange i code n) s = .next t ∧ t.fbs[i].sector = s.fbs[i].sector ∧ t.fbs[i].count = s.fbs[i].count ∧
      t.fbs[i].stat.getLsbD 1 = true ∧
      t.fbs[i].qerr = if s.fbs[i].hall = 0 ∨ s.fbs[i].hall = 7 then s.fbs[i].qerr else min 65535 (s.fbs[i].qerr + 1) := by
  obtain ⟨t, u, hexec, hu, ht⟩ := hallCodeChange_accepted code hup hm h
  obtain ⟨hsector, hcount, hstat, hqerr⟩ := hallChange_invalid (k := s.fbs[i].clock + n)
    (u := { u with a := code.getLsbD 0, b := code.getLsbD 1 }) (hallSector_invalid hc)
  exact ⟨t, hexec, ht.sector.trans (hsector.trans hu.sector), ht.count.trans (hcount.trans hu.count),
    (ht.stat 1 (by decide)).trans hstat, by rw [ht.qerr, hqerr, hu.hall, hu.qerr]⟩

theorem hallCodeChange_steps {code : BitVec 3} {o m : Fin 6} (hup : coreUp s = true) (hm : s.fbs[i].cfg.mode = 2)
    (hi : s.fbs[i].cfg.invert = false) (ho : s.fbs[i].sector = some o) (hc : hallSector code = some m)
    (h : ∀ l : Fin 3, lineSteady (s.fbs[i].clock + n) s.fbs[i] l = true) :
    ∃ t : State, exec (.hallCodeChange i code n) s = .next t ∧ t.fbs[i].sector = some m ∧
      t.fbs[i].count = s.fbs[i].count + BitVec.ofInt 32 (hallDelta o m) ∧ (hallNear o m → t.fbs[i].qerr = s.fbs[i].qerr) ∧
      (¬ hallNear o m → t.fbs[i].stat.getLsbD 2 = true ∧ t.fbs[i].qerr = min 65535 (s.fbs[i].qerr + 1)) := by
  obtain ⟨t, u, hexec, hu, ht⟩ := hallCodeChange_accepted code hup hm h
  obtain ⟨hsector, hcount, hnear, hskip⟩ := hallChange_steps (k := s.fbs[i].clock + n)
    (u := { u with a := code.getLsbD 0, b := code.getLsbD 1 }) (hu.cfg ▸ hi) (hu.sector.trans ho) hc
  refine ⟨t, hexec, ht.sector.trans hsector, by rw [ht.count, hcount, hu.count], fun hn => ?_, fun hn => ?_⟩
  · rw [ht.qerr, hnear hn, hu.qerr]
  · obtain ⟨hstat, hqerr⟩ := hskip hn
    exact ⟨(ht.stat 2 (by decide)).trans hstat, by rw [ht.qerr, hqerr, hu.qerr]⟩

/-- The steps of R172 by how far the new sector lies ahead. -/
theorem hallCodeChange_sectors {code : BitVec 3} {o m : Fin 6} (hup : coreUp s = true) (hm : s.fbs[i].cfg.mode = 2)
    (hi : s.fbs[i].cfg.invert = false) (ho : s.fbs[i].sector = some o) (hc : hallSector code = some m)
    (h : ∀ l : Fin 3, lineSteady (s.fbs[i].clock + n) s.fbs[i] l = true) :
    ∃ t : State, exec (.hallCodeChange i code n) s = .next t ∧ t.fbs[i].sector = some m ∧
      ((m.val + 6 - o.val) % 6 = 1 → t.fbs[i].count = s.fbs[i].count + 1 ∧ t.fbs[i].qerr = s.fbs[i].qerr) ∧
      ((m.val + 6 - o.val) % 6 = 5 → t.fbs[i].count = s.fbs[i].count - 1 ∧ t.fbs[i].qerr = s.fbs[i].qerr) ∧
      ((m.val + 6 - o.val) % 6 = 2 → t.fbs[i].count = s.fbs[i].count + 2 ∧ t.fbs[i].stat.getLsbD 2 = true ∧
        t.fbs[i].qerr = min 65535 (s.fbs[i].qerr + 1)) ∧
      ((m.val + 6 - o.val) % 6 = 3 → t.fbs[i].count = s.fbs[i].count + 3 ∧ t.fbs[i].stat.getLsbD 2 = true) ∧
      ((m.val + 6 - o.val) % 6 = 4 → t.fbs[i].count = s.fbs[i].count - 2 ∧ t.fbs[i].stat.getLsbD 2 = true) := by
  obtain ⟨t, hexec, hsector, hcount, hnear, hskip⟩ := hallCodeChange_steps (n := n) hup hm hi ho hc h
  unfold hallNear at hnear hskip
  refine ⟨t, hexec, hsector, fun hd => ?_, fun hd => ?_, fun hd => ?_, fun hd => ?_, fun hd => ?_⟩ <;>
    rw [hallDelta_eq hd] at hcount hnear hskip
  · exact ⟨hcount, hnear (by decide)⟩
  · exact ⟨hcount.trans (count_back _ 1), hnear (by decide)⟩
  · exact ⟨hcount, hskip (by decide)⟩
  · exact ⟨hcount, (hskip (by decide)).1⟩
  · exact ⟨hcount.trans (count_back _ 2), (hskip (by decide)).1⟩

/-! Pulses, and the lines of units that count none (R173). -/

theorem upDown_count (c : BitVec 32) (up down : Bool) : c + BitVec.ofInt 32 ((b2n up : Int) - b2n down) =
    c + (if up = true then 1 else 0) - (if down = true then 1 else 0) := by
  have hone (p : Bool) : BitVec.ofInt 32 (b2n p) = if p = true then 1 else 0 := by cases p <;> rfl
  rw [Int.sub_eq_add_neg, BitVec.ofInt_add, ← BitVec.add_assoc, count_back, hone, hone]

/-- In up/down mode a rise of the A line counts up and one of the B line down. -/
theorem pulseEdge_upDown {a b : Bool} (hm : u.cfg.mode = 6) (hi : u.cfg.invert = false) :
    (pulseEdge k a b u).qerr = u.qerr ∧ (pulseEdge k a b u).count =
      u.count + (if a = true ∧ u.a = false then 1 else 0) - (if b = true ∧ u.b = false then 1 else 0) := by
  have hdelta : pulseDelta k a b u = (b2n (a && !u.a) : Int) - b2n (b && !u.b) := by simp [pulseDelta, hm, hi]
  refine ⟨bump_qerr .., (bump_count ..).trans ?_⟩
  rw [hdelta]
  simpa only [Bool.and_eq_true, Bool.not_eq_true'] using upDown_count u.count (a && !u.a) (b && !u.b)

theorem pulseEdge_upDown_acts {a b : Bool} (hup : coreUp s = true) (hm : s.fbs[i].cfg.mode = 6) (hi : s.fbs[i].cfg.invert = false)
    (h : ∀ l : Fin 3, lineSteady (s.fbs[i].clock + n) s.fbs[i] l = true) :
    ∃ t : State, exec (.pulseEdge i a b n) s = .next t ∧ t.fbs[i].qerr = s.fbs[i].qerr ∧ t.fbs[i].count =
      s.fbs[i].count + (if a = true ∧ s.fbs[i].a = false then 1 else 0) - (if b = true ∧ s.fbs[i].b = false then 1 else 0) := by
  obtain ⟨u, hu, -, ht⟩ := lineEvent_accepted h (fun u => lineBits a b (u.hall.getLsbD 2)) fun t u => (pulseEdge t a b u, false)
  obtain ⟨hqerr, hcount⟩ := pulseEdge_upDown (k := s.fbs[i].clock + n) (a := a) (b := b) (hu.cfg ▸ hm) (hu.cfg ▸ hi)
  have hexec : exec (.pulseEdge i a b n) s = .next (s.afterEdge (s.lineEvent i n (fun u => lineBits a b (u.hall.getLsbD 2))
      fun t u => (pulseEdge t a b u, false)) i) := by
    refine congrArg Host.Outcome.next ?_
    rw [hup, hm]
    rfl
  refine ⟨_, hexec, ?_⟩
  rw [afterEdge_fbs]
  exact ⟨by rw [ht.qerr, hqerr, hu.qerr], by rw [ht.count, hcount, hu.count, hu.a, hu.b]⟩

/-- A unit that counts no lines follows their levels. -/
theorem pulseEdge_follows {a b : Bool} (hup : coreUp s = true)
    (hm : s.fbs[i].cfg.mode = 0 ∨ s.fbs[i].cfg.mode = 3 ∨ s.fbs[i].cfg.mode = 4)
    (h : ∀ l : Fin 3, lineSteady (s.fbs[i].clock + n) s.fbs[i] l = true) :
    ∃ t : State, exec (.pulseEdge i a b n) s = .next t ∧ t.fbs[i].a = a ∧ t.fbs[i].b = b ∧ t.fbs[i].count = s.fbs[i].count := by
  obtain ⟨u, hu, -, ht⟩ := lineEvent_accepted h (fun u => lineBits a b (u.hall.getLsbD 2)) fun _ u => ({ u with a := a, b := b }, false)
  have hexec : exec (.pulseEdge i a b n) s = .next (s.afterEdge (s.lineEvent i n (fun u => lineBits a b (u.hall.getLsbD 2))
      fun _ u => ({ u with a := a, b := b }, false)) i) := by
    refine congrArg Host.Outcome.next ?_
    rcases hm with hm | hm | hm <;> (rw [hup, hm]; rfl)
  refine ⟨_, hexec, ?_⟩
  rw [afterEdge_fbs]
  exact ⟨ht.a, ht.b, ht.count.trans hu.count⟩

/-! Events of another mode. -/

theorem lineEvents_off {a b : Bool} (code : BitVec 3) (hm : s.fbs[i].cfg.mode = 0) :
    exec (.quadratureEdge i a b n) s = .next s ∧ exec (.hallCodeChange i code n) s = .next s ∧ exec (.indexEdge i) s = .next s := by
  refine ⟨?_, ?_, ?_⟩ <;> exact congrArg Host.Outcome.next (if_pos (by rw [hm]; exact Bool.or_true _))

theorem pulseEdge_off {a b : Bool} (hm : s.fbs[i].cfg.mode = 1 ∨ s.fbs[i].cfg.mode = 2) : exec (.pulseEdge i a b n) s = .next s := by
  refine congrArg Host.Outcome.next (if_pos ?_)
  rcases hm with hm | hm <;> (rw [hm]; cases coreUp s <;> rfl)

end Sys2Proof.Machine
end

section
/-! The family of feedback: serial frames, the extension of the count and the index (R174, R176, R177). -/

namespace Sys2Proof.Machine

variable {s : State} {i : FbId} {u : Fb} {key high k n : Nat} {w : BitVec 40} {c : SerialCheck}

/-! The start of a frame. -/

theorem frameMayStart_open {m : Nat} (h : u.frameOpen = true) : frameMayStart m u = false := by
  simp [frameMayStart, h]

theorem serialFrameStart_unit (s : State) (i : FbId) (n : Nat) :
    (s.fbEvent i n fun _ u => (u, false)).fbs[i] = advanceFb (s.key i) n s.fbs[i] := fbEvent_unit ..

/-- While a frame is open, and off the grid, time passes and no frame starts. -/
theorem serialFrameStart_waits (hup : coreUp s = true) (h : frameMayStart (s.tNs / 5) (advanceFb (s.key i) n s.fbs[i]) = false) :
    exec (.serialFrameStart i n) s = .next (s.fbEvent i n fun _ u => (u, false)) := by
  refine congrArg Host.Outcome.next ((if_neg (by rw [hup]; decide)).trans (if_neg ?_))
  rw [serialFrameStart_unit, h]
  decide

theorem serialFrameStart_starts (hup : coreUp s = true) (h : frameMayStart (s.tNs / 5) (advanceFb (s.key i) n s.fbs[i]) = true) :
    exec (.serialFrameStart i n) s = .next (((s.fbEvent i n fun _ u => (u, false)).modFb i
      fun u => { u with frameOpen := true, frameAt := u.clock, latchP := u.pHat }).emit (.serialClock i)) := by
  refine congrArg Host.Outcome.next ((if_neg (by rw [hup]; decide)).trans (if_pos ?_))
  rw [serialFrameStart_unit, h]

theorem serialFrameStart_open (hup : coreUp s = true) (ho : s.fbs[i].frameOpen = true) :
    ∃ t : State, exec (.serialFrameStart i n) s = .next t ∧ t.fbs[i].frameOpen = true ∧ (compareUnits s i = [] → t.out = s.out) := by
  have hopen := (advanceFb_alike (s.key i) n s.fbs[i]).frameOpen.trans ho
  exact ⟨_, serialFrameStart_waits hup (frameMayStart_open hopen), by rwa [serialFrameStart_unit], fun h => fbEvent_out h ..⟩

theorem serialFrameStart_opens (hup : coreUp s = true)
    (h : frameMayStart (s.tNs / 5) (advanceFb (s.key i) n s.fbs[i]) = true) :
    ∃ t : State, exec (.serialFrameStart i n) s = .next t ∧ t.fbs[i].frameOpen = true ∧
      (compareUnits s i = [] → t.out = s.out ++ [.serialClock i]) := by
  refine ⟨_, serialFrameStart_starts hup h, ?_, fun halone => ?_⟩
  · rw [State.emit_fbs, modFb_self]
  · rw [State.emit_out, State.modFb_out, fbEvent_out halone]

/-! The end of a frame. -/

/-- A word the check bits refuse is not used: its flag is set, and it is counted as an error. -/
theorem frameEnd_rejects (h : u.cfg.mode = 3 ∧ crcFits u.cfg w c = false ∨ u.cfg.mode = 4 ∧ c.startHigh = false) :
    (frameEnd key high k w c u).1.frameOpen = false ∧ (frameEnd key high k w c u).1.raw = u.raw ∧
      (frameEnd key high k w c u).1.count = u.count ∧ (frameEnd key high k w c u).1.qerr = min 65535 (u.qerr + 1) ∧
      (frameEnd key high k w c u).1.stat.getLsbD (if u.cfg.mode = 3 then 3 else 4) = true := by
  rcases h with ⟨hm, hc⟩ | ⟨hm, hc⟩
  · have hcrc : frameEnd key high k w c u = addQerr k (flag 3 { u with
        frameOpen := false, maHigh := if u.cfg.mode = 3 then high else 0, nERun := 0, timeoutLast := false }) :=
      if_pos ⟨hm, by rw [hc]; rfl⟩
    simp only [hcrc, if_pos hm]
    exact ⟨rfl, rfl, rfl, rfl, flag_sets _ (by decide)⟩
  · have hlow : frameEnd key high k w c u = addQerr k (flag 4 { u with
        frameOpen := false, maHigh := if u.cfg.mode = 3 then high else 0, timeoutLast := true }) :=
      (if_neg fun h => absurd (hm.symm.trans h.1) (by decide)).trans (if_pos ⟨hm, by rw [hc]; rfl⟩)
    have hother : ¬ u.cfg.mode = 3 := by rw [hm]; decide
    simp only [hlow, if_neg hother]
    exact ⟨rfl, rfl, rfl, rfl, flag_sets _ (by decide)⟩

theorem directed_frame (p : Prop) [Decidable p] (d : Int) (u : Fb) : ∃ v, (if p then setDir d u else u) = { u with stat := v } := by
  split
  · obtain ⟨v, h, -⟩ := setDir_frame d u
    exact ⟨v, h⟩
  · exact ⟨u.stat, rfl⟩

/-- A word that fits is the position, and without an error bit it is no error. -/
theorem frameEnd_takes (h : u.cfg.mode = 3 ∧ crcFits u.cfg w c = true ∧ c.nE = true ∨ u.cfg.mode = 4 ∧ c.startHigh = true) :
    (frameEnd key high k w c u).1.frameOpen = false ∧ (frameEnd key high k w c u).1.hasWord = true ∧
      (frameEnd key high k w c u).1.raw = BitVec.ofNat 40 (serialPos u.cfg w) ∧
      (frameEnd key high k w c u).1.count = BitVec.ofNat 32 (serialPos u.cfg w) ∧ (frameEnd key high k w c u).1.qerr = u.qerr := by
  have hcrc : ¬ (u.cfg.mode = 3 ∧ (!crcFits u.cfg w c) = true) := by
    rintro ⟨hm, hbad⟩
    rcases h with ⟨-, hfits, -⟩ | ⟨hm4, -⟩
    · simp [hfits] at hbad
    · exact absurd (hm4.symm.trans hm) (by decide)
  have hlow : ¬ (u.cfg.mode = 4 ∧ (!c.startHigh) = true) := by
    rintro ⟨hm, hbad⟩
    rcases h with ⟨hm3, -, -⟩ | ⟨-, hhigh⟩
    · exact absurd (hm3.symm.trans hm) (by decide)
    · simp [hhigh] at hbad
  have hnE : (decide (u.cfg.mode = 3) && !c.nE) = false := by
    rcases h with ⟨-, -, hnE⟩ | ⟨hm4, -⟩
    · rw [hnE]
      exact Bool.and_false _
    · rw [hm4]
      rfl
  obtain ⟨v, hv⟩ := directed_frame (u.hasWord = true)
    (toSigned u.cfg.bits.toNat (wrapNat u.cfg.bits.toNat ((serialPos u.cfg w : Int) - u.raw.toNat)))
    { u with frameOpen := false, maHigh := if u.cfg.mode = 3 then high else 0 }
  simp only [frameEnd, if_neg hcrc, if_neg hlow, hv, obsCorrect, hnE, Bool.false_and, Bool.false_eq_true, if_false]
  split <;> exact ⟨rfl, rfl, rfl, rfl, rfl⟩

/-! A frame without a start bit. -/

/-- 20 µs after its start a frame ends with a timeout, which is an error, and sooner it stays open. -/
theorem frameTimeout_late (ho : u.frameOpen = true) (h : u.frameAt + 4000 ≤ k) :
    (frameTimeout high k u).1.frameOpen = false ∧ (frameTimeout high k u).1.stat.getLsbD 4 = true ∧
      (frameTimeout high k u).1.qerr = min 65535 (u.qerr + 1) := by
  have hlate : frameTimeout high k u = addQerr k (flag 4 { u with
      frameOpen := false, timeoutLast := true, nERun := 0, maHigh := if u.cfg.mode = 3 then high else 0 }) :=
    if_pos (by rw [ho, decide_eq_true h]; rfl)
  rw [hlate]
  exact ⟨rfl, flag_sets _ (by decide), rfl⟩

theorem frameTimeout_early (h : k < u.frameAt + 4000) : frameTimeout high k u = (u, false) :=
  if_neg (by rw [decide_eq_false (Nat.not_le.mpr h), Bool.and_false]; decide)

/-! The events of an open frame. -/

theorem serialFrameEnd_acts (hup : coreUp s = true) (ho : s.fbs[i].frameOpen = true) (w : BitVec 40) (c : SerialCheck) :
    ∃ t : State, exec (.serialFrameEnd i w c n) s = .next t ∧ t.fbs[i] = settled
      (frameEnd (s.key i) (Config.encoderTimeout i) (s.fbs[i].clock + n) w c (advanceFb (s.key i) n s.fbs[i])) :=
  ⟨_, congrArg Host.Outcome.next (if_neg (by rw [hup, ho]; decide)), fbEvent_unit ..⟩

theorem serialFrameEnd_rejects (hup : coreUp s = true) (ho : s.fbs[i].frameOpen = true)
    (h : s.fbs[i].cfg.mode = 3 ∧ crcFits s.fbs[i].cfg w c = false ∨ s.fbs[i].cfg.mode = 4 ∧ c.startHigh = false) :
    ∃ t : State, exec (.serialFrameEnd i w c n) s = .next t ∧ t.fbs[i].frameOpen = false ∧ t.fbs[i].raw = s.fbs[i].raw ∧
      t.fbs[i].count = s.fbs[i].count ∧ t.fbs[i].qerr = min 65535 (s.fbs[i].qerr + 1) ∧
      t.fbs[i].stat.getLsbD (if s.fbs[i].cfg.mode = 3 then 3 else 4) = true := by
  obtain ⟨t, hexec, ht⟩ := serialFrameEnd_acts (n := n) hup ho w c
  have hu := advanceFb_alike (s.key i) n s.fbs[i]
  have hset := settled_alike (frameEnd (s.key i) (Config.encoderTimeout i) (s.fbs[i].clock + n) w c (advanceFb (s.key i) n s.fbs[i]))
  rw [← ht] at hset
  rw [← hu.cfg] at h
  obtain ⟨hopen, hraw, hcount, hqerr, hstat⟩ := frameEnd_rejects (key := s.key i) (high := Config.encoderTimeout i)
    (k := s.fbs[i].clock + n) h
  rw [hu.cfg] at hstat
  refine ⟨t, hexec, hset.frameOpen.trans hopen, hset.raw.trans (hraw.trans hu.raw), hset.count.trans (hcount.trans hu.count),
    by rw [hset.qerr, hqerr, hu.qerr], (hset.stat _ ?_).trans hstat⟩
  split <;> decide

theorem serialFrameEnd_takes (hup : coreUp s = true) (ho : s.fbs[i].frameOpen = true)
    (h : s.fbs[i].cfg.mode = 3 ∧ crcFits s.fbs[i].cfg w c = true ∧ c.nE = true ∨ s.fbs[i].cfg.mode = 4 ∧ c.startHigh = true) :
    ∃ t : State, exec (.serialFrameEnd i w c n) s = .next t ∧ t.fbs[i].frameOpen = false ∧ t.fbs[i].hasWord = true ∧
      t.fbs[i].raw = BitVec.ofNat 40 (serialPos s.fbs[i].cfg w) ∧ t.fbs[i].count = BitVec.ofNat 32 (serialPos s.fbs[i].cfg w) ∧
      t.fbs[i].qerr = s.fbs[i].qerr := by
  obtain ⟨t, hexec, ht⟩ := serialFrameEnd_acts (n := n) hup ho w c
  have hu := advanceFb_alike (s.key i) n s.fbs[i]
  have hset := settled_alike (frameEnd (s.key i) (Config.encoderTimeout i) (s.fbs[i].clock + n) w c (advanceFb (s.key i) n s.fbs[i]))
  rw [← ht] at hset
  rw [← hu.cfg] at h
  obtain ⟨hopen, hword, hraw, hcount, hqerr⟩ := frameEnd_takes (key := s.key i) (high := Config.encoderTimeout i)
    (k := s.fbs[i].clock + n) h
  rw [hu.cfg] at hraw hcount
  exact ⟨t, hexec, hset.frameOpen.trans hopen, hset.hasWord.trans hword, hset.raw.trans hraw, hset.count.trans hcount,
    hset.qerr.trans (hqerr.trans hu.qerr)⟩

theorem serialFrameTimeout_acts (n : Nat) (hup : coreUp s = true) (ho : s.fbs[i].frameOpen = true) :
    ∃ t : State, exec (.serialFrameTimeout i n) s = .next t ∧ t.fbs[i] = settled
      (frameTimeout (Config.encoderTimeout i) (s.fbs[i].clock + n) (advanceFb (s.key i) n s.fbs[i])) :=
  ⟨_, congrArg Host.Outcome.next (if_neg (by rw [hup, ho]; decide)), fbEvent_unit ..⟩

theorem serialFrameTimeout_late (hup : coreUp s = true) (ho : s.fbs[i].frameOpen = true)
    (h : s.fbs[i].frameAt + 4000 ≤ s.fbs[i].clock + n) :
    ∃ t : State, exec (.serialFrameTimeout i n) s = .next t ∧ t.fbs[i].frameOpen = false ∧ t.fbs[i].stat.getLsbD 4 = true ∧
      t.fbs[i].qerr = min 65535 (s.fbs[i].qerr + 1) := by
  obtain ⟨t, hexec, ht⟩ := serialFrameTimeout_acts n hup ho
  have hu := advanceFb_alike (s.key i) n s.fbs[i]
  have hset := settled_alike (frameTimeout (Config.encoderTimeout i) (s.fbs[i].clock + n) (advanceFb (s.key i) n s.fbs[i]))
  rw [← ht] at hset
  obtain ⟨hopen, hstat, hqerr⟩ := frameTimeout_late (high := Config.encoderTimeout i) (hu.frameOpen.trans ho) (hu.frameAt ▸ h)
  exact ⟨t, hexec, hset.frameOpen.trans hopen, (hset.stat 4 (by decide)).trans hstat, by rw [hset.qerr, hqerr, hu.qerr]⟩

theorem serialFrameTimeout_early (hup : coreUp s = true) (ho : s.fbs[i].frameOpen = true)
    (h : s.fbs[i].clock + n < s.fbs[i].frameAt + 4000) :
    ∃ t : State, exec (.serialFrameTimeout i n) s = .next t ∧ t.fbs[i].frameOpen = true ∧ t.fbs[i].qerr = s.fbs[i].qerr := by
  obtain ⟨t, hexec, ht⟩ := serialFrameTimeout_acts n hup ho
  have hu := advanceFb_alike (s.key i) n s.fbs[i]
  rw [frameTimeout_early (hu.frameAt ▸ h)] at ht
  exact ⟨t, hexec, by rw [ht]; exact hu.frameOpen.trans ho, by rw [ht]; exact hu.qerr⟩

theorem serialFrame_closed (w : BitVec 40) (c : SerialCheck) (n : Nat) (ho : s.fbs[i].frameOpen = false) :
    exec (.serialFrameEnd i w c n) s = .next s ∧ exec (.serialFrameTimeout i n) s = .next s := by
  constructor <;> exact congrArg Host.Outcome.next (if_pos (by rw [ho]; exact Bool.or_true _))

/-! The extension of the count, and the index (R176, R177). -/

theorem toSigned_wrapNat32 {d : Int} (hlo : -2 ^ 31 ≤ d) (hhi : d < 2 ^ 31) : toSigned 32 (wrapNat 32 d) = d := by
  unfold toSigned wrapNat
  split <;> omega

theorem toSigned_wrapNat48 {d : Int} (hlo : -2 ^ 47 ≤ d) (hhi : d < 2 ^ 47) : toSigned 48 (wrapNat 48 d) = d := by
  unfold toSigned wrapNat
  split <;> omega

/-- A count that has moved by less than half its range since the extension moves the extension as far. -/
theorem extend_follows {d : Int} (hm : u.cfg.mode = 1) (hlo : -2 ^ 31 ≤ d) (hhi : d < 2 ^ 31) (hext : -2 ^ 47 ≤ u.ext + d)
    (hext' : u.ext + d < 2 ^ 47) (hc : u.count = BitVec.ofInt 32 (u.ext + d)) : extend u = { u with ext := u.ext + d } := by
  have hmode : ¬ (u.cfg.mode = 3 ∨ u.cfg.mode = 4) := by rw [hm]; decide
  have hbits : wordBits u.cfg = 32 := if_neg hmode
  have hmeasured : measured u = u.count.toNat := if_neg hmode
  have hmoved : wrapNat 32 ((u.count.toNat : Int) - u.ext) = wrapNat 32 d := by
    rw [hc, BitVec.toNat_ofInt]
    unfold wrapNat
    omega
  simp only [extend, hbits, hmeasured, hmoved, toSigned_wrapNat32 hlo hhi, toSigned_wrapNat48 hext hext', if_neg (by decide : ¬ 32 = 0)]

theorem countExtension_follows {d : Int} (hup : coreUp s = true) (hm : s.fbs[i].cfg.mode = 1) (hlo : -2 ^ 31 ≤ d) (hhi : d < 2 ^ 31)
    (hext : -2 ^ 47 ≤ s.fbs[i].ext + d) (hext' : s.fbs[i].ext + d < 2 ^ 47) (hc : s.fbs[i].count = BitVec.ofInt 32 (s.fbs[i].ext + d)) :
    exec (.countExtension i) s = .next (s.modFb i fun u => { u with ext := s.fbs[i].ext + d }) := by
  refine congrArg Host.Outcome.next ((if_pos hup).trans ?_)
  rw [State.modFb, extend_follows hm hlo hhi hext hext' hc]
  rfl

theorem indexEdge_captures (hup : coreUp s = true) (hm : s.fbs[i].cfg.mode = 1) :
    exec (.indexEdge i) s = .next (s.modFb i fun u => { u with index := u.count, stat := setBit u.stat 9 true }) :=
  congrArg Host.Outcome.next (if_neg (by rw [hup, hm]; decide))

end Sys2Proof.Machine
end

section
/-! The family of feedback: probes (R180, R181). -/

namespace Sys2Proof.Machine

variable {s : State} {p : ProbeId} {falling : Bool} {stamp last : BitVec 64}

/-- Does a probe's arming take an edge? -/
def edgeWanted (x : Probe) (falling : Bool) : Bool := x.armed && (x.cfg.edge == 2 || x.cfg.edge == (if falling then 1 else 0))

theorem edgeWanted_both {x : Probe} (ha : x.armed = true) (he : x.cfg.edge = 2) (falling : Bool) : edgeWanted x falling = true := by
  rw [edgeWanted, ha, he]
  rfl

theorem probeEdge_unwanted (h : edgeWanted s.probes[p] falling = false) (stamp : BitVec 64) : s.probeEdge p falling stamp = s :=
  if_pos (by rw [← edgeWanted, h]; rfl)

/-- An edge within 1 µs of the last one taken is an overrun. -/
theorem probeEdge_early (h : edgeWanted s.probes[p] falling = true) (hl : s.probes[p].last = some last)
    (hsoon : (stamp - last).toNat < 1000) :
    s.probeEdge p falling stamp = s.modProbe p fun x => { x with overrun := min 65535 (x.overrun + 1) } := by
  refine (if_neg (by rw [← edgeWanted, h]; decide)).trans (if_pos ?_)
  rw [hl]
  exact decide_eq_true hsoon

theorem OnlyBanks.probes {t : State} (h : OnlyBanks s t) : t.probes = s.probes := by
  obtain ⟨q, m, rfl⟩ := h
  rfl

/-- An edge that is taken is the next record of its probe. -/
theorem probeEdge_takes (h : edgeWanted s.probes[p] falling = true) (hl : s.probes[p].last = none) (stamp : BitVec 64) :
    (s.probeEdge p falling stamp).probes[p].last = some stamp ∧
      (s.probeEdge p falling stamp).probes[p].seq = s.probes[p].seq + 1 ∧
      (s.probeEdge p falling stamp).probes[p].armed = s.probes[p].cfg.continuous := by
  rw [State.probeEdge, if_neg ?wanted]
  dsimp only
  rw [if_neg ?late, State.tick_probes, foldl_frame State.probes ?missed, State.modProbe_probes, State.modMem_probes,
    (wakeRange_onlyBanks ..).probes, foldl_frame State.probes ?bound]
  case wanted =>
    rw [← edgeWanted, h]
    decide
  case late =>
    rw [hl]
    exact Bool.false_ne_true
  case missed =>
    intro t k
    split
    · split <;> rfl
    · rfl
  case bound =>
    intro t i
    split <;> rfl
  simp only [Fin.getElem_fin, Vector.getElem_set_self, and_self]

/-! The event. -/

theorem probeEdge_runs (hup : coreUp s = true) (hin : sinceStart s stamp < s.tNs) :
    exec (.probeEdge p falling stamp) s = .next (s.probeEdge p falling stamp) :=
  congrArg Host.Outcome.next ((if_pos hup).trans (by rw [if_pos hin]))

theorem probeEdge_disarmed (stamp : BitVec 64) (h : s.probes[p].armed = false) : exec (.probeEdge p falling stamp) s = .next s := by
  have hrests (v : BitVec 64) : s.probeEdge p falling v = s := probeEdge_unwanted (by rw [edgeWanted, h]; rfl) v
  refine congrArg Host.Outcome.next ?_
  rw [hrests, ite_self]

theorem probeEdge_overruns (hup : coreUp s = true) (ha : s.probes[p].armed = true) (he : s.probes[p].cfg.edge = 2)
    (hl : s.probes[p].last = some last) (hsoon : (stamp - last).toNat < 1000) (hin : sinceStart s stamp < s.tNs) :
    exec (.probeEdge p falling stamp) s = .next (s.modProbe p fun x => { x with overrun := min 65535 (x.overrun + 1) }) :=
  (probeEdge_runs hup hin).trans (congrArg _ (probeEdge_early (edgeWanted_both ha he falling) hl hsoon))

theorem probeEdge_records (hup : coreUp s = true) (ha : s.probes[p].armed = true) (he : s.probes[p].cfg.edge = 2)
    (hl : s.probes[p].last = none) (hin : sinceStart s stamp < s.tNs) :
    ∃ t : State, exec (.probeEdge p falling stamp) s = .next t ∧ t.probes[p].last = some stamp ∧
      t.probes[p].seq = s.probes[p].seq + 1 ∧ t.probes[p].armed = s.probes[p].cfg.continuous :=
  ⟨_, probeEdge_runs hup hin, probeEdge_takes (edgeWanted_both ha he falling) hl stamp⟩

/-- A stamp outside the cycle is that of the cycle's start (log entry 205). -/
theorem probeEdge_outside (hout : s.tNs ≤ sinceStart s stamp) :
    exec (.probeEdge p falling stamp) s = exec (.probeEdge p falling s.time.dev) s := by
  refine congrArg Host.Outcome.next ?_
  rw [if_neg (Nat.not_lt.mpr hout), ite_self]

end Sys2Proof.Machine
end

section
/-! The family of feedback: compare units (R182, R183). -/

namespace Sys2Proof.Machine

variable {s : State} {u : CmpId} {n : Nat} {x y : Compare} {c : CompareCfg} {e : CmpEntry}

/-! A unit without an active list. -/

/-- The unit fires nothing: it has no list, is switched off, or has ended its list. -/
def Compare.Quiet (x : Compare) : Prop := x.cfg = none ∨ x.enable = false ∨ x.idle = true

/-- `y` is `x` but for the position seen last. -/
def Compare.Rested (x y : Compare) : Prop := ∃ q, y = { x with prev := q }

theorem Compare.Rested.quiet (h : x.Rested y) (hq : x.Quiet) : y.Quiet := by
  obtain ⟨q, rfl⟩ := h
  exact hq

theorem Compare.Rested.trans {z : Compare} (h : x.Rested y) (h' : y.Rested z) : x.Rested z := by
  obtain ⟨q, rfl⟩ := h
  obtain ⟨q', rfl⟩ := h'
  exact ⟨q', rfl⟩

theorem Compare.Rested.fired (h : x.Rested y) : y.fired = x.fired := by
  obtain ⟨q, rfl⟩ := h
  rfl

theorem Compare.Rested.out (h : x.Rested y) : y.out = x.out := by
  obtain ⟨q, rfl⟩ := h
  rfl

theorem compareAt_quiet (h : x.Quiet) (up : Bool) (q : Int) : x.Rested (compareAt up q x) := by
  unfold compareAt
  split
  next => exact ⟨x.prev, rfl⟩
  next c hc =>
    refine ⟨q, if_pos ?_⟩
    rcases h with h | h | h
    · exact absurd (hc.symm.trans h) (by simp)
    · rw [h]
      rfl
    · rw [h]
      exact Bool.or_true _

theorem compareOn_cmps (s : State) (k : CmpId) (v : Fb) : (s.compareOn k v).cmps =
    (s.modCmp k (compareAt (decide (0 ≤ v.vHat)) (piOf (s.key (cmpSource s.cmps[k])) v))).cmps := by
  unfold State.compareOn
  dsimp only
  split <;> rfl

/-- A quiet unit that looks shows nothing. -/
theorem compareOn_quiet_out (h : s.cmps[u].Quiet) (v : Fb) : (s.compareOn u v).out = s.out := by
  have hfired := (compareAt_quiet h (decide (0 ≤ v.vHat)) (piOf (s.key (cmpSource s.cmps[u])) v)).fired
  unfold State.compareOn
  dsimp only
  rw [modCmp_self, if_pos hfired]
  rfl

/-- Whichever unit looks, a quiet one stays so and fires nothing. -/
theorem compareOn_quiet (h : s.cmps[u].Quiet) (k : CmpId) (v : Fb) : s.cmps[u].Rested (s.compareOn k v).cmps[u] := by
  simp only [compareOn_cmps]
  by_cases hk : u = k
  · subst hk
    rw [modCmp_self]
    exact compareAt_quiet h _ _
  · rw [modCmp_other hk]
    exact ⟨s.cmps[u].prev, rfl⟩

/-- A fold whose steps leave a quiet unit resting leaves it resting. -/
theorem foldl_rested {α : Type} {f : State → α → State} (hf : ∀ (t : State) (a : α), t.cmps[u].Quiet →
    t.cmps[u].Rested (f t a).cmps[u])
    (h : s.cmps[u].Quiet) (l : List α) : s.cmps[u].Rested (l.foldl f s).cmps[u] :=
  List.foldlRecOn (motive := fun t => s.cmps[u].Rested t.cmps[u]) l f ⟨s.cmps[u].prev, rfl⟩
    fun t ht a _ => ht.trans (hf t a (ht.quiet h))

theorem runFb_rested (h : s.cmps[u].Quiet) (i : FbId) (n : Nat) : s.cmps[u].Rested (s.runFb i n).cmps[u] :=
  foldl_rested (fun _ k ht => foldl_rested (fun _ _ ht => compareOn_quiet ht k _) ht _) h (compareUnits s i)

/-! COMPARE_FIRE. -/

/-- A compare unit sees its source as it stands. -/
def State.seen (s : State) (u : CmpId) : State := s.compareOn u s.fbs[cmpSource s.cmps[u]]

theorem compareFire_runs (hup : coreUp s = true) :
    exec (.compareFire u n) s = .next ((s.runFb (cmpSource s.cmps[u]) n).seen u) :=
  congrArg Host.Outcome.next (if_neg (by rw [hup]; decide))

/-- The source goes on by its samples. -/
theorem compareFire_source (hup : coreUp s = true) : ∃ t : State, exec (.compareFire u n) s = .next t ∧
    t.fbs[cmpSource s.cmps[u]] = advanceFb (s.key (cmpSource s.cmps[u])) n s.fbs[cmpSource s.cmps[u]] :=
  ⟨_, compareFire_runs hup, by rw [State.seen, compareOn_fbs, runFb_unit]⟩

theorem compareFire_quiet (hup : coreUp s = true) (h : s.cmps[u].Quiet) : ∃ t : State, exec (.compareFire u n) s = .next t ∧
    (compareUnits s (cmpSource s.cmps[u]) = [] → t.out = s.out) ∧ t.cmps[u].fired = s.cmps[u].fired ∧ t.cmps[u].out = s.cmps[u].out := by
  have hrun := runFb_rested h (cmpSource s.cmps[u]) n
  have hall : s.cmps[u].Rested ((s.runFb (cmpSource s.cmps[u]) n).seen u).cmps[u] := hrun.trans (compareOn_quiet (hrun.quiet h) u _)
  refine ⟨_, compareFire_runs hup, fun halone => ?_, hall.fired, hall.out⟩
  rw [State.seen, compareOn_quiet_out (hrun.quiet h), runFb_alone halone, State.modFb_out]

/-! A list of one entry. -/

/-- Going up past the one entry of a list, that fires in both directions, ends the list. -/
theorem passEntries_one {p q : Int} (k : Nat) (hc : c.entries = [e]) (hdir : e.dir = 0) (hidle : x.idle = false)
    (hrep : x.repeatOn = false) (hptr : x.pointer = 0) (hoff : x.offset = 0) (hahead : 0 < diff40 e.pos p) (hpast : diff40 e.pos q ≤ 0) :
    passEntries c true p q (k + 2) x 0 false = ({ x with pointer := 1, idle := true }, 1, true) := by
  have hreach : reaches x.fresh true p q (e.pos + x.offset) = true := by simp [reaches, hoff, hahead, hpast]
  simp [passEntries, hc, hdir, hidle, hrep, hptr, hreach]

/-- A position that passes the one entry fires the pulse and ends the list. -/
theorem compareAt_one {up : Bool} {q : Int} (hcfg : x.cfg = some c) (hc : c.entries = [e]) (hdir : e.dir = 0) (hen : x.enable = true)
    (hidle : x.idle = false) (hrep : x.repeatOn = false) (hptr : x.pointer = 0) (hoff : x.offset = 0)
    (hup : 0 < diff40 q x.prev) (hahead : 0 < diff40 e.pos x.prev) (hpast : diff40 e.pos q ≤ 0) :
    (compareAt up q x).out = true ∧ (compareAt up q x).idle = true ∧ (compareAt up q x).fired = (x.fired + 1) % 2 ^ 32 := by
  obtain ⟨k, hk⟩ : ∃ k, (diff40 q x.prev).natAbs + 1 = k + 2 := ⟨(diff40 q x.prev).natAbs - 1, by omega⟩
  have hpass := passEntries_one k hc hdir hidle hrep hptr hoff hahead hpast
  simp [compareAt, hcfg, hen, hidle, hup.ne', hup, hk, hpass]

theorem compareRun_zero (s : State) (k : CmpId) : s.compareRun k 0 = s := rfl

/-- Without a sample, nothing looks and the unit stands. -/
theorem runFb_zero (s : State) (i : FbId) : s.runFb i 0 = s := by
  have hall : (compareUnits s i).foldl (fun t k => t.compareRun k 0) s = s := by
    simp only [compareRun_zero]
    exact List.foldl_fixed _
  rw [State.runFb, hall, State.modFb, advanceFb_zero, State.setFb, Fin.getElem_fin, Vector.set_getElem_self]

theorem succ_mod_ne (m : Nat) : (m + 1) % 2 ^ 32 ≠ m := by omega

theorem compareFire_fires (hup : coreUp s = true) (hcfg : s.cmps[u].cfg = some c) (hc : c.entries = [e]) (hdir : e.dir = 0)
    (hen : s.cmps[u].enable = true) (hidle : s.cmps[u].idle = false) (hrep : s.cmps[u].repeatOn = false)
    (hptr : s.cmps[u].pointer = 0) (hoff : s.cmps[u].offset = 0)
    (hpos : 0 < diff40 (piOf (s.key (cmpSource s.cmps[u])) s.fbs[cmpSource s.cmps[u]]) s.cmps[u].prev)
    (hahead : 0 < diff40 e.pos s.cmps[u].prev)
    (hpast : diff40 e.pos (piOf (s.key (cmpSource s.cmps[u])) s.fbs[cmpSource s.cmps[u]]) ≤ 0) :
    ∃ t : State, exec (.compareFire u 0) s = .next t ∧ t.cmps[u].out = true ∧ t.cmps[u].idle = true ∧
      t.cmps[u].fired = (s.cmps[u].fired + 1) % 2 ^ 32 ∧ t.out = s.out ++ [.comparePulse u true] := by
  obtain ⟨hout, hend, hfired⟩ := compareAt_one (up := decide (0 ≤ s.fbs[cmpSource s.cmps[u]].vHat)) hcfg hc hdir hen hidle hrep hptr hoff
    hpos hahead hpast
  have hemits : s.seen u =
      (s.modCmp u (compareAt (decide (0 ≤ s.fbs[cmpSource s.cmps[u]].vHat))
        (piOf (s.key (cmpSource s.cmps[u])) s.fbs[cmpSource s.cmps[u]]))).emit (.comparePulse u true) := by
    refine if_neg ?_
    rw [modCmp_self, hfired]
    exact succ_mod_ne _
  refine ⟨_, (compareFire_runs hup).trans (by rw [runFb_zero, hemits]), ?_⟩
  rw [State.emit_cmps, modCmp_self]
  exact ⟨hout, hend, hfired, rfl⟩

/-- A unit that has counted once has passed an entry at half a count. -/
theorem witness_compareFire_fires :
    ∃ (u : CmpId) (c : CompareCfg) (e : CmpEntry) (s : State), coreUp s = true ∧ s.cmps[u].cfg = some c ∧ c.entries = [e] ∧
      e.dir = 0 ∧ s.cmps[u].enable = true ∧ s.cmps[u].idle = false ∧ s.cmps[u].repeatOn = false ∧ s.cmps[u].pointer = 0 ∧
      s.cmps[u].offset = 0 ∧ 0 < diff40 (piOf (s.key (cmpSource s.cmps[u])) s.fbs[cmpSource s.cmps[u]]) s.cmps[u].prev ∧
      0 < diff40 e.pos s.cmps[u].prev ∧ diff40 e.pos (piOf (s.key (cmpSource s.cmps[u])) s.fbs[cmpSource s.cmps[u]]) ≤ 0 :=
  ⟨0, { wCmp with entries := [⟨128, 0⟩] }, ⟨128, 0⟩, { wB1 { wFb 1 with count := 1 } with cmps := tUp.cmps.set 0 { Compare.reset with
    cfg := some { wCmp with entries := [⟨128, 0⟩] }, enable := true, idle := false } }, by decide +kernel⟩

theorem comparePulseEnd_ends (h : s.cmps[u].out = true) :
    exec (.comparePulseEnd u) s = .next ((s.modCmp u fun c => { c with out := false }).emit (.comparePulse u false)) :=
  congrArg Host.Outcome.next (if_pos h)

end Sys2Proof.Machine

open Sys2Proof Sys2Proof.Machine

/-- Settles O52: a line event acts on lines that have stood, and every other event is its guard and, where that holds, its effect on
its own unit, probe or compare unit. Log entry 173 drops a row that comes within the filter time, log entry 168 says what the CRC-6
covers, log entry 35 how a Hall unit starts, and log entry 205 takes a stamp outside the cycle as its start. -/
theorem feedbackEventsAct : Obligations.FeedbackEventsAct := by
  refine ⟨fun _ _ _ _ => hallCodeChange_invalid, fun _ _ _ _ _ _ => hallCodeChange_sectors, fun _ _ _ _ _ => pulseEdge_upDown_acts,
    fun _ _ _ code _ _ => lineEvents_off code, fun _ _ _ _ _ => pulseEdge_off, fun _ _ _ _ _ => pulseEdge_follows,
    fun _ _ _ => serialFrameStart_open, fun _ _ _ => serialFrameStart_opens, fun _ _ _ _ _ => serialFrameEnd_rejects,
    fun _ _ _ _ _ => serialFrameEnd_takes, fun _ _ _ hup ho => ⟨serialFrameTimeout_late hup ho, serialFrameTimeout_early hup ho⟩,
    fun i s ho => ?closed, fun _ _ _ => countExtension_follows, fun _ _ => indexEdge_captures,
    fun _ _ stamp _ => probeEdge_disarmed stamp, fun _ _ _ _ _ => probeEdge_overruns, fun _ _ _ _ => probeEdge_records,
    fun _ _ => comparePulseEnd_ends, fun _ _ _ _ => probeEdge_outside, fun _ _ _ => compareFire_source,
    fun u c e s hup hcfg hc hdir hen hidle hrep hptr hoff => ?fires, fun _ _ _ => compareFire_quiet⟩
  case closed =>
    exact ⟨fun w c => (serialFrame_closed w c 0 ho).1, (serialFrame_closed 0 ⟨0, false, false, false⟩ 0 ho).2⟩
  case fires =>
    intro f q
    simp only [q, advanceFb_zero]
    exact compareFire_fires hup hcfg hc hdir hen hidle hrep hptr hoff
end

section
/-! The family of the flyer engines: what a memory slot and an issue cycle leave of an engine (R195, R197 to R201). -/

namespace Sys2Proof.Machine

variable {e : EngineId} {s : State} {m : MemSlot} {x y z : Engine}

/-! The memory slot (R200, R201). -/

/-- The address registers after a slot's update. -/
def slotAddrs (key : Nat) (x : Engine) (m : MemSlot) (a : Vector (BitVec 20) 8) : Vector (BitVec 20) 8 :=
  if m.upd = 0 then a else a.set (Fin.ofNat 8 m.a.toNat) (slotAddr key x (Fin.ofNat 8 m.a.toNat) m.upd)

/-- `y` is `x` but for sv, the writes under way and local memory: what a slot's access can change. -/
def SlotChange (x y : Engine) : Prop :=
  ∃ (st : BitVec 18) (p : List FlWrite) (l : List (Nat × Sample)), y = { x with status := st, pend := p, local_ := l } ∧
    ∀ b : Nat, b ≠ 4 → st.getLsbD b = x.status.getLsbD b

theorem SlotChange.refl (x : Engine) : SlotChange x x := ⟨_, _, _, rfl, fun _ _ => rfl⟩

theorem SlotChange.sticky (h : SlotChange x y) (b : Bool) : SlotChange x (y.sticky b) := by
  obtain ⟨st, p, l, rfl, hst⟩ := h
  cases b with
  | false => exact ⟨st, p, l, rfl, hst⟩
  | true => exact ⟨setBit st 4 true, p, l, rfl, fun b hb => by rw [getLsbD_setBit _ (by decide), if_neg hb, hst b hb]⟩

theorem SlotChange.store (h : SlotChange x y) (a : Nat) (v : Sample) : SlotChange x (y.store a v) := by
  obtain ⟨st, p, l, rfl, hst⟩ := h
  exact ⟨st, p, _, rfl, hst⟩

theorem SlotChange.put (h : SlotChange x y) (left : Nat) (d : FlDest) : SlotChange x (y.put left d) := by
  obtain ⟨st, p, l, rfl, hst⟩ := h
  exact ⟨st, _, l, rfl, hst⟩

/-- What a slot's access makes of engine `y`, beside which it stands: a load, a store, or a store of an accumulator. -/
def slotAccess (x : Engine) (m : MemSlot) (y : Engine) : Engine :=
  let at_ := x.a[(Fin.ofNat 8 m.a.toNat)].toNat
  match m.op.toNat with
  | 1 => y.putD 2 (reg16 m.reg) (x.load at_)
  | 2 => y.store at_ (x.d m.reg.toNat)
  | 3 => (y.store at_ (x.readOut (acc4 m.reg)).1).sticky (x.readOut (acc4 m.reg)).2
  | _ => y

theorem slotAccess_change (x : Engine) (m : MemSlot) (y : Engine) : SlotChange y (slotAccess x m y) := by
  unfold slotAccess
  dsimp only
  split
  · exact (SlotChange.refl y).put _ _
  · exact (SlotChange.refl y).store _ _
  · exact ((SlotChange.refl y).store _ _).sticky _
  · exact .refl y

theorem slotAccess_none (x y : Engine) (h : m.op = 0) : slotAccess x m y = y := by
  rw [slotAccess, h]
  rfl

/-- A slot is its access and the update of its address register. -/
theorem slotOn_eq (key : Nat) (x : Engine) (m : MemSlot) (y : Engine) :
    slotOn key x m y = { slotAccess x m y with a := slotAddrs key x m y.a } := by
  have ha : (slotAccess x m y).a = y.a := by
    obtain ⟨st, p, l, h, -⟩ := slotAccess_change x m y
    rw [h]
  have hon : slotOn key x m y = if m.upd = 0 then slotAccess x m y else { slotAccess x m y with
      a := (slotAccess x m y).a.set (Fin.ofNat 8 m.a.toNat) (slotAddr key x (Fin.ofNat 8 m.a.toNat) m.upd) } := rfl
  rw [hon, slotAddrs, ha]
  split
  · rw [← ha]
  · rfl

/-! Writes that land (R195). -/

/-- `y` is `x` but for what a landing write can change: the registers of the two levels, mode and the flags of conditions. -/
def Landed (x y : Engine) : Prop :=
  y = { x with bg := y.bg, irq := y.irq, mode := y.mode, condZ := y.condZ, condN := y.condN, condV := y.condV, condC := y.condC, pend := y.pend }

theorem Landed.trans (h : Landed x y) (h' : Landed y z) : Landed x z := by
  unfold Landed at h h' ⊢
  rw [h']
  conv_lhs => rw [h]

theorem landWrite_landed (x : Engine) (d : FlDest) : Landed x (landWrite x d) := by
  cases d with
  | d irq r v => cases irq <;> rfl
  | ac irq r v => cases irq <;> rfl
  | mode v => rfl
  | flags z n v c => rfl

theorem age_landed (x : Engine) (cycles : Nat) : Landed x (x.age cycles) := by
  have hfold : ∀ (l : List FlWrite) (y : Engine), Landed x y → Landed x (l.foldl (fun z w => landWrite z w.dest) y) := by
    intro l
    induction l with
    | nil => exact fun _ hy => hy
    | cons w l ih => exact fun y hy => ih _ (hy.trans (landWrite_landed y w.dest))
  exact hfold _ _ rfl

/-! The group count (R198). -/

/-- The engine after an ordinary instruction has counted in its group; no mode shadow follows it. -/
def Engine.counted (x : Engine) : Engine := { (if 0 < x.gr then x.setGr (x.gr - 1) else x) with shadow := false }

theorem counted_outside (h : x.gr = 0) : x.counted = { x with shadow := false } := by
  rw [Engine.counted, h]
  rfl

theorem setGr_getLsbD (x : Engine) (n : Nat) {b : Nat} (hb : ¬(9 ≤ b ∧ b ≤ 11)) : (x.setGr n).status.getLsbD b = x.status.getLsbD b := by
  have hcount : (BitVec.ofNat 18 (n % 8) <<< 9).getLsbD b = false := by
    rw [BitVec.getLsbD_shiftLeft, BitVec.getLsbD_ofNat]
    by_cases h9 : b < 9
    · simp [h9]
    · have hbig : n % 8 < 2 ^ (b - 9) :=
        (Nat.mod_lt n (by decide)).trans_le (Nat.pow_le_pow_right Nat.two_pos (show 3 ≤ b - 9 by omega))
      simp [Nat.testBit_lt_two_pow hbig]
  by_cases h : b < 18
  · have hmask : (~~~(0xE00 : BitVec 18)).getLsbD b = true := by
      revert hb
      interval_cases b <;> decide
    rw [Engine.setGr, BitVec.getLsbD_or, BitVec.getLsbD_and, hcount, hmask, Bool.and_true, Bool.or_false]
  · rw [BitVec.getLsbD_of_ge _ _ (Nat.not_lt.mp h), BitVec.getLsbD_of_ge _ _ (Nat.not_lt.mp h)]

theorem counted_getLsbD (x : Engine) {b : Nat} (hb : ¬(9 ≤ b ∧ b ≤ 11)) : x.counted.status.getLsbD b = x.status.getLsbD b := by
  unfold Engine.counted
  split
  · exact setGr_getLsbD x _ hb
  · rfl

theorem counted_frame (x : Engine) : x.counted = { x with status := x.counted.status, shadow := false } := by
  unfold Engine.counted
  split <;> rfl

theorem counted_run (x : Engine) : x.counted.run = x.run := by rw [counted_frame]
theorem counted_pend (x : Engine) : x.counted.pend = x.pend := by rw [counted_frame]
theorem counted_lc (x : Engine) : x.counted.lc = x.lc := by rw [counted_frame]
theorem counted_pc (x : Engine) : x.counted.pc = x.pc := by rw [counted_frame]
theorem counted_fab (x : Engine) : x.counted.fab = x.fab := by rw [counted_frame]
theorem counted_order (x : Engine) : x.counted.order = x.order := by rw [counted_frame]

/-! The program counter after an instruction (R197, R199). -/

theorem flowOn_next (cycles : Nat) (h : x.delay = none) : flowOn cycles .next x = loopNext cycles x.counted := by
  unfold flowOn Engine.counted
  by_cases hg : 0 < x.gr <;> simp only [hg, if_true, if_false, Engine.setGr, h]

/-- In a delay slot the branch decides (R197). -/
theorem flowOn_inDelay (cycles : Nat) {at_ : BitVec 14} {target : Option (BitVec 14)} (h : x.delay = some (at_, target)) :
    flowOn cycles .next x = { x.counted with pc := target.getD (x.pc + BitVec.ofNat 14 cycles), delay := none } := by
  unfold flowOn Engine.counted
  cases target <;> by_cases hg : 0 < x.gr <;> simp only [hg, if_true, if_false, Engine.setGr, h, Option.getD_some, Option.getD_none]

/-- A branch leads to its delay slot (R197). -/
theorem flowOn_branch (cycles : Nat) (target : Option (BitVec 14)) (x : Engine) :
    flowOn cycles (.branch target) x = { x.counted with pc := x.pc + 1, delay := some (x.pc, target) } := by
  unfold flowOn Engine.counted
  by_cases hg : 0 < x.gr <;> simp only [hg, if_true, if_false, Engine.setGr]

/-- An engine with no loop under way falls through (R199). -/
theorem loopNext_noLoop (cycles : Nat) (h0 : x.lc[(0 : Fin 2)] = 0) (h1 : x.lc[(1 : Fin 2)] = 0) :
    loopNext cycles x = { x with pc := x.pc + BitVec.ofNat 14 cycles } := by
  simp [loopNext, h0, h1]

end Sys2Proof.Machine
end

section
/-! The family of the flyer engines: helpers, accumulators and register operations (R195, R201, R202, R205). -/

namespace Sys2Proof.Machine

variable {e : EngineId} {s : State} {m : MemSlot} {dst a : BitVec 4}

theorem sincos_runs (h : Issues e s) (hm : SlotLegal m) (hd : dst ≠ 15) :
    RanSlot (.flSincos e dst a m) e m s (s.engines[e].helperOut 3 dst.toNat
      [sin18 (s.key e) (s.engines[e].d a.toNat).toNat, cos18 (s.key e) (s.engines[e].d a.toNat).toNat]) :=
  congrArg Host.Outcome.next (issue_issued 1 h (withSlot_done hm (if_neg hd)))

/-- The registers of CLARKE's operands and results exist (R202). -/
theorem clarke_runs (h : Issues e s) (hm : SlotLegal m) (hd : dst.toNat ≤ 13) (ha : a.toNat ≤ 13) :
    exec (.flClarke e dst a m) s = .next ((s.corrected e m).issued e 1 .next (slotOn (s.key e) s.engines[e] m
      (s.engines[e].helperOut 2 dst.toNat
        (let r := clarkeRaw (s.key e) (s.engines[e].d a.toNat).toInt (s.engines[e].d (a.toNat + 1)).toInt (s.engines[e].d (a.toNat + 2)).toInt
         [r.1, r.2.1, r.2.2])))) :=
  congrArg Host.Outcome.next (issue_issued 1 h (withSlot_done hm (if_neg (by omega))))

/-- A divide step that does not overflow; the divide sequence goes on (R202). -/
theorem divs_runs (h : Issues e s) (hm : SlotLegal m) {y : Engine}
    (hstep : divStep (s.key e) s.engines[e] (acc4 dst) (s.engines[e].d a.toNat) = .inr y) :
    exec (.flDivs e dst a m) s =
      .next ((((s.corrected e m).setEngine e (finishIssue 1 .next (slotOn (s.key e) s.engines[e] m y))).afterIssue e).tick) :=
  congrArg Host.Outcome.next (issue_done 1 true h (withSlot_done hm (by rw [hstep])))

/-- A slot that updates none or another register leaves a value written into one. -/
theorem slotAddrs_set (hfree : ¬(m.upd ≠ 0 ∧ m.a.toNat = dst.toNat % 8)) (key : Nat) (x : Engine) (l : Vector (BitVec 20) 8) (v : BitVec 20) :
    slotAddrs key x m (l.set (addr8 dst) v) = (slotAddrs key x m (l.set (addr8 dst) v)).set (addr8 dst) v := by
  unfold slotAddrs
  split
  · exact (Vector.set_set ..).symm
  next hu =>
    have hne : (Fin.ofNat 8 m.a.toNat).val ≠ (addr8 dst).val := fun he =>
      hfree ⟨hu, (Nat.mod_eq_of_lt (show m.a.toNat < 8 from m.a.isLt)).symm.trans he⟩
    rw [Vector.set_comm _ _ hne, Vector.set_set]

/-- An instruction writes its address register beside a slot that updates none or another (R200, R202). -/
theorem writeAddr_issued (h : Issues e s) (hm : SlotLegal m) (hfree : ¬(m.upd ≠ 0 ∧ m.a.toNat = dst.toNat % 8)) (f : Engine → BitVec 20) :
    writeAddr e m dst f s = (s.corrected e m).issued e 1 .next (slotOn (s.key e) s.engines[e] m
      { s.engines[e] with a := s.engines[e].a.set (addr8 dst) (f s.engines[e]) }) := by
  unfold writeAddr
  refine issue_issued 1 h ?_
  rw [withSlot_done hm rfl]
  simp only [decide_eq_true_eq, if_neg hfree]
  rw [slotOn_eq]
  congr 2
  exact (slotAddrs_set hfree ..).symm

theorem movtc_runs {page : BitVec 4} (h : Issues e s) (hm : SlotLegal m)
    (hc : (s.engines[e].control (page.toNat % 2) dst.toNat).isSome = true) :
    exec (.flMovtc e dst a page m) s = .next ((s.corrected e m).issued e 1 (if page.toNat % 2 = 0 ∧ dst = 0 then .shadow else .next)
      (slotOn (s.key e) s.engines[e] m (s.engines[e].setControl (page.toNat % 2) dst.toNat (s.engines[e].d a.toNat)))) := by
  refine congrArg Host.Outcome.next (issue_issued 1 h (withSlot_done hm (if_neg ?_)))
  rw [Option.isNone_iff_eq_none]
  exact Option.isSome_iff_ne_none.mp hc

end Sys2Proof.Machine

open Sys2Proof Sys2Proof.Machine

/-- Settles O38: each instruction's body on an engine that issues. ADDA and SUBA read the newest value by log
entry 8; the errors of SINCOS, PARK and IPARK are open by log entry 7. -/
theorem helpersAndAccumulatorsTakeTheirWrites : Obligations.HelpersAndAccumulatorsTakeTheirWrites := by
  refine ⟨fun e s m0 m1 m h hm => ?parallel, fun e s dst a m h hm hd => sincos_runs h hm hd,
    fun e s dst a m h hm hd ha => clarke_runs h hm hd ha, fun e s dst a b m h hm => ?park,
    fun e s dst a m h hm => ⟨?wra, ?clra, ?adda, ?suba, fun y hy => divs_runs h hm hy, fun hfree => ?addr⟩,
    fun e s dst a page m h hm hc => movtc_runs h hm hc, fun e s h => ?long⟩
  case parallel => exact congrArg Host.Outcome.next (issueA_issued h hm fun _ x => macSlot x m1 (macSlot x m0 x))
  case park => exact ⟨congrArg Host.Outcome.next (issueA_issued h hm _), congrArg Host.Outcome.next (issueA_issued h hm _)⟩
  case wra => exact congrArg Host.Outcome.next (issueA_issued h hm _)
  case clra => exact congrArg Host.Outcome.next (issueA_issued h hm fun _ x => x.putAc (acc4 dst) 0)
  case adda => exact congrArg Host.Outcome.next (issueA_issued h hm _)
  case suba => exact congrArg Host.Outcome.next (issueA_issued h hm _)
  case addr => exact ⟨congrArg Host.Outcome.next (writeAddr_issued h hm hfree _), congrArg Host.Outcome.next (writeAddr_issued h hm hfree _)⟩
  case long =>
    exact ⟨fun r v => congrArg Host.Outcome.next (issue_issued 2 h rfl), fun r v => congrArg Host.Outcome.next (issue_issued 2 h rfl),
      fun k v => congrArg Host.Outcome.next (issue_issued 2 h rfl)⟩
end

section
/-! The family of the flyer engines: exceptions (R207 to R210). -/

namespace Sys2Proof.Machine

variable {e : EngineId} {s : State} {m : MemSlot} {dst a : BitVec 4} {x : Engine}

/-- An illegal instruction raises exception 1 with its address (R207). -/
theorem issue_isIllegal (cycles : Nat) (keep : Bool) {body : State → Engine → Issue} (h : Issues e s)
    (hb : body s s.engines[e] = illegal s.engines[e]) :
    issue e cycles keep body s = (s.trap e 1 (BitVec.ofNat 32 s.engines[e].pc.toNat)).runtime e :=
  issue_trap cycles keep h (by decide) hb

theorem divs_overflows (h : Issues e s) (hm : SlotLegal m) (h0 : s.engines[e].d a.toNat = 0) :
    exec (.flDivs e dst a m) s = .next ((s.trap e 5 0).runtime e) := by
  have hstep : divStep (s.key e) s.engines[e] (acc4 dst) (s.engines[e].d a.toNat) = .inl (.trap 5 0) := by
    rw [h0]; rfl
  exact congrArg Host.Outcome.next (issue_trap 1 true h (by decide) (withSlot_trap hm (by rw [hstep])))

theorem halt_poisoned (h : Issues e s) {p : Word} (hp : s.engines[e].poison = some p) :
    exec (.flHalt e) s = .next (((s.modEngine e fun x => { x with poison := none }).trap e 3 p).runtime e) := by
  have hbody : exec (.flHalt e) s = .next (((s.modEngine e fun x => { x with poison := none }).trap e 3 (BitVec.ofNat 32 p.toNat)).runtime e) :=
    congrArg Host.Outcome.next (issue_poison 1 false h (by simp only [hp]))
  rw [hbody, BitVec.ofNat_toNat, BitVec.setWidth_eq]

theorem load_ecc (h : Issues e s) (hop : m.op = 1) (hecc : m.ecc = some true) : exec (.flMov e dst a m) s =
    .next ((s.trap e 4 (BitVec.ofNat 32 (s.engines[e].a[(Fin.ofNat 8 m.a.toNat)].toNat % 32768))).runtime e) :=
  congrArg Host.Outcome.next (issue_trap 1 false h (by decide) (withSlot_ecc ⟨hop, hecc⟩))

/-- An engine stops as it takes exception 4 or 6, or any in its exception handler (R209). -/
theorem trap_stops {cause : Nat} {info : Word} (h : cause = 4 ∨ cause = 6 ∨ s.engines[e].xl = true) :
    s.trap e cause info = (s.setEngine e (s.engines[e].except cause info)).engineFault e := by
  refine if_pos ?_
  rcases h with rfl | rfl | h
  · rw [beq_self_eq_true, Bool.or_true, Bool.true_or]
  · rw [beq_self_eq_true, Bool.or_true]
  · rw [h, Bool.true_or, Bool.true_or]

/-- Any other exception is entered and the engine goes on at its handler (R208). -/
theorem trap_enters {cause : Nat} {info : Word} (h4 : cause ≠ 4) (h6 : cause ≠ 6) (hx : s.engines[e].xl = false) :
    s.trap e cause info = s.setEngine e (s.engines[e].except cause info) :=
  if_neg (by rw [hx, beq_eq_false_iff_ne.mpr h4, beq_eq_false_iff_ne.mpr h6]; decide)

theorem flush_settled (h : x.pend = []) : x.flush = x := by
  rw [Engine.flush, h, List.mergeSort_nil, List.foldl_nil, ← h]

/-- What an engine at background level saves as an exception is entered, with no write under way (R208). -/
theorem except_saves (hl : x.lvl = false) (hp : x.pend = []) (cause : Nat) (info : Word) :
    (x.except cause info).pc = 8 ∧ (x.except cause info).xl = true ∧ (x.except cause info).bg.xcause = BitVec.ofNat 3 cause ∧
      (x.except cause info).bg.xinfo = info ∧ (x.except cause info).bg.xpc = (match x.delay with | some (b, _) => b | none => x.pc) ∧
      (x.except cause info).bg.d = x.bg.d ∧ (x.except cause info).a = x.a := by
  rw [Engine.except, flush_settled hp, hl]
  refine ⟨rfl, ?_, rfl, rfl, rfl, rfl, rfl⟩
  rw [Engine.xl, getLsbD_setBit _ (by decide), if_neg (by decide), getLsbD_setBit _ (by decide), if_neg (by decide),
    getLsbD_setBit _ (by decide), if_pos rfl]

/-! XAC and FATM outside the addresses engines may use (R193, R194). -/

/-- A misaligned fabric access raises exception 2 with its address (R207). -/
theorem issue_trap_address (cycles : Nat) {body : State → Engine → Issue} (h : Issues e s) {v : Word}
    (hb : body s s.engines[e] = .trap 2 v.toNat) : issue e cycles false body s = (s.trap e 2 v).runtime e := by
  rw [issue_trap cycles false h (by decide) hb, BitVec.ofNat_toNat, BitVec.setWidth_eq]

theorem xac_writeDenied {r : BitVec 4} {k : BitVec 2} (ac : Bool) {off : Word} (h : Issues e s)
    (hw : xacWrites (xacAddr s.engines[e] k off).toNat = false) :
    exec (.flXac e r k false ac off) s = .next ((s.trap e 2 (xacAddr s.engines[e] k off)).runtime e) := by
  have hbody : runXac e r k false ac off s s.engines[e] = .trap 2 (xacAddr s.engines[e] k off).toNat :=
    if_pos (.inr (.inr ⟨rfl, by rw [hw]; rfl⟩))
  exact congrArg Host.Outcome.next (issue_trap_address 2 h hbody)

theorem fatm_outside {r : BitVec 4} {k : BitVec 2} (swap : Bool) (old : BitVec 15) {off : BitVec 24} (ecc : List EccErr) (h : Issues e s)
    (hlow : (xacAddr s.engines[e] k (off.setWidth 32)).toNat < 0x10000000) :
    exec (.flFatm e r k swap old off ecc) s = .next ((s.trap e 2 (xacAddr s.engines[e] k (off.setWidth 32))).runtime e) :=
  congrArg Host.Outcome.next (issue_trap_address 2 h (if_pos (.inl hlow)))

/-! The watchdog's row (R207). -/

theorem watchdog_serves (hin : s.roles[e].inService = true) (hr : s.engines[e].run ≠ .debug) (handler : Bool) :
    exec (.flyerWatchdogExpiry e handler) s = .next (if handler then (if s.engines[e].lvl then s.trap e 6 1 else s)
      else if 16 ≤ s.roles[e].busy then s.trap e 6 0 else s) := by
  refine congrArg Host.Outcome.next (if_neg ?_)
  rw [hin, Bool.not_true, Bool.false_or, decide_eq_true_eq]
  exact hr

theorem watchdog_early (hb : s.roles[e].busy < 16) : exec (.flyerWatchdogExpiry e false) s = .next s := by
  refine congrArg Host.Outcome.next ?_
  simp only [Nat.not_le.mpr hb, Bool.false_eq_true, if_false, ite_self]

end Sys2Proof.Machine

open Sys2Proof Sys2Proof.Machine

/-- Settles O43: each instruction by the exception it meets, and the entry of an exception by what it saves. -/
theorem faultyInstructionsTrapWithoutEffect : Obligations.FaultyInstructionsTrapWithoutEffect := by
  refine ⟨fun e s dst a m h hm => ⟨divs_overflows h hm, ?sincos, ?grp, fun p hp => halt_poisoned h hp⟩,
    fun e s dst a m h hop hecc => load_ecc h hop hecc, fun e s cause info h => trap_stops h,
    fun e s r k ac off h hw => xac_writeDenied ac h hw, fun e s r k swap old off ecc h hlow => fatm_outside swap old ecc h hlow,
    fun e s cause info hc hx hl hp => ?entry, fun e s hin hr hb => ?expires, fun e s hb => watchdog_early hb,
    fun e s hin hr hl => ?handler⟩
  case sincos => exact congrArg Host.Outcome.next (issue_isIllegal 1 false h (withSlot_trap hm rfl))
  case grp => exact congrArg Host.Outcome.next (issue_isIllegal 1 false h rfl)
  case entry =>
    rw [trap_enters (by omega) (by omega) hx, setEngine_self]
    exact except_saves hl hp cause info
  case expires => rw [watchdog_serves hin hr, if_neg Bool.false_ne_true, if_pos hb]
  case handler => rw [watchdog_serves hin hr, if_pos rfl, if_pos hl]
end

section
/-! The family of the flyer engines: an instruction at an ordinary point of a user's program (R189, R190, R195). -/

namespace Sys2Proof.Machine

variable {e : EngineId} {s : State} {m : MemSlot} {x y : Engine}

theorem Ordinary.issues (h : Ordinary e s) : Issues e s := by
  obtain ⟨hword, -, hrun, -⟩ := h
  exact ⟨.inl hrun, hword⟩

theorem Ordinary.pend (h : Ordinary e s) : s.engines[e].pend = [] := by
  obtain ⟨-, -, -, hpend, -⟩ := h
  exact hpend

theorem noAccess_legal (h : m.op = 0) : SlotLegal m :=
  ⟨fun hc => absurd (h.symm.trans hc.1) (by decide), fun hc => absurd (h.symm.trans hc.1) (by decide)⟩

theorem NoSlot.legal (h : NoSlot m) : SlotLegal m := noAccess_legal h.1

/-- A slot without a load corrects nothing beside an instruction that issues (R191). -/
theorem corrected_noAccess (h : m.op = 0) : s.corrected e m = s := corrected_same (.inl (by rw [h]; decide))

theorem issueA_noSlot (h : Issues e s) (hm : NoSlot m) (f : Nat → Engine → Engine) :
    issueA e m f s = s.issued e 1 .next (f (s.key e) s.engines[e]) := by
  rw [issueA_issued h hm.legal, slotOn_none _ _ _ hm, corrected_noAccess hm.1]

/-! What landing writes leave of an engine. -/

theorem Landed.run (h : Landed x y) : y.run = x.run := by unfold Landed at h; rw [h]
theorem Landed.order (h : Landed x y) : y.order = x.order := by unfold Landed at h; rw [h]
theorem Landed.lc (h : Landed x y) : y.lc = x.lc := by unfold Landed at h; rw [h]
theorem Landed.fab (h : Landed x y) : y.fab = x.fab := by unfold Landed at h; rw [h]
theorem Landed.pc (h : Landed x y) : y.pc = x.pc := by unfold Landed at h; rw [h]

/-- The group count stands in bits 11:9 of status alone. -/
theorem bits_congr {v w : BitVec 18} (h : ∀ b : Nat, 9 ≤ b → v.getLsbD b = w.getLsbD b) : bits v.toNat 11 9 = bits w.toNat 11 9 := by
  refine Nat.eq_of_testBit_eq fun k => ?_
  simp only [bits, Nat.testBit_mod_two_pow, Nat.testBit_div_two_pow]
  rw [BitVec.testBit_toNat, BitVec.testBit_toNat, h _ (by omega)]

theorem setBit_self {w : Nat} (v : BitVec w) {i : Nat} (hi : i < w) : setBit v i (v.getLsbD i) = v := by
  refine BitVec.eq_of_getLsbD_eq fun j _ => ?_
  rw [getLsbD_setBit _ hi]
  split
  next hj => rw [hj]
  · rfl

theorem sticky_eq (x : Engine) (b : Bool) : x.sticky b = { x with status := setBit x.status 4 (x.status.getLsbD 4 || b) } := by
  cases b with
  | true => rw [Bool.or_true]; rfl
  | false => rw [Bool.or_false, setBit_self _ (by decide)]; rfl

/-- What most instructions change of their engine as they issue: status, the writes under way and the address registers. -/
def Engine.write (x : Engine) (st : BitVec 18) (p : List FlWrite) (a : Vector (BitVec 20) 8) : Engine :=
  { x with status := st, pend := p, a := a }

/-- The engine one word on; the divide sequence, which only DIVS continues, is over (R202). -/
def Engine.moved (x : Engine) : Engine := { x with pc := x.pc + 1, divs := none }

/-- With no group, loop, delay slot or mode shadow under way an instruction of one word leads to the next (R197 to R199). -/
theorem flowOn_straight (hdelay : x.delay = none) (hshadow : x.shadow = false) (hgr : x.gr = 0) (h0 : x.lc[(0 : Fin 2)] = 0)
    (h1 : x.lc[(1 : Fin 2)] = 0) : flowOn 1 .next { x with divs := none } = x.moved := by
  have hgr' : Engine.gr { x with divs := none } = 0 := hgr
  rw [flowOn_next (x := { x with divs := none }) 1 hdelay, counted_outside hgr', loopNext_noLoop 1 (by exact h0) (by exact h1)]
  simp only [Engine.moved, hshadow]
  rfl

/-- At an ordinary point the engine goes on by one word, with the writes that are due: neither an interrupt nor a halt nor the
runtime comes between (R195, R198). -/
theorem ordinary_issued (h : Ordinary e s) {st : BitVec 18} (hst : ∀ b : Nat, 9 ≤ b → st.getLsbD b = s.engines[e].status.getLsbD b)
    (p : List FlWrite) (a : Vector (BitVec 20) 8) : s.issued e 1 .next (s.engines[e].write st p a) =
      { s.setEngine e ((s.engines[e].write st p a).moved.age 1) with free := s.free + 1 } := by
  obtain ⟨-, hpc, hrun, -, horder, hdelay, hshadow, hgr, h0, h1, hhalt, hret⟩ := h
  have hgr' : (s.engines[e].write st p a).gr = 0 := (bits_congr hst).trans hgr
  have hflow := flowOn_straight (x := s.engines[e].write st p a) hdelay hshadow hgr' h0 h1
  have hland := age_landed (s.engines[e].write st p a).moved 1
  exact issued_goesOn (congrArg (Engine.age · 1) hflow) (hland.run.trans hrun) (hland.order.trans horder)
    (by rw [hland.pc]; exact hpc) hret hhalt

/-! A data register written (R188, R195). -/

section Landing

variable {l : Bool} {r : Fin 16} {v : Sample}

/-- The registers of the present level after a write of a data register has landed; those of the other stay. -/
theorem landWrite_bank (hl : x.lvl = l) : (landWrite x (.d l r v)).bank = { x.bank with d := x.bank.d.set r v } := by
  have hlvl : (landWrite x (.d l r v)).lvl = l := by cases l <;> exact hl
  rw [Engine.bank, Engine.bank, hlvl, hl]
  cases l <;> rfl

theorem landWrite_status (x : Engine) (l : Bool) (r : Fin 16) (v : Sample) : (landWrite x (.d l r v)).status = x.status := by
  cases l <;> rfl

theorem landWrite_pc (x : Engine) (l : Bool) (r : Fin 16) (v : Sample) : (landWrite x (.d l r v)).pc = x.pc := by cases l <;> rfl

theorem landWrite_other (hl : x.lvl = l) :
    if x.lvl = true then (landWrite x (.d l r v)).bg = x.bg else (landWrite x (.d l r v)).irq = x.irq := by
  rw [hl]
  cases l <;> rfl

theorem reg16_inj {a b : BitVec 4} : reg16 a = reg16 b ↔ a = b := by
  rw [reg16, reg16, Fin.ext_iff, BitVec.toNat_inj.symm]
  have ha := a.isLt
  have hb := b.isLt
  simp only [Fin.val_ofNat]
  omega

theorem landWrite_d {a : BitVec 4} (hl : x.lvl = l) (k : BitVec 4) :
    (landWrite x (.d l (reg16 a) v)).d k.toNat = if k = a then v else x.d k.toNat := by
  rw [Engine.d, landWrite_bank hl]
  show (x.bank.d.set (reg16 a) v)[reg16 k] = _
  by_cases hk : k = a
  · rw [if_pos hk, hk]
    exact Vector.getElem_set_self ..
  · rw [if_neg hk]
    exact Vector.getElem_set_ne _ _ fun he => hk (reg16_inj.mp (Fin.ext he.symm))

/-- The data registers do not move as the engine goes on at its level. -/
theorem write_moved_d {st : BitVec 18} (hl : st.getLsbD 5 = x.lvl) (p : List FlWrite) (a : Vector (BitVec 20) 8) (k : Nat) :
    (x.write st p a).moved.d k = x.d k := by
  have hlvl : (x.write st p a).moved.lvl = x.lvl := hl
  rw [Engine.d, Engine.bank, hlvl]
  rfl

end Landing

end Sys2Proof.Machine
end

section
/-! The family of the flyer engines: reads of accumulators and registers into a data register (R189, R202). -/

namespace Sys2Proof.Machine

variable {e : EngineId} {s : State} {m : MemSlot} {dst a page : BitVec 4}

/-- An instruction that puts a value into a data register and touches no status bit but sv. -/
theorem dataGives_of (h : Ordinary e s) {i : Instr} {st : BitVec 18} {v : Sample} {sv : Bool}
    (hexec : exec i s = .next (s.issued e 1 .next
      (s.engines[e].write st (s.engines[e].pend ++ [⟨1, .d s.engines[e].lvl (reg16 dst) v⟩]) s.engines[e].a)))
    (hsv : st.getLsbD 4 = sv) (hst : ∀ b : Nat, b ≠ 4 → st.getLsbD b = s.engines[e].status.getLsbD b) : DataGives i e s dst v sv := by
  have hnext := ordinary_issued h (fun b hb => hst b (by omega)) (s.engines[e].pend ++ [⟨1, .d s.engines[e].lvl (reg16 dst) v⟩]) s.engines[e].a
  have hpend := h.pend
  have hlvl : (s.engines[e].write st s.engines[e].pend s.engines[e].a).moved.lvl = s.engines[e].lvl := hst 5 (by decide)
  refine ⟨landWrite (s.engines[e].write st s.engines[e].pend s.engines[e].a).moved (.d s.engines[e].lvl (reg16 dst) v), ?next, fun r => ?value,
    landWrite_pc .., ?sv, fun b hb => ?status, ?frame, ?other⟩
  case next =>
    rw [hexec, hnext, hpend]
    rfl
  case value => rw [landWrite_d hlvl, write_moved_d (hst 5 (by decide))]
  case sv => rw [landWrite_status]; exact hsv
  case status => rw [landWrite_status]; exact hst b hb
  case frame => generalize s.engines[e].lvl = l; cases l <;> rfl
  case other => rw [← hlvl]; exact landWrite_other rfl

/-- One of them that leaves sv. -/
theorem dataGives_plain (h : Ordinary e s) (hm : NoSlot m) {i : Instr} {v : Sample} {f : Nat → Engine → Engine}
    (hexec : exec i s = .next (issueA e m f s)) (hf : f (s.key e) s.engines[e] = s.engines[e].putD 1 (reg16 dst) v) :
    DataGives i e s dst v (s.engines[e].status.getLsbD 4) :=
  dataGives_of h (st := s.engines[e].status) (by rw [hexec, issueA_noSlot h.issues hm, hf]; rfl) rfl fun _ _ => rfl

/-- RDA sets sv where the value saturates (R190). -/
theorem rda_gives (h : Ordinary e s) (hm : NoSlot m) : DataGives (.flRda e dst a m) e s dst (s.engines[e].readOut (acc4 a)).1
    (s.engines[e].status.getLsbD 4 || (s.engines[e].readOut (acc4 a)).2) := by
  refine dataGives_of h (st := setBit s.engines[e].status 4 (s.engines[e].status.getLsbD 4 || (s.engines[e].readOut (acc4 a)).2))
    (congrArg Host.Outcome.next ?_) ?sv fun b hb => ?status
  case sv => rw [getLsbD_setBit _ (by decide), if_pos rfl]
  case status => rw [getLsbD_setBit _ (by decide), if_neg hb]
  rw [issueA_noSlot h.issues hm, sticky_eq]
  rfl

theorem movc_gives {v : Sample} (h : Ordinary e s) (hm : NoSlot m) (hp : ¬(page.toNat % 2 = 1 ∧ a = 3))
    (hv : s.engines[e].control (page.toNat % 2) a.toNat = some v) :
    DataGives (.flMovc e dst a page m) e s dst v (s.engines[e].status.getLsbD 4) := by
  have hclears : ∀ x : Engine, readClears (page.toNat % 2) a.toNat x = x := fun x =>
    if_neg fun hc => hp ⟨hc.1, BitVec.eq_of_toNat_eq hc.2⟩
  refine dataGives_of h (st := s.engines[e].status) (congrArg Host.Outcome.next ?_) rfl fun _ _ => rfl
  refine (issue_issued 1 h.issues (withSlot_done hm.legal (t := s) (y := s.engines[e].putD 1 (reg16 dst) v) (fl := .next) ?_)).trans ?_
  · simp only [hv, hclears]
  · rw [slotOn_none _ _ _ hm, corrected_noAccess hm.1]
    rfl

/-! The fields of an accumulator (R202). -/

theorem field_mid (v : BitVec 48) : v.extractLsb' 18 18 = BitVec.ofNat 18 (v.toNat / 2 ^ 18) := by
  rw [BitVec.extractLsb', Nat.shiftRight_eq_div_pow]

theorem field_high (v : BitVec 48) : (v.extractLsb' 36 12).signExtend 18 = BitVec.ofInt 18 (v.toInt / 2 ^ 36) := by
  have htop : (v.extractLsb' 36 12).toInt = v.toInt / 2 ^ 36 := by
    have hv := v.isLt
    rw [BitVec.toInt_eq_toNat_cond, BitVec.toInt_eq_toNat_cond, BitVec.extractLsb'_toNat, Nat.shiftRight_eq_div_pow]
    split <;> split <;> omega
  rw [BitVec.signExtend, htop]

end Sys2Proof.Machine

open Sys2Proof Sys2Proof.Machine

/-- Settles O37: each read puts its value into the data register and leaves the rest, RDA but for sv. -/
theorem accumulatorsAreReadAsFields : Obligations.AccumulatorsAreReadAsFields := by
  refine ⟨fun e s dst a m h hm => ⟨?low, ?mid, ?high, rda_gives h hm, ?addr⟩, fun e s dst a page m v h hm hp hv => movc_gives h hm hp hv⟩
  case low => exact dataGives_plain h hm rfl rfl
  case mid => exact field_mid _ ▸ dataGives_plain h hm rfl rfl
  case high => exact field_high _ ▸ dataGives_plain h hm rfl rfl
  case addr => exact dataGives_plain h hm rfl rfl
end

section
/-! The family of the flyer engines: operations with flags (R189, R190, R202). -/

namespace Sys2Proof.Machine

variable {e : EngineId} {s : State} {m : MemSlot} {dst a b : BitVec 4} {x : Engine}

/-! The stored result and the overflow (R189, R190). -/

theorem satInt_18 (v : Int) : satInt 18 v = if v < -131072 then -131072 else if 131071 < v then 131071 else v := by
  unfold satInt
  split
  · omega
  · split <;> omega

theorem satInt_18_overflows (v : Int) : decide (satInt 18 v ≠ v) = decide (v < -131072 ∨ 131071 < v) := by
  rw [satInt_18, decide_eq_decide]
  split
  · omega
  · split <;> omega

theorem aluStored_eq (x : Engine) (exact : Int) :
    BitVec.ofInt 18 (if x.mode.getLsbD 0 = true then satInt 18 exact else exact) = aluStored x exact := by
  unfold aluStored
  split
  · rw [satInt_18]
    split
    · rfl
    · split <;> rfl
  · rfl

/-- The status an operation leaves, sv given. -/
def aluStatus (x : Engine) (exact : Int) (carry sv : Bool) : BitVec 18 :=
  setBit (setBit (setBit (setBit (setBit x.status 4 sv) 0 (aluStored x exact == 0)) 1 (aluStored x exact).msb) 2
    (decide (exact < -131072 ∨ 131071 < exact))) 3 carry

theorem aluStatus_getLsbD (x : Engine) (exact : Int) (carry sv : Bool) (k : Nat) : (aluStatus x exact carry sv).getLsbD k =
    if k = 3 then carry else if k = 2 then decide (exact < -131072 ∨ 131071 < exact) else if k = 1 then (aluStored x exact).msb
    else if k = 0 then aluStored x exact == 0 else if k = 4 then sv else x.status.getLsbD k := by
  rw [aluStatus, getLsbD_setBit _ (by decide), getLsbD_setBit _ (by decide), getLsbD_setBit _ (by decide), getLsbD_setBit _ (by decide),
    getLsbD_setBit _ (by decide)]

theorem aluStatus_high (x : Engine) (exact : Int) (carry sv : Bool) {k : Nat} (hk : 5 ≤ k) :
    (aluStatus x exact carry sv).getLsbD k = x.status.getLsbD k := by
  rw [aluStatus_getLsbD, if_neg (by omega), if_neg (by omega), if_neg (by omega), if_neg (by omega), if_neg (by omega)]

/-- An operation with flags: its status, the flags that conditions read later, and its result in `dst`. -/
def Engine.alu (x : Engine) (dst : Option (BitVec 4)) (exact : Int) (carry sv : Bool) : Engine :=
  x.write (aluStatus x exact carry sv)
    (x.pend ++ ⟨2, .flags (aluStored x exact == 0) (aluStored x exact).msb (decide (exact < -131072 ∨ 131071 < exact)) carry⟩ ::
      (dst.toList.map fun r => ⟨1, .d x.lvl (reg16 r) (aluStored x exact)⟩)) x.a

theorem setFlags_lvl (x : Engine) (left : Nat) (z n v c : Bool) : (x.setFlags left z n v c).lvl = x.lvl := by
  show (setBit (setBit (setBit (setBit x.status 0 z) 1 n) 2 v) 3 c).getLsbD 5 = _
  rw [getLsbD_setBit _ (by decide), getLsbD_setBit _ (by decide), getLsbD_setBit _ (by decide), getLsbD_setBit _ (by decide)]
  rfl

theorem sticky_lvl (x : Engine) (b : Bool) : (x.sticky b).lvl = x.lvl := by
  rw [sticky_eq]
  exact getLsbD_setBit _ (by decide) _ 5

/-- What `aluOut` makes of an engine: sv sets where the mode saturates an overflow (R190). -/
theorem aluOut_eq (x : Engine) (exact : Int) (carry : Bool) (dst : Option (BitVec 4)) :
    x.aluOut exact carry (dst.map reg16) = x.alu dst exact carry (aluSv x exact) := by
  have hsv : aluSv x exact = (x.status.getLsbD 4 || (decide (exact < -131072 ∨ 131071 < exact) && x.mode.getLsbD 0)) := by
    rw [Bool.and_comm]; rfl
  unfold Engine.aluOut Engine.alu
  simp only [aluStored_eq, satInt_18_overflows, hsv]
  cases dst with
  | none => rw [sticky_eq]; rfl
  | some r =>
    simp only [Option.map_some, Engine.putD, setFlags_lvl, sticky_lvl]
    rw [sticky_eq]
    simp only [Engine.setFlags, Engine.put, List.append_assoc]
    rfl

/-- The engine one word on after an operation with flags: conditions read the new flags an issue cycle later (R195). -/
def Engine.aluMoved (x : Engine) (exact : Int) (carry sv : Bool) : Engine :=
  (x.write (aluStatus x exact carry sv)
    [⟨1, .flags (aluStored x exact == 0) (aluStored x exact).msb (decide (exact < -131072 ∨ 131071 < exact)) carry⟩] x.a).moved

/-- A result lands in the register `dst` of a level, where there is one. -/
def landIn (l : Bool) (dst : Option (BitVec 4)) (v : Sample) (x : Engine) : Engine :=
  match dst with
  | some r => landWrite x (.d l (reg16 r) v)
  | none => x

/-- An operation with flags at an ordinary point. -/
theorem aluGives_of (h : Ordinary e s) {i : Instr} {dst : Option (BitVec 4)} {exact : Int} {carry sv : Bool}
    (hexec : exec i s = .next (s.issued e 1 .next (s.engines[e].alu dst exact carry sv))) : AluGives i e s dst exact carry sv := by
  have hnext := hexec.trans (congrArg Host.Outcome.next (ordinary_issued h (fun k hk => aluStatus_high _ _ _ _ (by omega)) _ s.engines[e].a))
  have hpend := h.pend
  have hlvl : (s.engines[e].aluMoved exact carry sv).lvl = s.engines[e].lvl := aluStatus_high _ _ _ _ (by decide)
  have hd : ∀ k : Nat, (s.engines[e].aluMoved exact carry sv).d k = s.engines[e].d k := write_moved_d hlvl _ _
  have hstatus : (landIn s.engines[e].lvl dst (aluStored s.engines[e] exact) (s.engines[e].aluMoved exact carry sv)).status =
      aluStatus s.engines[e] exact carry sv := by
    cases dst with
    | none => rfl
    | some r => exact landWrite_status ..
  refine ⟨landIn s.engines[e].lvl dst (aluStored s.engines[e] exact) (s.engines[e].aluMoved exact carry sv), ?next, fun k => ?value, ?z, ?n,
    ?v, ?c, ?sticky, fun k hk => ?rest, ?pc, ?pend, ?frame, ?other⟩
  case next =>
    rw [hnext, hpend]
    cases dst <;> rfl
  case value =>
    cases dst with
    | none => exact hd _
    | some r =>
      refine (landWrite_d hlvl k).trans ?_
      rw [hd]
      simp only [Option.some.injEq, eq_comm]
  case z => rw [hstatus, aluStatus_getLsbD]; rfl
  case n => rw [hstatus, aluStatus_getLsbD]; rfl
  case v => rw [hstatus, aluStatus_getLsbD]; rfl
  case c => rw [hstatus, aluStatus_getLsbD]; rfl
  case sticky => rw [hstatus, aluStatus_getLsbD]; rfl
  case rest => rw [hstatus, aluStatus_high _ _ _ _ hk]
  case pc =>
    cases dst with
    | none => rfl
    | some r => exact landWrite_pc ..
  case pend =>
    simp only [hstatus, aluStatus_getLsbD]
    generalize s.engines[e].lvl = l
    cases dst <;> cases l <;> rfl
  case frame =>
    generalize s.engines[e].lvl = l
    cases dst <;> cases l <;> rfl
  case other =>
    rw [← hlvl]
    cases dst with
    | none => cases (s.engines[e].aluMoved exact carry sv).lvl <;> rfl
    | some r => exact landWrite_other rfl

/-- An A-format operation whose result is exact, with sv as its saturation gives it. -/
theorem aluGives_issueA (h : Ordinary e s) (hm : NoSlot m) {i : Instr} {f : Nat → Engine → Engine} {exact : Int} {carry c : Bool}
    (hexec : exec i s = .next (issueA e m f s)) (hf : f (s.key e) s.engines[e] = s.engines[e].aluOut exact carry (some (reg16 dst)))
    (hc : carry = c) : AluGives i e s (some dst) exact c (aluSv s.engines[e] exact) := by
  refine aluGives_of h ?_
  rw [hexec, issueA_noSlot h.issues hm, hf, ← hc]
  exact congrArg (fun y => Host.Outcome.next (s.issued e 1 .next y)) (aluOut_eq s.engines[e] exact carry (some dst))

/-- CMP writes no register and leaves sv (R202). -/
theorem cmp_engine (x : Engine) (exact : Int) (carry : Bool) :
    { x.aluOut exact carry none with status := setBit (x.aluOut exact carry none).status 4 (x.status.getLsbD 4) } =
      x.alu none exact carry (x.status.getLsbD 4) := by
  have hstatus : setBit (aluStatus x exact carry (aluSv x exact)) 4 (x.status.getLsbD 4) = aluStatus x exact carry (x.status.getLsbD 4) := by
    refine BitVec.eq_of_getLsbD_eq fun k _ => ?_
    rw [getLsbD_setBit _ (by decide), aluStatus_getLsbD, aluStatus_getLsbD]
    by_cases hk : k = 4
    · simp [hk]
    · simp [hk]
  rw [show x.aluOut exact carry none = _ from aluOut_eq x exact carry none, Engine.alu, Engine.alu, ← hstatus]
  rfl

theorem cmp_gives (h : Ordinary e s) (hm : NoSlot m) : AluGives (.flCmp e dst a b m) e s none
    ((s.engines[e].d a.toNat).toInt - (s.engines[e].d b.toNat).toInt)
    (subCarry (s.engines[e].d a.toNat) (s.engines[e].d b.toNat)) (s.engines[e].status.getLsbD 4) :=
  aluGives_of h (congrArg Host.Outcome.next ((issueA_noSlot h.issues hm _).trans
    (congrArg (fun y => s.issued e 1 .next y) (cmp_engine s.engines[e] _ _))))

/-! Carries and shifts (R190, R202). -/

theorem subCarry_eq (a b : Sample) : subCarry a b = decide (b.toNat ≤ a.toNat) := by
  unfold subCarry carryOf
  rw [decide_eq_decide, BitVec.toNat_not]
  have hb := b.isLt
  omega

theorem negCarry_eq (a : Sample) : subCarry 0 a = decide (a = 0) := by
  rw [subCarry_eq, decide_eq_decide]
  exact ⟨fun h => BitVec.eq_of_toNat_eq (Nat.le_zero.mp h), fun h => h ▸ Nat.le_refl _⟩

theorem bit_eq_testBit (v i : Nat) : bit v i = v.testBit i := by
  rw [bit, Nat.testBit_eq_decide_div_mod_eq]
  rfl

theorem asr_eq (v : Sample) (n : Nat) : asr v.toInt n = (v.sshiftRight n).toInt := by
  rw [BitVec.toInt_sshiftRight, Int.shiftRight_eq_div_pow, asr]

end Sys2Proof.Machine

open Sys2Proof Sys2Proof.Machine

/-- Settles O35: each operation is its exact result and its carry on an engine at an ordinary point. Log entry 8 has c 0 where no sum
leaves bit 17, and leaves sv in CMP. -/
theorem aluInstructionsSetTheirResultAndFlags : Obligations.AluInstructionsSetTheirResultAndFlags := by
  intro e s dst a b m h hm
  refine ⟨?add, ?sub, ?neg, ?abs, ?and, ?or, ?xor, ?not, ?shl, ?shr, ?asr, ?mov, ?cmp, ?min, ?max, ?wrap⟩
  case add => exact aluGives_issueA h hm rfl rfl rfl
  case sub => exact aluGives_issueA h hm rfl rfl (subCarry_eq _ _)
  case neg => exact aluGives_issueA h hm rfl rfl (negCarry_eq _)
  case abs => exact aluGives_issueA h hm rfl rfl rfl
  case and => exact aluGives_issueA h hm rfl rfl rfl
  case or => exact aluGives_issueA h hm rfl rfl rfl
  case xor => exact aluGives_issueA h hm rfl rfl rfl
  case not => exact aluGives_issueA h hm rfl rfl rfl
  case shl => exact aluGives_issueA h hm rfl rfl (bit_eq_testBit _ _)
  case shr => exact aluGives_issueA h hm rfl rfl rfl
  case asr => exact asr_eq _ _ ▸ aluGives_issueA h hm rfl rfl rfl
  case mov => exact aluGives_issueA h hm rfl rfl rfl
  case cmp => exact subCarry_eq _ _ ▸ cmp_gives h hm
  case min => exact aluGives_issueA h hm rfl rfl rfl
  case max => exact aluGives_issueA h hm rfl rfl rfl
  case wrap => exact aluGives_issueA h hm rfl rfl (subCarry_eq _ _)
end

section
/-! The family of the flyer engines: MAXI and MINI (R200, R203). -/

namespace Sys2Proof.Machine

variable {e : EngineId} {s : State} {m : MemSlot} {dst c k : BitVec 4} {better : Int → Int → Bool} {x : Engine}

/-- An even register and the one after it are two. -/
theorem even_next (h : dst.getLsbD 0 = false) : dst ≠ dst + 1 := by
  revert h dst
  decide

/-- The engine one word on, with what the slot makes of its address registers. -/
def Engine.slotMoved (key : Nat) (m : MemSlot) (x : Engine) : Engine := (x.write x.status x.pend (slotAddrs key x m x.a)).moved

/-- The candidate and its index in `dst` and the register after it (R203). -/
def Engine.keepExtreme (x : Engine) (dst : BitVec 4) (v index : Sample) (y : Engine) : Engine :=
  landWrite (landWrite y (.d x.lvl (reg16 dst) v)) (.d x.lvl (reg16 (dst + 1)) index)

theorem keepExtreme_d {y : Engine} (hl : y.lvl = x.lvl) (v index : Sample) (r : BitVec 4) : (x.keepExtreme dst v index y).d r.toNat =
    if r = dst + 1 then index else if r = dst then v else y.d r.toNat := by
  have hl' : (landWrite y (.d x.lvl (reg16 dst) v)).lvl = x.lvl := (congrArg (·.getLsbD 5) (landWrite_status ..)).trans hl
  rw [Engine.keepExtreme, landWrite_d hl', landWrite_d hl]

/-- The two registers alone change. -/
theorem keepExtreme_frame (x : Engine) (dst : BitVec 4) (v index : Sample) (y : Engine) :
    x.keepExtreme dst v index y = { y with bg := { y.bg with d := (x.keepExtreme dst v index y).bg.d }
                                           irq := { y.irq with d := (x.keepExtreme dst v index y).irq.d } } ∧
      if x.lvl = true then (x.keepExtreme dst v index y).bg = y.bg else (x.keepExtreme dst v index y).irq = y.irq := by
  unfold Engine.keepExtreme
  generalize x.lvl = l
  cases l <;> exact ⟨rfl, rfl⟩

theorem slotAddrs_get (key : Nat) (x : Engine) (m : MemSlot) (r : Fin 8) : (slotAddrs key x m x.a)[r] =
    if m.upd ≠ 0 ∧ r.val = m.a.toNat then slotAddr key x r m.upd else x.a[r] := by
  have ha : (Fin.ofNat 8 m.a.toNat).val = m.a.toNat := Nat.mod_eq_of_lt (show m.a.toNat < 8 from m.a.isLt)
  unfold slotAddrs
  by_cases hu : m.upd = 0
  · rw [if_pos hu, if_neg fun hc => hc.1 hu]
  · rw [if_neg hu]
    by_cases hr : r.val = m.a.toNat
    · obtain rfl : r = Fin.ofNat 8 m.a.toNat := Fin.ext (hr.trans ha.symm)
      rw [if_pos ⟨hu, hr⟩]
      exact Vector.getElem_set_self ..
    · rw [if_neg fun hc => hr hc.2]
      exact Vector.getElem_set_ne _ _ fun he => hr (he.symm.trans ha)

/-- An instruction beside a slot without an access, at an ordinary point. -/
theorem ordinary_slot (h : Ordinary e s) (hop : m.op = 0) {p : List FlWrite} {body : State → Engine → Issue}
    (hbody : body s s.engines[e] = .done s (s.engines[e].write s.engines[e].status p s.engines[e].a) .next) :
    issue e 1 false (withSlot e m body) s = { s.setEngine e ((s.engines[e].write s.engines[e].status p
      (slotAddrs (s.key e) s.engines[e] m s.engines[e].a)).moved.age 1) with free := s.free + 1 } := by
  rw [issue_issued 1 h.issues (withSlot_done (noAccess_legal hop) hbody), slotOn_eq, slotAccess_none _ _ hop, corrected_noAccess hop]
  exact ordinary_issued h (fun _ _ => rfl) p _

/-- The index MAXI and MINI keep: the address register as it stood before the slot's update (R203). -/
def Engine.indexOf (x : Engine) (k : BitVec 4) : Sample := BitVec.ofNat 18 x.a[(Fin.ofNat 8 k.toNat)].toNat

theorem extremeIndex_keeps (h : Ordinary e s) (hop : m.op = 0) (heven : dst.getLsbD 0 = false)
    (hb : better (s.engines[e].d c.toNat).toInt (s.engines[e].d dst.toNat).toInt = true) : extremeIndex better e dst c k m s =
      { s.setEngine e (s.engines[e].keepExtreme dst (s.engines[e].d c.toNat) (s.engines[e].indexOf k) (s.engines[e].slotMoved (s.key e) m)) with
        free := s.free + 1 } := by
  have hindex : (Fin.ofNat 8 (k.toNat % 8)) = Fin.ofNat 8 k.toNat := Fin.ext (Nat.mod_mod ..)
  have hpend := h.pend
  refine (ordinary_slot h hop (p := s.engines[e].pend ++ [⟨1, .d s.engines[e].lvl (reg16 dst) (s.engines[e].d c.toNat)⟩] ++
    [⟨1, .d s.engines[e].lvl (reg16 (dst + 1)) (s.engines[e].indexOf k)⟩]) ?_).trans ?_
  · simp only [heven, hb, Bool.false_eq_true, if_false, if_true, hindex, Engine.indexOf, BitVec.ofNat_toNat]
    rfl
  · simp only [Engine.keepExtreme, Engine.slotMoved, hpend]
    rfl

theorem extremeIndex_leaves (h : Ordinary e s) (hop : m.op = 0) (heven : dst.getLsbD 0 = false)
    (hb : better (s.engines[e].d c.toNat).toInt (s.engines[e].d dst.toNat).toInt = false) : extremeIndex better e dst c k m s =
      { s.setEngine e (s.engines[e].slotMoved (s.key e) m) with free := s.free + 1 } := by
  have hpend := h.pend
  refine (ordinary_slot h hop (p := s.engines[e].pend) ?_).trans ?_
  · simp only [heven, hb, Bool.false_eq_true, if_false]
    rfl
  · simp only [Engine.slotMoved, hpend]
    rfl

theorem extremeGives_of (h : Ordinary e s) (hop : m.op = 0) (heven : dst.getLsbD 0 = false) {i : Instr} {P : Prop}
    (hexec : exec i s = .next (extremeIndex better e dst c k m s))
    (hP : better (s.engines[e].d c.toNat).toInt (s.engines[e].d dst.toNat).toInt = true ↔ P) : ExtremeGives i e s dst c k m P := by
  cases hb : better (s.engines[e].d c.toNat).toInt (s.engines[e].d dst.toNat).toInt with
  | true =>
    have hyes : P := hP.mp hb
    have hd := keepExtreme_d (x := s.engines[e]) (dst := dst) (y := s.engines[e].slotMoved (s.key e) m) rfl (s.engines[e].d c.toNat)
      (s.engines[e].indexOf k)
    obtain ⟨hframe, hother⟩ := keepExtreme_frame s.engines[e] dst (s.engines[e].d c.toNat) (s.engines[e].indexOf k)
      (s.engines[e].slotMoved (s.key e) m)
    refine ⟨_, hexec.trans (congrArg Host.Outcome.next (extremeIndex_keeps h hop heven hb)), fun _ => ⟨?best, ?index⟩, fun r hr => ?others,
      fun r => ?addr, ?pc, ?frame, hother⟩
    case best => rw [hd, if_neg (even_next heven), if_pos rfl]
    case index => rw [hd, if_pos rfl]; rfl
    case others => rw [hd, if_neg (hr hyes).2, if_neg (hr hyes).1]; rfl
    case addr => rw [hframe]; exact slotAddrs_get ..
    case pc => rw [hframe]; rfl
    case frame =>
      unfold Engine.keepExtreme
      generalize s.engines[e].lvl = l
      cases l <;> rfl
  | false =>
    have hno : ¬P := fun hp => by rw [hP.mpr hp] at hb; exact absurd hb (by decide)
    refine ⟨_, hexec.trans (congrArg Host.Outcome.next (extremeIndex_leaves h hop heven hb)), fun hp => absurd hp hno, fun r _ => rfl,
      fun r => slotAddrs_get .., rfl, rfl, ?other⟩
    case other => split <;> rfl

end Sys2Proof.Machine

open Sys2Proof Sys2Proof.Machine

/-- Settles O36: both keep their candidate where it is strictly better, and are illegal with an odd register. -/
theorem maxiAndMiniKeepTheFirstExtreme : Obligations.MaxiAndMiniKeepTheFirstExtreme := by
  refine ⟨fun e s dst c k m h hop heven =>
      ⟨extremeGives_of h hop heven rfl decide_eq_true_iff, extremeGives_of h hop heven rfl decide_eq_true_iff⟩,
    fun e s dst c k m h hm hodd => ?odd⟩
  case odd =>
    exact ⟨congrArg Host.Outcome.next (issue_isIllegal 1 false h (withSlot_trap hm (if_pos hodd))),
      congrArg Host.Outcome.next (issue_isIllegal 1 false h (withSlot_trap hm (if_pos hodd)))⟩
end

section
/-! The family of the flyer engines: branches and their delay slot (R197, R204). -/

namespace Sys2Proof.Machine

variable {e : EngineId} {s : State} {m : MemSlot} {dst a c : BitVec 4} {x y : Engine}

/-! What an instruction with flags and its slot leave of their engine. -/

/-- `y` is `x` but for status, whose bits from 5 on stand, the writes under way, local memory and the address registers. -/
def SlottedChange (x y : Engine) : Prop :=
  ∃ (st : BitVec 18) (p : List FlWrite) (l : List (Nat × Sample)) (r : Vector (BitVec 20) 8),
    y = { x with status := st, pend := p, local_ := l, a := r } ∧ ∀ b : Nat, 5 ≤ b → st.getLsbD b = x.status.getLsbD b

theorem alu_slotted (key : Nat) (x : Engine) (m : MemSlot) (dst : Option (BitVec 4)) (exact : Int) (carry sv : Bool) :
    SlottedChange x (slotOn key x m (x.alu dst exact carry sv)) := by
  obtain ⟨st, p, l, hy, hst⟩ := slotAccess_change x m (x.alu dst exact carry sv)
  rw [slotOn_eq, hy]
  exact ⟨st, p, l, _, rfl, fun b hb => (hst b (by omega)).trans (aluStatus_high _ _ _ _ hb)⟩

theorem modRole_self (s : State) (e : EngineId) (f : EngineRole → EngineRole) : (s.modRole e f).roles[e] = f s.roles[e] :=
  Vector.getElem_set_self ..

/-- Counting corrected words moves no engine to another and no halt (R191). -/
theorem countLocal_role (s : State) (e : EngineId) (n : Nat) :
    (s.countLocal e n).roles[e].retiring = s.roles[e].retiring ∧ (s.countLocal e n).roles[e].haltDue = s.roles[e].haltDue := by
  unfold State.countLocal
  split
  · exact ⟨rfl, rfl⟩
  · rw [modRole_self]
    exact ⟨rfl, rfl⟩

theorem aluStored_toInt (x : Engine) (v : Sample) : aluStored x v.toInt = v := by
  have hlow := BitVec.le_toInt v
  have hhigh := BitVec.toInt_lt (x := v)
  unfold aluStored
  simp only [show ¬ v.toInt < -131072 by omega, show ¬ 131071 < v.toInt by omega, if_false, BitVec.ofInt_toInt, ite_self]

/-! The branch. -/

/-- The engine after a branch: it waits for its delay slot (R197). -/
def Engine.branched (x : Engine) (lr : BitVec 14) (target : Option (BitVec 14)) : Engine :=
  { x with lr := lr, pc := x.pc + 1, delay := some (x.pc, target), divs := none }

theorem age_settled (h : x.pend = []) (cycles : Nat) : x.age cycles = x := by
  rw [Engine.age, h]
  show { x with pend := [] } = x
  rw [← h]

theorem branchTo_issued (h : Ordinary e s) {taken : Bool} (hc : s.engines[e].cond c = some taken) (target : Engine → BitVec 14)
    {f : Engine → Engine} (link : Engine → BitVec 14) (hf : ∀ x, f x = { x with lr := link x }) :
    issue e 1 false (branchTo c target f) s = (s.setEngine e (s.engines[e].branched
      (if taken then link s.engines[e] else s.engines[e].lr) (if taken then some (target s.engines[e]) else none))).tick := by
  have hbody : branchTo c target f s s.engines[e] = .done s { s.engines[e] with lr := if taken then link s.engines[e] else s.engines[e].lr }
      (.branch (if taken then some (target s.engines[e]) else none)) := by
    cases taken with
    | true => simp only [branchTo, hc, hf, if_true]
    | false => simp only [branchTo, hc, Bool.false_eq_true, if_false]
  rw [issue_issued 1 h.issues hbody]
  obtain ⟨-, hpc, hrun, hpend, horder, -, hshadow, hgr, -, -, hhalt, hret⟩ := h
  generalize (if taken then link s.engines[e] else s.engines[e].lr) = lr
  generalize (if taken then some (target s.engines[e]) else none) = t
  refine issued_goesOn ?_ hrun horder hpc hret hhalt
  rw [flowOn_branch, counted_outside (by exact hgr), age_settled (by exact hpend)]
  simp only [Engine.branched, hshadow]

/-- A result lands as its instruction ends, the flags for conditions one issue cycle later (R195). -/
theorem age_result {f : FlDest} {l : Bool} {r : Fin 16} {v : Sample} (h : x.pend = [⟨2, f⟩, ⟨1, .d l r v⟩]) :
    x.age 1 = landWrite { x with pend := [⟨1, f⟩] } (.d l r v) := by
  rw [Engine.age, h]
  rfl

/-- The engine of a MOV as it issues, beside its slot. -/
def Engine.mov (key : Nat) (x : Engine) (dst a : BitVec 4) (m : MemSlot) : Engine :=
  slotOn key x m (x.alu (some dst) (x.d a.toNat).toInt false (aluSv x (x.d a.toNat).toInt))

theorem mov_issued (h : Issues e s) (hm : SlotLegal m) :
    exec (.flMov e dst a m) s = .next ((s.corrected e m).issued e 1 .next (s.engines[e].mov (s.key e) dst a m)) := by
  refine congrArg Host.Outcome.next ((issueA_issued h hm _).trans ?_)
  exact congrArg (fun y => (s.corrected e m).issued e 1 .next (slotOn (s.key e) s.engines[e] m y)) (aluOut_eq _ _ _ (some dst))

theorem mov_noAccess (key : Nat) (x : Engine) (hop : m.op = 0) : x.mov key dst a m =
    { x.alu (some dst) (x.d a.toNat).toInt false (aluSv x (x.d a.toNat).toInt) with a := slotAddrs key x m x.a } := by
  rw [Engine.mov, slotOn_eq, slotAccess_none _ _ hop]
  rfl

theorem mov_slotted (key : Nat) (x : Engine) (dst a : BitVec 4) (m : MemSlot) : SlottedChange x (x.mov key dst a m) := alu_slotted ..

/-- The engine as an instruction has ended, before its program counter moves. -/
def Engine.ended (x : Engine) : Engine := Engine.counted { x with divs := none }

/-- The engine that has come out of a delay slot. -/
def Engine.leftSlot (x : Engine) (target : Option (BitVec 14)) : Engine := { x.ended with pc := target.getD (x.pc + 1), delay := none }

theorem leftSlot_pend (x : Engine) (target : Option (BitVec 14)) : (x.leftSlot target).pend = x.pend := counted_pend _

theorem leftSlot_lvl (x : Engine) (target : Option (BitVec 14)) : (x.leftSlot target).lvl = x.lvl := counted_getLsbD _ (by decide)

/-- An instruction in a delay slot, in the user's code, leads to where the branch goes (R197). -/
theorem issued_inDelay {at_ : BitVec 14} {target : Option (BitVec 14)} (hdelay : y.delay = some (at_, target)) (hrun : y.run = .running)
    (horder : y.order = []) (hpc : 4096 ≤ (target.getD (y.pc + 1)).toNat) (hret : s.roles[e].retiring = none)
    (hhalt : s.roles[e].haltDue = false) : s.issued e 1 .next y = (s.setEngine e ((y.leftSlot target).age 1)).tick := by
  have hland := age_landed (y.leftSlot target) 1
  refine issued_goesOn (congrArg (Engine.age · 1) (flowOn_inDelay 1 hdelay)) ?_ ?_ (by rw [hland.pc]; exact hpc) hret hhalt
  · exact hland.run.trans ((counted_run _).trans hrun)
  · exact hland.order.trans ((counted_order _).trans horder)

/-- In a delay slot a MOV has its effect, and the branch then decides (R197). -/
theorem mov_inDelay (h : Issues e s) (hm : SlotLegal m) (hrun : s.engines[e].run = .running) (horder : s.engines[e].order = [])
    (hpend : s.engines[e].pend = []) (hret : s.roles[e].retiring = none) (hhalt : s.roles[e].haltDue = false) {at_ : BitVec 14}
    {target : Option (BitVec 14)} (hdelay : s.engines[e].delay = some (at_, target)) (hpc : 4096 ≤ (target.getD (s.engines[e].pc + 1)).toNat) :
    ∃ t : State, exec (.flMov e dst a m) s = .next t ∧ t.engines[e].pc = target.getD (s.engines[e].pc + 1) ∧
      (m.op = 0 → t.engines[e].d dst.toNat = s.engines[e].d a.toNat) := by
  obtain ⟨hret', hhalt'⟩ := countLocal_role s e (if m.op = 1 ∧ m.ecc = some false then 1 else 0)
  obtain ⟨st, p, l, r, hy, hst⟩ := mov_slotted (s.key e) s.engines[e] dst a m
  have hissued := issued_inDelay (s := s.corrected e m) (y := s.engines[e].mov (s.key e) dst a m) (by rw [hy]; exact hdelay)
    (by rw [hy]; exact hrun) (by rw [hy]; exact horder) (by rw [hy]; exact hpc) (hret'.trans hret) (hhalt'.trans hhalt)
  refine ⟨_, (mov_issued h hm).trans (congrArg Host.Outcome.next hissued), ?_, fun hop => ?_⟩
  · rw [State.tick_engines, setEngine_self, (age_landed _ _).pc, hy]
    rfl
  · rw [State.tick_engines, setEngine_self]
    rw [mov_noAccess _ _ hop, age_result ((leftSlot_pend _ target).trans (congrArg (· ++ _) hpend)), landWrite_d, if_pos rfl, aluStored_toInt]
    exact (leftSlot_lvl _ target).trans (aluStatus_high _ _ _ _ (by decide))

theorem cond_illegal (h : 13 ≤ c.toNat) (x : Engine) : x.cond c = none := by
  obtain ⟨k, hk⟩ := Nat.exists_eq_add_of_le' h
  rw [Engine.cond, hk]
  rfl

/-- A branch and the MOV in its delay slot (R197). -/
theorem branch_thenMov (h : Ordinary e s) (hm : SlotLegal m) (hword : GoodWord e (s.setEngine e { s.engines[e] with pc := s.engines[e].pc + 1 }))
    {taken : Bool} (hc : s.engines[e].cond c = some taken) (hfall : 4096 ≤ (s.engines[e].pc + 2).toNat) (target : Engine → BitVec 14)
    (htarget : 4096 ≤ (target s.engines[e]).toNat) {f : Engine → Engine} (link : Engine → BitVec 14)
    (hf : ∀ x, f x = { x with lr := link x }) {i : Instr} (hexec : exec i s = .next (issue e 1 false (branchTo c target f) s)) :
    ∃ s1 s2 : State, exec i s = .next s1 ∧ exec (.flMov e dst a m) s1 = .next s2 ∧ s1.engines[e].pc = s.engines[e].pc + 1 ∧
      s1.engines[e].lr = (if taken = true then link s.engines[e] else s.engines[e].lr) ∧
      s2.engines[e].pc = (if taken = true then target s.engines[e] else s.engines[e].pc + 2) ∧
      (m.op = 0 → s2.engines[e].d dst.toNat = s.engines[e].d a.toNat) := by
  have hnext := hexec.trans (congrArg Host.Outcome.next (branchTo_issued h hc target link hf))
  have hpend := h.pend
  obtain ⟨-, -, hrun, -, horder, -, -, -, -, -, hhalt, hret⟩ := h
  generalize ht : (if taken then some (target s.engines[e]) else none) = t at hnext
  generalize (if taken then link s.engines[e] else s.engines[e].lr) = lr at hnext ⊢
  have hgoes : t.getD (s.engines[e].pc + 1 + 1) = if taken = true then target s.engines[e] else s.engines[e].pc + 2 := by
    rw [← ht]
    cases taken
    · exact BitVec.add_assoc ..
    · rfl
  have hengine : (s.setEngine e (s.engines[e].branched lr t)).tick.engines[e] = s.engines[e].branched lr t := by
    rw [State.tick_engines, setEngine_self]
  have hissues : Issues e (s.setEngine e (s.engines[e].branched lr t)).tick := by
    rw [GoodWord, setEngine_self] at hword
    refine ⟨.inl ?_, ?_⟩
    · rw [hengine]; exact hrun
    · rw [GoodWord, hengine]; exact hword
  obtain ⟨s2, h2, hpc2, hd⟩ := mov_inDelay (dst := dst) (a := a) hissues hm (by rw [hengine]; exact hrun) (by rw [hengine]; exact horder)
    (by rw [hengine]; exact hpend) hret hhalt (by rw [hengine]; rfl) (by
      rw [hengine]
      refine (le_of_le_of_eq ?_ (congrArg BitVec.toNat hgoes.symm))
      split
      · exact htarget
      · exact hfall)
  refine ⟨_, s2, hnext, h2, by rw [hengine]; rfl, by rw [hengine]; rfl, ?_, fun hop => ?_⟩
  · rw [hpc2, hengine]; exact hgoes
  · rw [hd hop, hengine]; rfl

end Sys2Proof.Machine

open Sys2Proof Sys2Proof.Machine

/-- Settles O39: a branch and the MOV of its delay slot, once for the three branches. -/
theorem branchesHaveOneDelaySlot : Obligations.BranchesHaveOneDelaySlot := by
  refine ⟨fun e s c target dst a m taken h hm hword hc hfall htarget hlr => ⟨?br, ?call, ?ret⟩, fun e s c target h hc => ?illegal⟩
  case br =>
    obtain ⟨s1, s2, h1, h2, hpc, hlink, hrest⟩ := branch_thenMov (dst := dst) (a := a) h hm hword hc hfall (fun _ => target) htarget
      Engine.lr (f := id) (fun _ => rfl) (i := .flBr e c target) rfl
    exact ⟨s1, s2, h1, h2, hpc, hlink.trans (ite_self _), hrest⟩
  case call =>
    exact branch_thenMov h hm hword hc hfall (fun _ => target) htarget Engine.afterDelay (fun _ => rfl) rfl
  case ret =>
    obtain ⟨s1, s2, h1, h2, hpc, hlink, hrest⟩ := branch_thenMov (dst := dst) (a := a) h hm hword hc hfall Engine.lr hlr
      Engine.lr (f := id) (fun _ => rfl) (i := .flRet e c) rfl
    exact ⟨s1, s2, h1, h2, hpc, hlink.trans (ite_self _), hrest⟩
  case illegal =>
    have hillegal : ∀ (target : Engine → BitVec 14) (f : Engine → Engine), branchTo c target f s s.engines[e] = illegal s.engines[e] :=
      fun target f => by simp only [branchTo, cond_illegal hc]
    exact ⟨congrArg Host.Outcome.next (issue_isIllegal 1 false h (hillegal _ _)),
      congrArg Host.Outcome.next (issue_isIllegal 1 false h (hillegal _ _)), congrArg Host.Outcome.next (issue_isIllegal 1 false h (hillegal _ _))⟩
end

section
/-! The family of the flyer engines: hardware loops (R199, R204, R205). -/

namespace Sys2Proof.Machine

variable {e : EngineId} {s : State} {m : MemSlot} {dst a : BitVec 4} {x y : Engine}

/-- A loop level set up by an instruction of `size` words (R199). -/
def Engine.looping (x : Engine) (k : Fin 2) (size : Nat) (count : Sample) (le : BitVec 14) : Engine :=
  { x with ls := x.ls.set k (x.pc + BitVec.ofNat 14 size), le := x.le.set k le, lc := x.lc.set k count
           status := setBit x.status (16 + k.val) x.lvl }

theorem startLoop_level (k : Fin 2) (size : Nat) (count : Sample) (le : BitVec 14) (s : State) (x : Engine) :
    startLoop (decide (k = 1)) size count le s x = .done s (x.looping k size count le) (if count = 0 then .jump (le + 1) else .next) := by
  match k with
  | 0 => rfl
  | 1 => rfl

/-! The end of a loop of level 0, with none of level 1 (R199). -/

/-- Level 0 counts at an instruction that stands at its le, at its own level and outside an exception handler. -/
structure Engine.AtLoopEnd (x : Engine) : Prop where
  place : x.pc = x.le[(0 : Fin 2)]
  inner : x.lc[(1 : Fin 2)] = 0
  level : x.status.getLsbD 16 = x.lvl
  handler : x.xl = false

/-- A level whose last instruction issues, with passes left (R199). -/
def Engine.loopEnds (x : Engine) (k : Fin 2) : Bool :=
  x.pc == x.le[k] && decide (1 ≤ x.lc[k].toNat) && (x.status.getLsbD (16 + k.val) == x.lvl) && !x.xl

theorem loopNext_level0 (h : x.loopEnds 1 = false) : loopNext 1 x =
    if x.loopEnds 0 = true then
      if x.lc[(0 : Fin 2)] = 1 then { x with pc := x.pc + 1, lc := x.lc.set (0 : Fin 2) 0 }
      else { x with pc := x.ls[(0 : Fin 2)], lc := x.lc.set (0 : Fin 2) (x.lc[(0 : Fin 2)] - 1) }
    else { x with pc := x.pc + 1 } := by
  have hinner : ¬ x.loopEnds 1 = true := by rw [h]; exact Bool.false_ne_true
  refine (if_neg hinner).trans ?_
  by_cases h0 : x.loopEnds 0 = true
  · exact (if_pos h0).trans ((if_pos h0).trans (if_pos h0).symm)
  · exact (if_neg h0).trans (if_neg h0).symm

theorem loopEnds_unused {k : Fin 2} (h : x.lc[k] = 0) : x.loopEnds k = false := by
  have hpasses : decide (1 ≤ x.lc[k].toNat) = false := by rw [h]; rfl
  rw [Engine.loopEnds, hpasses, Bool.and_false, Bool.false_and, Bool.false_and]

theorem Engine.AtLoopEnd.ends (h : x.AtLoopEnd) (hc : 1 ≤ x.lc[(0 : Fin 2)].toNat) : x.loopEnds 0 = true := by
  obtain ⟨hplace, -, hlevel, hhandler⟩ := h
  have hlevel' : x.status.getLsbD (16 + (0 : Fin 2).val) = x.lvl := hlevel
  rw [Engine.loopEnds, hplace, hhandler, hlevel', decide_eq_true hc, beq_self_eq_true, beq_self_eq_true]
  rfl

theorem loopNext_back (h : x.AtLoopEnd) (hc : 1 < x.lc[(0 : Fin 2)].toNat) : loopNext 1 x =
    { x with pc := x.ls[(0 : Fin 2)], lc := x.lc.set (0 : Fin 2) (x.lc[(0 : Fin 2)] - 1) } := by
  have hne : x.lc[(0 : Fin 2)] ≠ 1 := fun he => by rw [he] at hc; exact absurd hc (by decide)
  rw [loopNext_level0 (loopEnds_unused h.inner), if_pos (h.ends hc.le), if_neg hne]

theorem loopNext_last (h : x.AtLoopEnd) (hc : x.lc[(0 : Fin 2)] = 1) : loopNext 1 x =
    { x with pc := x.pc + 1, lc := x.lc.set (0 : Fin 2) 0 } := by
  rw [loopNext_level0 (loopEnds_unused h.inner), if_pos (h.ends (by rw [hc]; decide)), if_pos hc]

theorem loopNext_elsewhere (hplace : x.pc ≠ x.le[(0 : Fin 2)]) (hinner : x.lc[(1 : Fin 2)] = 0) : loopNext 1 x = { x with pc := x.pc + 1 } := by
  have hends : x.loopEnds 0 = false := by rw [Engine.loopEnds, beq_eq_false_iff_ne.mpr hplace]; rfl
  rw [loopNext_level0 (loopEnds_unused hinner), if_neg (by rw [hends]; exact Bool.false_ne_true)]

/-! A MOV in a loop. -/

/-- An engine after a MOV has issued, before its program counter moves: what loops look at stands. -/
theorem mov_loops (key : Nat) (x : Engine) : ∃ st p l r, (x.mov key dst a m).ended =
    { x with status := st, pend := p, local_ := l, a := r, shadow := false, divs := none } ∧
      st.getLsbD 16 = x.status.getLsbD 16 ∧ st.getLsbD 5 = x.lvl ∧ st.getLsbD 6 = x.xl := by
  obtain ⟨st, p, l, r, hy, hst⟩ := mov_slotted key x dst a m
  have hkeeps : ∀ b : Nat, 5 ≤ b → ¬(9 ≤ b ∧ b ≤ 11) →
      (x.mov key dst a m).ended.status.getLsbD b = x.status.getLsbD b := by
    intro b hb hgr
    refine (counted_getLsbD _ hgr).trans ?_
    rw [hy]
    exact hst b hb
  refine ⟨_, p, l, r, (counted_frame _).trans ?_, hkeeps 16 (by decide) (by decide), hkeeps 5 (by decide) (by decide),
    hkeeps 6 (by decide) (by decide)⟩
  rw [hy]
  rfl

/-- An instruction in the user's code, its engine's next place given by the loops. -/
theorem issued_byLoops (hdelay : y.delay = none) (hrun : y.run = .running) (horder : y.order = []) (hret : s.roles[e].retiring = none)
    (hhalt : s.roles[e].haltDue = false) {pc : BitVec 14} {lc : Vector Sample 2} (hpc : 4096 ≤ pc.toNat)
    (hloop : loopNext 1 y.ended = { y.ended with pc := pc, lc := lc }) :
    (s.issued e 1 .next y).engines[e].pc = pc ∧ (s.issued e 1 .next y).engines[e].lc = lc := by
  have hland := age_landed { y.ended with pc := pc, lc := lc } 1
  have hflow : flowOn 1 .next { y with divs := none } = { y.ended with pc := pc, lc := lc } :=
    (flowOn_next (x := { y with divs := none }) 1 hdelay).trans hloop
  rw [issued_goesOn (congrArg (Engine.age · 1) hflow) (hland.run.trans ((counted_run _).trans hrun))
    (hland.order.trans ((counted_order _).trans horder)) (by rw [hland.pc]; exact hpc) hret hhalt, State.tick_engines, setEngine_self]
  exact ⟨hland.pc, hland.lc⟩

end Sys2Proof.Machine

open Sys2Proof Sys2Proof.Machine

/-- Settles O40: a level as it is set up, and the three ways on from an instruction of one word. -/
theorem loopsRunTheirBodyTheCountGiven : Obligations.LoopsRunTheirBodyTheCountGiven := by
  refine ⟨fun e s k r count le h => ⟨congrArg Host.Outcome.next (issue_issued 2 h (startLoop_level ..)),
    congrArg Host.Outcome.next (issue_issued 1 h (startLoop_level ..))⟩,
    fun e s dst a m hword hrun hdelay hpc hls horder hhalt hret hm hinner hxl hlevel => ?_⟩
  obtain ⟨hret', hhalt'⟩ := countLocal_role s e (if m.op = 1 ∧ m.ecc = some false then 1 else 0)
  obtain ⟨st, p, l, r, hended, hst16, hst5, hst6⟩ := mov_loops (dst := dst) (a := a) (m := m) (s.key e) s.engines[e]
  obtain ⟨_, _, _, _, hmov, _⟩ := mov_slotted (s.key e) s.engines[e] dst a m
  have hnext := fun (pc : BitVec 14) (lc : Vector Sample 2) =>
    issued_byLoops (s := s.corrected e m) (e := e) (y := s.engines[e].mov (s.key e) dst a m) (pc := pc) (lc := lc) (by rw [hmov]; exact hdelay)
      (by rw [hmov]; exact hrun) (by rw [hmov]; exact horder) (hret'.trans hret) (hhalt'.trans hhalt)
  have hend : s.engines[e].pc = s.engines[e].le[(0 : Fin 2)] → (s.engines[e].mov (s.key e) dst a m).ended.AtLoopEnd := by
    rw [hended]
    exact fun hplace => ⟨hplace, hinner, hst16.trans (hlevel.trans hst5.symm), hst6.trans hxl⟩
  rw [hended] at hnext hend
  refine ⟨_, mov_issued ⟨.inl hrun, hword⟩ hm, fun hplace hc => ?back, fun hplace hc => ?last, fun hplace => ?elsewhere⟩
  case back =>
    obtain ⟨hp, hl⟩ := hnext _ _ hls (loopNext_back (hend hplace) hc)
    exact ⟨hp, by rw [hl]; exact Vector.getElem_set_self ..⟩
  case last =>
    obtain ⟨hp, hl⟩ := hnext _ _ hpc (loopNext_last (hend hplace) hc)
    exact ⟨hp, by rw [hl]; exact Vector.getElem_set_self ..⟩
  case elsewhere => exact hnext _ _ hpc (loopNext_elsewhere hplace hinner)
end

section
/-! The family of the flyer engines: a sample read after one is written (R218, R221). -/

namespace Sys2Proof.Machine

variable {s : State} {m : Mem}

/-- The cells of different words are different. -/
theorem cellOf_word {g g' j j' : Nat} (hg : g < wordCount) (hg' : g' < wordCount) (hj : j < 9) (hj' : j' < 9)
    (h : cellOf g j = cellOf g' j') : g = g' := by
  have hlt : g < 4194304 := hg
  have hlt' : g' < 4194304 := hg'
  unfold cellOf at h
  split at h <;> split at h <;> omega

theorem putWordByte_other {g mask c k : Nat} {w : Word72} (hc : c ≠ cellOf g k) (h : m.wf = true) :
    (putWordByte g mask w m k).byte c = m.byte c := by
  unfold putWordByte
  split
  · exact Mem.setByte_byte_ne _ hc h
  · rfl

theorem setWordBytes_byte_other {g mask c : Nat} {w : Word72} (hc : ∀ k : Nat, k < 9 → c ≠ cellOf g k) (h : m.wf = true) :
    (m.setWordBytes g mask w).byte c = m.byte c := by
  have hfold : ∀ (l : List Nat) (n : Mem), (∀ k ∈ l, k < 9) → n.wf = true → (l.foldl (putWordByte g mask w) n).byte c = n.byte c := by
    intro l
    induction l with
    | nil => exact fun _ _ _ => rfl
    | cons k l ih =>
      intro n hl hn
      rw [List.foldl_cons, ih _ (fun j hj => hl j (List.mem_cons_of_mem k hj)) (putWordByte_wf k hn),
        putWordByte_other (hc k (hl k (List.mem_cons_self ..))) hn]
  rw [setWordBytes_eq]
  exact hfold _ m (fun k hk => List.mem_range.mp hk) h

/-- A word keeps its bits as another is written. -/
theorem setWordBytes_word_other {g g' mask : Nat} (w : Word72) (hg : g < wordCount) (hg' : g' < wordCount) (hne : g' ≠ g) (h : m.wf = true) :
    (m.setWordBytes g mask w).word g' = m.word g' := by
  have hbytes : (List.range 9).map (fun k => (m.setWordBytes g mask w).byte (cellOf g' k)) = (List.range 9).map fun k => m.byte (cellOf g' k) :=
    List.map_congr_left fun k hk => setWordBytes_byte_other (fun j hj he => hne (cellOf_word hg' hg (List.mem_range.mp hk) hj he)) h
  rw [Mem.word, hbytes, Mem.word]

/-- A sample is a field of its word. -/
theorem sample_eq (m : Mem) (i : Nat) : m.sample i = (m.word (i / 4)).extractLsb' (18 * (i % 4)) 18 := by
  rw [Mem.sample, BitVec.extractLsb', Nat.shiftRight_eq_div_pow]

theorem sampleMask_getLsbD (b : Nat) : (0x3FFFF : Word72).getLsbD b = decide (b < 18) := by
  show (BitVec.ofNat 72 (2 ^ 18 - 1)).getLsbD b = _
  rw [BitVec.getLsbD_ofNat, Nat.testBit_two_pow_sub_one, ← Bool.decide_and, decide_eq_decide]
  omega

/-- The fields of a word into one of which a sample is merged. -/
theorem mergedSample_field (w : Word72) (v : Sample) {i j : Nat} (hi : i < 4) (hj : j < 4) :
    ((w &&& ~~~((0x3FFFF : Word72) <<< (18 * i))) ||| (v.setWidth 72 <<< (18 * i))).extractLsb' (18 * j) 18 =
      if j = i then v else w.extractLsb' (18 * j) 18 := by
  refine BitVec.eq_of_getLsbD_eq fun b hb => ?_
  have hrange : 18 * j + b < 72 := by omega
  simp only [BitVec.getLsbD_extractLsb', hb, decide_true, Bool.true_and, BitVec.getLsbD_or, BitVec.getLsbD_and, BitVec.getLsbD_not,
    BitVec.getLsbD_shiftLeft, hrange, sampleMask_getLsbD, BitVec.getLsbD_setWidth]
  by_cases hij : j = i
  · subst hij
    rw [if_pos rfl]
    have h1 : ¬ 18 * j + b < 18 * j := by omega
    have h2 : 18 * j + b - 18 * j = b := by omega
    simp [h1, h2, hb, show b < 72 by omega]
  · rw [if_neg hij]
    by_cases hlt : 18 * j + b < 18 * i
    · simp [hlt, hb]
    · have h18 : ¬ 18 * j + b - 18 * i < 18 := by omega
      simp [hlt, h18, hb, BitVec.getLsbD_of_ge v _ (Nat.not_lt.mp h18)]

/-- A sample written reads back, and every other sample stands. -/
theorem setSample_sample {i j : Nat} (v : Sample) (hi : i < 2 ^ 24) (hj : j < 2 ^ 24) (h : m.wf = true) :
    (m.setSample i v).sample j = if j = i then v else m.sample j := by
  have hgi : i / 4 < wordCount := Nat.div_lt_of_lt_mul hi
  have hgj : j / 4 < wordCount := Nat.div_lt_of_lt_mul hj
  rw [sample_eq, sample_eq, Mem.setSample]
  by_cases hg : j / 4 = i / 4
  · rw [hg, setWordBytes_word _ hgi h, mergedSample_field _ _ (Nat.mod_lt _ (by decide)) (Nat.mod_lt _ (by decide))]
    exact if_congr ⟨fun hm => by omega, fun he => by rw [he]⟩ rfl rfl
  · rw [setWordBytes_word_other _ hgi hgj hg h, if_neg fun he => hg (by rw [he])]

/-- Samples read the same after requests have reached banks that run. -/
theorem wakeRange_sample (lo hi : Nat) (hr : AllRun s) (i : Nat) : (s.wakeRange lo hi).mem.sample i = s.mem.sample i := by
  obtain ⟨-, hk⟩ := wakeRange_keeps lo hi s hr
  obtain ⟨c, hm⟩ := (wakeRange_onlyControls lo hi s).mem
  have hbyte : (s.wakeRange lo hi).mem.byte = s.mem.byte := by
    funext a
    obtain ⟨hl, hb⟩ := hk (bankOfCell a)
    rw [Mem.byte, Mem.byte, mask_congr hl hb, hm]
  rw [Mem.sample, Mem.sample, Mem.word, Mem.word, hbyte]

end Sys2Proof.Machine
end

section
/-! The family of the flyer engines: the fabric port and XAC (R193, R194, R224). -/

namespace Sys2Proof.Machine

variable {e : EngineId} {s w : State} {m : Mem} {x y : Engine} {op : FabOp}

/-! FMV and FATM (R194, R224). -/

theorem startFab_room (op : FabOp) (t : State) (h : x.fab.length < 4) : startFab op t x = .done t { x with fab := x.fab ++ [op] } .next :=
  if_neg (Nat.not_le.mpr h)

theorem startFab_full (op : FabOp) (t : State) (h : 4 ≤ x.fab.length) :
    startFab op t x = .stay { x with run := .stalled 3 (decide (x.run = FlRun.stepping)), held := some op } := if_pos h

/-- The errors of local words an FMV toward the banks reads (R191, R194). -/
def localReads (out : Bool) (at_ lines : Nat) (ecc : List EccErr) : List EccErr :=
  if out = true then ecc.filter fun x => decide (at_ ≤ x.word) && decide (x.word < at_ + 16 * lines) else []

theorem localErrors_fmv {at_ lines : Nat} {out : Bool} {ecc : List EccErr} (h : (localReads out at_ lines ecc).find? (·.double) = none)
    (sample : Nat) : (FabOp.fmv at_ sample out lines ecc).localErrors = (localReads out at_ lines ecc).length := by
  cases out with
  | false => rfl
  | true =>
    have hsingle : ∀ x ∈ ecc.filter (fun x => decide (at_ ≤ x.word) && decide (x.word < at_ + 16 * lines)), x.double = false := fun x hx =>
      Bool.eq_false_iff.mpr (List.find?_eq_none.mp h x hx)
    refine congrArg List.length (List.filter_congr fun x hx => ?_)
    cases hin : decide (at_ ≤ x.word) && decide (x.word < at_ + 16 * lines) with
    | false => rfl
    | true => rw [hsingle x (List.mem_filter.mpr ⟨hx, hin⟩)]; rfl

/-- The fabric operation of an FMV. -/
def fmvOp (x : Engine) (r : BitVec 3) (k : BitVec 2) (out : Bool) (lines : BitVec 7) (off : BitVec 24) (ecc : List EccErr) : FabOp :=
  .fmv (x.a[(Fin.ofNat 8 r.toNat)].toNat % 32768) ((xacAddr x k (off.setWidth 32)).toNat - 0x10000000) out lines.toNat ecc

/-- The errors of local words an FMV meets. -/
def fmvReads (x : Engine) (r : BitVec 3) (out : Bool) (lines : BitVec 7) (ecc : List EccErr) : List EccErr :=
  localReads out (x.a[(Fin.ofNat 8 r.toNat)].toNat % 32768) lines.toNat ecc

section Fmv

variable {r : BitVec 3} {k : BitVec 2} {out : Bool} {lines : BitVec 7} {off : BitVec 24} {ecc : List EccErr}

/-- An FMV at legal addresses whose local words are free of double-bit errors takes its place in the fabric port. -/
theorem fmv_starts (s : State) (hl1 : 1 ≤ lines.toNat) (hl64 : lines.toNat ≤ 64) (ha : s.engines[e].a[(Fin.ofNat 8 r.toNat)].toNat % 16 = 0)
    (hs : (xacAddr s.engines[e] k (off.setWidth 32)).toNat % 16 = 0) (hlow : 0x10000000 ≤ (xacAddr s.engines[e] k (off.setWidth 32)).toNat)
    (hhigh : (xacAddr s.engines[e] k (off.setWidth 32)).toNat + 16 * lines.toNat ≤ 0x11000000)
    (hread : (fmvReads s.engines[e] r out lines ecc).find? (·.double) = none) :
    ∃ body, exec (.flFmv e r k out lines off ecc) s = .next (issue e 2 false body s) ∧ body s s.engines[e] =
      startFab (fmvOp s.engines[e] r k out lines off ecc) (s.countLocal e (fmvReads s.engines[e] r out lines ecc).length) s.engines[e] := by
  refine ⟨_, rfl, ?_⟩
  have hlines : ¬(lines = 0 ∨ 64 < lines.toNat) := by
    rintro (rfl | h)
    · exact absurd hl1 (by decide)
    · omega
  have haddr : ¬(s.engines[e].a[(Fin.ofNat 8 r.toNat)].toNat % 32768 % 16 ≠ 0 ∨ (xacAddr s.engines[e] k (off.setWidth 32)).toNat % 16 ≠ 0 ∨
      (xacAddr s.engines[e] k (off.setWidth 32)).toNat < sampleBase ∨
      sampleEnd < (xacAddr s.engines[e] k (off.setWidth 32)).toNat + 16 * lines.toNat) := by
    unfold sampleBase sampleEnd
    omega
  have hcount := localErrors_fmv hread ((xacAddr s.engines[e] k (off.setWidth 32)).toNat - 0x10000000)
  unfold fmvReads localReads at hread
  simp only [hread, hlines, haddr, if_false]
  exact congrArg (fun n => startFab _ (s.countLocal e n) s.engines[e]) hcount

end Fmv

/-- With a place free the operation is outstanding and the engine goes on (R194). -/
theorem issue_fab_room {body : State → Engine → Issue} {t : State} (h : Issues e s) (hbody : body s s.engines[e] = startFab op t s.engines[e])
    (hroom : s.engines[e].fab.length < 4) :
    issue e 2 false body s = t.issued e 2 .next { s.engines[e] with fab := s.engines[e].fab ++ [op] } :=
  issue_issued 2 h (hbody.trans (startFab_room _ _ hroom))

/-- A fifth operation stalls the engine (R194). -/
theorem issue_fab_full {body : State → Engine → Issue} {t : State} (h : Issues e s) (hbody : body s s.engines[e] = startFab op t s.engines[e])
    (hfull : 4 ≤ s.engines[e].fab.length) : issue e 2 false body s =
      s.setEngine e { s.engines[e] with run := .stalled 3 (decide (s.engines[e].run = .stepping)), held := some op } :=
  issue_stay 2 false h (hbody.trans (startFab_full _ _ hfull))

theorem fatm_starts {r : BitVec 4} {k : BitVec 2} (swap : Bool) (old : BitVec 15) {off : BitVec 24} (ecc : List EccErr) (s : State)
    (hlow : 0x10000000 ≤ (xacAddr s.engines[e] k (off.setWidth 32)).toNat)
    (hhigh : (xacAddr s.engines[e] k (off.setWidth 32)).toNat < 0x11000000) :
    ∃ body, exec (.flFatm e r k swap old off ecc) s = .next (issue e 2 false body s) ∧ body s s.engines[e] =
      startFab (.fatm old.toNat ((xacAddr s.engines[e] k (off.setWidth 32)).toNat - 0x10000000) swap (s.engines[e].d r.toNat) ecc) s s.engines[e] :=
  ⟨_, rfl, if_neg fun hc => hc.elim (Nat.not_lt.mpr hlow) (Nat.not_le.mpr hhigh)⟩

/-! An atomic operation takes place (R194, R224). -/

/-- Banks that are woken keep the engines, their roles and the poisoned words (R35). -/
theorem OnlyControls.frame {t : State} (h : OnlyControls s t) :
    t.engines = s.engines ∧ t.roles = s.roles ∧ t.mem.poison = s.mem.poison ∧ t.mem.cells = s.mem.cells := by
  obtain ⟨p, c, rfl⟩ := h
  exact ⟨rfl, rfl, rfl, rfl⟩

/-- An atomic operation on a word without errors, whose bank serves (R224). -/
def State.atomic (w : State) (e : EngineId) (at_ sample : Nat) (swap : Bool) (v : Sample) : State :=
  (w.modMem fun m => m.setSample sample (if swap then v else w.mem.sample sample + v)).modEngine e fun x => x.store at_ (w.mem.sample sample)

/-- The bank of a sample has been woken. -/
def State.served (s : State) (sample : Nat) : State := s.wakeRange (8 * (sample / 4)) (8 * (sample / 4) + 8)

theorem served_frame (s : State) (sample : Nat) : (s.served sample).engines = s.engines ∧ (s.served sample).roles = s.roles ∧
    (s.served sample).mem.poison = s.mem.poison ∧ (s.served sample).mem.cells = s.mem.cells :=
  (wakeRange_onlyControls _ _ s).frame

theorem runFab_atomic {at_ sample : Nat} {swap : Bool} {v : Sample} (h : s.mem.isPoisoned (sample / 4) = false) :
    s.runFab e (.fatm at_ sample swap v []) = (s.served sample).atomic e at_ sample swap v := by
  obtain ⟨-, -, hpoison, -⟩ := served_frame s sample
  have hclean : ¬ (s.served sample).mem.isPoisoned (sample / 4) = true := by
    rw [Mem.isPoisoned, hpoison, show s.mem.poison.contains (sample / 4) = false from h]
    exact Bool.false_ne_true
  exact if_neg hclean

theorem atomic_engine (w : State) (e : EngineId) (at_ sample : Nat) (swap : Bool) (v : Sample) :
    (w.atomic e at_ sample swap v).engines[e] = w.engines[e].store at_ (w.mem.sample sample) := setEngine_self ..

theorem atomic_roles (w : State) (e : EngineId) (at_ sample : Nat) (swap : Bool) (v : Sample) : (w.atomic e at_ sample swap v).roles = w.roles := rfl

theorem fabricOpComplete_runs {k : Fin 4} (h : s.engines[e].fab[k.val]? = some op) : exec (.fabricOpComplete e k) s =
    .next (((s.runFab e op).modEngine e fun x => { x with fab := x.fab.eraseIdx k.val }).unstall e) :=
  congrArg Host.Outcome.next (by simp only [h])

theorem fabricOpComplete_missing {k : Fin 4} (h : s.engines[e].fab[k.val]? = none) : exec (.fabricOpComplete e k) s = .next s :=
  congrArg Host.Outcome.next (by simp only [h])

/-! A stalled engine goes on (R194). -/

theorem unstall_running (h : s.engines[e].run = .running) : s.unstall e = s := by
  simp only [State.unstall, h]

theorem unstall_held {n : Nat} (hrun : s.engines[e].run = .stalled n false) (hfew : ¬ n < s.engines[e].fab.length)
    (hheld : s.engines[e].held = some op) : s.unstall e = ((s.countLocal e op.localErrors).setEngine e (finishIssue 2 .next { s.engines[e] with
      run := .running, held := none, fab := s.engines[e].fab ++ [op], divs := none })).afterIssue e := by
  simp only [State.unstall, hrun, hfew, hheld, if_false, Bool.false_eq_true]

/-- An instruction of two words in the user's code, with no loop or delay slot under way, leads to the next. -/
theorem issued_two (hdelay : y.delay = none) (hrun : y.run = .running) (horder : y.order = []) (h0 : y.lc[(0 : Fin 2)] = 0)
    (h1 : y.lc[(1 : Fin 2)] = 0) (hpc : 4096 ≤ (y.pc + 2).toNat) (hret : w.roles[e].retiring = none) (hhalt : w.roles[e].haltDue = false) :
    ∃ z : Engine, w.issued e 2 .next y = (w.setEngine e z).tick ∧ z.fab = y.fab ∧ z.run = .running ∧ z.pc = y.pc + 2 := by
  have hflow : flowOn 2 .next { y with divs := none } = { y.ended with pc := y.pc + 2 } := by
    have hlc : y.ended.lc = y.lc := counted_lc _
    refine ((flowOn_next (x := { y with divs := none }) 2 hdelay).trans
      (loopNext_noLoop (x := y.ended) 2 (by rw [hlc]; exact h0) (by rw [hlc]; exact h1))).trans ?_
    rw [show y.ended.pc = y.pc from counted_pc _]
    rfl
  have hland := age_landed { y.ended with pc := y.pc + 2 } 2
  refine ⟨Engine.age { y.ended with pc := y.pc + 2 } 2, issued_goesOn (congrArg (Engine.age · 2) hflow) ?run ?order ?pc hret hhalt,
    hland.fab.trans (counted_fab _), ?run, hland.pc⟩
  case run => exact hland.run.trans ((counted_run _).trans hrun)
  case order => exact hland.order.trans ((counted_order _).trans horder)
  case pc => rw [hland.pc]; exact hpc

/-- A completion lets the operation that waits take its place, and the stalled engine goes on (R194). -/
theorem unstall_goesOn (hrun : s.engines[e].run = .stalled 3 false) (hfab : s.engines[e].fab.length = 3) (hheld : s.engines[e].held = some op)
    (hdelay : s.engines[e].delay = none) (horder : s.engines[e].order = []) (h0 : s.engines[e].lc[(0 : Fin 2)] = 0)
    (h1 : s.engines[e].lc[(1 : Fin 2)] = 0) (hpc : 4096 ≤ (s.engines[e].pc + 2).toNat) (hret : s.roles[e].retiring = none)
    (hhalt : s.roles[e].haltDue = false) : (s.unstall e).engines[e].fab = s.engines[e].fab ++ [op] ∧
      (s.unstall e).engines[e].run = .running ∧ (s.unstall e).engines[e].pc = s.engines[e].pc + 2 := by
  obtain ⟨hret', hhalt'⟩ := countLocal_role s e op.localErrors
  obtain ⟨z, hz, hzfab, hzrun, hzpc⟩ := issued_two (w := s.countLocal e op.localErrors) (e := e)
    (y := { s.engines[e] with run := .running, held := none, fab := s.engines[e].fab ++ [op] }) hdelay rfl horder h0 h1 hpc
    (hret'.trans hret) (hhalt'.trans hhalt)
  have hengine : (s.unstall e).engines[e] = z := by
    rw [unstall_held hrun (by omega) hheld]
    exact (congrArg (fun t : State => t.engines[e]) hz).trans (setEngine_self ..)
  rw [hengine]
  exact ⟨hzfab, hzrun, hzpc⟩

/-- The state an atomic operation's completion leaves on an engine that runs. -/
def State.atomicDone (w : State) (e : EngineId) (k at_ sample : Nat) (swap : Bool) (v : Sample) : State :=
  (w.atomic e at_ sample swap v).modEngine e fun x => { x with fab := x.fab.eraseIdx k }

theorem atomicDone_engine (w : State) (e : EngineId) (k at_ sample : Nat) (swap : Bool) (v : Sample) :
    (w.atomicDone e k at_ sample swap v).engines[e] =
      { w.engines[e].store at_ (w.mem.sample sample) with fab := w.engines[e].fab.eraseIdx k } := by
  refine (setEngine_self ..).trans ?_
  rw [atomic_engine]
  rfl

theorem fabricOpComplete_atomic {k : Fin 4} {at_ sample : Nat} {swap : Bool} {v : Sample}
    (hk : s.engines[e].fab[k.val]? = some (.fatm at_ sample swap v [])) (hclean : s.mem.isPoisoned (sample / 4) = false) :
    exec (.fabricOpComplete e k) s = .next (((s.served sample).atomicDone e k.val at_ sample swap v).unstall e) := by
  rw [fabricOpComplete_runs hk, runFab_atomic hclean]
  rfl

theorem fifth_letIn {k : Fin 4} (hrun : s.engines[e].run = .stalled 3 false) (hret : s.roles[e].retiring = none)
    (hfab : s.engines[e].fab.length = 4) (hheld : s.engines[e].held = some op) (hk : s.engines[e].fab[k.val]? = some (.fatm 0 0 false 0 []))
    (hclean : s.mem.isPoisoned 0 = false) (horder : s.engines[e].order = []) (hhalt : s.roles[e].haltDue = false)
    (hpc : 4096 ≤ (s.engines[e].pc + 2).toNat) (hdelay : s.engines[e].delay = none) (h0 : s.engines[e].lc[(0 : Fin 2)] = 0)
    (h1 : s.engines[e].lc[(1 : Fin 2)] = 0) : ∃ t : State, exec (.fabricOpComplete e k) s = .next t ∧
      t.engines[e].fab = s.engines[e].fab.eraseIdx k.val ++ [op] ∧ t.engines[e].run = .running ∧ t.engines[e].pc = s.engines[e].pc + 2 := by
  refine ⟨_, fabricOpComplete_atomic hk hclean, ?_⟩
  obtain ⟨hengines, hroles, -⟩ := served_frame s 0
  have hengine : ((s.served 0).atomicDone e k.val 0 0 false 0).engines[e] =
      { s.engines[e].store 0 ((s.served 0).mem.sample 0) with fab := s.engines[e].fab.eraseIdx k.val } := by
    rw [atomicDone_engine]
    simp only [hengines]
  have hrole : ((s.served 0).atomicDone e k.val 0 0 false 0).roles[e] = s.roles[e] := by
    simp only [State.atomicDone, State.modEngine_roles, atomic_roles, hroles]
  have hgo := unstall_goesOn (s := (s.served 0).atomicDone e k.val 0 0 false 0) (e := e) (op := op)
  rw [hengine, hrole] at hgo
  have hlen : (s.engines[e].fab.eraseIdx k.val).length = 3 := by
    rw [List.length_eraseIdx_of_lt (by rw [hfab]; exact k.isLt), hfab]
  exact hgo hrun hlen hheld hdelay horder h0 h1 hpc hret hhalt

/-! The completion of an atomic operation (R194, R224). -/

/-- A sample's bank that runs serves it as it stands. -/
theorem served_sample (sample : Nat) (hr : AllRun s) (i : Nat) : (s.served sample).mem.sample i = s.mem.sample i :=
  wakeRange_sample _ _ hr i

theorem atomic_sample (w : State) (e : EngineId) (at_ : Nat) {sample j : Nat} (swap : Bool) (v : Sample) (hs : sample < 2 ^ 24) (hj : j < 2 ^ 24)
    (hw : w.mem.wf = true) : (w.atomic e at_ sample swap v).mem.sample j =
      if j = sample then (if swap then v else w.mem.sample sample + v) else w.mem.sample j := setSample_sample _ hs hj hw

theorem atomic_other (w : State) (e : EngineId) (at_ sample : Nat) (swap : Bool) (v : Sample) {j : EngineId} (hj : j ≠ e) :
    (w.atomic e at_ sample swap v).engines[j] = w.engines[j] := setEngine_other hj ..

theorem atomicDone_other (w : State) (e : EngineId) (k at_ sample : Nat) (swap : Bool) (v : Sample) {j : EngineId} (hj : j ≠ e) :
    (w.atomicDone e k at_ sample swap v).engines[j] = w.engines[j] :=
  (setEngine_other hj ..).trans (atomic_other w e at_ sample swap v hj)

theorem atomicDone_sample (w : State) (e : EngineId) (k at_ : Nat) {sample j : Nat} (swap : Bool) (v : Sample) (hs : sample < 2 ^ 24)
    (hj : j < 2 ^ 24) (hw : w.mem.wf = true) : (w.atomicDone e k at_ sample swap v).mem.sample j =
      if j = sample then (if swap then v else w.mem.sample sample + v) else w.mem.sample j := by
  rw [State.atomicDone, State.modEngine_mem, atomic_sample w e at_ swap v hs hj hw]

theorem atomic_completes {k : Fin 4} {at_ sample : Nat} {swap : Bool} {v : Sample} (hk : s.engines[e].fab[k.val]? = some (.fatm at_ sample swap v []))
    (hrun : s.engines[e].run = .running) (hs : sample < 2 ^ 24) (hwf : s.mem.wf = true) (hr : AllRun s)
    (hclean : s.mem.isPoisoned (sample / 4) = false) : ∃ t : State, exec (.fabricOpComplete e k) s = .next t ∧
      t.mem.sample sample = (if swap = true then v else s.mem.sample sample + v) ∧
      (∀ j : Nat, j < 2 ^ 24 → j ≠ sample → t.mem.sample j = s.mem.sample j) ∧
      t.engines[e] = { s.engines[e].store at_ (s.mem.sample sample) with fab := s.engines[e].fab.eraseIdx k.val } ∧
      ∀ j : EngineId, j ≠ e → t.engines[j] = s.engines[j] := by
  obtain ⟨hengines, -, -, hcells⟩ := served_frame s sample
  have hwf' : (s.served sample).mem.wf = true := by rw [Mem.wf, hcells]; exact hwf
  have hsample (j : Nat) (hj : j < 2 ^ 24) : ((s.served sample).atomicDone e k.val at_ sample swap v).mem.sample j =
      if j = sample then (if swap then v else s.mem.sample sample + v) else s.mem.sample j := by
    rw [← served_sample sample hr j, ← served_sample sample hr sample]
    exact atomicDone_sample (s.served sample) e k.val at_ swap v hs hj hwf'
  have hengine : ((s.served sample).atomicDone e k.val at_ sample swap v).engines[e] =
      { s.engines[e].store at_ (s.mem.sample sample) with fab := s.engines[e].fab.eraseIdx k.val } := by
    rw [atomicDone_engine, served_sample sample hr]
    simp only [hengines]
  have hgo := unstall_running (s := (s.served sample).atomicDone e k.val at_ sample swap v) (e := e) (by rw [hengine]; exact hrun)
  refine ⟨(s.served sample).atomicDone e k.val at_ sample swap v, by rw [fabricOpComplete_atomic hk hclean, hgo],
    by rw [hsample sample hs, if_pos rfl], fun j hj hne => by rw [hsample j hj, if_neg hne], hengine, fun j hj => ?_⟩
  rw [atomicDone_other _ _ _ _ _ _ _ hj]
  simp only [hengines]

/-! XAC at a legal address (R193). -/

section Xac

variable {r : BitVec 4} {k : BitVec 2} {off : Word}

theorem xacWrite_legal {n : Nat} (halign : n % 4 = 0) (hw : xacWrites n = true) :
    ¬(n % 4 ≠ 0 ∨ (false = true ∧ !xacReads n) ∨ (false = false ∧ !xacWrites n)) := by
  simp [halign, hw]

theorem xacRead_legal {n : Nat} (halign : n % 4 = 0) (hr : xacReads n = true) :
    ¬(n % 4 ≠ 0 ∨ (true = true ∧ !xacReads n) ∨ (true = false ∧ !xacWrites n)) := by
  simp [halign, hr]

theorem xac_writes (ac : Bool) (h : Issues e s) (halign : (xacAddr s.engines[e] k off).toNat % 4 = 0)
    (hw : xacWrites (xacAddr s.engines[e] k off).toNat = true) : exec (.flXac e r k false ac off) s =
      .next ((s.writeReg (xacAddr s.engines[e] k off).toNat
        (if ac = true then (s.engines[e].ac (acc4 r)).truncate 32 else (s.engines[e].d r.toNat).signExtend 32)).issued e 2 .next s.engines[e]) :=
  congrArg Host.Outcome.next (issue_issued 2 h (if_neg (xacWrite_legal halign hw)))

theorem xac_reads_d (h : Issues e s) (halign : (xacAddr s.engines[e] k off).toNat % 4 = 0)
    (hr : xacReads (xacAddr s.engines[e] k off).toNat = true) : exec (.flXac e r k true false off) s =
      .next ((s.afterRead (xacAddr s.engines[e] k off).toNat).issued e 2 .next
        (s.engines[e].putD 1 (reg16 r) (BitVec.ofNat 18 (readReg s (xacAddr s.engines[e] k off).toNat).toNat))) := by
  refine congrArg Host.Outcome.next (issue_issued 2 h ((if_neg (xacRead_legal halign hr)).trans ?_))
  rw [BitVec.ofNat_toNat]
  rfl

/-- A register's value, and above it bits that are open. -/
def withOpen (v : Word) (o : Nat) : BitVec 48 := BitVec.ofNat 48 (v.toNat + 2 ^ 32 * (o % 65536))

theorem withOpen_truncate (v : Word) (o : Nat) : (withOpen v o).truncate 32 = v := by
  refine BitVec.eq_of_toNat_eq ?_
  have hv := v.isLt
  simp only [withOpen, BitVec.truncate_eq_setWidth, BitVec.toNat_setWidth, BitVec.toNat_ofNat]
  omega

theorem xac_reads_ac (h : Issues e s) (halign : (xacAddr s.engines[e] k off).toNat % 4 = 0)
    (hr : xacReads (xacAddr s.engines[e] k off).toNat = true) : ∃ v : BitVec 48, v.truncate 32 = readReg s (xacAddr s.engines[e] k off).toNat ∧
      exec (.flXac e r k true true off) s = .next ((s.afterRead (xacAddr s.engines[e] k off).toNat).issued e 2 .next
        (s.engines[e].put 1 (.ac s.engines[e].lvl (acc4 r) v))) :=
  ⟨withOpen (readReg s (xacAddr s.engines[e] k off).toNat) _, withOpen_truncate ..,
    congrArg Host.Outcome.next (issue_issued 2 h (if_neg (xacRead_legal halign hr)))⟩

end Xac

end Sys2Proof.Machine

open Sys2Proof Sys2Proof.Machine

/-- Settles O42: what an instruction asks of the fabric port, what a completion performs, and XAC by direction and width; an
accumulator's bits over a register are open (log entry 8). -/
theorem fabricAndExternalAccessesAct : Obligations.FabricAndExternalAccessesAct := by
  refine ⟨fun e s r k out lines off ecc h hl1 hl64 ha hs hlow hhigh => ?fmv, fun e s r k swap old off ecc h hlow hhigh => ?fatm,
    fun e s k op hrun hret hfab hheld hk hclean horder hhalt hpc hdelay h0 h1 =>
      fifth_letIn hrun hret hfab hheld hk hclean horder hhalt hpc hdelay h0 h1,
    fun e s k at_ sample swap v hk hrun hs hc hr hclean => atomic_completes hk hrun hs hc.1 hr hclean,
    fun e s k hk => fabricOpComplete_missing hk, fun e s r k ac off h halign hw => xac_writes ac h halign hw,
    fun e s r k off h halign hr => ⟨xac_reads_d h halign hr, xac_reads_ac h halign hr⟩⟩
  case fmv =>
    intro at_ read op hread
    obtain ⟨body, hexec, hbody⟩ := fmv_starts s hl1 hl64 ha hs hlow hhigh hread
    exact ⟨fun hroom => hexec.trans (congrArg Host.Outcome.next (issue_fab_room h hbody hroom)),
      fun hfull => hexec.trans (congrArg Host.Outcome.next (issue_fab_full h hbody hfull))⟩
  case fatm =>
    intro op
    obtain ⟨body, hexec, hbody⟩ := fatm_starts swap old ecc s hlow hhigh
    exact ⟨fun hroom => hexec.trans (congrArg Host.Outcome.next (issue_fab_room h hbody hroom)),
      fun hfull => hexec.trans (congrArg Host.Outcome.next (issue_fab_full h hbody hfull))⟩
end

section
/-! The family of the flyer engines: the sets about engines, the domain and publications (R56, R116, R215, R216, R254, R257). -/

namespace Sys2Proof.Machine

variable {s : State} {e sp : EngineId}

/-! FLYER_ASSIGN (R215). -/

theorem storeAll_mode (x : Engine) (a : Nat) (l : List Sample) : (x.storeAll a l).mode = x.mode := by
  induction l generalizing x a with
  | nil => rfl
  | cons v l ih => exact ih ..

/-- An engine whose entry starts has its registers at 0 and its mode as it was (R188). -/
theorem startEntry_registers (entry : Nat) (x : Engine) : (startEntry entry x).mode = x.mode ∧ (startEntry entry x).bg = FlBank.reset ∧
    (startEntry entry x).irq = FlBank.reset ∧ (startEntry entry x).a = Vector.replicate 8 0 ∧ (startEntry entry x).status = 0 := by
  unfold startEntry
  split <;> exact ⟨rfl, rfl, rfl, rfl, rfl⟩

theorem startEntry_calls {entry : Nat} (x : Engine) (h : entry ≠ 0) :
    (startEntry entry x).pc = BitVec.ofNat 14 entry ∧ (startEntry entry x).lr = retAddr .dispatch := by
  simp only [startEntry, if_neg h, and_self]

theorem bank_reset_zero : (∀ r : Fin 16, FlBank.reset.d[r] = 0) ∧ ∀ r : Fin 4, FlBank.reset.ac[r] = 0 :=
  ⟨fun r => Vector.getElem_replicate r.isLt, fun r => Vector.getElem_replicate r.isLt⟩

/-- The image of an assigned program. -/
def assignedImage (p : Byte) (s : State) : Option FlyerImage := (fin? 16 p.toNat).bind fun k => s.progs[k]

/-- Where an assigned program begins; 0 where there is none. -/
def firstEntry (im : Option FlyerImage) : Nat := (im.map fun im => im.entries.getD 0 0).getD 0

theorem firstEntry_assigned {p : Byte} {k : Fin 16} {im : FlyerImage} (hp : fin? 16 p.toNat = some k) (him : s.progs[k] = some im) :
    firstEntry (assignedImage p s) = im.entries.getD 0 0 := by
  simp only [firstEntry, assignedImage, hp, Option.bind_some, him, Option.map_some, Option.getD_some]

/-- The engine's role under an assigned program. -/
def assignedRole (p : Byte) (s : State) (r : EngineRole) : EngineRole :=
  { r with program := fin? 16 p.toNat, image := assignedImage p s, loading := true, mapCache := [], calls := [] }

/-- A strand's transitions start anew (R215). -/
def State.endPlyTransitions (t : State) (i : StrandId) : State := t.modStrand i fun x => { x with
  ply := { x.ply with xCur := x.ply.xCur.map fun _ => 0, xVel := x.ply.xVel.map fun _ => 0, xPos := x.ply.xPos.map fun _ => 0 } }

/-- An assignment changes its engine and its role, and the plies of the engine's strands. -/
theorem applyAssign_eq (e p : Byte) (s : State) : ∃ (f : Engine → Engine) (l : List StrandId), applyAssign e p s =
    l.foldl State.endPlyTransitions ((s.modRole (engineIx e) (assignedRole p s)).modEngine (engineIx e) f) ∧
    ∀ x : Engine, ∃ y : Engine, y.mode = x.mode ∧ f x = startEntry (firstEntry (assignedImage p s)) y := by
  refine ⟨_, _, rfl, fun x => ⟨_, ?mode, rfl⟩⟩
  case mode => exact storeAll_mode ..

theorem applyAssign_role (e p : Byte) (s : State) : (applyAssign e p s).roles[engineIx e] = assignedRole p s s.roles[engineIx e] := by
  obtain ⟨f, l, h, -⟩ := applyAssign_eq e p s
  have hroles := foldl_frame State.roles (f := State.endPlyTransitions) (fun _ _ => rfl) l
  simp only [h, hroles, State.modEngine_roles]
  exact modRole_self ..

/-- An assignment starts the program's first entry on its engine and on no other. -/
theorem applyAssign_engines (e p : Byte) (s : State) : ∃ y : Engine, y.mode = s.engines[engineIx e].mode ∧
    (applyAssign e p s).engines[engineIx e] = startEntry (firstEntry (assignedImage p s)) y ∧
    ∀ k : EngineId, k ≠ engineIx e → (applyAssign e p s).engines[k] = s.engines[k] := by
  obtain ⟨f, l, h, hf⟩ := applyAssign_eq e p s
  obtain ⟨y, hmode, hy⟩ := hf s.engines[engineIx e]
  have hengines := foldl_frame State.engines (f := State.endPlyTransitions) (fun _ _ => rfl) l
  simp only [h, hengines]
  exact ⟨y, hmode, (setEngine_self ..).trans hy, fun k hk => setEngine_other hk ..⟩

/-! ENGINE_RETIRE (R216). -/

theorem modRole_other {j : EngineId} (h : j ≠ e) (f : EngineRole → EngineRole) : (s.modRole e f).roles[j] = s.roles[j] :=
  Vector.getElem_set_ne e.isLt j.isLt fun he => h (Fin.ext he.symm)

/-- The home of the retiring engine goes along. -/
def State.takeHome (t : State) (e dst : EngineId) : State :=
  if t.roles[e].home.isSome then t.modRole dst fun r => { r with home := t.roles[e].home } else t

/-- The strand's work goes to the engine that `go` gives. -/
def State.handOver (go : Strand → EngineId) (t : State) (i : StrandId) : State := t.modStrand i fun x => { x with engine := go x }

/-- The role of the engine that takes over from a retiring one. -/
def takenOver (s : State) (e : EngineId) (r : EngineRole) : EngineRole :=
  { r with program := s.roles[e].program, image := s.roles[e].image, mapCache := [], tookOver := true }

/-- ENGINE_RETIRE moves the engine's strands, with the program its role names, to the spare. -/
theorem migrate_retire_eq (s : State) (e sp : EngineId) : ∃ (f : Engine → Engine) (g : EngineRole → EngineRole) (go : Strand → EngineId),
    s.migrate e sp .retire = (((strandsOfEngine s e).foldl (State.handOver go)
      ((s.modEngine sp f).modRole sp (takenOver s e))).takeHome e sp).modRole e g ∧ ∀ x : Strand, go x = sp := by
  unfold State.migrate
  simp only [reduceCtorEq, if_false, show (MoveKind.retire != MoveKind.second) = true from rfl, if_true, Bool.true_and]
  refine ⟨_, _, _, rfl, fun x => ?_⟩
  split <;> rfl

theorem takeHome_strands (t : State) (e dst : EngineId) : (t.takeHome e dst).strands = t.strands := by
  unfold State.takeHome
  split <;> rfl

theorem takeHome_program (t : State) (e dst : EngineId) :
    (t.takeHome e dst).roles[dst].program = t.roles[dst].program ∧ (t.takeHome e dst).roles[dst].spare = t.roles[dst].spare := by
  unfold State.takeHome
  split
  · rw [modRole_self]
    exact ⟨rfl, rfl⟩
  · exact ⟨rfl, rfl⟩

theorem mem_strandsOfEngine {i : StrandId} : i ∈ strandsOfEngine s e ↔ s.strands[i].engine = e ∧ s.strands[i].cfg.binding ≠ .unbound := by
  simp [strandsOfEngine, State.strandsWhere, indicesOf, bne_iff_ne]

theorem strandsOfEngine_nodup (s : State) (e : EngineId) : (strandsOfEngine s e).Nodup := (List.nodup_finRange _).filter _

/-- The strands a retired engine works for, and no others, go to the spare (R216). -/
theorem migrate_retire_strands (s : State) (e sp : EngineId) (i : StrandId) : (s.migrate e sp .retire).strands[i] =
    if s.strands[i].engine = e ∧ s.strands[i].cfg.binding ≠ .unbound then { s.strands[i] with engine := sp } else s.strands[i] := by
  obtain ⟨f, g, go, h, hgo⟩ := migrate_retire_eq s e sp
  have hfold := foldl_updates State.strands (step := State.handOver go) (f := fun x => { x with engine := go x }) (fun _ _ => rfl)
    (strandsOfEngine_nodup s e) ((s.modEngine sp f).modRole sp (takenOver s e)) i
  simp only [h, State.modRole_strands, takeHome_strands]
  rw [hfold]
  simp only [mem_strandsOfEngine, hgo, State.modRole_strands, State.modEngine_strands]

/-- The spare takes the retired engine's program; whether it counts as a spare does not change with the move (R216). -/
theorem migrate_retire_program (s : State) (h : sp ≠ e) : (s.migrate e sp .retire).roles[sp].program = s.roles[e].program ∧
    (s.migrate e sp .retire).roles[sp].spare = s.roles[sp].spare := by
  obtain ⟨f, g, go, heq, -⟩ := migrate_retire_eq s e sp
  have hroles := foldl_frame State.roles (f := State.handOver go) (fun _ _ => rfl) (strandsOfEngine s e)
    ((s.modEngine sp f).modRole sp (takenOver s e))
  rw [heq, modRole_other h]
  obtain ⟨hprogram, hspare⟩ := takeHome_program
    ((strandsOfEngine s e).foldl (State.handOver go) ((s.modEngine sp f).modRole sp (takenOver s e))) e sp
  simp only [hroles, modRole_self] at hprogram hspare
  exact ⟨hprogram, hspare⟩

theorem endRetire_strands (s : State) (e : EngineId) : (s.endRetire e).strands = s.strands := by
  unfold State.endRetire
  split <;> rfl

theorem endRetire_other (s : State) (h : sp ≠ e) : (s.endRetire e).roles[sp] = s.roles[sp] := by
  unfold State.endRetire
  split
  · simp only [State.modPwr_roles, modRole_other h]
  · rfl

/-- The spare that takes over is none from then on and runs (R216, R279). -/
def State.sparesOut (s : State) (sp : EngineId) : State := (s.modRole sp fun r => { r with spare := false }).wakeEngine sp

theorem applyRetire_eq {e : Byte} (hsp : spareOf s = some sp) (h : sp ≠ engineIx e) :
    applyRetire e s = ((s.sparesOut sp).migrate (engineIx e) sp .retire).endRetire (engineIx e) := by
  simp only [applyRetire, hsp, if_neg h, State.sparesOut]

theorem sparesOut_role (s : State) (sp : EngineId) : (s.sparesOut sp).roles[sp] = { s.roles[sp] with spare := false } :=
  modRole_self s sp fun r => { r with spare := false }

theorem sparesOut_other (s : State) (h : e ≠ sp) : (s.sparesOut sp).roles[e] = s.roles[e] := modRole_other h fun r => { r with spare := false }

/-! SET_CYCLE, which ends later (R69, R257). -/

theorem takeSet_setCycle {o : Origin} {t : Half} (h : checkSet (.setCycle o t) s = stOk) :
    s.takeSet (.setCycle o t) = applySetCycle t (.setCycle o t) s := takeSet_passed rfl h

end Sys2Proof.Machine

open Sys2Proof Sys2Proof.Machine

/-- Settles O31: each set by the state it leaves at its cycle start. -/
theorem engineAndDomainSetsTakeEffect : Obligations.EngineAndDomainSetsTakeEffect := by
  refine ⟨fun s o e p h => ⟨_, setActs_applySet rfl h rfl, ?assign⟩, fun s o e sp h hsp hne => ⟨_, setActs_applySet rfl h rfl, ?retire⟩,
    fun s o h => setActs_applySet rfl h rfl, fun s o t r h hr => ?refused, fun s o t h hr => ?distributed,
    fun s o index source kind => setActs_applySet rfl rfl rfl, fun s o d l h hl => ?subscribe⟩
  case assign =>
    obtain ⟨y, hmode, hengine, hothers⟩ := applyAssign_engines e p s
    obtain ⟨hkeeps, hbg, hirq, ha, hstatus⟩ := startEntry_registers (firstEntry (assignedImage p s)) y
    obtain ⟨hd, hac⟩ := bank_reset_zero
    simp only [applySet, applyAssign_role, hengine, hkeeps, hbg, hirq, ha, hstatus, hd, hac]
    refine ⟨rfl, rfl, rfl, hmode, fun _ => ⟨trivial, trivial⟩, fun _ => ⟨trivial, trivial⟩, fun r => Vector.getElem_replicate r.isLt,
      trivial, fun k im hk him hentry => ?_, hothers⟩
    rw [firstEntry_assigned hk him]
    exact startEntry_calls y hentry
  case retire =>
    obtain ⟨hprogram, hspare⟩ := migrate_retire_program (s.sparesOut sp) hne
    simp only [applySet, applyRetire_eq hsp hne, endRetire_other _ hne, endRetire_strands]
    refine ⟨?_, ?_, migrate_retire_strands (s.sparesOut sp) (engineIx e) sp⟩
    · rw [hspare, sparesOut_role]
    · rw [hprogram, sparesOut_other _ hne.symm]
  case refused =>
    rw [takeSet_setCycle h]
    simp only [applySetCycle, hr]
    rfl
  case distributed =>
    rw [takeSet_setCycle h]
    simp only [applySetCycle, hr]
    rfl
  case subscribe =>
    have ha := setActs_applySet (i := .hostSubscribe o d) (o := o) rfl h rfl
    have happly : applySet (.hostSubscribe o d) s = applySubs (Desc.bytes d) s := rfl
    simpa only [happly, applySubs, hl] using ha
end

section
/-! The family of memory and fabric: the record that the degrading of a link port leaves. -/

namespace Sys2Proof.Machine

/-- Link port S runs with both its lanes locked, over a log whose next record is the last write of its block's life (R281, R287). -/
def portOnLastLogWrite : State :=
  logBlockOnItsLastWrite.modPort .s fun x => { x with lanes := 3, lock := 3 }

/-- When port S there degrades (R236), the record of the lost lane is written, and because that write retires the block, the
record of the retirement too: the log's next number goes from 0 to 2. -/
theorem degrade_on_last_write_logs_twice :
    ∃ t : State, exec (.portDegrade .s false false) portOnLastLogWrite = .next t ∧ t.rec_.logNext = 2 :=
  ⟨_, rfl, by decide⟩

end Sys2Proof.Machine

open Sys2Proof Sys2Proof.Machine

/-- Refutes O53, in its clause on the degrading of a port: where the record of the lost lane is the last write that its MRAM
block bears, the block's retirement is recorded after it (R287), so the log moves on by two records, not one.
`portOnLastLogWrite` is the counterexample. -/
theorem not_linkPortsAndFramesAct : ¬ Obligations.LinkPortsAndFramesAct := by
  rintro ⟨-, -, -, -, hdegrade, -⟩
  obtain ⟨t, htwice, htwo⟩ := degrade_on_last_write_logs_twice
  obtain ⟨t', hone, -, -, -, -, hlog⟩ := hdegrade .s false false portOnLastLogWrite rfl rfl rfl
  have ht : t' = t := by
    rw [hone] at htwice
    injection htwice
  rw [ht, htwo] at hlog
  exact absurd hlog (by decide)
end

section
/-! The family of the memory banks: every step keeps the banks' cells and the MRAM's write counts in canonical form. -/

namespace Sys2Proof.Machine

/-- What each step of a fold keeps, the fold keeps. -/
theorem foldl_keeps {σ α : Type} {P : σ → Prop} {f : σ → α → σ} (hf : ∀ x a, P x → P (f x a)) (l : List α) {x : σ}
    (h : P x) : P (l.foldl f x) := by
  induction l generalizing x with
  | nil => exact h
  | cons a l ih => exact ih (hf x a h)

/-! The banks' operations. -/

section
variable {m : Mem}

theorem Mem.putPoints_wf (chain : List Nat) (k : Nat) (ps : List (BitVec 64)) (h : m.wf = true) :
    (m.putPoints chain k ps).wf = true := by
  induction ps generalizing m k with
  | nil => exact h
  | cons p ps ih => exact ih _ (Mem.mergeWord_wf _ _ h)

theorem Mem.putCam_wf (chain : List Nat) (c : CamBuf) (h : m.wf = true) : (m.putCam chain c).wf = true :=
  Mem.putPoints_wf _ _ _ (foldl_keeps (P := fun n => Mem.wf n = true) (fun _ _ => Mem.mergeWord_wf _ _) _ h)

theorem Mem.putEntry_wf (j : Nat) (e : BitVec 24) (v : Sample) (h : m.wf = true) : (m.putEntry j e v).wf = true :=
  Mem.mergeWord_wf _ _ h

theorem Mem.wf_of_cells {n : Mem} (h : m.wf = true) (e : n.cells = m.cells) : n.wf = true := by
  rw [Mem.wf, e]
  exact h

theorem Mem.putEntries_wf (j : Nat) (es : List (BitVec 24 × Sample)) (h : m.wf = true) : (m.putEntries j es).wf = true := by
  induction es generalizing m j with
  | nil => exact h
  | cons e es ih => exact ih _ (Mem.mergeWord_wf _ _ h)

theorem stageWrite_wf (chain : List Nat) (off : Nat) (bs : List Byte) (h : m.wf = true) : (stageWrite m chain off bs).wf = true := by
  induction bs generalizing m off with
  | nil => exact h
  | cons b bs ih =>
    unfold stageWrite
    refine ih _ ?_
    split
    · exact Mem.mergeByte_wf _ _ h
    · exact h

theorem ringWrite_wf (base off : Nat) (bs : List Byte) (h : m.wf = true) : (ringWrite m base off bs).wf = true := by
  induction bs generalizing m off with
  | nil => exact h
  | cons b bs ih => exact ih _ (Mem.mergeByte_wf _ _ h)

theorem writePoolCfg_wf (v : Nat) (h : m.wf = true) : (writePoolCfg v m).wf = true := by
  unfold writePoolCfg
  extract_lets c
  have hc : c.wf = true := by
    unfold c
    split <;> exact h
  split_ifs
  · exact Mem.build_wf hc
  · exact hc
  · exact hc

theorem fabOut_wf (e : Engine) (n g a : Nat) (h : m.wf = true) : (fabOut e n g a m).wf = true := by
  induction n generalizing m g a with
  | zero => exact h
  | succ n ih => exact ih _ _ (Mem.writeWord_wf _ _ h)

end

/-! States: what every operation is made of. -/

section
variable {s t : State} {α : Type}

/-- The stores are as `Canonical` says. It is a structure of its own because `Canonical` unfolds: Lean would compare two states'
stores by evaluating what made them. -/
structure Tidy (s : State) : Prop where
  cells : s.mem.wf = true
  counts : swf 0 s.rec_.wear = true

theorem tidy_iff : Tidy s ↔ Canonical s := ⟨fun h => ⟨h.cells, h.counts⟩, fun h => ⟨h.1, h.2⟩⟩

theorem Tidy.frame (h : Tidy s) (hm : t.mem = s.mem) (hr : t.rec_ = s.rec_) : Tidy t :=
  ⟨by rw [hm]; exact h.cells, by rw [hr]; exact h.counts⟩

theorem Tidy.ite {p : Prop} [Decidable p] (hs : Tidy s) (ht : Tidy t) : Tidy (if p then s else t) := by
  split
  · exact hs
  · exact ht

theorem Tidy.fst {p : State × α} {x : α} (h : Tidy p.1) (e : p = (s, x)) : Tidy s := by
  rw [e] at h
  exact h

theorem Tidy.pair {x : α} (h : Tidy s) : Tidy (s, x).1 := h

theorem Tidy.iteFst {p : Prop} [Decidable p] {x y : State × α} (hx : Tidy x.1) (hy : Tidy y.1) : Tidy (if p then x else y).1 := by
  split
  · exact hx
  · exact hy

theorem Tidy.foldl {f : State → α → State} {l : List α} (h : Tidy s) (hf : ∀ t a, Tidy t → Tidy (f t a)) :
    Tidy (l.foldl f s) := foldl_keeps hf l h

theorem Tidy.modMem {f : Mem → Mem} (h : Tidy s) (hf : s.mem.wf = true → (f s.mem).wf = true) : Tidy (s.modMem f) :=
  ⟨hf h.cells, h.counts⟩

theorem Tidy.modRec {f : Recovery → Recovery} (h : Tidy s) (hf : swf 0 s.rec_.wear = true → swf 0 (f s.rec_).wear = true) :
    Tidy (s.modRec f) := ⟨h.cells, hf h.counts⟩

/-- What changes no cell. -/
theorem Tidy.modMemFields {f : Mem → Mem} (h : Tidy s) (hf : ∀ m, (f m).cells = m.cells) : Tidy (s.modMem f) :=
  h.modMem fun hm => Mem.wf_of_cells hm (hf _)

/-- What changes no write count. -/
theorem Tidy.modRecFields {f : Recovery → Recovery} (h : Tidy s) (hf : ∀ r, (f r).wear = r.wear) :
    Tidy (s.modRec f) := h.modRec fun hw => by rw [hf]; exact hw

theorem Tidy.withRoles {v : Vector EngineRole 17} (h : Tidy s) : Tidy { s with roles := v } := .frame h rfl rfl

end

/-- Every state an answer goes on with has canonical stores. -/
def Kept (a : Answer) : Prop := ∀ t : State, a = .next t → Tidy t

theorem Kept.next {s : State} (h : Tidy s) : Kept (.next s) := fun _ e => by
  injection e with e
  exact e ▸ h

/-- Every state a step of a long operation leaves has canonical stores. -/
def StepKept : LongStep → Prop
  | .goOn s _ _ => Tidy s
  | .ends s _ _ => Tidy s
  | .endsAt s _ => Tidy s

theorem StepKept.ite {p : Prop} [Decidable p] {x y : LongStep} (hx : StepKept x) (hy : StepKept y) :
    StepKept (if p then x else y) := by
  split
  · exact hx
  · exact hy

/-- What an instruction leaves of the other parts of the device, where it completes, has canonical stores. -/
def IssueKept : Issue → Prop
  | .done s _ _ => Tidy s
  | .trap .. => True
  | .stay _ => True

theorem IssueKept.ite {p : Prop} [Decidable p] {x y : Issue} (hx : IssueKept x) (hy : IssueKept y) :
    IssueKept (if p then x else y) := by
  split
  · exact hx
  · exact hy

theorem IssueKept.done {s : State} {e : Engine} {f : Flow} (h : Tidy s) : IssueKept (.done s e f) := h

/-- The state a command that is taken up leaves has canonical stores. -/
def ClaimKept : Claim → Prop
  | .idle => True
  | .answered s => Tidy s
  | .runs s => Tidy s

theorem ClaimKept.answered {c : Claim} {t : State} (h : ClaimKept c) (e : c = .answered t) : Tidy t := by
  rw [e] at h
  exact h

theorem ClaimKept.runs {c : Claim} {t : State} (h : ClaimKept c) (e : c = .runs t) : Tidy t := by
  rw [e] at h
  exact h

theorem ClaimKept.ite {p : Prop} [Decidable p] {x y : Claim} (hx : ClaimKept x) (hy : ClaimKept y) :
    ClaimKept (if p then x else y) := by
  split
  · exact hx
  · exact hy

end Sys2Proof.Machine
end

section
/-! The family of the memory banks: what every operation of the model does to the banks' cells and the MRAM's write counts, in the
order of the model's files. Each lemma is named after its operation. -/

namespace Sys2Proof.Machine
variable {s t : State}

/-! The operations of Sys2Proof/Machine/Ops.lean. -/

theorem Tidy.setStrand {i : StrandId} {x : Strand} (h : Tidy s) : Tidy (s.setStrand i x) := .frame h rfl rfl

theorem Tidy.modStrand {i : StrandId} {f : Strand → Strand} (h : Tidy s) : Tidy (s.modStrand i f) := h.setStrand

theorem Tidy.setQuad {i : QuadId} {x : Quad} (h : Tidy s) : Tidy (s.setQuad i x) := .frame h rfl rfl

theorem Tidy.modQuad {i : QuadId} {f : Quad → Quad} (h : Tidy s) : Tidy (s.modQuad i f) := h.setQuad

theorem Tidy.setFb {i : FbId} {x : Fb} (h : Tidy s) : Tidy (s.setFb i x) := .frame h rfl rfl

theorem Tidy.modFb {i : FbId} {f : Fb → Fb} (h : Tidy s) : Tidy (s.modFb i f) := h.setFb

theorem Tidy.setMb {i : MbId} {x : Mailbox} (h : Tidy s) : Tidy (s.setMb i x) := .frame h rfl rfl

theorem Tidy.modMb {i : MbId} {f : Mailbox → Mailbox} (h : Tidy s) : Tidy (s.modMb i f) := h.setMb

theorem Tidy.setEngine {i : EngineId} {x : Engine} (h : Tidy s) : Tidy (s.setEngine i x) := .frame h rfl rfl

theorem Tidy.modEngine {i : EngineId} {f : Engine → Engine} (h : Tidy s) : Tidy (s.modEngine i f) := h.setEngine

theorem Tidy.modRole {i : EngineId} {f : EngineRole → EngineRole} (h : Tidy s) : Tidy (s.modRole i f) := .frame h rfl rfl

theorem Tidy.modCan {i : CanId} {f : Can → Can} (h : Tidy s) : Tidy (s.modCan i f) := .frame h rfl rfl

theorem Tidy.modStg {i : StgId} {f : Stg → Stg} (h : Tidy s) : Tidy (s.modStg i f) := .frame h rfl rfl

theorem Tidy.modProbe {i : ProbeId} {f : Probe → Probe} (h : Tidy s) : Tidy (s.modProbe i f) := .frame h rfl rfl

theorem Tidy.modCmp {i : CmpId} {f : Compare → Compare} (h : Tidy s) : Tidy (s.modCmp i f) := .frame h rfl rfl

theorem Tidy.modGroup {i : Fin 32} {f : Group → Group} (h : Tidy s) : Tidy (s.modGroup i f) := .frame h rfl rfl

theorem Tidy.modCam {i : Fin 64} {f : CamTable → CamTable} (h : Tidy s) : Tidy (s.modCam i f) := .frame h rfl rfl

theorem Tidy.modSkein {i : Fin 64} {f : Skein → Skein} (h : Tidy s) : Tidy (s.modSkein i f) := .frame h rfl rfl

theorem Tidy.modExp {i : ExpId} {f : Exp → Exp} (h : Tidy s) : Tidy (s.modExp i f) := .frame h rfl rfl

theorem Tidy.modHost {f : HostIf → HostIf} (h : Tidy s) : Tidy (s.modHost f) := .frame h rfl rfl

theorem Tidy.modDist {f : Distaff → Distaff} (h : Tidy s) : Tidy (s.modDist f) := .frame h rfl rfl

theorem Tidy.modSeq {f : Seq → Seq} (h : Tidy s) : Tidy (s.modSeq f) := .frame h rfl rfl

theorem Tidy.modPwr {f : Power → Power} (h : Tidy s) : Tidy (s.modPwr f) := .frame h rfl rfl

theorem Tidy.modClk {f : Clock → Clock} (h : Tidy s) : Tidy (s.modClk f) := .frame h rfl rfl

theorem Tidy.modLink {f : Link → Link} (h : Tidy s) : Tidy (s.modLink f) := .frame h rfl rfl

theorem Tidy.modTime {f : Time → Time} (h : Tidy s) : Tidy (s.modTime f) := .frame h rfl rfl

theorem Tidy.modSaf {f : Safety → Safety} (h : Tidy s) : Tidy (s.modSaf f) := .frame h rfl rfl

theorem Tidy.modFio {f : FieldIo → FieldIo} (h : Tidy s) : Tidy (s.modFio f) := .frame h rfl rfl

theorem Tidy.modUsb {f : Usb → Usb} (h : Tidy s) : Tidy (s.modUsb f) := .frame h rfl rfl

theorem Tidy.modEth {f : Eth → Eth} (h : Tidy s) : Tidy (s.modEth f) := .frame h rfl rfl

theorem Tidy.modPort {p : Port} {f : LinkPort → LinkPort} (h : Tidy s) : Tidy (s.modPort p f) := h.modLink

theorem Tidy.modIsle {x : Island} {f : IslandState → IslandState} (h : Tidy s) : Tidy (s.modIsle x f) := h.modSaf

theorem Tidy.emit {o : Out} (h : Tidy s) : Tidy (s.emit o) := .frame h rfl rfl

theorem Tidy.tick (h : Tidy s) : Tidy s.tick := .frame h rfl rfl

theorem Tidy.sendMsix {v : Nat} (h : Tidy s) : Tidy (s.sendMsix v) := .ite (.ite h.modHost h.emit) h

theorem Tidy.raise {v : Nat} (h : Tidy s) : Tidy (s.raise v) := .ite h (.ite h.modHost h.modHost.sendMsix)

theorem Tidy.setLevel {src : Fin 25} {lvl : Nat} (h : Tidy s) : Tidy (s.setLevel src lvl) := .ite h.modHost.raise h.modHost

theorem Tidy.setReady {b : Fin 24} {v : Bool} (h : Tidy s) : Tidy (s.setReady b v) := .ite h h.modPwr.raise

theorem Tidy.putRec {cls cause inst detail : Nat} {context : List Int} {flags : Nat} (h : Tidy s) :
    Tidy (s.putRec cls cause inst detail context flags) :=
  .setLevel (.raise (.modRecFields h fun _ => rfl))

theorem Tidy.logWorn {b spares : Nat} (h : Tidy s) : Tidy (s.logWorn b spares) := h.putRec

theorem Tidy.wearOne {b k : Nat} (h : Tidy s) : Tidy (s.wearOne b k) := by
  induction k generalizing s b with
  | zero => exact h.modRec (wearBlock_swf b)
  | succ k ih =>
    have hr : Tidy (s.modRec fun _ => (wearBlock b s.rec_).1) := h.modRec (wearBlock_swf b)
    unfold State.wearOne
    split
    next r worn e =>
    rw [e] at hr
    exact .ite (ih hr.logWorn) hr

theorem Tidy.wearRange {lo n : Nat} (h : Tidy s) : Tidy (s.wearRange lo n) := by
  induction n generalizing s with
  | zero => exact h
  | succ n ih => exact ih h.wearOne

theorem Tidy.mramWrite {off n : Nat} (h : Tidy s) : Tidy (s.mramWrite off n) := h.wearRange

theorem Tidy.logRec {cls cause inst detail : Nat} {context : List Int} {flags : Nat} (h : Tidy s) :
    Tidy (s.logRec cls cause inst detail context flags) :=
  h.putRec.mramWrite

theorem Tidy.logEvent {cls cause inst detail : Nat} (h : Tidy s) : Tidy (s.logEvent cls cause inst detail) := h.logRec

theorem Tidy.bankError {e : EccErr} {requester : Nat} (h : Tidy s) : Tidy (s.bankError e requester) := by
  unfold State.bankError
  split
  · exact h
  next b _ =>
    extract_lets s₁
    have h₁ : Tidy s₁ := h.modMemFields fun _ => rfl
    exact .ite h (.ite (.ite h₁ h₁.logEvent) (h.modMemFields fun _ => rfl))

theorem Tidy.meetErrors {errs : List EccErr} {lo hi requester : Nat} (h : Tidy s) : Tidy (s.meetErrors errs lo hi requester) :=
  .foldl h fun _ _ ht => .ite ht.bankError ht

theorem Tidy.pushCmpl {mb : MbId} {c : Cmpl} (h : Tidy s) : Tidy (s.pushCmpl mb c) := h.modMb

theorem Tidy.settleOwed {w : Owed} {cycle : BitVec 48} (h : Tidy s) : Tidy (s.settleOwed w cycle) := .ite h.modDist.pushCmpl h.modDist

theorem Tidy.finish {i : Instr} {o : Origin} {st : Half} {res : List Byte} (h : Tidy s) : Tidy (s.finish i o st res) := by
  unfold State.finish
  split
  · exact h.settleOwed
  · exact h.pushCmpl

theorem Tidy.finishAt {i : Instr} {o : Origin} {st : Half} {cycle : BitVec 48} (h : Tidy s) : Tidy (s.finishAt i o st cycle) := by
  unfold State.finishAt
  split
  · exact h.settleOwed
  · exact h.pushCmpl

theorem Tidy.takeRequest {mb : MbId} {tag : Fin 32} {reject : Bool} (h : Tidy s) : Tidy (s.takeRequest mb tag reject) :=
  h.modMb.modDist

theorem Tidy.takeTurn {mb : MbId} (h : Tidy s) : Tidy (s.takeTurn mb) := h.modDist

theorem Tidy.dropReports {mb : MbId} {tag : Fin 32} (h : Tidy s) : Tidy (s.dropReports mb tag) := .ite h.modMb h

theorem Tidy.pushReject {mb : MbId} {c : Cmpl} (h : Tidy s) : Tidy (s.pushReject mb c) := h.takeRequest.pushCmpl

theorem Tidy.reject {i : Instr} {o : Origin} {st : Half} (h : Tidy s) : Tidy (s.reject i o st) := h.pushReject

/-! The operations of Sys2Proof/Machine/Accept.lean. -/

theorem Tidy.lockTag {mb : MbId} {tag : Fin 32} (h : Tidy s) : Tidy (s.lockTag mb tag) := h.modMb

theorem Tidy.holdTag {mb : MbId} {tag : Fin 32} (h : Tidy s) : Tidy (s.holdTag mb tag) := h.takeRequest.lockTag

theorem Tidy.startLong {o : Origin} {i : Instr} (h : Tidy s) : Tidy (s.startLong o i) := h.modMb.modDist

theorem Tidy.claim {i : Instr} {o : Origin} (h : Tidy s) : ClaimKept (claim i o s) :=
  .ite (.ite h.pushCmpl trivial) (.ite (.ite h.modDist trivial) (.ite trivial (.ite h.holdTag h.reject)))

theorem Tidy.writeDesc {d : Desc} {off : Nat} {bs : List Byte} (h : Tidy s) (e : writeDesc s d off bs = .ok t) : Tidy t := by
  unfold Machine.writeDesc at e
  split at e
  · split at e
    · exact Except.ok.inj e ▸ h.emit
    · cases e
  · split at e
    · cases e
    · split at e
      · exact Except.ok.inj e ▸ h.modMem (stageWrite_wf _ _ _)
      · cases e

theorem Tidy.refuse {st : Half} (h : Tidy s) : Tidy (refuse s st).1 := .pair h

theorem Tidy.runShort {i : Instr} {o : Origin} {body : State → CmdResult} (h : Tidy s)
    (hb : ∀ t, Tidy t → Tidy (body t).1) : Tidy (runShort i o body s) := by
  unfold Machine.runShort
  split
  · exact h
  next e => exact h.claim.answered e
  next t e =>
    have ht := h.claim.runs e
    exact .ite ht.finish (hb t ht).finish

theorem Tidy.runShortIn {i : Instr} {o : Origin} {d : Desc} {body : List Byte → State → CmdResult} (h : Tidy s)
    (hb : ∀ bs t, Tidy t → Tidy (body bs t).1) : Tidy (runShortIn i o d body s) := by
  refine h.runShort fun t ht => ?_
  split
  · exact ht
  · exact hb _ t ht

theorem Tidy.abortMark {i : Instr} (h : Tidy s) : Tidy (s.abortMark i) := by
  unfold State.abortMark
  split
  · exact h.modCam
  · exact .ite h (h.modRecFields fun _ => rfl)
  · exact h

theorem Tidy.keepStepped {b : Bool} (h : Tidy s) : Tidy (s.keepStepped b) := h.modDist

theorem Tidy.runLong {i : Instr} {o : Origin} {check : State → Half} (h : Tidy s) : Tidy (runLong i o check s) := by
  unfold Machine.runLong
  split
  · exact h
  next e => exact h.claim.answered e
  next t e =>
    have ht := h.claim.runs e
    refine .keepStepped (.ite ht.finish ?_)
    dsimp only
    split
    · exact .finish (.ite ht.abortMark ht)
    · exact .ite ht.startLong ht.finish

/-! The operations of Sys2Proof/Machine/Wake.lean. -/

theorem Tidy.wakeBank {b : BankId} (h : Tidy s) : Tidy (s.wakeBank b) := .ite h (.ite (.modMemFields h.modPwr fun _ => rfl) h.modPwr)

theorem Tidy.serveBank {b : BankId} (h : Tidy s) : Tidy (s.serveBank b) := .ite (.modMemFields h.wakeBank fun _ => rfl) h.wakeBank

theorem Tidy.wakeFn {f : Half} (h : Tidy s) : Tidy (s.wakeFn f) := by
  unfold State.wakeFn
  split
  · exact h.wakeBank
  · exact h.modPwr

theorem Tidy.wakeRange {lo hi : Nat} (h : Tidy s) : Tidy (s.wakeRange lo hi) := .foldl h fun _ _ ht => .ite ht.serveBank ht

theorem Tidy.wakeChain {chain : List Nat} (h : Tidy s) : Tidy (s.wakeChain chain) := .foldl h fun _ _ ht => ht.wakeRange

theorem Tidy.grab (h : Tidy s) : Tidy s.grab.1 := .pair (.modMem (.ite h h.wakeChain) Mem.alloc_wf)

theorem Tidy.grabN {n : Nat} {l : List Nat} (h : Tidy s) (e : s.grabN n = some (t, l)) : Tidy t := by
  induction n generalizing s l with
  | zero =>
    cases e
    exact h
  | succ n ih =>
    unfold State.grabN at e
    split at e
    · cases e
    next u i hg =>
      obtain ⟨⟨v, k⟩, hv, hr⟩ := Option.map_eq_some_iff.mp e
      cases hr
      exact ih (h.grab.fst hg) hv

theorem Tidy.freeChain {l : List Nat} (h : Tidy s) : Tidy (s.freeChain l) := .modMem h.wakeChain (Mem.releaseAll_wf _)

/-! The operations of Sys2Proof/Machine/Motion.lean. -/

theorem Tidy.forceStrand {i : StrandId} {v : Nat} (h : Tidy s) : Tidy (s.forceStrand i v) := by
  unfold State.forceStrand
  extract_lets _
  split
  · exact h.modQuad
  · exact h

theorem Tidy.endTable {i : StrandId} (h : Tidy s) : Tidy (s.endTable i) := by
  unfold State.endTable
  split
  · exact h.modQuad
  · exact h

theorem Tidy.switchOff {i : StrandId} (h : Tidy s) : Tidy (s.switchOff i) := h.forceStrand.endTable

theorem Tidy.immediate {i : StrandId} (h : Tidy s) : Tidy (s.immediate i) := by
  unfold State.immediate
  extract_lets s₁ _ s₂
  have h₁ : Tidy s₁ := h.switchOff
  have h₂ : Tidy s₂ := by
    unfold s₂
    split
    · exact h₁.modStg
    · exact h₁
  exact .ite h₂.modStrand h₂

theorem Tidy.leavePath {i : StrandId} (h : Tidy s) : Tidy (s.leavePath i) := by
  unfold State.leavePath
  split
  · exact h
  · exact .ite h h.modGroup

theorem Tidy.dropDeferred {i : StrandId} (h : Tidy s) : Tidy (s.dropDeferred i) := by
  unfold State.dropDeferred
  split
  · exact h
  · extract_lets s₁
    have h₁ : Tidy s₁ := h.modStrand
    split
    · exact h₁.finish
    · exact h₁

theorem Tidy.giveUp {i : StrandId} (h : Tidy s) : Tidy (s.giveUp i) := h.leavePath.dropDeferred.modStrand

theorem Tidy.enter {i : StrandId} {st : StrandSt} (h : Tidy s) : Tidy (s.enter i st) := .ite h (.ite h.modStrand.raise h.modStrand)

theorem Tidy.beginStop {i : StrandId} {quick : Bool} {decel : Nat} {after : StopEnd} (h : Tidy s) :
    Tidy (s.beginStop i quick decel after) := by
  unfold State.beginStop
  extract_lets _ _ _
  split
  exact h.giveUp.modStrand

theorem Tidy.categoryZero {i : StrandId} (h : Tidy s) : Tidy (s.categoryZero i) := by
  unfold State.categoryZero
  split
  exact h.giveUp.immediate.modStrand

theorem Tidy.react {i : StrandId} {r : Reaction} (h : Tidy s) : Tidy (s.react i r) := by
  unfold State.react
  split
  · exact h.categoryZero
  · exact h.beginStop.modStrand
  · exact h.beginStop.modStrand

theorem Tidy.strandCause {i : StrandId} {cause : Nat} (h : Tidy s) : Tidy (s.strandCause i cause) := by
  unfold State.strandCause
  extract_lets _ _ _
  split
  · exact h
  · exact h.modStrand.logRec
  · exact .ite h.modStrand.react h.modStrand
  · exact h.modStrand.enter.logRec.categoryZero
  · exact h.modStrand.enter.logRec.react

theorem Tidy.raiseCause {i : StrandId} {cause : Nat} (h : Tidy s) : Tidy (s.raiseCause i cause) := .ite h h.modStrand

theorem Tidy.raiseCauses {l : List StrandId} {cause : Nat} (h : Tidy s) : Tidy (s.raiseCauses l cause) :=
  .foldl h fun _ _ ht => ht.raiseCause

theorem Tidy.actCauses {i : StrandId} {p : Nat → Bool} (h : Tidy s) : Tidy (s.actCauses i p) :=
  .foldl h fun _ _ ht => ht.modStrand.strandCause

theorem Tidy.followGates {i : StrandId} (h : Tidy s) : Tidy (s.followGates i) := by
  unfold State.followGates
  extract_lets _ s₁
  have h₁ : Tidy s₁ := .ite h.modStrand h
  split
  · exact h
  · exact .ite (.ite h₁.categoryZero.enter h₁) (.ite (.ite h₁.modStrand.enter h₁.enter) h₁)

theorem Tidy.gatesFall {q : QuadId} (h : Tidy s) : Tidy (s.gatesFall q) := .foldl h fun _ _ ht => ht.modStrand

theorem Tidy.stopDone {i : StrandId} (h : Tidy s) : Tidy (s.stopDone i) := by
  unfold State.stopDone
  extract_lets _ _
  split
  · exact h
  · split
    · exact h.modStrand.switchOff.enter
    · exact h.modStrand.enter
    · exact h.modStrand.switchOff.modStrand
    · exact h

/-! The operations of Sys2Proof/Machine/Strands.lean. -/

theorem Tidy.holdAwake {e : EngineId} (h : Tidy s) : Tidy (s.holdAwake e) := h.wakeFn.modPwr

theorem Tidy.placeSlot {old new : Binding} (h : Tidy s) : Tidy (s.placeSlot old new) := by
  unfold State.placeSlot
  extract_lets drop _
  have hdrop : Tidy (drop s) := by
    dsimp only [drop]
    split
    · exact .foldl h fun _ _ ht => ht.modRole
    · exact h
  split
  · extract_lets _
    split
    · exact hdrop.modRole.holdAwake
    · exact hdrop
  · exact hdrop

theorem Tidy.leaveCan {i : StrandId} {old : Binding} (h : Tidy s) : Tidy (s.leaveCan i old) := by
  unfold State.leaveCan
  split
  · exact h.modCan
  · exact h

theorem Tidy.tripInput {q : QuadId} {p : PairId} (h : Tidy s) : Tidy (s.tripInput q p) := by
  unfold State.tripInput
  split
  · exact h
  · exact h.modQuad.raiseCause

theorem Tidy.gateLatch {q : QuadId} {g : SlotId} (h : Tidy s) : Tidy (s.gateLatch q g) := .ite h (.ite h.modQuad h.modQuad.raiseCauses)

theorem Tidy.meetInputs {i : StrandId} (h : Tidy s) : Tidy (s.meetInputs i) := by
  unfold State.meetInputs
  split
  · exact h
  · exact .ite (.ite h h.modQuad.raiseCause) (.raiseCause (.modQuad (.ite h h.modQuad.raiseCause)))

theorem Tidy.seat {i : StrandId} {old : Binding} (h : Tidy s) : Tidy (s.seat i old) := by
  unfold State.seat
  extract_lets _ _ s₁ s₂ s₃ s₄
  have h₁ : Tidy s₁ := h.placeSlot.modStrand
  have h₂ : Tidy s₂ := h₁.switchOff.wakeFn
  have h₃ : Tidy s₃ := by
    unfold s₃
    split
    · exact h₂.wakeFn
    · exact h₂
  have h₄ : Tidy s₄ := by
    unfold s₄
    split
    · exact h₃.wakeFn
    · exact h₃
  exact h₄.meetInputs

theorem Tidy.applyBind {strand : StrandId} {b : Binding} {fb : Option FbId} (h : Tidy s) : Tidy (applyBind strand b fb s) := by
  unfold Machine.applyBind
  extract_lets _ _ _ _ s₁
  have h₁ : Tidy s₁ := h.switchOff.leaveCan
  split
  exact h₁.modStrand.seat

theorem Tidy.applyConfig {strand : StrandId} {dS phase kP dP reaction limit : Byte} (h : Tidy s) :
    Tidy (applyConfig strand dS phase kP dP reaction limit s) :=
  .ite h.modStrand.switchOff.enter h.modStrand

theorem Tidy.applyCoeff {strand : StrandId} {ply : Nat} {bs : List Byte} (h : Tidy s) : Tidy (applyCoeff strand ply bs s) := by
  unfold Machine.applyCoeff
  extract_lets _
  refine .ite ?_ ?_
  · split
    · exact h.modStrand
    · exact h
  · split
    · exact h
    · exact h.modStrand

theorem Tidy.trackActual {i : StrandId} (h : Tidy s) : Tidy (s.trackActual i) := by
  unfold State.trackActual
  split
  exact h.modStrand

theorem Tidy.applyArm {strand : StrandId} (h : Tidy s) : Tidy (applyArm strand s) := h.trackActual.modStrand.enter

theorem Tidy.applyEnable {strand : StrandId} (h : Tidy s) : Tidy (applyEnable strand s) := by
  unfold Machine.applyEnable
  extract_lets _ s₁ s₂ s₃
  have h₁ : Tidy s₁ := h.trackActual
  have h₂ : Tidy s₂ := by
    unfold s₂
    split
    · exact h₁.modStrand.modQuad
    · exact h₁
  have h₃ : Tidy s₃ := .foldl h₂ fun _ _ ht => ht.modRole
  exact h₃.modStrand.enter

theorem Tidy.applyDisable {strand : StrandId} (h : Tidy s) : Tidy (applyDisable strand s) := h.beginStop.enter

theorem Tidy.applyStop {strand : StrandId} {quick : Bool} {decel : Nat} (h : Tidy s) : Tidy (applyStop strand quick decel s) :=
  .enter (.beginStop (.ite h.modStrand h))

theorem Tidy.stopNowOne {i : StrandId} (h : Tidy s) : Tidy (stopNowOne s i) := .ite h.categoryZero.enter (.ite h.categoryZero h)

theorem Tidy.applyStopNow {strand : Half} (h : Tidy s) : Tidy (applyStopNow strand s) :=
  .ite (.foldl h fun _ _ h => h.stopNowOne) h.stopNowOne

theorem Tidy.beginHold {i : StrandId} (h : Tidy s) : Tidy (s.beginHold i) := by
  unfold State.beginHold
  extract_lets _ _ s₁
  have h₁ : Tidy s₁ := h.leavePath.dropDeferred
  split
  exact h₁.modStrand.enter

theorem Tidy.applyHold {strand : StrandId} {release : Bool} (h : Tidy s) : Tidy (applyHold strand release s) :=
  .ite (.ite h.modStrand.enter h.modStrand) (.ite h.beginHold.modStrand h.modStrand)

theorem Tidy.losesSources (h : Tidy t) : Tidy (s.losesSources t) := h.raiseCauses

theorem Tidy.applyFaultReset {strand : StrandId} (h : Tidy s) : Tidy (applyFaultReset strand s) := by
  unfold Machine.applyFaultReset
  extract_lets _ s₁ s₂
  have h₁ : Tidy s₁ := by
    unfold s₁
    split
    · exact h.modQuad
    · exact h
  have h₂ : Tidy s₂ := by
    unfold s₂
    split
    · exact h₁.modFb
    · exact h₁
  exact h₂.modStrand.enter

theorem Tidy.applyTransfer {strand : StrandId} {manual : Bool} {output : Word} (h : Tidy s) :
    Tidy (applyTransfer strand manual output s) :=
  .modStrand (.ite h.leavePath h)

theorem Tidy.applySource {strand : StrandId} {src : ExtSource} (h : Tidy s) : Tidy (applySource strand src s) := h.modStrand

theorem Tidy.applyProfile {strand : StrandId} {p : ProfileArgs} (h : Tidy s) : Tidy (applyProfile strand p s) := h.modStrand

theorem Tidy.startMove {i : StrandId} {w : Waiting} (h : Tidy s) : Tidy (s.startMove i w) := by
  unfold State.startMove
  split
  exact h.modStrand

theorem Tidy.applyMove {strand : StrandId} {m : Move} {cmd : Instr} (h : Tidy s) : Tidy (applyMove strand m cmd s) :=
  .ite h.dropDeferred.modStrand (.ite h.dropDeferred.modStrand h.dropDeferred.startMove)

theorem Tidy.applyGroup {g : Fin 32} {members : List Half} (h : Tidy s) : Tidy (applyGroup g members s) := by
  unfold Machine.applyGroup
  exact .modGroup (.foldl h fun _ _ ht => ht.modGroup)

/-! The operations of Sys2Proof/Machine/Quads.lean. -/

theorem Tidy.applyQuadConfig {q : QuadId} {mix carrier : Byte} {period : Word} {double : Byte} {phase : Word} (h : Tidy s) :
    Tidy (applyQuadConfig q mix carrier period double phase s) :=
  h.wakeFn.modQuad

theorem Tidy.applyDeadtime {q : QuadId} {p : PairId} {dead : Half} (h : Tidy s) : Tidy (applyDeadtime q p dead s) := h.modQuad

theorem Tidy.applySdf {q : QuadId} {fMod : Word} {osr3 : Half} {osr2 : Byte} (h : Tidy s) : Tidy (applySdf q fMod osr3 osr2 s) :=
  h.modQuad

theorem Tidy.freezeQuad {q : QuadId} (h : Tidy s) : Tidy (s.freezeQuad q) := by
  unfold State.freezeQuad
  exact h.modQuad.modQuad

theorem Tidy.placeCarriers (h : Tidy s) : Tidy s.placeCarriers := .foldl h fun _ _ ht => ht.modQuad

theorem Tidy.fastValue {q : QuadId} {p : PairId} {v : Sample} (h : Tidy s) : Tidy (s.fastValue q p v) :=
  .ite h (.ite h.modQuad.tripInput h.modQuad)

theorem Tidy.stuckInput {q : QuadId} {p : PairId} {stuck : Bool} (h : Tidy s) : Tidy (s.stuckInput q p stuck) :=
  .ite h (.ite h.modQuad.tripInput h.modQuad)

theorem Tidy.gatePin {q : QuadId} {g : SlotId} {level : Bool} (h : Tidy s) : Tidy (s.gatePin q g level) := .ite h h.modQuad.gateLatch

theorem Tidy.gateNews {q : QuadId} (h : Tidy t) : Tidy (s.gateNews t q) := .foldl h fun _ _ ht => .ite ht.gateLatch ht

theorem Tidy.applyTrip {q : QuadId} {input : Byte} {limit : Word} {gf : Byte} (h : Tidy s) : Tidy (applyTrip q input limit gf s) :=
  h.modQuad.gateNews

theorem Tidy.writeTrip {q : QuadId} {v : Word} (h : Tidy s) : Tidy (s.writeTrip q v) := h.modQuad

theorem Tidy.latchAngles {q : QuadId} {go : State → FbId → State} {pi : State → FbId → Int} (h : Tidy s)
    (hgo : ∀ t u, Tidy t → Tidy (go t u)) : Tidy (s.latchAngles q go pi) := by
  unfold State.latchAngles
  refine .foldl h fun t i ht => ?_
  dsimp only
  split
  next u _ _ => exact (hgo t u ht).modFb
  · exact ht

theorem Tidy.currentPly {i : StrandId} (h : Tidy s) : Tidy (s.currentPly i) := by
  unfold State.currentPly
  extract_lets _ _ _ _
  split
  · refine .ite h ?_
    extract_lets _ _ _
    split
    split
    split
    split
    extract_lets _ _ s₁
    have h₁ : Tidy s₁ := h.modStrand
    split
    exact .ite h₁ h₁.modQuad
  · exact h

theorem Tidy.applyStepperConfig {slot : Byte} {offTime : Half} {split : Byte} {current : Word} (h : Tidy s) :
    Tidy (applyStepperConfig slot offTime split current s) :=
  h.modQuad

theorem Tidy.applyMicrostep {q : QuadId} {bs : List Byte} (h : Tidy s) : Tidy (applyMicrostep q bs s) := h.modQuad

theorem Tidy.applyTableStep {strand address scale : Half} (h : Tidy s) : Tidy (applyTableStep strand address scale s) := by
  unfold Machine.applyTableStep
  extract_lets _
  split
  · exact .ite h.switchOff.modQuad h.forceStrand.modQuad.modStrand
  · exact h

theorem Tidy.applyAuxCurve {strand : Half} {hysteresis : Word} {bs : List Byte} (h : Tidy s) :
    Tidy (applyAuxCurve strand hysteresis bs s) :=
  h.modStrand

theorem Tidy.applyAuxCommand {strand : Half} {speed : Word} (h : Tidy s) : Tidy (applyAuxCommand strand speed s) := h.modStrand

theorem Tidy.applyEnlarger {strand : Half} {fb : Byte} {num den : Word} (h : Tidy s) : Tidy (applyEnlarger strand fb num den s) :=
  h.modStrand

theorem Tidy.applyStepgen {g : StgId} {width dirSetup : Word} (h : Tidy s) : Tidy (applyStepgen g width dirSetup s) := h.modStg

/-! The operations of Sys2Proof/Machine/Path.lean. -/

theorem Tidy.applyPathStart {group : Byte} (h : Tidy s) : Tidy (applyPathStart group s) := by
  unfold Machine.applyPathStart
  exact .modGroup (.foldl h fun _ _ ht => ht.dropDeferred.modStrand)

theorem Tidy.applyPathStop {group : Byte} {decel : Word} (h : Tidy s) : Tidy (applyPathStop group decel s) := by
  unfold Machine.applyPathStop
  exact h.modGroup

/-! The operations of Sys2Proof/Machine/Skeins.lean. -/

theorem Tidy.applyCamSwap {table : Half} (h : Tidy s) : Tidy (applyCamSwap table s) := h.modCam

theorem Tidy.editBy {n : Nat} (h : Tidy s) : Tidy (s.editBy n) := by
  unfold State.editBy
  split
  · exact h
  · exact .modDist (.modMem h.wakeChain (Mem.putPoints_wf _ _ _))

theorem Tidy.endEdit (h : Tidy s) : Tidy s.endEdit := by
  unfold State.endEdit
  split
  · refine .ite ?_ h
    extract_lets s₁
    have h₁ : Tidy s₁ := h.modDist
    split
    · exact h₁.finish
    · exact h₁
  · exact h

theorem Tidy.editOn (h : Tidy s) : Tidy s.editOn := by
  unfold State.editOn
  split
  · exact h
  · exact h.editBy.endEdit

theorem Tidy.runCamEdit {i : Instr} {o : Origin} {table : Half} {first : Word} {bs : List Byte} (h : Tidy s) :
    Tidy (runCamEdit i o table first bs s) := by
  unfold Machine.runCamEdit
  split
  · exact h.finish
  · exact .ite h.finish h.modDist.editBy.endEdit.tick

theorem Tidy.dropEntry {j : Nat} (h : Tidy s) : Tidy (s.dropEntry j) := by
  unfold State.dropEntry
  extract_lets _ s₁
  have h₁ : Tidy s₁ := by
    refine h.modMem fun hm => Mem.wf_of_cells (Mem.mergeWord_wf _ _ ?_) rfl
    split
    · exact hm
    · exact Mem.mergeWord_wf _ _ hm
  refine .ite ?_ h₁
  split
  · exact h₁.freeChain.modMemFields fun _ => rfl
  · exact h₁

theorem Tidy.runPubmap {endpoint index : Word} (h : Tidy s) : Tidy (runPubmap endpoint index s).1 := by
  unfold Machine.runPubmap
  extract_lets _ _ s₁ _
  have h₁ : Tidy s₁ := h.wakeChain
  split
  · exact .pair h₁
  · exact .iteFst (.pair h₁.dropEntry) (.pair (.modMem h₁ (Mem.putEntry_wf _ _ _)))
  · refine .iteFst (.pair h₁) (.iteFst (.pair (.modMem h₁ fun hm => Mem.putEntry_wf _ _ _ (Mem.wf_of_cells hm rfl))) ?_)
    split
    next e => exact .pair (.modMem (h₁.grab.fst e) fun hm => Mem.putEntry_wf _ _ _ (Mem.wf_of_cells hm rfl))
    · exact h₁.refuse

theorem Tidy.dropMapCaches (h : Tidy s) : Tidy s.dropMapCaches := .foldl h fun _ _ ht => ht.modRole

theorem Tidy.lookupMap {e : EngineId} {ep : BitVec 24} (h : Tidy s) : Tidy (s.lookupMap e ep).1 := by
  unfold State.lookupMap
  extract_lets _ _
  split
  · exact .pair h.modRole
  · exact .pair h.wakeChain.modRole
  · exact .pair h.wakeChain

theorem Tidy.applySkeinDefine {skein : Byte} {master : Word} {coupling : Byte} {bs : List Byte} (h : Tidy s) :
    Tidy (applySkeinDefine skein master coupling bs s) :=
  h.modSkein

theorem Tidy.applyEngage {skein : Byte} {strand : Half} {ramp : Word} (h : Tidy s) : Tidy (applyEngage skein strand ramp s) := by
  unfold Machine.applyEngage
  extract_lets _ _ s₁
  have h₁ : Tidy s₁ := h.leavePath.dropDeferred
  split
  exact h₁.modStrand

theorem Tidy.applyDisengage {strand : Half} {decel : Word} (h : Tidy s) : Tidy (applyDisengage strand decel s) := by
  unfold Machine.applyDisengage
  extract_lets _
  split
  exact h.modStrand

theorem Tidy.applyRegTrim {skein probe : Byte} {gain limit ramp : Word} (h : Tidy s) :
    Tidy (applyRegTrim skein probe gain limit ramp s) :=
  h.modSkein

theorem Tidy.applyHoldCycles {strand : Half} {hold : Byte} (h : Tidy s) : Tidy (applyHoldCycles strand hold s) := h.modStrand

theorem Tidy.followerUpdate {i : StrandId} {e : Engage} {c : SkeinCfg} {ns : Nat} (h : Tidy s) :
    Tidy (s.followerUpdate i e c ns).1 := by
  unfold State.followerUpdate
  extract_lets _ _ _ _ _
  split
  next s₁ _ e₁ =>
  extract_lets s₂ _
  have h₁ : Tidy s₁ := h.lookupMap.fst e₁
  have h₂ : Tidy s₂ := .ite h₁.wakeChain h₁
  split
  extract_lets _ _
  split
  extract_lets _ _
  refine .iteFst (.pair h₂.modStrand) ?_
  split
  extract_lets _
  split
  extract_lets _
  split
  exact .pair h₂.modStrand

/-! The operations of Sys2Proof/Machine/Feedback.lean. -/

theorem Tidy.applyFbConfig {u : FbId} {c : FbCfg} (h : Tidy s) : Tidy (applyFbConfig u c s) := .ite h.wakeFn.setFb.modFb h.wakeFn.setFb

theorem Tidy.fbFault {u : FbId} (h : Tidy s) : Tidy (s.fbFault u) := h.modFb.losesSources.raiseCauses

theorem Tidy.putFb {i : FbId} {r : Fb × Bool} (h : Tidy s) : Tidy (s.putFb i r) := .ite h.setFb.fbFault h.setFb

theorem Tidy.applyCompare {u : CmpId} {source : Half} {width : Word} {bs : List Byte} (h : Tidy s) :
    Tidy (applyCompare u source width bs s) := by
  unfold Machine.applyCompare
  split
  · exact h
  · exact h.modCmp

theorem Tidy.compareOn {c : CmpId} {u : Fb} (h : Tidy s) : Tidy (s.compareOn c u) := .ite h.modCmp h.modCmp.emit

theorem Tidy.compareRun {c : CmpId} {n : Nat} (h : Tidy s) : Tidy (s.compareRun c n) := .foldl h fun _ _ ht => ht.compareOn

theorem Tidy.runFb {i : FbId} {n : Nat} (h : Tidy s) : Tidy (s.runFb i n) := .modFb (.foldl h fun _ _ ht => ht.compareRun)

theorem Tidy.compareNow {i : FbId} (h : Tidy s) : Tidy (s.compareNow i) := .foldl h fun _ _ ht => ht.compareOn

theorem Tidy.fbEvent {i : FbId} {n : Nat} {f : Nat → Fb → Fb × Bool} (h : Tidy s) : Tidy (s.fbEvent i n f) :=
  h.wakeFn.runFb.putFb.compareNow.tick

theorem Tidy.lineEvent {i : FbId} {n : Nat} {lines : Fb → BitVec 3} {f : Nat → Fb → Fb × Bool} (h : Tidy s) :
    Tidy (s.lineEvent i n lines f) :=
  h.fbEvent

theorem Tidy.enlargeAll {u : FbId} {sg : Int} (h : Tidy s) : Tidy (s.enlargeAll u sg) := by
  unfold State.enlargeAll
  refine .ite h (.foldl h fun _ _ ht => ?_)
  split
  · exact ht.modStrand
  · exact ht

theorem Tidy.dutyAll {u : FbId} {was now : Bool} (h : Tidy s) : Tidy (s.dutyAll u was now) :=
  .ite h (.foldl h fun _ _ ht => ht.modStrand)

theorem Tidy.applyProbeArm {p : ProbeId} {edge mode : Byte} {mask : Rec32} (h : Tidy s) : Tidy (applyProbeArm p edge mode mask s) :=
  h.modProbe

theorem Tidy.advanceTo {u : FbId} {stamp : BitVec 64} (h : Tidy s) : Tidy (s.advanceTo u stamp) := h.modFb

theorem Tidy.probeEdge {p : ProbeId} {falling : Bool} {stamp : BitVec 64} (h : Tidy s) : Tidy (s.probeEdge p falling stamp) := by
  unfold State.probeEdge
  extract_lets _ _ _ s₁ _ _ _ _ s₂
  have h₁ : Tidy s₁ := by
    unfold s₁
    refine .foldl h fun _ _ ht => ?_
    split
    · exact ht.advanceTo
    · exact ht
  have h₂ : Tidy s₂ := .modMem h₁.wakeRange (ringWrite_wf _ _ _)
  refine .ite h (.ite h.modProbe ?_)
  split
  extract_lets s₁
  have h₁ : Tidy s₁ := h₂.modProbe
  refine .tick (.foldl h₁ fun _ _ ht => ?_)
  split
  · exact .ite ht.modSkein ht
  · exact ht

theorem Tidy.takeEvent {i : StrandId} {p : ProbeId} {e : ProbeEvent} (h : Tidy s) : Tidy (s.takeEvent i p e) := by
  unfold State.takeEvent
  extract_lets s₁
  have h₁ : Tidy s₁ := .ite h.modStrand h
  refine .foldl h₁ fun _ _ ht => ?_
  split
  · exact ht.modSkein
  · exact ht

theorem Tidy.takeProbes {i : StrandId} (h : Tidy s) : Tidy (s.takeProbes i) :=
  .foldl h fun _ _ ht => .ite ht (.foldl ht.modProbe fun _ _ ht => ht.takeEvent)

/-! The operations of Sys2Proof/Machine/Outputs.lean. -/

theorem Tidy.feedStg {i : StrandId} {g : StgId} {ns : Nat} (h : Tidy s) : Tidy (s.feedStg i g ns) := by
  unfold State.feedStg
  extract_lets _ _
  refine .ite h ?_
  split
  · exact h.modStg.modStrand
  · exact h.modStg

theorem Tidy.windings {i : StrandId} (h : Tidy s) : Tidy (s.windings i) := by
  unfold State.windings
  extract_lets _
  split
  · exact h.modQuad
  · exact h

theorem Tidy.standAt {i : StrandId} {ref : Int} (h : Tidy s) : Tidy (s.standAt i ref) := h.modStrand.windings

theorem Tidy.stepSequencers {ns : Nat} (h : Tidy s) : Tidy (s.stepSequencers ns) := .foldl h fun _ _ ht => ht.modStrand.standAt

theorem Tidy.feedStepper {i : StrandId} {ns : Nat} (h : Tidy s) : Tidy (s.feedStepper i ns) := .ite h h.modStrand.standAt

theorem Tidy.sendDrive {i : StrandId} {c : CanId} {node : Nat} (h : Tidy s) : Tidy (s.sendDrive i c node) := by
  unfold State.sendDrive
  exact h.modCan

/-! The operations of Sys2Proof/Machine/Update.lean. -/

theorem Tidy.groupStep {i : StrandId} {ns : Nat} (h : Tidy s) : Tidy (s.groupStep i ns) := by
  unfold State.groupStep
  split
  · exact h
  · exact .ite h (.ite h.modGroup (.foldl h.modGroup fun _ _ ht => ht.modStrand))

theorem Tidy.beginWaiting {i : StrandId} (h : Tidy s) : Tidy (s.beginWaiting i) := by
  unfold State.beginWaiting
  extract_lets _
  split
  · refine .ite h ?_
    extract_lets s₁
    have h₁ : Tidy s₁ := h.startMove.modStrand
    split
    · exact h₁.finishAt
    · exact h₁
  · split
    · exact h.startMove
    · exact .ite h.startMove h
    · exact h

theorem Tidy.profileRef {i : StrandId} (h : Tidy s) : Tidy (s.profileRef i).1 := by
  unfold State.profileRef
  split
  · exact .pair h
  · extract_lets s₁ _
    have h₁ : Tidy s₁ := h.beginWaiting
    split
    · split
      exact .pair h₁.modStrand
    · exact .pair h₁

theorem Tidy.untrack {i : StrandId} (h : Tidy s) : Tidy (s.untrack i) := by
  unfold State.untrack
  extract_lets _ s₁
  have h₁ : Tidy s₁ := h.modStrand
  refine .ite h ?_
  split
  · exact h₁.startMove
  · split
    exact h₁.modStrand

theorem Tidy.convRef {i : StrandId} {ch : Nat} {ratio offset : Int} {ns : Nat} (h : Tidy s) :
    Tidy (s.convRef i ch ratio offset ns).1 := by
  unfold State.convRef
  extract_lets _ _
  split
  exact .pair h.modStrand

theorem Tidy.easeIn {i : StrandId} {ns : Nat} {start : Option Int} {p v : Int} (h : Tidy s) : Tidy (s.easeIn i ns start p v).1 := by
  unfold State.easeIn
  extract_lets _ _ _ _
  split
  exact .pair h.modStrand

theorem Tidy.pulseRef {i : StrandId} {u : FbId} {ratio offset : Int} {ns : Nat} (h : Tidy s) :
    Tidy (s.pulseRef i u ratio offset ns).1 :=
  .easeIn (.ite h.modStrand h)

theorem Tidy.enlargeRef {i : StrandId} {ns : Nat} (h : Tidy s) : Tidy (s.enlargeRef i ns).1 := .pair h.setStrand

theorem Tidy.externalRef {i : StrandId} {ns : Nat} (h : Tidy s) : Tidy (s.externalRef i ns).1 := by
  unfold State.externalRef
  extract_lets _
  split
  · exact h.enlargeRef
  · exact h.convRef
  · exact h.pulseRef
  · exact .pair h

theorem Tidy.intakeRef {i : StrandId} {ns : Nat} (h : Tidy s) : Tidy (s.intakeRef i ns).1 := by
  unfold State.intakeRef
  extract_lets _ _ _ _ _ _ _
  split
  · exact .iteFst (.pair h.easeIn.modStrand) (.pair h)
  · exact .pair (.modStrand (.pair h))
  · exact .pair (.modStrand (.pair h))

theorem Tidy.sourceRef {i : StrandId} {ns : Nat} (h : Tidy s) : Tidy (s.sourceRef i ns).1 := by
  unfold State.sourceRef
  extract_lets _ _ use
  have huse : ∀ t src, Tidy t → Tidy (use t src) := fun _ _ ht => ht.modStrand
  refine .iteFst (.pair h.modStrand) ?_
  split
  · split
    · split
      next e => exact .pair (.ite ((huse s 3 h).followerUpdate.fst e).strandCause ((huse s 3 h).followerUpdate.fst e))
    · exact .pair h
  · refine .iteFst ?_ (.iteFst ?_ h.untrack.profileRef)
    · exact .pair (huse _ 2 h.leavePath).externalRef
    · exact .pair (huse _ 1 h.leavePath.intakeRef)

theorem Tidy.runRef {i : StrandId} {ns : Nat} (h : Tidy s) : Tidy (s.runRef i ns).1 := by
  unfold State.runRef
  extract_lets _ _ _
  refine .iteFst h.sourceRef (.iteFst ?_ (.pair h.sourceRef.modStrand))
  split
  exact .pair (.modStrand (h.sourceRef.easeIn.fst ‹_›))

theorem Tidy.latchCtl {i : StrandId} (h : Tidy s) : Tidy (s.latchCtl i) := by
  unfold State.latchCtl
  extract_lets _ _ s₁ _ _ s₂ _
  have h₁ : Tidy s₁ := h.modStrand
  have h₂ : Tidy s₂ := .ite h₁.beginStop.enter h₁
  exact .ite h₂.beginHold (.ite h₂.enter h₂)

theorem Tidy.actSs1 {i : StrandId} (h : Tidy s) : Tidy (s.actSs1 i) :=
  .ite h (.ite h.beginStop.enter (.ite h.beginStop.modStrand (.ite h h.modStrand)))

theorem Tidy.auxUpdate {i : StrandId} {ns : Nat} (h : Tidy s) : Tidy (s.auxUpdate i ns) := by
  unfold State.auxUpdate
  extract_lets _ _
  split
  · exact h
  · exact .ite h (.ite h.modStrand.forceStrand (.ite h.modStrand.forceStrand h.modStrand))

theorem Tidy.stallCount {i : StrandId} (h : Tidy s) : Tidy (s.stallCount i) := by
  unfold State.stallCount
  extract_lets _
  split
  · exact h.modStrand
  · exact h

theorem Tidy.showFlags {i : StrandId} (h : Tidy s) : Tidy (s.showFlags i) := by
  unfold State.showFlags
  split
  exact h.modStrand.modStrand

theorem Tidy.leaveManual {i : StrandId} (h : Tidy s) : Tidy (s.leaveManual i) := by
  unfold State.leaveManual
  split
  exact h.modStrand

theorem Tidy.updateRef {i : StrandId} {ns : Nat} (h : Tidy s) : Tidy (s.updateRef i ns) := by
  unfold State.updateRef
  extract_lets _ _ s₁ _
  have h₁ : Tidy s₁ := .ite h.leaveManual h
  refine .ite h.trackActual ?_
  split
  · split
    exact .modStrand (.pair (.ite h.modStrand h))
  · refine .ite ?_ ?_
    · split
      exact .modStrand (.pair h.modStrand)
    · refine .ite h₁.runRef.modStrand ?_
      split
      · split
        exact .modStrand (.pair h₁)
      · exact .modStrand (.pair h₁)

theorem Tidy.callEntry {i : StrandId} {entry : Nat} (h : Tidy s) : Tidy (s.callEntry i entry) := h.modRole

theorem Tidy.userStrand {i : StrandId} (h : Tidy s) : Tidy (s.userStrand i) := .ite (.ite h.callEntry.modStrand h.callEntry) h

theorem Tidy.graveEvents {i : StrandId} (h : Tidy s) : Tidy (s.graveEvents i) := by
  unfold State.graveEvents
  extract_lets s₁ _ s₂ s₃
  have h₁ : Tidy s₁ := h.followGates
  have h₂ : Tidy s₂ := by
    unfold s₂
    split
    · split
      · exact .ite h₁.raiseCause h₁
      · exact h₁
    · exact h₁
  have h₃ : Tidy s₃ := h₂.actCauses
  exact .ite h₃.modStrand.stopNowOne h₃

theorem Tidy.otherEvents {i : StrandId} (h : Tidy s) : Tidy (s.otherEvents i) :=
  .ite h.actCauses (.ite h.actCauses.modStrand.stopDone h.actCauses.modStrand)

theorem Tidy.extendBound {i : StrandId} (h : Tidy s) : Tidy (s.extendBound i) := by
  unfold State.extendBound
  split
  · exact h.modFb
  · exact h

theorem Tidy.strandUpdate {i : StrandId} (h : Tidy s) : Tidy (s.strandUpdate i) := by
  unfold State.strandUpdate
  extract_lets s₁ ns s₂ s₃ s₄ s₅ s₆ s₇ s₈
  have h₁ : Tidy s₁ := h.extendBound.graveEvents.otherEvents
  have h₂ : Tidy s₂ := .ite (.ite h₁.forceStrand.modStrand h₁) h₁
  have h₅ : Tidy s₅ := h₂.latchCtl.actSs1.takeProbes.groupStep
  have h₇ : Tidy s₇ := .userStrand (.ite h₅.auxUpdate h₅.updateRef)
  have h₈ : Tidy s₈ := by
    unfold s₈
    split
    · exact h₇.feedStepper
    · exact h₇.feedStg
    · exact h₇.sendDrive
    · exact h₇
  exact h₈.stallCount.showFlags

theorem Tidy.plyStep {i : StrandId} {j : Nat} (h : Tidy s) : Tidy (s.plyStep i j) := by
  unfold State.plyStep
  extract_lets _ _ s₁ _ _ s₂ s₃
  have h₁ : Tidy s₁ := h.callEntry
  have h₂ : Tidy s₂ := h.modStrand
  have h₃ : Tidy s₃ := by
    unfold s₃
    split
    · exact h₂.modStrand
    · exact h₂.modStrand
    · exact h₂
  refine .ite h (.ite ?_ h₃.modStrand.tick)
  split
  exact h₁.modStrand.tick

/-! The operations of Sys2Proof/Machine/Engine.lean. -/

theorem Tidy.moveSlot {e : EngineId} {k : Fin 4} {dst : EngineId} (h : Tidy s) : Tidy (s.moveSlot e k dst) := by
  unfold State.moveSlot
  split
  · exact h.modEngine.modEngine.modRole.holdAwake.modRole
  · exact h

theorem Tidy.spoilBlock {e : EngineId} {k : Fin 4} (h : Tidy s) : Tidy (s.spoilBlock e k) := by
  unfold State.spoilBlock
  extract_lets _
  split
  · exact .ite h h.modEngine.raiseCauses
  · exact h

theorem Tidy.wakeEngine {e : EngineId} (h : Tidy s) : Tidy (s.wakeEngine e) := h.modPwr

theorem Tidy.moveSlots {e dst : EngineId} (h : Tidy s) : Tidy (s.moveSlots e dst) := .foldl h fun _ _ ht => ht.spoilBlock.moveSlot

theorem Tidy.engineFault {e : EngineId} (h : Tidy s) : Tidy (s.engineFault e) := by
  unfold State.engineFault
  refine .ite h ?_
  extract_lets +onlyGivenNames s₁ s₂
  have h₁ : Tidy s₁ := h.modEngine.logRec
  have h₂ : Tidy s₂ := h₁.withRoles
  split
  · exact h₂.modRole.moveSlots
  · exact h₂.modRole.modRole.wakeEngine.modRole.moveSlots
  · extract_lets _ _ s₃ s₄
    have h₄ : Tidy s₄ := by
      refine .foldl h₂.modRole fun _ _ ht => ?_
      split
      · split
        · exact ht.spoilBlock.moveSlot
        · exact ht
      · exact ht
    exact .raiseCauses (.foldl h₄ fun _ _ ht => ht.modRole)

theorem Tidy.trap {i : EngineId} {cause : Nat} {info : Word} (h : Tidy s) : Tidy (s.trap i cause info) :=
  .ite h.setEngine.engineFault h.setEngine

theorem Tidy.spoilLocal {e : EngineId} (h : Tidy s) : Tidy (s.spoilLocal e) := h.modEngine.raiseCauses

theorem Tidy.migrate {e dst : EngineId} {kind : MoveKind} (h : Tidy s) : Tidy (s.migrate e dst kind) := by
  unfold State.migrate
  extract_lets _ _ s₁ _ _ _ _ s₂ _ s₃ s₄
  have h₁ : Tidy s₁ := .ite h.spoilLocal h
  have h₂ : Tidy s₂ := .ite h₁.modEngine.modRole h₁.modRole
  have h₃ : Tidy s₃ := .foldl h₂ fun _ _ ht => ht.modStrand
  have h₄ : Tidy s₄ := .ite h₃.modRole h₃
  exact h₄.modRole

theorem Tidy.endRetire {e : EngineId} (h : Tidy s) : Tidy (s.endRetire e) := .ite h.modRole.modPwr h

theorem Tidy.reroute {e : EngineId} {k : Fin 4} (h : Tidy s) : Tidy (s.reroute e k) := by
  unfold State.reroute
  split
  · exact h.moveSlot.endRetire
  · exact h

theorem Tidy.endHandler {i : EngineId} (h : Tidy s) : Tidy (s.endHandler i) := by
  unfold State.endHandler
  extract_lets s₁ s₂
  have h₁ : Tidy s₁ := h.modEngine
  have h₂ : Tidy s₂ := by
    unfold s₂
    split
    · exact h₁.reroute
    · exact h₁
  exact h₂.modEngine

theorem Tidy.beginHandler {i : EngineId} (h : Tidy s) : Tidy (s.beginHandler i) := by
  unfold State.beginHandler
  split
  · exact h.endHandler
  · split
    · exact h.endHandler
    · refine .ite h.endHandler (.ite h.modEngine ?_)
      split
      · exact h.currentPly.endHandler
      · exact h.endHandler

theorem Tidy.abandon {i : EngineId} {st : StrandId} (h : Tidy s) : Tidy (s.abandon i st) := by
  unfold State.abandon
  exact h.modStrand.modRole.modEngine

theorem Tidy.dispose {i : EngineId} (h : Tidy s) : Tidy (s.dispose i) := by
  unfold State.dispose
  extract_lets _ _ _
  refine .ite ?_ (.ite h.raiseCause.abandon (.ite h.modEngine h.logRec.raiseCause.abandon))
  split
  · exact h.endHandler
  · split
    · exact h.endHandler
    · exact .endHandler (.ite h.raiseCause.modStrand h.modRole.switchOff.modStrand.raiseCause)

theorem Tidy.endExc {i : EngineId} {link : BitVec 14} (h : Tidy s) : Tidy (s.endExc i link) :=
  .ite h.setEngine h.setEngine.logRec.raiseCause.abandon

theorem Tidy.dispatch {i : EngineId} (h : Tidy s) : Tidy (s.dispatch i) := by
  unfold State.dispatch
  split
  · exact h.modEngine.trap
  · exact h.modEngine
  · exact h.modRole.modEngine

theorem Tidy.runtimeStep {i : EngineId} (h : Tidy s) (e : s.runtimeStep i = some t) : Tidy t := by
  unfold State.runtimeStep at e
  extract_lets at e
  split at e
  · cases e
  split at e
  · split at e
    · split at e
      · exact Option.some.inj e ▸ h.dispose
      · cases e
    · split at e
      · exact Option.some.inj e ▸ h.endExc
      · cases e
  split at e
  · split at e
    · split at e
      · exact Option.some.inj e ▸ h.endHandler
      · cases e
    · split at e
      · exact Option.some.inj e ▸ h.beginHandler
      · cases e
  split at e
  · exact Option.some.inj e ▸ h.dispatch
  · cases e

theorem Tidy.runtimeRun {n : Nat} {i : EngineId} (h : Tidy s) : Tidy (State.runtimeRun n s i) := by
  induction n generalizing s with
  | zero => exact h
  | succ n ih =>
    unfold State.runtimeRun
    split
    next e => exact ih (h.runtimeStep e)
    · exact h

theorem Tidy.runtime {i : EngineId} (h : Tidy s) : Tidy (s.runtime i) := h.runtimeRun

theorem Tidy.runtimes2 {i : EngineId} (h : Tidy s) : Tidy (s.runtimes2 i) := by
  unfold State.runtimes2
  split
  · exact h.runtime.runtime
  · exact h.runtime

theorem Tidy.slotReady {e : EngineId} {k : Fin 4} {x : FlSlot} {peak : Bool} (h : Tidy s) : Tidy (s.slotReady e k x peak) :=
  h.modEngine.modRole.modEngine.runtimes2

theorem Tidy.quadReady {q : QuadId} {at_ : SampleInstant} {data : List (List Bool)} (h : Tidy s) : Tidy (s.quadReady q at_ data) := by
  unfold State.quadReady
  extract_lets s₁ s₂
  have h₁ : Tidy s₁ := h.modQuad
  have h₂ : Tidy s₂ := h₁.latchAngles fun _ _ ht => ht.modFb
  exact .tick (.foldl h₂ fun _ _ ht => ht.slotReady)

theorem Tidy.applyAssign {engine program : Byte} (h : Tidy s) : Tidy (applyAssign engine program s) :=
  .foldl h.modRole.modEngine fun _ _ ht => ht.modStrand

theorem Tidy.applyRetire {engine : Byte} (h : Tidy s) : Tidy (applyRetire engine s) := by
  unfold Machine.applyRetire
  extract_lets _
  split
  · exact h
  · exact .ite h h.modRole.wakeEngine.migrate.endRetire

theorem Tidy.debugHalt {e : EngineId} (h : Tidy s) : Tidy (s.debugHalt e) := .foldl h.modEngine.modRole fun _ _ h => h.freezeQuad

theorem Tidy.haltIfDue {e : EngineId} (h : Tidy s) : Tidy (s.haltIfDue e) := .ite h.debugHalt h

theorem Tidy.debugStep {e : EngineId} (h : Tidy s) : Tidy (s.debugStep e) := by
  unfold State.debugStep
  extract_lets s₁
  have h₁ : Tidy s₁ := h.modEngine
  split
  · exact .modEngine (h₁.runtimeStep ‹_›)
  · exact h₁

theorem Tidy.runDebug {engine action : Byte} (h : Tidy s) : Tidy (runDebug engine action s).1 := by
  unfold Machine.runDebug
  extract_lets _ _ s₁
  have h₁ : Tidy s₁ := h.modEngine.runtime
  refine .iteFst h.refuse ?_
  split
  · exact .pair h.modRole.haltIfDue
  · exact .pair (.ite h.debugStep h)
  · exact .iteFst (.pair (.foldl h₁ fun _ _ ht => .ite ht ht.modQuad)) (.pair h.modRole)

/-! The operations of Sys2Proof/Machine/Regs.lean. -/

theorem Tidy.syncPort {p : Port} (h : Tidy s) : Tidy (s.syncPort p) := h.setReady

theorem Tidy.settlePort {p : Port} (h : Tidy s) : Tidy (s.settlePort p) := .ite h h.modPort.syncPort.raise

theorem Tidy.moveQueue {p : Port} (h : Tidy s) : Tidy (s.moveQueue p) := by
  unfold State.moveQueue
  exact h.modPort.modPort

theorem Tidy.portDown {p : Port} (h : Tidy s) : Tidy (s.portDown p) := .raise (.syncPort (.ite h.modPort.moveQueue h.modPort))

theorem Tidy.checkPort {p : Port} (h : Tidy s) : Tidy (s.checkPort p) := .ite h.portDown h

theorem Tidy.modDom {d : Dom} {f : TimeDom → TimeDom} (h : Tidy s) : Tidy (s.modDom d f) := h.modTime

theorem Tidy.switchTo {d : Dom} (h : Tidy s) : Tidy (s.switchTo d) := h.modTime.raise

theorem Tidy.takeSel (h : Tidy s) : Tidy s.takeSel := .ite h.switchTo h

theorem Tidy.afterRead {a : Nat} (h : Tidy s) : Tidy (s.afterRead a) := .ite h.modTime h

theorem Tidy.writeReg {a : Nat} {w : Word} (h : Tidy s) : Tidy (s.writeReg a w) :=
  .ite h.modClk (.ite h.writeTrip (.ite h.modQuad (.ite h.modQuad (.ite h.modFb (.ite (.ite h.modCmp h) (.ite (.ite h.modProbe h)
    (.ite h.modStg (.ite h.modPort.checkPort (.ite h.modLink (.ite h.modLink (.ite (.ite h.modLink h) (.ite h.modSeq (.ite (.ite
    h.modTime.takeSel h.modTime) (.ite h.modExp (.ite h.modCan (.ite (.ite h.modUsb h) (.ite (.modMemFields h fun _ => rfl) (.ite
    (.modMem h (writePoolCfg_wf _)) (.ite (.ite (.modMemFields h fun _ => rfl) h) h)))))))))))))))))))

theorem Tidy.writeInternal {a : Nat} {v : Word} (h : Tidy s) : Tidy (s.writeInternal a v) :=
  .ite (.modMem h (Mem.mergeBytes_wf _ _)) (.ite (.modMem h (Mem.setSample_wf _ _)) h.writeReg)

/-! The operations of Sys2Proof/Machine/Send.lean. -/

theorem Tidy.enqueue {p : Port} {f : Frame} (h : Tidy s) : Tidy (s.enqueue p f) := by
  unfold State.enqueue
  split
  · exact .modPort (h.grab.fst ‹_›)
  · exact .modMemFields h fun _ => rfl

theorem Tidy.spread {f : Frame} {but : Option Port} (h : Tidy s) : Tidy (s.spread f but) :=
  .ite (.foldl h fun _ _ ht => ht.enqueue) h.enqueue

theorem Tidy.sendBody {dst : BitVec 14} {kind : BitVec 4} {data : List (BitVec 64)} {body : FrameBody} (h : Tidy s) :
    Tidy (s.sendBody dst kind data body) :=
  h.modLink.spread

theorem Tidy.sendFrame {dst : BitVec 14} {kind : BitVec 4} {data : List (BitVec 64)} (h : Tidy s) : Tidy (s.sendFrame dst kind data) :=
  h.sendBody

/-! The operations of Sys2Proof/Machine/Announce.lean. -/

theorem Tidy.trackUp {d : Dom} (h : Tidy s) : Tidy (s.trackUp d) := by
  unfold State.trackUp
  refine .ite h ?_
  split
  · exact .ite h h.modDom
  · exact h

theorem Tidy.newMaster (h : Tidy s) : Tidy s.newMaster := h.modTime.raise

theorem Tidy.heedHops {p : Port} {f : Frame} (h : Tidy s) : Tidy (s.heedHops p f) := by
  unfold State.heedHops
  split
  · exact .ite h.modDom.trackUp h
  · exact h

theorem Tidy.heed {p : Port} {a : Announcement} (h : Tidy s) : Tidy (s.heed p a) :=
  .ite h (.trackUp (.ite h.modDom h.modDom.newMaster))

/-! The operations of Sys2Proof/Machine/FlyerOps.lean. -/

theorem Tidy.afterIssue {i : EngineId} (h : Tidy s) : Tidy (s.afterIssue i) := h.runtimes2.haltIfDue

theorem IssueKept.judged {x : Engine} {r : Issue} (h : IssueKept r) : IssueKept (judged x r) := by
  unfold Machine.judged
  split
  · trivial
  · exact .ite h trivial

theorem Tidy.issue {i : EngineId} {cycles : Nat} {keep : Bool} {body : State → Engine → Issue} (h : Tidy s)
    (hb : ∀ t x, Tidy t → IssueKept (body t x)) : Tidy (issue i cycles keep body s) := by
  unfold Machine.issue
  extract_lets x
  have hx : IssueKept (judged x (body s x)) := (hb s x h).judged
  refine .ite h (.ite h.engineFault ?_)
  split
  · exact .runtime (.trap (.ite h.modEngine h))
  · exact h.setEngine
  next t y fl e =>
    rw [e] at hx
    exact .tick (.afterIssue (.setEngine hx))

theorem Tidy.onEngine {f : Engine → Engine} {e : Engine} (h : Tidy s) : IssueKept (onEngine f s e) := h

theorem Tidy.countLocal {i : EngineId} {n : Nat} (h : Tidy s) : Tidy (s.countLocal i n) := .ite h h.modRole

theorem Tidy.corrected {i : EngineId} {m : MemSlot} (h : Tidy s) : Tidy (s.corrected i m) := h.countLocal

theorem IssueKept.withSlot {i : EngineId} {m : MemSlot} {body : State → Engine → Issue} {e : Engine} (h : IssueKept (body s e)) :
    IssueKept (withSlot i m body s e) := by
  unfold Machine.withSlot
  refine .ite trivial (.ite trivial ?_)
  split
  next hd =>
    rw [hd] at h
    exact Tidy.corrected h
  · exact h

theorem Tidy.issueA {i : EngineId} {m : MemSlot} {f : Nat → Engine → Engine} (h : Tidy s) : Tidy (issueA i m f s) :=
  .issue h fun _ _ ht => .withSlot ht.onEngine

theorem Tidy.branchTo {c : BitVec 4} {target : Engine → BitVec 14} {f : Engine → Engine} {e : Engine} (h : Tidy s) :
    IssueKept (branchTo c target f s e) := by
  unfold Machine.branchTo
  split
  · exact trivial
  · exact h
  · exact h

theorem Tidy.startLoop {level : Bool} {size : Nat} {count : Sample} {le : BitVec 14} {e : Engine} (h : Tidy s) :
    IssueKept (startLoop level size count le s e) :=
  h

theorem Tidy.startFab {op : FabOp} {e : Engine} (h : Tidy s) : IssueKept (startFab op s e) := .ite trivial h

theorem Tidy.runFab {i : EngineId} {op : FabOp} (h : Tidy s) : Tidy (s.runFab i op) := by
  unfold State.runFab
  split
  · exact .ite (.modMem h.wakeRange (fabOut_wf _ _ _ _)) h.wakeRange.meetErrors.modEngine
  · extract_lets _ s₁ s₂ _
    have h₁ : Tidy s₁ := h.wakeRange
    have h₂ : Tidy s₂ := h₁.meetErrors
    exact .ite h₂.modEngine (.modEngine (.modMem h₂ (Mem.setSample_wf _ _)))

theorem Tidy.unstall {i : EngineId} (h : Tidy s) : Tidy (s.unstall i) := by
  unfold State.unstall
  extract_lets _
  split
  · extract_lets _
    refine .ite h ?_
    split
    · exact h.countLocal.setEngine.afterIssue
    · exact h.setEngine.trap.runtime
    · exact h.setEngine.afterIssue
  · exact h

theorem Tidy.runXac {i : EngineId} {reg : BitVec 4} {k : BitVec 2} {read ac : Bool} {offset : Word} {e : Engine} (h : Tidy s) :
    IssueKept (runXac i reg k read ac offset s e) :=
  .ite trivial (.ite (.ite h.afterRead h.afterRead) h.writeReg)

/-! The operations of Sys2Proof/Machine/Flyer.lean. -/

theorem Tidy.extremeIndex {better : Int → Int → Bool} {i : EngineId} {dst s1 s2 : BitVec 4} {m : MemSlot} (h : Tidy s) :
    Tidy (extremeIndex better i dst s1 s2 m s) :=
  .issue h fun _ _ ht => .withSlot (.ite trivial (.ite ht ht))

theorem IssueKept.divStep {key : Nat} {x : Engine} {r : Fin 4} {v : Sample} {i : Issue} (e : divStep key x r v = .inl i) :
    IssueKept i := by
  unfold Machine.divStep at e
  extract_lets _ _ at e
  split at e
  · exact Sum.inl.inj e ▸ trivial
  split at e
  · exact Sum.inl.inj e ▸ trivial
  · cases e

theorem Tidy.execFlDivs {e : EngineId} {dst s1 : BitVec 4} {m : MemSlot} (h : Tidy s) : Kept (execFlDivs e dst s1 m s) := by
  refine .next (.issue h fun t x ht => .withSlot ?_)
  split
  next r e => exact .divStep e
  · exact ht

theorem Tidy.writeAddr {i : EngineId} {m : MemSlot} {dst : BitVec 4} {f : Engine → BitVec 20} (h : Tidy s) :
    Tidy (writeAddr i m dst f s) := by
  unfold Machine.writeAddr
  refine .issue h fun t x ht => ?_
  have hw : IssueKept (withSlot i m (Machine.onEngine fun x => { x with a := x.a.set (addr8 dst) (f x) }) t x) := .withSlot ht
  split
  next e =>
    rw [e] at hw
    exact hw
  · exact hw

theorem Tidy.execFlMovc {e : EngineId} {dst s1 s2 : BitVec 4} {m : MemSlot} (h : Tidy s) : Kept (execFlMovc e dst s1 s2 m s) := by
  unfold Machine.execFlMovc
  refine .next (.issue h fun _ _ ht => .withSlot ?_)
  extract_lets _
  split
  · exact trivial
  · exact ht

theorem Tidy.execFlHalt {e : EngineId} (h : Tidy s) : Kept (execFlHalt e s) := by
  unfold Machine.execFlHalt
  refine .next (.issue h fun _ _ ht => ?_)
  split
  · exact trivial
  · exact .ite ht trivial

theorem Tidy.execFlReti {e : EngineId} (h : Tidy s) : Kept (execFlReti e s) := by
  unfold Machine.execFlReti
  refine .next (.issue h fun _ _ ht => ?_)
  extract_lets s₁
  have h₁ : Tidy s₁ := by
    unfold s₁
    split
    · exact ht.reroute
    · exact ht
  exact h₁

theorem Tidy.execFlWaitf {e : EngineId} {n : BitVec 2} (h : Tidy s) : Kept (execFlWaitf e n s) := by
  unfold Machine.execFlWaitf
  refine .next (.issue h fun _ _ ht => .ite ?_ trivial)
  split
  · exact trivial
  · exact ht

theorem Tidy.execFlFmv {e : EngineId} {reg : BitVec 3} {k : BitVec 2} {toBanks : Bool} {lines : BitVec 7} {offset : BitVec 24}
    {ecc : List EccErr} (h : Tidy s) : Kept (execFlFmv e reg k toBanks lines offset ecc s) := by
  unfold Machine.execFlFmv
  refine .next (.issue h fun _ _ ht => ?_)
  extract_lets _ _ _ _
  split
  · exact trivial
  · exact .ite trivial (.ite trivial ht.countLocal.startFab)

theorem Tidy.execFabricOpComplete {e : EngineId} {k : Fin 4} (h : Tidy s) : Kept (execFabricOpComplete e k s) := by
  unfold Machine.execFabricOpComplete
  refine .next ?_
  split
  · exact h
  · exact h.runFab.modEngine.unstall

/-! The operations of Sys2Proof/Machine/Power.lean. -/

theorem Tidy.enterPwr {f : Half} {st : PwrState} (h : Tidy s) : Tidy (s.enterPwr f st) := by
  unfold State.enterPwr
  extract_lets _ s₁
  have h₁ : Tidy s₁ := h.modPwr
  refine .ite ?_ h₁
  split
  · exact .tick (.modMem h₁ (bankOff_wf _ _))
  · exact h₁.modEngine.tick
  · exact h₁

theorem Tidy.execPowerStateEntry {function : Half} (h : Tidy s) : Kept (execPowerStateEntry function s) := by
  unfold Machine.execPowerStateEntry
  refine .next ?_
  split
  · exact h
  · exact .ite h.enterPwr h

theorem Tidy.setTolerance {function : Half} {ns : Word} (h : Tidy s) : Tidy (setTolerance function ns s) := by
  unfold Machine.setTolerance
  split
  · exact h
  · exact .ite (.ite h.modPwr.wakeFn h.modPwr) h.modPwr

/-! The operations of Sys2Proof/Machine/Memory.lean. -/

theorem Tidy.mergeParts {k a : Nat} {bs : List Byte} {portA : List Nat} (h : Tidy s) :
    Tidy (State.mergeParts k a bs portA s) := by
  induction k generalizing s a bs with
  | zero => exact h
  | succ k ih =>
    refine ih (h.modMem fun hm => ?_)
    split
    · split <;> exact hm
    · exact Mem.mergeBytes_wf _ _ hm

theorem Tidy.mergeWrite {a : Nat} {bs : List Byte} {ecc : List EccErr} {portA : List Nat} {who : Nat} (h : Tidy s) :
    Tidy (s.mergeWrite a bs ecc portA who) := by
  unfold State.mergeWrite
  extract_lets s₁
  have h₁ : Tidy s₁ := h.wakeRange.meetErrors
  exact .ite (.modMem h₁ (Mem.mergeBytes_wf _ _)) h₁.mergeParts

theorem Tidy.execBar2Access {offset : BitVec 25} {size : Nat} {write : Option (List Byte)} {portA : List Nat} {ecc : List EccErr}
    (h : Tidy s) : Kept (execBar2Access offset size write portA ecc s) := by
  unfold Machine.execBar2Access
  refine .next (.ite h (.ite ?_ ?_))
  · extract_lets s₁
    have h₁ : Tidy s₁ := h.modHost
    split
    · exact h₁
    · exact h₁.emit
  · extract_lets _ _ s₁
    have h₁ : Tidy s₁ := h.wakeRange.meetErrors
    split
    · exact h.mergeWrite.tick
    · exact h₁.emit

theorem Tidy.execBobbinAllocate {requester : PoolUser} (h : Tidy s) : Kept (execBobbinAllocate requester s) := by
  unfold Machine.execBobbinAllocate
  refine .next (.ite h ?_)
  split
  · exact .modMemFields (h.grab.fst ‹_›) fun _ => rfl
  · exact .modMemFields (h.grab.fst ‹_›) fun _ => rfl
  · exact .modMemFields h fun _ => rfl
  · exact h
  · exact .modMemFields h fun _ => rfl

theorem Tidy.keepRows {b : BankId} {row : Nat} (h : Tidy s) : Tidy (s.keepRows b row) := h.logEvent.mramWrite

theorem Tidy.execScrubPass {bank : BankId} {ecc : List EccErr} (h : Tidy s) : Kept (execScrubPass bank ecc s) := by
  unfold Machine.execScrubPass
  refine .next ?_
  extract_lets _ _ _ s₁ _ _ s₂
  have h₁ : Tidy s₁ := h.meetErrors
  have h₂ : Tidy s₂ := .modMemFields h₁ fun _ => rfl
  exact .ite h (.foldl h₂ fun _ _ ht => .keepRows (.modMemFields ht fun _ => rfl))

theorem Tidy.stepRepair {bank : Byte} {row : Half} {phase : Nat} {ecc : List EccErr} (h : Tidy s) :
    StepKept (stepRepair bank row phase ecc s) :=
  .ite (.ite h (.ite h (.modMemFields h.wakeBank fun _ => rfl))) (.ite h.serveBank.meetErrors (.keepRows (.modMemFields h fun _ =>
    rfl)))

theorem Tidy.abortRepair {bank : Byte} {phase : Nat} (h : Tidy s) : Tidy (abortRepair bank phase s) :=
  .ite h (.modMemFields h fun _ => rfl)

theorem Tidy.stepMemRead {address : Word} {d : Desc} {phase : Nat} {busOk : Bool} {ecc : List EccErr} (h : Tidy s) :
    StepKept (stepMemRead address d phase busOk ecc s) := by
  unfold Machine.stepMemRead
  extract_lets _ _ _ _ s₁
  have h₁ : Tidy s₁ := h.wakeRange.meetErrors
  refine .ite h₁ ?_
  split
  · extract_lets _
    split
    · exact h₁
    · exact h₁.writeDesc ‹_›
  · split
    · exact h₁
    · exact .ite (h₁.writeDesc ‹_›) (h₁.writeDesc ‹_›)

theorem Tidy.stepMemWrite {address : Word} {d : Desc} {phase : Nat} {ecc : List EccErr} {portA : List Nat} (h : Tidy s) :
    StepKept (stepMemWrite address d phase ecc portA s) :=
  .ite h.mergeWrite h.mergeWrite

theorem Tidy.openStage {len : Nat} (h : Tidy s) : Tidy (openStage len s).1 := by
  unfold Machine.openStage
  refine .iteFst h.refuse (.iteFst h.refuse ?_)
  split
  · exact h.refuse
  · exact .pair (.modMemFields (h.grabN ‹_›) fun _ => rfl)

theorem Tidy.closeStage {n : Nat} (h : Tidy s) : Tidy (State.closeStage n s) := by
  unfold State.closeStage
  split
  · exact h
  · exact h.freeChain.modMemFields fun _ => rfl

theorem Tidy.closeStages (h : Tidy s) : Tidy s.closeStages := .foldl h fun _ _ ht => ht.closeStage

theorem Tidy.putStage {handle offset : Nat} {data : List Byte} (h : Tidy s) : Tidy (putStage handle offset data s).1 := by
  unfold Machine.putStage
  split
  · exact h.refuse
  · exact .iteFst h.refuse (.pair (.modMem h.wakeChain (stageWrite_wf _ _ _)))

theorem Tidy.execStageClose {o : Origin} {handle : Word} (h : Tidy s) : Kept (execStageClose o handle s) := by
  unfold Machine.execStageClose
  refine .next (.runShort h fun _ ht => ?_)
  split
  · exact ht.refuse
  · exact .pair ht.closeStage

theorem Tidy.execStageRead {o : Origin} {handle offset : Word} {count : Half} (h : Tidy s) :
    Kept (execStageRead o handle offset count s) := by
  unfold Machine.execStageRead
  refine .next (.runShort h fun _ ht => ?_)
  split
  · exact ht.refuse
  · refine .iteFst ht.refuse ?_
    extract_lets s₁
    have h₁ : Tidy s₁ := ht.wakeChain
    split
    · exact .pair h₁
    · exact .pair h₁

/-! The operations of Sys2Proof/Machine/Exposure.lean. -/

theorem Tidy.expLevel {u : ExpId} (h : Tidy s) : Tidy (s.expLevel u) := h.setLevel

theorem Tidy.execExpConfig {o : Origin} {unit : Byte} {desc : Desc} (h : Tidy s) : Kept (execExpConfig o unit desc s) := by
  unfold Machine.execExpConfig
  refine .next (.runShortIn h fun _ _ ht => ?_)
  extract_lets _ _
  split
  · exact ht.refuse
  · exact .iteFst ht.refuse (.pair ht.modExp.modHost.expLevel)

theorem Tidy.putWords {u : ExpId} {off : Nat} {words : List Word72} (h : Tidy s) : Tidy (s.putWords u off words) := by
  unfold State.putWords
  extract_lets _
  split
  exact .modExp (.modMem h.wakeRange (foldl_keeps (P := fun n => Mem.wf n = true) (fun _ _ => Mem.writeWord_wf _ _) _))

theorem Tidy.writeSeg {u : ExpId} {header : Word72} {n : Nat} (h : Tidy s) : Tidy (s.writeSeg u header n) := h.putWords.modExp.expLevel

theorem Tidy.closeSeg {u : ExpId} (h : Tidy s) : Tidy (s.closeSeg u) := .ite h h.writeSeg.modExp

theorem Tidy.writeMark {u : ExpId} {kind info : Nat} {stamp : Word} (h : Tidy s) : Tidy (s.writeMark u kind info stamp) := h.writeSeg

theorem Tidy.writeGap {u : ExpId} (h : Tidy s) : Tidy (s.writeGap u) :=
  .ite h (.modExp (foldl_keeps (P := fun p : State × Word => Tidy p.1) (fun _ _ hp => hp.writeMark) _ h.closeSeg))

theorem Tidy.putFrame {u : ExpId} {words : List Word72} (h : Tidy s) : Tidy (s.putFrame u words) := h.putWords

theorem Tidy.execExpFrame {unit : ExpId} {samples : List (List Sample)} {stamp : Word} {room poison : Bool} (h : Tidy s) :
    Kept (execExpFrame unit samples stamp room poison s) := by
  unfold Machine.execExpFrame
  refine .next ?_
  extract_lets _ _ _ _
  split
  refine .ite h ?_
  extract_lets s₁ s₂ s₃
  have h₁ : Tidy s₁ := h.modExp
  have h₂ : Tidy s₂ := h₁.writeGap.putFrame
  have h₃ : Tidy s₃ := h₂.modExp
  exact .ite (.ite h₃.closeSeg h₃) h₁.modExp

theorem Tidy.execExpTrigger {unit : ExpId} {samples : List (List Sample)} {stamp : Word} (h : Tidy s) :
    Kept (execExpTrigger unit samples stamp s) := by
  unfold Machine.execExpTrigger
  refine .next ?_
  extract_lets _ _ _ _
  split
  split
  · exact h
  · exact .ite h (.raise (.modExp (.ite h.modExp.closeSeg.modExp h.modExp.closeSeg.writeMark)))

theorem Tidy.closeExp {u : ExpId} {info : Nat} {stamp : Word} (h : Tidy s) : Tidy (s.closeExp u info stamp) :=
  .raise (.modExp (.ite h.closeSeg h.closeSeg.writeMark))

theorem Tidy.stepExpRead {unit : Byte} {d : Desc} {busOk : Bool} {ecc : List EccErr} (h : Tidy s) :
    StepKept (stepExpRead unit d busOk ecc s) := by
  unfold Machine.stepExpRead
  extract_lets _ _ _ _ s₁ _
  have h₁ : Tidy s₁ := .foldl h.wakeRange fun _ _ ht => ht.meetErrors
  refine .ite h (.ite h ?_)
  split
  · exact h₁
  · split
    · exact h₁.writeDesc ‹_›
    · exact .expLevel (.modExp (h₁.writeDesc ‹_›))

/-! The operations of Sys2Proof/Machine/Negative.lean. -/

theorem Tidy.sendCopies {n : Negative} (h : Tidy s) : Tidy (s.sendCopies n) := .foldl h fun _ _ ht => .ite ht.sendBody ht

theorem Tidy.keepCopy {device : BitVec 14} {n : Negative} (h : Tidy s) : Tidy (s.keepCopy device n) :=
  .ite (.mramWrite (.modRecFields h fun _ => rfl)) (.ite (.mramWrite (.modRecFields h fun _ => rfl)) h)

theorem Tidy.keepRec {r : NegRecord} (h : Tidy s) : Tidy (s.keepRec r) := .mramWrite (.modRecFields h fun _ => rfl)

theorem Tidy.keepItems (h : Tidy s) : Tidy s.keepItems := .sendCopies (.mramWrite (.modRecFields h fun _ => rfl))

theorem Tidy.canBytes {c : CanId} {off : Nat} {bs : List Byte} (h : Tidy s) : Tidy (s.canBytes c off bs) := by
  unfold State.canBytes
  exact .modMem h.wakeFn.wakeRange (Mem.mergeBytes_wf _ _)

theorem Tidy.fifoLevel {c : CanId} (h : Tidy s) : Tidy (s.fifoLevel c) := h.setLevel.setLevel

theorem Tidy.storeRules {c : CanId} (h : Tidy s) : Tidy (s.storeRules c) := h.canBytes

theorem Tidy.configCan {c : CanId} {g : CanCfg} (h : Tidy s) : Tidy (s.configCan c g) :=
  .fifoLevel (.ite (.ite h.modCan.storeRules h.modCan.storeRules.modHost) (.modHost (.ite h.modCan.storeRules
    h.modCan.storeRules.modHost)))

theorem Tidy.cutSubs (h : Tidy s) : Tidy s.cutSubs := .ite h h.modHost.logEvent

theorem Tidy.restoreCam {i : Fin 64} {c : Option CamBuf} (h : Tidy s) : Tidy (s.restoreCam i c) := by
  unfold State.restoreCam
  split
  · exact .modCam (.modMem (h.grabN ‹_›) (Mem.putCam_wf _ _))
  · exact h

theorem Tidy.restoreMap {l : List (BitVec 24 × Sample)} (h : Tidy s) : Tidy (s.restoreMap l) := by
  unfold State.restoreMap
  split
  next e => exact .modMem (h.grabN e) fun hm => Mem.putEntries_wf _ _ (Mem.wf_of_cells hm rfl)
  · exact h

theorem Tidy.seatFrom {i : StrandId} (h : Tidy t) : Tidy (s.seatFrom t i) :=
  .ite h.leaveCan.seat (.ite h.leaveCan.placeSlot h)

theorem Tidy.applyNegative {n : Negative} (h : Tidy s) : Tidy (s.applyNegative n) := by
  unfold State.applyNegative
  extract_lets s₁ s₂ s₃ s₄ s₅ s₆ s₇ s₈ s₉ s₁₀ s₁₁
  have h₁ : Tidy s₁ := h
  have h₂ : Tidy s₂ := h.modLink
  have h₃ : Tidy s₃ := h₂.modTime
  have h₄ : Tidy s₄ := .frame h₃ rfl rfl
  have h₅ : Tidy s₅ := h₄.modHost
  have h₆ : Tidy s₆ := h₅.modFio
  have h₇ : Tidy s₇ := .ite h₆ (.modMem h₆ (writePoolCfg_wf _))
  have h₈ : Tidy s₈ := .foldl h₇ fun _ _ ht => ht.seatFrom
  have h₉ : Tidy s₉ := by
    unfold s₉
    refine .foldl h₈ fun _ _ ht => ?_
    split
    · exact ht.modCmp
    · exact .ite ht.modCmp ht
  have h₁₀ : Tidy s₁₀ := by
    unfold s₁₀
    refine .foldl h₉ fun _ _ ht => ?_
    split
    · exact .ite ht ht.configCan
    · exact ht
  have h₁₁ : Tidy s₁₁ := h₁₀.restoreMap
  exact .cutSubs (.foldl h₁₁ fun _ _ ht => ht.restoreCam)

/-! The operations of Sys2Proof/Machine/Safety.lean. -/

theorem Tidy.evaluate (h : Tidy s) : Tidy s.evaluate :=
  .foldl h.modIsle.modIsle fun _ _ ht => .ite ht (.ite ht.modQuad ht.modQuad.gatesFall)

theorem Tidy.safetyEvent {service : Bool} {cause inst detail : Nat} (h : Tidy s) : Tidy (s.safetyEvent service cause inst detail) :=
  h.logRec.raise

theorem Tidy.commonFault {cause detail : Nat} (h : Tidy s) : Tidy (s.commonFault cause detail) :=
  h.modIsle.modIsle.safetyEvent.evaluate

theorem Tidy.safelightEntry {service : Bool} {cause detail : Nat} (h : Tidy s) : Tidy (s.safelightEntry service cause detail) :=
  .ite h.commonFault h.modIsle.modIsle.modSaf.safetyEvent.evaluate

theorem Tidy.islandFault {x : Island} {cause : Nat} (h : Tidy s) : Tidy (s.islandFault x cause) :=
  .ite h h.modIsle.modIsle.setReady.setReady.safelightEntry

theorem Tidy.markChan {x : Island} {f : Fin 4} {c : Nat} (h : Tidy s) : Tidy (s.markChan x f c) := h.modIsle

theorem Tidy.markChans {f : Fin 4} {c : Nat} (h : Tidy s) : Tidy (s.markChans f c) := h.markChan.markChan

theorem Tidy.requestSs1 {zone : BitVec 12} (h : Tidy s) : Tidy (s.requestSs1 zone) :=
  .foldl h fun _ _ ht => .ite (.foldl ht fun _ _ ht => ht.modStrand) ht

theorem Tidy.takeFn {x : Island} {f : Fin 4} (h : Tidy s) : Tidy (s.takeFn x f) :=
  .ite h (.ite (.ite h (.raise (.ite h.modIsle.requestSs1 h.modIsle))) (.ite h.modIsle h))

theorem Tidy.channelTo {x : Island} {f ch : Fin 4} {demand : Bool} (h : Tidy s) : Tidy (s.channelTo x f ch demand) :=
  .ite h (.ite h.modIsle.takeFn.evaluate h.modIsle)

theorem Tidy.execSs1TimerExpiry {island : Island} {fn : Fin 5} {quad : QuadId} (h : Tidy s) :
    Kept (execSs1TimerExpiry island fn quad s) := by
  unfold Machine.execSs1TimerExpiry
  refine .next (.ite h ?_)
  extract_lets s₁
  have h₁ : Tidy s₁ := h.modIsle.evaluate.raise
  split
  · exact .ite h₁.modIsle.evaluate h₁
  · exact .ite h₁.modIsle.evaluate h₁

theorem Tidy.beginEval (h : Tidy s) : Tidy s.beginEval := by
  unfold State.beginEval
  extract_lets _ _ _ s₁ s₂
  have h₁ : Tidy s₁ := h.modIsle.modIsle.modSaf
  have h₂ : Tidy s₂ := .ite (.foldl h₁ fun _ _ ht => .ite (.takeFn (.ite ht.takeFn ht)) (.ite ht.takeFn ht)) h₁
  exact .evaluate (.ite h₂.setReady h₂)

theorem Tidy.channelFault {x : Island} {f : Fin 4} {c cause detail : Nat} (h : Tidy s) : Tidy (s.channelFault x f c cause detail) := by
  unfold State.channelFault
  extract_lets _ s₁ s₂
  have h₁ : Tidy s₁ := h.markChan
  have h₂ : Tidy s₂ := .ite h₁.takeFn h₁
  exact .ite h₂.evaluate h₂.safelightEntry

theorem Tidy.execPulseCheck {input : Fin 8} {response : PulseResponse} (h : Tidy s) : Kept (execPulseCheck input response s) := by
  unfold Machine.execPulseCheck
  refine .next ?_
  split
  · exact h
  · exact .ite h (.ite (.ite h h.modSaf) (.ite h.modSaf.modIsle.markChans.commonFault h.modSaf.modIsle.channelFault))

theorem Tidy.execTpReadbackMismatch {k : Fin 4} (h : Tidy s) : Kept (execTpReadbackMismatch k s) := by
  unfold Machine.execTpReadbackMismatch
  refine .next ?_
  extract_lets _ _ s₁ _ s₂
  have h₁ : Tidy s₁ := h.modIsle
  have h₂ : Tidy s₂ := by
    unfold s₂
    refine .foldl h₁ fun _ _ ht => ?_
    extract_lets _ s₁ s₂
    have h₁ : Tidy s₁ := ht.markChans.modSaf
    have h₂ : Tidy s₂ := .ite h₁.takeFn h₁
    exact .ite h₂.takeFn h₂
  exact .ite h₂.evaluate h₂.safelightEntry

theorem Tidy.execThermalWarning {die : Die} {tj : BitVec 11} (h : Tidy s) : Kept (execThermalWarning die tj s) := by
  unfold Machine.execThermalWarning
  refine .next ?_
  split
  · exact h.modSaf.logEvent
  · exact h.modSaf.logEvent

theorem Tidy.execThermalTrip {die : Die} {tj : BitVec 11} (h : Tidy s) : Kept (execThermalTrip die tj s) := by
  unfold Machine.execThermalTrip
  refine .next ?_
  split
  · exact h.modSaf.commonFault
  · exact h.modSaf.commonFault

theorem Tidy.logChange {kind : Nat} {o : Origin} {user : BitVec 64} (h : Tidy s) : Tidy (s.logChange kind o user) := by
  unfold State.logChange
  exact h.mramWrite.modSaf

theorem Tidy.checkAgainst {stored : Option Password} {o : Origin} {user : BitVec 64} {given : List Byte} (h : Tidy s) :
    Tidy (s.checkAgainst stored o user given).1 := by
  unfold State.checkAgainst
  split
  · exact .pair h
  · exact .iteFst (.pair h) (.iteFst (.pair h.modSaf) (.iteFst (.pair h.modSaf.logChange) (.pair h.modSaf)))

theorem Tidy.checkPassword {o : Origin} {user : BitVec 64} {given : List Byte} (h : Tidy s) : Tidy (s.checkPassword o user given).1 :=
  h.checkAgainst

theorem Tidy.settle {resume : Bool} (h : Tidy s) : Tidy (s.settle resume) := by
  unfold State.settle
  exact h.modIsle.modIsle.modSaf.setReady.evaluate

theorem Tidy.stepSafetyWrite {o : Origin} {password : Rec32} {d : Desc} {phase : Nat} {pass : Bool} (h : Tidy s) :
    StepKept (stepSafetyWrite o password d phase pass s) := by
  unfold Machine.stepSafetyWrite
  extract_lets bs
  split
  · split
    next e =>
    have h₁ := h.checkPassword.fst e
    refine .ite h₁ ?_
    split
    · exact h₁
    · exact h₁.modIsle.modIsle.setReady.evaluate
  · exact .ite h h.settle
  · exact h.modSaf.logChange.mramWrite.keepItems.modFio.modIsle.modIsle.settle
  · exact .ite h h

theorem Tidy.abortSafetyWrite {phase : Nat} (h : Tidy s) : Tidy (abortSafetyWrite phase s) := .ite h.settle (.ite h.modIsle.modIsle h)

theorem Tidy.execSafetyRead {o : Origin} {desc : Desc} (h : Tidy s) : Kept (execSafetyRead o desc s) := by
  unfold Machine.execSafetyRead
  refine .next (.runShort h fun _ ht => ?_)
  split
  · exact ht.refuse
  · exact .pair (ht.writeDesc ‹_›)

theorem Tidy.confirmPrint (h : Tidy s) : Tidy s.confirmPrint := h.modSaf.modIsle.modIsle.settle

theorem Tidy.execSafetyConfirm {o : Origin} {password : Rec32} {user : BitVec 64} (h : Tidy s) :
    Kept (execSafetyConfirm o password user s) := by
  unfold Machine.execSafetyConfirm
  refine .next (.runShort h fun _ ht => .iteFst ht.refuse ?_)
  split
  exact .iteFst (.refuse (ht.checkAgainst.fst ‹_›)) (.pair (.keepItems (.logChange (.confirmPrint (ht.checkAgainst.fst ‹_›)))))

theorem Tidy.execSafetyPassword {o : Origin} {old new : BitVec 192} {user : BitVec 64} {salt : BitVec 128} (h : Tidy s) :
    Kept (execSafetyPassword o old new user salt s) := by
  unfold Machine.execSafetyPassword
  refine .next (.runShort h fun _ ht => ?_)
  extract_lets _
  split
  · exact .iteFst (.pair ht.modSaf.keepItems.logChange) ht.refuse
  · split
    exact .iteFst (.pair (.logChange (.keepItems (.modSaf (ht.checkPassword.fst ‹_›))))) (.refuse (ht.checkPassword.fst ‹_›))

theorem Tidy.execSafetyLogRead {o : Origin} {desc : Desc} (h : Tidy s) : Kept (execSafetyLogRead o desc s) := by
  unfold Machine.execSafetyLogRead
  refine .next (.runShort h fun _ ht => ?_)
  extract_lets _
  split
  · exact ht.refuse
  · exact .pair (ht.writeDesc ‹_›)

theorem Tidy.xchkSafety (h : Tidy s) : Tidy s.xchkSafety := .ite h.modSaf h.modSaf.modSaf.safelightEntry

/-! The operations of Sys2Proof/Machine/FieldIo.lean. -/

theorem Tidy.fio_ {f : FieldIo → FieldIo} (h : Tidy s) : Tidy (s.fio_ f) := .ite h.modFio.raise h.modFio

theorem Tidy.cause {o : Fin 16} {bit_ : Nat} {present cond : Bool} (h : Tidy s) : Tidy (s.cause o bit_ present cond) := .ite h h.fio_

theorem Tidy.execIoConfig {o : Origin} {desc : Desc} (h : Tidy s) : Kept (execIoConfig o desc s) := by
  unfold Machine.execIoConfig
  refine .next (.runShortIn h fun _ _ ht => ?_)
  split
  · exact ht.refuse
  · exact .pair ht.fio_

theorem Tidy.latchOutputs (h : Tidy s) : Tidy s.latchOutputs := .ite h h.modHost.fio_

theorem Tidy.execConvTable {o : Origin} {converter : Byte} {desc : Desc} (h : Tidy s) : Kept (execConvTable o converter desc s) := by
  unfold Machine.execConvTable
  refine .next (.runShortIn h fun _ _ ht => ?_)
  split
  · exact ht.refuse
  · exact .iteFst ht.refuse (.pair ht.modFio)

theorem Tidy.crossCheck {conv : Conv} {ch : Nat} (h : Tidy s) : Tidy (s.crossCheck conv ch) := by
  unfold State.crossCheck
  extract_lets _
  split
  · exact h
  · exact .ite h (.ite (.ite h.modFio.raise.xchkSafety h.modFio.raise) h.modFio)

/-! The operations of Sys2Proof/Machine/Can.lean. -/

theorem Tidy.execCanFilter {o : Origin} {ctl : Byte} {desc : Desc} (h : Tidy s) : Kept (execCanFilter o ctl desc s) := by
  unfold Machine.execCanFilter
  refine .next (.runShortIn h fun _ _ ht => ?_)
  extract_lets _
  split
  · exact ht.refuse
  · exact .iteFst ht.refuse (.pair ht.modCan.storeRules)

theorem Tidy.storeBuf {c : CanId} {k : Fin 64} {f : CanFrame} {rule : Half} (h : Tidy s) : Tidy (s.storeBuf c k f rule) := by
  unfold State.storeBuf
  exact .modCan (.modMem h.canBytes (Mem.writeWord_wf _ _))

theorem Tidy.storeFifo {c : CanId} {second : Bool} {f : CanFrame} {rule : Half} (h : Tidy s) : Tidy (s.storeFifo c second f rule) :=
  .ite (.ite h.modCan h) (.fifoLevel (.modCan (.canBytes (.ite h.modCan h))))

theorem Tidy.canSettle {c : CanId} (h : Tidy s) : Tidy (s.canSettle c) := .ite h.modCan h.modCan.raise

theorem Tidy.execCanModeApply {ctl : CanId} (h : Tidy s) : Kept (execCanModeApply ctl s) := by
  unfold Machine.execCanModeApply
  refine .next ?_
  split
  · exact h
  · exact .ite h.modCan.canSettle.modCan h.modCan.canSettle

theorem Tidy.driveStatus {c : CanId} {i : StrandId} {f : CanFrame} (h : Tidy s) : Tidy (s.driveStatus c i f) :=
  .ite h.modCan.modStrand.raiseCause h.modCan.modStrand

theorem Tidy.execCanFrameReceive {ctl : CanId} {frame : CanFrame} (h : Tidy s) : Kept (execCanFrameReceive ctl frame s) := by
  unfold Machine.execCanFrameReceive
  refine .next (.ite h ?_)
  extract_lets f s₁ s₂
  have h₁ : Tidy s₁ := h.modCan.canSettle.tick
  have h₂ : Tidy s₂ := .ite h₁.emit h₁
  split
  · exact h₂.driveStatus
  · split
    split
    · exact h₂.storeFifo
    · exact h₂.storeFifo
    · exact h₂.storeBuf
    · exact h₂

theorem Tidy.execCanSend {o : Origin} {ctl buffer : Byte} {desc : Desc} (h : Tidy s) : Kept (execCanSend o ctl buffer desc s) := by
  unfold Machine.execCanSend
  refine .next (.runShortIn h fun _ _ ht => ?_)
  extract_lets _ _ _
  split
  · exact ht.refuse
  · exact .iteFst ht.refuse (.pair ht.canBytes.modCan)

theorem Tidy.endTx {c : CanId} {k : Fin 64} {stamp : Word} {count : Byte} (h : Tidy s) : Tidy (s.endTx c k stamp count) := by
  unfold State.endTx
  exact h.canBytes.modCan

theorem Tidy.execCanFrameTransmit {ctl : CanId} {stamp : Word} {sent : Bool} (h : Tidy s) :
    Kept (execCanFrameTransmit ctl stamp sent s) := by
  unfold Machine.execCanFrameTransmit
  refine .next ?_
  extract_lets _ _ s₁
  have h₁ : Tidy s₁ := h.modCan
  refine .ite h ?_
  split
  · exact h
  · refine .ite ?_ ?_
    · extract_lets s₁
      have h₁ : Tidy s₁ := h.emit.modCan.canSettle
      split
      · exact h₁.endTx
      · exact h₁.modCan
    · refine .ite h ?_
      split
      · exact h₁.endTx
      · exact h₁.modCan

theorem Tidy.execDriveStatusTimeout {strand : StrandId} (h : Tidy s) : Kept (execDriveStatusTimeout strand s) := by
  unfold Machine.execDriveStatusTimeout
  refine .next ?_
  split
  · exact .ite h.raiseCause h
  · exact h

theorem Tidy.areaErrors {c : CanId} {ecc : List EccErr} (h : Tidy s) : Tidy (s.areaErrors c ecc) := h.wakeRange.meetErrors

theorem Tidy.stepFifoRead {c : CanId} {second : Bool} {d : Desc} {busOk : Bool} {ecc : List EccErr} (h : Tidy s) :
    StepKept (stepFifoRead c second d busOk ecc s) := by
  unfold Machine.stepFifoRead
  extract_lets s₁ _ _ _ _ _ _
  have h₁ : Tidy s₁ := h.areaErrors
  refine .ite h₁ ?_
  split
  · exact h₁
  · exact .ite (h₁.writeDesc ‹_›) (.fifoLevel (.modCan (h₁.writeDesc ‹_›)))

theorem Tidy.stepBufRead {c : CanId} {k n : Nat} {d : Desc} {busOk : Bool} {ecc : List EccErr} (h : Tidy s) :
    StepKept (stepBufRead c k n d busOk ecc s) := by
  unfold Machine.stepBufRead
  extract_lets s₁ _ _ _ _
  have h₁ : Tidy s₁ := h.areaErrors
  refine .ite h₁ ?_
  split
  · exact h₁
  · exact h₁.writeDesc ‹_›
  · exact .modCan (h₁.writeDesc ‹_›)

/-! The operations of Sys2Proof/Machine/Frames.lean. -/

theorem Tidy.launch {p : Port} {b : Nat} {f : Frame} {retries : Nat} (h : Tidy s) : Tidy (s.launch p b f retries) := h.modPort.emit

theorem Tidy.execAsyncFrameTransmit {port : Port} {turn : SendTurn} {promoted : Bool} (h : Tidy s) :
    Kept (execAsyncFrameTransmit port turn promoted s) := by
  unfold Machine.execAsyncFrameTransmit
  refine .next ?_
  extract_lets _
  refine .ite h ?_
  split
  · exact h
  · exact .ite h h.modPort.launch

theorem Tidy.execAsyncFrameReceive {port : Port} {frame : Frame} {crc : Word} (h : Tidy s) :
    Kept (execAsyncFrameReceive port frame crc s) := by
  unfold Machine.execAsyncFrameReceive
  refine .next ?_
  extract_lets _
  refine .ite h (.ite h.emit.modPort (.ite h.emit.modPort (.ite h.emit ?_)))
  split
  · exact .emit (.modPort (h.grab.fst ‹_›))
  · exact .modMemFields h fun _ => rfl

theorem Tidy.execAckReceive {port : Port} {hseq : Byte} (h : Tidy s) : Kept (execAckReceive port hseq s) := by
  unfold Machine.execAckReceive
  refine .next ?_
  split
  · exact h
  · exact h.modPort.freeChain.emit

theorem Tidy.endRemote {rseq : Word} {st : Half} (h : Tidy s) : Tidy (s.endRemote rseq st) := by
  unfold State.endRemote
  split
  · exact h
  · exact .pushCmpl (.modRecFields h fun _ => rfl)

theorem Tidy.giveUpFrame {p : Port} {e : Sent} (h : Tidy s) : Tidy (s.giveUpFrame p e) := by
  unfold State.giveUpFrame
  extract_lets s₁
  have h₁ : Tidy s₁ := h.modPort.freeChain
  exact .ite (.ite h₁.endRemote h₁) h₁.sendFrame

theorem Tidy.retryFrame {p : Port} {hseq : Byte} (h : Tidy s) : Tidy (s.retryFrame p hseq) := by
  unfold State.retryFrame
  split
  · exact h
  · exact .ite h.modPort.giveUpFrame (.ite h.modPort.modPort.modPort.emit h.modPort.modPort.launch)

theorem Tidy.deliver {p : Port} {f : Frame} (h : Tidy s) : Tidy (s.deliver p f) := by
  unfold State.deliver
  split
  · exact .ite h.heed h
  · exact .ite h.keepRec h
  · exact .ite h.keepCopy h
  · exact .ite h.modLink h

theorem Tidy.execReleaseReceive {port : Port} {hseq : Byte} (h : Tidy s) : Kept (execReleaseReceive port hseq s) := by
  unfold Machine.execReleaseReceive
  refine .next ?_
  split
  · exact h
  · extract_lets s₁ _ s₂ s₃
    have h₁ : Tidy s₁ := h.modPort.freeChain
    have h₂ : Tidy s₂ := h₁.heedHops
    have h₃ : Tidy s₃ := h₂.modLink
    exact .ite (.ite h₂ h₃.deliver.spread) (.ite h₂.deliver h₂.spread)

theorem Tidy.execHeldFrameTimeout {port : Port} {hseq : Byte} (h : Tidy s) : Kept (execHeldFrameTimeout port hseq s) := by
  unfold Machine.execHeldFrameTimeout
  refine .next ?_
  split
  · exact h
  · exact h.modPort.freeChain

theorem Tidy.startTimer {rseq : Word} (h : Tidy s) : Tidy (s.startTimer rseq) := .modRecFields h fun _ => rfl

/-! The operations of Sys2Proof/Machine/Link.lean. -/

theorem Tidy.storePub {idx : Nat} {payload : Word72} {age : BitVec 6} (h : Tidy s) : Tidy (s.storePub idx payload age) :=
  .ite h.modLink (.modLink (.ite (.modMem h.wakeRange.wakeRange fun hm => Mem.mergeByte_wf _ _ (Mem.writeWord_wf _ _ hm)) h))

theorem Tidy.storeOwn (h : Tidy s) : Tidy s.storeOwn := by
  unfold State.storeOwn
  extract_lets _ _
  refine .foldl h fun _ _ ht => ?_
  split
  · exact .ite ht.storePub ht
  · exact ht

theorem Tidy.emitBurst {p : Port} {b : Burst} (h : Tidy s) : Tidy (s.emitBurst p b) := .ite h.modPort.emit h

theorem Tidy.twoPly {kind : BurstKind} {pubs : List Pub} {late : List Port} (h : Tidy s) : Tidy (s.twoPly kind pubs late) :=
  .emitBurst (.emitBurst (.foldl h fun _ _ ht => .ite ht.modPort ht))

theorem Tidy.readWords {ecc : List EccErr} {l : List Nat} (h : Tidy s) : Tidy (s.readWords ecc l) :=
  .foldl h fun _ _ ht => ht.wakeRange.meetErrors

theorem Tidy.homeBurst {late : List Port} {ecc : List EccErr} (h : Tidy s) : Tidy (s.homeBurst late ecc) := h.readWords.twoPly

theorem Tidy.exportBurst {port : Port} {late : List Port} {ecc : List EccErr} (h : Tidy s) : Tidy (s.exportBurst port late ecc) :=
  h.readWords.twoPly

theorem Tidy.treeBurst {old : Schedule} {port : Port} (h : Tidy s) : Tidy (s.treeBurst old port) := .ite h h.emitBurst

theorem Tidy.execBurstTransmit {kind : BurstKind} {late : List Port} {ecc : List EccErr} (h : Tidy s) :
    Kept (execBurstTransmit kind late ecc s) := by
  unfold Machine.execBurstTransmit
  refine .next ?_
  extract_lets _
  refine .ite h ?_
  split
  · exact .ite h h.homeBurst
  · exact .foldl h fun _ _ ht => ht.exportBurst
  · exact h

theorem Tidy.once {source : BitVec 14} {what : Nat} {f : State → State} (h : Tidy s) (hf : ∀ t, Tidy t → Tidy (f t)) :
    Tidy (s.once source what f) := .ite h (hf _ h.modLink)

theorem Tidy.schedErr (h : Tidy s) : Tidy s.schedErr := h.modLink

theorem Tidy.forward {p : Port} {b : Burst} {good : Bool} {time : Nat} (h : Tidy s) : Tidy (s.forward p b good time) := by
  unfold State.forward
  extract_lets _ _ _ _ _ _ _ s₁
  have h₁ : Tidy s₁ := h.modPort
  refine .ite h ?_
  split
  · exact h.modPort.emit.emit
  · exact .ite h₁.emit h₁.emit.emit

theorem Tidy.lateBurst {b : Burst} (h : Tidy s) : Tidy (s.lateBurst b) := .ite h h.modLink.modSeq

theorem Tidy.takePub {b : Burst} {i : Nat} {p : Pub} {e : Option SchedPub} (h : Tidy s) : Tidy (s.takePub b i p e) := by
  unfold State.takePub
  split
  · exact .ite (.ite h h.storePub) (.once h fun _ ht => ht.schedErr)
  · exact .once h fun _ ht => ht.schedErr

theorem Tidy.takePubs {b : Burst} {i : Nat} {ps : List Pub} {es : List SchedPub} (h : Tidy s) :
    Tidy (s.takePubs b i ps es) := by
  induction ps generalizing s i es with
  | nil => exact h
  | cons p ps ih => exact ih h.takePub

theorem Tidy.execBurstReceive {port : Port} {burst : Burst} {arrival : Arrival} (h : Tidy s) :
    Kept (execBurstReceive port burst arrival s) := by
  unfold Machine.execBurstReceive
  refine .next ?_
  extract_lets _ _ s₁ s₂ s₃
  have h₁ : Tidy s₁ := .ite h h.forward
  have h₂ : Tidy s₂ := .ite h₁ h₁.modLink
  have h₃ : Tidy s₃ := .once h₂ fun _ ht => ht.schedErr
  refine .ite h (.ite h₂.modPort (.ite h₂.lateBurst (.ite h₂ (.ite ?_ (.ite h₂.takePubs h₂)))))
  split
  · exact .ite h₃.modLink h₃
  · exact h₃

theorem Tidy.countCopies {seen : List SeenBurst} {x : SchedSlot} (h : Tidy s) : Tidy (s.countCopies seen x) := by
  unfold State.countCopies
  extract_lets _ _ _
  split
  · exact h
  · exact .ite h h.modPort
  · exact .ite h h.modPort
  · exact h.modPort.modPort

theorem Tidy.countBursts (h : Tidy s) : Tidy s.countBursts := by
  unfold State.countBursts
  exact .modLink (.foldl h fun _ _ ht => ht.countCopies)

/-! The operations of Sys2Proof/Machine/Schedule.lean. -/

theorem Tidy.unstage (h : Tidy s) : Tidy s.unstage := h.modLink

theorem Tidy.stepSchedule {first : Word} {d : Desc} {phase : Nat} {refusals : List SchedRefusal} (h : Tidy s) :
    StepKept (stepSchedule first d phase refusals s) := by
  unfold Machine.stepSchedule
  extract_lets _ s₁
  have h₁ : Tidy s₁ := h.modLink
  split
  · refine .ite h (.ite h₁ ?_)
    split
    · exact h₁.unstage
    split
    · exact h₁.unstage
    · split
      · exact h₁.unstage
      · exact h₁.emit
  · split
    · exact h.unstage
    · refine .ite h ?_
      split
      · exact h.unstage
      · exact h.modLink
  · exact .ite h h

theorem Tidy.abortSchedule {phase : Nat} (h : Tidy s) : Tidy (abortSchedule phase s) := .ite h (.ite h.unstage h.unstage.modLink)

theorem Tidy.execScheduleConfirmTimeout {refusal : SchedRefusal} (h : Tidy s) : Kept (execScheduleConfirmTimeout refusal s) := by
  unfold Machine.execScheduleConfirmTimeout
  refine .next ?_
  split
  · split
    · exact h.modLink.finish
    · exact h
  · split
    · split
      · exact h.abortSchedule.modDist.finish
      · exact h
    · exact h

theorem Tidy.storeSchedule {c : Schedule} {staged : List (Nat × Rec32)} (h : Tidy s) : Tidy (s.storeSchedule c staged) := by
  unfold State.storeSchedule
  extract_lets _ _ _ put
  have hput : ∀ m e, m.wf = true → (put m e).wf = true := fun _ _ => Mem.mergeBytes_wf _ _
  exact h.modMem fun hm => hput _ _ (foldl_keeps (P := fun m => Mem.wf m = true) hput _ hm)

theorem Tidy.switchSchedule (h : Tidy s) : Tidy s.switchSchedule := by
  unfold State.switchSchedule
  split
  · exact h
  · refine .ite h ?_
    extract_lets _ take end_
    have htake : ∀ t l, Tidy t → Tidy (take t l) := fun _ _ ht => ht.storeSchedule.modLink.cutSubs
    have hend : ∀ t i, Tidy t → Tidy (end_ t i) := by
      intro t i ht
      dsimp only [end_]
      split
      · exact ht.finishAt
      · exact ht
    split
    · exact hend _ _ (htake _ _ h)
    · exact .ite h.modLink (hend _ _ (htake _ _ h.modLink).modDist)
    · exact htake _ _ h.modLink

theorem Tidy.execScheduleSwitch {entries : List Rec32} (h : Tidy s) : Kept (execScheduleSwitch entries s) := by
  unfold Machine.execScheduleSwitch
  refine .next ?_
  extract_lets s₁
  have h₁ : Tidy s₁ := by
    unfold s₁
    split
    · exact h
    · extract_lets _
      split
      · exact h
      · exact .ite h h.modLink
  exact h₁.switchSchedule

theorem Tidy.applySetCycle {t : Half} {cmd : Instr} (h : Tidy s) : Tidy (applySetCycle t cmd s) := by
  unfold Machine.applySetCycle
  split
  · exact h.finish
  · exact h.modLink.emit

theorem Tidy.applyLeave (h : Tidy s) : Tidy (applyLeave s) := h.modLink

theorem Tidy.takeNumber {g : Given} (h : Tidy s) : Tidy (s.takeNumber g) := by
  unfold State.takeNumber
  split
  · exact .raise (.setReady (.evaluate (.keepItems (.modRecFields h.modLink fun _ => rfl))))
  · exact h.modLink.setReady.raise.logEvent
  · exact h.modLink.raise.logEvent

theorem Tidy.sendPrint {n : Nat} (h : Tidy s) : Tidy (s.sendPrint n) := by
  unfold State.sendPrint
  extract_lets _
  split
  · exact h.sendBody
  · exact h.emit

theorem Tidy.execEnumeration {found : List FoundDevice} {links : List FoundLink} {degraded : List (Nat × Port)} (h : Tidy s) :
    Kept (execEnumeration found links degraded s) := by
  unfold Machine.execEnumeration
  refine .next ?_
  extract_lets _ _ s₁
  have h₁ : Tidy s₁ := h.modLink
  refine .ite h.setReady.raise (.foldl h₁ fun _ _ ht => ?_)
  extract_lets s₁
  have h₁ : Tidy s₁ := .ite ht.takeNumber ht
  refine .ite h₁ ?_
  split
  · exact .ite h₁ h₁.sendPrint
  · exact .ite h₁ h₁.raise.logEvent
  · exact h₁

theorem Tidy.execPrintApply {neg : Negative} (h : Tidy s) : Kept (execPrintApply neg s) := by
  unfold Machine.execPrintApply
  refine .next (.ite h ?_)
  extract_lets s₁ s₂
  have h₁ : Tidy s₁ := .modRecFields h fun _ => rfl
  have h₂ : Tidy s₂ := h₁.mramWrite.applyNegative.modSaf
  exact h₂.evaluate.raise.logEvent

theorem Tidy.applyPublish {index : Half} {source : Word} {kind : Byte} (h : Tidy s) : Tidy (applyPublish index source kind s) :=
  .frame h rfl rfl

theorem Tidy.applySubs {bs : List Byte} (h : Tidy s) : Tidy (applySubs bs s) := by
  unfold Machine.applySubs
  split
  · exact h.modHost
  · exact h

/-! The operations of Sys2Proof/Machine/Long.lean. -/

theorem Tidy.stepLogRead {first count : Word} {d : Desc} {phase : Nat} {busOk : Bool} (h : Tidy s) :
    StepKept (stepLogRead first count d phase busOk s) := by
  unfold Machine.stepLogRead
  extract_lets _ _ _ _ _ _
  refine .ite h ?_
  split
  · exact h
  · extract_lets _ _ s₁
    have h₁ : Tidy s₁ := .setLevel (.modRecFields (h.writeDesc ‹_›) fun _ => rfl)
    exact .ite h₁ h₁

theorem Tidy.stepCamLoad {table : Half} {points : Word} {d : Desc} {phase : Nat} (h : Tidy s) :
    StepKept (stepCamLoad table points d phase s) := by
  unfold Machine.stepCamLoad
  extract_lets _ _ _ s₁
  have h₁ : Tidy s₁ := h.freeChain
  split
  · refine .ite h (.ite h ?_)
    split
    · exact h
    · extract_lets s₁
      have h₁ : Tidy s₁ := by
        unfold s₁
        split
        · exact .modMem (h.grabN ‹_›) (Mem.putCam_wf _ _)
        · exact h.grabN ‹_›
      exact h₁.modCam
  · exact .ite h h₁.modCam

theorem Tidy.abortCamLoad {table : Half} {phase : Nat} (h : Tidy s) : Tidy (abortCamLoad table phase s) :=
  .ite h.modCam h.freeChain.modCam

theorem Tidy.stepCamRead {table : Half} {buffer : Byte} {d : Desc} {phase : Nat} {busOk : Bool} {ecc : List EccErr} (h : Tidy s) :
    StepKept (stepCamRead table buffer d phase busOk ecc s) := by
  unfold Machine.stepCamRead
  extract_lets _ s₁ _ _
  have h₁ : Tidy s₁ := .foldl h.wakeChain fun _ _ ht => ht.meetErrors
  refine .ite h₁ (.ite h₁ ?_)
  split
  · split
    · exact h₁
    · exact h₁.writeDesc ‹_›
  · exact h₁
  · exact .ite (h₁.writeDesc ‹_›) (h₁.writeDesc ‹_›)

theorem Tidy.stepFlyerLoad {program : Byte} {d : Desc} {sigOk : Bool} {phase : Nat} (h : Tidy s) :
    StepKept (stepFlyerLoad program d sigOk phase s) := by
  unfold Machine.stepFlyerLoad
  split
  · exact h
  · split
    · split
      · exact h
      · exact h
    · exact .ite (.frame h rfl rfl) h

theorem Tidy.stepNegative {phase : Nat} {stored : BitVec 3} (h : Tidy s) : StepKept (stepNegative phase stored s) := by
  unfold Machine.stepNegative
  extract_lets _
  split
  · exact h
  · exact h.mramWrite
  · split
    exact .sendBody (.sendCopies (.keepRec (.modRecFields h fun _ => rfl)))

theorem Tidy.stepFwWrite {image : Byte} {offset : Word} {last : Byte} {d : Desc} {sigOk : Bool} {phase : Nat} (h : Tidy s) :
    StepKept (stepFwWrite image offset last d sigOk phase s) :=
  .ite h (.ite (.mramWrite (.modRecFields h fun _ => rfl)) (.ite h (.ite (.modRecFields h fun _ => rfl) (.modRecFields h fun _ =>
    rfl))))

theorem Tidy.execCalRead {o : Origin} {desc : Desc} (h : Tidy s) : Kept (execCalRead o desc s) := by
  unfold Machine.execCalRead
  refine .next (.runShort h fun _ ht => ?_)
  split
  · exact ht.refuse
  · exact .pair (ht.writeDesc ‹_›)

theorem Tidy.stepCalWrite {d : Desc} {phase : Nat} (h : Tidy s) : StepKept (stepCalWrite d phase s) :=
  .ite h.mramWrite (.mramWrite (.tick (.modRecFields h fun _ => rfl)))

theorem Tidy.sumReady (h : Tidy s) : Tidy s.sumReady := .ite h.setReady.setReady h.setReady

theorem Tidy.bankReady {b : BankId} {v : Bool} (h : Tidy s) : Tidy (s.bankReady b v) := .ite h h.modPwr.sumReady

theorem Tidy.engineReady {e : EngineId} {v : Bool} (h : Tidy s) : Tidy (s.engineReady e v) :=
  .ite h (.ite h.modPwr.sumReady.setReady h.modPwr.sumReady)

theorem Tidy.service {f : Half} {on : Bool} (h : Tidy s) : Tidy (s.service f on) := by
  unfold State.service
  extract_lets s₁
  have h₁ : Tidy s₁ := h.modPwr
  split
  · exact h₁.engineReady
  · exact h₁.bankReady
  · exact h₁

theorem Tidy.stepSelfTest {f : Half} {level : Byte} {phase : Nat} {pass : Bool} (h : Tidy s) :
    StepKept (stepSelfTest f level phase pass s) :=
  .ite h.service h.service

theorem Tidy.longStep {g : LongOp} {x : StepInput} (h : Tidy s) : StepKept (longStep g x s) := by
  unfold Machine.longStep
  split
  · exact h.stepLogRead
  · exact h.stepCamLoad
  · exact h.stepCamRead
  · exact h.stepFlyerLoad
  · split
    · exact h.stepFifoRead
    · exact h.stepBufRead
    · exact h.stepMemRead
  · exact h.stepMemWrite
  · exact h.stepRepair
  · exact h.stepSchedule
  · exact h.stepNegative
  · exact h.stepSafetyWrite
  · exact h.stepExpRead
  · exact h.stepFwWrite
  · exact h.stepCalWrite
  · exact h.stepSelfTest
  · exact h

theorem Tidy.abortLong {g : LongOp} (h : Tidy s) : Tidy (abortLong g s) := by
  unfold Machine.abortLong
  split
  · exact h.abortCamLoad
  · exact h.abortRepair
  · exact h.abortSchedule
  · exact h.abortSafetyWrite
  · exact h.abortMark
  · exact .ite h h.service
  · exact h

theorem Tidy.report {i : Instr} {o : Origin} {progress : Nat} (h : Tidy s) : Tidy (s.report i o progress) := h.dropReports.pushCmpl

theorem Tidy.endLong {g : LongOp} (h : Tidy s) : Tidy (s.endLong g) := h.modDist

theorem Tidy.stepLong {g : LongOp} {o : Origin} {x : StepInput} (h : Tidy s) : Tidy (s.stepLong g o x) := by
  have hg := h.longStep (g := g) (x := x)
  unfold State.stepLong
  refine .ite h.abortLong.endLong.finish ?_
  split
  next e =>
    rw [e] at hg
    exact .ite (.report (.modDist hg)) (.modDist hg)
  next e =>
    rw [e] at hg
    exact .finish (.endLong (.ite (.abortMark hg) hg))
  next e =>
    rw [e] at hg
    exact .finishAt (.endLong hg)

theorem Tidy.execLongOperationStep {mb : MbId} {tag : Fin 32} {input : StepInput} (h : Tidy s) :
    Kept (execLongOperationStep mb tag input s) := by
  unfold Machine.execLongOperationStep
  refine .next (.ite h ?_)
  split
  · exact h
  · exact .ite h.stepLong h

theorem Tidy.cancelInHand {i : Instr} {o : Origin} (h : Tidy s) : Tidy (s.cancelInHand i o) := h.abortLong.modDist.finish

theorem Tidy.execCancel {o : Origin} {mailbox tag : Byte} (h : Tidy s) : Kept (execCancel o mailbox tag s) := by
  unfold Machine.execCancel
  refine .next (.runShort h fun _ ht => ?_)
  split
  · split
    · exact ht.refuse
    · exact .pair ht.cancelInHand
  · exact .pair ht.modDist

/-! The operations of Sys2Proof/Machine/Mailbox.lean. -/

theorem Tidy.stopDistaff {st : DistState} (h : Tidy s) : Tidy (s.stopDistaff st) :=
  .setReady (.modHost (.closeStages (.modRecFields (.modLink (.modDist (.foldl (.foldl h fun _ _ ht => ht.abortLong) fun _ _ ht =>
    ht.modMb))) fun _ => rfl)))

theorem Tidy.startDistaff (h : Tidy s) : Tidy s.startDistaff := .foldl h.modDist fun _ _ ht => ht.pushCmpl

theorem Tidy.mbLevel {mb : MbId} (h : Tidy s) : Tidy (s.mbLevel mb) := h.setLevel

theorem Tidy.sendResponses {slots : List SlotWord} (h : Tidy s) : Tidy (s.sendResponses slots) := by
  unfold State.sendResponses
  split
  · exact h
  · exact .ite h h.modEth.emit

theorem Tidy.answerRemote {c : Cmpl} {w : SlotWord} (h : Tidy s) : Tidy (s.answerRemote c w) := by
  unfold State.answerRemote
  split
  · exact h
  · exact .sendFrame (.ite (.modRecFields h fun _ => rfl) h)

theorem Tidy.carry {mb : MbId} {c : Cmpl} {w : SlotWord} (h : Tidy s) : Tidy (s.carry mb c w) := by
  unfold State.carry
  split
  · exact .ite (.emit (.modUsb (.ite h.emit h))) (.ite h.emit h)
  · exact h.sendResponses
  · exact h.answerRemote.modMb.mbLevel
  · exact h

theorem Tidy.afterCompletion {mb : MbId} {c : Cmpl} (h : Tidy s) : Tidy (s.afterCompletion mb c) := by
  unfold State.afterCompletion
  extract_lets s₁
  have h₁ : Tidy s₁ := .ite h.modPwr h
  split
  · exact .ite h₁.stopDistaff h₁
  · exact h₁

theorem Tidy.execCompletionWrite {mb : MbId} (h : Tidy s) : Kept (execCompletionWrite mb s) := by
  unfold Machine.execCompletionWrite
  refine .next ?_
  extract_lets _ _
  split
  · exact h
  · exact .ite h (.afterCompletion (.carry (.mbLevel (.ite h.modMb.raise h.modMb))))

theorem Tidy.sendRemote {mb : MbId} {r : Request} {w : SlotWord} {dma : DmaInput} (h : Tidy s) : Tidy (s.sendRemote mb r w dma) := by
  unfold State.sendRemote
  extract_lets _ _ _ _ _ s₁
  have h₁ : Tidy s₁ := .modRecFields h.takeTurn.lockTag fun _ => rfl
  refine .ite h.pushReject ?_
  split
  · exact h.pushReject
  · exact .ite h.pushReject (.ite h.pushReject (.ite h.holdTag.pushCmpl h₁.sendFrame))

theorem Tidy.takeLocal {mb : MbId} {r : Request} {remote : Option (BitVec 14 × RemoteKey)} {dma : DmaInput} (h : Tidy s) :
    Tidy (s.takeLocal mb r remote dma) := by
  unfold State.takeLocal
  extract_lets _
  refine .ite h.pushReject (.ite (.ite h.pushReject h.holdTag.pushCmpl) ?_)
  split
  · exact h.pushReject
  · exact .ite h.holdTag.modDist h.reject

theorem Tidy.popRequest {mb : MbId} (h : Tidy s) : Tidy (s.popRequest mb).1 :=
  .iteFst (.pair (.modRecFields h.modMb fun _ => rfl)) (.pair h.modMb)

theorem Tidy.execMailboxRequestCopy {mb : MbId} {dma : DmaInput} (h : Tidy s) : Kept (execMailboxRequestCopy mb dma s) := by
  unfold Machine.execMailboxRequestCopy
  refine .next (.ite h ?_)
  split
  next e =>
  have ht := h.wakeFn.popRequest.fst e
  exact .ite ht.sendRemote ht.takeLocal

theorem Tidy.execBusySwitchAnswer {mb : MbId} (h : Tidy s) : Kept (execBusySwitchAnswer mb s) := by
  unfold Machine.execBusySwitchAnswer
  refine .next (.ite h ?_)
  split
  next e => exact (h.popRequest.fst e).pushCmpl

theorem Tidy.dbErr {mb : MbId} (h : Tidy s) : Tidy (s.dbErr mb) := h.modMb

theorem Tidy.accErr (h : Tidy s) : Tidy s.accErr := h.modHost

theorem Tidy.writeReqPi {mb : MbId} {value : Word} (h : Tidy s) : Tidy (s.writeReqPi mb value) :=
  .ite h.accErr (.ite h.dbErr (.ite h.modMb h.dbErr))

theorem Tidy.writeRspCi {mb : MbId} {value : Word} (h : Tidy s) : Tidy (s.writeRspCi mb value) :=
  .ite h.accErr (.ite h.modMb.mbLevel h.dbErr)

theorem Tidy.execRemoteRequestReceive {src : BitVec 14} {key : RemoteKey} {slot : SlotWord} (h : Tidy s) :
    Kept (execRemoteRequestReceive src key slot s) := by
  unfold Machine.execRemoteRequestReceive
  refine .next ?_
  extract_lets _ s₁ s₂
  have h₁ : Tidy s₁ := h.modMb
  have h₂ : Tidy s₂ := .modRecFields h₁ fun _ => rfl
  split
  · split
    · exact h
    · exact h.sendFrame
  · exact .ite h.sendFrame (.ite h h₂.sendFrame)

theorem Tidy.execRemoteCompletionReceive {src : BitVec 14} {key : RemoteKey} {slot : SlotWord} (h : Tidy s) :
    Kept (execRemoteCompletionReceive src key slot s) := by
  unfold Machine.execRemoteCompletionReceive
  refine .next ?_
  split
  · exact h.logEvent
  · exact .ite (.pushCmpl (.modRecFields h fun _ => rfl)) h.startTimer.dropReports.pushCmpl

/-! The operations of Sys2Proof/Machine/Host.lean. -/

theorem Tidy.clearInt {value : Word} (h : Tidy s) : Tidy (s.clearInt value) := h.modHost

theorem Tidy.writeMask {value : Word} (h : Tidy s) : Tidy (s.writeMask value) := .foldl h.modHost fun _ _ ht => .ite ht.sendMsix ht

theorem Tidy.clearNotice {value : Word} (h : Tidy s) : Tidy (s.clearNotice value) := h.modHost

theorem Tidy.setMark {source : Byte} {mark hyst : Word} (h : Tidy s) : Tidy (setMark source mark hyst s) :=
  .ite h.modHost.modHost.raise h.modHost.setLevel

theorem Tidy.syncPorts {before : Vector LinkPort 4} (h : Tidy s) : Tidy (s.syncPorts before) :=
  .foldl h fun _ _ ht => .ite ht.portDown ht

theorem Tidy.busWrite {a : Nat} {v : Word} (h : Tidy s) : Tidy (s.busWrite a v) := h.writeInternal.syncPorts

theorem Tidy.pageWrite {off : Nat} {v : Word} (h : Tidy s) : Tidy (s.pageWrite off v) :=
  .ite h.clearInt (.ite h.writeMask (.ite h.clearNotice (.ite (.foldl h.modHost fun _ _ ht => .ite ht.modMb ht) (.ite h.writeReqPi
    (.ite h.writeRspCi (.ite h.accErr h))))))

theorem Tidy.barRead {a n : Nat} (h : Tidy s) : Tidy (s.barRead a n) := .emit (.ite h.modHost h)

theorem Tidy.hostByte {a : Nat} {b : Byte} (h : Tidy s) : Tidy (s.hostByte a b) := by
  unfold State.hostByte
  split
  · exact .ite h.modHost.modHost.emit h.modHost
  · exact h.modMb
  · exact h.modHost
  · exact h.modHost
  · exact h.accErr
  · exact h.accErr
  · exact h

theorem Tidy.hostWrite {a : Nat} {bs : List Byte} (h : Tidy s) : Tidy (s.hostWrite a bs) :=
  .ite h.pageWrite (foldl_keeps (P := fun p : State × Nat => Tidy p.1) (fun _ _ hp => hp.hostByte) _ h)

theorem Tidy.execRegisterWrite {bus : RegBus} {address : Word} {size : Nat} {value : BitVec 64} (h : Tidy s) :
    Kept (execRegisterWrite bus address size value s) := by
  unfold Machine.execRegisterWrite
  refine .next ?_
  split
  · exact .ite h.hostWrite h
  · exact .ite h.busWrite h

theorem Tidy.runBench {o : Origin} {on : Byte} {password : Rec32} (h : Tidy s) : Tidy (runBench o on password s).1 := by
  unfold Machine.runBench
  refine .iteFst (.pair h.modHost) ?_
  split
  exact .iteFst (.pair (.modHost (h.checkPassword.fst ‹_›))) (.refuse (h.checkPassword.fst ‹_›))

theorem Tidy.runRegAccess {address : Word} {write : Byte} {value : Word} (h : Tidy s) :
    Tidy (runRegAccess address write value s).1 := by
  unfold Machine.runRegAccess
  extract_lets _ touched s₁
  have h₁ : Tidy s₁ := by
    unfold s₁
    clear_value touched
    split
    · exact h.wakeRange
    · exact h
  refine .iteFst h.refuse (.iteFst h.refuse (.iteFst (.pair h₁.busWrite.tick) ?_))
  split
  · exact .pair h₁
  · exact .pair h₁.afterRead.tick

/-! The operations of Sys2Proof/Machine/Timing.lean. -/

theorem Tidy.dropLock {d : Dom} (h : Tidy s) : Tidy (s.dropLock d) :=
  .ite h.modDom (.ite h.modDom.modTime.raise.switchTo h.modDom.modTime.raise)

theorem Tidy.execDomainLock {dom : Dom} (h : Tidy s) : Kept (execDomainLock dom s) := by
  unfold Machine.execDomainLock
  refine .next ?_
  extract_lets _ s₁ s₂
  have h₁ : Tidy s₁ := h.modDom.modTime
  have h₂ : Tidy s₂ := .ite h₁.modTime (.ite h₁.switchTo h₁)
  exact .ite h h₂.setReady

theorem Tidy.sendTime {p : Port} {payload : BitVec 56} (h : Tidy s) : Tidy (s.sendTime p payload) := .emit (.ite h.emit h)

theorem Tidy.follow {p : Port} {d : Dom} {stamp : BitVec 64} {value : Nat} (h : Tidy s) : Tidy (s.follow p d stamp value) := by
  unfold State.follow
  extract_lets _ _ _ _ s₁ s₂
  have h₁ : Tidy s₁ := h.modDom
  have h₂ : Tidy s₂ := .ite h₁.newMaster h₁
  exact .ite h₂.modDom.tick h₂.dropLock.tick

theorem Tidy.execTimeEventReceive {port : Port} {payload : BitVec 56} {stamp : BitVec 64} (h : Tidy s) :
    Kept (execTimeEventReceive port payload stamp s) := by
  unfold Machine.execTimeEventReceive
  refine .next ?_
  extract_lets _ _ _ _ _ _
  refine .ite h ?_
  split
  · exact .ite h.modDom h
  · split
    · exact .ite h.follow h
    · exact h
  · exact h.sendTime
  · split
    · exact .ite h.modTime h
    · exact h

theorem Tidy.execUpstreamPortLoss {dom : Dom} (h : Tidy s) : Kept (execUpstreamPortLoss dom s) := by
  unfold Machine.execUpstreamPortLoss
  refine .next ?_
  extract_lets _
  refine .ite h ?_
  split
  · exact h.modDom
  · exact h.dropLock

theorem Tidy.execTimeAnnounceLoss {dom : Dom} {candidates : List Candidate} (h : Tidy s) :
    Kept (execTimeAnnounceLoss dom candidates s) := by
  unfold Machine.execTimeAnnounceLoss
  refine .next ?_
  extract_lets _ _ _ s₁
  have h₁ : Tidy s₁ := h.modDom.dropLock
  refine .ite h ?_
  split
  · exact .ite h₁.modTime.raise h₁
  · exact h.modDom.modTime.raise

/-! The operations of Sys2Proof/Machine/System.lean. -/

theorem Tidy.completeReset (h : Tidy s) : Tidy s.completeReset := ⟨rfl, h.2⟩

theorem Tidy.holdReset (h : Tidy s) : Tidy s.holdReset := .emit (.frame h.completeReset rfl rfl)

theorem Tidy.keeperFails {c : Bool} (h : Tidy s) : Tidy (s.keeperFails c) := h.modClk.setReady.islandFault

theorem Tidy.referenceFails (h : Tidy s) : Tidy s.referenceFails := h.modClk

theorem Tidy.execKeeperVote {countC countF : Nat} (h : Tidy s) : Kept (execKeeperVote countC countF s) := by
  unfold Machine.execKeeperVote
  refine .next ?_
  extract_lets _ _ _ _ _ _ s₁ s₂ s₃
  have h₁ : Tidy s₁ := h.modClk
  have h₂ : Tidy s₂ := .ite h₁.keeperFails h₁
  have h₃ : Tidy s₃ := .ite h₂.keeperFails h₂
  exact .ite h₃.commonFault.referenceFails (.ite h₃.referenceFails h₃)

theorem Tidy.goDormant {o : Origin} (h : Tidy s) : Tidy (s.goDormant o) := by
  unfold State.goDormant
  extract_lets s₁ s₂ s₃ s₄ s₅ s₆ s₇
  have h₁ : Tidy s₁ := h.modFio
  have h₂ : Tidy s₂ := h₁.modPwr.evaluate
  have h₃ : Tidy s₃ := .foldl h₂ fun _ _ ht => .ite ht.portDown ht
  have h₄ : Tidy s₄ := h₃.modLink
  have h₅ : Tidy s₅ := .foldl h₄ fun _ _ ht => ht.enterPwr
  have h₆ : Tidy s₆ := h₅.modPwr
  have h₇ : Tidy s₇ := .losesSources (.foldl h₆ fun _ _ ht => .ite ht ht.setReady)
  exact h₇.modDist

theorem Tidy.wakeAll (h : Tidy s) : Tidy s.wakeAll := by
  unfold State.wakeAll
  refine .foldl h fun _ _ ht => ?_
  split
  · exact .ite ht ht.wakeFn
  · exact ht.wakeFn

theorem Tidy.execDormantWake (h : Tidy s) : Kept (execDormantWake s) := by
  unfold Machine.execDormantWake
  refine .next (.ite h ?_)
  extract_lets s₁ s₂
  have h₁ : Tidy s₁ := .ite h.stopDistaff h
  have h₂ : Tidy s₂ := h₁.modPwr.wakeAll
  exact .evaluate (h₂.modRecFields fun _ => rfl)

theorem Tidy.runImage {image : Bool} (h : Tidy s) : Tidy (s.runImage image) := h.modDist

theorem Tidy.loadEth (h : Tidy s) : Tidy s.loadEth := h.modEth

theorem Tidy.distaffUp (h : Tidy s) : Tidy s.distaffUp := by
  unfold State.distaffUp
  refine .ite h (.ite ?_ h.loadEth.setReady)
  split
  · exact h
  · extract_lets s₁ s₂
    have h₁ : Tidy s₁ := .modRecFields h.runImage fun _ => rfl
    have h₂ : Tidy s₂ := by
      unfold s₂
      split
      · exact h₁.applyNegative
      · exact h₁
    exact h₂.loadEth.setReady

theorem Tidy.mailboxesUp (h : Tidy s) : Tidy s.mailboxesUp := by
  unfold State.mailboxesUp
  refine .ite h ?_
  extract_lets _ s₁ s₂
  have h₁ : Tidy s₁ := .ite (.mramWrite (.modRecFields h.runImage fun _ => rfl)) h
  have h₂ : Tidy s₂ := .ite h₁ h₁.startDistaff
  exact h₂.setReady

theorem Tidy.enterRecovery (h : Tidy s) : Tidy s.enterRecovery := .ite h h.modDist.modUsb.setReady

theorem Tidy.checkCal (h : Tidy s) : Tidy s.checkCal := .ite h (.evaluate (.setReady (.modRecFields h fun _ => rfl)))

theorem Tidy.tpUp {x : Island} (h : Tidy s) : Tidy (s.tpUp x) := h.modIsle

theorem Tidy.execFunctionReady {fn : ReadyFn} (h : Tidy s) : Kept (execFunctionReady fn s) := by
  unfold Machine.execFunctionReady
  refine .next (.ite h ?_)
  split
  · exact .ite h h.bankReady
  · exact .ite h h.engineReady
  · exact .ite h (.ite h.distaffUp (.ite h.mailboxesUp (.ite h.enterRecovery (.ite h.checkCal (.ite (.ite h.setReady.tpUp h) (.ite
      h.setReady h))))))

/-! The operations of Sys2Proof/Machine/Ports.lean. -/

theorem Tidy.enterSlot {mb : MbId} {w : SlotWord} (h : Tidy s) : Tidy (s.enterSlot mb w) := h.modMb

theorem Tidy.enterSlots {mb : MbId} {ws : List SlotWord} (h : Tidy s) : Tidy (s.enterSlots mb ws) :=
  .foldl h fun _ _ ht => ht.enterSlot

theorem Tidy.stageTransfer {mb : MbId} {header : BitVec 128} {data : List Byte} (h : Tidy s) : Tidy (s.stageTransfer mb header data) :=
  .ite h.pushCmpl (.ite h.pushCmpl (.ite h.pushCmpl (.ite h.pushCmpl h.holdTag.putStage.pushCmpl)))

theorem Tidy.usbDown (h : Tidy s) : Tidy s.usbDown := h.modUsb.setReady

theorem Tidy.badOut (h : Tidy s) : Tidy s.badOut := h.modUsb

theorem Tidy.dropResponse (h : Tidy s) : Tidy s.dropResponse := .mbLevel (.ite h.modMb.modUsb.modMb h.modMb.modUsb)

theorem Tidy.execEthArpIcmp {icmp : Bool} {request : List Byte} (h : Tidy s) : Kept (execEthArpIcmp icmp request s) := by
  unfold Machine.execEthArpIcmp
  refine .next ?_
  split
  · exact h
  · exact .ite h h.wakeFn.emit

theorem Tidy.sendInParts {n : Nat} {ws : List SlotWord} (h : Tidy s) : Tidy (State.sendInParts n s ws) := by
  induction n generalizing s ws with
  | zero => exact h
  | succ n ih => exact .ite h (ih h.sendResponses)

theorem Tidy.resendAll (h : Tidy s) : Tidy s.resendAll := h.modEth.sendInParts

theorem Tidy.execEthOpen {proof : Rec32} (h : Tidy s) : Kept (execEthOpen proof s) := by
  unfold Machine.execEthOpen
  refine .next ?_
  split
  · exact .ite h (.ite h.wakeFn.modEth.resendAll h.wakeFn.modEth.emit)
  · exact h

theorem Tidy.takeAck {ack : Half} (h : Tidy s) : Tidy (s.takeAck ack) := h.modEth.modMb.mbLevel

theorem Tidy.dgAccept {type_ : Nat} {dg : Datagram} {payload : List Byte} (h : Tidy s) : Tidy (dgAccept type_ dg payload s).1 :=
  .iteFst (.pair h.wakeFn.modEth) (.iteFst (.pair h.wakeFn.modEth) (.pair h.wakeFn))

theorem Tidy.execEthRequestDatagram {dg : Datagram} {slots : List SlotWord} (h : Tidy s) :
    Kept (execEthRequestDatagram dg slots s) := by
  unfold Machine.execEthRequestDatagram
  refine .next (.ite h ?_)
  split
  · exact h.dgAccept.fst ‹_›
  · exact .ite (h.dgAccept.fst ‹_›) (.enterSlots (.takeAck (.modEth (h.dgAccept.fst ‹_›))))

theorem Tidy.execEthStageDatagram {dg : Datagram} {header : BitVec 128} {data : List Byte} (h : Tidy s) :
    Kept (execEthStageDatagram dg header data s) := by
  unfold Machine.execEthStageDatagram
  refine .next (.ite h ?_)
  split
  · exact h.dgAccept.fst ‹_›
  · exact .stageTransfer (.modEth (h.dgAccept.fst ‹_›))

theorem Tidy.endSession (h : Tidy s) : Tidy s.endSession := h.modEth

theorem Tidy.execEthClose {dg : Datagram} {status : Half} (h : Tidy s) : Kept (execEthClose dg status s) := by
  unfold Machine.execEthClose
  refine .next (.ite h ?_)
  split
  · exact h.dgAccept.fst ‹_›
  · exact .endSession (h.dgAccept.fst ‹_›)

/-! The operations of Sys2Proof/Machine/Sets.lean. -/

theorem Tidy.applySet {i : Instr} (h : Tidy s) : Tidy (applySet i s) := by
  unfold Machine.applySet
  extract_lets _
  split
  · exact h.applyBind
  · exact h.applyConfig
  · exact h.applyCoeff
  · exact h.applyArm
  · exact h.applyEnable
  · exact h.applyDisable
  · exact h.applyStop
  · exact h.applyStopNow
  · exact h.applyFaultReset
  · exact h.applyTransfer
  · exact h.applySource
  · exact h.applyHold
  · exact h.applyProfile
  · exact h.applyMove
  · exact h.applyMove
  · exact h.applyMove
  · exact h.applyGroup
  · exact h.applyPathStart
  · exact h.applyPathStop
  · exact h.applyCamSwap
  · exact h.applySkeinDefine
  · exact h.applyEngage
  · exact h.applyDisengage
  · exact h.applyRegTrim
  · exact h.dropMapCaches
  · exact h.applyHoldCycles
  · exact h.applyQuadConfig
  · exact h.applyDeadtime
  · exact h.applySdf
  · exact h.applyTrip
  · exact h.applyAuxCurve
  · exact h.applyAuxCommand
  · exact h.applyStepperConfig
  · exact h.applyMicrostep
  · exact h.applyEnlarger
  · exact h.applyStepgen
  · exact h.applyTableStep
  · exact h.applyFbConfig
  · exact h.applyProbeArm
  · exact h.applyCompare
  · exact h.applyAssign
  · exact h.applyRetire
  · exact h.applyLeave
  · exact h.applySetCycle
  · exact h.applyPublish
  · exact h.applySubs
  · exact h

theorem Tidy.viewSet {i : Instr} (h : Tidy s) : Tidy (viewSet s i) := .ite h.applySet h

theorem Tidy.armedView (h : Tidy s) : Tidy (armedView s) := .foldl h fun _ _ h => h.viewSet

theorem Tidy.runCyclic {i : Instr} {o : Origin} (h : Tidy s) : Tidy (runCyclic i o s) := by
  unfold Machine.runCyclic
  split
  · exact h
  next e => exact h.claim.answered e
  next t e =>
    have ht := h.claim.runs e
    refine .ite ht.finish ?_
    split
    · exact ht.finish
    · exact .ite ht.modDist ht.finish

theorem Tidy.execCSetArm (h : Tidy s) : Kept (execCSetArm s) := by
  unfold Machine.execCSetArm
  refine .next ?_
  split
  · exact h
  · exact .ite h.modDist h

theorem Tidy.dropSet {i : Instr} (h : Tidy s) : Tidy (dropSet i s) := by
  unfold Machine.dropSet
  split
  · exact h.modGroup
  · exact h

theorem Tidy.takeSet {i : Instr} (h : Tidy s) : Tidy (s.takeSet i) := by
  unfold State.takeSet
  split
  · exact h
  · exact .ite (.ite h.applySet h.applySet.finishAt) h.dropSet.finishAt

theorem Tidy.takeSets {upd : List StrandId} (h : Tidy s) : Tidy (State.takeSets upd s) :=
  .foldl (.foldl (.foldl (.foldl h.modDist fun _ _ h => h.graveEvents) fun _ _ h => h.takeSet) fun _ _ h => h.otherEvents) fun _ _ h
    => h.takeSet

/-! The operations of Sys2Proof/Machine/Armed.lean. -/

theorem Tidy.runDeviceState {o : Origin} {state : Byte} (h : Tidy s) : Tidy (runDeviceState o state s).1 :=
  .iteFst h.refuse (.iteFst (.pair h.modPwr.wakeAll) (.iteFst (.pair (.foldl h.modPwr fun _ _ ht => ht.enterPwr)) (.pair h.goDormant)))

theorem Tidy.runCanConfig {ctl : Byte} {bs : List Byte} (h : Tidy s) : Tidy (runCanConfig ctl bs s).1 := by
  unfold Machine.runCanConfig
  extract_lets _
  split
  · exact h.refuse
  · exact .iteFst h.refuse (.pair h.configCan)

theorem Tidy.runPathQueue {group : Byte} {bs : List Byte} (h : Tidy s) : Tidy (runPathQueue group bs s).1 := by
  unfold Machine.runPathQueue
  extract_lets _ s₁ _
  have h₁ : Tidy s₁ := h.armedView
  refine .iteFst h.refuse ?_
  split
  · exact h.refuse
  · exact .iteFst h.refuse (.iteFst h.refuse (.pair h.modGroup))

/-! The operations of Sys2Proof/Machine/Drive.lean. -/

theorem Tidy.runStrandRead {strand : Half} (h : Tidy s) : Tidy (runStrandRead strand s).1 := by
  unfold Machine.runStrandRead
  extract_lets _ s₁
  have h₁ : Tidy s₁ := by
    unfold s₁
    split
    · exact h.modSkein
    · exact h
  exact .pair h₁.tick

theorem Tidy.execCamEdit {o : Origin} {table : Half} {first : Word} {desc : Desc} (h : Tidy s) :
    Kept (execCamEdit o table first desc s) := by
  unfold Machine.execCamEdit
  refine .next ?_
  extract_lets _
  split
  · exact h
  next e => exact h.claim.answered e
  next e =>
    have ht := h.claim.runs e
    refine .ite ht.finish ?_
    split
    · exact ht.finish
    · exact ht.runCamEdit

theorem Tidy.execStepEmit {stg : StgId} (h : Tidy s) : Kept (execStepEmit stg s) := by
  unfold Machine.execStepEmit
  refine .next ?_
  split
  · exact h
  · exact h.modStg.emit

theorem Tidy.afterEdge {u : FbId} (h : Tidy t) : Tidy (s.afterEdge t u) := h.enlargeAll.dutyAll

/-! The operations of Sys2Proof/Machine/Cycle.lean. -/

theorem Tidy.endCycle (h : Tidy s) : Tidy s.endCycle := by
  unfold State.endCycle
  exact h.storeOwn.modLink.countBursts.modLink

theorem Tidy.passTime {ns : Nat} (h : Tidy s) : Tidy (s.passTime ns) := .frame h rfl rfl

theorem Tidy.landShadows (h : Tidy s) : Tidy s.landShadows := by
  unfold State.landShadows
  extract_lets s₁ s₂
  have h₁ : Tidy s₁ := .foldl (.frame h rfl rfl) fun _ _ ht => ht.gateNews
  have h₂ : Tidy s₂ := .frame h₁ rfl rfl
  exact .foldl h₂ fun _ _ ht => ht.modPort.checkPort

theorem Tidy.latchIntake (h : Tidy s) : Tidy s.latchIntake := by
  unfold State.latchIntake
  exact h.modHost.modSeq

theorem Tidy.mendPort {p : Port} (h : Tidy s) : Tidy (s.mendPort p) := .ite (.raise (.modPort (.ite h.modPort h))) (.ite h.modPort h)

theorem Tidy.treeBursts {old : Schedule} (h : Tidy s) : Tidy (s.treeBursts old) := .ite h.treeBurst.treeBurst h

theorem Tidy.freeze (h : Tidy s) : Tidy s.freeze := .foldl (.ite h.modLink.wakeRange h.modLink) fun _ _ h => h.mendPort

theorem Tidy.startEngine {e : EngineId} (h : Tidy s) : Tidy (s.startEngine e) := by
  unfold State.startEngine
  extract_lets _ s₁ s₂
  have h₁ : Tidy s₁ := h.modRole
  have h₂ : Tidy s₂ := by
    unfold s₂
    split
    · exact h₁.migrate
    · exact h₁
  exact .ite h₂.wakeFn.modEngine h₂

theorem Tidy.runtimes (h : Tidy s) : Tidy s.runtimes := .foldl h fun _ _ h => h.runtime

theorem Tidy.startEngines (h : Tidy s) : Tidy s.startEngines := .foldl (.frame h rfl rfl) fun _ _ h => h.startEngine

theorem Tidy.copySubs (h : Tidy s) : Tidy s.copySubs := .ite h h.modHost.raise

theorem Tidy.strandTurn {skipped : List StrandId} {i : StrandId} (h : Tidy s) : Tidy (State.strandTurn skipped s i) :=
  .ite h (.ite h.strandUpdate (.ite h.modStrand h))

theorem Tidy.strandWork {skipped : List StrandId} (h : Tidy s) : Tidy (State.strandWork skipped s) := by
  unfold State.strandWork
  extract_lets _ _ _ s₁
  have h₁ : Tidy s₁ := .foldl h fun _ _ ht => ht.strandTurn
  exact .ite h₁.modSeq h₁

theorem Tidy.compareCycle (h : Tidy s) : Tidy s.compareCycle := .foldl h fun _ _ ht => .ite ht.compareRun ht

theorem Tidy.nextCycle (h : Tidy s) : Tidy s.nextCycle :=
  .ite h.editOn.endCycle.compareCycle.passTime.stepSequencers.modSeq (.ite h.modSeq.setReady h.modSeq)

theorem Tidy.epochFlush (h : Tidy s) : Tidy s.epochFlush := .ite h.dropMapCaches h

theorem Tidy.beforeSets (h : Tidy s) : Tidy s.beforeSets := by
  unfold State.beforeSets
  extract_lets s₁ s₂
  have h₁ : Tidy s₁ := h.nextCycle.latchIntake.latchOutputs.freeze
  have h₂ : Tidy s₂ := h₁.switchSchedule.treeBursts.landShadows.placeCarriers
  exact h₂.modFio.startEngines

theorem Tidy.afterSets {skipped : List StrandId} (h : Tidy s) : Tidy (State.afterSets skipped s) :=
  h.epochFlush.copySubs.strandWork.runtimes.modLink.tick

/-! One step. -/

/-- What any command leaves, by the command: most are one operation, one guard with an operation, or one of the three ways to
run a mailbox command. -/
theorem Tidy.exec {c : Instr} (h : Tidy s) : Kept (Machine.exec c s) := by
  cases c with
  | strandBind | strandConfig | plyCoeff | strandArm | strandEnable | strandDisable | stop | stopNow | faultReset | setTransfer
    | setSource | strandHold | profileSet | moveAbs | moveRel | jog | groupDefine | pathStart | pathStop | camSwap | skeinDefine
    | skeinEngage | skeinDisengage | regTrim | routeEpoch | setHoldCycles | quadConfig | deadtimeSet | sdfConfig | tripConfig
    | auxCurve | auxCommand | stepperConfig | microstepTable | enlargerSet | stepgenConfig | tableStep | fbConfig | probeArm
    | compareLoad | flyerAssign | engineRetire | domainLeave | setCycle | publishDefine | hostSubscribe => exact .next h.runCyclic
  | flParallel | flAdd | flSub | flNeg | flAbs | flAnd | flOr | flXor | flNot | flShl | flShr | flAsr | flMov | flCmp | flMin
    | flMax | flWrap | flPark | flIpark | flRda | flRdal | flRdam | flRdah | flWra | flClra | flAdda | flSuba | flMovd =>
    exact .next h.issueA
  | logRead | camLoad | camRead | flyerLoad | memRead | memWrite | memRepair | scheduleWrite | negativeSave | safetyWrite | expRead
    | fwWrite | calWrite | selfTest => exact .next h.runLong
  | identify | ping | mbTags | linkStatus | timeRead | convRead | fwStatus => exact .next (.runShort h fun _ ht => .pair ht)
  | stopTimeout | followingError | cycleOverrun | pubMissing | stall | currentSum | auxSyncLoss => exact .next (.ite h.raiseCause h)
  | pwmForceWrite | pwmForcePairWrite | chopperDriveEnd | chopperFastDecayEnd | chopperOffTimeEnd => exact .next (.ite h.modQuad h)
  | refclkFail | refclkRevert | refclkMismatch | refclkRecover => exact .next h.modClk
  | fieldInputAccept | inputOvervoltage | outputOvertemp | outputOvertempRecover => exact .next h.fio_
  | flSincos | flClarke | flMovtc => exact .next (.issue h fun _ _ ht => .withSlot (.ite trivial ht))
  | flBr | flCall | flRet => exact .next (.issue h fun _ _ ht => ht.branchTo)
  | flMovi | flMovia | flMovx => exact .next (.issue h fun _ _ ht => ht.onEngine)
  | standstill | auxAlignmentEnd | auxDutyTimeout => exact .next (.ite h.modStrand h)
  | outputShort | outputOpenLoad | outputShortSupply => exact .next h.cause
  | vfieldReverse | vfieldLow | vfieldRecover => exact .next (.ite h.fio_ h)
  | flMaxi | flMini => exact .next h.extremeIndex
  | flMova | flAadd => exact .next h.writeAddr
  | flLoopr | flLoop => exact .next (.issue h fun _ _ ht => ht.startLoop)
  | flMode | flRetx => exact .next (.issue h fun _ _ ht => ht)
  | quadratureEdge | hallCodeChange => exact .next (.ite h h.lineEvent.afterEdge)
  | serialFrameEnd | serialFrameTimeout => exact .next (.ite h h.fbEvent)
  | helloReceive | blockLock => exact .next (.ite h.modPort.settlePort h)
  | nakReceive | retransmitTimeout => exact .next h.retryFrame
  | unreachableReport | remoteTimerExpiry => exact .next (.ite h.endRemote h)
  | deliveryReport | deliveryAssumed => exact .next h.startTimer
  | slewEnd | ptpEventMessage => exact .next (.ite h.modTime h)
  | safetyInputDemand | safetyInputRest => exact .next h.channelTo
  | switchTest | islandSelfTest => exact .next (.ite h h.islandFault)
  | timNowLoRead | timPlantLoRead => exact .next h.modTime.emit
  | bnkErrClear | bnkCollCntClear => exact .next (.modMemFields h fun _ => rfl)
  | canCntClear | canTakeWrite => exact .next h.modCan
  | expPreFilled | expHoldoffEnd => exact .next (.ite h.modExp h)
  | systemReset => exact .next (.runShort h fun _ ht => .iteFst ht.refuse (.pair ht.modPwr))
  | distaffRestart => exact .next (.runShort h fun _ ht => .pair ht.modDist)
  | setClockSources => exact .next (.runShort h fun _ ht => .pair ht.modClk)
  | setWatermark => exact .next (.runShort h fun _ ht => .pair ht.setMark)
  | cancel => exact h.execCancel
  | getCounters => exact .next (.runShort h fun _ ht => .iteFst (.pair ht) (.pair (.foldl ht.modSeq fun _ _ ht => ht.modPort)))
  | setLatencyTolerance => exact .next (.runShort h fun _ ht => .pair ht.setTolerance)
  | setDeviceState => exact .next (.runShort h fun _ ht => ht.runDeviceState)
  | getPower => exact .next (.runShort h fun _ ht => .pair ht.tick)
  | strandRead => exact .next (.runShort h fun _ ht => ht.runStrandRead)
  | pathQueue => exact .next (.runShortIn h fun _ _ ht => ht.runPathQueue)
  | camEdit => exact h.execCamEdit
  | pubmapWrite => exact .next (.runShort h fun _ ht => ht.runPubmap)
  | fbRead => exact .next (.runShort h fun _ ht => .pair (.ite ht.wakeFn ht))
  | flyerDebug => exact .next (.runShort h fun _ ht => ht.runDebug)
  | benchMode => exact .next (.runShort h fun _ ht => ht.runBench)
  | regAccess => exact .next (.runShort h fun _ ht => ht.runRegAccess)
  | bankPower => exact .next (.runShort h fun _ ht => .iteFst ht.refuse (.pair (.modMemFields ht fun _ => rfl)))
  | stageOpen => exact .next (.runShort h fun _ ht => ht.openStage)
  | stageWrite => exact .next (.runShort h fun _ ht => ht.putStage)
  | stageClose => exact h.execStageClose
  | stageRead => exact h.execStageRead
  | timeSelect => exact .next (.runShort h fun _ ht => .iteFst ht.refuse (.iteFst (.pair ht.modTime) (.pair ht.switchTo)))
  | timePriority => exact .next (.runShort h fun _ ht => .pair ht.modDom.keepItems)
  | ptpConfig =>
    exact .next (.runShort h fun _ ht => .iteFst ht.refuse (.pair (.setReady (.ite ht.modTime.modEth ht.modTime.modEth.mramWrite))))
  | safetyRead => exact h.execSafetyRead
  | safetyConfirm => exact h.execSafetyConfirm
  | safetyPassword => exact h.execSafetyPassword
  | safetyLogRead => exact h.execSafetyLogRead
  | safetyReset => exact .next (.runShort h fun _ ht => .iteFst ht.refuse (.pair ht.modSaf.modIsle.modIsle.evaluate.raise))
  | expConfig => exact h.execExpConfig
  | expArm => exact .next (.runShort h fun _ ht => .iteFst ht.refuse (.pair ht.wakeFn.modExp.expLevel))
  | expDisarm => exact .next (.runShort h fun _ ht => .pair (.ite ht.closeExp ht))
  | ioConfig => exact h.execIoConfig
  | ioDiag => exact .next (.runShort h fun _ ht => .pair ht.fio_)
  | watchdogSet => exact .next (.runShort h fun _ ht => .pair ht.modFio)
  | convTable => exact h.execConvTable
  | crosscheckSet => exact .next (.runShort h fun _ ht => .iteFst ht.refuse (.pair (.ite ht.modFio.xchkSafety ht.modFio)))
  | canConfig => exact .next (.runShortIn h fun _ _ ht => ht.runCanConfig)
  | canFilter => exact h.execCanFilter
  | canBus => exact .next (.runShort h fun _ ht => .pair ht.modCan)
  | canSend => exact h.execCanSend
  | fwSwitch => exact .next (.runShort h fun _ ht => .iteFst (.pair ht.modDist) ht.refuse)
  | calRead => exact h.execCalRead
  | flDivs => exact h.execFlDivs
  | flMovc => exact h.execFlMovc
  | flGrp => exact .next (.issue h fun _ _ ht => .ite ht trivial)
  | flHalt => exact h.execFlHalt
  | flReti => exact h.execFlReti
  | flSig => exact .next (.issue h fun _ _ ht => ht.raise)
  | flWaitf => exact h.execFlWaitf
  | flBrk => exact .next (.issue h fun _ _ ht => .done (.ite ht.modRole ht))
  | flFmv => exact h.execFlFmv
  | flFatm => exact .next (.issue h fun _ _ ht => .ite trivial ht.startFab)
  | flXac => exact .next (.issue h fun _ _ ht => ht.runXac)
  | fabricOpComplete => exact h.execFabricOpComplete
  | flyerWatchdogExpiry => exact .next (.ite h (.ite (.ite h.trap h) (.ite h.trap h)))
  | cycleStart => exact .next (.ite h h.beforeSets.takeSets.afterSets)
  | plyUpdate => exact .next (.ite h.plyStep.runtime h)
  | sheetPublish => exact .next (.ite h h.modHost.raise)
  | pwmBoundary => exact .next (.ite h (.ite h.modQuad.modFio h.modQuad))
  | sampleReady => exact .next (.ite h h.quadReady)
  | overcurrentTrip => exact .next (.ite h.fastValue h)
  | sddStuck => exact .next (.ite h.stuckInput h)
  | gateFaultInput => exact .next (.ite h.gatePin h)
  | pwmTripClear => exact .next (.ite h.writeTrip h)
  | stepperHoldCurrent => exact .next (.ite h.modStrand.windings.tick h)
  | stepEmit => exact h.execStepEmit
  | stgPushWrite => exact .next (.ite h.modStg h)
  | enlargerTimeout => exact .next h
  | pulseEdge => exact .next (.ite h (.ite h.lineEvent.afterEdge h.lineEvent.afterEdge))
  | serialFrameStart => exact .next (.ite h (.ite h.fbEvent.modFb.emit h.fbEvent))
  | countExtension => exact .next (.ite h.modFb h)
  | probeEdge => exact .next (.ite h.probeEdge h)
  | compareFire => exact .next (.ite h h.runFb.compareOn)
  | comparePulseEnd => exact .next (.ite h.modCmp.emit h)
  | driveStatusTimeout => exact h.execDriveStatusTimeout
  | burstTransmit => exact h.execBurstTransmit
  | burstReceive => exact h.execBurstReceive
  | helloSend => exact .next (.ite h.emit h)
  | helloTimeout => exact .next (.ite h.portDown h)
  | blockLockLoss => exact .next (.ite h (.ite h.modPort.portDown h.modPort))
  | portDegrade => exact .next (.ite h (.ite (.ite h.modPort h) h.modPort.raise.logEvent))
  | laneRestore => exact .next (.ite h.modPort h)
  | asyncFrameTransmit => exact h.execAsyncFrameTransmit
  | asyncFrameReceive => exact h.execAsyncFrameReceive
  | ackReceive => exact h.execAckReceive
  | releaseReceive => exact h.execReleaseReceive
  | heldFrameTimeout => exact h.execHeldFrameTimeout
  | remoteRequestReceive => exact h.execRemoteRequestReceive
  | remoteCompletionReceive => exact h.execRemoteCompletionReceive
  | beaconSend => exact .next (.ite h.sendFrame h)
  | beaconLoss => exact .next (.ite h (.ite h.modLink.raise h.modLink))
  | enumeration => exact h.execEnumeration
  | printApply => exact h.execPrintApply
  | domainJoin => exact .next (.ite h h.modTime.modSeq.modLink.setReady.raise)
  | scheduleConfirmTimeout => exact h.execScheduleConfirmTimeout
  | scheduleSwitch => exact h.execScheduleSwitch
  | syncSend => exact .next (.ite h.modTime.sendTime.sendTime h)
  | delayRequestSend => exact .next (.ite h.modTime.sendTime h)
  | timeEventReceive => exact h.execTimeEventReceive
  | domainLock => exact h.execDomainLock
  | timeAnnounceSend => exact .next (.ite h.sendBody h)
  | timeAnnounceLoss => exact h.execTimeAnnounceLoss
  | upstreamPortLoss => exact h.execUpstreamPortLoss
  | timeHoldover => exact .next (.ite h h.modTime.raise)
  | timeLockClear => exact .next (.ite h.setReady h)
  | plantValidTimeout => exact .next (.ite h h.modTime)
  | keeperVote => exact h.execKeeperVote
  | testPulseStart => exact .next (.ite h (.ite h.modSaf (.ite h.modSaf.beginEval h.modSaf.modSaf)))
  | pulseCheck => exact h.execPulseCheck
  | tpReadbackMismatch => exact h.execTpReadbackMismatch
  | ss1TimerExpiry => exact h.execSs1TimerExpiry
  | discrepancyTimeout => exact .next (.ite h (.evaluate (.ite h.modIsle.modIsle h.modIsle.modIsle.safetyEvent)))
  | twoHandTimeout => exact .next (.ite h.modIsle h)
  | safelightMinute => exact .next (.ite h h.modIsle.modIsle.modSaf.raise)
  | safelightLimitExpiry => exact .next (.ite h h.modIsle.modIsle.requestSs1.evaluate.safetyEvent)
  | crossLinkSilent => exact .next h.islandFault
  | passwordLockoutEnd => exact .next h.modSaf
  | thermalWarning => exact h.execThermalWarning
  | thermalTrip => exact h.execThermalTrip
  | powerOnReset => exact .next (.modPwr (.modRecFields h.holdReset fun _ => rfl))
  | resetNLow => exact .next h.holdReset.modPwr
  | perstAssert => exact .next h.modHost.setReady
  | pcieLinkUp => exact .next (.ite h h.modHost.setReady)
  | distaffWatchdogExpiry => exact .next (.ite h.stopDistaff h)
  | fwSwitchFallback => exact .next (.ite h.modDist.logEvent h)
  | dormantWake => exact h.execDormantWake
  | functionReady => exact h.execFunctionReady
  | powerStateEntry => exact h.execPowerStateEntry
  | mailboxRequestCopy => exact h.execMailboxRequestCopy
  | busySwitchAnswer => exact h.execBusySwitchAnswer
  | cSetArm => exact h.execCSetArm
  | longOperationStep => exact h.execLongOperationStep
  | completionWrite => exact h.execCompletionWrite
  | reqPiWrite => exact .next (.ite h.writeReqPi h)
  | rspCiWrite => exact .next (.ite h.writeRspCi h)
  | sysIntStatusClear => exact .next (.ite h.clearInt h)
  | sysIntMaskWrite => exact .next (.ite h.writeMask h)
  | sysWmNoticeClear => exact .next (.ite h.clearNotice h)
  | sysCycleLoRead => exact .next (.ite h.barRead h)
  | lnkSeqCntClear => exact .next h.modSeq
  | fbQerrCntClear => exact .next h.modFb
  | stgStatClear => exact .next h.modStg
  | bnkPoolEnable => exact .next (.modMem h (writePoolCfg_wf _))
  | bnkPoolCntClear => exact .next h.writeReg
  | lnkPcntCntClear => exact .next h.modPort
  | lnkDomCntClear => exact .next h.modLink
  | registerWrite => exact h.execRegisterWrite
  | bar2Access => exact h.execBar2Access
  | bobbinAllocate => exact h.execBobbinAllocate
  | bobbinRelease => exact .next (.ite h (.ite h.freeChain (.modMem h (Mem.release_wf _))))
  | scrubPass => exact h.execScrubPass
  | bankClearDone => exact .next (.ite (.modMemFields h fun _ => rfl) h)
  | expFrame => exact h.execExpFrame
  | expTrigger => exact h.execExpTrigger
  | expPostComplete => exact .next (.ite h.closeExp h)
  | vfieldHigh => exact .next (.ite h h.fio_)
  | outputWatchdogExpiry => exact .next h.fio_.raise.logEvent
  | conversionEnd => exact .next (.ite h h.modFio.setReady.crossCheck)
  | canFrameReceive ctl frame => exact h.execCanFrameReceive (ctl := ctl) (frame := frame)
  | canFrameTransmit => exact h.execCanFrameTransmit
  | canError => exact .next (.ite h h.modCan.canSettle)
  | canRecoveryComplete => exact .next (.ite h.modCan.canSettle h)
  | canModeApply => exact h.execCanModeApply
  | usbVbusDetect => exact .next (.ite h (.ite h.modUsb h.usbDown.modUsb))
  | usbBulkOut => exact .next (.ite h (.ite h.badOut h.enterSlots))
  | usbStageTransfer => exact .next (.ite h (.ite h.stageTransfer h.badOut))
  | usbInAck => exact .next (.ite h.dropResponse h)
  | usbControlRequest => exact .next (.ite h h.enterSlot.modUsb)
  | usbStatusStageTimeout => exact .next (.ite h.modUsb.emit h)
  | usbBusReset => exact .next (.ite h h.modMb.usbDown.modUsb)
  | usbCompletionDiscard => exact .next (.ite h.dropResponse.logEvent h)
  | dfuManifestation =>
    exact .next (.ite h (.ite h.modUsb.emit (.setReady (.modUsb (.usbDown (.modDist (.mramWrite (.modRecFields h fun _ => rfl))))))))
  | ethHello => exact .next (.ite h h.wakeFn.modEth.emit)
  | ethOpen => exact h.execEthOpen
  | ethRequestDatagram => exact h.execEthRequestDatagram
  | ethStageDatagram => exact h.execEthStageDatagram
  | ethClose => exact h.execEthClose
  | ethSessionIdleTimeout => exact .next h.endSession
  | ethCompletionResend => exact .next (.ite h.resendAll h)
  | ethArpIcmp => exact h.execEthArpIcmp
  | resetRelease => exact .next (.ite h.completeReset h)
  | indexEdge => exact .next (.ite h h.modFb)
  | remoteKeyExpiry => exact .next (.modRecFields h fun _ => rfl)
  | ethLinkChange => exact .next (.ite h h.modEth.setReady)
  | usbSetConfiguration => exact .next (.ite h (.ite h.modUsb.setReady (.foldl h.modUsb.setReady fun _ _ ht => ht.emit)))
  | dfuDownload => exact .next (.ite h (.mramWrite (.modUsb (.modRecFields h fun _ => rfl))))
  | ptpDelayReqSend => exact .next (.ite h h.modTime.emit)
  | conversionStart => exact .next (.ite h h.modFio)
  | bar0MemoryWrite => exact .next (.ite h.hostWrite h)

theorem Tidy.step (h : Tidy s) : Kept (Machine.step s) := by
  unfold Machine.step
  split
  · exact .next h
  · exact Tidy.exec (.frame h rfl rfl)

end Sys2Proof.Machine

open Sys2Proof Sys2Proof.Machine

/-- Settles O5: `Tidy` says of a state what `Canonical` says, every operation of the model keeps it, and so does each command. -/
theorem stepsKeepTheStoresCanonical : Obligations.StepsKeepTheStoresCanonical := fun _ _ h e =>
  tidy_iff.mp (Tidy.step (tidy_iff.mpr h) _ e)
end

section
/-! The family of the link: bursts that leave and that come in (R238, R239, R244, R245, R254). -/

namespace Sys2Proof.Machine

variable {s : State} {p : Port} {b : Burst} {a : Arrival} {time : Nat}

/-! Transmission (R238, R254). -/

theorem burstTransmit_silent {k : BurstKind} (late : List Port) (ecc : List EccErr)
    (h : s.link.member = false ∨ s.link.hasSched = false ∨ s.link.joining = true ∨ slotsOf s.link.sched s.link.device k = []) :
    exec (.burstTransmit k late ecc) s = .next s := by
  refine congrArg Host.Outcome.next ?_
  rcases h with h | h | h | h
  · exact if_pos (by rw [h]; rfl)
  · exact if_pos (by rw [h, Bool.and_false]; rfl)
  · exact if_pos (by rw [h, Bool.or_true])
  · refine (ite_congr rfl (fun _ => rfl) fun _ => ?_).trans (ite_self s)
    cases k with
    | home => exact if_pos (by rw [h]; rfl)
    | exported => exact congrArg (List.foldl _ s) h
    | tree => rfl

theorem burstTransmit_home (late : List Port) (ecc : List EccErr) (hm : s.link.member = true) (hs : s.link.hasSched = true)
    (hj : s.link.joining = false) (h : slotsOf s.link.sched s.link.device .home ≠ []) :
    exec (.burstTransmit .home late ecc) s = .next (s.homeBurst late ecc) := by
  refine congrArg Host.Outcome.next ((if_neg (by rw [hm, hs, hj]; decide)).trans (if_neg ?_))
  rwa [List.isEmpty_iff]

/-! Reception (R239, R244, R245). -/

theorem burstGood_clean (time : Nat) (hlo : 1 ≤ b.pubs.length) (hhi : b.pubs.length ≤ 16384) :
    burstGood b ⟨burstCrc b, false, time⟩ = true := by
  simp [burstGood, hlo, hhi]

theorem burstGood_spoilt (h : a.stomped = true ∨ a.crc ≠ burstCrc b ∨ b.pubs = []) : burstGood b a = false := by
  rcases h with h | h | h <;> simp [burstGood, h]

/-- From `s` to `t` nothing but the ports and what has left has changed. -/
def OnlyPorts (s t : State) : Prop := ∃ ps out, t = { s with link := { s.link with ports := ps }, out := out }

/-- A burst that goes on keeps its port busy and leaves; nothing else changes (R238, R251). -/
theorem forward_onlyPorts (s : State) (p : Port) (b : Burst) (good : Bool) (time : Nat) : OnlyPorts s (s.forward p b good time) := by
  unfold State.forward
  extract_lets q x n rin rout from_ sends
  split
  · exact ⟨s.link.ports, s.out, rfl⟩
  · split
    · exact ⟨_, _, rfl⟩
    · split <;> exact ⟨_, _, rfl⟩

/-- What a copy that comes in leaves before it is taken: a tree burst ends here, any other goes on (R238). -/
def State.passedOn (s : State) (p : Port) (b : Burst) (good : Bool) (time : Nat) : State :=
  if b.kind = .tree then s else s.forward p b good time

theorem passedOn_onlyPorts (s : State) (p : Port) (b : Burst) (good : Bool) (time : Nat) : OnlyPorts s (s.passedOn p b good time) := by
  unfold State.passedOn
  split
  · exact ⟨s.link.ports, s.out, rfl⟩
  · exact forward_onlyPorts s p b good time

theorem burstReceive_down (b : Burst) (a : Arrival) (h : (s.port p).ready = false) : exec (.burstReceive p b a) s = .next s :=
  congrArg Host.Outcome.next (if_pos (by rw [h]; rfl))

theorem burstReceive_spoilt_tree (hr : (s.port p).ready = true) (hk : b.kind = .tree)
    (h : a.stomped = true ∨ a.crc ≠ burstCrc b ∨ b.pubs = []) :
    exec (.burstReceive p b a) s = .next ((s.modLink fun l => { l with
      seen := ⟨b.source, b.kind, p, false, burstHead b⟩ :: l.seen }).modPort p fun x => { x with crcErr := min 255 (x.crcErr + 1) }) := by
  change execBurstReceive p b a s = _
  unfold execBurstReceive
  simp only [burstGood_spoilt h, hr, hk, Bool.not_true, Bool.not_false, Bool.false_eq_true, Bool.false_and, if_true, if_false]
  rfl

/-- A good copy of another cycle is passed on and is late (R12, R245). -/
theorem burstReceive_other_cycle (hr : (s.port p).ready = true) (hgood : burstGood b a = true) (hc : b.cycle ≠ s.seq.cycle.truncate 16) :
    exec (.burstReceive p b a) s = .next ((s.passedOn p b true a.time).lateBurst b) := by
  change execBurstReceive p b a s = _
  unfold execBurstReceive
  refine congrArg Host.Outcome.next ?_
  rw [hgood, if_neg (by rw [hr]; decide)]
  extract_lets first t u
  have hlate : (b.cycle != t.seq.cycle.truncate 16) = true := by
    obtain ⟨ps, out, hpass⟩ := passedOn_onlyPorts s p b true a.time
    rw [show t = s.passedOn p b true a.time from rfl, hpass]
    exact bne_iff_ne.mpr hc
  have hu : u = t := if_pos hlate
  rw [if_neg (by decide), hu]
  exact if_pos hlate

theorem lateBurst_first (h : s.link.lateSeen = []) (b : Burst) :
    (s.lateBurst b).seq.late = min 255 (s.seq.late + b.pubs.length) := by
  unfold State.lateBurst
  rw [h]
  rfl

theorem lateBurst_again (h : (b.source, kindCode b.kind, b.cycle, burstHead b) ∈ s.link.lateSeen) : s.lateBurst b = s :=
  if_pos (List.contains_iff_mem.mpr h)

/-- A late burst is counted and noted; it stores nothing. -/
theorem lateBurst_stores_nothing (s : State) (b : Burst) : (s.lateBurst b).mem = s.mem ∧ (s.lateBurst b).link.stored = s.link.stored ∧
    (s.lateBurst b).seq.cycle = s.seq.cycle := by
  unfold State.lateBurst
  extract_lets e
  split <;> exact ⟨rfl, rfl, rfl⟩

theorem burstReceive_late (time : Nat) (hr : (s.port p).ready = true) (hlo : 1 ≤ b.pubs.length) (hhi : b.pubs.length ≤ 16384)
    (hc : b.cycle ≠ s.seq.cycle.truncate 16) :
    ∃ t : State, exec (.burstReceive p b ⟨burstCrc b, false, time⟩) s = .next t ∧ t.mem = s.mem ∧ t.link.stored = s.link.stored ∧
      (s.link.lateSeen = [] → t.seq.late = min 255 (s.seq.late + b.pubs.length)) ∧
      ((b.source, kindCode b.kind, b.cycle, burstHead b) ∈ s.link.lateSeen → t.seq.late = s.seq.late) ∧ t.seq.cycle = s.seq.cycle := by
  obtain ⟨hmem, hstored, hcycle⟩ := lateBurst_stores_nothing (s.passedOn p b true time) b
  obtain ⟨ps, out, hpass⟩ := passedOn_onlyPorts s p b true time
  have hseq : (s.passedOn p b true time).seq = s.seq := by rw [hpass]
  have hseen : (s.passedOn p b true time).link.lateSeen = s.link.lateSeen := by rw [hpass]
  refine ⟨_, burstReceive_other_cycle hr (burstGood_clean time hlo hhi) hc, ?mem, ?stored, fun h => ?first, fun h => ?again, ?cycle⟩
  case mem => rw [hmem, hpass]
  case stored => rw [hstored, hpass]
  case first => rw [lateBurst_first (hseen.trans h), hseq]
  case again => rw [lateBurst_again (by rwa [hseen]), hseq]
  case cycle => rw [hcycle, hseq]

/-- The first good copy of the present cycle and schedule is passed on, noted and taken (R239, R244). -/
theorem burstReceive_first (hr : (s.port p).ready = true) (hgood : burstGood b a = true) (hc : b.cycle = s.seq.cycle.truncate 16)
    (hsched : s.link.hasSched = true) (hgen : b.gen = s.link.sched.gen) (hseen : s.link.seen = []) :
    exec (.burstReceive p b a) s = .next (((s.passedOn p b true a.time).modLink fun l => { l with
      seen := [⟨b.source, b.kind, p, true, burstHead b⟩] }).takePubs b 0 b.pubs (burstOrder s p b)) := by
  obtain ⟨ps, out, hpass⟩ := passedOn_onlyPorts s p b true a.time
  change execBurstReceive p b a s = _
  unfold execBurstReceive
  refine congrArg Host.Outcome.next ?_
  rw [hgood, if_neg (by rw [hr]; decide)]
  extract_lets first t u
  have ht : t = s.passedOn p b true a.time := rfl
  have hnow : (b.cycle != t.seq.cycle.truncate 16) = false := by
    rw [ht, hpass]
    exact bne_eq_false_iff_eq.mpr hc
  have hu : u = t.modLink fun l => { l with seen := ⟨b.source, b.kind, p, true, burstHead b⟩ :: l.seen } :=
    if_neg (by rw [hnow]; decide)
  have hfirst : first = true := by
    unfold first
    rw [hseen]
    rfl
  rw [if_neg (by decide), hu, if_neg (by rw [State.modLink_seq, hnow]; decide), hfirst, ht, hpass,
    if_neg (by rw [State.modLink_link, hsched]; decide), if_neg (by rw [State.modLink_link, hgen, bne_self_eq_false]; decide), if_pos rfl]
  simp only [State.modLink, hseen]
  rfl

/-- A publication that its schedule orders there is stored, where this cycle has not stored it (R244). -/
theorem takePubs_one {x : Pub} {e : SchedPub} (he : e.endpoint = x.endpoint) (hnew : e.index ∉ s.link.stored) :
    s.takePubs b 0 [x] [e] = s.storePub e.index x.payload x.age :=
  (if_pos he).trans (if_neg (by rwa [List.contains_iff_mem]))

theorem burstReceive_stores {x : Pub} {e : SchedPub} (time : Nat) (hr : (s.port p).ready = true) (hc : b.cycle = s.seq.cycle.truncate 16)
    (hsched : s.link.hasSched = true) (hgen : b.gen = s.link.sched.gen) (hseen : s.link.seen = []) (hx : b.pubs = [x])
    (horder : burstOrder s p b = [e]) (he : e.endpoint = x.endpoint) (hnew : e.index ∉ s.link.stored) :
    exec (.burstReceive p b ⟨burstCrc b, false, time⟩) s = .next (((s.passedOn p b true time).modLink fun l =>
      { l with seen := [⟨b.source, b.kind, p, true, x.endpoint⟩] }).storePub e.index x.payload x.age) := by
  obtain ⟨ps, out, hpass⟩ := passedOn_onlyPorts s p b true time
  have hhead : burstHead b = x.endpoint := by rw [burstHead, hx]; rfl
  rw [burstReceive_first hr (burstGood_clean time (by simp [hx]) (by simp [hx])) hc hsched hgen hseen, horder, hx, hhead,
    takePubs_one he (by rw [hpass]; exact hnew)]

end Sys2Proof.Machine
end

section
/-! The family of the link: the schedule's switch and its refusal (R56, R256, R257). -/

namespace Sys2Proof.Machine

variable {s t : State} {c : Schedule}

/-! What the switch's parts leave of the link. -/

theorem settleOwed_link (w : Owed) (cycle : BitVec 48) (s : State) : (s.settleOwed w cycle).link = s.link := by
  unfold State.settleOwed
  extract_lets w'
  split <;> rfl

theorem finishAt_link (i : Instr) (o : Origin) (st : Half) (cycle : BitVec 48) (s : State) :
    (s.finishAt i o st cycle).link = s.link := by
  unfold State.finishAt
  split
  · exact settleOwed_link ..
  · rfl

theorem logEvent_link (cls cause inst detail : Nat) (s : State) : (s.logEvent cls cause inst detail).link = s.link := by
  obtain ⟨h, out, r, e⟩ := s.logRec_frame cls cause inst detail [] 0
  exact (congrArg State.link e).trans rfl

theorem cutSubs_link (s : State) : s.cutSubs.link = s.link := by
  unfold State.cutSubs
  extract_lets room fit
  split
  · rfl
  · rw [logEvent_link, State.modHost_link]

/-! The switch (R256, R257). -/

/-- `c` is in force in `t`, and no other schedule and no SET_CYCLE waits. -/
structure InForce (c : Schedule) (t : State) : Prop where
  sched : t.link.sched = c
  hasSched : t.link.hasSched = true
  next : t.link.next = none
  setCycle : t.link.setCycle = none

theorem InForce.of_link {u : State} (h : InForce c t) (e : u.link = t.link) : InForce c u :=
  ⟨e ▸ h.sched, e ▸ h.hasSched, e ▸ h.next, e ▸ h.setCycle⟩

theorem InForce.modDist (h : InForce c t) (f : Distaff → Distaff) : InForce c (t.modDist f) := h.of_link rfl

theorem switchSchedule_none (h : s.link.next = none) : s.switchSchedule = s := by
  unfold State.switchSchedule
  rw [h]

theorem switchSchedule_early (h : s.link.next = some c) (hc : s.seq.cycle.toNat < c.switchCycle.toNat) : s.switchSchedule = s := by
  unfold State.switchSchedule
  rw [h]
  exact if_pos hc

/-- A SCHEDULE_WRITE that has been cancelled leaves the schedule in force (R75). -/
theorem switchSchedule_cancelled {g : LongOp} (h : s.link.next = some c) (hc : c.switchCycle.toNat ≤ s.seq.cycle.toNat)
    (hset : s.link.setCycle = none) (hg : switching s = some g) (hcancel : g.cancel = true) :
    s.switchSchedule = s.modLink fun l => { l with next := none } := by
  unfold State.switchSchedule
  rw [h, hset, hg]
  exact (if_neg (Nat.not_lt.mpr hc)).trans (if_pos hcancel)

/-- At its switch cycle the pending schedule takes over. -/
theorem switchSchedule_inForce (h : s.link.next = some c) (hc : c.switchCycle.toNat ≤ s.seq.cycle.toNat)
    (hkeep : s.link.setCycle.isSome = true ∨ ∀ g : LongOp, switching s = some g → g.cancel = false) :
    InForce c s.switchSchedule := by
  have hdue : ¬ s.seq.cycle.toNat < c.switchCycle.toNat := Nat.not_lt.mpr hc
  unfold State.switchSchedule
  rw [h]
  split
  next hnone => cases hnone
  next c' hsome =>
  cases hsome
  split
  case isTrue hearly => exact absurd hearly hdue
  extract_lets at_ take end_
  have htake (t : State) (l : List (Nat × Rec32)) : InForce c (take t l) :=
    InForce.of_link ⟨rfl, rfl, rfl, rfl⟩ (cutSubs_link ((t.storeSchedule c l).modLink fun x =>
      { x with sched := c, hasSched := true, next := none, setCycle := none }))
  have hend {t : State} (i : Instr) (ht : InForce c t) : InForce c (end_ t i) := by
    unfold end_
    split
    · exact ht.of_link (finishAt_link ..)
    · exact ht
  split
  next i _ => exact hend i (htake s [])
  next g hset hg =>
    have hgoes : g.cancel = false := by
      rcases hkeep with hkeep | hkeep
      · rw [hset] at hkeep
        cases hkeep
      · exact hkeep g hg
    rw [if_neg (by rw [hgoes]; decide)]
    exact hend g.cmd ((htake _ _).modDist _)
  next => exact htake _ _

/-! SCHEDULE_SWITCH and SCHEDULE_CONFIRM_TIMEOUT. -/

/-- The row that brings no entries switches what waits. -/
theorem scheduleSwitch_waiting (s : State) : exec (.scheduleSwitch []) s = .next s.switchSchedule := rfl

theorem scheduleSwitch_takes (h : s.link.next = some c) (hc : c.switchCycle.toNat ≤ s.seq.cycle.toNat)
    (hkeep : s.link.setCycle.isSome = true ∨ ∀ g : LongOp, switching s = some g → g.cancel = false) :
    ∃ t : State, exec (.scheduleSwitch []) s = .next t ∧ t.link.sched = c ∧ t.link.hasSched = true ∧ t.link.next = none ∧
      t.link.setCycle = none := by
  obtain ⟨hsched, hhas, hnext, hset⟩ := switchSchedule_inForce h hc hkeep
  exact ⟨_, scheduleSwitch_waiting s, hsched, hhas, hnext, hset⟩

/-- A refusal ends the SET_CYCLE that waits, and its schedule is gone (R257). -/
theorem scheduleConfirmTimeout_refuses {i : Instr} {o : Origin} (r : SchedRefusal) (hset : s.link.setCycle = some i)
    (ho : originOf i = some o) (howed : s.owedFor i = none) :
    exec (.scheduleConfirmTimeout r) s =
      .next ((s.modLink fun l => { l with setCycle := none, next := none }).ended i o stRefused (refusalBytes r)) := by
  have hended : (s.modLink fun l => { l with setCycle := none, next := none }).finish i o stRefused (refusalBytes r) =
      (s.modLink fun l => { l with setCycle := none, next := none }).ended i o stRefused (refusalBytes r) :=
    finish_ended (by exact howed) ..
  change execScheduleConfirmTimeout r s = _
  rw [execScheduleConfirmTimeout, hset]
  dsimp only
  rw [ho]
  exact congrArg Host.Outcome.next hended

end Sys2Proof.Machine
end

section
/-! The family of the link: the domain's master and the enumeration (R237, R252, R253). -/

namespace Sys2Proof.Machine

variable {s t u : State}

/-! Vectors and ready bits leave the link. -/

theorem raise_link (v : Nat) (s : State) : (s.raise v).link = s.link := by
  obtain ⟨h, out, e, -⟩ := raise_frame (s := s) v
  rw [e]

theorem setReady_link (b : Fin 24) (v : Bool) (s : State) : (s.setReady b v).link = s.link := by
  obtain ⟨r, h, out, e, -⟩ := setReady_frame s b v
  rw [e]

theorem setReady_raise_isReady (b : Fin 24) (v : Bool) (w : Nat) (s : State) : ((s.setReady b v).raise w).isReady b = v := by
  rw [State.isReady, raise_pwr]
  exact (setReady_isReady ..).trans (if_pos rfl)

theorem evaluate_link (s : State) : s.evaluate.link = s.link := by
  obtain ⟨f, q, x, e⟩ := evaluate_onlyGates s
  rw [e]

theorem mramWrite_link (off n : Nat) (s : State) : (s.mramWrite off n).link = s.link := by
  obtain ⟨h, out, r, e⟩ := State.wearRange_frame ((off + n + 4095) / 4096 - off / 4096) s (off / 4096)
  rw [State.mramWrite, e]

/-! What sending frames leaves of the link (R247). -/

/-- The link of `t` is that of `s` but for its ports and the sequence of its frames. -/
def LinkSends (s t : State) : Prop := ∃ ps n, t.link = { s.link with ports := ps, oseq := n }

theorem LinkSends.of_link (h : t.link = s.link) : LinkSends s t := ⟨s.link.ports, s.link.oseq, h⟩

theorem LinkSends.trans (h : LinkSends s t) (k : LinkSends t u) : LinkSends s u := by
  obtain ⟨ps, n, h⟩ := h
  obtain ⟨qs, m, k⟩ := k
  exact ⟨qs, m, by rw [k, h]⟩

theorem LinkSends.foldl {α : Type} {f : State → α → State} (h : ∀ t a, LinkSends t (f t a)) (l : List α) (s : State) :
    LinkSends s (l.foldl f s) := by
  induction l generalizing s with
  | nil => exact .of_link rfl
  | cons a l ih => exact (h s a).trans (ih (f s a))

theorem enqueue_linkSends (p : Port) (f : Frame) (s : State) : LinkSends s (s.enqueue p f) := by
  have hgrab := grab_onlyBanks s
  unfold State.enqueue
  split
  next t b h =>
    obtain ⟨q, m, ht⟩ := hgrab
    rw [h] at ht
    exact ⟨_, s.link.oseq, by rw [show t = _ from ht]; rfl⟩
  next => exact .of_link rfl

theorem spread_linkSends (f : Frame) (but : Option Port) (s : State) : LinkSends s (s.spread f but) := by
  unfold State.spread
  split
  · exact .foldl (fun t p => enqueue_linkSends p f t) _ s
  · exact enqueue_linkSends _ f s

theorem sendBody_linkSends (dst : BitVec 14) (kind : BitVec 4) (data : List (BitVec 64)) (body : FrameBody) (s : State) :
    LinkSends s (s.sendBody dst kind data body) :=
  LinkSends.trans ⟨s.link.ports, s.link.oseq + 1, rfl⟩ (spread_linkSends _ none _)

theorem sendCopies_linkSends (n : Negative) (s : State) : LinkSends s (s.sendCopies n) :=
  .foldl (fun t p => by
    split
    · exact sendBody_linkSends ..
    · exact .of_link rfl) _ s

theorem keepItems_linkSends (s : State) : LinkSends s s.keepItems :=
  (LinkSends.of_link ((mramWrite_link ..).trans (State.modRec_link ..))).trans (sendCopies_linkSends _ _)

/-! The master (R252). -/

theorem beaconSend_quiet (h : s.link.master = false) : exec .beaconSend s = .next s :=
  congrArg Host.Outcome.next (if_neg (by rw [h]; decide))

theorem beaconSend_sends (h : s.link.master = true) : ∃ t : State, exec .beaconSend s = .next t ∧ t.link.oseq = s.link.oseq + 1 :=
  ⟨_, congrArg Host.Outcome.next (if_pos h), sendBody_oseq ..⟩

theorem beaconLoss_elects {cs : List Candidate} {c : Candidate} (h : s.link.master = false)
    (hc : elect (s.asSelf s.link.masterPrio cs) = some c) :
    ∃ t : State, exec (.beaconLoss cs) s = .next t ∧ t.link.master = c.self ∧ t.link.masterSeen = false := by
  refine ⟨_, congrArg Host.Outcome.next (if_neg (by rw [h]; decide)), ?_⟩
  rw [hc]
  dsimp only
  split
  · rw [raise_link]
    exact ⟨rfl, rfl⟩
  · exact ⟨rfl, rfl⟩

/-! Enumeration (R237, R253). -/

/-- A topology that breaks R237 is not enumerated. -/
theorem enumeration_illegal {found : List FoundDevice} {links : List FoundLink} {deg : List (Nat × Port)}
    (h : (topologyOf found links deg (enumerate s found)).legal = false) :
    ∃ t : State, exec (.enumeration found links deg) s = .next t ∧ t.isReady rdyDomain = false ∧ t.link = s.link ∧
      t.host.intStatus.getLsbD 13 = true := by
  refine ⟨_, congrArg Host.Outcome.next (if_pos (by rw [h]; rfl)), ?ready, ?link, raise_sets (by decide)⟩
  case ready => exact setReady_raise_isReady ..
  case link => rw [raise_link, setReady_link]

/-- The topology of one device that keeps its number. -/
def aloneTopo (d : FoundDevice) (n : BitVec 14) : Topology := topologyOf [d] [] [] [(d, .number n.toNat false)]

variable {d : FoundDevice} {n : BitVec 14}

theorem aloneTopo_ups (g : Nat) : (aloneTopo d n).ups g = [] := rfl

theorem aloneTopo_segments : (aloneTopo d n).segments = [0] := by
  have h : segmentsOf 1 [] = [0] := by decide
  exact h

/-- R237 allows it: its one segment is the root. -/
theorem aloneTopo_legal : (aloneTopo d n).legal = true := by
  have hlinks : (aloneTopo d n).links = [] := rfl
  have hone : segmentCount [0] = 1 := rfl
  simp only [Topology.legal, aloneTopo_ups, aloneTopo_segments, hlinks, hone]
  simp [treeLinks, Topology.inTree, Topology.below, aloneTopo_segments, hone]

theorem aloneTopo_ring : (aloneTopo d n).isRing 0 = false := rfl

/-- Its one device, in segment 0, is this one. -/
theorem aloneTopo_segment (hd : d.self = true) : (aloneTopo d n).segment (aloneTopo d n).self = 0 := by
  have hself : (aloneTopo d n).self = 0 := by simp [aloneTopo, topologyOf, List.findIdx?_cons, hd]
  rw [hself, Topology.segment, aloneTopo_segments]
  rfl

/-- A device that holds its number and is found alone keeps it. The record is taken apart, for `numberAll` to compute on it: its
equations would search the numbers that are free. -/
theorem enumerate_alone (hn : d.held = some n) (s : State) : enumerate s [d] = [(d, .number n.toNat false)] := by
  obtain ⟨serial, held⟩ := d
  cases hn
  rfl

/-- The device with its number and segment, before these go into the negative. -/
def State.placed (s : State) (n : Nat) (fresh : Bool) : State :=
  (s.modLink fun l => { l with
    device := BitVec.ofNat 14 n, numbered := true, segment := BitVec.ofNat 14 (s.link.topo.segment s.link.topo.self) }).modRec
    fun r => { r with printing := r.printing || fresh }

theorem takeNumber_linkSends (n : Nat) (fresh : Bool) (s : State) :
    LinkSends (s.placed n fresh) (s.takeNumber (.number n fresh)) := by
  refine (keepItems_linkSends _).trans (.of_link ?_)
  change (((s.placed n fresh).keepItems.evaluate.setReady rdyDomain s.seq.running).raise 13).link = _
  rw [raise_link, setReady_link, evaluate_link]

/-- This device with the topology in which it is alone. -/
def State.foundAlone (s : State) (d : FoundDevice) (n : BitVec 14) : State :=
  s.modLink fun x => { x with topo := aloneTopo d n, ring := (aloneTopo d n).isRing ((aloneTopo d n).segment (aloneTopo d n).self) }

/-- A device that is found alone and is no master takes its number, and sends nothing more. -/
theorem enumeration_alone_takes (hd : d.self = true) (hn : d.held = some n) (hm : s.link.master = false) :
    exec (.enumeration [d] [] []) s = .next ((s.foundAlone d n).takeNumber (.number n.toNat false)) := by
  obtain ⟨ps, q, hlink⟩ := takeNumber_linkSends n.toNat false (s.foundAlone d n)
  have hslave : ((s.foundAlone d n).takeNumber (.number n.toNat false)).link.master = false := by
    rw [hlink]
    exact hm
  have htopo : topologyOf [d] [] [] [(d, .number n.toNat false)] = aloneTopo d n := rfl
  change execEnumeration [d] [] [] s = _
  rw [execEnumeration, enumerate_alone hn]
  dsimp only
  rw [htopo, aloneTopo_legal, if_neg (by decide), List.foldl_cons, List.foldl_nil, if_pos hd, ← State.foundAlone.eq_1, hslave]
  exact congrArg Host.Outcome.next (if_pos rfl)

theorem enumeration_alone (hd : d.self = true) (hn : d.held = some n) (hm : s.link.master = false) :
    ∃ t : State, exec (.enumeration [d] [] []) s = .next t ∧ t.link.device = n ∧ t.link.numbered = true ∧ t.link.ring = false ∧
      t.link.segment = 0 := by
  obtain ⟨ps, q, hlink⟩ := takeNumber_linkSends n.toNat false (s.foundAlone d n)
  refine ⟨_, enumeration_alone_takes hd hn hm, ?_⟩
  rw [hlink]
  refine ⟨?device, rfl, ?ring, ?segment⟩
  case device => exact BitVec.ofNat_toNat ..
  case ring => exact (congrArg (aloneTopo d n).isRing (aloneTopo_segment hd)).trans aloneTopo_ring
  case segment => exact congrArg (BitVec.ofNat 14) (aloneTopo_segment hd)

end Sys2Proof.Machine
end

section
/-! The family of the link: prints and joining (R254, R284, R285). -/

namespace Sys2Proof.Machine

variable {s t u : State}

/-! A record of the fixer log leaves the negative, and whether a print is received, as they stand, and takes no vector back. -/

theorem setBit_stays {w v k : Nat} {x : BitVec w} (hk : k < w) (h : x.getLsbD v = true) : (setBit x k true).getLsbD v = true := by
  rw [getLsbD_setBit x hk]
  split
  · rfl
  · exact h

/-- A vector whose bit is set keeps it when another is raised (R58). -/
theorem raise_stays {v k : Nat} (hk : k < 32) (h : s.host.intStatus.getLsbD v = true) :
    (s.raise k).host.intStatus.getLsbD v = true := by
  unfold State.raise
  extract_lets t
  have ht : t.host.intStatus.getLsbD v = true := setBit_stays hk h
  split
  · exact h
  · split
    · exact ht
    · rwa [sendMsix_intStatus]

theorem setLevel_stays {v : Nat} (src : Fin 25) (lvl : Nat) (h : s.host.intStatus.getLsbD v = true) :
    (s.setLevel src lvl).host.intStatus.getLsbD v = true := by
  unfold State.setLevel
  extract_lets w crossed rearm
  split
  · exact raise_stays (by decide) h
  · exact h

/-- From `s` to `t` the log and the wear of the MRAM may have changed, and no vector has been taken back. -/
structure Logs (s t : State) : Prop where
  negative : t.rec_.negative = s.rec_.negative
  printing : t.rec_.printing = s.rec_.printing
  stays : ∀ v : Nat, s.host.intStatus.getLsbD v = true → t.host.intStatus.getLsbD v = true

theorem Logs.trans (h : Logs s t) (k : Logs t u) : Logs s u :=
  ⟨k.negative.trans h.negative, k.printing.trans h.printing, fun v hv => k.stays v (h.stays v hv)⟩

theorem modRec_logs {f : Recovery → Recovery} (hn : (f s.rec_).negative = s.rec_.negative) (hp : (f s.rec_).printing = s.rec_.printing) :
    Logs s (s.modRec f) := ⟨hn, hp, fun _ hv => hv⟩

/-- A change of the log with its notice and its level, that leaves the negative. -/
theorem noticed_logs {f : Recovery → Recovery} (n : Nat) (hn : (f s.rec_).negative = s.rec_.negative)
    (hp : (f s.rec_).printing = s.rec_.printing) : Logs s (((s.modRec f).raise 18).setLevel 24 n) := by
  refine ⟨?_, ?_, fun v hv => setLevel_stays 24 n (raise_stays (by decide) hv)⟩
  · rw [noticed_rec, hn]
  · rw [noticed_rec, hp]

theorem putRec_logs (cls cause inst detail : Nat) (context : List Int) (flags : Nat) (s : State) :
    Logs s (s.putRec cls cause inst detail context flags) :=
  noticed_logs _ rfl rfl

theorem wearBlock_print (b : Nat) (r : Recovery) : (wearBlock b r).1.negative = r.negative ∧ (wearBlock b r).1.printing = r.printing := by
  unfold wearBlock
  extract_lets n
  split
  · exact ⟨rfl, rfl⟩
  · split <;> exact ⟨rfl, rfl⟩

theorem wearBlock_logs (b : Nat) (s : State) : Logs s (s.modRec fun _ => (wearBlock b s.rec_).1) := by
  obtain ⟨hneg, hprint⟩ := wearBlock_print b s.rec_
  exact modRec_logs hneg hprint

theorem wearOne_logs (k : Nat) (s : State) (b : Nat) : Logs s (s.wearOne b k) := by
  induction k generalizing s b with
  | zero => exact wearBlock_logs b s
  | succ k ih =>
    have hblock := wearBlock_logs b s
    unfold State.wearOne
    extract_lets spares
    split
    next r worn hr =>
    rw [hr] at hblock
    extract_lets t
    split
    · exact (hblock.trans (putRec_logs ..)).trans (ih _ _)
    · exact hblock

theorem wearRange_logs (n : Nat) (s : State) (lo : Nat) : Logs s (s.wearRange lo n) := by
  induction n generalizing s with
  | zero => exact ⟨rfl, rfl, fun _ hv => hv⟩
  | succ n ih => exact (wearOne_logs 3 s (lo + n)).trans (ih _)

theorem mramWrite_logs (off n : Nat) (s : State) : Logs s (s.mramWrite off n) := wearRange_logs ..

theorem logEvent_logs (cls cause inst detail : Nat) (s : State) : Logs s (s.logEvent cls cause inst detail) :=
  (putRec_logs ..).trans (mramWrite_logs ..)

/-! What the applying of a negative leaves of the record of the MRAM (R284). -/

theorem OnlyBanks.rec_ (h : OnlyBanks s t) : t.rec_ = s.rec_ := by
  obtain ⟨p, m, rfl⟩ := h
  rfl

theorem leaveCan_rec (i : StrandId) (b : Binding) (s : State) : (s.leaveCan i b).rec_ = s.rec_ := by
  unfold State.leaveCan
  split <;> rfl

theorem wakeFn_rec (f : Half) (s : State) : (s.wakeFn f).rec_ = s.rec_ := (wakeFn_onlyBanks f s).rec_

theorem placeSlot_rec (old new : Binding) (s : State) : (s.placeSlot old new).rec_ = s.rec_ := by
  unfold State.placeSlot
  extract_lets drop dropped
  have hdrop (t : State) : (drop t).rec_ = t.rec_ := by
    unfold drop
    split
    · exact foldl_frame State.rec_ (fun _ _ => State.modRole_rec_ ..) _ t
    · rfl
  split
  · extract_lets e
    split
    · rw [State.holdAwake, State.modPwr_rec_, wakeFn_rec, State.modRole_rec_]
      exact hdrop s
    · exact hdrop s
  · exact hdrop s

theorem switchOff_rec (i : StrandId) (s : State) : (s.switchOff i).rec_ = s.rec_ := by
  unfold State.switchOff State.endTable State.forceStrand
  extract_lets b
  split <;> split <;> rfl

theorem raiseCause_rec (i : StrandId) (c : Nat) (s : State) : (s.raiseCause i c).rec_ = s.rec_ := by
  rw [raiseCause_frame]

theorem meetInputs_rec (i : StrandId) (s : State) : (s.meetInputs i).rec_ = s.rec_ := by
  unfold State.meetInputs
  split
  · rfl
  next q _ =>
    extract_lets ps hot gated t
    have ht : t.rec_ = s.rec_ := by
      unfold t
      split
      · rfl
      · exact raiseCause_rec ..
    split
    · exact ht
    · exact (raiseCause_rec ..).trans ht

theorem seat_rec (i : StrandId) (old : Binding) (s : State) : (s.seat i old).rec_ = s.rec_ := by
  unfold State.seat
  extract_lets c e placed off quad unit
  have hoff : off.rec_ = s.rec_ := (wakeFn_rec ..).trans ((switchOff_rec ..).trans (placeSlot_rec ..))
  have hquad : quad.rec_ = off.rec_ := by
    unfold quad
    split
    · exact wakeFn_rec ..
    · rfl
  have hunit : unit.rec_ = quad.rec_ := by
    unfold unit
    split
    · exact wakeFn_rec ..
    · rfl
  rw [meetInputs_rec, hunit, hquad, hoff]

theorem seatFrom_rec (was : State) (i : StrandId) (s : State) : (was.seatFrom s i).rec_ = s.rec_ := by
  unfold State.seatFrom
  extract_lets old
  split
  · rw [seat_rec, leaveCan_rec]
  · split
    · rw [placeSlot_rec, leaveCan_rec]
    · rfl

theorem setLevel_rec (src : Fin 25) (lvl : Nat) (s : State) : (s.setLevel src lvl).rec_ = s.rec_ := by
  obtain ⟨h, out, e, -⟩ := setLevel_frame (s := s) src lvl
  rw [e]

theorem storeRules_rec (c : CanId) (s : State) : (s.storeRules c).rec_ = s.rec_ := by
  rw [State.storeRules, State.canBytes, State.modMem_rec_, (wakeRange_onlyBanks ..).rec_, wakeFn_rec]

theorem configCan_rec (c : CanId) (g : CanCfg) (s : State) : (s.configCan c g).rec_ = s.rec_ := by
  unfold State.configCan State.fifoLevel
  extract_lets old stored mark
  have hmark (t : State) (second : Bool) (n was : Nat) : (mark t second n was).rec_ = t.rec_ := by
    unfold mark
    split <;> rfl
  rw [setLevel_rec, setLevel_rec, hmark, hmark]
  exact storeRules_rec ..

theorem restoreMap_rec (l : List (BitVec 24 × Sample)) (s : State) : (s.restoreMap l).rec_ = s.rec_ := by
  unfold State.restoreMap
  split
  next t chain h => exact (grabN_given h).2.1.rec_
  next => rfl

theorem restoreCam_rec (i : Fin 64) (c : Option CamBuf) (s : State) : (s.restoreCam i c).rec_ = s.rec_ := by
  unfold State.restoreCam
  split
  next t l h => exact (grabN_given h).2.1.rec_
  next => rfl

theorem modHost_logs {f : HostIf → HostIf} (h : (f s.host).intStatus = s.host.intStatus) : Logs s (s.modHost f) :=
  ⟨rfl, rfl, fun v hv => (congrArg (·.getLsbD v) h).trans hv⟩

/-- A subscription list that is cut writes a record (R56). -/
theorem cutSubs_logs (s : State) : Logs s s.cutSubs := by
  unfold State.cutSubs
  extract_lets room fit
  split
  · exact ⟨rfl, rfl, fun _ hv => hv⟩
  · exact (modHost_logs rfl).trans (logEvent_logs ..)

/-- A negative that is applied writes records at most: it stays, and so does what says that a print is received. -/
theorem applyNegative_print (n : Negative) (s : State) : (s.applyNegative n).rec_.negative = s.rec_.negative ∧
    (s.applyNegative n).rec_.printing = s.rec_.printing := by
  unfold State.applyNegative
  extract_lets was s₁ s₂ s₃ s₄ s₅ s₆ s₇ s₈ s₉ s₁₀
  have h₆ : s₆.rec_ = s.rec_ := by
    unfold s₆
    split <;> rfl
  have h₇ : s₇.rec_ = s₆.rec_ := foldl_frame State.rec_ (fun t i => seatFrom_rec was i t) _ _
  have h₈ : s₈.rec_ = s₇.rec_ := foldl_frame State.rec_ (fun t u => by
    split
    · rfl
    · split <;> rfl) _ _
  have h₉ : s₉.rec_ = s₈.rec_ := foldl_frame State.rec_ (fun t c => by
    split
    · split
      · rfl
      · exact configCan_rec ..
    · rfl) _ _
  have h₁₀ : s₁₀.rec_ = s₉.rec_ := restoreMap_rec ..
  have hcams : ((List.finRange 64).foldl (fun s i => s.restoreCam i (n.cams.getD i.val none)) s₁₀).rec_ = s.rec_ := by
    rw [foldl_frame State.rec_ (fun t i => restoreCam_rec ..), h₁₀, h₉, h₈, h₇, h₆]
  obtain ⟨hneg, hprint, -⟩ := cutSubs_logs ((List.finRange 64).foldl (fun s i => s.restoreCam i (n.cams.getD i.val none)) s₁₀)
  rw [hcams] at hneg hprint
  exact ⟨hneg, hprint⟩

/-! PRINT_APPLY (R284, R285). -/

theorem raise_rec (v : Nat) (s : State) : (s.raise v).rec_ = s.rec_ := by
  obtain ⟨h, out, e, -⟩ := raise_frame (s := s) v
  rw [e]

theorem raise_saf (v : Nat) (s : State) : (s.raise v).saf = s.saf := by
  obtain ⟨h, out, e, -⟩ := raise_frame (s := s) v
  rw [e]

theorem logEvent_saf (cls cause inst detail : Nat) (s : State) : (s.logEvent cls cause inst detail).saf = s.saf := by
  obtain ⟨h, out, r, e⟩ := s.logRec_frame cls cause inst detail [] 0
  rw [State.logEvent, e]

theorem evaluate_rec (s : State) : s.evaluate.rec_ = s.rec_ := by
  obtain ⟨f, q, x, e⟩ := evaluate_onlyGates s
  rw [e]

/-- The islands' evaluation leaves the confirmation of the safety part as it is (R285). -/
theorem evaluate_confirmed (s : State) : s.evaluate.saf.confirmed = s.saf.confirmed := by
  have hfall (q : QuadId) (t : State) : (t.gatesFall q).saf = t.saf := foldl_frame State.saf (fun _ _ => State.modStrand_saf ..) _ t
  unfold State.evaluate
  extract_lets wa wb hold fa fb common ga gb t u
  have hu : u.saf.confirmed = s.saf.confirmed := rfl
  refine (congrArg Safety.confirmed (foldl_frame State.saf (fun v q => ?_) _ u)).trans hu
  extract_lets a b
  split
  · rfl
  · split
    · rfl
    · rw [hfall, State.modQuad_saf]

/-- The device with the print as its negative, applied, its safety part unconfirmed. -/
def State.printed (s : State) (neg : Negative) : State :=
  let s := s.modRec fun r => { r with negative := some neg, negGen := r.negGen + 1, printing := false }
  ((s.mramWrite (negPlace s.rec_.negGen) 0x200000).applyNegative neg).modSaf fun q =>
    { q with confirmed := false, printed := some (neg.safety, neg.password) }

theorem printed_print (neg : Negative) (s : State) :
    (s.printed neg).rec_.negative = some neg ∧ (s.printed neg).rec_.printing = false := by
  unfold State.printed
  extract_lets kept
  obtain ⟨hneg, hprint, -⟩ := mramWrite_logs (negPlace kept.rec_.negGen) 0x200000 kept
  obtain ⟨hneg', hprint'⟩ := applyNegative_print neg (kept.mramWrite (negPlace kept.rec_.negGen) 0x200000)
  exact ⟨hneg'.trans hneg, hprint'.trans hprint⟩

theorem printed_confirmed (neg : Negative) (s : State) : (s.printed neg).saf.confirmed = false := rfl

theorem printApply_idle (neg : Negative) (h : s.rec_.printing = false) : exec (.printApply neg) s = .next s :=
  congrArg Host.Outcome.next (if_pos (by rw [h]; rfl))

/-- A device that a print was sent applies it, with the vector and the record of it (R284). -/
theorem printApply_runs (neg : Negative) (h : s.rec_.printing = true) : exec (.printApply neg) s =
    .next (((s.printed neg).evaluate.raise 13).logEvent 8 2 (s.printed neg).link.device.toNat 0) :=
  congrArg Host.Outcome.next (if_neg (by rw [h]; decide))

theorem printApply_applies (neg : Negative) (h : s.rec_.printing = true) :
    ∃ t : State, exec (.printApply neg) s = .next t ∧ t.rec_.printing = false ∧ t.rec_.negative = some neg ∧
      t.saf.confirmed = false ∧ t.host.intStatus.getLsbD 13 = true := by
  obtain ⟨hneg, hprint⟩ := printed_print neg s
  have hlogs := logEvent_logs 8 2 (s.printed neg).link.device.toNat 0 ((s.printed neg).evaluate.raise 13)
  refine ⟨_, printApply_runs neg h, ?printing, ?negative, ?confirmed, hlogs.stays 13 (raise_sets (by decide))⟩
  case printing => rw [hlogs.printing, raise_rec, evaluate_rec, hprint]
  case negative => rw [hlogs.negative, raise_rec, evaluate_rec, hneg]
  case confirmed => rw [logEvent_saf, raise_saf, evaluate_confirmed, printed_confirmed]

/-! DOMAIN_JOIN (R254). -/

theorem domainJoin_waits (time : BitVec 64) (cycle : BitVec 48) (h : s.rec_.printing = true) :
    exec (.domainJoin time cycle) s = .next s :=
  congrArg Host.Outcome.next (if_pos (by simp [h]))

/-- The device that steps its time and its cycle counter, and is a member. -/
def State.joined (s : State) (time : BitVec 64) (cycle : BitVec 48) : State :=
  let d := fun (x : TimeDom) => { x with ns := time, frac := 0 }
  let s := s.modTime fun t =>
    if t.sel = .td1 then { t with dev := time, devFrac := 0, td1 := d t.td1 } else { t with dev := time, devFrac := 0, td2 := d t.td2 }
  let s := s.modSeq fun q => { q with cycle := cycle, running := true }
  s.modLink fun l => { l with member := true, joining := true }

theorem joined_dev (time : BitVec 64) (cycle : BitVec 48) (s : State) : (s.joined time cycle).time.dev = time := by
  unfold State.joined
  extract_lets d t u
  rw [State.modLink_time, State.modSeq_time, State.modTime_time]
  split <;> rfl

theorem domainJoin_runs (time : BitVec 64) (cycle : BitVec 48) (hm : s.link.member = false) (hp : s.rec_.printing = false)
    (hn : s.link.numbered = true) (hs : s.link.hasSched = true) (ht : timeTracked s = true) (hr : (s.port .s).ready = true) :
    exec (.domainJoin time cycle) s = .next (((s.joined time cycle).setReady rdyDomain true).raise 13) := by
  have hport : allPorts.any (fun p => (s.port p).ready) = true := List.any_eq_true.mpr ⟨.s, by decide, hr⟩
  exact congrArg Host.Outcome.next (if_neg (by rw [hm, hp, hn, hs, ht, hport]; decide))

theorem domainJoin_joins (time : BitVec 64) (cycle : BitVec 48) (hm : s.link.member = false) (hp : s.rec_.printing = false)
    (hn : s.link.numbered = true) (hs : s.link.hasSched = true) (ht : timeTracked s = true) (hr : (s.port .s).ready = true) :
    ∃ t : State, exec (.domainJoin time cycle) s = .next t ∧ t.link.member = true ∧ t.seq.cycle = cycle ∧ t.seq.running = true ∧
      t.time.dev = time ∧ t.isReady rdyDomain = true := by
  have hseq : (((s.joined time cycle).setReady rdyDomain true).raise 13).seq = (s.joined time cycle).seq :=
    congrArg Ctl.seq ((State.raise_ctl ..).trans (State.setReady_ctl ..))
  refine ⟨_, domainJoin_runs time cycle hm hp hn hs ht hr, ?member, ?cycle, ?running, ?time, ?ready⟩
  case member =>
    rw [raise_link, setReady_link]
    rfl
  case cycle =>
    rw [hseq]
    rfl
  case running =>
    rw [hseq]
    rfl
  case time => rw [raise_time, setReady_time, joined_dev]
  case ready => exact setReady_raise_isReady ..

end Sys2Proof.Machine
end

section
open Sys2Proof Sys2Proof.Machine

/-- Settles O54. A burst row is its guard, what it passes on, and what it counts or stores; SCHEDULE_SWITCH is the pending schedule's
switch; an enumeration of one device is the taking of its number; PRINT_APPLY and DOMAIN_JOIN are their guard and their effect, of
which the log records, vectors and ready bits that follow take nothing back. -/
theorem burstsScheduleAndDomainAct : Obligations.BurstsScheduleAndDomainAct := by
  refine ⟨fun _ late ecc _ => burstTransmit_silent late ecc, fun late _ => burstTransmit_home late [],
    fun _ b a _ => burstReceive_down b a, fun _ _ _ _ => burstReceive_spoilt_tree, fun _ _ time _ => burstReceive_late time,
    fun _ _ _ _ time _ => burstReceive_stores time, fun _ _ s hnext hdue hset hg hcancel => ?cancelled,
    fun _ _ => scheduleSwitch_takes, fun _ s hnext hearly => ?early, fun s hnone => ?nothing,
    fun r _ _ _ => scheduleConfirmTimeout_refuses r, fun _ => beaconSend_quiet, fun _ => beaconSend_sends, fun _ _ _ => beaconLoss_elects,
    fun _ _ _ _ => enumeration_illegal, fun _ _ _ => enumeration_alone, fun neg _ => printApply_applies neg,
    fun neg _ => printApply_idle neg, fun time cycle _ => domainJoin_waits time cycle, fun time cycle _ => domainJoin_joins time cycle⟩
  case cancelled => rw [scheduleSwitch_waiting, switchSchedule_cancelled hnext hdue hset hg hcancel]
  case early => rw [scheduleSwitch_waiting, switchSchedule_early hnext hearly]
  case nothing => rw [scheduleSwitch_waiting, switchSchedule_none hnone]
end
